-- ==== Sys2Proof/Word.lean ====
section
/-! DEFINITION. The word types of the BZ9 and the slices of a number that every layout is read by. -/

namespace Sys2Proof

/-- A byte of memory, R3. -/
abbrev Byte := BitVec 8

/-- A token's VALUE, a register, a descriptor word: 64 bits. -/
abbrev Word := BitVec 64

/-- An instruction word, R23. -/
abbrev IWord := BitVec 128

end Sys2Proof
end

