-- ==== Sys2Proof/Config.lean ====
section
/-! DEFINITION. What one package fixes, and the values the spec leaves open: each open value is an opaque constant
without a body, applied to what it depends on or to the counter `fresh` of the state (the assumption log names
every one of them). -/

namespace Sys2Proof.Config

/-- R15: cores of a package. -/
def cores : Nat := 256

/-- R244: context seats on a core. -/
def seats : Nat := 16

/-- R138: engine-command records of a core. -/
def engRecords : Nat := 64

/-- R204: IFR entries of a core. -/
def ifrEntries : Nat := 1024

/-- R252: frame descriptors and slots of a core, granted in groups of 8 slots. -/
def frames : Nat := 4096
def frameSlots : Nat := 32768

/-- R130: granules, accumulator rows and handle indices of a core. -/
def granules : Nat := 98304
def accRows : Nat := 512
def tileIndices : Nat := 4096

/-- R149: scratch words of a unit. -/
def scratchWords : Nat := 32768

/-- R281: populated second tier (bytes) and CXL ports until management firmware reports others, as in every printed program. DESIGN CHOICE (log 7). -/
def tier2Size : Nat := 8 * 2 ^ 40
def cxlPorts : Nat := 4

/-- R88, R128: whether the value returned lies above the true one, where the spec allows either neighbour. DESIGN CHOICE (log 53). -/
opaque expUp : Nat → Bool

/-- R169: the same for LLOG2F. DESIGN CHOICE (log 53). -/
opaque logUp : Nat → Bool

/-- R422: the byte read at an address when the reading key differs from the writing key. DESIGN CHOICE (log 71). -/
opaque wrongKey : Nat → Nat → Nat → Nat → Byte

/-- An outcome that the spec leaves to the run, one for each draw (R6). DESIGN CHOICE (log 6). -/
opaque choice : Nat → Nat

/-- R417 to R419: digests, signatures, certificates and session secrets that named standards form. DESIGN CHOICE (log 129). -/
opaque digest : Nat → Nat
/-- DESIGN CHOICE (log 129). -/
opaque signature : Nat → Nat → Nat
opaque certificate : Nat → Nat
opaque secret : Nat → Nat

/-- R364: device-internal content of a save area: a byte of it, for each save. DESIGN CHOICE (log 104). -/
opaque saveByte : Nat → Nat → BitVec 8

/-- R363: bytes of a save area of a region of so many cores. DESIGN CHOICE (log 104). -/
opaque saveBytes : Nat → Nat

/-- R288: the leaf that another package's walk returns for a tenant's virtual address, by draw; none where that package has
no tables for the tenant. DESIGN CHOICE (log 73). -/
opaque remoteLeaf : Nat → Nat → Nat → Nat → Option Nat

/-- R285, R341, R439: what a read outside the package (host, remote package, network peer) returns, by place and
draw. DESIGN CHOICE (log 72). -/
opaque outsideByte : Nat → Nat → Byte

/-- R367: word 6 of a vector command's record, by row and next beat. DESIGN CHOICE (log 172). -/
opaque runPosition : Nat → Nat → Nat

/-- R160: what a scratch word that cannot be read counts as within the failing beat, by draw and lane. DESIGN CHOICE (log 152). -/
opaque failedWord : Nat → Nat → BitVec 32

/-- R160: what a granule with an uncorrectable error counts as within the failing beat, by draw and byte. DESIGN CHOICE (log 152). -/
opaque failedByte : Nat → Nat → Byte

/-- R174: the block code of LCBK for a NaN amax value and a positive finite S. DESIGN CHOICE (log 52). -/
opaque nanBlock : Nat → Nat → Nat

end Sys2Proof.Config
end

