-- ==== Sys2Proof/Syntax.lean ====
section
/-! DEFINITION. The instructions and events of the BZ9: one constructor of `Instr` for every row of
spec/opcode_table.json. The token instructions carry the fields of their 128-bit word (R23) already taken
apart; the events carry what comes with them from outside the unit that performs them. -/

namespace Sys2Proof

/-- Element types, R27; `none` is code 0xF. -/
inductive Ty where
  | s8 | s16 | s32 | s64 | z8 | z16 | z32 | z64 | f32 | bf16 | f16 | e4m3 | e5m2 | e2m1 | qn4 | none
  deriving DecidableEq, Repr

/-- Block geometries, R28. -/
inductive Geom where
  | g0 | g1 | g2 | g3 | g4 | g5
  deriving DecidableEq, Repr

/-- Operand ports, R16 and R25. -/
inductive Port where
  | l | r | c
  deriving DecidableEq, Repr

/-- A destination field, R25. -/
inductive Dest where
  | none
  | node (n : BitVec 7) (p : Port)
  | out (p : BitVec 6)
  deriving DecidableEq, Repr

/-- Rounding modes, R74. -/
inductive Mode where
  | rne | rtz | rup | rdn
  deriving DecidableEq, Repr

/-- FNEW's PLACE, R104. -/
inductive Place where
  | loc | named | least
  deriving DecidableEq, Repr

/-- SELF's WHAT, R116. -/
inductive SelfWhat where
  | frame | core | pkg | ctx | iter | cid | blk
  deriving DecidableEq, Repr

/-- CMP's conditions, R121. -/
inductive IntCond where
  | eq | ne | lt | le | gt | ge | tst
  deriving DecidableEq, Repr

/-- FCMP's conditions, R127. -/
inductive FltCond where
  | eq | ne | lt | le | gt | ge | uno | ord
  deriving DecidableEq, Repr

/-- TINFO's WHAT, R144. -/
inductive InfoWhat where
  | count | pbytes | sbytes | base | window
  deriving DecidableEq, Repr

/-- PART of TGET and TSET, R148. -/
inductive Part where
  | elem | scale | super
  deriving DecidableEq, Repr

/-- WLD's compression, R181 and R185. -/
inductive Comp where
  | dense | s24 | qn4
  deriving DecidableEq, Repr

/-- The reductions of CRED and BUPD, R212 and R219. -/
inductive RedOp where
  | add | min | max
  deriving DecidableEq, Repr

/-- AOP's operations, R220. -/
inductive AtomOp where
  | add | and | or | xor | min | max | xchg
  deriving DecidableEq, Repr

/-- Scopes of ACQ and REL, R223. -/
inductive Scope where
  | core | die | package | domain
  deriving DecidableEq, Repr

/-- R381, R426: a halt as a Cairn message carries it: the job, and the package that sent the message. -/
structure StopRelay where
  job : Nat
  pkg : Nat
  deriving DecidableEq, Repr

/-- R427: the RIGHTS a message names, and whether the message is signed. -/
structure SignedRights where
  rights : BitVec 4
  signed : Bool
  deriving DecidableEq, Repr

/-- R443: how a stage of bring-up ends: the failure it met, 0 for none; the firmware images of stage ROM, each with its security
version, its digest and whether its signature verifies (R417); and the ports that link training brings up in stage REPAIR. -/
structure StageEnd where
  failure : Nat
  images : List (Nat × Nat × Bool)
  ports : Nat
  deriving DecidableEq, Repr

/-- The fields that every token instruction word has, R23. -/
structure Par where
  slot : BitVec 8
  ty : Ty
  d0 : Dest
  d1 : Dest
  d2 : Dest
  hist : Bool
  trcf : Bool
  deriving DecidableEq, Repr

/-- One constructor per row of the opcode table. -/
inductive Instr where
  /-- PASS (R100). Emits its L operand unchanged to every destination. -/
  | pass (p : Par)
  /-- CONST (R101). On a trigger, emits a scalar formed from IMM, placed in the high half when HI is set. -/
  | const (p : Par) (hi : Bool) (imm : BitVec 32)
  /-- STEER (R102). Sends L to D0 or D1 by the predicate read from R. -/
  | steer (p : Par) (inv : Bool)
  /-- STEER_IMM (R102). STEER whose predicate operand comes from IMM (IMMR form). -/
  | steerImm (p : Par) (inv : Bool) (imm : BitVec 32)
  /-- GATE (R100). Emits L once its trigger operand R is present. -/
  | gate (p : Par)
  /-- GATE_IMM (R100). GATE with its R operand taken from IMM. -/
  | gateImm (p : Par) (imm : BitVec 32)
  /-- DISP (R103). Sends L to the table entry indexed by R, or to D0 when the index is out of range. -/
  | disp (p : Par) (tbl : BitVec 6)
  /-- DISP_IMM (R103). DISP with its index taken from IMM. -/
  | dispImm (p : Par) (tbl : BitVec 6) (imm : BitVec 32)
  /-- JOIN (R100). Two-operand join that emits the operand chosen by SELP. -/
  | join (p : Par) (selp : Port)
  /-- JOIN_3 (R100). Three-operand join that emits the operand chosen by SELP. -/
  | join3 (p : Par) (selp : Port)
  /-- JOIN_IMM (R100). Two-operand join whose R operand is taken from IMM. -/
  | joinImm (p : Par) (selp : Port) (imm : BitVec 32)
  /-- JOIN_3_IMM (R100). Three-operand join whose C operand is taken from IMM. -/
  | join3Imm (p : Par) (selp : Port) (imm : BitVec 32)
  /-- CNTN (R107). Delivers L to the port named by continuation R and emits an issue token. -/
  | cntn (p : Par)
  /-- FNEW (R104). Requests a new frame on the local core or the least-loaded core and delivers L into it (one-operand form). -/
  | fnew (p : Par) (place : Place) (node : BitVec 7) (port : Port) (block : BitVec 6)
  /-- FNEW_NAMED (R104). Requests a new frame on the core named by R and delivers L into it. -/
  | fnewNamed (p : Par) (place : Place) (node : BitVec 7) (port : Port) (block : BitVec 6)
  /-- FNEW_NAMED_IMM (R104). FNEW on a named core whose core number comes from IMM. -/
  | fnewNamedImm (p : Par) (place : Place) (node : BitVec 7) (port : Port) (block : BitVec 6) (imm : BitVec 32)
  /-- SENDF (R107). Delivers L into the frame named by continuation R, at the node and port given in its own AUX. -/
  | sendf (p : Par) (node : BitVec 7) (port : Port)
  /-- MKCONT (R106). Emits a continuation that names its own frame and the node and port in AUX. -/
  | mkcont (p : Par) (node : BitVec 7) (port : Port)
  /-- ITER (R110). One-operand ITER: starts a loop instance, or requests the next iteration frame, and delivers L. -/
  | iter (p : Par) (next : Bool) (node : BitVec 7) (port : Port) (block : BitVec 6)
  /-- ITER_2 (R110). Two-operand ITER that delivers L and R into the new iteration frame. -/
  | iter2 (p : Par) (next : Bool) (node : BitVec 7) (port : Port) (block : BitVec 6)
  /-- ITER_2_IMM (R110). Two-operand ITER whose R operand is taken from IMM. -/
  | iter2Imm (p : Par) (next : Bool) (node : BitVec 7) (port : Port) (block : BitVec 6) (imm : BitVec 32)
  /-- EXIT (R111). Emits L to out-ports, decrements the exit count, and completes the activation when the count reaches zero. -/
  | exit (p : Par)
  /-- FSET (R112). Stores L into a frame variable slot and emits a done token. -/
  | fset (p : Par) (var : BitVec 8)
  /-- FGET (R112). Emits the value held in a frame variable slot. -/
  | fget (p : Par) (var : BitVec 8)
  /-- ISEOS (R114). Emits 1 if L is EOS and 0 otherwise, consuming L. -/
  | iseos (p : Par)
  /-- MKEOS (R114). Emits an EOS token whose payload comes from L. -/
  | mkeos (p : Par)
  /-- SEND (R108). Delivers L to the in-port named by target word R and emits an issue token. -/
  | send (p : Par) (cid : BitVec 8)
  /-- SEND_IMM (R108). SEND whose target word is taken from IMM. -/
  | sendImm (p : Par) (cid : BitVec 8) (imm : BitVec 32)
  /-- PHOPEN (R115). Emits L with PHASE set to the phase named in AUX. -/
  | phopen (p : Par) (ph : BitVec 4)
  /-- PHCLOSE (R115). Removes its trigger from the phase count and waits for the phase to become quiet. -/
  | phclose (p : Par) (ph : BitVec 4)
  /-- SELF (R116). Emits an identity value chosen by WHAT. -/
  | self (p : Par) (what : SelfWhat)
  /-- LEVEL (R116). Emits the instance coordinate or count at a hierarchy level. -/
  | level (p : Par) (cnt : Bool) (lvl : BitVec 3)
  /-- ADD (R118). Integer L + R. -/
  | add (p : Par)
  /-- ADD_IMM (R118). Integer add with R taken from IMM. -/
  | addImm (p : Par) (imm : BitVec 32)
  /-- SUB (R118). Integer L − R. -/
  | sub (p : Par)
  /-- SUB_IMM (R118). Integer subtract with R taken from IMM. -/
  | subImm (p : Par) (imm : BitVec 32)
  /-- MUL (R118). Low w bits of L × R. -/
  | mul (p : Par)
  /-- MUL_IMM (R118). Integer multiply with R taken from IMM. -/
  | mulImm (p : Par) (imm : BitVec 32)
  /-- MULH (R118). High w bits of L × R. -/
  | mulh (p : Par)
  /-- MULH_IMM (R118). High-half multiply with R taken from IMM. -/
  | mulhImm (p : Par) (imm : BitVec 32)
  /-- DIV (R119). Truncating integer division on the divide unit. -/
  | div (p : Par)
  /-- DIV_IMM (R119). Integer division with R taken from IMM. -/
  | divImm (p : Par) (imm : BitVec 32)
  /-- REM (R119). Truncating integer remainder on the divide unit. -/
  | rem (p : Par)
  /-- REM_IMM (R119). Integer remainder with R taken from IMM. -/
  | remImm (p : Par) (imm : BitVec 32)
  /-- AND (R118). Bitwise AND. -/
  | and (p : Par)
  /-- AND_IMM (R118). Bitwise AND with R taken from IMM. -/
  | andImm (p : Par) (imm : BitVec 32)
  /-- OR (R118). Bitwise OR. -/
  | or (p : Par)
  /-- OR_IMM (R118). Bitwise OR with R taken from IMM. -/
  | orImm (p : Par) (imm : BitVec 32)
  /-- XOR (R118). Bitwise XOR. -/
  | xor (p : Par)
  /-- XOR_IMM (R118). Bitwise XOR with R taken from IMM. -/
  | xorImm (p : Par) (imm : BitVec 32)
  /-- ANDN (R118). L AND NOT R. -/
  | andn (p : Par)
  /-- ANDN_IMM (R118). ANDN with R taken from IMM. -/
  | andnImm (p : Par) (imm : BitVec 32)
  /-- SHL (R120). Shift left. -/
  | shl (p : Par)
  /-- SHL_IMM (R120). Shift left by a count taken from IMM. -/
  | shlImm (p : Par) (imm : BitVec 32)
  /-- SHR (R120). Logical shift right. -/
  | shr (p : Par)
  /-- SHR_IMM (R120). Logical shift right by a count taken from IMM. -/
  | shrImm (p : Par) (imm : BitVec 32)
  /-- SAR (R120). Arithmetic shift right. -/
  | sar (p : Par)
  /-- SAR_IMM (R120). Arithmetic shift right by a count taken from IMM. -/
  | sarImm (p : Par) (imm : BitVec 32)
  /-- ROL (R120). Rotate left. -/
  | rol (p : Par)
  /-- ROL_IMM (R120). Rotate left by a count taken from IMM. -/
  | rolImm (p : Par) (imm : BitVec 32)
  /-- MIN (R118). Lesser of L and R, ordered by the signedness of TY. -/
  | min (p : Par)
  /-- MIN_IMM (R118). MIN with R taken from IMM. -/
  | minImm (p : Par) (imm : BitVec 32)
  /-- MAX (R118). Greater of L and R, ordered by the signedness of TY. -/
  | max (p : Par)
  /-- MAX_IMM (R118). MAX with R taken from IMM. -/
  | maxImm (p : Par) (imm : BitVec 32)
  /-- ABS (R118). Integer absolute value. -/
  | abs (p : Par)
  /-- NEG (R118). Integer negation. -/
  | neg (p : Par)
  /-- CLZ (R118). Count of leading zero bits. -/
  | clz (p : Par)
  /-- CTZ (R118). Count of trailing zero bits. -/
  | ctz (p : Par)
  /-- POPC (R118). Count of one bits. -/
  | popc (p : Par)
  /-- CMP (R121). Integer comparison under the condition in MOD, emitting 1 or 0. -/
  | cmp (p : Par) (cond : IntCond)
  /-- CMP_IMM (R121). Integer comparison with R taken from IMM. -/
  | cmpImm (p : Par) (cond : IntCond) (imm : BitVec 32)
  /-- SEL (R121). Emits R if L is nonzero, else C. -/
  | sel (p : Par)
  /-- SEL_IMM (R121). SEL with C taken from IMM. -/
  | selImm (p : Par) (imm : BitVec 32)
  /-- EXT (R122). Extracts a bit field of L under control word R. -/
  | ext (p : Par)
  /-- EXT_IMM (R122). EXT with its control word taken from IMM. -/
  | extImm (p : Par) (imm : BitVec 32)
  /-- INS (R122). Inserts field R into base L under control word C. -/
  | ins (p : Par)
  /-- INS_IMM (R122). INS with its control word taken from IMM. -/
  | insImm (p : Par) (imm : BitVec 32)
  /-- MAD (R118). Low w bits of L × R + C. -/
  | mad (p : Par)
  /-- MAD_IMM (R118). MAD with C taken from IMM. -/
  | madImm (p : Par) (imm : BitVec 32)
  /-- ADDS (R118). Saturating integer add. -/
  | adds (p : Par)
  /-- ADDS_IMM (R118). Saturating add with R taken from IMM. -/
  | addsImm (p : Par) (imm : BitVec 32)
  /-- SUBS (R118). Saturating integer subtract. -/
  | subs (p : Par)
  /-- SUBS_IMM (R118). Saturating subtract with R taken from IMM. -/
  | subsImm (p : Par) (imm : BitVec 32)
  /-- FADD (R125). Float add, rounded once. -/
  | fadd (p : Par) (mode : Mode)
  /-- FADD_IMM (R125). Float add with R taken from IMM. -/
  | faddImm (p : Par) (mode : Mode) (imm : BitVec 32)
  /-- FSUB (R125). Float subtract, rounded once. -/
  | fsub (p : Par) (mode : Mode)
  /-- FSUB_IMM (R125). Float subtract with R taken from IMM. -/
  | fsubImm (p : Par) (mode : Mode) (imm : BitVec 32)
  /-- FMUL (R125). Float multiply, rounded once. -/
  | fmul (p : Par) (mode : Mode)
  /-- FMUL_IMM (R125). Float multiply with R taken from IMM. -/
  | fmulImm (p : Par) (mode : Mode) (imm : BitVec 32)
  /-- FFMA (R125). Fused L × R + C, rounded once. -/
  | ffma (p : Par) (mode : Mode)
  /-- FFMA_IMM (R125). Fused multiply-add with C taken from IMM. -/
  | ffmaImm (p : Par) (mode : Mode) (imm : BitVec 32)
  /-- FDIV (R126). Float divide on the float divide unit. -/
  | fdiv (p : Par) (mode : Mode)
  /-- FDIV_IMM (R126). Float divide with R taken from IMM. -/
  | fdivImm (p : Par) (mode : Mode) (imm : BitVec 32)
  /-- FSQRT (R126). Float square root, correctly rounded. -/
  | fsqrt (p : Par) (mode : Mode)
  /-- FRCP (R126). Float reciprocal, correctly rounded. -/
  | frcp (p : Par) (mode : Mode)
  /-- FRSQ (R126). Float reciprocal square root, correctly rounded. -/
  | frsq (p : Par) (mode : Mode)
  /-- FMIN (R126). Float minimum. -/
  | fmin (p : Par)
  /-- FMIN_IMM (R126). Float minimum with R taken from IMM. -/
  | fminImm (p : Par) (imm : BitVec 32)
  /-- FMAX (R126). Float maximum. -/
  | fmax (p : Par)
  /-- FMAX_IMM (R126). Float maximum with R taken from IMM. -/
  | fmaxImm (p : Par) (imm : BitVec 32)
  /-- FABS (R125). Clears the sign bit. -/
  | fabs (p : Par)
  /-- FNEG (R125). Inverts the sign bit. -/
  | fneg (p : Par)
  /-- FCMP (R127). Float comparison emitting 1 or 0. -/
  | fcmp (p : Par) (cond : FltCond)
  /-- FCMP_IMM (R127). Float comparison with R taken from IMM. -/
  | fcmpImm (p : Par) (cond : FltCond) (imm : BitVec 32)
  /-- FCLASS (R127). Emits a one-hot class mask. -/
  | fclass (p : Par)
  /-- FCVT (R128). Converts between float formats, rounding once. -/
  | fcvt (p : Par) (mode : Mode) (sat : Bool) (dty : Ty)
  /-- FTOI (R128). Float to integer conversion by integer rounding. -/
  | ftoi (p : Par) (mode : Mode) (dty : Ty)
  /-- ITOF (R128). Integer to float conversion, rounding once. -/
  | itof (p : Par) (mode : Mode) (sat : Bool) (dty : Ty)
  /-- FRND (R128). Rounds to an integral value in the same format. -/
  | frnd (p : Par) (mode : Mode)
  /-- FLDX (R128). Computes L × 2^n, rounded once. -/
  | fldx (p : Par) (mode : Mode)
  /-- FLDX_IMM (R128). FLDX with n taken from IMM. -/
  | fldxImm (p : Par) (mode : Mode) (imm : BitVec 32)
  /-- FGETX (R128). Emits the exponent floor(log2 |L|) as s32. -/
  | fgetx (p : Par)
  /-- FEXP2F (R128). Computes 2^L for the fractional range. -/
  | fexp2f (p : Par)
  /-- TALLOC (R140). Requests a tile allocation and emits its handle when the allocation is granted. -/
  | talloc (p : Par) (acc : Bool) (zero : Bool) (bg : Geom) (rows : BitVec 13) (cols : BitVec 13)
  /-- TREF (R141). Turns a tile-store address back into a handle. -/
  | tref (p : Par)
  /-- TDROP (R142). Drops one reference to a tile and emits a done token. -/
  | tdrop (p : Par)
  /-- TVIEW (R143). Makes a view handle for a window of a tile. -/
  | tview (p : Par)
  /-- TVIEW_IMM (R143). TVIEW with its window word taken from IMM. -/
  | tviewImm (p : Par) (imm : BitVec 32)
  /-- TINFO (R144). Emits tile information chosen by WHAT. -/
  | tinfo (p : Par) (what : InfoWhat)
  /-- TFILL (R145). Engine command that fills every element of a tile with R. -/
  | tfill (p : Par)
  /-- TFILL_IMM (R145). TFILL with its fill value taken from IMM. -/
  | tfillImm (p : Par) (imm : BitVec 32)
  /-- TCOPY (R146). Engine command that copies a tile into a newly allocated tile. -/
  | tcopy (p : Par) (toacc : Bool)
  /-- TCOPY_INTO (R146). Engine command that copies tile L into existing tile R. -/
  | tcopyInto (p : Par)
  /-- TTRAN (R147). Engine command that transposes a tile into a new tile. -/
  | ttran (p : Par)
  /-- TGET (R148). Reads one element, scale or superscale of a tile. -/
  | tget (p : Par) (part : Part)
  /-- TGET_IMM (R148). TGET with its index word taken from IMM. -/
  | tgetImm (p : Par) (part : Part) (imm : BitVec 32)
  /-- TSET (R148). Writes one element, scale or superscale of a tile. -/
  | tset (p : Par) (part : Part)
  /-- TSET_IMM (R148). TSET with its value taken from IMM. -/
  | tsetImm (p : Par) (part : Part) (imm : BitVec 32)
  /-- VRUN_A (R163). Runs a vconfig over tile A into an allocated output (FORM a). -/
  | vrunA (p : Par) (cfg : BitVec 4)
  /-- VRUN_AB (R163). Runs a vconfig over tiles A and B into an allocated output (FORM ab). -/
  | vrunAb (p : Par) (cfg : BitVec 4)
  /-- VRUN_AO (R163). Runs a vconfig over tile A into a supplied output (FORM ao). -/
  | vrunAo (p : Par) (cfg : BitVec 4)
  /-- VRUN_ABO (R163). Runs a vconfig over tiles A and B into a supplied output (FORM abo). -/
  | vrunAbo (p : Par) (cfg : BitVec 4)
  /-- VRUNS (R164). Processes one row token of an A stream, opening the stream on its first row. -/
  | vruns (p : Par) (cfg : BitVec 4)
  /-- VRUNS_2 (R164). Processes one row each of the A and B streams. -/
  | vruns2 (p : Par) (cfg : BitVec 4)
  /-- VSTAT (R166). Emits the run status word of a tile. -/
  | vstat (p : Par)
  /-- WLD (R183). Binds a logical weight slot to content, aliasing an existing physical slot or starting a load. -/
  | wld (p : Par) (comp : Comp) (sx : BitVec 4) (bg : Geom) (ws : BitVec 2) (gen : BitVec 16)
  /-- WFREE (R184). Unbinds a logical weight slot. -/
  | wfree (p : Par) (ws : BitVec 2)
  /-- MMA (R187). Multiplies A rows by slot weights into an accumulator, unmerged or through the Pan. -/
  | mma (p : Par) (pan : Bool) (zacc : Bool) (acol : BitVec 8) (ws : BitVec 2) (arow : BitVec 9) (koff : BitVec 5) (hold : BitVec 16)
  /-- MMAS (R190). Streams one row through the matrix engine and drains it to a new output tile. -/
  | mmas (p : Par) (mode : Mode) (sat : Bool) (oty : Ty) (ws : BitVec 2)
  /-- MMAS_IMM (R190). MMAS with its tensor scale taken from IMM. -/
  | mmasImm (p : Par) (mode : Mode) (sat : Bool) (oty : Ty) (ws : BitVec 2) (imm : BitVec 32)
  /-- ADRAIN (R191). Drains an accumulator tile with scale R into an output sent to D0. -/
  | adrain (p : Par) (mode : Mode) (sat : Bool) (clr : Bool) (oty : Ty)
  /-- ADRAIN_IMM (R191). ADRAIN with its scale taken from IMM. -/
  | adrainImm (p : Par) (mode : Mode) (sat : Bool) (clr : Bool) (oty : Ty) (imm : BitVec 32)
  /-- ADRAIN_STEER (R191). Drains an accumulator with scale C and steers the output by table index R. -/
  | adrainSteer (p : Par) (mode : Mode) (sat : Bool) (clr : Bool) (tbl : BitVec 6) (oty : Ty)
  /-- ADRAIN_STEER_IMM (R191). Steered ADRAIN with its scale taken from IMM. -/
  | adrainSteerImm (p : Par) (mode : Mode) (sat : Bool) (clr : Bool) (tbl : BitVec 6) (oty : Ty) (imm : BitVec 32)
  /-- ACLR (R192). Clears an accumulator tile and its status record. -/
  | aclr (p : Par)
  /-- WINFO (R186). Emits the state of a logical weight slot. -/
  | winfo (p : Par) (ws : BitVec 2)
  /-- MSTAT (R196). Emits the accumulator matrix status summary or bitmap word, optionally clearing the record. -/
  | mstat (p : Par) (what : BitVec 4) (clr : Bool)
  /-- LD (R208). Issues a scalar load request. -/
  | ld (p : Par)
  /-- ST (R208). Issues a scalar store, emitting an issue token now and a completion later. -/
  | st (p : Par)
  /-- ST_IMM (R208). Scalar store whose value is taken from IMM. -/
  | stImm (p : Par) (imm : BitVec 32)
  /-- LDT (R209). Allocates a tile and fills it from memory (single plane). -/
  | ldt (p : Par) (bg : Geom) (pitch : BitVec 16) (rows : BitVec 13) (cols : BitVec 13)
  /-- LDT_SCALED (R209). Two-plane LDT that also reads a scale plane from address R. -/
  | ldtScaled (p : Par) (bg : Geom) (pitch : BitVec 16) (rows : BitVec 13) (cols : BitVec 13)
  /-- STT (R210). Writes a tile to memory (single plane). -/
  | stt (p : Par) (pitch : BitVec 16)
  /-- STT_SCALED (R210). Two-plane STT that also writes a scale plane to address C. -/
  | sttScaled (p : Par) (pitch : BitVec 16)
  /-- COPY (R213). Copy-engine command that walks its pattern record. -/
  | copy (p : Par) (scl : Bool) (recd : BitVec 10)
  /-- COPY_ADDR (R213). COPY whose source and destination come from the L and R operands. -/
  | copyAddr (p : Par) (scl : Bool) (recd : BitVec 10)
  /-- GATH (R214). Gathers runs at the offsets held in an index tile. -/
  | gath (p : Par) (recd : BitVec 10)
  /-- SCAT (R214). Scatters runs to the offsets held in an index tile. -/
  | scat (p : Par) (recd : BitVec 10)
  /-- CRED (R215). Copy with reduction into the destination at its memory node. -/
  | cred (p : Par) (rop : RedOp) (recd : BitVec 10)
  /-- DRAIN (R217). Waits for this context's earlier copy writes on one path. -/
  | drain (p : Par) (path : BitVec 3)
  /-- PFH (R218). Prefetch hint that fills HBM read-ahead staging lines. -/
  | pfh (p : Par) (count : BitVec 16)
  /-- AOP (R220). Atomic read-modify-write at the memory node. -/
  | aop (p : Par) (op : AtomOp) (rtry : Bool)
  /-- AOP_IMM (R220). Atomic operation with its operand taken from IMM. -/
  | aopImm (p : Par) (op : AtomOp) (rtry : Bool) (imm : BitVec 32)
  /-- ACAS (R220). Atomic compare-and-swap. -/
  | acas (p : Par) (rtry : Bool)
  /-- ACAS_IMM (R220). Compare-and-swap with its new value taken from IMM. -/
  | acasImm (p : Par) (rtry : Bool) (imm : BitVec 32)
  /-- BUPD (R221). Bank-unit element-wise update of a shared-memory array by a tile. -/
  | bupd (p : Par) (rop : RedOp) (pitch : BitVec 16)
  /-- BAXPY (R221). Bank-unit y := a × x + y on a shared-memory array. -/
  | baxpy (p : Par) (pitch : BitVec 16)
  /-- BAXPY_IMM (R221). BAXPY with a taken from IMM. -/
  | baxpyImm (p : Par) (pitch : BitVec 16) (imm : BitVec 32)
  /-- BARA (R222). Arrives at a barrier word with status 0. -/
  | bara (p : Par) (rtry : Bool)
  /-- BARA_STATUS (R222). Arrives at a barrier word with the status given in R. -/
  | baraStatus (p : Par) (rtry : Bool)
  /-- BARA_IMM (R222). Barrier arrival with its status taken from IMM. -/
  | baraImm (p : Par) (rtry : Bool) (imm : BitVec 32)
  /-- BARW (R222). Waits at the barrier's home node until a target phase is reached. -/
  | barw (p : Par)
  /-- BARW_IMM (R222). Barrier wait with its target phase taken from IMM. -/
  | barwImm (p : Par) (imm : BitVec 32)
  /-- ACQ (R223). Acquires a synchronisation object, exclusive or shared. -/
  | acq (p : Par) (sh : Bool) (rtry : Bool) (scope : Scope)
  /-- REL (R223). Releases a synchronisation object once the bound writes have completed. -/
  | rel (p : Par) (sh : Bool) (rtry : Bool) (scope : Scope)
  /-- PCLM (R225). Claims n granules of a pipe ring. -/
  | pclm (p : Par) (pipe : BitVec 4)
  /-- PCLM_IMM (R225). Pipe claim with n taken from IMM. -/
  | pclmImm (p : Par) (pipe : BitVec 4) (imm : BitVec 32)
  /-- PCMT (R225). Publishes n claimed granules. -/
  | pcmt (p : Par) (pipe : BitVec 4)
  /-- PCMT_IMM (R225). Pipe commit with n taken from IMM. -/
  | pcmtImm (p : Par) (pipe : BitVec 4) (imm : BitVec 32)
  /-- PAWT (R225). Waits for and takes n available granules. -/
  | pawt (p : Par) (pipe : BitVec 4)
  /-- PAWT_IMM (R225). Pipe take with n taken from IMM. -/
  | pawtImm (p : Par) (pipe : BitVec 4) (imm : BitVec 32)
  /-- PRET (R225). Retires n taken granules. -/
  | pret (p : Par) (pipe : BitVec 4)
  /-- PRET_IMM (R225). Pipe retire with n taken from IMM. -/
  | pretImm (p : Par) (pipe : BitVec 4) (imm : BitVec 32)
  /-- PINFO (R225). Emits a pipe's free and available counts. -/
  | pinfo (p : Par) (pipe : BitVec 4)
  /-- QPUT (R227). Writes a work packet into a hardware queue as a child launch. -/
  | qput (p : Par) (queue : BitVec 6)
  /-- QPUT_ARGS (R227). QPUT that replaces the packet's argument address with R. -/
  | qputArgs (p : Par) (queue : BitVec 6)
  /-- QWAIT (R228). Waits for the children counted at its firing to complete. -/
  | qwait (p : Par)
  /-- CLOAD (R229). Engine command that validates an image and loads it into a configuration slot. -/
  | cload (p : Par) (cs : BitVec 2)
  /-- CSEL (R230). Requests a switch of the region's active slot. -/
  | csel (p : Par)
  /-- CSWT (R231). Schedules a switch of the region's active slot at a GTC instant. -/
  | cswt (p : Par) (cs : BitVec 2)
  /-- CFREE (R232). Marks a slot as being freed. -/
  | cfree (p : Par) (cs : BitVec 2)
  /-- TRAP (R235). Raises TRAP_SW with its code and carries L to the handler. -/
  | trap (p : Par) (code : BitVec 16)
  /-- TRET (R356). Ends a handler activation with a value or an action word. -/
  | tret (p : Par)
  /-- GETC (R236). Reads a control register. -/
  | getc (p : Par) (idx : BitVec 12)
  /-- SETC (R236). Writes a control register that has no row of its own. -/
  | setc (p : Par) (idx : BitVec 12)
  /-- SETC_FPFLAGS (R77). Writes the five sticky flags from bits [4:0]. -/
  | setcFpflags (p : Par)
  /-- SETC_WATCH (R374). Writes a watchpoint register and emits its done token once every enabled check point holds the new setting. -/
  | setcWatch (p : Par) (idx : BitVec 12)
  /-- SETC_TIMER_CMP (R356). Arms the core timer trap instant. -/
  | setcTimerCmp (p : Par)
  /-- SETC_RAS_INJECT (R238). Arms fault injection into a count of later events. -/
  | setcRasInject (p : Par)
  /-- TIME (R239). Emits the GTC value. -/
  | time (p : Par)
  /-- TRACE (R239). Writes a trace payload record holding AUX and L. -/
  | trace (p : Par) (tag : BitVec 16)
  /-- TRACE_2 (R239). Writes a trace payload record holding AUX, L and R. -/
  | trace2 (p : Par) (tag : BitVec 16)
  /-- PERF (R239). Emits a performance counter. -/
  | perf (p : Par) (ctr : BitVec 8)
  /-- IFRD (R240). Reads a word of an IFR entry or engine-command record. -/
  | ifrd (p : Par)
  /-- SBIND (R241). Binds a memory region to a synchronisation object. -/
  | sbind (p : Par) (len : BitVec 16)
  /-- XTSET (R241). Replaces one of the context's extents with a record from memory. -/
  | xtset (p : Par)
  /-- TOKEN_ACCEPT (R17). A token arrives at a core and is checked, converted or quarantined, then parked or queued. -/
  | tokenAccept (i : Nat)
  /-- QUARANTINE_REPORT (R17). A quarantine report reaches the emitting core and is recorded in CTX_STATUS. -/
  | quarantineReport (i : Nat)
  /-- SOURCE_PORT_ARRIVAL (R262). A token arrives at an in-port and is bound to a slot, context and frame. -/
  | sourcePortArrival (i : Nat)
  /-- TILE_TRANSFER_RECEIVE (R137). A transferred tile arrives and is allocated and checked by residue. -/
  | tileTransferReceive (i : Nat)
  /-- FRAME_GRANT (R254). The allocation FIFO grants its head request a frame. -/
  | frameGrant (core : Nat)
  /-- TILE_ALLOCATION_GRANT (R134). A waiting tile-store or accumulator request is granted. -/
  | tileAllocationGrant (core : Nat) (acc : Bool)
  /-- WEIGHT_SLOT_GRANT (R180). A waiting WLD is granted a physical weight slot. -/
  | weightSlotGrant (core : Nat)
  /-- TOKEN_PROMOTION (R326). A token that has waited 2^20 clk moves to the next more urgent FIFO. -/
  | tokenPromotion (core : Nat)
  /-- MEMORY_REQUEST_PERFORM (R335). A request performs as an event at its home memory node. -/
  | memoryRequestPerform (i : Nat)
  /-- MEMORY_RESPONSE (R203). A response reaches the core and its value or completion token is emitted. -/
  | memoryResponse (i : Nat)
  /-- REMOTE_TIMEOUT (R205). The remote timeout expires, yielding poison or a reissue. -/
  | remoteTimeout (i : Nat)
  /-- BARW_RELEASE (R222). A held BARW is released after a write makes its condition true. -/
  | barwRelease (i : Nat)
  /-- ACQ_GRANT (R223). A waiting ACQ at the head of the object's queue is granted. -/
  | acqGrant (i : Nat)
  /-- PIPE_WAIT_GRANT (R225). A waiting PCLM or PAWT at the head of its FIFO is served. -/
  | pipeWaitGrant (i : Nat)
  /-- WLD_LOAD_COMPLETE (R183). A weight load ends and the slot becomes READY or EMPTY. -/
  | wldLoadComplete (core : Nat) (slot : Nat)
  /-- ENGINE_ARBITRATION (R188). The matrix engine starts the next command or Pan group by class. -/
  | engineArbitration (core : Nat)
  /-- MMA_ROW_ISSUE (R188). A matrix row issues when a write-buffer entry is free. -/
  | mmaRowIssue (core : Nat)
  /-- MMA_ROW_COMMIT (R187). An issued row is checked and either committed to the accumulator or failed. -/
  | mmaRowCommit (core : Nat)
  /-- PAN_DEADLINE (R198). GTC reaches a Pan group's deadline and the group closes. -/
  | panDeadline (core : Nat)
  /-- VRUN_START (R158). A waiting vector run is granted its pipelines and scratch units. -/
  | vrunStart (core : Nat)
  /-- VRUN_COMPLETE (R163). A vector run completes, writes its status word and emits. -/
  | vrunComplete (core : Nat) (recd : Nat)
  /-- ENGINE_COMMAND_COMPLETE (R138). A tile, matrix drain or copy engine command completes and emits its tokens. -/
  | engineCommandComplete (core : Nat) (recd : Nat)
  /-- COPY_COMPLETE (R213). A copy command's runs have all performed or failed, it arrives at CWORD and emits. -/
  | copyComplete (core : Nat) (recd : Nat)
  /-- CLOAD_COMPLETE (R229). A CLOAD arms the slot on every core, or fails, and emits its completion word. -/
  | cloadComplete (core : Nat) (recd : Nat)
  /-- DRAIN_COMPLETE (R217). The copy writes that a DRAIN covers have performed and it emits. -/
  | drainComplete (i : Nat)
  /-- QWAIT_COMPLETE (R228). The counted children have completed and QWAIT emits. -/
  | qwaitComplete (i : Nat)
  /-- REGION_SWEEP (R330). A sweep of the region control network visits every router. -/
  | regionSweep (home : Nat)
  /-- PHCLOSE_RETURN (R115). Two quiet sweeps let PHCLOSE emit L in phase 0. -/
  | phcloseReturn (i : Nat)
  /-- CSEL_SWITCH (R230). Once the old slot is quiet, all region cores switch and deliver held arrivals. -/
  | cselSwitch (home : Nat)
  /-- CSWT_INSTANT (R231). GTC reaches T and the region switches its active slot. -/
  | cswtInstant (home : Nat)
  /-- CFREE_COMPLETE (R232). A freeing slot is no longer occupied, becomes EMPTY, and CFREE emits. -/
  | cfreeComplete (home : Nat)
  /-- CONTEXT_COMPLETION (R265). A context with no remaining work completes, frees its resources and arrives at its completion word. -/
  | contextCompletion (ctx : Nat)
  /-- HANDLER_ENTRY (R353). A trap's handler frame is granted and the trap word and details are delivered. -/
  | handlerEntry (ctx : Nat)
  /-- ORPHAN (R358). The quiescence watchdog counter reaches WDOG_LIMIT and raises ORPHAN. -/
  | orphan (core : Nat) (ctx : Nat)
  /-- TIMER (R350). GTC reaches TIMER_CMP and raises the timer trap. -/
  | timer (core : Nat)
  /-- FREEZE (R359). A freeze starts for a set of contexts and sends freeze marks. -/
  | freeze (ids : List Nat)
  /-- FREEZE_MARK (R360). A node receives a freeze mark and starts logging the frozen contexts' requests. -/
  | freezeMark (node : Nat)
  /-- DRAIN_MARKER (R359). A node receives a drain marker and sends its fence with its suppression entries. -/
  | drainMarker (core : Nat) (node : Nat)
  /-- FENCE (R359). A fence reaches the core, settling the entries toward that node. -/
  | fence (core : Nat) (node : Nat)
  /-- SETTLE_TIMEOUT (R361). The settling bound passes and missing fences leave entries unsettled. -/
  | settleTimeout (ctx : Nat)
  /-- CONTEXT_SAVE (R363). A settled context is written to its save area and its seats are released. -/
  | contextSave (ctx : Nat)
  /-- CONTEXT_RESTORE (R369). A saved context is restored, its logs reloaded and its operations replayed. -/
  | contextRestore (ctx : Nat)
  /-- REPLAY_REQUEST (R370). A node receives a replay-flagged request and answers it from the log or performs it. -/
  | replayRequest (i : Nat)
  /-- DOORBELL (R305). A QTAIL write is accepted or rejected. -/
  | doorbell (vf : Nat) (queue : BitVec 6) (value : BitVec 32)
  /-- HOST_REGISTER_WRITE (R304). A host write to a register that has no row of its own. -/
  | hostRegisterWrite (fn : Nat) (off : Nat) (value : Word)
  /-- PACKET_READ (R314). The Dispatcher reads the best packet from the enabled queues. -/
  | packetRead
  /-- LAUNCH (R315). A launch packet is checked and enters WAITING. -/
  | launch (i : Nat)
  /-- GANG (R320). A gang packet and its members are checked whole. -/
  | gang (i : Nat)
  /-- CONFIGURATION_LOAD (R323). A configuration load packet performs a CLOAD. -/
  | configurationLoad (i : Nat)
  /-- BARRIER (R323). A barrier packet arrives at its CWORD once its dependences are met. -/
  | barrier (i : Nat)
  /-- PREEMPT_SAVE (R323). A pre-emption request freezes and saves its target context. -/
  | preemptSave (i : Nat)
  /-- PREEMPT_RESUME (R323). A pre-emption request re-admits a saved context. -/
  | preemptResume (i : Nat)
  /-- PREEMPT_ABANDON (R323). A pre-emption request abandons its target context. -/
  | preemptAbandon (i : Nat)
  /-- DEPENDENCE_MET (R310). A packet's dependence is met and it leaves WAITING. -/
  | dependenceMet (i : Nat)
  /-- ADMISSION_GRANT (R319). The region admission FIFO grants its head seats and a context id. -/
  | admissionGrant (home : Nat)
  /-- EXTENT_BUILD (R291). The Dispatcher walks the page tables and builds the extents or rejects the packet. -/
  | extentBuild (i : Nat)
  /-- ARGUMENT_INJECTION (R321). Argument word 0 is injected at ip0 of each instance. -/
  | argumentInjection (i : Nat)
  /-- HALT (R390). Debug command that starts a Cairn halt of a job. -/
  | halt (job : Nat)
  /-- STEP_NAMED (R386). Debug command that steps the first ready token of a named frame and node. -/
  | stepNamed (job : Nat) (core : Nat) (frame : Nat) (node : Nat)
  /-- STEP_NEXT (R386). Debug command that steps the next token R325 would select. -/
  | stepNext (job : Nat) (core : Nat)
  /-- STEP_END (R386). A step's operations have delivered their responses and the step ends. -/
  | stepEnd (job : Nat)
  /-- ARM (R388). Debug command that carries the resume instant T to every package. -/
  | arm (job : Nat) (t : Nat)
  /-- CANCEL (R389). Debug command that returns ARMED packages to HALTED. -/
  | cancel (job : Nat)
  /-- SETHEN (R390). Debug command that writes a job's halt-enable bits. -/
  | sethen (job : Nat) (hen : BitVec 6)
  /-- SETBRK (R392). Debug command that writes an edge breakpoint comparator. -/
  | setbrk (job : Nat) (core : Nat) (n : Nat) (tok : Word) (tmask : Word) (val : Word) (vmask : Word) (ctl : Word)
  /-- READ (R390). Debug command that returns JDBG, a cause register or a histogram entry. -/
  | read (job : Nat) (core : Nat) (what : Nat)
  /-- CAIRN_MESSAGE (R381). A package receives a Cairn message and freezes the job. -/
  | cairnMessage (job : StopRelay)
  /-- CAUSE_REPORT (R385). A member package's local cause report arrives and updates CAUSE_DOM. -/
  | causeReport (job : Nat) (pkg : Nat) (w0 : Word) (w1 : Word)
  /-- MEMBER_REPORT_TIMEOUT (R383). A member package that has not reported within 10 µs is marked missing. -/
  | memberReportTimeout (job : Nat) (pkg : Nat)
  /-- RESUME_INSTANT (R388). GTC reaches T and ARMED packages release, replay and re-enable the job. -/
  | resumeInstant (job : Nat)
  /-- RIGHTS_MESSAGE (R427). A tenant's signed rights message sets a job's RIGHTS. -/
  | rightsMessage (tenant : Nat) (job : Nat) (rights : SignedRights)
  /-- TRANSLATION_WALK (R295). A copy-path TLB miss walk ends in a translation, a failure or a fault record. -/
  | translationWalk (i : Nat)
  /-- FQREPLY_RETRY (R434). A RETRY reply makes the service walk again for a fault record's runs. -/
  | fqreplyRetry (vf : Nat) (seq : BitVec 32)
  /-- FQREPLY_ABORT (R434). An ABORT reply fails the stalled command with PAGE_FAULT_ABORT. -/
  | fqreplyAbort (vf : Nat) (seq : BitVec 32)
  /-- TLB_INVALIDATE (R296). System software invalidates the translation service's TLB entries for a range. -/
  | tlbInvalidate (tenant : Nat) (va : Nat) (len : Nat)
  /-- PAGE_MIGRATION (R297). The device moves a 2 MiB page between HBM and the second tier. -/
  | pageMigration (tenant : Nat) (va : Nat) (dst : Nat)
  /-- HOST_WINDOW_ACCESS (R431). A host access through a window aperture is translated and performed. -/
  | hostWindowAccess (vf : Nat) (off : Nat) (len : Nat) (write : Bool) (value : Word)
  /-- WATERSHED_DIVISION (R440). Every 10 µs the Watershed divides power and sets clocks and throttles. -/
  | watershedDivision (shares : List (Nat × Nat × Nat × Nat × Nat))
  /-- MARGIN_BACKOFF (R411). A corrected-error burst makes the Watershed raise the margin and set BAR. -/
  | marginBackoff (die : Nat)
  /-- MARGIN_BAR_EXPIRY (R411). BAR's 60 s hold expires. -/
  | marginBarExpiry (die : Nat)
  /-- PREDICTIVE_FAILURE (R412). CE_NOM reaches PF_LIMIT within 10 s and PFAIL.PF is asserted. -/
  | predictiveFailure (die : Nat)
  /-- FLIT_RETRY (R436). A failed Ridgeline flit is replayed from the replay buffer. -/
  | flitRetry (port : Nat)
  /-- LINK_DOWN (R425). A link whose retries persist past 1 ms is taken down. -/
  | linkDown (port : Nat)
  /-- KEY_RENEWAL (R425). Link keys are renewed every 2^32 flits. -/
  | keyRenewal (port : Nat)
  /-- GTC_SYNC (R437). A package receives the master's time and steps, slews or slows its GTC. -/
  | gtcSync (master : Nat)
  /-- POWER_REMOVAL (R442). Power is removed and all device state is lost. -/
  | powerRemoval
  /-- PACKAGE_RESET (R443). Reset starts bring-up in BOOTSTAT state 0. -/
  | packageReset
  /-- BOOT_STATE_ADVANCE (R443). A bring-up stage ends and BOOTSTAT moves to the next state or to FAIL. -/
  | bootStateAdvance (failure : StageEnd)
  /-- CORE_ASSIGNMENT (R423). Management firmware reassigns an idle core or bank after scrubbing it. -/
  | coreAssignment (bank : Bool) (n : Nat) (tenant : Nat)
  /-- TENANT_CREATE (R420). A tenant is created and its memory keys are generated. -/
  | tenantCreate (tenant : Nat) (root : Nat)
  /-- TENANT_DESTROY (R424). A tenant is destroyed: its ENC-clear frames are zeroed and its keys erased. -/
  | tenantDestroy (tenant : Nat)
  /-- CORE_MARK_FAILED (R413). Management firmware marks an enabled core failed and abandons its contexts. -/
  | coreMarkFailed (core : Nat)
  /-- LOGICAL_TABLE_WRITE (R415). A write to the Ridgeline logical-to-physical table is made and acknowledged. -/
  | logicalTableWrite (logical : Nat) (physical : Option Nat)
  /-- GET_VERSION (R419). SPDM GET_VERSION request. -/
  | getVersion (peer : Nat)
  /-- GET_CAPABILITIES (R419). SPDM GET_CAPABILITIES request. -/
  | getCapabilities (peer : Nat)
  /-- NEGOTIATE_ALGORITHMS (R419). SPDM NEGOTIATE_ALGORITHMS request. -/
  | negotiateAlgorithms (peer : Nat)
  /-- GET_DIGESTS (R419). SPDM GET_DIGESTS request. -/
  | getDigests (peer : Nat)
  /-- GET_CERTIFICATE (R419). SPDM GET_CERTIFICATE request. -/
  | getCertificate (peer : Nat)
  /-- CHALLENGE (R419). SPDM CHALLENGE request signed with the alias key. -/
  | challenge (peer : Nat) (nonce : Nat)
  /-- GET_MEASUREMENTS (R419). SPDM GET_MEASUREMENTS request returning the measurement blocks. -/
  | getMeasurements (peer : Nat) (index : Nat)
  /-- KEY_EXCHANGE (R419). SPDM KEY_EXCHANGE request. -/
  | keyExchange (peer : Nat)
  /-- FINISH (R419). SPDM FINISH request. -/
  | finish (peer : Nat)
  /-- END_SESSION (R419). SPDM END_SESSION request. -/
  | endSession (peer : Nat)
  /-- UNSUPPORTED_REQUEST (R419). Any other SPDM request returns UnsupportedRequest. -/
  | unsupportedRequest (peer : Nat) (code : Nat)
  /-- RETENTION_WINDOW_EXPIRY (R205). A duplicate-suppression entry passes its 1 ms retention and may be evicted, letting remote operations that wait at a full node proceed. -/
  | retentionWindowExpiry (i : Nat)
  /-- TDISP_STATE_CHANGE (R421). A TDISP request or an error moves a virtual function among CONFIG_UNLOCKED, CONFIG_LOCKED, RUN and ERROR. -/
  | tdispStateChange (vf : Nat) (state : Nat)
  /-- JOB_MEMBERSHIP_LIST (R426). A tenant's signed job membership list arrives through its session and is verified by every member package. -/
  | jobMembershipList (tenant : Nat) (job : Nat) (members : List Nat) (signed : Bool)
  /-- CONNECTION_TABLE_WRITE (R438). Management firmware writes a tenant's RoCE queue-pair connection table at the tenant's request. -/
  | connectionTableWrite (tenant : Nat) (qpi : Nat) (peer : Nat)
  /-- TRANSPORT_ERROR (R439). A RoCE transport error or retry exhaustion on an RDMA run fails that run with LINK_TIMEOUT. -/
  | transportError (core : Nat) (recd : Nat)
  deriving DecidableEq, Repr

end Sys2Proof
end

