-- ==== Sys2Proof/Machine/Codes.lean ====
section
/-! DEFINITION. Code points: the numbers of the enumerations (R23 to R28, R74 and the encoding tables), the bit
fields and byte order every layout uses (R2, R3), and the conditions on an encoding that a word alone decides. -/

namespace Sys2Proof

/-- Field [lo + len - 1 : lo] of a number, R2. -/
def bf (w lo len : Nat) : Nat := w / 2 ^ lo % 2 ^ len

/-- The low `n` bits as a two's complement integer, R11. -/
def sx (v n : Nat) : Int :=
  let u := v % 2 ^ n
  if u < 2 ^ (n - 1) then (u : Int) else (u : Int) - 2 ^ n

/-- The number of a little-endian byte list, R3. -/
def leNat : List Byte → Nat
  | [] => 0
  | b :: bs => b.toNat + 256 * leNat bs

/-- `n` little-endian bytes of a number, R3. -/
def leBytes : Nat → Nat → List Byte
  | 0, _ => []
  | n + 1, v => BitVec.ofNat 8 v :: leBytes n (v / 256)

/-- The reasons of R51. -/
inductive Reason where
  | header | slotBusy | priv | descriptor | opcUnassigned | arity | reserved | type | matchSlot | dest | laneWord
  | tableRange | edgeFormat | cid | capacity
  deriving DecidableEq, Repr

/-- R51's reason codes. -/
def reasonCode : Reason → Nat
  | .header => 1 | .slotBusy => 2 | .priv => 3 | .descriptor => 4 | .opcUnassigned => 5 | .arity => 6 | .reserved => 7
  | .type => 8 | .matchSlot => 9 | .dest => 10 | .laneWord => 11 | .tableRange => 12 | .edgeFormat => 13 | .cid => 14
  | .capacity => 15

/-- R27. -/
def tyCode : Ty → Nat
  | .s8 => 0 | .s16 => 1 | .s32 => 2 | .s64 => 3 | .z8 => 4 | .z16 => 5 | .z32 => 6 | .z64 => 7 | .f32 => 8 | .bf16 => 9
  | .f16 => 10 | .e4m3 => 11 | .e5m2 => 12 | .e2m1 => 13 | .qn4 => 14 | .none => 15

/-- R27. -/
def tyOfCode : Nat → Ty
  | 0 => .s8 | 1 => .s16 | 2 => .s32 | 3 => .s64 | 4 => .z8 | 5 => .z16 | 6 => .z32 | 7 => .z64 | 8 => .f32 | 9 => .bf16
  | 10 => .f16 | 11 => .e4m3 | 12 => .e5m2 | 13 => .e2m1 | 14 => .qn4 | _ => .none

/-- R28. -/
def geomCode : Geom → Nat
  | .g0 => 0 | .g1 => 1 | .g2 => 2 | .g3 => 3 | .g4 => 4 | .g5 => 5

/-- R28: codes 6 to 15 are reserved. DEDUCED (log 23). -/
def geomOfCode : Nat → Option Geom
  | 0 => some .g0 | 1 => some .g1 | 2 => some .g2 | 3 => some .g3 | 4 => some .g4 | 5 => some .g5 | _ => none

def portCode : Port → Nat
  | .l => 0 | .r => 1 | .c => 2

def portOfCode : Nat → Option Port
  | 0 => some .l | 1 => some .r | 2 => some .c | _ => none

def modeCode : Mode → Nat
  | .rne => 0 | .rtz => 1 | .rup => 2 | .rdn => 3

def modeOfCode : Nat → Option Mode
  | 0 => some .rne | 1 => some .rtz | 2 => some .rup | 3 => some .rdn | _ => none

def placeCode : Place → Nat
  | .loc => 0 | .named => 1 | .least => 2

/-- DEDUCED (log 24). -/
def placeOfCode : Nat → Option Place
  | 0 => some .loc | 1 => some .named | 2 => some .least | _ => none

def selfWhatCode : SelfWhat → Nat
  | .frame => 0 | .core => 1 | .pkg => 2 | .ctx => 3 | .iter => 4 | .cid => 5 | .blk => 6

def selfWhatOfCode : Nat → Option SelfWhat
  | 0 => some .frame | 1 => some .core | 2 => some .pkg | 3 => some .ctx | 4 => some .iter | 5 => some .cid
  | 6 => some .blk | _ => none

def intCondCode : IntCond → Nat
  | .eq => 0 | .ne => 1 | .lt => 2 | .le => 3 | .gt => 4 | .ge => 5 | .tst => 6

def intCondOfCode : Nat → Option IntCond
  | 0 => some .eq | 1 => some .ne | 2 => some .lt | 3 => some .le | 4 => some .gt | 5 => some .ge | 6 => some .tst
  | _ => none

def fltCondCode : FltCond → Nat
  | .eq => 0 | .ne => 1 | .lt => 2 | .le => 3 | .gt => 4 | .ge => 5 | .uno => 6 | .ord => 7

def fltCondOfCode : Nat → Option FltCond
  | 0 => some .eq | 1 => some .ne | 2 => some .lt | 3 => some .le | 4 => some .gt | 5 => some .ge | 6 => some .uno
  | 7 => some .ord | _ => none

def infoWhatCode : InfoWhat → Nat
  | .count => 0 | .pbytes => 1 | .sbytes => 2 | .base => 3 | .window => 4

def infoWhatOfCode : Nat → Option InfoWhat
  | 0 => some .count | 1 => some .pbytes | 2 => some .sbytes | 3 => some .base | 4 => some .window | _ => none

def partCode : Part → Nat
  | .elem => 0 | .scale => 1 | .super => 2

def partOfCode : Nat → Option Part
  | 0 => some .elem | 1 => some .scale | 2 => some .super | _ => none

def compCode : Comp → Nat
  | .dense => 0 | .s24 => 1 | .qn4 => 2

def compOfCode : Nat → Option Comp
  | 0 => some .dense | 1 => some .s24 | 2 => some .qn4 | _ => none

def redOpCode : RedOp → Nat
  | .add => 0 | .min => 1 | .max => 2

def redOpOfCode : Nat → Option RedOp
  | 0 => some .add | 1 => some .min | 2 => some .max | _ => none

def atomOpCode : AtomOp → Nat
  | .add => 0 | .and => 1 | .or => 2 | .xor => 3 | .min => 4 | .max => 5 | .xchg => 6

def atomOpOfCode : Nat → Option AtomOp
  | 0 => some .add | 1 => some .and | 2 => some .or | 3 => some .xor | 4 => some .min | 5 => some .max | 6 => some .xchg
  | _ => none

def scopeCode : Scope → Nat
  | .core => 0 | .die => 1 | .package => 2 | .domain => 3

def scopeOfCode : Nat → Option Scope
  | 0 => some .core | 1 => some .die | 2 => some .package | 3 => some .domain | _ => none

/-- R25: the 11-bit destination field. -/
def destCode : Dest → Nat
  | .none => 0
  | .node n p => 512 + n.toNat * 4 + portCode p
  | .out p => 1024 + p.toNat * 8

/-- R25: DK 0b11, a DPORT of 0b11 and a nonzero bit outside the form are illegal. -/
def destOfCode (d : Nat) : Option Dest :=
  match d / 512 with
  | 0 => if d = 0 then some .none else none
  | 1 => (portOfCode (d % 4)).map fun p => .node (BitVec.ofNat 7 (d / 4 % 128)) p
  | 2 => if d % 8 = 0 then some (.out (BitVec.ofNat 6 (d / 8 % 64))) else none
  | _ => none

/-- Which destinations a form may have (the tables' destination columns). -/
inductive DestRule where
  | any | d2none | d12none | noDest | outOnly
  deriving DecidableEq, Repr

def Dest.isLocal : Dest → Bool
  | .node _ _ => true
  | _ => false

def destsOk (rule : DestRule) (d0 d1 d2 : Dest) : Bool :=
  match rule with
  | .any => true
  | .d2none => d2 == .none
  | .d12none => d1 == .none && d2 == .none
  | .noDest => d0 == .none && d1 == .none && d2 == .none
  | .outOnly => !d0.isLocal && !d1.isLocal && !d2.isLocal

/-! The TY codes each table accepts. -/

def tyInt : List Ty := [.s8, .s16, .s32, .s64, .z8, .z16, .z32, .z64]
def tyInt64 : List Ty := [.s64, .z64]
def tyFlt : List Ty := [.f32, .bf16, .f16]
def tyNone : List Ty := [.none]
def tyCvt : List Ty := [.f32, .bf16, .f16, .e4m3, .e5m2, .e2m1]
def tyConst : List Ty := tyInt ++ tyCvt ++ [.none]
def tyIntOrNone : List Ty := tyInt ++ [.none]
def tyElem : List Ty := tyInt ++ tyCvt ++ [.qn4]
def tyAny : List Ty := tyElem ++ [.none]
def tyWld : List Ty := [.s8, .z8, .bf16, .f16, .e4m3, .e5m2, .e2m1, .qn4, .none]
def tyScale : List Ty := [.f32, .bf16, .f16, .e4m3, .e5m2]
def tyDrain : List Ty := [.s8, .f32, .bf16, .f16, .e4m3, .e5m2, .e2m1]
def tyLd : List Ty := tyInt ++ [.f32, .bf16, .f16, .e4m3, .e5m2, .none]
def tyRed : List Ty := [.s32, .z32, .f32, .bf16, .f16]
def tyAtom : List Ty := [.s32, .s64, .z32, .z64, .f32, .bf16, .f16]
def tyCas : List Ty := [.s32, .s64, .z32, .z64]

/-- Geometries that carry a scale plane. -/
def Geom.scaled (g : Geom) : Bool := g == .g1 || g == .g2 || g == .g3 || g == .g4

/-- R67, for a tile or an image field: geometry 5 names a scale-plane page and no tile (R71). -/
def pairOk (t : Ty) (g : Geom) : Bool :=
  match g with
  | .g0 => t != .qn4
  | .g1 => [Ty.s8, .e4m3, .e5m2, .e2m1].contains t
  | .g2 => [Ty.s8, .e4m3, .e5m2, .e2m1].contains t
  | .g3 => [Ty.s8, .e4m3, .e5m2, .e2m1].contains t
  | .g4 => t == .qn4
  | .g5 => false

/-- ROWS and COLS lie from 1 to 4,096 (R139, R207). -/
def dimOk (n : BitVec 13) : Bool := decide (1 ≤ n.toNat) && decide (n.toNat ≤ 4096)

/-- R181: which compression goes with which TY and BG. DEDUCED (log 60). -/
def wldCmpOk (t : Ty) (g : Geom) (c : Comp) : Bool :=
  (c != .qn4 || (t == .qn4 && g == .g4)) && (t != .qn4 || c == .qn4) && (c != .s24 || (t != .qn4 && g != .g4))

/-- AOP's bitwise operations, which no float takes (R219). -/
def AtomOp.bitwise (o : AtomOp) : Bool := o == .and || o == .or || o == .xor

/-- R237: a watchpoint register. -/
def regIsWatch (i : Nat) : Bool := decide (0x040 ≤ i) && decide (i < 0x050) && (i % 4 != 3)

/-- R237: an assigned index. -/
def regAssigned (i : Nat) : Bool :=
  [0x000, 0x001, 0x002, 0x003, 0x004, 0x005, 0x010, 0x011, 0x012, 0x013, 0x014, 0x015, 0x016, 0x017, 0x020, 0x021, 0x022,
   0x030, 0x031, 0x060, 0x070].contains i || regIsWatch i

/-- R237: registers whose access code is RO. -/
def regReadOnly (i : Nat) : Bool :=
  [0x000, 0x001, 0x004, 0x005, 0x010, 0x011, 0x012, 0x013, 0x014, 0x015, 0x016, 0x017].contains i

/-- R237: registers whose access code is PRW. -/
def regPriv (i : Nat) : Bool := [0x002, 0x020, 0x021, 0x022, 0x030, 0x031, 0x060, 0x070].contains i

def regWritable (i : Nat) : Bool := regAssigned i && !regReadOnly i

/-- Indices whose SETC has no row of its own in the table. -/
def setcPlain (i : Nat) : Bool := !regIsWatch i && i != 0x003 && i != 0x020 && i != 0x060

end Sys2Proof
end

