-- ==== Sys2Proof/WellFormed.lean ====
section
/-! DEFINITION. Well-formed instructions: the field rules that a word alone decides (R24, R25, R27, R67 and the
encoding tables), and for an event the ranges of the numbers that name units of the package. -/

namespace Sys2Proof

/-- A token instruction's common fields obey R23 to R25 for its form. -/
def Par.ok (p : Par) (arOne : Bool) (tys : List Ty) (rule : DestRule) : Bool :=
  (!arOne || p.slot == 0) && tys.contains p.ty && destsOk rule p.d0 p.d1 p.d2

/-- The well-formedness of every instruction and event. -/
def Instr.wellFormed (i : Instr) : Bool :=
  match i with
  | .pass p => p.ok true tyNone .any
  | .const p hi _ => p.ok true tyConst .any && ((!hi) || [Ty.s64, Ty.z64, Ty.none].contains p.ty)
  | .steer p _ => p.ok false tyIntOrNone .d2none
  | .steerImm p _ _ => p.ok true tyIntOrNone .d2none
  | .gate p => p.ok false tyNone .any
  | .gateImm p _ => p.ok true tyNone .any
  | .disp p _ => p.ok false tyIntOrNone .d12none
  | .dispImm p _ _ => p.ok true tyIntOrNone .d12none
  | .join p selp => p.ok false tyNone .any && (selp != .c)
  | .join3 p _ => p.ok false tyNone .any
  | .joinImm p selp _ => p.ok true tyNone .any && (selp != .c)
  | .join3Imm p _ _ => p.ok false tyNone .any
  | .cntn p => p.ok false tyNone .d12none
  | .fnew p place _ _ _ => p.ok true tyNone .any && (place != .named)
  | .fnewNamed p place _ _ _ => p.ok false tyNone .any && (place == .named)
  | .fnewNamedImm p place _ _ _ _ => p.ok true tyNone .any && (place == .named)
  | .sendf p _ _ => p.ok false tyNone .d12none
  | .mkcont p _ _ => p.ok true tyNone .any
  | .iter p next _ _ block => p.ok true tyNone .any && ((!next) || block == 0)
  | .iter2 p next _ port block => p.ok false tyNone .any && ((!next) || block == 0) && (port == .l)
  | .iter2Imm p next _ port block _ => p.ok true tyNone .any && ((!next) || block == 0) && (port == .l)
  | .exit p => p.ok true tyNone .outOnly
  | .fset p _ => p.ok true tyNone .any
  | .fget p _ => p.ok true tyNone .any
  | .iseos p => p.ok true tyNone .any
  | .mkeos p => p.ok true tyNone .any
  | .send p cid => p.ok false tyNone .d12none && (cid != 0)
  | .sendImm p cid _ => p.ok true tyNone .d12none && (cid != 0)
  | .phopen p ph => p.ok true tyNone .any && (ph != 0)
  | .phclose p ph => p.ok true tyNone .any && (ph != 0)
  | .self p _ => p.ok true tyNone .any
  | .level p _ _ => p.ok true tyNone .any
  | .add p => p.ok false tyInt .any
  | .addImm p _ => p.ok true tyInt .any
  | .sub p => p.ok false tyInt .any
  | .subImm p _ => p.ok true tyInt .any
  | .mul p => p.ok false tyInt .any
  | .mulImm p _ => p.ok true tyInt .any
  | .mulh p => p.ok false tyInt .any
  | .mulhImm p _ => p.ok true tyInt .any
  | .div p => p.ok false tyInt .any
  | .divImm p _ => p.ok true tyInt .any
  | .rem p => p.ok false tyInt .any
  | .remImm p _ => p.ok true tyInt .any
  | .and p => p.ok false tyInt .any
  | .andImm p _ => p.ok true tyInt .any
  | .or p => p.ok false tyInt .any
  | .orImm p _ => p.ok true tyInt .any
  | .xor p => p.ok false tyInt .any
  | .xorImm p _ => p.ok true tyInt .any
  | .andn p => p.ok false tyInt .any
  | .andnImm p _ => p.ok true tyInt .any
  | .shl p => p.ok false tyInt .any
  | .shlImm p _ => p.ok true tyInt .any
  | .shr p => p.ok false tyInt .any
  | .shrImm p _ => p.ok true tyInt .any
  | .sar p => p.ok false tyInt .any
  | .sarImm p _ => p.ok true tyInt .any
  | .rol p => p.ok false tyInt .any
  | .rolImm p _ => p.ok true tyInt .any
  | .min p => p.ok false tyInt .any
  | .minImm p _ => p.ok true tyInt .any
  | .max p => p.ok false tyInt .any
  | .maxImm p _ => p.ok true tyInt .any
  | .abs p => p.ok true tyInt .any
  | .neg p => p.ok true tyInt .any
  | .clz p => p.ok true tyInt .any
  | .ctz p => p.ok true tyInt .any
  | .popc p => p.ok true tyInt .any
  | .cmp p _ => p.ok false tyInt .any
  | .cmpImm p _ _ => p.ok true tyInt .any
  | .sel p => p.ok false tyInt .any
  | .selImm p _ => p.ok false tyInt .any
  | .ext p => p.ok false tyInt64 .any
  | .extImm p _ => p.ok true tyInt64 .any
  | .ins p => p.ok false tyInt64 .any
  | .insImm p _ => p.ok false tyInt64 .any
  | .mad p => p.ok false tyInt .any
  | .madImm p _ => p.ok false tyInt .any
  | .adds p => p.ok false tyInt .any
  | .addsImm p _ => p.ok true tyInt .any
  | .subs p => p.ok false tyInt .any
  | .subsImm p _ => p.ok true tyInt .any
  | .fadd p _ => p.ok false tyFlt .any
  | .faddImm p _ _ => p.ok true tyFlt .any
  | .fsub p _ => p.ok false tyFlt .any
  | .fsubImm p _ _ => p.ok true tyFlt .any
  | .fmul p _ => p.ok false tyFlt .any
  | .fmulImm p _ _ => p.ok true tyFlt .any
  | .ffma p _ => p.ok false tyFlt .any
  | .ffmaImm p _ _ => p.ok false tyFlt .any
  | .fdiv p _ => p.ok false tyFlt .any
  | .fdivImm p _ _ => p.ok true tyFlt .any
  | .fsqrt p _ => p.ok true tyFlt .any
  | .frcp p _ => p.ok true tyFlt .any
  | .frsq p _ => p.ok true tyFlt .any
  | .fmin p => p.ok false tyFlt .any
  | .fminImm p _ => p.ok true tyFlt .any
  | .fmax p => p.ok false tyFlt .any
  | .fmaxImm p _ => p.ok true tyFlt .any
  | .fabs p => p.ok true tyFlt .any
  | .fneg p => p.ok true tyFlt .any
  | .fcmp p _ => p.ok false tyFlt .any
  | .fcmpImm p _ _ => p.ok true tyFlt .any
  | .fclass p => p.ok true tyFlt .any
  | .fcvt p _ _ dty => p.ok true tyCvt .any && (tyCvt.contains dty && dty != p.ty)
  | .ftoi p _ dty => p.ok true tyCvt .any && (tyInt.contains dty)
  | .itof p _ _ dty => p.ok true tyInt .any && (tyCvt.contains dty)
  | .frnd p _ => p.ok true tyFlt .any
  | .fldx p _ => p.ok false tyFlt .any
  | .fldxImm p _ _ => p.ok true tyFlt .any
  | .fgetx p => p.ok true tyFlt .any
  | .fexp2f p => p.ok true tyFlt .any
  | .talloc p acc _ bg rows cols => p.ok true tyElem .any && (dimOk rows && dimOk cols) && (pairOk p.ty bg) && ((!acc) || (p.ty == .f32 && bg == .g0 && decide (rows.toNat ≤ 512) && decide (cols.toNat ≤ 256)))
  | .tref p => p.ok true tyNone .any
  | .tdrop p => p.ok true tyNone .any
  | .tview p => p.ok false tyNone .any
  | .tviewImm p _ => p.ok true tyNone .any
  | .tinfo p _ => p.ok true tyNone .d2none
  | .tfill p => p.ok false tyAny .any
  | .tfillImm p _ => p.ok true tyAny .any
  | .tcopy p _ => p.ok true tyNone .any
  | .tcopyInto p => p.ok false tyNone .any
  | .ttran p => p.ok true tyNone .any
  | .tget p part => p.ok false tyAny .d2none && (part == .elem || p.ty == .none)
  | .tgetImm p part _ => p.ok true tyAny .d2none && (part == .elem || p.ty == .none)
  | .tset p part => p.ok false tyAny .any && (part == .elem || p.ty == .none)
  | .tsetImm p part _ => p.ok false tyAny .any && (part == .elem || p.ty == .none)
  | .vrunA p _ => p.ok true tyNone .any
  | .vrunAb p _ => p.ok false tyNone .any
  | .vrunAo p _ => p.ok false tyNone .any
  | .vrunAbo p _ => p.ok false tyNone .any
  | .vruns p _ => p.ok true tyNone .any
  | .vruns2 p _ => p.ok false tyNone .any
  | .vstat p => p.ok true tyNone .d2none
  | .wld p comp sx bg _ _ => p.ok true tyWld .any && (p.ty != .none || (bg == .g0 && sx == 0)) && (wldCmpOk p.ty bg comp) && (p.ty == .none || pairOk p.ty bg)
  | .wfree p _ => p.ok true tyNone .any
  | .mma p _ _ _ _ _ _ _ => p.ok false tyNone .any
  | .mmas p _ _ oty _ => p.ok false tyScale .any && (tyDrain.contains oty)
  | .mmasImm p _ _ oty _ _ => p.ok true tyScale .any && (tyDrain.contains oty)
  | .adrain p _ _ _ oty => p.ok false tyScale .d2none && (tyDrain.contains oty)
  | .adrainImm p _ _ _ oty _ => p.ok true tyScale .d2none && (tyDrain.contains oty)
  | .adrainSteer p _ _ _ _ oty => p.ok false tyScale .d2none && (tyDrain.contains oty)
  | .adrainSteerImm p _ _ _ _ oty _ => p.ok false tyScale .d2none && (tyDrain.contains oty)
  | .aclr p => p.ok true tyNone .any
  | .winfo p _ => p.ok true tyNone .any
  | .mstat p what _ => p.ok true tyNone .d2none && (decide (what.toNat ≤ 8))
  | .ld p => p.ok true tyLd .any
  | .st p => p.ok false tyLd .any
  | .stImm p _ => p.ok true tyLd .any
  | .ldt p bg _ rows cols => p.ok true tyAny .any && (!(bg.scaled)) && (dimOk rows && dimOk cols) && (p.ty != .none || bg == .g0) && (p.ty == .none || pairOk p.ty bg)
  | .ldtScaled p bg _ rows cols => p.ok false tyAny .any && (bg != .g0) && (dimOk rows && dimOk cols) && (p.ty != .none || bg == .g0) && (p.ty == .none || pairOk p.ty bg)
  | .stt p _ => p.ok false tyNone .any
  | .sttScaled p _ => p.ok false tyNone .any
  | .copy p _ _ => p.ok true tyAny .any
  | .copyAddr p _ _ => p.ok false tyAny .any
  | .gath p _ => p.ok false tyNone .any
  | .scat p _ => p.ok false tyNone .any
  | .cred p _ _ => p.ok false tyRed .any
  | .drain p _ => p.ok true tyNone .any
  | .pfh p _ => p.ok true tyNone .any
  | .aop p op _ => p.ok false tyAtom .any && (!(tyFlt.contains p.ty) || !(op.bitwise))
  | .aopImm p op _ _ => p.ok true tyAtom .any && (!(tyFlt.contains p.ty) || !(op.bitwise))
  | .acas p _ => p.ok false tyCas .any
  | .acasImm p _ _ => p.ok false tyCas .any
  | .bupd p _ _ => p.ok false tyRed .any
  | .baxpy p _ => p.ok false tyFlt .any
  | .baxpyImm p _ _ => p.ok false tyFlt .any
  | .bara p _ => p.ok true tyNone .any
  | .baraStatus p _ => p.ok false tyNone .any
  | .baraImm p _ _ => p.ok true tyNone .any
  | .barw p => p.ok false tyNone .any
  | .barwImm p _ => p.ok true tyNone .any
  | .acq p _ _ _ => p.ok true tyNone .any
  | .rel p _ _ _ => p.ok true tyNone .any
  | .pclm p _ => p.ok false tyNone .any
  | .pclmImm p _ _ => p.ok true tyNone .any
  | .pcmt p _ => p.ok false tyNone .any
  | .pcmtImm p _ _ => p.ok true tyNone .any
  | .pawt p _ => p.ok false tyNone .any
  | .pawtImm p _ _ => p.ok true tyNone .any
  | .pret p _ => p.ok false tyNone .any
  | .pretImm p _ _ => p.ok true tyNone .any
  | .pinfo p _ => p.ok true tyNone .any
  | .qput p _ => p.ok true tyNone .any
  | .qputArgs p _ => p.ok false tyNone .any
  | .qwait p => p.ok true tyNone .any
  | .cload p _ => p.ok true tyNone .any
  | .csel p => p.ok true tyNone .any
  | .cswt p _ => p.ok true tyNone .any
  | .cfree p _ => p.ok true tyNone .any
  | .trap p _ => p.ok true tyNone .any
  | .tret p => p.ok true tyNone .noDest
  | .getc p idx => p.ok true tyNone .any && (regAssigned idx.toNat)
  | .setc p idx => p.ok true tyNone .any && (regWritable idx.toNat && setcPlain idx.toNat)
  | .setcFpflags p => p.ok true tyNone .any
  | .setcWatch p idx => p.ok true tyNone .any && (regIsWatch idx.toNat)
  | .setcTimerCmp p => p.ok true tyNone .any
  | .setcRasInject p => p.ok true tyNone .any
  | .time p => p.ok true tyNone .any
  | .trace p _ => p.ok true tyNone .any
  | .trace2 p _ => p.ok false tyNone .any
  | .perf p ctr => p.ok true tyNone .any && (decide (ctr.toNat ≤ 14))
  | .ifrd p => p.ok true tyNone .any
  | .sbind p _ => p.ok false tyNone .any
  | .xtset p => p.ok false tyNone .any
  | .tokenAccept _ => true
  | .quarantineReport _ => true
  | .sourcePortArrival _ => true
  | .tileTransferReceive _ => true
  | .frameGrant core => decide (core < 256)
  | .tileAllocationGrant core _ => decide (core < 256)
  | .weightSlotGrant core => decide (core < 256)
  | .tokenPromotion core => decide (core < 256)
  | .memoryRequestPerform _ => true
  | .memoryResponse _ => true
  | .remoteTimeout _ => true
  | .barwRelease _ => true
  | .acqGrant _ => true
  | .pipeWaitGrant _ => true
  | .wldLoadComplete core slot => decide (core < 256) && decide (slot < 4)
  | .engineArbitration core => decide (core < 256)
  | .mmaRowIssue core => decide (core < 256)
  | .mmaRowCommit core => decide (core < 256)
  | .panDeadline core => decide (core < 256)
  | .vrunStart core => decide (core < 256)
  | .vrunComplete core _ => decide (core < 256)
  | .engineCommandComplete core _ => decide (core < 256)
  | .copyComplete core _ => decide (core < 256)
  | .cloadComplete core _ => decide (core < 256)
  | .drainComplete _ => true
  | .qwaitComplete _ => true
  | .regionSweep home => decide (home < 256)
  | .phcloseReturn _ => true
  | .cselSwitch home => decide (home < 256)
  | .cswtInstant home => decide (home < 256)
  | .cfreeComplete home => decide (home < 256)
  | .contextCompletion _ => true
  | .handlerEntry _ => true
  | .orphan core _ => decide (core < 256)
  | .timer core => decide (core < 256)
  | .freeze _ => true
  | .freezeMark node => decide (node < 1028)
  | .drainMarker core node => decide (core < 256) && decide (node < 1028)
  | .fence core node => decide (core < 256) && decide (node < 1028)
  | .settleTimeout _ => true
  | .contextSave _ => true
  | .contextRestore _ => true
  | .replayRequest _ => true
  | .doorbell vf _ _ => decide (vf < 17)
  | .hostRegisterWrite fn _ _ => decide (fn < 17)
  | .packetRead => true
  | .launch _ => true
  | .gang _ => true
  | .configurationLoad _ => true
  | .barrier _ => true
  | .preemptSave _ => true
  | .preemptResume _ => true
  | .preemptAbandon _ => true
  | .dependenceMet _ => true
  | .admissionGrant home => decide (home < 256)
  | .extentBuild _ => true
  | .argumentInjection _ => true
  | .halt _ => true
  | .stepNamed _ core _ node => decide (core < 256) && decide (node < 128)
  | .stepNext _ core => decide (core < 256)
  | .stepEnd _ => true
  | .arm _ _ => true
  | .cancel _ => true
  | .sethen _ _ => true
  | .setbrk _ core n _ _ _ _ _ => decide (core < 256) && decide (n < 8)
  | .read _ core _ => decide (core < 256)
  | .cairnMessage _ => true
  | .causeReport _ _ _ _ => true
  | .memberReportTimeout _ _ => true
  | .resumeInstant _ => true
  | .rightsMessage tenant _ _ => decide (tenant < 16)
  | .translationWalk _ => true
  | .fqreplyRetry vf _ => decide (vf < 17)
  | .fqreplyAbort vf _ => decide (vf < 17)
  | .tlbInvalidate tenant _ _ => decide (tenant < 16)
  | .pageMigration tenant _ _ => decide (tenant < 16)
  | .hostWindowAccess vf _ _ _ _ => decide (vf < 17)
  | .watershedDivision _ => true
  | .marginBackoff die => decide (die < 10)
  | .marginBarExpiry die => decide (die < 10)
  | .predictiveFailure die => decide (die < 10)
  | .flitRetry port => decide (port < 18)
  | .linkDown port => decide (port < 18)
  | .keyRenewal port => decide (port < 18)
  | .gtcSync _ => true
  | .powerRemoval => true
  | .packageReset => true
  | .bootStateAdvance _ => true
  | .coreAssignment _ n tenant => decide (n < 512) && decide (tenant < 17)
  | .tenantCreate tenant _ => decide (tenant < 16)
  | .tenantDestroy tenant => decide (tenant < 16)
  | .coreMarkFailed core => decide (core < 256)
  | .logicalTableWrite _ _ => true
  | .getVersion _ => true
  | .getCapabilities _ => true
  | .negotiateAlgorithms _ => true
  | .getDigests _ => true
  | .getCertificate _ => true
  | .challenge _ _ => true
  | .getMeasurements _ _ => true
  | .keyExchange _ => true
  | .finish _ => true
  | .endSession _ => true
  | .unsupportedRequest _ _ => true
  | .retentionWindowExpiry _ => true
  | .tdispStateChange vf state => decide (vf < 17) && decide (state < 4)
  | .jobMembershipList tenant _ _ _ => decide (tenant < 16)
  | .connectionTableWrite tenant _ _ => decide (tenant < 16)
  | .transportError core _ => decide (core < 256)

end Sys2Proof
end

