-- ==== Sys2Proof/Decode.lean ====
section
/-! DEFINITION. The instruction word of R23 taken apart and put together: `decodeWord` is total on 128-bit words
and rejects by the CLOAD reason of R51; `encode` is written from the same encoding tables. -/

namespace Sys2Proof

/-- The fields of an instruction word, R23. -/
structure Fields where
  opc : Nat
  ar : Nat
  slot : Nat
  ty : Nat
  immr : Nat
  mod : Nat
  d0 : Nat
  d1 : Nat
  d2 : Nat
  imm : Nat
  aux : Nat
  hist : Nat
  trcf : Nat
  zero : Nat
  deriving DecidableEq, Repr

/-- R23: bit positions. -/
def Fields.ofNat (w : Nat) : Fields :=
  ⟨bf w 119 9, bf w 117 2, bf w 109 8, bf w 105 4, bf w 104 1, bf w 97 7, bf w 86 11, bf w 75 11, bf w 64 11, bf w 32 32,
   bf w 16 16, bf w 15 1, bf w 14 1, bf w 0 14⟩

/-- R23: the word of these fields. -/
def Fields.toNat (f : Fields) : Nat :=
  f.opc * 2 ^ 119 + f.ar * 2 ^ 117 + f.slot * 2 ^ 109 + f.ty * 2 ^ 105 + f.immr * 2 ^ 104 + f.mod * 2 ^ 97 +
  f.d0 * 2 ^ 86 + f.d1 * 2 ^ 75 + f.d2 * 2 ^ 64 + f.imm * 2 ^ 32 + f.aux * 2 ^ 16 + f.hist * 2 ^ 15 + f.trcf * 2 ^ 14 +
  f.zero

/-- A check of R51 that names its reason. -/
def need {α : Type} (b : Bool) (r : Reason) (k : Except Reason α) : Except Reason α :=
  if b then k else .error r

/-- A field that must be a code of an enumeration. -/
def get {α β : Type} (o : Option α) (r : Reason) (k : α → Except Reason β) : Except Reason β :=
  match o with
  | some a => k a
  | none => .error r

/-- Fields every form checks: the zero fields (RESERVED), TY (TYPE) and the destinations (DEST), in R51's order. DEDUCED (log 22). -/
def decPar (f : Fields) (zeros : Bool) (arOne : Bool) (tys : List Ty) (rule : DestRule) (typ : Bool)
    (k : Par → Except Reason Instr) : Except Reason Instr :=
  need (f.zero == 0 && zeros && (!arOne || f.slot == 0)) .reserved <|
  need (tys.contains (tyOfCode f.ty) && typ) .type <|
  get (destOfCode f.d0) .dest fun d0 =>
  get (destOfCode f.d1) .dest fun d1 =>
  get (destOfCode f.d2) .dest fun d2 =>
  need (destsOk rule d0 d1 d2) .dest <|
  k ⟨BitVec.ofNat 8 f.slot, tyOfCode f.ty, d0, d1, d2, f.hist == 1, f.trcf == 1⟩

/-- The common fields of an encoded word. -/
def Par.fields (p : Par) (opc ar immr mod imm aux : Nat) : Fields :=
  ⟨opc, ar, p.slot.toNat, tyCode p.ty, immr, mod, destCode p.d0, destCode p.d1, destCode p.d2, imm, aux,
   (if p.hist then 1 else 0), (if p.trcf then 1 else 0), 0⟩

/-- PASS, R100. -/
def decPass (f : Fields) : Except Reason Instr :=
  decPar f ((f.mod == 0 && f.aux == 0 && f.imm == 0)) true tyNone .any (true) fun p =>
  .ok (.pass p)

/-- CONST, R101. -/
def decConst (f : Fields) : Except Reason Instr :=
  let hi := bf f.mod 0 1 == 1
  let imm := BitVec.ofNat 32 (f.imm)
  decPar f ((bf f.mod 1 6 == 0 && f.aux == 0)) true tyConst .any (((!hi) || [Ty.s64, Ty.z64, Ty.none].contains (tyOfCode f.ty))) fun p =>
  .ok (.const p hi imm)

/-- STEER, R102. -/
def decSteer (f : Fields) : Except Reason Instr :=
  let inv := bf f.mod 0 1 == 1
  decPar f ((bf f.mod 1 6 == 0 && f.aux == 0 && f.imm == 0)) false tyIntOrNone .d2none (true) fun p =>
  .ok (.steer p inv)

/-- STEER_IMM, R102. -/
def decSteerImm (f : Fields) : Except Reason Instr :=
  let inv := bf f.mod 0 1 == 1
  let imm := BitVec.ofNat 32 (f.imm)
  decPar f ((bf f.mod 1 6 == 0 && f.aux == 0)) true tyIntOrNone .d2none (true) fun p =>
  .ok (.steerImm p inv imm)

/-- GATE, R100. -/
def decGate (f : Fields) : Except Reason Instr :=
  decPar f ((f.mod == 0 && f.aux == 0 && f.imm == 0)) false tyNone .any (true) fun p =>
  .ok (.gate p)

/-- GATE_IMM, R100. -/
def decGateImm (f : Fields) : Except Reason Instr :=
  let imm := BitVec.ofNat 32 (f.imm)
  decPar f ((f.mod == 0 && f.aux == 0)) true tyNone .any (true) fun p =>
  .ok (.gateImm p imm)

/-- DISP, R103. -/
def decDisp (f : Fields) : Except Reason Instr :=
  let tbl := BitVec.ofNat 6 (bf f.aux 0 6)
  decPar f ((f.mod == 0 && bf f.aux 6 10 == 0 && f.imm == 0)) false tyIntOrNone .d12none (true) fun p =>
  .ok (.disp p tbl)

/-- DISP_IMM, R103. -/
def decDispImm (f : Fields) : Except Reason Instr :=
  let tbl := BitVec.ofNat 6 (bf f.aux 0 6)
  let imm := BitVec.ofNat 32 (f.imm)
  decPar f ((f.mod == 0 && bf f.aux 6 10 == 0)) true tyIntOrNone .d12none (true) fun p =>
  .ok (.dispImm p tbl imm)

/-- JOIN, R100. -/
def decJoin (f : Fields) : Except Reason Instr :=
  get (portOfCode (bf f.mod 0 2)) .reserved fun selp =>
  decPar f ((bf f.mod 2 5 == 0 && f.aux == 0 && f.imm == 0) && (selp != .c)) false tyNone .any (true) fun p =>
  .ok (.join p selp)

/-- JOIN_3, R100. -/
def decJoin3 (f : Fields) : Except Reason Instr :=
  get (portOfCode (bf f.mod 0 2)) .reserved fun selp =>
  decPar f ((bf f.mod 2 5 == 0 && f.aux == 0 && f.imm == 0)) false tyNone .any (true) fun p =>
  .ok (.join3 p selp)

/-- JOIN_IMM, R100. -/
def decJoinImm (f : Fields) : Except Reason Instr :=
  let imm := BitVec.ofNat 32 (f.imm)
  get (portOfCode (bf f.mod 0 2)) .reserved fun selp =>
  decPar f ((bf f.mod 2 5 == 0 && f.aux == 0) && (selp != .c)) true tyNone .any (true) fun p =>
  .ok (.joinImm p selp imm)

/-- JOIN_3_IMM, R100. -/
def decJoin3Imm (f : Fields) : Except Reason Instr :=
  let imm := BitVec.ofNat 32 (f.imm)
  get (portOfCode (bf f.mod 0 2)) .reserved fun selp =>
  decPar f ((bf f.mod 2 5 == 0 && f.aux == 0)) false tyNone .any (true) fun p =>
  .ok (.join3Imm p selp imm)

/-- CNTN, R107. -/
def decCntn (f : Fields) : Except Reason Instr :=
  decPar f ((f.mod == 0 && f.aux == 0 && f.imm == 0)) false tyNone .d12none (true) fun p =>
  .ok (.cntn p)

/-- FNEW, R104. DEDUCED (log 24). -/
def decFnew (f : Fields) : Except Reason Instr :=
  need (bf f.mod 0 2 != 1) .arity <|
  let node := BitVec.ofNat 7 (bf f.aux 9 7)
  let block := BitVec.ofNat 6 (bf f.aux 0 6)
  get (placeOfCode (bf f.mod 0 2)) .reserved fun place =>
  decPar f ((bf f.mod 2 5 == 0 && bf f.aux 6 1 == 0 && f.imm == 0)) true tyNone .any (true) fun p =>
  get (portOfCode (bf f.aux 7 2)) .dest fun port =>
  .ok (.fnew p place node port block)

/-- FNEW_NAMED, R104. -/
def decFnewNamed (f : Fields) : Except Reason Instr :=
  need (bf f.mod 0 2 == 1 || bf f.mod 0 2 == 3) .arity <|
  let node := BitVec.ofNat 7 (bf f.aux 9 7)
  let block := BitVec.ofNat 6 (bf f.aux 0 6)
  get (placeOfCode (bf f.mod 0 2)) .reserved fun place =>
  decPar f ((bf f.mod 2 5 == 0 && bf f.aux 6 1 == 0 && f.imm == 0)) false tyNone .any (true) fun p =>
  get (portOfCode (bf f.aux 7 2)) .dest fun port =>
  .ok (.fnewNamed p place node port block)

/-- FNEW_NAMED_IMM, R104. -/
def decFnewNamedImm (f : Fields) : Except Reason Instr :=
  need (bf f.mod 0 2 == 1 || bf f.mod 0 2 == 3) .arity <|
  let node := BitVec.ofNat 7 (bf f.aux 9 7)
  let block := BitVec.ofNat 6 (bf f.aux 0 6)
  let imm := BitVec.ofNat 32 (f.imm)
  get (placeOfCode (bf f.mod 0 2)) .reserved fun place =>
  decPar f ((bf f.mod 2 5 == 0 && bf f.aux 6 1 == 0)) true tyNone .any (true) fun p =>
  get (portOfCode (bf f.aux 7 2)) .dest fun port =>
  .ok (.fnewNamedImm p place node port block imm)

/-- SENDF, R107. -/
def decSendf (f : Fields) : Except Reason Instr :=
  let node := BitVec.ofNat 7 (bf f.aux 9 7)
  decPar f ((f.mod == 0 && bf f.aux 0 7 == 0 && f.imm == 0)) false tyNone .d12none (true) fun p =>
  get (portOfCode (bf f.aux 7 2)) .dest fun port =>
  .ok (.sendf p node port)

/-- MKCONT, R106. -/
def decMkcont (f : Fields) : Except Reason Instr :=
  let node := BitVec.ofNat 7 (bf f.aux 9 7)
  decPar f ((f.mod == 0 && bf f.aux 0 7 == 0 && f.imm == 0)) true tyNone .any (true) fun p =>
  get (portOfCode (bf f.aux 7 2)) .dest fun port =>
  .ok (.mkcont p node port)

/-- ITER, R110. -/
def decIter (f : Fields) : Except Reason Instr :=
  let next := bf f.mod 0 1 == 1
  let node := BitVec.ofNat 7 (bf f.aux 9 7)
  let block := BitVec.ofNat 6 (bf f.aux 0 6)
  decPar f ((bf f.mod 1 6 == 0 && bf f.aux 6 1 == 0 && f.imm == 0) && ((!next) || block == 0)) true tyNone .any (true) fun p =>
  get (portOfCode (bf f.aux 7 2)) .dest fun port =>
  .ok (.iter p next node port block)

/-- ITER_2, R110. -/
def decIter2 (f : Fields) : Except Reason Instr :=
  let next := bf f.mod 0 1 == 1
  let node := BitVec.ofNat 7 (bf f.aux 9 7)
  let block := BitVec.ofNat 6 (bf f.aux 0 6)
  decPar f ((bf f.mod 1 6 == 0 && bf f.aux 6 1 == 0 && f.imm == 0) && ((!next) || block == 0)) false tyNone .any (true) fun p =>
  get (portOfCode (bf f.aux 7 2)) .dest fun port =>
  need (port == .l) .dest <|
  .ok (.iter2 p next node port block)

/-- ITER_2_IMM, R110. -/
def decIter2Imm (f : Fields) : Except Reason Instr :=
  let next := bf f.mod 0 1 == 1
  let node := BitVec.ofNat 7 (bf f.aux 9 7)
  let block := BitVec.ofNat 6 (bf f.aux 0 6)
  let imm := BitVec.ofNat 32 (f.imm)
  decPar f ((bf f.mod 1 6 == 0 && bf f.aux 6 1 == 0) && ((!next) || block == 0)) true tyNone .any (true) fun p =>
  get (portOfCode (bf f.aux 7 2)) .dest fun port =>
  need (port == .l) .dest <|
  .ok (.iter2Imm p next node port block imm)

/-- EXIT, R111. -/
def decExit (f : Fields) : Except Reason Instr :=
  decPar f ((f.mod == 0 && f.aux == 0 && f.imm == 0)) true tyNone .outOnly (true) fun p =>
  .ok (.exit p)

/-- FSET, R112. -/
def decFset (f : Fields) : Except Reason Instr :=
  let var := BitVec.ofNat 8 (bf f.aux 0 8)
  decPar f ((f.mod == 0 && bf f.aux 8 8 == 0 && f.imm == 0)) true tyNone .any (true) fun p =>
  .ok (.fset p var)

/-- FGET, R112. -/
def decFget (f : Fields) : Except Reason Instr :=
  let var := BitVec.ofNat 8 (bf f.aux 0 8)
  decPar f ((f.mod == 0 && bf f.aux 8 8 == 0 && f.imm == 0)) true tyNone .any (true) fun p =>
  .ok (.fget p var)

/-- ISEOS, R114. -/
def decIseos (f : Fields) : Except Reason Instr :=
  decPar f ((f.mod == 0 && f.aux == 0 && f.imm == 0)) true tyNone .any (true) fun p =>
  .ok (.iseos p)

/-- MKEOS, R114. -/
def decMkeos (f : Fields) : Except Reason Instr :=
  decPar f ((f.mod == 0 && f.aux == 0 && f.imm == 0)) true tyNone .any (true) fun p =>
  .ok (.mkeos p)

/-- SEND, R108. -/
def decSend (f : Fields) : Except Reason Instr :=
  let cid := BitVec.ofNat 8 (bf f.aux 0 8)
  decPar f ((f.mod == 0 && bf f.aux 8 8 == 0 && f.imm == 0) && (cid != 0)) false tyNone .d12none (true) fun p =>
  .ok (.send p cid)

/-- SEND_IMM, R108. -/
def decSendImm (f : Fields) : Except Reason Instr :=
  let cid := BitVec.ofNat 8 (bf f.aux 0 8)
  let imm := BitVec.ofNat 32 (f.imm)
  decPar f ((f.mod == 0 && bf f.aux 8 8 == 0) && (cid != 0)) true tyNone .d12none (true) fun p =>
  .ok (.sendImm p cid imm)

/-- PHOPEN, R115. -/
def decPhopen (f : Fields) : Except Reason Instr :=
  let ph := BitVec.ofNat 4 (bf f.aux 0 4)
  decPar f ((f.mod == 0 && bf f.aux 4 12 == 0 && f.imm == 0) && (ph != 0)) true tyNone .any (true) fun p =>
  .ok (.phopen p ph)

/-- PHCLOSE, R115. -/
def decPhclose (f : Fields) : Except Reason Instr :=
  let ph := BitVec.ofNat 4 (bf f.aux 0 4)
  decPar f ((f.mod == 0 && bf f.aux 4 12 == 0 && f.imm == 0) && (ph != 0)) true tyNone .any (true) fun p =>
  .ok (.phclose p ph)

/-- SELF, R116. -/
def decSelf (f : Fields) : Except Reason Instr :=
  get (selfWhatOfCode (bf f.mod 0 3)) .reserved fun what =>
  decPar f ((bf f.mod 3 4 == 0 && f.aux == 0 && f.imm == 0)) true tyNone .any (true) fun p =>
  .ok (.self p what)

/-- LEVEL, R116. -/
def decLevel (f : Fields) : Except Reason Instr :=
  let cnt := bf f.mod 0 1 == 1
  let lvl := BitVec.ofNat 3 (bf f.aux 0 3)
  decPar f ((bf f.mod 1 6 == 0 && bf f.aux 3 13 == 0 && f.imm == 0)) true tyNone .any (true) fun p =>
  .ok (.level p cnt lvl)

/-- ADD, R118. -/
def decAdd (f : Fields) : Except Reason Instr :=
  decPar f ((f.mod == 0 && f.aux == 0 && f.imm == 0)) false tyInt .any (true) fun p =>
  .ok (.add p)

/-- ADD_IMM, R118. -/
def decAddImm (f : Fields) : Except Reason Instr :=
  let imm := BitVec.ofNat 32 (f.imm)
  decPar f ((f.mod == 0 && f.aux == 0)) true tyInt .any (true) fun p =>
  .ok (.addImm p imm)

/-- SUB, R118. -/
def decSub (f : Fields) : Except Reason Instr :=
  decPar f ((f.mod == 0 && f.aux == 0 && f.imm == 0)) false tyInt .any (true) fun p =>
  .ok (.sub p)

/-- SUB_IMM, R118. -/
def decSubImm (f : Fields) : Except Reason Instr :=
  let imm := BitVec.ofNat 32 (f.imm)
  decPar f ((f.mod == 0 && f.aux == 0)) true tyInt .any (true) fun p =>
  .ok (.subImm p imm)

/-- MUL, R118. -/
def decMul (f : Fields) : Except Reason Instr :=
  decPar f ((f.mod == 0 && f.aux == 0 && f.imm == 0)) false tyInt .any (true) fun p =>
  .ok (.mul p)

/-- MUL_IMM, R118. -/
def decMulImm (f : Fields) : Except Reason Instr :=
  let imm := BitVec.ofNat 32 (f.imm)
  decPar f ((f.mod == 0 && f.aux == 0)) true tyInt .any (true) fun p =>
  .ok (.mulImm p imm)

/-- MULH, R118. -/
def decMulh (f : Fields) : Except Reason Instr :=
  decPar f ((f.mod == 0 && f.aux == 0 && f.imm == 0)) false tyInt .any (true) fun p =>
  .ok (.mulh p)

/-- MULH_IMM, R118. -/
def decMulhImm (f : Fields) : Except Reason Instr :=
  let imm := BitVec.ofNat 32 (f.imm)
  decPar f ((f.mod == 0 && f.aux == 0)) true tyInt .any (true) fun p =>
  .ok (.mulhImm p imm)

/-- DIV, R119. -/
def decDiv (f : Fields) : Except Reason Instr :=
  decPar f ((f.mod == 0 && f.aux == 0 && f.imm == 0)) false tyInt .any (true) fun p =>
  .ok (.div p)

/-- DIV_IMM, R119. -/
def decDivImm (f : Fields) : Except Reason Instr :=
  let imm := BitVec.ofNat 32 (f.imm)
  decPar f ((f.mod == 0 && f.aux == 0)) true tyInt .any (true) fun p =>
  .ok (.divImm p imm)

/-- REM, R119. -/
def decRem (f : Fields) : Except Reason Instr :=
  decPar f ((f.mod == 0 && f.aux == 0 && f.imm == 0)) false tyInt .any (true) fun p =>
  .ok (.rem p)

/-- REM_IMM, R119. -/
def decRemImm (f : Fields) : Except Reason Instr :=
  let imm := BitVec.ofNat 32 (f.imm)
  decPar f ((f.mod == 0 && f.aux == 0)) true tyInt .any (true) fun p =>
  .ok (.remImm p imm)

/-- AND, R118. -/
def decAnd (f : Fields) : Except Reason Instr :=
  decPar f ((f.mod == 0 && f.aux == 0 && f.imm == 0)) false tyInt .any (true) fun p =>
  .ok (.and p)

/-- AND_IMM, R118. -/
def decAndImm (f : Fields) : Except Reason Instr :=
  let imm := BitVec.ofNat 32 (f.imm)
  decPar f ((f.mod == 0 && f.aux == 0)) true tyInt .any (true) fun p =>
  .ok (.andImm p imm)

/-- OR, R118. -/
def decOr (f : Fields) : Except Reason Instr :=
  decPar f ((f.mod == 0 && f.aux == 0 && f.imm == 0)) false tyInt .any (true) fun p =>
  .ok (.or p)

/-- OR_IMM, R118. -/
def decOrImm (f : Fields) : Except Reason Instr :=
  let imm := BitVec.ofNat 32 (f.imm)
  decPar f ((f.mod == 0 && f.aux == 0)) true tyInt .any (true) fun p =>
  .ok (.orImm p imm)

/-- XOR, R118. -/
def decXor (f : Fields) : Except Reason Instr :=
  decPar f ((f.mod == 0 && f.aux == 0 && f.imm == 0)) false tyInt .any (true) fun p =>
  .ok (.xor p)

/-- XOR_IMM, R118. -/
def decXorImm (f : Fields) : Except Reason Instr :=
  let imm := BitVec.ofNat 32 (f.imm)
  decPar f ((f.mod == 0 && f.aux == 0)) true tyInt .any (true) fun p =>
  .ok (.xorImm p imm)

/-- ANDN, R118. -/
def decAndn (f : Fields) : Except Reason Instr :=
  decPar f ((f.mod == 0 && f.aux == 0 && f.imm == 0)) false tyInt .any (true) fun p =>
  .ok (.andn p)

/-- ANDN_IMM, R118. -/
def decAndnImm (f : Fields) : Except Reason Instr :=
  let imm := BitVec.ofNat 32 (f.imm)
  decPar f ((f.mod == 0 && f.aux == 0)) true tyInt .any (true) fun p =>
  .ok (.andnImm p imm)

/-- SHL, R120. -/
def decShl (f : Fields) : Except Reason Instr :=
  decPar f ((f.mod == 0 && f.aux == 0 && f.imm == 0)) false tyInt .any (true) fun p =>
  .ok (.shl p)

/-- SHL_IMM, R120. -/
def decShlImm (f : Fields) : Except Reason Instr :=
  let imm := BitVec.ofNat 32 (f.imm)
  decPar f ((f.mod == 0 && f.aux == 0)) true tyInt .any (true) fun p =>
  .ok (.shlImm p imm)

/-- SHR, R120. -/
def decShr (f : Fields) : Except Reason Instr :=
  decPar f ((f.mod == 0 && f.aux == 0 && f.imm == 0)) false tyInt .any (true) fun p =>
  .ok (.shr p)

/-- SHR_IMM, R120. -/
def decShrImm (f : Fields) : Except Reason Instr :=
  let imm := BitVec.ofNat 32 (f.imm)
  decPar f ((f.mod == 0 && f.aux == 0)) true tyInt .any (true) fun p =>
  .ok (.shrImm p imm)

/-- SAR, R120. -/
def decSar (f : Fields) : Except Reason Instr :=
  decPar f ((f.mod == 0 && f.aux == 0 && f.imm == 0)) false tyInt .any (true) fun p =>
  .ok (.sar p)

/-- SAR_IMM, R120. -/
def decSarImm (f : Fields) : Except Reason Instr :=
  let imm := BitVec.ofNat 32 (f.imm)
  decPar f ((f.mod == 0 && f.aux == 0)) true tyInt .any (true) fun p =>
  .ok (.sarImm p imm)

/-- ROL, R120. -/
def decRol (f : Fields) : Except Reason Instr :=
  decPar f ((f.mod == 0 && f.aux == 0 && f.imm == 0)) false tyInt .any (true) fun p =>
  .ok (.rol p)

/-- ROL_IMM, R120. -/
def decRolImm (f : Fields) : Except Reason Instr :=
  let imm := BitVec.ofNat 32 (f.imm)
  decPar f ((f.mod == 0 && f.aux == 0)) true tyInt .any (true) fun p =>
  .ok (.rolImm p imm)

/-- MIN, R118. -/
def decMin (f : Fields) : Except Reason Instr :=
  decPar f ((f.mod == 0 && f.aux == 0 && f.imm == 0)) false tyInt .any (true) fun p =>
  .ok (.min p)

/-- MIN_IMM, R118. -/
def decMinImm (f : Fields) : Except Reason Instr :=
  let imm := BitVec.ofNat 32 (f.imm)
  decPar f ((f.mod == 0 && f.aux == 0)) true tyInt .any (true) fun p =>
  .ok (.minImm p imm)

/-- MAX, R118. -/
def decMax (f : Fields) : Except Reason Instr :=
  decPar f ((f.mod == 0 && f.aux == 0 && f.imm == 0)) false tyInt .any (true) fun p =>
  .ok (.max p)

/-- MAX_IMM, R118. -/
def decMaxImm (f : Fields) : Except Reason Instr :=
  let imm := BitVec.ofNat 32 (f.imm)
  decPar f ((f.mod == 0 && f.aux == 0)) true tyInt .any (true) fun p =>
  .ok (.maxImm p imm)

/-- ABS, R118. -/
def decAbs (f : Fields) : Except Reason Instr :=
  decPar f ((f.mod == 0 && f.aux == 0 && f.imm == 0)) true tyInt .any (true) fun p =>
  .ok (.abs p)

/-- NEG, R118. -/
def decNeg (f : Fields) : Except Reason Instr :=
  decPar f ((f.mod == 0 && f.aux == 0 && f.imm == 0)) true tyInt .any (true) fun p =>
  .ok (.neg p)

/-- CLZ, R118. -/
def decClz (f : Fields) : Except Reason Instr :=
  decPar f ((f.mod == 0 && f.aux == 0 && f.imm == 0)) true tyInt .any (true) fun p =>
  .ok (.clz p)

/-- CTZ, R118. -/
def decCtz (f : Fields) : Except Reason Instr :=
  decPar f ((f.mod == 0 && f.aux == 0 && f.imm == 0)) true tyInt .any (true) fun p =>
  .ok (.ctz p)

/-- POPC, R118. -/
def decPopc (f : Fields) : Except Reason Instr :=
  decPar f ((f.mod == 0 && f.aux == 0 && f.imm == 0)) true tyInt .any (true) fun p =>
  .ok (.popc p)

/-- CMP, R121. -/
def decCmp (f : Fields) : Except Reason Instr :=
  get (intCondOfCode (bf f.mod 0 3)) .reserved fun cond =>
  decPar f ((bf f.mod 3 4 == 0 && f.aux == 0 && f.imm == 0)) false tyInt .any (true) fun p =>
  .ok (.cmp p cond)

/-- CMP_IMM, R121. -/
def decCmpImm (f : Fields) : Except Reason Instr :=
  let imm := BitVec.ofNat 32 (f.imm)
  get (intCondOfCode (bf f.mod 0 3)) .reserved fun cond =>
  decPar f ((bf f.mod 3 4 == 0 && f.aux == 0)) true tyInt .any (true) fun p =>
  .ok (.cmpImm p cond imm)

/-- SEL, R121. -/
def decSel (f : Fields) : Except Reason Instr :=
  decPar f ((f.mod == 0 && f.aux == 0 && f.imm == 0)) false tyInt .any (true) fun p =>
  .ok (.sel p)

/-- SEL_IMM, R121. -/
def decSelImm (f : Fields) : Except Reason Instr :=
  let imm := BitVec.ofNat 32 (f.imm)
  decPar f ((f.mod == 0 && f.aux == 0)) false tyInt .any (true) fun p =>
  .ok (.selImm p imm)

/-- EXT, R122. -/
def decExt (f : Fields) : Except Reason Instr :=
  decPar f ((f.mod == 0 && f.aux == 0 && f.imm == 0)) false tyInt64 .any (true) fun p =>
  .ok (.ext p)

/-- EXT_IMM, R122. -/
def decExtImm (f : Fields) : Except Reason Instr :=
  let imm := BitVec.ofNat 32 (f.imm)
  decPar f ((f.mod == 0 && f.aux == 0)) true tyInt64 .any (true) fun p =>
  .ok (.extImm p imm)

/-- INS, R122. -/
def decIns (f : Fields) : Except Reason Instr :=
  decPar f ((f.mod == 0 && f.aux == 0 && f.imm == 0)) false tyInt64 .any (true) fun p =>
  .ok (.ins p)

/-- INS_IMM, R122. -/
def decInsImm (f : Fields) : Except Reason Instr :=
  let imm := BitVec.ofNat 32 (f.imm)
  decPar f ((f.mod == 0 && f.aux == 0)) false tyInt64 .any (true) fun p =>
  .ok (.insImm p imm)

/-- MAD, R118. -/
def decMad (f : Fields) : Except Reason Instr :=
  decPar f ((f.mod == 0 && f.aux == 0 && f.imm == 0)) false tyInt .any (true) fun p =>
  .ok (.mad p)

/-- MAD_IMM, R118. -/
def decMadImm (f : Fields) : Except Reason Instr :=
  let imm := BitVec.ofNat 32 (f.imm)
  decPar f ((f.mod == 0 && f.aux == 0)) false tyInt .any (true) fun p =>
  .ok (.madImm p imm)

/-- ADDS, R118. -/
def decAdds (f : Fields) : Except Reason Instr :=
  decPar f ((f.mod == 0 && f.aux == 0 && f.imm == 0)) false tyInt .any (true) fun p =>
  .ok (.adds p)

/-- ADDS_IMM, R118. -/
def decAddsImm (f : Fields) : Except Reason Instr :=
  let imm := BitVec.ofNat 32 (f.imm)
  decPar f ((f.mod == 0 && f.aux == 0)) true tyInt .any (true) fun p =>
  .ok (.addsImm p imm)

/-- SUBS, R118. -/
def decSubs (f : Fields) : Except Reason Instr :=
  decPar f ((f.mod == 0 && f.aux == 0 && f.imm == 0)) false tyInt .any (true) fun p =>
  .ok (.subs p)

/-- SUBS_IMM, R118. -/
def decSubsImm (f : Fields) : Except Reason Instr :=
  let imm := BitVec.ofNat 32 (f.imm)
  decPar f ((f.mod == 0 && f.aux == 0)) true tyInt .any (true) fun p =>
  .ok (.subsImm p imm)

/-- FADD, R125. -/
def decFadd (f : Fields) : Except Reason Instr :=
  get (modeOfCode (bf f.mod 0 2)) .reserved fun mode =>
  decPar f ((bf f.mod 2 5 == 0 && f.aux == 0 && f.imm == 0)) false tyFlt .any (true) fun p =>
  .ok (.fadd p mode)

/-- FADD_IMM, R125. -/
def decFaddImm (f : Fields) : Except Reason Instr :=
  let imm := BitVec.ofNat 32 (f.imm)
  get (modeOfCode (bf f.mod 0 2)) .reserved fun mode =>
  decPar f ((bf f.mod 2 5 == 0 && f.aux == 0)) true tyFlt .any (true) fun p =>
  .ok (.faddImm p mode imm)

/-- FSUB, R125. -/
def decFsub (f : Fields) : Except Reason Instr :=
  get (modeOfCode (bf f.mod 0 2)) .reserved fun mode =>
  decPar f ((bf f.mod 2 5 == 0 && f.aux == 0 && f.imm == 0)) false tyFlt .any (true) fun p =>
  .ok (.fsub p mode)

/-- FSUB_IMM, R125. -/
def decFsubImm (f : Fields) : Except Reason Instr :=
  let imm := BitVec.ofNat 32 (f.imm)
  get (modeOfCode (bf f.mod 0 2)) .reserved fun mode =>
  decPar f ((bf f.mod 2 5 == 0 && f.aux == 0)) true tyFlt .any (true) fun p =>
  .ok (.fsubImm p mode imm)

/-- FMUL, R125. -/
def decFmul (f : Fields) : Except Reason Instr :=
  get (modeOfCode (bf f.mod 0 2)) .reserved fun mode =>
  decPar f ((bf f.mod 2 5 == 0 && f.aux == 0 && f.imm == 0)) false tyFlt .any (true) fun p =>
  .ok (.fmul p mode)

/-- FMUL_IMM, R125. -/
def decFmulImm (f : Fields) : Except Reason Instr :=
  let imm := BitVec.ofNat 32 (f.imm)
  get (modeOfCode (bf f.mod 0 2)) .reserved fun mode =>
  decPar f ((bf f.mod 2 5 == 0 && f.aux == 0)) true tyFlt .any (true) fun p =>
  .ok (.fmulImm p mode imm)

/-- FFMA, R125. -/
def decFfma (f : Fields) : Except Reason Instr :=
  get (modeOfCode (bf f.mod 0 2)) .reserved fun mode =>
  decPar f ((bf f.mod 2 5 == 0 && f.aux == 0 && f.imm == 0)) false tyFlt .any (true) fun p =>
  .ok (.ffma p mode)

/-- FFMA_IMM, R125. -/
def decFfmaImm (f : Fields) : Except Reason Instr :=
  let imm := BitVec.ofNat 32 (f.imm)
  get (modeOfCode (bf f.mod 0 2)) .reserved fun mode =>
  decPar f ((bf f.mod 2 5 == 0 && f.aux == 0)) false tyFlt .any (true) fun p =>
  .ok (.ffmaImm p mode imm)

/-- FDIV, R126. -/
def decFdiv (f : Fields) : Except Reason Instr :=
  get (modeOfCode (bf f.mod 0 2)) .reserved fun mode =>
  decPar f ((bf f.mod 2 5 == 0 && f.aux == 0 && f.imm == 0)) false tyFlt .any (true) fun p =>
  .ok (.fdiv p mode)

/-- FDIV_IMM, R126. -/
def decFdivImm (f : Fields) : Except Reason Instr :=
  let imm := BitVec.ofNat 32 (f.imm)
  get (modeOfCode (bf f.mod 0 2)) .reserved fun mode =>
  decPar f ((bf f.mod 2 5 == 0 && f.aux == 0)) true tyFlt .any (true) fun p =>
  .ok (.fdivImm p mode imm)

/-- FSQRT, R126. -/
def decFsqrt (f : Fields) : Except Reason Instr :=
  get (modeOfCode (bf f.mod 0 2)) .reserved fun mode =>
  decPar f ((bf f.mod 2 5 == 0 && f.aux == 0 && f.imm == 0)) true tyFlt .any (true) fun p =>
  .ok (.fsqrt p mode)

/-- FRCP, R126. -/
def decFrcp (f : Fields) : Except Reason Instr :=
  get (modeOfCode (bf f.mod 0 2)) .reserved fun mode =>
  decPar f ((bf f.mod 2 5 == 0 && f.aux == 0 && f.imm == 0)) true tyFlt .any (true) fun p =>
  .ok (.frcp p mode)

/-- FRSQ, R126. -/
def decFrsq (f : Fields) : Except Reason Instr :=
  get (modeOfCode (bf f.mod 0 2)) .reserved fun mode =>
  decPar f ((bf f.mod 2 5 == 0 && f.aux == 0 && f.imm == 0)) true tyFlt .any (true) fun p =>
  .ok (.frsq p mode)

/-- FMIN, R126. -/
def decFmin (f : Fields) : Except Reason Instr :=
  decPar f ((f.mod == 0 && f.aux == 0 && f.imm == 0)) false tyFlt .any (true) fun p =>
  .ok (.fmin p)

/-- FMIN_IMM, R126. -/
def decFminImm (f : Fields) : Except Reason Instr :=
  let imm := BitVec.ofNat 32 (f.imm)
  decPar f ((f.mod == 0 && f.aux == 0)) true tyFlt .any (true) fun p =>
  .ok (.fminImm p imm)

/-- FMAX, R126. -/
def decFmax (f : Fields) : Except Reason Instr :=
  decPar f ((f.mod == 0 && f.aux == 0 && f.imm == 0)) false tyFlt .any (true) fun p =>
  .ok (.fmax p)

/-- FMAX_IMM, R126. -/
def decFmaxImm (f : Fields) : Except Reason Instr :=
  let imm := BitVec.ofNat 32 (f.imm)
  decPar f ((f.mod == 0 && f.aux == 0)) true tyFlt .any (true) fun p =>
  .ok (.fmaxImm p imm)

/-- FABS, R125. -/
def decFabs (f : Fields) : Except Reason Instr :=
  decPar f ((f.mod == 0 && f.aux == 0 && f.imm == 0)) true tyFlt .any (true) fun p =>
  .ok (.fabs p)

/-- FNEG, R125. -/
def decFneg (f : Fields) : Except Reason Instr :=
  decPar f ((f.mod == 0 && f.aux == 0 && f.imm == 0)) true tyFlt .any (true) fun p =>
  .ok (.fneg p)

/-- FCMP, R127. -/
def decFcmp (f : Fields) : Except Reason Instr :=
  get (fltCondOfCode (bf f.mod 0 3)) .reserved fun cond =>
  decPar f ((bf f.mod 3 4 == 0 && f.aux == 0 && f.imm == 0)) false tyFlt .any (true) fun p =>
  .ok (.fcmp p cond)

/-- FCMP_IMM, R127. -/
def decFcmpImm (f : Fields) : Except Reason Instr :=
  let imm := BitVec.ofNat 32 (f.imm)
  get (fltCondOfCode (bf f.mod 0 3)) .reserved fun cond =>
  decPar f ((bf f.mod 3 4 == 0 && f.aux == 0)) true tyFlt .any (true) fun p =>
  .ok (.fcmpImm p cond imm)

/-- FCLASS, R127. -/
def decFclass (f : Fields) : Except Reason Instr :=
  decPar f ((f.mod == 0 && f.aux == 0 && f.imm == 0)) true tyFlt .any (true) fun p =>
  .ok (.fclass p)

/-- FCVT, R128. -/
def decFcvt (f : Fields) : Except Reason Instr :=
  let sat := bf f.mod 2 1 == 1
  let dty := tyOfCode (bf f.aux 0 4)
  get (modeOfCode (bf f.mod 0 2)) .reserved fun mode =>
  decPar f ((bf f.mod 3 4 == 0 && bf f.aux 4 12 == 0 && f.imm == 0)) true tyCvt .any ((tyCvt.contains dty && dty != (tyOfCode f.ty))) fun p =>
  .ok (.fcvt p mode sat dty)

/-- FTOI, R128. -/
def decFtoi (f : Fields) : Except Reason Instr :=
  let dty := tyOfCode (bf f.aux 0 4)
  get (modeOfCode (bf f.mod 0 2)) .reserved fun mode =>
  decPar f ((bf f.mod 2 5 == 0 && bf f.aux 4 12 == 0 && f.imm == 0)) true tyCvt .any ((tyInt.contains dty)) fun p =>
  .ok (.ftoi p mode dty)

/-- ITOF, R128. -/
def decItof (f : Fields) : Except Reason Instr :=
  let sat := bf f.mod 2 1 == 1
  let dty := tyOfCode (bf f.aux 0 4)
  get (modeOfCode (bf f.mod 0 2)) .reserved fun mode =>
  decPar f ((bf f.mod 3 4 == 0 && bf f.aux 4 12 == 0 && f.imm == 0)) true tyInt .any ((tyCvt.contains dty)) fun p =>
  .ok (.itof p mode sat dty)

/-- FRND, R128. -/
def decFrnd (f : Fields) : Except Reason Instr :=
  get (modeOfCode (bf f.mod 0 2)) .reserved fun mode =>
  decPar f ((bf f.mod 2 5 == 0 && f.aux == 0 && f.imm == 0)) true tyFlt .any (true) fun p =>
  .ok (.frnd p mode)

/-- FLDX, R128. -/
def decFldx (f : Fields) : Except Reason Instr :=
  get (modeOfCode (bf f.mod 0 2)) .reserved fun mode =>
  decPar f ((bf f.mod 2 5 == 0 && f.aux == 0 && f.imm == 0)) false tyFlt .any (true) fun p =>
  .ok (.fldx p mode)

/-- FLDX_IMM, R128. -/
def decFldxImm (f : Fields) : Except Reason Instr :=
  let imm := BitVec.ofNat 32 (f.imm)
  get (modeOfCode (bf f.mod 0 2)) .reserved fun mode =>
  decPar f ((bf f.mod 2 5 == 0 && f.aux == 0)) true tyFlt .any (true) fun p =>
  .ok (.fldxImm p mode imm)

/-- FGETX, R128. -/
def decFgetx (f : Fields) : Except Reason Instr :=
  decPar f ((f.mod == 0 && f.aux == 0 && f.imm == 0)) true tyFlt .any (true) fun p =>
  .ok (.fgetx p)

/-- FEXP2F, R128. -/
def decFexp2f (f : Fields) : Except Reason Instr :=
  decPar f ((f.mod == 0 && f.aux == 0 && f.imm == 0)) true tyFlt .any (true) fun p =>
  .ok (.fexp2f p)

/-- TALLOC, R140. DEDUCED (log 23). -/
def decTalloc (f : Fields) : Except Reason Instr :=
  let acc := bf f.mod 0 1 == 1
  let zero := bf f.mod 1 1 == 1
  let rows := BitVec.ofNat 13 (bf f.imm 0 13)
  let cols := BitVec.ofNat 13 (bf f.imm 13 13)
  need (f.zero == 0 && (bf f.mod 2 5 == 0 && bf f.aux 4 12 == 0 && bf f.imm 26 6 == 0) && (dimOk rows && dimOk cols) && (f.slot == 0)) .reserved <|
  get (geomOfCode (bf f.aux 0 4)) .type fun bg =>
  decPar f ((bf f.mod 2 5 == 0 && bf f.aux 4 12 == 0 && bf f.imm 26 6 == 0) && (dimOk rows && dimOk cols)) true tyElem .any ((pairOk (tyOfCode f.ty) bg) && ((!acc) || ((tyOfCode f.ty) == .f32 && bg == .g0 && decide (rows.toNat ≤ 512) && decide (cols.toNat ≤ 256)))) fun p =>
  .ok (.talloc p acc zero bg rows cols)

/-- TREF, R141. -/
def decTref (f : Fields) : Except Reason Instr :=
  decPar f ((f.mod == 0 && f.aux == 0 && f.imm == 0)) true tyNone .any (true) fun p =>
  .ok (.tref p)

/-- TDROP, R142. -/
def decTdrop (f : Fields) : Except Reason Instr :=
  decPar f ((f.mod == 0 && f.aux == 0 && f.imm == 0)) true tyNone .any (true) fun p =>
  .ok (.tdrop p)

/-- TVIEW, R143. -/
def decTview (f : Fields) : Except Reason Instr :=
  decPar f ((f.mod == 0 && f.aux == 0 && f.imm == 0)) false tyNone .any (true) fun p =>
  .ok (.tview p)

/-- TVIEW_IMM, R143. -/
def decTviewImm (f : Fields) : Except Reason Instr :=
  let imm := BitVec.ofNat 32 (f.imm)
  decPar f ((f.mod == 0 && f.aux == 0)) true tyNone .any (true) fun p =>
  .ok (.tviewImm p imm)

/-- TINFO, R144. -/
def decTinfo (f : Fields) : Except Reason Instr :=
  get (infoWhatOfCode (bf f.mod 0 3)) .reserved fun what =>
  decPar f ((bf f.mod 3 4 == 0 && f.aux == 0 && f.imm == 0)) true tyNone .d2none (true) fun p =>
  .ok (.tinfo p what)

/-- TFILL, R145. -/
def decTfill (f : Fields) : Except Reason Instr :=
  decPar f ((f.mod == 0 && f.aux == 0 && f.imm == 0)) false tyAny .any (true) fun p =>
  .ok (.tfill p)

/-- TFILL_IMM, R145. -/
def decTfillImm (f : Fields) : Except Reason Instr :=
  let imm := BitVec.ofNat 32 (f.imm)
  decPar f ((f.mod == 0 && f.aux == 0)) true tyAny .any (true) fun p =>
  .ok (.tfillImm p imm)

/-- TCOPY, R146. -/
def decTcopy (f : Fields) : Except Reason Instr :=
  let toacc := bf f.mod 0 1 == 1
  decPar f ((bf f.mod 1 6 == 0 && f.aux == 0 && f.imm == 0)) true tyNone .any (true) fun p =>
  .ok (.tcopy p toacc)

/-- TCOPY_INTO, R146. -/
def decTcopyInto (f : Fields) : Except Reason Instr :=
  decPar f ((f.mod == 0 && f.aux == 0 && f.imm == 0)) false tyNone .any (true) fun p =>
  .ok (.tcopyInto p)

/-- TTRAN, R147. -/
def decTtran (f : Fields) : Except Reason Instr :=
  decPar f ((f.mod == 0 && f.aux == 0 && f.imm == 0)) true tyNone .any (true) fun p =>
  .ok (.ttran p)

/-- TGET, R148. -/
def decTget (f : Fields) : Except Reason Instr :=
  get (partOfCode (bf f.mod 0 2)) .reserved fun part =>
  decPar f ((bf f.mod 2 5 == 0 && f.aux == 0 && f.imm == 0)) false tyAny .d2none ((part == .elem || (tyOfCode f.ty) == .none)) fun p =>
  .ok (.tget p part)

/-- TGET_IMM, R148. -/
def decTgetImm (f : Fields) : Except Reason Instr :=
  let imm := BitVec.ofNat 32 (f.imm)
  get (partOfCode (bf f.mod 0 2)) .reserved fun part =>
  decPar f ((bf f.mod 2 5 == 0 && f.aux == 0)) true tyAny .d2none ((part == .elem || (tyOfCode f.ty) == .none)) fun p =>
  .ok (.tgetImm p part imm)

/-- TSET, R148. -/
def decTset (f : Fields) : Except Reason Instr :=
  get (partOfCode (bf f.mod 0 2)) .reserved fun part =>
  decPar f ((bf f.mod 2 5 == 0 && f.aux == 0 && f.imm == 0)) false tyAny .any ((part == .elem || (tyOfCode f.ty) == .none)) fun p =>
  .ok (.tset p part)

/-- TSET_IMM, R148. -/
def decTsetImm (f : Fields) : Except Reason Instr :=
  let imm := BitVec.ofNat 32 (f.imm)
  get (partOfCode (bf f.mod 0 2)) .reserved fun part =>
  decPar f ((bf f.mod 2 5 == 0 && f.aux == 0)) false tyAny .any ((part == .elem || (tyOfCode f.ty) == .none)) fun p =>
  .ok (.tsetImm p part imm)

/-- VRUN_A, R163. -/
def decVrunA (f : Fields) : Except Reason Instr :=
  let cfg := BitVec.ofNat 4 (bf f.aux 0 4)
  decPar f ((bf f.mod 2 5 == 0 && bf f.aux 4 12 == 0 && f.imm == 0)) true tyNone .any (true) fun p =>
  .ok (.vrunA p cfg)

/-- VRUN_AB, R163. -/
def decVrunAb (f : Fields) : Except Reason Instr :=
  let cfg := BitVec.ofNat 4 (bf f.aux 0 4)
  decPar f ((bf f.mod 2 5 == 0 && bf f.aux 4 12 == 0 && f.imm == 0)) false tyNone .any (true) fun p =>
  .ok (.vrunAb p cfg)

/-- VRUN_AO, R163. -/
def decVrunAo (f : Fields) : Except Reason Instr :=
  let cfg := BitVec.ofNat 4 (bf f.aux 0 4)
  decPar f ((bf f.mod 2 5 == 0 && bf f.aux 4 12 == 0 && f.imm == 0)) false tyNone .any (true) fun p =>
  .ok (.vrunAo p cfg)

/-- VRUN_ABO, R163. -/
def decVrunAbo (f : Fields) : Except Reason Instr :=
  let cfg := BitVec.ofNat 4 (bf f.aux 0 4)
  decPar f ((bf f.mod 2 5 == 0 && bf f.aux 4 12 == 0 && f.imm == 0)) false tyNone .any (true) fun p =>
  .ok (.vrunAbo p cfg)

/-- VRUNS, R164. -/
def decVruns (f : Fields) : Except Reason Instr :=
  let cfg := BitVec.ofNat 4 (bf f.aux 0 4)
  decPar f ((f.mod == 0 && bf f.aux 4 12 == 0 && f.imm == 0)) true tyNone .any (true) fun p =>
  .ok (.vruns p cfg)

/-- VRUNS_2, R164. -/
def decVruns2 (f : Fields) : Except Reason Instr :=
  let cfg := BitVec.ofNat 4 (bf f.aux 0 4)
  decPar f ((f.mod == 0 && bf f.aux 4 12 == 0 && f.imm == 0)) false tyNone .any (true) fun p =>
  .ok (.vruns2 p cfg)

/-- VSTAT, R166. -/
def decVstat (f : Fields) : Except Reason Instr :=
  decPar f ((f.mod == 0 && f.aux == 0 && f.imm == 0)) true tyNone .d2none (true) fun p =>
  .ok (.vstat p)

/-- WLD, R183. DEDUCED (log 60). -/
def decWld (f : Fields) : Except Reason Instr :=
  let sx := BitVec.ofNat 4 (bf f.aux 12 4)
  let ws := BitVec.ofNat 2 (bf f.aux 0 2)
  let gen := BitVec.ofNat 16 (bf f.imm 0 16)
  get (compOfCode (bf f.mod 0 2)) .reserved fun comp =>
  need (f.zero == 0 && (bf f.mod 2 5 == 0 && bf f.aux 2 2 == 0 && bf f.aux 8 4 == 0 && bf f.imm 16 16 == 0) && ((tyOfCode f.ty) != .none || (bf f.aux 4 4 == 0 && sx == 0)) && (f.slot == 0)) .reserved <|
  get (geomOfCode (bf f.aux 4 4)) .type fun bg =>
  decPar f ((bf f.mod 2 5 == 0 && bf f.aux 2 2 == 0 && bf f.aux 8 4 == 0 && bf f.imm 16 16 == 0) && ((tyOfCode f.ty) != .none || (bf f.aux 4 4 == 0 && sx == 0))) true tyWld .any ((wldCmpOk (tyOfCode f.ty) bg comp) && ((tyOfCode f.ty) == .none || pairOk (tyOfCode f.ty) bg)) fun p =>
  .ok (.wld p comp sx bg ws gen)

/-- WFREE, R184. -/
def decWfree (f : Fields) : Except Reason Instr :=
  let ws := BitVec.ofNat 2 (bf f.aux 0 2)
  decPar f ((f.mod == 0 && bf f.aux 2 14 == 0 && f.imm == 0)) true tyNone .any (true) fun p =>
  .ok (.wfree p ws)

/-- MMA, R187. -/
def decMma (f : Fields) : Except Reason Instr :=
  let pan := bf f.mod 0 1 == 1
  let zacc := bf f.mod 1 1 == 1
  let acol := BitVec.ofNat 8 (bf f.aux 8 8)
  let ws := BitVec.ofNat 2 (bf f.aux 0 2)
  let arow := BitVec.ofNat 9 (bf f.imm 21 9)
  let koff := BitVec.ofNat 5 (bf f.imm 16 5)
  let hold := BitVec.ofNat 16 (bf f.imm 0 16)
  decPar f ((bf f.mod 2 5 == 0 && bf f.aux 2 6 == 0 && bf f.imm 30 2 == 0)) false tyNone .any (true) fun p =>
  .ok (.mma p pan zacc acol ws arow koff hold)

/-- MMAS, R190. -/
def decMmas (f : Fields) : Except Reason Instr :=
  let sat := bf f.mod 2 1 == 1
  let oty := tyOfCode (bf f.aux 4 4)
  let ws := BitVec.ofNat 2 (bf f.aux 0 2)
  get (modeOfCode (bf f.mod 0 2)) .reserved fun mode =>
  decPar f ((bf f.mod 3 4 == 0 && bf f.aux 2 2 == 0 && bf f.aux 8 8 == 0 && f.imm == 0)) false tyScale .any ((tyDrain.contains oty)) fun p =>
  .ok (.mmas p mode sat oty ws)

/-- MMAS_IMM, R190. -/
def decMmasImm (f : Fields) : Except Reason Instr :=
  let sat := bf f.mod 2 1 == 1
  let oty := tyOfCode (bf f.aux 4 4)
  let ws := BitVec.ofNat 2 (bf f.aux 0 2)
  let imm := BitVec.ofNat 32 (f.imm)
  get (modeOfCode (bf f.mod 0 2)) .reserved fun mode =>
  decPar f ((bf f.mod 3 4 == 0 && bf f.aux 2 2 == 0 && bf f.aux 8 8 == 0)) true tyScale .any ((tyDrain.contains oty)) fun p =>
  .ok (.mmasImm p mode sat oty ws imm)

/-- ADRAIN, R191. -/
def decAdrain (f : Fields) : Except Reason Instr :=
  let sat := bf f.mod 3 1 == 1
  let clr := bf f.mod 4 1 == 1
  let oty := tyOfCode (bf f.aux 0 4)
  get (modeOfCode (bf f.mod 1 2)) .reserved fun mode =>
  decPar f ((bf f.mod 5 2 == 0 && bf f.aux 4 12 == 0 && f.imm == 0)) false tyScale .d2none ((tyDrain.contains oty)) fun p =>
  .ok (.adrain p mode sat clr oty)

/-- ADRAIN_IMM, R191. -/
def decAdrainImm (f : Fields) : Except Reason Instr :=
  let sat := bf f.mod 3 1 == 1
  let clr := bf f.mod 4 1 == 1
  let oty := tyOfCode (bf f.aux 0 4)
  let imm := BitVec.ofNat 32 (f.imm)
  get (modeOfCode (bf f.mod 1 2)) .reserved fun mode =>
  decPar f ((bf f.mod 5 2 == 0 && bf f.aux 4 12 == 0)) true tyScale .d2none ((tyDrain.contains oty)) fun p =>
  .ok (.adrainImm p mode sat clr oty imm)

/-- ADRAIN_STEER, R191. -/
def decAdrainSteer (f : Fields) : Except Reason Instr :=
  let sat := bf f.mod 3 1 == 1
  let clr := bf f.mod 4 1 == 1
  let tbl := BitVec.ofNat 6 (bf f.aux 4 6)
  let oty := tyOfCode (bf f.aux 0 4)
  get (modeOfCode (bf f.mod 1 2)) .reserved fun mode =>
  decPar f ((bf f.mod 5 2 == 0 && bf f.aux 10 6 == 0 && f.imm == 0)) false tyScale .d2none ((tyDrain.contains oty)) fun p =>
  .ok (.adrainSteer p mode sat clr tbl oty)

/-- ADRAIN_STEER_IMM, R191. -/
def decAdrainSteerImm (f : Fields) : Except Reason Instr :=
  let sat := bf f.mod 3 1 == 1
  let clr := bf f.mod 4 1 == 1
  let tbl := BitVec.ofNat 6 (bf f.aux 4 6)
  let oty := tyOfCode (bf f.aux 0 4)
  let imm := BitVec.ofNat 32 (f.imm)
  get (modeOfCode (bf f.mod 1 2)) .reserved fun mode =>
  decPar f ((bf f.mod 5 2 == 0 && bf f.aux 10 6 == 0)) false tyScale .d2none ((tyDrain.contains oty)) fun p =>
  .ok (.adrainSteerImm p mode sat clr tbl oty imm)

/-- ACLR, R192. -/
def decAclr (f : Fields) : Except Reason Instr :=
  decPar f ((f.mod == 0 && f.aux == 0 && f.imm == 0)) true tyNone .any (true) fun p =>
  .ok (.aclr p)

/-- WINFO, R186. -/
def decWinfo (f : Fields) : Except Reason Instr :=
  let ws := BitVec.ofNat 2 (bf f.aux 0 2)
  decPar f ((f.mod == 0 && bf f.aux 2 14 == 0 && f.imm == 0)) true tyNone .any (true) fun p =>
  .ok (.winfo p ws)

/-- MSTAT, R196. -/
def decMstat (f : Fields) : Except Reason Instr :=
  let what := BitVec.ofNat 4 (bf f.mod 0 4)
  let clr := bf f.mod 4 1 == 1
  decPar f ((bf f.mod 5 2 == 0 && f.aux == 0 && f.imm == 0) && (decide (what.toNat ≤ 8))) true tyNone .d2none (true) fun p =>
  .ok (.mstat p what clr)

/-- LD, R208. -/
def decLd (f : Fields) : Except Reason Instr :=
  decPar f ((f.mod == 0 && f.aux == 0 && f.imm == 0)) true tyLd .any (true) fun p =>
  .ok (.ld p)

/-- ST, R208. -/
def decSt (f : Fields) : Except Reason Instr :=
  decPar f ((f.mod == 0 && f.aux == 0 && f.imm == 0)) false tyLd .any (true) fun p =>
  .ok (.st p)

/-- ST_IMM, R208. -/
def decStImm (f : Fields) : Except Reason Instr :=
  let imm := BitVec.ofNat 32 (f.imm)
  decPar f ((f.mod == 0 && f.aux == 0)) true tyLd .any (true) fun p =>
  .ok (.stImm p imm)

/-- LDT, R209. -/
def decLdt (f : Fields) : Except Reason Instr :=
  need (!(decide (1 ≤ bf f.mod 0 4) && decide (bf f.mod 0 4 ≤ 4))) .arity <|
  let pitch := BitVec.ofNat 16 (f.aux)
  let rows := BitVec.ofNat 13 (bf f.imm 0 13)
  let cols := BitVec.ofNat 13 (bf f.imm 13 13)
  need (f.zero == 0 && (bf f.mod 4 3 == 0 && bf f.imm 26 6 == 0) && (dimOk rows && dimOk cols) && ((tyOfCode f.ty) != .none || bf f.mod 0 4 == 0) && (f.slot == 0)) .reserved <|
  get (geomOfCode (bf f.mod 0 4)) .type fun bg =>
  decPar f ((bf f.mod 4 3 == 0 && bf f.imm 26 6 == 0) && (dimOk rows && dimOk cols) && ((tyOfCode f.ty) != .none || bf f.mod 0 4 == 0)) true tyAny .any (((tyOfCode f.ty) == .none || pairOk (tyOfCode f.ty) bg)) fun p =>
  .ok (.ldt p bg pitch rows cols)

/-- LDT_SCALED, R209. -/
def decLdtScaled (f : Fields) : Except Reason Instr :=
  need (bf f.mod 0 4 != 0) .arity <|
  let pitch := BitVec.ofNat 16 (f.aux)
  let rows := BitVec.ofNat 13 (bf f.imm 0 13)
  let cols := BitVec.ofNat 13 (bf f.imm 13 13)
  need (f.zero == 0 && (bf f.mod 4 3 == 0 && bf f.imm 26 6 == 0) && (dimOk rows && dimOk cols) && ((tyOfCode f.ty) != .none || bf f.mod 0 4 == 0) && (true)) .reserved <|
  get (geomOfCode (bf f.mod 0 4)) .type fun bg =>
  decPar f ((bf f.mod 4 3 == 0 && bf f.imm 26 6 == 0) && (dimOk rows && dimOk cols) && ((tyOfCode f.ty) != .none || bf f.mod 0 4 == 0)) false tyAny .any (((tyOfCode f.ty) == .none || pairOk (tyOfCode f.ty) bg)) fun p =>
  .ok (.ldtScaled p bg pitch rows cols)

/-- STT, R210. -/
def decStt (f : Fields) : Except Reason Instr :=
  let pitch := BitVec.ofNat 16 (f.aux)
  decPar f ((f.mod == 0 && f.imm == 0)) false tyNone .any (true) fun p =>
  .ok (.stt p pitch)

/-- STT_SCALED, R210. -/
def decSttScaled (f : Fields) : Except Reason Instr :=
  let pitch := BitVec.ofNat 16 (f.aux)
  decPar f ((f.mod == 0 && f.imm == 0)) false tyNone .any (true) fun p =>
  .ok (.sttScaled p pitch)

/-- COPY, R213. -/
def decCopy (f : Fields) : Except Reason Instr :=
  let scl := bf f.mod 0 1 == 1
  let recd := BitVec.ofNat 10 (bf f.aux 0 10)
  decPar f ((bf f.mod 1 6 == 0 && bf f.aux 10 6 == 0 && f.imm == 0)) true tyAny .any (true) fun p =>
  .ok (.copy p scl recd)

/-- COPY_ADDR, R213. -/
def decCopyAddr (f : Fields) : Except Reason Instr :=
  let scl := bf f.mod 0 1 == 1
  let recd := BitVec.ofNat 10 (bf f.aux 0 10)
  decPar f ((bf f.mod 1 6 == 0 && bf f.aux 10 6 == 0 && f.imm == 0)) false tyAny .any (true) fun p =>
  .ok (.copyAddr p scl recd)

/-- GATH, R214. -/
def decGath (f : Fields) : Except Reason Instr :=
  let recd := BitVec.ofNat 10 (bf f.aux 0 10)
  decPar f ((f.mod == 0 && bf f.aux 10 6 == 0 && f.imm == 0)) false tyNone .any (true) fun p =>
  .ok (.gath p recd)

/-- SCAT, R214. -/
def decScat (f : Fields) : Except Reason Instr :=
  let recd := BitVec.ofNat 10 (bf f.aux 0 10)
  decPar f ((f.mod == 0 && bf f.aux 10 6 == 0 && f.imm == 0)) false tyNone .any (true) fun p =>
  .ok (.scat p recd)

/-- CRED, R215. -/
def decCred (f : Fields) : Except Reason Instr :=
  let recd := BitVec.ofNat 10 (bf f.aux 0 10)
  get (redOpOfCode (bf f.mod 0 2)) .reserved fun rop =>
  decPar f ((bf f.mod 2 5 == 0 && bf f.aux 10 6 == 0 && f.imm == 0)) false tyRed .any (true) fun p =>
  .ok (.cred p rop recd)

/-- DRAIN, R217. -/
def decDrain (f : Fields) : Except Reason Instr :=
  let path := BitVec.ofNat 3 (bf f.aux 0 3)
  decPar f ((f.mod == 0 && bf f.aux 3 13 == 0 && f.imm == 0)) true tyNone .any (true) fun p =>
  .ok (.drain p path)

/-- PFH, R218. -/
def decPfh (f : Fields) : Except Reason Instr :=
  let count := BitVec.ofNat 16 (f.aux)
  decPar f ((f.mod == 0 && f.imm == 0)) true tyNone .any (true) fun p =>
  .ok (.pfh p count)

/-- AOP, R220. -/
def decAop (f : Fields) : Except Reason Instr :=
  let rtry := bf f.mod 4 1 == 1
  get (atomOpOfCode (bf f.mod 0 3)) .reserved fun op =>
  decPar f ((bf f.mod 3 1 == 0 && bf f.mod 5 2 == 0 && f.aux == 0 && f.imm == 0)) false tyAtom .any ((!(tyFlt.contains (tyOfCode f.ty)) || !(op.bitwise))) fun p =>
  .ok (.aop p op rtry)

/-- AOP_IMM, R220. -/
def decAopImm (f : Fields) : Except Reason Instr :=
  let rtry := bf f.mod 4 1 == 1
  let imm := BitVec.ofNat 32 (f.imm)
  get (atomOpOfCode (bf f.mod 0 3)) .reserved fun op =>
  decPar f ((bf f.mod 3 1 == 0 && bf f.mod 5 2 == 0 && f.aux == 0)) true tyAtom .any ((!(tyFlt.contains (tyOfCode f.ty)) || !(op.bitwise))) fun p =>
  .ok (.aopImm p op rtry imm)

/-- ACAS, R220. -/
def decAcas (f : Fields) : Except Reason Instr :=
  let rtry := bf f.mod 4 1 == 1
  decPar f ((bf f.mod 0 4 == 0 && bf f.mod 5 2 == 0 && f.aux == 0 && f.imm == 0)) false tyCas .any (true) fun p =>
  .ok (.acas p rtry)

/-- ACAS_IMM, R220. -/
def decAcasImm (f : Fields) : Except Reason Instr :=
  let rtry := bf f.mod 4 1 == 1
  let imm := BitVec.ofNat 32 (f.imm)
  decPar f ((bf f.mod 0 4 == 0 && bf f.mod 5 2 == 0 && f.aux == 0)) false tyCas .any (true) fun p =>
  .ok (.acasImm p rtry imm)

/-- BUPD, R221. -/
def decBupd (f : Fields) : Except Reason Instr :=
  let pitch := BitVec.ofNat 16 (f.aux)
  get (redOpOfCode (bf f.mod 0 2)) .reserved fun rop =>
  decPar f ((bf f.mod 2 5 == 0 && f.imm == 0)) false tyRed .any (true) fun p =>
  .ok (.bupd p rop pitch)

/-- BAXPY, R221. -/
def decBaxpy (f : Fields) : Except Reason Instr :=
  let pitch := BitVec.ofNat 16 (f.aux)
  decPar f ((f.mod == 0 && f.imm == 0)) false tyFlt .any (true) fun p =>
  .ok (.baxpy p pitch)

/-- BAXPY_IMM, R221. -/
def decBaxpyImm (f : Fields) : Except Reason Instr :=
  let pitch := BitVec.ofNat 16 (f.aux)
  let imm := BitVec.ofNat 32 (f.imm)
  decPar f ((f.mod == 0)) false tyFlt .any (true) fun p =>
  .ok (.baxpyImm p pitch imm)

/-- BARA, R222. -/
def decBara (f : Fields) : Except Reason Instr :=
  let rtry := bf f.mod 4 1 == 1
  decPar f ((bf f.mod 0 4 == 0 && bf f.mod 5 2 == 0 && f.aux == 0 && f.imm == 0)) true tyNone .any (true) fun p =>
  .ok (.bara p rtry)

/-- BARA_STATUS, R222. -/
def decBaraStatus (f : Fields) : Except Reason Instr :=
  let rtry := bf f.mod 4 1 == 1
  decPar f ((bf f.mod 0 4 == 0 && bf f.mod 5 2 == 0 && f.aux == 0 && f.imm == 0)) false tyNone .any (true) fun p =>
  .ok (.baraStatus p rtry)

/-- BARA_IMM, R222. -/
def decBaraImm (f : Fields) : Except Reason Instr :=
  let rtry := bf f.mod 4 1 == 1
  let imm := BitVec.ofNat 32 (f.imm)
  decPar f ((bf f.mod 0 4 == 0 && bf f.mod 5 2 == 0 && f.aux == 0)) true tyNone .any (true) fun p =>
  .ok (.baraImm p rtry imm)

/-- BARW, R222. -/
def decBarw (f : Fields) : Except Reason Instr :=
  decPar f ((f.mod == 0 && f.aux == 0 && f.imm == 0)) false tyNone .any (true) fun p =>
  .ok (.barw p)

/-- BARW_IMM, R222. -/
def decBarwImm (f : Fields) : Except Reason Instr :=
  let imm := BitVec.ofNat 32 (f.imm)
  decPar f ((f.mod == 0 && f.aux == 0)) true tyNone .any (true) fun p =>
  .ok (.barwImm p imm)

/-- ACQ, R223. -/
def decAcq (f : Fields) : Except Reason Instr :=
  let sh := bf f.mod 0 1 == 1
  let rtry := bf f.mod 4 1 == 1
  get (scopeOfCode (bf f.aux 0 2)) .reserved fun scope =>
  decPar f ((bf f.mod 1 3 == 0 && bf f.mod 5 2 == 0 && bf f.aux 2 14 == 0 && f.imm == 0)) true tyNone .any (true) fun p =>
  .ok (.acq p sh rtry scope)

/-- REL, R223. -/
def decRel (f : Fields) : Except Reason Instr :=
  let sh := bf f.mod 0 1 == 1
  let rtry := bf f.mod 4 1 == 1
  get (scopeOfCode (bf f.aux 0 2)) .reserved fun scope =>
  decPar f ((bf f.mod 1 3 == 0 && bf f.mod 5 2 == 0 && bf f.aux 2 14 == 0 && f.imm == 0)) true tyNone .any (true) fun p =>
  .ok (.rel p sh rtry scope)

/-- PCLM, R225. -/
def decPclm (f : Fields) : Except Reason Instr :=
  let pipe := BitVec.ofNat 4 (bf f.aux 0 4)
  decPar f ((f.mod == 0 && bf f.aux 4 12 == 0 && f.imm == 0)) false tyNone .any (true) fun p =>
  .ok (.pclm p pipe)

/-- PCLM_IMM, R225. -/
def decPclmImm (f : Fields) : Except Reason Instr :=
  let pipe := BitVec.ofNat 4 (bf f.aux 0 4)
  let imm := BitVec.ofNat 32 (f.imm)
  decPar f ((f.mod == 0 && bf f.aux 4 12 == 0)) true tyNone .any (true) fun p =>
  .ok (.pclmImm p pipe imm)

/-- PCMT, R225. -/
def decPcmt (f : Fields) : Except Reason Instr :=
  let pipe := BitVec.ofNat 4 (bf f.aux 0 4)
  decPar f ((f.mod == 0 && bf f.aux 4 12 == 0 && f.imm == 0)) false tyNone .any (true) fun p =>
  .ok (.pcmt p pipe)

/-- PCMT_IMM, R225. -/
def decPcmtImm (f : Fields) : Except Reason Instr :=
  let pipe := BitVec.ofNat 4 (bf f.aux 0 4)
  let imm := BitVec.ofNat 32 (f.imm)
  decPar f ((f.mod == 0 && bf f.aux 4 12 == 0)) true tyNone .any (true) fun p =>
  .ok (.pcmtImm p pipe imm)

/-- PAWT, R225. -/
def decPawt (f : Fields) : Except Reason Instr :=
  let pipe := BitVec.ofNat 4 (bf f.aux 0 4)
  decPar f ((f.mod == 0 && bf f.aux 4 12 == 0 && f.imm == 0)) false tyNone .any (true) fun p =>
  .ok (.pawt p pipe)

/-- PAWT_IMM, R225. -/
def decPawtImm (f : Fields) : Except Reason Instr :=
  let pipe := BitVec.ofNat 4 (bf f.aux 0 4)
  let imm := BitVec.ofNat 32 (f.imm)
  decPar f ((f.mod == 0 && bf f.aux 4 12 == 0)) true tyNone .any (true) fun p =>
  .ok (.pawtImm p pipe imm)

/-- PRET, R225. -/
def decPret (f : Fields) : Except Reason Instr :=
  let pipe := BitVec.ofNat 4 (bf f.aux 0 4)
  decPar f ((f.mod == 0 && bf f.aux 4 12 == 0 && f.imm == 0)) false tyNone .any (true) fun p =>
  .ok (.pret p pipe)

/-- PRET_IMM, R225. -/
def decPretImm (f : Fields) : Except Reason Instr :=
  let pipe := BitVec.ofNat 4 (bf f.aux 0 4)
  let imm := BitVec.ofNat 32 (f.imm)
  decPar f ((f.mod == 0 && bf f.aux 4 12 == 0)) true tyNone .any (true) fun p =>
  .ok (.pretImm p pipe imm)

/-- PINFO, R225. -/
def decPinfo (f : Fields) : Except Reason Instr :=
  let pipe := BitVec.ofNat 4 (bf f.aux 0 4)
  decPar f ((f.mod == 0 && bf f.aux 4 12 == 0 && f.imm == 0)) true tyNone .any (true) fun p =>
  .ok (.pinfo p pipe)

/-- QPUT, R227. -/
def decQput (f : Fields) : Except Reason Instr :=
  let queue := BitVec.ofNat 6 (bf f.aux 0 6)
  decPar f ((f.mod == 0 && bf f.aux 6 10 == 0 && f.imm == 0)) true tyNone .any (true) fun p =>
  .ok (.qput p queue)

/-- QPUT_ARGS, R227. -/
def decQputArgs (f : Fields) : Except Reason Instr :=
  let queue := BitVec.ofNat 6 (bf f.aux 0 6)
  decPar f ((f.mod == 0 && bf f.aux 6 10 == 0 && f.imm == 0)) false tyNone .any (true) fun p =>
  .ok (.qputArgs p queue)

/-- QWAIT, R228. -/
def decQwait (f : Fields) : Except Reason Instr :=
  decPar f ((f.mod == 0 && f.aux == 0 && f.imm == 0)) true tyNone .any (true) fun p =>
  .ok (.qwait p)

/-- CLOAD, R229. -/
def decCload (f : Fields) : Except Reason Instr :=
  let cs := BitVec.ofNat 2 (bf f.aux 0 2)
  decPar f ((f.mod == 0 && bf f.aux 2 14 == 0 && f.imm == 0)) true tyNone .any (true) fun p =>
  .ok (.cload p cs)

/-- CSEL, R230. -/
def decCsel (f : Fields) : Except Reason Instr :=
  decPar f ((f.mod == 0 && f.aux == 0 && f.imm == 0)) true tyNone .any (true) fun p =>
  .ok (.csel p)

/-- CSWT, R231. -/
def decCswt (f : Fields) : Except Reason Instr :=
  let cs := BitVec.ofNat 2 (bf f.aux 0 2)
  decPar f ((f.mod == 0 && bf f.aux 2 14 == 0 && f.imm == 0)) true tyNone .any (true) fun p =>
  .ok (.cswt p cs)

/-- CFREE, R232. -/
def decCfree (f : Fields) : Except Reason Instr :=
  let cs := BitVec.ofNat 2 (bf f.aux 0 2)
  decPar f ((f.mod == 0 && bf f.aux 2 14 == 0 && f.imm == 0)) true tyNone .any (true) fun p =>
  .ok (.cfree p cs)

/-- TRAP, R235. -/
def decTrap (f : Fields) : Except Reason Instr :=
  let code := BitVec.ofNat 16 (bf f.imm 0 16)
  decPar f ((f.mod == 0 && f.aux == 0 && bf f.imm 16 16 == 0)) true tyNone .any (true) fun p =>
  .ok (.trap p code)

/-- TRET, R356. -/
def decTret (f : Fields) : Except Reason Instr :=
  decPar f ((f.mod == 0 && f.aux == 0 && f.imm == 0)) true tyNone .noDest (true) fun p =>
  .ok (.tret p)

/-- GETC, R236. -/
def decGetc (f : Fields) : Except Reason Instr :=
  let idx := BitVec.ofNat 12 (bf f.aux 0 12)
  decPar f ((f.mod == 0 && bf f.aux 12 4 == 0 && f.imm == 0) && (regAssigned idx.toNat)) true tyNone .any (true) fun p =>
  .ok (.getc p idx)

/-- SETC, R236. -/
def decSetc (f : Fields) : Except Reason Instr :=
  let idx := BitVec.ofNat 12 (bf f.aux 0 12)
  decPar f ((f.mod == 0 && bf f.aux 12 4 == 0 && f.imm == 0) && (regWritable idx.toNat && setcPlain idx.toNat)) true tyNone .any (true) fun p =>
  .ok (.setc p idx)

/-- SETC_FPFLAGS, R77. -/
def decSetcFpflags (f : Fields) : Except Reason Instr :=
  decPar f ((f.mod == 0 && bf f.aux 12 4 == 0 && f.imm == 0)) true tyNone .any (true) fun p =>
  .ok (.setcFpflags p)

/-- SETC_WATCH, R374. -/
def decSetcWatch (f : Fields) : Except Reason Instr :=
  let idx := BitVec.ofNat 12 (bf f.aux 0 12)
  decPar f ((f.mod == 0 && bf f.aux 12 4 == 0 && f.imm == 0) && (regIsWatch idx.toNat)) true tyNone .any (true) fun p =>
  .ok (.setcWatch p idx)

/-- SETC_TIMER_CMP, R356. -/
def decSetcTimerCmp (f : Fields) : Except Reason Instr :=
  decPar f ((f.mod == 0 && bf f.aux 12 4 == 0 && f.imm == 0)) true tyNone .any (true) fun p =>
  .ok (.setcTimerCmp p)

/-- SETC_RAS_INJECT, R238. -/
def decSetcRasInject (f : Fields) : Except Reason Instr :=
  decPar f ((f.mod == 0 && bf f.aux 12 4 == 0 && f.imm == 0)) true tyNone .any (true) fun p =>
  .ok (.setcRasInject p)

/-- TIME, R239. -/
def decTime (f : Fields) : Except Reason Instr :=
  decPar f ((f.mod == 0 && f.aux == 0 && f.imm == 0)) true tyNone .any (true) fun p =>
  .ok (.time p)

/-- TRACE, R239. -/
def decTrace (f : Fields) : Except Reason Instr :=
  let tag := BitVec.ofNat 16 (f.aux)
  decPar f ((f.mod == 0 && f.imm == 0)) true tyNone .any (true) fun p =>
  .ok (.trace p tag)

/-- TRACE_2, R239. -/
def decTrace2 (f : Fields) : Except Reason Instr :=
  let tag := BitVec.ofNat 16 (f.aux)
  decPar f ((f.mod == 0 && f.imm == 0)) false tyNone .any (true) fun p =>
  .ok (.trace2 p tag)

/-- PERF, R239. -/
def decPerf (f : Fields) : Except Reason Instr :=
  let ctr := BitVec.ofNat 8 (bf f.aux 0 8)
  decPar f ((f.mod == 0 && bf f.aux 8 8 == 0 && f.imm == 0) && (decide (ctr.toNat ≤ 14))) true tyNone .any (true) fun p =>
  .ok (.perf p ctr)

/-- IFRD, R240. -/
def decIfrd (f : Fields) : Except Reason Instr :=
  decPar f ((f.mod == 0 && f.aux == 0 && f.imm == 0)) true tyNone .any (true) fun p =>
  .ok (.ifrd p)

/-- SBIND, R241. -/
def decSbind (f : Fields) : Except Reason Instr :=
  let len := BitVec.ofNat 16 (f.aux)
  decPar f ((f.mod == 0 && f.imm == 0)) false tyNone .any (true) fun p =>
  .ok (.sbind p len)

/-- XTSET, R241. -/
def decXtset (f : Fields) : Except Reason Instr :=
  decPar f ((f.mod == 0 && f.aux == 0 && f.imm == 0)) false tyNone .any (true) fun p =>
  .ok (.xtset p)

/-- The opcode map, class 0 (R38 to R43). -/
def decClass0 (f : Fields) : Except Reason Instr :=
  match f.opc % 64 with
  | 1 => need (f.ar == 1 && f.immr == 0) .arity (decPass f)
  | 2 => need (f.ar == 1 && f.immr == 0) .arity (decConst f)
  | 3 => if f.ar == 2 && f.immr == 0 then decSteer f else if f.ar == 1 && f.immr == 1 then decSteerImm f else .error .arity
  | 4 => if f.ar == 2 && f.immr == 0 then decGate f else if f.ar == 1 && f.immr == 1 then decGateImm f else .error .arity
  | 5 => if f.ar == 2 && f.immr == 0 then decDisp f else if f.ar == 1 && f.immr == 1 then decDispImm f else .error .arity
  | 6 => if f.ar == 2 && f.immr == 0 then decJoin f else if f.ar == 3 && f.immr == 0 then decJoin3 f else if f.ar == 1 && f.immr == 1 then decJoinImm f else if f.ar == 2 && f.immr == 1 then decJoin3Imm f else .error .arity
  | 7 => need (f.ar == 2 && f.immr == 0) .arity (decCntn f)
  | 8 => if f.ar == 1 && f.immr == 0 then decFnew f else if f.ar == 2 && f.immr == 0 then decFnewNamed f else if f.ar == 1 && f.immr == 1 then decFnewNamedImm f else .error .arity
  | 9 => need (f.ar == 2 && f.immr == 0) .arity (decSendf f)
  | 10 => need (f.ar == 1 && f.immr == 0) .arity (decMkcont f)
  | 11 => if f.ar == 1 && f.immr == 0 then decIter f else if f.ar == 2 && f.immr == 0 then decIter2 f else if f.ar == 1 && f.immr == 1 then decIter2Imm f else .error .arity
  | 12 => need (f.ar == 1 && f.immr == 0) .arity (decExit f)
  | 13 => need (f.ar == 1 && f.immr == 0) .arity (decFset f)
  | 14 => need (f.ar == 1 && f.immr == 0) .arity (decFget f)
  | 15 => need (f.ar == 1 && f.immr == 0) .arity (decIseos f)
  | 16 => need (f.ar == 1 && f.immr == 0) .arity (decMkeos f)
  | 17 => if f.ar == 2 && f.immr == 0 then decSend f else if f.ar == 1 && f.immr == 1 then decSendImm f else .error .arity
  | 18 => need (f.ar == 1 && f.immr == 0) .arity (decPhopen f)
  | 19 => need (f.ar == 1 && f.immr == 0) .arity (decPhclose f)
  | 20 => need (f.ar == 1 && f.immr == 0) .arity (decSelf f)
  | 21 => need (f.ar == 1 && f.immr == 0) .arity (decLevel f)
  | _ => .error .opcUnassigned

/-- The opcode map, class 1 (R38 to R43). -/
def decClass1 (f : Fields) : Except Reason Instr :=
  match f.opc % 64 with
  | 0 => if f.ar == 2 && f.immr == 0 then decAdd f else if f.ar == 1 && f.immr == 1 then decAddImm f else .error .arity
  | 1 => if f.ar == 2 && f.immr == 0 then decSub f else if f.ar == 1 && f.immr == 1 then decSubImm f else .error .arity
  | 2 => if f.ar == 2 && f.immr == 0 then decMul f else if f.ar == 1 && f.immr == 1 then decMulImm f else .error .arity
  | 3 => if f.ar == 2 && f.immr == 0 then decMulh f else if f.ar == 1 && f.immr == 1 then decMulhImm f else .error .arity
  | 4 => if f.ar == 2 && f.immr == 0 then decDiv f else if f.ar == 1 && f.immr == 1 then decDivImm f else .error .arity
  | 5 => if f.ar == 2 && f.immr == 0 then decRem f else if f.ar == 1 && f.immr == 1 then decRemImm f else .error .arity
  | 6 => if f.ar == 2 && f.immr == 0 then decAnd f else if f.ar == 1 && f.immr == 1 then decAndImm f else .error .arity
  | 7 => if f.ar == 2 && f.immr == 0 then decOr f else if f.ar == 1 && f.immr == 1 then decOrImm f else .error .arity
  | 8 => if f.ar == 2 && f.immr == 0 then decXor f else if f.ar == 1 && f.immr == 1 then decXorImm f else .error .arity
  | 9 => if f.ar == 2 && f.immr == 0 then decAndn f else if f.ar == 1 && f.immr == 1 then decAndnImm f else .error .arity
  | 10 => if f.ar == 2 && f.immr == 0 then decShl f else if f.ar == 1 && f.immr == 1 then decShlImm f else .error .arity
  | 11 => if f.ar == 2 && f.immr == 0 then decShr f else if f.ar == 1 && f.immr == 1 then decShrImm f else .error .arity
  | 12 => if f.ar == 2 && f.immr == 0 then decSar f else if f.ar == 1 && f.immr == 1 then decSarImm f else .error .arity
  | 13 => if f.ar == 2 && f.immr == 0 then decRol f else if f.ar == 1 && f.immr == 1 then decRolImm f else .error .arity
  | 14 => if f.ar == 2 && f.immr == 0 then decMin f else if f.ar == 1 && f.immr == 1 then decMinImm f else .error .arity
  | 15 => if f.ar == 2 && f.immr == 0 then decMax f else if f.ar == 1 && f.immr == 1 then decMaxImm f else .error .arity
  | 16 => need (f.ar == 1 && f.immr == 0) .arity (decAbs f)
  | 17 => need (f.ar == 1 && f.immr == 0) .arity (decNeg f)
  | 18 => need (f.ar == 1 && f.immr == 0) .arity (decClz f)
  | 19 => need (f.ar == 1 && f.immr == 0) .arity (decCtz f)
  | 20 => need (f.ar == 1 && f.immr == 0) .arity (decPopc f)
  | 21 => if f.ar == 2 && f.immr == 0 then decCmp f else if f.ar == 1 && f.immr == 1 then decCmpImm f else .error .arity
  | 22 => if f.ar == 3 && f.immr == 0 then decSel f else if f.ar == 2 && f.immr == 1 then decSelImm f else .error .arity
  | 23 => if f.ar == 2 && f.immr == 0 then decExt f else if f.ar == 1 && f.immr == 1 then decExtImm f else .error .arity
  | 24 => if f.ar == 3 && f.immr == 0 then decIns f else if f.ar == 2 && f.immr == 1 then decInsImm f else .error .arity
  | 25 => if f.ar == 3 && f.immr == 0 then decMad f else if f.ar == 2 && f.immr == 1 then decMadImm f else .error .arity
  | 26 => if f.ar == 2 && f.immr == 0 then decAdds f else if f.ar == 1 && f.immr == 1 then decAddsImm f else .error .arity
  | 27 => if f.ar == 2 && f.immr == 0 then decSubs f else if f.ar == 1 && f.immr == 1 then decSubsImm f else .error .arity
  | _ => .error .opcUnassigned

/-- The opcode map, class 2 (R38 to R43). -/
def decClass2 (f : Fields) : Except Reason Instr :=
  match f.opc % 64 with
  | 0 => if f.ar == 2 && f.immr == 0 then decFadd f else if f.ar == 1 && f.immr == 1 then decFaddImm f else .error .arity
  | 1 => if f.ar == 2 && f.immr == 0 then decFsub f else if f.ar == 1 && f.immr == 1 then decFsubImm f else .error .arity
  | 2 => if f.ar == 2 && f.immr == 0 then decFmul f else if f.ar == 1 && f.immr == 1 then decFmulImm f else .error .arity
  | 3 => if f.ar == 3 && f.immr == 0 then decFfma f else if f.ar == 2 && f.immr == 1 then decFfmaImm f else .error .arity
  | 4 => if f.ar == 2 && f.immr == 0 then decFdiv f else if f.ar == 1 && f.immr == 1 then decFdivImm f else .error .arity
  | 5 => need (f.ar == 1 && f.immr == 0) .arity (decFsqrt f)
  | 6 => need (f.ar == 1 && f.immr == 0) .arity (decFrcp f)
  | 7 => need (f.ar == 1 && f.immr == 0) .arity (decFrsq f)
  | 8 => if f.ar == 2 && f.immr == 0 then decFmin f else if f.ar == 1 && f.immr == 1 then decFminImm f else .error .arity
  | 9 => if f.ar == 2 && f.immr == 0 then decFmax f else if f.ar == 1 && f.immr == 1 then decFmaxImm f else .error .arity
  | 10 => need (f.ar == 1 && f.immr == 0) .arity (decFabs f)
  | 11 => need (f.ar == 1 && f.immr == 0) .arity (decFneg f)
  | 12 => if f.ar == 2 && f.immr == 0 then decFcmp f else if f.ar == 1 && f.immr == 1 then decFcmpImm f else .error .arity
  | 13 => need (f.ar == 1 && f.immr == 0) .arity (decFclass f)
  | 14 => need (f.ar == 1 && f.immr == 0) .arity (decFcvt f)
  | 15 => need (f.ar == 1 && f.immr == 0) .arity (decFtoi f)
  | 16 => need (f.ar == 1 && f.immr == 0) .arity (decItof f)
  | 17 => need (f.ar == 1 && f.immr == 0) .arity (decFrnd f)
  | 18 => if f.ar == 2 && f.immr == 0 then decFldx f else if f.ar == 1 && f.immr == 1 then decFldxImm f else .error .arity
  | 19 => need (f.ar == 1 && f.immr == 0) .arity (decFgetx f)
  | 20 => need (f.ar == 1 && f.immr == 0) .arity (decFexp2f f)
  | _ => .error .opcUnassigned

/-- The opcode map, class 3 (R38 to R43). -/
def decClass3 (f : Fields) : Except Reason Instr :=
  match f.opc % 64 with
  | 0 => need (f.ar == 1 && f.immr == 0) .arity (decTalloc f)
  | 1 => need (f.ar == 1 && f.immr == 0) .arity (decTref f)
  | 2 => need (f.ar == 1 && f.immr == 0) .arity (decTdrop f)
  | 3 => if f.ar == 2 && f.immr == 0 then decTview f else if f.ar == 1 && f.immr == 1 then decTviewImm f else .error .arity
  | 4 => need (f.ar == 1 && f.immr == 0) .arity (decTinfo f)
  | 5 => if f.ar == 2 && f.immr == 0 then decTfill f else if f.ar == 1 && f.immr == 1 then decTfillImm f else .error .arity
  | 6 => if f.ar == 1 && f.immr == 0 then decTcopy f else if f.ar == 2 && f.immr == 0 then decTcopyInto f else .error .arity
  | 7 => need (f.ar == 1 && f.immr == 0) .arity (decTtran f)
  | 8 => if f.ar == 2 && f.immr == 0 then decTget f else if f.ar == 1 && f.immr == 1 then decTgetImm f else .error .arity
  | 9 => if f.ar == 3 && f.immr == 0 then decTset f else if f.ar == 2 && f.immr == 1 then decTsetImm f else .error .arity
  | 10 => if f.ar == 1 && f.immr == 0 && bf f.mod 0 2 == 0 then decVrunA f else if f.ar == 2 && f.immr == 0 && bf f.mod 0 2 == 1 then decVrunAb f else if f.ar == 2 && f.immr == 0 && bf f.mod 0 2 == 2 then decVrunAo f else if f.ar == 3 && f.immr == 0 && bf f.mod 0 2 == 3 then decVrunAbo f else .error .arity
  | 11 => if f.ar == 1 && f.immr == 0 then decVruns f else if f.ar == 2 && f.immr == 0 then decVruns2 f else .error .arity
  | 12 => need (f.ar == 1 && f.immr == 0) .arity (decVstat f)
  | _ => .error .opcUnassigned

/-- The opcode map, class 4 (R38 to R43). -/
def decClass4 (f : Fields) : Except Reason Instr :=
  match f.opc % 64 with
  | 0 => need (f.ar == 1 && f.immr == 0) .arity (decWld f)
  | 1 => need (f.ar == 1 && f.immr == 0) .arity (decWfree f)
  | 2 => need (f.ar == 2 && f.immr == 0) .arity (decMma f)
  | 3 => if f.ar == 2 && f.immr == 0 then decMmas f else if f.ar == 1 && f.immr == 1 then decMmasImm f else .error .arity
  | 4 => if f.ar == 2 && f.immr == 0 && bf f.mod 0 1 == 0 then decAdrain f else if f.ar == 1 && f.immr == 1 && bf f.mod 0 1 == 0 then decAdrainImm f else if f.ar == 3 && f.immr == 0 && bf f.mod 0 1 == 1 then decAdrainSteer f else if f.ar == 2 && f.immr == 1 && bf f.mod 0 1 == 1 then decAdrainSteerImm f else .error .arity
  | 5 => need (f.ar == 1 && f.immr == 0) .arity (decAclr f)
  | 6 => need (f.ar == 1 && f.immr == 0) .arity (decWinfo f)
  | 7 => need (f.ar == 1 && f.immr == 0) .arity (decMstat f)
  | _ => .error .opcUnassigned

/-- The opcode map, class 5 (R38 to R43). -/
def decClass5 (f : Fields) : Except Reason Instr :=
  match f.opc % 64 with
  | 0 => need (f.ar == 1 && f.immr == 0) .arity (decLd f)
  | 1 => if f.ar == 2 && f.immr == 0 then decSt f else if f.ar == 1 && f.immr == 1 then decStImm f else .error .arity
  | 2 => if f.ar == 1 && f.immr == 0 then decLdt f else if f.ar == 2 && f.immr == 0 then decLdtScaled f else .error .arity
  | 3 => if f.ar == 2 && f.immr == 0 then decStt f else if f.ar == 3 && f.immr == 0 then decSttScaled f else .error .arity
  | 4 => if f.ar == 1 && f.immr == 0 then decCopy f else if f.ar == 2 && f.immr == 0 then decCopyAddr f else .error .arity
  | 5 => need (f.ar == 2 && f.immr == 0) .arity (decGath f)
  | 6 => need (f.ar == 2 && f.immr == 0) .arity (decScat f)
  | 7 => need (f.ar == 2 && f.immr == 0) .arity (decCred f)
  | 8 => need (f.ar == 1 && f.immr == 0) .arity (decDrain f)
  | 9 => need (f.ar == 1 && f.immr == 0) .arity (decPfh f)
  | 10 => if f.ar == 2 && f.immr == 0 then decAop f else if f.ar == 1 && f.immr == 1 then decAopImm f else .error .arity
  | 11 => if f.ar == 3 && f.immr == 0 then decAcas f else if f.ar == 2 && f.immr == 1 then decAcasImm f else .error .arity
  | 12 => need (f.ar == 2 && f.immr == 0) .arity (decBupd f)
  | 13 => if f.ar == 3 && f.immr == 0 then decBaxpy f else if f.ar == 2 && f.immr == 1 then decBaxpyImm f else .error .arity
  | _ => .error .opcUnassigned

/-- The opcode map, class 6 (R38 to R43). -/
def decClass6 (f : Fields) : Except Reason Instr :=
  match f.opc % 64 with
  | 0 => if f.ar == 2 && f.immr == 0 then decPclm f else if f.ar == 1 && f.immr == 1 then decPclmImm f else .error .arity
  | 1 => if f.ar == 2 && f.immr == 0 then decPcmt f else if f.ar == 1 && f.immr == 1 then decPcmtImm f else .error .arity
  | 2 => if f.ar == 2 && f.immr == 0 then decPawt f else if f.ar == 1 && f.immr == 1 then decPawtImm f else .error .arity
  | 3 => if f.ar == 2 && f.immr == 0 then decPret f else if f.ar == 1 && f.immr == 1 then decPretImm f else .error .arity
  | 4 => need (f.ar == 1 && f.immr == 0) .arity (decPinfo f)
  | 5 => if f.ar == 1 && f.immr == 0 then decBara f else if f.ar == 2 && f.immr == 0 then decBaraStatus f else if f.ar == 1 && f.immr == 1 then decBaraImm f else .error .arity
  | 6 => if f.ar == 2 && f.immr == 0 then decBarw f else if f.ar == 1 && f.immr == 1 then decBarwImm f else .error .arity
  | 7 => need (f.ar == 1 && f.immr == 0) .arity (decAcq f)
  | 8 => need (f.ar == 1 && f.immr == 0) .arity (decRel f)
  | 9 => if f.ar == 1 && f.immr == 0 then decQput f else if f.ar == 2 && f.immr == 0 then decQputArgs f else .error .arity
  | 10 => need (f.ar == 1 && f.immr == 0) .arity (decQwait f)
  | 11 => need (f.ar == 1 && f.immr == 0) .arity (decCload f)
  | 12 => need (f.ar == 1 && f.immr == 0) .arity (decCsel f)
  | 13 => need (f.ar == 1 && f.immr == 0) .arity (decCswt f)
  | 14 => need (f.ar == 1 && f.immr == 0) .arity (decCfree f)
  | _ => .error .opcUnassigned

/-- The opcode map, class 7 (R38 to R43). -/
def decClass7 (f : Fields) : Except Reason Instr :=
  match f.opc % 64 with
  | 0 => need (f.ar == 1 && f.immr == 0) .arity (decTrap f)
  | 1 => need (f.ar == 1 && f.immr == 0) .arity (decTret f)
  | 2 => need (f.ar == 1 && f.immr == 0) .arity (decGetc f)
  | 3 => need (f.ar == 1 && f.immr == 0) .arity <|
    if bf f.aux 0 12 == 0x003 then decSetcFpflags f else if bf f.aux 0 12 == 0x020 then decSetcTimerCmp f else
    if bf f.aux 0 12 == 0x060 then decSetcRasInject f else if regIsWatch (bf f.aux 0 12) then decSetcWatch f else decSetc f
  | 4 => need (f.ar == 1 && f.immr == 0) .arity (decTime f)
  | 5 => if f.ar == 1 && f.immr == 0 then decTrace f else if f.ar == 2 && f.immr == 0 then decTrace2 f else .error .arity
  | 6 => need (f.ar == 1 && f.immr == 0) .arity (decPerf f)
  | 7 => need (f.ar == 1 && f.immr == 0) .arity (decIfrd f)
  | 8 => need (f.ar == 2 && f.immr == 0) .arity (decSbind f)
  | 9 => need (f.ar == 2 && f.immr == 0) .arity (decXtset f)
  | _ => .error .opcUnassigned

/-- R38 to R43: the class is OPC[8:6]. -/
def decFields (f : Fields) : Except Reason Instr :=
  match f.opc / 64 with
  | 0 => decClass0 f
  | 1 => decClass1 f
  | 2 => decClass2 f
  | 3 => decClass3 f
  | 4 => decClass4 f
  | 5 => decClass5 f
  | 6 => decClass6 f
  | 7 => decClass7 f
  | _ => .error .opcUnassigned

/-- The decoder of a 128-bit instruction word. DESIGN CHOICE (log 136). -/
def decodeWord (w : IWord) : Except Reason Instr := decFields (Fields.ofNat w.toNat)

/-- The decoder of code-memory bytes: 16 little-endian bytes a word (R3, R30). -/
def decode (bs : List Byte) : Except Reason (Instr × List Byte) :=
  if bs.length < 16 then .error .header
  else match decodeWord (BitVec.ofNat 128 (leNat (bs.take 16))) with
    | .ok i => .ok (i, bs.drop 16)
    | .error r => .error r

/-- The fields of a token instruction's word; an event has no word. -/
def Instr.fields (i : Instr) : Option Fields :=
  match i with
  | .pass p => some (p.fields 0x1 1 0 (0) (0) (0))
  | .const p hi imm => some (p.fields 0x2 1 0 ((if hi then 1 else 0)) (imm.toNat) (0))
  | .steer p inv => some (p.fields 0x3 2 0 ((if inv then 1 else 0)) (0) (0))
  | .steerImm p inv imm => some (p.fields 0x3 1 1 ((if inv then 1 else 0)) (imm.toNat) (0))
  | .gate p => some (p.fields 0x4 2 0 (0) (0) (0))
  | .gateImm p imm => some (p.fields 0x4 1 1 (0) (imm.toNat) (0))
  | .disp p tbl => some (p.fields 0x5 2 0 (0) (0) (tbl.toNat))
  | .dispImm p tbl imm => some (p.fields 0x5 1 1 (0) (imm.toNat) (tbl.toNat))
  | .join p selp => some (p.fields 0x6 2 0 (portCode selp) (0) (0))
  | .join3 p selp => some (p.fields 0x6 3 0 (portCode selp) (0) (0))
  | .joinImm p selp imm => some (p.fields 0x6 1 1 (portCode selp) (imm.toNat) (0))
  | .join3Imm p selp imm => some (p.fields 0x6 2 1 (portCode selp) (imm.toNat) (0))
  | .cntn p => some (p.fields 0x7 2 0 (0) (0) (0))
  | .fnew p place node port block => some (p.fields 0x8 1 0 (placeCode place) (0) (node.toNat * 2 ^ 9 + portCode port * 2 ^ 7 + block.toNat))
  | .fnewNamed p place node port block => some (p.fields 0x8 2 0 (placeCode place) (0) (node.toNat * 2 ^ 9 + portCode port * 2 ^ 7 + block.toNat))
  | .fnewNamedImm p place node port block imm => some (p.fields 0x8 1 1 (placeCode place) (imm.toNat) (node.toNat * 2 ^ 9 + portCode port * 2 ^ 7 + block.toNat))
  | .sendf p node port => some (p.fields 0x9 2 0 (0) (0) (node.toNat * 2 ^ 9 + portCode port * 2 ^ 7))
  | .mkcont p node port => some (p.fields 0xa 1 0 (0) (0) (node.toNat * 2 ^ 9 + portCode port * 2 ^ 7))
  | .iter p next node port block => some (p.fields 0xb 1 0 ((if next then 1 else 0)) (0) (node.toNat * 2 ^ 9 + portCode port * 2 ^ 7 + block.toNat))
  | .iter2 p next node port block => some (p.fields 0xb 2 0 ((if next then 1 else 0)) (0) (node.toNat * 2 ^ 9 + portCode port * 2 ^ 7 + block.toNat))
  | .iter2Imm p next node port block imm => some (p.fields 0xb 1 1 ((if next then 1 else 0)) (imm.toNat) (node.toNat * 2 ^ 9 + portCode port * 2 ^ 7 + block.toNat))
  | .exit p => some (p.fields 0xc 1 0 (0) (0) (0))
  | .fset p var => some (p.fields 0xd 1 0 (0) (0) (var.toNat))
  | .fget p var => some (p.fields 0xe 1 0 (0) (0) (var.toNat))
  | .iseos p => some (p.fields 0xf 1 0 (0) (0) (0))
  | .mkeos p => some (p.fields 0x10 1 0 (0) (0) (0))
  | .send p cid => some (p.fields 0x11 2 0 (0) (0) (cid.toNat))
  | .sendImm p cid imm => some (p.fields 0x11 1 1 (0) (imm.toNat) (cid.toNat))
  | .phopen p ph => some (p.fields 0x12 1 0 (0) (0) (ph.toNat))
  | .phclose p ph => some (p.fields 0x13 1 0 (0) (0) (ph.toNat))
  | .self p what => some (p.fields 0x14 1 0 (selfWhatCode what) (0) (0))
  | .level p cnt lvl => some (p.fields 0x15 1 0 ((if cnt then 1 else 0)) (0) (lvl.toNat))
  | .add p => some (p.fields 0x40 2 0 (0) (0) (0))
  | .addImm p imm => some (p.fields 0x40 1 1 (0) (imm.toNat) (0))
  | .sub p => some (p.fields 0x41 2 0 (0) (0) (0))
  | .subImm p imm => some (p.fields 0x41 1 1 (0) (imm.toNat) (0))
  | .mul p => some (p.fields 0x42 2 0 (0) (0) (0))
  | .mulImm p imm => some (p.fields 0x42 1 1 (0) (imm.toNat) (0))
  | .mulh p => some (p.fields 0x43 2 0 (0) (0) (0))
  | .mulhImm p imm => some (p.fields 0x43 1 1 (0) (imm.toNat) (0))
  | .div p => some (p.fields 0x44 2 0 (0) (0) (0))
  | .divImm p imm => some (p.fields 0x44 1 1 (0) (imm.toNat) (0))
  | .rem p => some (p.fields 0x45 2 0 (0) (0) (0))
  | .remImm p imm => some (p.fields 0x45 1 1 (0) (imm.toNat) (0))
  | .and p => some (p.fields 0x46 2 0 (0) (0) (0))
  | .andImm p imm => some (p.fields 0x46 1 1 (0) (imm.toNat) (0))
  | .or p => some (p.fields 0x47 2 0 (0) (0) (0))
  | .orImm p imm => some (p.fields 0x47 1 1 (0) (imm.toNat) (0))
  | .xor p => some (p.fields 0x48 2 0 (0) (0) (0))
  | .xorImm p imm => some (p.fields 0x48 1 1 (0) (imm.toNat) (0))
  | .andn p => some (p.fields 0x49 2 0 (0) (0) (0))
  | .andnImm p imm => some (p.fields 0x49 1 1 (0) (imm.toNat) (0))
  | .shl p => some (p.fields 0x4a 2 0 (0) (0) (0))
  | .shlImm p imm => some (p.fields 0x4a 1 1 (0) (imm.toNat) (0))
  | .shr p => some (p.fields 0x4b 2 0 (0) (0) (0))
  | .shrImm p imm => some (p.fields 0x4b 1 1 (0) (imm.toNat) (0))
  | .sar p => some (p.fields 0x4c 2 0 (0) (0) (0))
  | .sarImm p imm => some (p.fields 0x4c 1 1 (0) (imm.toNat) (0))
  | .rol p => some (p.fields 0x4d 2 0 (0) (0) (0))
  | .rolImm p imm => some (p.fields 0x4d 1 1 (0) (imm.toNat) (0))
  | .min p => some (p.fields 0x4e 2 0 (0) (0) (0))
  | .minImm p imm => some (p.fields 0x4e 1 1 (0) (imm.toNat) (0))
  | .max p => some (p.fields 0x4f 2 0 (0) (0) (0))
  | .maxImm p imm => some (p.fields 0x4f 1 1 (0) (imm.toNat) (0))
  | .abs p => some (p.fields 0x50 1 0 (0) (0) (0))
  | .neg p => some (p.fields 0x51 1 0 (0) (0) (0))
  | .clz p => some (p.fields 0x52 1 0 (0) (0) (0))
  | .ctz p => some (p.fields 0x53 1 0 (0) (0) (0))
  | .popc p => some (p.fields 0x54 1 0 (0) (0) (0))
  | .cmp p cond => some (p.fields 0x55 2 0 (intCondCode cond) (0) (0))
  | .cmpImm p cond imm => some (p.fields 0x55 1 1 (intCondCode cond) (imm.toNat) (0))
  | .sel p => some (p.fields 0x56 3 0 (0) (0) (0))
  | .selImm p imm => some (p.fields 0x56 2 1 (0) (imm.toNat) (0))
  | .ext p => some (p.fields 0x57 2 0 (0) (0) (0))
  | .extImm p imm => some (p.fields 0x57 1 1 (0) (imm.toNat) (0))
  | .ins p => some (p.fields 0x58 3 0 (0) (0) (0))
  | .insImm p imm => some (p.fields 0x58 2 1 (0) (imm.toNat) (0))
  | .mad p => some (p.fields 0x59 3 0 (0) (0) (0))
  | .madImm p imm => some (p.fields 0x59 2 1 (0) (imm.toNat) (0))
  | .adds p => some (p.fields 0x5a 2 0 (0) (0) (0))
  | .addsImm p imm => some (p.fields 0x5a 1 1 (0) (imm.toNat) (0))
  | .subs p => some (p.fields 0x5b 2 0 (0) (0) (0))
  | .subsImm p imm => some (p.fields 0x5b 1 1 (0) (imm.toNat) (0))
  | .fadd p mode => some (p.fields 0x80 2 0 (modeCode mode) (0) (0))
  | .faddImm p mode imm => some (p.fields 0x80 1 1 (modeCode mode) (imm.toNat) (0))
  | .fsub p mode => some (p.fields 0x81 2 0 (modeCode mode) (0) (0))
  | .fsubImm p mode imm => some (p.fields 0x81 1 1 (modeCode mode) (imm.toNat) (0))
  | .fmul p mode => some (p.fields 0x82 2 0 (modeCode mode) (0) (0))
  | .fmulImm p mode imm => some (p.fields 0x82 1 1 (modeCode mode) (imm.toNat) (0))
  | .ffma p mode => some (p.fields 0x83 3 0 (modeCode mode) (0) (0))
  | .ffmaImm p mode imm => some (p.fields 0x83 2 1 (modeCode mode) (imm.toNat) (0))
  | .fdiv p mode => some (p.fields 0x84 2 0 (modeCode mode) (0) (0))
  | .fdivImm p mode imm => some (p.fields 0x84 1 1 (modeCode mode) (imm.toNat) (0))
  | .fsqrt p mode => some (p.fields 0x85 1 0 (modeCode mode) (0) (0))
  | .frcp p mode => some (p.fields 0x86 1 0 (modeCode mode) (0) (0))
  | .frsq p mode => some (p.fields 0x87 1 0 (modeCode mode) (0) (0))
  | .fmin p => some (p.fields 0x88 2 0 (0) (0) (0))
  | .fminImm p imm => some (p.fields 0x88 1 1 (0) (imm.toNat) (0))
  | .fmax p => some (p.fields 0x89 2 0 (0) (0) (0))
  | .fmaxImm p imm => some (p.fields 0x89 1 1 (0) (imm.toNat) (0))
  | .fabs p => some (p.fields 0x8a 1 0 (0) (0) (0))
  | .fneg p => some (p.fields 0x8b 1 0 (0) (0) (0))
  | .fcmp p cond => some (p.fields 0x8c 2 0 (fltCondCode cond) (0) (0))
  | .fcmpImm p cond imm => some (p.fields 0x8c 1 1 (fltCondCode cond) (imm.toNat) (0))
  | .fclass p => some (p.fields 0x8d 1 0 (0) (0) (0))
  | .fcvt p mode sat dty => some (p.fields 0x8e 1 0 (modeCode mode + (if sat then 1 else 0) * 2 ^ 2) (0) (tyCode dty))
  | .ftoi p mode dty => some (p.fields 0x8f 1 0 (modeCode mode) (0) (tyCode dty))
  | .itof p mode sat dty => some (p.fields 0x90 1 0 (modeCode mode + (if sat then 1 else 0) * 2 ^ 2) (0) (tyCode dty))
  | .frnd p mode => some (p.fields 0x91 1 0 (modeCode mode) (0) (0))
  | .fldx p mode => some (p.fields 0x92 2 0 (modeCode mode) (0) (0))
  | .fldxImm p mode imm => some (p.fields 0x92 1 1 (modeCode mode) (imm.toNat) (0))
  | .fgetx p => some (p.fields 0x93 1 0 (0) (0) (0))
  | .fexp2f p => some (p.fields 0x94 1 0 (0) (0) (0))
  | .talloc p acc zero bg rows cols => some (p.fields 0xc0 1 0 ((if acc then 1 else 0) + (if zero then 1 else 0) * 2 ^ 1) (rows.toNat + cols.toNat * 2 ^ 13) (geomCode bg))
  | .tref p => some (p.fields 0xc1 1 0 (0) (0) (0))
  | .tdrop p => some (p.fields 0xc2 1 0 (0) (0) (0))
  | .tview p => some (p.fields 0xc3 2 0 (0) (0) (0))
  | .tviewImm p imm => some (p.fields 0xc3 1 1 (0) (imm.toNat) (0))
  | .tinfo p what => some (p.fields 0xc4 1 0 (infoWhatCode what) (0) (0))
  | .tfill p => some (p.fields 0xc5 2 0 (0) (0) (0))
  | .tfillImm p imm => some (p.fields 0xc5 1 1 (0) (imm.toNat) (0))
  | .tcopy p toacc => some (p.fields 0xc6 1 0 ((if toacc then 1 else 0)) (0) (0))
  | .tcopyInto p => some (p.fields 0xc6 2 0 (0) (0) (0))
  | .ttran p => some (p.fields 0xc7 1 0 (0) (0) (0))
  | .tget p part => some (p.fields 0xc8 2 0 (partCode part) (0) (0))
  | .tgetImm p part imm => some (p.fields 0xc8 1 1 (partCode part) (imm.toNat) (0))
  | .tset p part => some (p.fields 0xc9 3 0 (partCode part) (0) (0))
  | .tsetImm p part imm => some (p.fields 0xc9 2 1 (partCode part) (imm.toNat) (0))
  | .vrunA p cfg => some (p.fields 0xca 1 0 (0) (0) (cfg.toNat))
  | .vrunAb p cfg => some (p.fields 0xca 2 0 (1) (0) (cfg.toNat))
  | .vrunAo p cfg => some (p.fields 0xca 2 0 (2) (0) (cfg.toNat))
  | .vrunAbo p cfg => some (p.fields 0xca 3 0 (3) (0) (cfg.toNat))
  | .vruns p cfg => some (p.fields 0xcb 1 0 (0) (0) (cfg.toNat))
  | .vruns2 p cfg => some (p.fields 0xcb 2 0 (0) (0) (cfg.toNat))
  | .vstat p => some (p.fields 0xcc 1 0 (0) (0) (0))
  | .wld p comp sx bg ws gen => some (p.fields 0x100 1 0 (compCode comp) (gen.toNat) (sx.toNat * 2 ^ 12 + geomCode bg * 2 ^ 4 + ws.toNat))
  | .wfree p ws => some (p.fields 0x101 1 0 (0) (0) (ws.toNat))
  | .mma p pan zacc acol ws arow koff hold => some (p.fields 0x102 2 0 ((if pan then 1 else 0) + (if zacc then 1 else 0) * 2 ^ 1) (arow.toNat * 2 ^ 21 + koff.toNat * 2 ^ 16 + hold.toNat) (acol.toNat * 2 ^ 8 + ws.toNat))
  | .mmas p mode sat oty ws => some (p.fields 0x103 2 0 (modeCode mode + (if sat then 1 else 0) * 2 ^ 2) (0) (tyCode oty * 2 ^ 4 + ws.toNat))
  | .mmasImm p mode sat oty ws imm => some (p.fields 0x103 1 1 (modeCode mode + (if sat then 1 else 0) * 2 ^ 2) (imm.toNat) (tyCode oty * 2 ^ 4 + ws.toNat))
  | .adrain p mode sat clr oty => some (p.fields 0x104 2 0 (modeCode mode * 2 ^ 1 + (if sat then 1 else 0) * 2 ^ 3 + (if clr then 1 else 0) * 2 ^ 4) (0) (tyCode oty))
  | .adrainImm p mode sat clr oty imm => some (p.fields 0x104 1 1 (modeCode mode * 2 ^ 1 + (if sat then 1 else 0) * 2 ^ 3 + (if clr then 1 else 0) * 2 ^ 4) (imm.toNat) (tyCode oty))
  | .adrainSteer p mode sat clr tbl oty => some (p.fields 0x104 3 0 (modeCode mode * 2 ^ 1 + (if sat then 1 else 0) * 2 ^ 3 + (if clr then 1 else 0) * 2 ^ 4 + 1) (0) (tbl.toNat * 2 ^ 4 + tyCode oty))
  | .adrainSteerImm p mode sat clr tbl oty imm => some (p.fields 0x104 2 1 (modeCode mode * 2 ^ 1 + (if sat then 1 else 0) * 2 ^ 3 + (if clr then 1 else 0) * 2 ^ 4 + 1) (imm.toNat) (tbl.toNat * 2 ^ 4 + tyCode oty))
  | .aclr p => some (p.fields 0x105 1 0 (0) (0) (0))
  | .winfo p ws => some (p.fields 0x106 1 0 (0) (0) (ws.toNat))
  | .mstat p what clr => some (p.fields 0x107 1 0 (what.toNat + (if clr then 1 else 0) * 2 ^ 4) (0) (0))
  | .ld p => some (p.fields 0x140 1 0 (0) (0) (0))
  | .st p => some (p.fields 0x141 2 0 (0) (0) (0))
  | .stImm p imm => some (p.fields 0x141 1 1 (0) (imm.toNat) (0))
  | .ldt p bg pitch rows cols => some (p.fields 0x142 1 0 (geomCode bg) (rows.toNat + cols.toNat * 2 ^ 13) (pitch.toNat))
  | .ldtScaled p bg pitch rows cols => some (p.fields 0x142 2 0 (geomCode bg) (rows.toNat + cols.toNat * 2 ^ 13) (pitch.toNat))
  | .stt p pitch => some (p.fields 0x143 2 0 (0) (0) (pitch.toNat))
  | .sttScaled p pitch => some (p.fields 0x143 3 0 (0) (0) (pitch.toNat))
  | .copy p scl recd => some (p.fields 0x144 1 0 ((if scl then 1 else 0)) (0) (recd.toNat))
  | .copyAddr p scl recd => some (p.fields 0x144 2 0 ((if scl then 1 else 0)) (0) (recd.toNat))
  | .gath p recd => some (p.fields 0x145 2 0 (0) (0) (recd.toNat))
  | .scat p recd => some (p.fields 0x146 2 0 (0) (0) (recd.toNat))
  | .cred p rop recd => some (p.fields 0x147 2 0 (redOpCode rop) (0) (recd.toNat))
  | .drain p path => some (p.fields 0x148 1 0 (0) (0) (path.toNat))
  | .pfh p count => some (p.fields 0x149 1 0 (0) (0) (count.toNat))
  | .aop p op rtry => some (p.fields 0x14a 2 0 (atomOpCode op + (if rtry then 1 else 0) * 2 ^ 4) (0) (0))
  | .aopImm p op rtry imm => some (p.fields 0x14a 1 1 (atomOpCode op + (if rtry then 1 else 0) * 2 ^ 4) (imm.toNat) (0))
  | .acas p rtry => some (p.fields 0x14b 3 0 ((if rtry then 1 else 0) * 2 ^ 4) (0) (0))
  | .acasImm p rtry imm => some (p.fields 0x14b 2 1 ((if rtry then 1 else 0) * 2 ^ 4) (imm.toNat) (0))
  | .bupd p rop pitch => some (p.fields 0x14c 2 0 (redOpCode rop) (0) (pitch.toNat))
  | .baxpy p pitch => some (p.fields 0x14d 3 0 (0) (0) (pitch.toNat))
  | .baxpyImm p pitch imm => some (p.fields 0x14d 2 1 (0) (imm.toNat) (pitch.toNat))
  | .bara p rtry => some (p.fields 0x185 1 0 ((if rtry then 1 else 0) * 2 ^ 4) (0) (0))
  | .baraStatus p rtry => some (p.fields 0x185 2 0 ((if rtry then 1 else 0) * 2 ^ 4) (0) (0))
  | .baraImm p rtry imm => some (p.fields 0x185 1 1 ((if rtry then 1 else 0) * 2 ^ 4) (imm.toNat) (0))
  | .barw p => some (p.fields 0x186 2 0 (0) (0) (0))
  | .barwImm p imm => some (p.fields 0x186 1 1 (0) (imm.toNat) (0))
  | .acq p sh rtry scope => some (p.fields 0x187 1 0 ((if sh then 1 else 0) + (if rtry then 1 else 0) * 2 ^ 4) (0) (scopeCode scope))
  | .rel p sh rtry scope => some (p.fields 0x188 1 0 ((if sh then 1 else 0) + (if rtry then 1 else 0) * 2 ^ 4) (0) (scopeCode scope))
  | .pclm p pipe => some (p.fields 0x180 2 0 (0) (0) (pipe.toNat))
  | .pclmImm p pipe imm => some (p.fields 0x180 1 1 (0) (imm.toNat) (pipe.toNat))
  | .pcmt p pipe => some (p.fields 0x181 2 0 (0) (0) (pipe.toNat))
  | .pcmtImm p pipe imm => some (p.fields 0x181 1 1 (0) (imm.toNat) (pipe.toNat))
  | .pawt p pipe => some (p.fields 0x182 2 0 (0) (0) (pipe.toNat))
  | .pawtImm p pipe imm => some (p.fields 0x182 1 1 (0) (imm.toNat) (pipe.toNat))
  | .pret p pipe => some (p.fields 0x183 2 0 (0) (0) (pipe.toNat))
  | .pretImm p pipe imm => some (p.fields 0x183 1 1 (0) (imm.toNat) (pipe.toNat))
  | .pinfo p pipe => some (p.fields 0x184 1 0 (0) (0) (pipe.toNat))
  | .qput p queue => some (p.fields 0x189 1 0 (0) (0) (queue.toNat))
  | .qputArgs p queue => some (p.fields 0x189 2 0 (0) (0) (queue.toNat))
  | .qwait p => some (p.fields 0x18a 1 0 (0) (0) (0))
  | .cload p cs => some (p.fields 0x18b 1 0 (0) (0) (cs.toNat))
  | .csel p => some (p.fields 0x18c 1 0 (0) (0) (0))
  | .cswt p cs => some (p.fields 0x18d 1 0 (0) (0) (cs.toNat))
  | .cfree p cs => some (p.fields 0x18e 1 0 (0) (0) (cs.toNat))
  | .trap p code => some (p.fields 0x1c0 1 0 (0) (code.toNat) (0))
  | .tret p => some (p.fields 0x1c1 1 0 (0) (0) (0))
  | .getc p idx => some (p.fields 0x1c2 1 0 (0) (0) (idx.toNat))
  | .setc p idx => some (p.fields 0x1c3 1 0 (0) (0) (idx.toNat))
  | .setcFpflags p => some (p.fields 0x1c3 1 0 (0) (0) (0x3))
  | .setcWatch p idx => some (p.fields 0x1c3 1 0 (0) (0) (idx.toNat))
  | .setcTimerCmp p => some (p.fields 0x1c3 1 0 (0) (0) (0x20))
  | .setcRasInject p => some (p.fields 0x1c3 1 0 (0) (0) (0x60))
  | .time p => some (p.fields 0x1c4 1 0 (0) (0) (0))
  | .trace p tag => some (p.fields 0x1c5 1 0 (0) (0) (tag.toNat))
  | .trace2 p tag => some (p.fields 0x1c5 2 0 (0) (0) (tag.toNat))
  | .perf p ctr => some (p.fields 0x1c6 1 0 (0) (0) (ctr.toNat))
  | .ifrd p => some (p.fields 0x1c7 1 0 (0) (0) (0))
  | .sbind p len => some (p.fields 0x1c8 2 0 (0) (0) (len.toNat))
  | .xtset p => some (p.fields 0x1c9 2 0 (0) (0) (0))
  | .tokenAccept _ => none
  | .quarantineReport _ => none
  | .sourcePortArrival _ => none
  | .tileTransferReceive _ => none
  | .frameGrant _ => none
  | .tileAllocationGrant _ _ => none
  | .weightSlotGrant _ => none
  | .tokenPromotion _ => none
  | .memoryRequestPerform _ => none
  | .memoryResponse _ => none
  | .remoteTimeout _ => none
  | .barwRelease _ => none
  | .acqGrant _ => none
  | .pipeWaitGrant _ => none
  | .wldLoadComplete _ _ => none
  | .engineArbitration _ => none
  | .mmaRowIssue _ => none
  | .mmaRowCommit _ => none
  | .panDeadline _ => none
  | .vrunStart _ => none
  | .vrunComplete _ _ => none
  | .engineCommandComplete _ _ => none
  | .copyComplete _ _ => none
  | .cloadComplete _ _ => none
  | .drainComplete _ => none
  | .qwaitComplete _ => none
  | .regionSweep _ => none
  | .phcloseReturn _ => none
  | .cselSwitch _ => none
  | .cswtInstant _ => none
  | .cfreeComplete _ => none
  | .contextCompletion _ => none
  | .handlerEntry _ => none
  | .orphan _ _ => none
  | .timer _ => none
  | .freeze _ => none
  | .freezeMark _ => none
  | .drainMarker _ _ => none
  | .fence _ _ => none
  | .settleTimeout _ => none
  | .contextSave _ => none
  | .contextRestore _ => none
  | .replayRequest _ => none
  | .doorbell _ _ _ => none
  | .hostRegisterWrite _ _ _ => none
  | .packetRead => none
  | .launch _ => none
  | .gang _ => none
  | .configurationLoad _ => none
  | .barrier _ => none
  | .preemptSave _ => none
  | .preemptResume _ => none
  | .preemptAbandon _ => none
  | .dependenceMet _ => none
  | .admissionGrant _ => none
  | .extentBuild _ => none
  | .argumentInjection _ => none
  | .halt _ => none
  | .stepNamed _ _ _ _ => none
  | .stepNext _ _ => none
  | .stepEnd _ => none
  | .arm _ _ => none
  | .cancel _ => none
  | .sethen _ _ => none
  | .setbrk _ _ _ _ _ _ _ _ => none
  | .read _ _ _ => none
  | .cairnMessage _ => none
  | .causeReport _ _ _ _ => none
  | .memberReportTimeout _ _ => none
  | .resumeInstant _ => none
  | .rightsMessage _ _ _ => none
  | .translationWalk _ => none
  | .fqreplyRetry _ _ => none
  | .fqreplyAbort _ _ => none
  | .tlbInvalidate _ _ _ => none
  | .pageMigration _ _ _ => none
  | .hostWindowAccess _ _ _ _ _ => none
  | .watershedDivision _ => none
  | .marginBackoff _ => none
  | .marginBarExpiry _ => none
  | .predictiveFailure _ => none
  | .flitRetry _ => none
  | .linkDown _ => none
  | .keyRenewal _ => none
  | .gtcSync _ => none
  | .powerRemoval => none
  | .packageReset => none
  | .bootStateAdvance _ => none
  | .coreAssignment _ _ _ => none
  | .tenantCreate _ _ => none
  | .tenantDestroy _ => none
  | .coreMarkFailed _ => none
  | .logicalTableWrite _ _ => none
  | .getVersion _ => none
  | .getCapabilities _ => none
  | .negotiateAlgorithms _ => none
  | .getDigests _ => none
  | .getCertificate _ => none
  | .challenge _ _ => none
  | .getMeasurements _ _ => none
  | .keyExchange _ => none
  | .finish _ => none
  | .endSession _ => none
  | .unsupportedRequest _ _ => none
  | .retentionWindowExpiry _ => none
  | .tdispStateChange _ _ => none
  | .jobMembershipList _ _ _ _ => none
  | .connectionTableWrite _ _ _ => none
  | .transportError _ _ => none

/-- The word of a token instruction. DESIGN CHOICE (log 136). -/
def encode (i : Instr) : Option IWord := i.fields.map fun f => BitVec.ofNat 128 f.toNat

/-- An event of the table: a row that has no instruction word. -/
def Instr.isEvent (i : Instr) : Bool := i.fields.isNone

/-- What this decoder reads from an instruction whose bits are `w`, through its little-endian bytes (R3). -/
def decodeTableWord (_nbits w : Nat) : Option Instr :=
  match decode (leBytes 16 w) with
  | .ok (i, _) => some i
  | .error _ => none

end Sys2Proof
end

