-- ==== Sys2Proof/Machine/Num.lean ====
section
/-! DEFINITION. Numbers: the element formats (R58 to R64), RoundFP and conversions (R74 to R81), correctly rounded
arithmetic, and the functions that R88 and R169 bound within one ulp. A flag set is a number with FPFLAGS's bits (R77). -/

namespace Sys2Proof.Machine

/-! ## Integers -/

/-- Width in bits of a type's element (R27, R59). -/
def tyBits : Ty → Nat
  | .s8 | .z8 => 8 | .s16 | .z16 => 16 | .s32 | .z32 => 32 | .s64 | .z64 => 64 | .f32 => 32 | .bf16 | .f16 => 16
  | .e4m3 | .e5m2 => 8 | .e2m1 | .qn4 => 4 | .none => 64

def tySigned : Ty → Bool
  | .s8 | .s16 | .s32 | .s64 => true
  | _ => false

def tyIsInt (t : Ty) : Bool := tyInt.contains t

def tyIsFloat (t : Ty) : Bool := tyCvt.contains t

/-- An integer reduced into 64 bits, two's complement. -/
def wordOf (i : Int) : Word := BitVec.ofInt 64 i

/-- R58: the low w bits of a number, extended by the type's signedness, as 64 bits. -/
def extendTy (t : Ty) (v : Nat) : Word :=
  if tySigned t then wordOf (sx v (tyBits t)) else BitVec.ofNat 64 (v % 2 ^ tyBits t)

/-- R117: an operand read at a type. -/
def readInt (t : Ty) (v : Word) : Int :=
  if tySigned t then sx v.toNat (tyBits t) else ((v.toNat % 2 ^ tyBits t : Nat) : Int)

/-- R58: an exact result reduced modulo 2^w and extended. -/
def reduceInt (t : Ty) (i : Int) : Word := extendTy t (i % 2 ^ tyBits t).toNat

def tyMin (t : Ty) : Int := if tySigned t then -(2 ^ (tyBits t - 1)) else 0

def tyMax (t : Ty) : Int := if tySigned t then 2 ^ (tyBits t - 1) - 1 else 2 ^ tyBits t - 1

def clampInt (lo hi i : Int) : Int := if i < lo then lo else if hi < i then hi else i

/-! ## Formats -/

/-- R59: exponent and mantissa widths, bias, and which specials exist. -/
structure Fmt where
  eb : Nat
  mb : Nat
  bias : Int
  hasInf : Bool
  hasNan : Bool
  deriving DecidableEq, Repr

/-- R59. -/
def fmtOf : Ty → Fmt
  | .f32 => ⟨8, 23, 127, true, true⟩
  | .bf16 => ⟨8, 7, 127, true, true⟩
  | .f16 => ⟨5, 10, 15, true, true⟩
  | .e4m3 => ⟨4, 3, 7, false, true⟩
  | .e5m2 => ⟨5, 2, 15, true, true⟩
  | _ => ⟨2, 1, 1, false, false⟩

/-- A decoded float: magnitudes are m × 2^e. -/
inductive Fp where
  | nan (signalling : Bool)
  | inf (neg : Bool)
  | fin (neg : Bool) (m : Nat) (e : Int)
  deriving DecidableEq, Repr

/-- FPFLAGS bits, R77. -/
def fNV : Nat := 1
def fDZ : Nat := 2
def fOF : Nat := 4
def fUF : Nat := 8
def fNX : Nat := 16

/-- R59, R61: the value of a code. -/
def decFp (t : Ty) (bits : Nat) : Fp :=
  let f := fmtOf t
  let m := bits % 2 ^ f.mb
  let e := bits / 2 ^ f.mb % 2 ^ f.eb
  let s := bits / 2 ^ (f.mb + f.eb) % 2 == 1
  let top := 2 ^ f.eb - 1
  if e == top && f.hasInf then
    if m == 0 then .inf s else .nan ((t == .f32 || t == .bf16 || t == .f16) && m / 2 ^ (f.mb - 1) == 0)
  else if e == top && f.hasNan && m == 2 ^ f.mb - 1 then .nan false
  else if e == 0 then .fin s m (1 - f.bias - f.mb)
  else .fin s (2 ^ f.mb + m) ((e : Int) - f.bias - f.mb)

/-- R64: level magnitudes in units of 2^-9. -/
def qn4Level (j : Nat) : Nat := [24, 73, 123, 177, 235, 304, 388, 512].getD j 512

/-- R64: the value of a QN4 code. -/
def decQn4 (q : Nat) : Fp := .fin (q / 8 % 2 == 1) (qn4Level (q % 8)) (-9)

/-- R59, R64: the value of an element code of any type that holds one. -/
def decElem (t : Ty) (bits : Nat) : Fp :=
  if t == .qn4 then decQn4 bits
  else if tyIsFloat t then decFp t bits
  else
    let i := readInt t (BitVec.ofNat 64 bits)
    .fin (decide (i < 0)) i.natAbs 0

/-- R59: E8M0. -/
def decE8 (b : Nat) : Fp := if b % 256 == 255 then .nan false else .fin false 1 ((b % 256 : Nat) - 127)

/-- R61: canonical NaN. -/
def nanOf : Ty → Nat
  | .f32 => 0x7FC00000 | .bf16 => 0x7FC0 | .f16 => 0x7E00 | .e4m3 => 0x7F | .e5m2 => 0x7E | _ => 0

def signBit (t : Ty) (neg : Bool) : Nat := if neg then 2 ^ (tyBits t - 1) else 0

def infOf (t : Ty) (neg : Bool) : Nat := signBit t neg + (2 ^ (fmtOf t).eb - 1) * 2 ^ (fmtOf t).mb

/-- R59: the largest finite value's code. -/
def maxOf (t : Ty) (neg : Bool) : Nat :=
  signBit t neg + (match t with
    | .e4m3 => 0x7E | .e2m1 => 7 | _ => (2 ^ (fmtOf t).eb - 1) * 2 ^ (fmtOf t).mb - 1)

def zeroOf (t : Ty) (neg : Bool) : Nat := signBit t neg

/-- R76. -/
def overflowOf (t : Ty) (mode : Mode) (sat neg : Bool) : Nat :=
  let top := if t == .e4m3 then nanOf .e4m3 else infOf t neg
  if t == .e2m1 || (sat && (t == .e4m3 || t == .e5m2)) then maxOf t neg
  else match mode with
    | .rne => top
    | .rtz => maxOf t neg
    | .rup => if neg then maxOf t neg else top
    | .rdn => if neg then top else maxOf t neg

/-- Whether a magnitude is rounded away from zero: `r` of `2 ^ s` was cut off, `more` lies below, `odd` the kept part. -/
def roundAway (mode : Mode) (neg odd more : Bool) (r s : Nat) : Bool :=
  match mode with
  | .rne => decide (2 ^ s < 2 * r) || (2 * r == 2 ^ s && s != 0 && (more || odd))
  | .rtz => false
  | .rup => !neg && (r != 0 || more)
  | .rdn => neg && (r != 0 || more)

/-- R75, R76: RoundFP of the magnitude m × 2^e, with something below it when `more` (then m holds enough bits). -/
def roundMag (t : Ty) (mode : Mode) (sat neg : Bool) (m : Nat) (e : Int) (more : Bool) : Nat × Nat :=
  if m == 0 && !more then (zeroOf t neg, 0) else
  let f := fmtOf t
  let emin : Int := 1 - f.bias
  let top : Int := (Nat.log2 m : Int) + e
  let q : Int := (if top < emin then emin else top) - f.mb
  let s : Nat := (q - e).toNat
  let k0 : Nat := if e < q then m / 2 ^ s else m * 2 ^ (e - q).toNat
  let r : Nat := if e < q then m % 2 ^ s else 0
  let inexact := r != 0 || more
  let k := if roundAway mode neg (k0 % 2 == 1) more r s then k0 + 1 else k0
  let carry := k == 2 ^ (f.mb + 1)
  let k' := if carry then 2 ^ f.mb else k
  let q' : Int := if carry then q + 1 else q
  let ef : Int := if k' < 2 ^ f.mb then 0 else q' + f.mb + f.bias
  let code := signBit t neg + ef.toNat * 2 ^ f.mb + k' % 2 ^ f.mb
  if maxOf t neg < code then (overflowOf t mode sat neg, fOF + fNX)
  else (code, (if inexact then fNX else 0) + (if inexact && k' < 2 ^ f.mb then fUF else 0))

/-- R78: a value into a float format. -/
def toFp (t : Ty) (mode : Mode) (sat : Bool) (x : Fp) : Nat × Nat :=
  match x with
  | .nan sig => if t == .e2m1 then (0, fNV) else (nanOf t, if sig then fNV else 0)
  | .inf neg =>
    match t with
    | .e4m3 => if sat then (maxOf t neg, fNV) else (nanOf t, fNV)
    | .e5m2 => if sat then (maxOf t neg, fNV) else (infOf t neg, 0)
    | .e2m1 => (maxOf t neg, fNV)
    | _ => (infOf t neg, 0)
  | .fin neg m e => roundMag t mode sat neg m e false

/-! ## Exact arithmetic -/

/-- m × 2^e as a signed multiple of 2^q, for q not above e. -/
def scaled (neg : Bool) (m : Nat) (e q : Int) : Int :=
  let v : Int := (m * 2 ^ (e - q).toNat : Nat)
  if neg then -v else v

/-- The sum of two values and NV; an exact zero from nonzero terms or from zeros of both signs takes `zneg` (R126). -/
def addFp (zneg : Bool) (x y : Fp) : Fp × Nat :=
  match x, y with
  | .nan s, .nan s' => (.nan false, if s || s' then fNV else 0)
  | .nan s, _ => (.nan false, if s then fNV else 0)
  | _, .nan s => (.nan false, if s then fNV else 0)
  | .inf a, .inf b => if a == b then (.inf a, 0) else (.nan false, fNV)
  | .inf a, _ => (.inf a, 0)
  | _, .inf b => (.inf b, 0)
  | .fin a m e, .fin b m' e' =>
    let q := if e < e' then e else e'
    let v := scaled a m e q + scaled b m' e' q
    if v == 0 then (.fin (if m == 0 && m' == 0 && a == b then a else zneg) 0 0, 0)
    else (.fin (decide (v < 0)) v.natAbs q, 0)

/-- The exact product and NV. -/
def mulFp (x y : Fp) : Fp × Nat :=
  match x, y with
  | .nan s, .nan s' => (.nan false, if s || s' then fNV else 0)
  | .nan s, _ => (.nan false, if s then fNV else 0)
  | _, .nan s => (.nan false, if s then fNV else 0)
  | .inf a, .inf b => (.inf (a != b), 0)
  | .inf a, .fin b m _ => if m == 0 then (.nan false, fNV) else (.inf (a != b), 0)
  | .fin a m _, .inf b => if m == 0 then (.nan false, fNV) else (.inf (a != b), 0)
  | .fin a m e, .fin b m' e' => (.fin (a != b) (m * m') (e + e'), 0)

def negFp : Fp → Fp
  | .nan s => .nan s
  | .inf n => .inf (!n)
  | .fin n m e => .fin (!n) m e

/-- Union of flag sets. -/
def orFlags (a b : Nat) : Nat := a ||| b

/-- A rounded result with the flags of its inputs. -/
def roundOp (t : Ty) (mode : Mode) (r : Fp × Nat) : Nat × Nat :=
  let z := toFp t mode false r.1
  (z.1, orFlags r.2 z.2)

/-- R125: L + R. -/
def fpAdd (t : Ty) (mode : Mode) (x y : Nat) : Nat × Nat :=
  roundOp t mode (addFp (mode == .rdn) (decFp t x) (decFp t y))

/-- R125: L − R. -/
def fpSub (t : Ty) (mode : Mode) (x y : Nat) : Nat × Nat :=
  roundOp t mode (addFp (mode == .rdn) (decFp t x) (negFp (decFp t y)))

/-- R125: L × R. -/
def fpMul (t : Ty) (mode : Mode) (x y : Nat) : Nat × Nat := roundOp t mode (mulFp (decFp t x) (decFp t y))

/-- R125, R126: L × R + C, rounded once; 0 × ∞ raises NV whatever C is. -/
def fpFma (t : Ty) (mode : Mode) (x y z : Nat) : Nat × Nat :=
  let p := mulFp (decFp t x) (decFp t y)
  let s := addFp (mode == .rdn) p.1 (decFp t z)
  roundOp t mode (s.1, orFlags p.2 s.2)

/-- Correctly rounded quotient of two finite nonzero magnitudes. -/
def divMag (t : Ty) (mode : Mode) (neg : Bool) (m : Nat) (e : Int) (m' : Nat) (e' : Int) : Nat × Nat :=
  let k := 64 + Nat.log2 m'
  let n := m * 2 ^ k
  roundMag t mode false neg (n / m') (e - e' - k) (n % m' != 0)

/-- R126: L / R. -/
def fpDiv (t : Ty) (mode : Mode) (x y : Nat) : Nat × Nat :=
  match decFp t x, decFp t y with
  | .nan s, .nan s' => (nanOf t, if s || s' then fNV else 0)
  | .nan s, _ => (nanOf t, if s then fNV else 0)
  | _, .nan s => (nanOf t, if s then fNV else 0)
  | .inf _, .inf _ => (nanOf t, fNV)
  | .inf a, .fin b _ _ => (infOf t (a != b), 0)
  | .fin a _ _, .inf b => (zeroOf t (a != b), 0)
  | .fin a m e, .fin b m' e' =>
    if m' == 0 then (if m == 0 then (nanOf t, fNV) else (infOf t (a != b), fDZ))
    else if m == 0 then (zeroOf t (a != b), 0)
    else divMag t mode (a != b) m e m' e'

/-- The integer square root, found bit by bit from bit `n - 1`. -/
def isqrt (v : Nat) : Nat → Nat → Nat
  | 0, acc => acc
  | n + 1, acc => if (acc + 2 ^ n) * (acc + 2 ^ n) ≤ v then isqrt v n (acc + 2 ^ n) else isqrt v n acc

/-- R126: √L. -/
def fpSqrt (t : Ty) (mode : Mode) (x : Nat) : Nat × Nat :=
  match decFp t x with
  | .nan s => (nanOf t, if s then fNV else 0)
  | .inf n => if n then (nanOf t, fNV) else (infOf t false, 0)
  | .fin n m e =>
    if m == 0 then (zeroOf t n, 0)
    else if n then (nanOf t, fNV)
    else
      let odd := e % 2 != 0
      let v := m * 2 ^ (if odd then 65 else 64)
      let e' : Int := if odd then e - 65 else e - 64
      let r := isqrt v (Nat.log2 v / 2 + 1) 0
      roundMag t mode false false r (e' / 2) (r * r != v)

/-- R126: 1 / L. -/
def fpRcp (t : Ty) (mode : Mode) (x : Nat) : Nat × Nat :=
  match decFp t x with
  | .nan s => (nanOf t, if s then fNV else 0)
  | .inf n => (zeroOf t n, 0)
  | .fin n m e => if m == 0 then (infOf t n, fDZ) else divMag t mode n 1 0 m e

/-- R126: 1 / √L. -/
def fpRsq (t : Ty) (mode : Mode) (x : Nat) : Nat × Nat :=
  match decFp t x with
  | .nan s => (nanOf t, if s then fNV else 0)
  | .inf n => if n then (nanOf t, fNV) else (zeroOf t false, 0)
  | .fin n m e =>
    if m == 0 then (infOf t n, fDZ)
    else if n then (nanOf t, fNV)
    else
      let odd := e % 2 != 0
      let m' := if odd then 2 * m else m
      let e' : Int := if odd then e - 1 else e
      let k := 64 + Nat.log2 m'
      let v := 2 ^ (2 * k) / m'
      let r := isqrt v (Nat.log2 v / 2 + 1) 0
      roundMag t mode false false r (-(e' / 2) - k) (r * r * m' != 2 ^ (2 * k))

/-- Ordering key of finite and infinite values: comparison of two values that are not NaN. -/
def ltFp (x y : Fp) : Bool :=
  match x, y with
  | .nan _, _ => false
  | _, .nan _ => false
  | .inf a, .inf b => a && !b
  | .inf a, .fin _ _ _ => a
  | .fin _ _ _, .inf b => !b
  | .fin a m e, .fin b m' e' =>
    let q := if e < e' then e else e'
    decide (scaled a m e q < scaled b m' e' q)

def isNan : Fp → Bool
  | .nan _ => true
  | _ => false

def isSnan : Fp → Bool
  | .nan s => s
  | _ => false

def negOf : Fp → Bool
  | .nan _ => false
  | .inf n => n
  | .fin n _ _ => n

/-- R88, R126: min (or max) with −0 below +0; NV for a signalling NaN. -/
def fpMinMax (t : Ty) (max : Bool) (x y : Nat) : Nat × Nat :=
  let a := decFp t x
  let b := decFp t y
  if isNan a || isNan b then (nanOf t, if isSnan a || isSnan b then fNV else 0)
  else
    let less := ltFp a b || (!ltFp b a && negOf a && !negOf b)
    ((if less != max then x else y) % 2 ^ tyBits t, 0)

/-- R127: FCMP. -/
def fpCmp (t : Ty) (c : FltCond) (x y : Nat) : Bool × Nat :=
  let a := decFp t x
  let b := decFp t y
  let nan := isNan a || isNan b
  let lt := ltFp a b
  let gt := ltFp b a
  let sig := isSnan a || isSnan b
  match c with
  | .eq => (!nan && !lt && !gt, if sig then fNV else 0)
  | .ne => (nan || lt || gt, if sig then fNV else 0)
  | .lt => (!nan && lt, if nan then fNV else 0)
  | .le => (!nan && !gt, if nan then fNV else 0)
  | .gt => (!nan && gt, if nan then fNV else 0)
  | .ge => (!nan && !lt, if nan then fNV else 0)
  | .uno => (nan, if sig then fNV else 0)
  | .ord => (!nan, if sig then fNV else 0)

/-- R127: FCLASS. -/
def fpClass (t : Ty) (x : Nat) : Nat :=
  let sub := x / 2 ^ (fmtOf t).mb % 2 ^ (fmtOf t).eb == 0
  match decFp t x with
  | .nan s => if s then 256 else 512
  | .inf n => if n then 1 else 128
  | .fin n m _ =>
    if m == 0 then (if n then 8 else 16) else if sub then (if n then 4 else 32) else (if n then 2 else 64)

/-- A finite magnitude rounded to an integer by a mode, and whether that changed it. -/
def roundIntMag (mode : Mode) (neg : Bool) (m : Nat) (e : Int) : Nat × Bool :=
  if 0 ≤ e then (m * 2 ^ e.toNat, false)
  else
    let s := (-e).toNat
    let k := m / 2 ^ s
    let r := m % 2 ^ s
    (if roundAway mode neg (k % 2 == 1) false r s then k + 1 else k, r != 0)

/-- R80: integer rounding. -/
def fpToInt (t : Ty) (mode : Mode) (x : Fp) : Int × Nat :=
  match x with
  | .nan _ => (0, fNV)
  | .inf n => (if n then tyMin t else tyMax t, fNV)
  | .fin n m e =>
    let k := roundIntMag mode n m e
    let v : Int := if n then -(k.1 : Int) else k.1
    let c := clampInt (tyMin t) (tyMax t) v
    if c != v then (c, fNV) else (v, if k.2 then fNX else 0)

/-- R128: FRND. -/
def fpRnd (t : Ty) (mode : Mode) (x : Nat) : Nat × Nat :=
  match decFp t x with
  | .nan s => (nanOf t, if s then fNV else 0)
  | .inf n => (infOf t n, 0)
  | .fin n m e =>
    let k := roundIntMag mode n m e
    ((toFp t mode false (.fin n k.1 0)).1, if k.2 then fNX else 0)

/-- R88, R128: x × 2^n, rounded once. -/
def fpLdx (t : Ty) (mode : Mode) (x : Nat) (n : Int) : Nat × Nat :=
  match decFp t x with
  | .nan s => (nanOf t, if s then fNV else 0)
  | .inf a => (infOf t a, 0)
  | .fin a m e =>
    -- far outside every format's range the outcome no longer depends on n
    let n' := clampInt (-1000) 1000 n
    roundMag t mode false a m (e + n') false

/-- R128: FGETX. -/
def fpGetx (t : Ty) (x : Nat) : Int × Nat :=
  match decFp t x with
  | .nan _ => (0, fNV)
  | .inf _ => (2 ^ 31 - 1, fNV)
  | .fin _ m e => if m == 0 then (-(2 ^ 31), fNV) else ((Nat.log2 m : Int) + e, 0)

/-- An integer into a float format. -/
def intToFp (t : Ty) (mode : Mode) (sat : Bool) (i : Int) : Nat × Nat :=
  roundMag t mode sat (decide (i < 0)) i.natAbs 0 false

/-- R81: E8M0, by code. -/
def toE8 (mode : Mode) (x : Fp) : Nat × Nat :=
  match x with
  | .nan _ => (0xFF, fNV)
  | .inf n => if n then (0xFF, fNV) else (0xFE, fOF)
  | .fin n m e =>
    if n || m == 0 then (0xFF, fNV)
    else
      let l := Nat.log2 m
      let exact := m == 2 ^ l
      let up := match mode with
        | .rtz => false
        | .rdn => false
        | .rup => !exact
        | .rne => decide (3 * 2 ^ l ≤ 2 * m)
      let p : Int := (l : Int) + e + (if up then 1 else 0)
      let c := clampInt (-127) 127 p
      ((c + 127).toNat, (if c != p then (if p < c then fUF else fOF) else 0) + (if exact && c == p && !up then 0 else fNX))

/-! ## Functions bounded within one ulp -/

/-- ln 2 in units of 2^-160. -/
def ln2Fix : Nat := 1013035739299659071135698605846798551586536899366

/-- Terms of the exponential's series in units of 2^-160. -/
def expTerms (x : Int) : Nat → Nat → Int → Int → Int
  | 0, _, _, acc => acc
  | n + 1, k, term, acc =>
    let t := term * x / 2 ^ 160 / (k : Int)
    expTerms x n (k + 1) t (acc + t)

/-- 2^f in units of 2^-160, rounded down within 2^-150, for |f| ≤ 1. -/
def exp2Fix (neg : Bool) (m : Nat) (e : Int) : Nat :=
  let f : Int := scaled neg (if 0 ≤ e + 160 then m * 2 ^ (e + 160).toNat else m / 2 ^ (-(e + 160)).toNat) 0 0
  (expTerms (f * ln2Fix / 2 ^ 160) 48 1 (2 ^ 160) (2 ^ 160)).toNat

/-- One of a truncated value and its neighbour away from zero. -/
def neighbour (t : Ty) (up neg : Bool) (m : Nat) (e : Int) : Nat × Nat :=
  roundMag t (if up then (if neg then .rdn else .rup) else .rtz) false neg m e true

/-- R88, R128: LEXP2F and FEXP2F. -/
def fpExp2 (t : Ty) (x : Nat) : Nat × Nat :=
  match decFp t x with
  | .nan _ => (nanOf t, fNV)
  | .inf _ => (nanOf t, fNV)
  | .fin n m e =>
    if m == 0 then ((toFp t .rne false (.fin false 1 0)).1, 0)
    else
      let l : Int := (Nat.log2 m : Int) + e
      if l == 0 && m == 2 ^ Nat.log2 m then ((toFp t .rne false (.fin false 1 (if n then -1 else 1))).1, 0)
      else if 0 ≤ l then (nanOf t, fNV)
      else if l < -100 then
        -- the value lies between 1 and its neighbour on the side of f
        neighbour t (Config.expUp x) false (if n then 2 ^ 120 - 1 else 2 ^ 120) (-120)
      else neighbour t (Config.expUp x) false (exp2Fix n m e) (-160)

/-- Fraction bits of log2 y for y in [1, 2) held in units of 2^-256. -/
def logBits (y : Nat) : Nat → Nat → Nat
  | 0, acc => acc
  | n + 1, acc =>
    let y2 := y * y / 2 ^ 256
    if 2 ^ 257 ≤ y2 then logBits (y2 / 2) n (2 * acc + 1) else logBits y2 n (2 * acc)

/-- R169: LLOG2F. -/
def fpLog2 (x : Nat) : Nat × Nat :=
  match decFp .f32 x with
  | .nan s => (nanOf .f32, if s then fNV else 0)
  | .inf n => if n then (nanOf .f32, fNV) else (infOf .f32 false, 0)
  | .fin n m e =>
    if m == 0 then (infOf .f32 true, fDZ)
    else if n then (nanOf .f32, fNV)
    else
      let l := Nat.log2 m
      let k : Int := (l : Int) + e
      if m == 2 ^ l then intToFp .f32 .rne false k
      else
        let v : Int := k * 2 ^ 100 + (logBits (m * 2 ^ (256 - l)) 100 0 : Nat)
        if v < 0 then neighbour .f32 (Config.logUp x) true (-v - 1).toNat (-100)
        else neighbour .f32 (Config.logUp x) false v.toNat (-100)

/-! ## QN4 -/

/-- R65: the block scale t of code s and superscale S, as FP32 bits. -/
def qn4Scale (s S : Nat) : Nat := (toFp .f32 .rne false (mulFp (.fin false s 0) (decFp .f32 S)).1).1

/-- Whether |x| lies beyond the midpoint of levels j and j + 1 times |t|. -/
def qn4Beyond (x : Nat × Int) (t : Nat × Int) (j : Nat) : Bool :=
  -- compares 2 m_x 2^e with (level j + level (j + 1)) 2^-9 m_t 2^e'
  ltFp (.fin false ((qn4Level j + qn4Level (j + 1)) * t.1) (t.2 - 10)) (.fin false x.1 x.2)

/-- R66: the code of x against block scale t. -/
def qn4Code (x t : Fp) : Nat × Nat :=
  match x, t with
  | .fin n m e, .fin n' m' e' =>
    if m' == 0 then (0, 0)
    else if m == 0 then (0, 0)
    else
      let j := ((List.range 7).filter (qn4Beyond (m, e) (m', e'))).length
      ((if n != n' then 8 else 0) + j, 0)
  | .fin _ _ _, _ => (0, fNV)
  | _, .fin _ _ _ => (0, fNV)
  | _, _ => (0, fNV)

end Sys2Proof.Machine
end

