-- ==== Sys2Proof/Machine/State.lean ====
section
/-! DEFINITION. The state of one BZ9 package as plain data, the reasons a step can stop, and the state right after
reset. Every field's comment names the rule that gives it; its default is its value at reset. -/

namespace Sys2Proof.Machine

/-- Why a step stops where the spec gives no outcome. -/
inductive Fault where
  /-- A token was accepted for an operand that its target does not have (a port above the target's operands, or the
  port that IMMR supplies): R17 does not list it and no rule gives it an outcome. Raised by TOKEN_ACCEPT. Safe. DEDUCED (log 12). -/
  | noSuchOperand
  deriving DecidableEq, Repr

/-- Why an instruction has no meaning here. -/
inductive Refusal where
  /-- An instruction of the table whose meaning is not written yet. Safe. -/
  | notModelled (mnemonic : String)
  deriving DecidableEq, Repr

/-! ## Tokens and frames -/

/-- A value with what travels beside it: an operand, or the content of a slot. -/
structure Tok where
  /-- [R16; 64] VALUE. -/
  val : Word := 0
  /-- [R16; 3] KIND: 0 scalar, 1 tile handle, 2 continuation, 3 EOS, 4 poison, 5 decision. -/
  kind : Nat := 0
  /-- [R16; 4] PHASE. -/
  phase : Nat := 0
  /-- [R16; 8] RESIDUE. -/
  res : Nat := 0
  /-- [R16; 2] PRIO. -/
  prio : Nat := 0
  deriving DecidableEq, Repr

/-- Where a firing stands. -/
structure Site where
  /-- [R15; 8] Core. -/
  core : Nat := 0
  /-- [R245; 16] Context id. -/
  ctx : Nat := 0
  /-- [R16; 12] Frame. -/
  frame : Nat := 0
  /-- [R16; 2] Configuration slot. -/
  cslot : Nat := 0
  /-- [R16; 6] Block. -/
  block : Nat := 0
  /-- [R16; 7] Instruction within the block. -/
  node : Nat := 0
  /-- [R96; 4] Phase of the firing. -/
  phase : Nat := 0
  /-- [R16; 2] Priority of the firing's tokens. DEDUCED (log 31). -/
  prio : Nat := 0
  /-- [R324; 3] Class at which the firing was selected (4 is the handler queue). -/
  cls : Nat := 0
  /-- [R353; 1] The activation is a handler's. -/
  hnd : Bool := false
  /-- [R386; 1] The firing of a step. -/
  step : Bool := false
  deriving DecidableEq, Repr

/-- The firing in progress: what a token instruction reads. -/
structure Firing where
  /-- [R23] Where it fires. -/
  site : Site := {}
  /-- [R24; 128] Operand L. -/
  l : Tok := {}
  /-- [R24; 128] Operand R. -/
  r : Tok := {}
  /-- [R24; 128] Operand C. -/
  c : Tok := {}
  deriving DecidableEq, Repr

/-- What a tile is (R22, R131). -/
structure Shape where
  ty : Ty := .s8
  bg : Geom := .g0
  rows : Nat := 0
  cols : Nat := 0
  acc : Bool := false
  deriving DecidableEq, Repr

/-- A tile on its way between cores (R137): its compact byte array and residue. -/
structure TileImg where
  shape : Shape := {}
  bytes : List Host.Cell := []
  /-- [R137; 8] Tile residue. -/
  res : Nat := 0
  /-- [R137; 64] The source's run status word. -/
  status : Word := 0
  /-- [R137] Its departure: the sender's reference stands while that is listed in `State.departing`. DESIGN CHOICE (log 139). -/
  dep : Nat := 0
  deriving DecidableEq, Repr

/-- Where a token is going. -/
inductive Where where
  /-- To a frame (R16). -/
  | frame
  /-- To in-port `iport` of the slot that holds `cid`; `route` tells a route entry from SEND (R49, R108). -/
  | inport (iport cid : Nat) (route : Bool)
  /-- A Dispatcher injection into an instance of a context (R321). -/
  | inject (iport ctx inst : Nat)
  deriving DecidableEq, Repr

/-- A token somewhere in the machine. -/
structure QTok where
  /-- [R16; 128] Value, kind, phase, residue, priority. -/
  tok : Tok := {}
  /-- [R16; 8] CORE. -/
  core : Nat := 0
  /-- [R16; 12] FRAME. -/
  frame : Nat := 0
  /-- [R16; 2] CSLOT. -/
  cslot : Nat := 0
  /-- [R16; 6] BLOCK. -/
  block : Nat := 0
  /-- [R16; 7] INSTR. -/
  instr : Nat := 0
  /-- [R16; 2] PORT. -/
  port : Nat := 0
  /-- [R16; 10] ROUTE. -/
  route : Nat := 0
  /-- [R17; 12] Emitting package, core and context (network framing). -/
  epkg : Nat := 0
  ecore : Nat := 0
  ectx : Nat := 0
  /-- [R108] Tenant of the emitting context, as its seat in the network framing names it; none for what the Dispatcher injects. -/
  etenant : Option Nat := none
  /-- [R97, R301] Where it goes, when it may be accepted, and the stream in which it keeps its order. -/
  dst : Where := .frame
  due : Nat := 0
  stream : Nat := 0
  /-- [R137] The tile that travels with a handle to another core. -/
  tile : Option TileImg := none
  /-- [R326; clk] When it entered its FIFO. -/
  since : Nat := 0
  /-- [R392; 4] First comparator still to be tested; a held token stands unselected. -/
  bp : Nat := 0
  held : Bool := false
  /-- [R386] Selected by a step. -/
  step : Bool := false
  /-- [R394; clk] When it was accepted. -/
  accAt : Nat := 0
  /-- [R300] Order of its acceptance by the token engine. -/
  acc : Nat := 0
  /-- [R230, R231, R261] The slot that its arrival at an in-port bound it to, and the last CSEL it is held for. -/
  bound : Option Nat := none
  sel : Nat := 0
  deriving DecidableEq, Repr

/-- A frame slot (R31). -/
structure Slot where
  /-- [R31; 128] The parked operand. -/
  tok : Tok := {}
  /-- [R31; 3] PRES: [2] C, [1] R, [0] L. -/
  pres : Nat := 0
  /-- [R31; 2] VPORT. -/
  vport : Nat := 0
  /-- [R394; clk] When the first operand of the match parked. -/
  since : Nat := 0
  /-- [R408] An uncorrectable error, or a single-bit error, stands in the slot's word. -/
  ue : Bool := false
  ce : Bool := false
  deriving DecidableEq, Repr

/-- An activation's frame descriptor and slots (R252). -/
structure Frame where
  /-- [R252; 12] Frame number. -/
  num : Nat := 0
  /-- [R252; 16] Context. -/
  ctx : Nat := 0
  /-- [R252; 2] CSLOT. -/
  cslot : Nat := 0
  /-- [R252; 6] BLOCK. -/
  block : Nat := 0
  /-- [R252; 16] Remaining exits. -/
  exits : Nat := 0
  /-- [R252] Instance coordinates. -/
  inst : List Nat := []
  /-- [R110] Loop instance and iteration index. -/
  loop : Option Nat := none
  iter : Nat := 0
  /-- [R250] A fixed frame of its block. -/
  fixed : Bool := false
  /-- [R353] A handler activation. -/
  hnd : Bool := false
  /-- [R31; 256 × 128] Slots. -/
  slots : List Slot := []
  deriving DecidableEq, Repr

/-- Why a frame is asked for. -/
inductive FrameWhy where
  /-- FNEW (R104). -/
  | fnew
  /-- ITER for a loop instance (R110). -/
  | iter (loop : Nat)
  /-- An arrival at an in-port with FPOL 1 (R255). -/
  | arrival (iport : Nat)
  /-- A fixed frame of an admitted packet (R250). -/
  | admission (pkt : Nat)
  /-- A trap handler (R353). -/
  | handler
  /-- A restored frame (R334). -/
  | restore (f : Frame)
  deriving DecidableEq, Repr

/-- A request in a core's allocation FIFO (R254) or in a loop's PEND. -/
structure FrameReq where
  /-- The firing that asked, and where its continuation goes. -/
  site : Site := {}
  d0 : Dest := .none
  d1 : Dest := .none
  d2 : Dest := .none
  why : FrameWhy := .fnew
  /-- The context, slot, block and instance coordinates of the new frame. -/
  ctx : Nat := 0
  cslot : Nat := 0
  block : Nat := 0
  inst : List Nat := []
  /-- Node, port and value of each operand to deliver. -/
  give : List (Nat × Nat × Tok) := []
  /-- [R104] INSTR and PORT of the continuation. -/
  node : Nat := 0
  port : Nat := 0
  deriving DecidableEq, Repr

/-- A loop instance record (R110). -/
structure Loop where
  /-- Its number on the core. -/
  id : Nat := 0
  ctx : Nat := 0
  cslot : Nat := 0
  block : Nat := 0
  /-- [R110; 7] KB. -/
  kb : Nat := 1
  /-- [R110; 7] LIVE. -/
  live : Nat := 0
  /-- [R110] NEXTIX. -/
  nextix : Nat := 0
  /-- [R110] PEND. -/
  pend : List FrameReq := []
  deriving DecidableEq, Repr

/-! ## Tiles -/

/-- A matrix status record (R196). -/
structure MStat where
  /-- [R196; 8] STATUS. -/
  first : Nat := 0
  /-- [R196; 8] LAST. -/
  last : Nat := 0
  /-- [R196; 512] Failed rows. -/
  map : List Nat := []
  /-- [R196; 29] PASSES. -/
  passes : Nat := 0
  deriving DecidableEq, Repr

/-- A view's window on its underlying tile (R135). -/
structure View where
  base : Nat := 0
  row0 : Nat := 0
  col0 : Nat := 0
  deriving DecidableEq, Repr

/-- A live handle index (R130 to R135). -/
structure Tile where
  /-- [R22; 12] INDEX. -/
  idx : Nat := 0
  /-- [R133; 16] Owning context. -/
  ctx : Nat := 0
  shape : Shape := {}
  view : Option View := none
  /-- [R132; 16] Reference count. -/
  refs : Nat := 0
  /-- [R132; 1] Pinned. -/
  pinned : Bool := false
  /-- [R131; 64] Run status word. -/
  status : Word := 0
  /-- [R196] Matrix status record of an accumulator tile. DEDUCED (log 61). -/
  mstat : MStat := {}
  /-- [R445] The byte array; unlisted bytes are zero. -/
  bytes : List Host.Cell := []
  /-- [R408] Granules of the byte array with an uncorrectable error, and those with a single-bit error. -/
  ue : List Nat := []
  ce : List Nat := []
  deriving DecidableEq, Repr

/-- A request for tile space (R134). -/
structure TileReq where
  site : Site := {}
  d0 : Dest := .none
  d1 : Dest := .none
  d2 : Dest := .none
  shape : Shape := {}
  /-- 0: TALLOC, emitted at the grant; 1: a view; 2: an engine record; 3: an IFR entry; 4: a transfer (R137);
  5: a restored tile (R334). -/
  why : Nat := 0
  /-- TALLOC's ZERO; the record or entry that waits; the view; the arriving token. -/
  zero : Bool := false
  owner : Nat := 0
  view : Option View := none
  arrival : Option QTok := none
  saved : Option Tile := none
  deriving DecidableEq, Repr

/-- A core's tile resources. -/
structure TileUnit where
  /-- [R130] Live tiles and views. -/
  tiles : List Tile := []
  /-- [R22; 4,096 × 8] Generations that are not 0. -/
  gens : List (Nat × Nat) := []
  /-- [R134] The two FIFOs. -/
  fifo : List TileReq := []
  accFifo : List TileReq := []
  /-- [R334] Handle indices reserved to saved contexts. -/
  reserved : List (Nat × Nat) := []
  /-- [R140] What free granules, and free accumulator rows, still hold where it is not zero: one list of bytes for each. -/
  left : List (List Host.Cell) := []
  leftRows : List (List Host.Cell) := []
  deriving DecidableEq, Repr

/-! ## Engine commands -/

/-- One move of the copy engine or one piece of a request: what an event reads or writes at its home (R341). -/
inductive PieceOp where
  | read
  | write (bytes : List Byte)
  /-- An update of one element: 0 add, 1 and, 2 or, 3 xor, 4 min, 5 max, 6 exchange (R220, R215). -/
  | update (op : Nat) (ty : Ty) (operand : Nat)
  /-- R220, ACAS. -/
  | cas (width expected new : Nat)
  /-- R221, BAXPY: a and x. -/
  | axpy (ty : Ty) (a x : Nat)
  | bara (status : Nat)
  | barw (target : Nat)
  | acq (shared : Bool)
  | rel (shared : Bool)
  /-- Pipe operations 0 claim, 1 commit, 2 take, 3 return, 4 info, with the pipe number and count (R225). -/
  | pipe (op q n : Nat)
  deriving DecidableEq, Repr

/-- Where a byte range lies after translation. -/
inductive Loc where
  /-- Physical memory of R278 with the access's allocation tag and memory key (R406, R422). -/
  | mem (pa tag key : Nat)
  /-- A tile's byte array (R445). -/
  | tile (core idx off : Nat)
  /-- Host memory (R285). -/
  | host (pa : Nat)
  /-- A queue pair's remote offset (R439). -/
  | net (tenant qp off : Nat)
  deriving DecidableEq, Repr

/-- One event of a request or of a copy run. -/
structure Piece where
  place : Loc := .mem 0 0 0
  len : Nat := 0
  /-- Offset in the operation's buffer. -/
  off : Nat := 0
  op : PieceOp := .read
  /-- [R341] Further parts of the same 64-byte granule: place, length, offset, operation. -/
  more : List (Loc × Nat × Nat × PieceOp) := []
  deriving DecidableEq, Repr

/-- A watch unit (R237, R238). -/
structure Watch where
  /-- [R237; 64] WATCHn_BASE and the core that wrote it (R36, R376); of a BASE of 0, the core that wrote the unit last. -/
  base : Word := 0
  core : Nat := 0
  /-- [R237; 64] WATCHn_MASK. -/
  mask : Word := 0
  /-- [R238; 64] WATCHn_CTL. -/
  ctl : Word := 0
  deriving DecidableEq, Repr

/-- A watch unit with the physical address of each byte of its 16-byte range, as a check point holds it (R373, R374). -/
structure WatchAt where
  n : Nat := 0
  unit : Watch := {}
  places : List (Option Nat) := []
  deriving DecidableEq, Repr

/-- One destination granule of a copy run: read at `src` part by part, then write or reduce at `dst`. Of a weight load:
its source, which is read only. -/
structure Move where
  /-- The run it belongs to. -/
  run : Nat := 0
  src : List (Loc × Nat × Nat) := []
  dst : Loc := .mem 0 0 0
  len : Nat := 0
  /-- Bytes read so far; source parts still to be read stand in `src` with their length and offset. -/
  got : List Host.Cell := []
  /-- [R205; ns] When it was issued. -/
  since : Nat := 0
  /-- CRED: operation and type (R215). -/
  red : Option (Nat × Ty) := none
  /-- [R366; 24] Tag of the granule write. -/
  tag : Nat := 0
  /-- [R217] Access path of the destination, 0 to 6; 8 for host memory. -/
  path : Nat := 0
  /-- [R369] The source whole, to be read again by a reissue; the replay flag; performed after the freeze mark. -/
  src0 : List (Loc × Nat × Nat) := []
  rpl : Bool := false
  silent : Bool := false
  /-- [R204, R282] Parts asked of other packages: request, place in what it reads, length, offset; and the write's
  request. -/
  asked : List (Nat × Nat × Nat × Nat) := []
  sent : Option Nat := none
  /-- [R373, R374] Watch units that its reads have hit: context, unit; the units of its own context that its write still meets
  at HOME. -/
  hits : List (Nat × Nat) := []
  home : Option (List WatchAt) := none
  /-- [R369, R371] Reissued by a replay; its entry was unsettled. -/
  anew : Bool := false
  unset : Bool := false
  deriving DecidableEq, Repr

/-- A content key of a weight slot (R178). -/
structure WKey where
  tenant : Nat := 0
  /-- Class and identity: false, the physical address; true, core × 2^20 + GEN × 2^12 + INDEX. -/
  fromTile : Bool := false
  src : Nat := 0
  ty : Ty := .s8
  bg : Geom := .g0
  cmp : Comp := .dense
  gen : Nat := 0
  deriving DecidableEq, Repr

/-- The state of a physical weight slot (R179). -/
inductive WState where
  | empty | loading | ready | idle | failed
  deriving DecidableEq, Repr

/-- A physical weight slot (R176). -/
structure WSlot where
  state : WState := .empty
  key : WKey := {}
  /-- [R176] Bound logical slots: context and WS. -/
  bound : List (Nat × Nat) := []
  /-- [R179] Engine commands holding the slot, each row of a stream as one. -/
  holds : Nat := 0
  /-- [R180] Order of entry into IDLE among the slots of its core. -/
  idleAt : Nat := 0
  /-- [R176; 32 KiB] Element codes, row n by row, and [16 KiB] the scale store. -/
  elems : List (List Nat) := []
  scales : List Byte := []
  /-- [R176, R194] The column-sum store: the exact column sum of each k. -/
  sums : List Fp := []
  /-- [R408] An uncorrectable error, or a single-bit error, stands in the stores. -/
  ue : Bool := false
  ce : Bool := false
  /-- The record whose WLD loads it. -/
  loader : Nat := 0
  deriving DecidableEq, Repr

/-- What an engine command is. -/
inductive EngKind where
  /-- R145: bits written. -/
  | tfill (bits : Nat)
  | tcopy (toNew : Bool)
  | ttran
  /-- R163: vconfig number, tile B, output operand. -/
  | vrun (cfg : Nat) (b out : Option Tok)
  /-- R164: one stream; its rows wait in the record's queue. -/
  | vruns (cfg : Nat) (two : Bool)
  | wld (ws : Nat) (key : WKey) (scale : Option Word)
  /-- R187; `hold`: PAN set, with HOLD. -/
  | mma (arow acol koff : Nat) (zacc : Bool) (hold : Option Nat)
  /-- R190. -/
  | mmas (mode : Mode) (sat : Bool) (oty : Ty)
  /-- R191: tensor scale, mode, SAT, CLR, output type, output destination. -/
  | adrain (t : Nat) (mode : Mode) (sat clr : Bool) (oty : Ty) (target : Dest)
  | aclr
  /-- R212 to R215. -/
  | copy
  /-- R229: slot. The image stands in the record's buffer (`total` bytes), the region it claimed in `row`, its completion
  word in `word`. -/
  | cload (slot : Nat)
  deriving DecidableEq, Repr

/-- How far an engine command has come. -/
inductive EngStep where
  /-- Waits for its allocation, slot or pipelines. -/
  | waiting
  /-- In arbitration, or stopped by a freeze before it started. -/
  | queued
  | running
  /-- All work done; its completion has still to be emitted. -/
  | finishing
  deriving DecidableEq, Repr

/-- A row of an MMAS stream, its EOS, or poison that waits for the rows before it (R190, R302). -/
structure MmasRow where
  /-- Operands as fired; scale in FP32. -/
  l : Tok := {}
  r : Option Tok := none
  t : Nat := 0
  eos : Bool := false
  /-- Physical slots held, with their keys (slot 4: to be found again by its key). -/
  slots : List (Nat × WKey) := []
  /-- 0 waits, 1 issued, 2 computed; status when it failed; the row drained. -/
  phase : Nat := 0
  fail : Nat := 0
  codes : List Nat := []
  /-- [R328] Firing order. -/
  seq : Nat := 0
  /-- Poison that its firing forwards. -/
  poison : Option Tok := none
  deriving DecidableEq, Repr

/-- A beat held inside a delaying stage (R161): source values, result where it is known, secondary output as it entered. -/
structure HeldBeat where
  j : Nat := 0
  src : List (Option Nat) := []
  res : Option (List (Option Nat)) := none
  sec : List (Option Nat) := []
  deriving DecidableEq, Repr

/-- What a stage keeps (R161): registers for the run; the rest for the row. -/
structure StageState where
  /-- [R161; 4 × 16 × 32] x0 to x3, 16 lanes each. -/
  regs : List (List Nat) := List.replicate 4 (List.replicate 16 0)
  /-- [R161] The beats held inside it. -/
  held : List HeldBeat := []
  /-- [R170] LRED and LSCAN: what stands so far; LBCAST: element 0. -/
  tot : Option Nat := none
  /-- [R175] LQNT: the block's scale; LCBK: s and S. -/
  sc : Nat := 0
  super : Nat := 0
  deriving DecidableEq, Repr

/-- A chain of pipelines at work in a run (R159, R161). -/
structure ChainPos where
  /-- [R161] Row of the run and next beat of that row. -/
  row : Nat := 0
  j : Nat := 0
  /-- [R136] Granules of the row read so far: tile A (0) or B (1), granule, bytes. -/
  got : List (Nat × Nat × List Byte) := []
  /-- [R161] Stage states: for each pipeline that of its entry, then its six stages. -/
  sts : List StageState := []
  deriving DecidableEq, Repr

/-- A row of a run at the tile writer, not yet written whole (R163). -/
structure OutRow where
  r : Nat := 0
  /-- Element codes so far; [R175] the scale channel: block and byte, and S. -/
  codes : List Nat := []
  scales : List (Nat × Nat) := []
  super : Nat := 0
  full : Bool := false
  /-- [R136] Granules still to be written. -/
  todo : List Nat := []
  deriving DecidableEq, Repr

/-- A run in progress on the vector fabric (R161). -/
structure Run where
  /-- [R157] N. -/
  n : Nat := 0
  chains : List ChainPos := []
  outs : List OutRow := []
  /-- [R163] Granules that the run has written where it also reads, with their bytes of before the run. -/
  wrote : List (Nat × List Byte) := []
  /-- [R160] The chain whose failing beat has still to end. -/
  failing : Option Nat := none
  deriving DecidableEq, Repr

/-- A row token of a VRUNS stream, its EOS, or poison that waits for the rows before it (R164). -/
structure RowTok where
  /-- [R164; 128] L and, in the two-operand form, R. -/
  a : Tok := {}
  b : Option Tok := none
  /-- [R158] Class at which its firing was selected, and its firing order. -/
  cls : Nat := 0
  seq : Nat := 0
  /-- Poison that its firing emits. -/
  poison : Option Tok := none
  deriving DecidableEq, Repr

/-- State that a vector stream keeps between rows (R164), and a run of VRUN while it runs. -/
structure Stream where
  opened : Bool := false
  /-- [R161, R164] Stage registers, positions and rows at the tile writer. -/
  run : Run := {}
  /-- Rows taken so far by the pattern sources; elements stored so far by each pipeline's pattern sink. -/
  rowsDone : Nat := 0
  sunk : List (Nat × Nat) := []
  /-- Output tiles granted to rows that wait, in row order. -/
  outs : List Nat := []
  /-- [R190] Rows of an MMAS stream that have not left; handles of output rows that may still be on their way. -/
  mrows : List MmasRow := []
  sent : List Word := []
  /-- [R165] Its activation has completed: rows already fired complete, and the stream closes. -/
  closing : Bool := false
  /-- [R166] Rows, beats, flags so far. -/
  beats : Nat := 0
  flags : Nat := 0
  /-- Handle index of the state tile. -/
  stateTile : Option Nat := none
  /-- Rows fired and not yet run; EOS closes. -/
  rows : List RowTok := []
  deriving DecidableEq, Repr

/-- A TLB entry (R294): die, tenant, page address, page size, leaf, package of the page. -/
structure Tlb where
  die : Nat := 0
  tenant : Nat := 0
  va : Nat := 0
  size : Nat := 0
  leaf : Word := 0
  pkg : Nat := 0xFFF
  deriving DecidableEq, Repr

/-- An extent record (R292). -/
structure Extent where
  /-- [R292; 1] V. -/
  v : Bool := false
  /-- [R292; 2] KIND. -/
  kind : Nat := 0
  /-- [R292; 8] CID. -/
  cid : Nat := 0
  /-- [R292; 9] FA. -/
  fa : Nat := 0
  /-- [R292; 4] ATAG. -/
  atag : Nat := 0
  /-- [R292; 2] PERM. -/
  perm : Nat := 0
  /-- [R292; 1] PS. -/
  ps : Nat := 0
  /-- [R292; 64] LENGTH. -/
  len : Nat := 0
  /-- [R292; 64] VBASE. -/
  vbase : Nat := 0
  /-- [R292; up to 64 × 56] Chunks. -/
  chunks : List Nat := []
  /-- [R293; 1] ENC of the leaves. -/
  enc : Bool := false
  deriving DecidableEq, Repr

/-- An engine-command record (R367). -/
structure Eng where
  /-- [R367; 6] Record number. -/
  idx : Nat := 0
  /-- Firing order on the core. -/
  seq : Nat := 0
  site : Site := {}
  d0 : Dest := .none
  d1 : Dest := .none
  d2 : Dest := .none
  /-- [R366; 9] OPC. -/
  opc : Nat := 0
  /-- [R367; 24] Tag of the completion arrival, and tag base of granule writes. -/
  tag : Nat := 0
  tagBase : Nat := 0
  /-- [R366; 7] Tags of the block for granule writes. -/
  tagN : Nat := 0
  /-- [R367; 3] STATE as in IFR word 1. -/
  st : Nat := 1
  /-- [R367; 8] First failing status. -/
  fail : Nat := 0
  /-- [R367; 3 × 64] Operands as fired. -/
  l : Tok := {}
  r : Tok := {}
  c : Tok := {}
  /-- [R367; 64] Physical address of CWORD; in two parts where it lies in two pages. -/
  cword : Option Piece := none
  kind : EngKind := .ttran
  step : EngStep := .waiting
  /-- The output tile allocated. -/
  out : Option Nat := none
  /-- [R367; 48] Copy: run to issue next, of how many; moves issued and not performed; bytes read (CLOAD). -/
  pos : Nat := 0
  total : Nat := 0
  moves : List Move := []
  buf : List Host.Cell := []
  /-- Granules of the run before `pos` that are not issued yet. -/
  todo : List Move := []
  /-- [R136] Granules that a TFILL, TCOPY or TTRAN has still to write, or to read. -/
  work : List Nat := []
  /-- Granule writes issued so far (R366). -/
  writes : Nat := 0
  /-- Matrix: next row to issue (of `total`); rows in the write buffer, each with 1 when it was corrupted (R402). -/
  row : Nat := 0
  inflight : List (Nat × Nat) := []
  /-- [R187] Physical weight slots held, with their keys (slot 4: to be found again by its key, R189). -/
  slots : List (Nat × WKey) := []
  /-- [R328] Copy: the turn at which its last run was issued; [R198] its Pan group. -/
  arb : Nat := 0
  pan : Option Nat := none
  /-- Stream state of VRUNS and MMAS. -/
  stream : Stream := {}
  /-- [R375] Stopped by a copy-path watch hit: watch unit, granules still allowed. DESIGN CHOICE (log 66). -/
  watch : Option (Nat × Nat) := none
  /-- [R295] Stalled on this fault record or walk; the translations of the run that it forms. DEDUCED (log 85). -/
  stall : Option Nat := none
  trans : List Tlb := []
  /-- [R387] Runs as the command of a step. -/
  stepped : Bool := false
  /-- [R241] The extents of its context as they stood at its firing. -/
  exts : List Extent := []
  /-- [R53] A CLOAD that has taken its slot. -/
  claimed : Bool := false
  /-- [R397] Fired by a node under R26: start and completion are traced. -/
  trc : Bool := false
  /-- The result of a command: its completion word; of a stream's row the beats before it (R166). -/
  word : Word := 0
  before : Nat := 0
  deriving DecidableEq, Repr

/-- A waiting or closed group of the Pan (R198). -/
structure PanGroup where
  id : Nat := 0
  key : WKey := {}
  /-- Members: record numbers in arrival order. -/
  members : List Nat := []
  rows : Nat := 0
  /-- [R198; ns] Deadline parts: arrival of the oldest, smallest hold limit. -/
  first : Nat := 0
  hold : Nat := 0
  closed : Bool := false
  /-- [R198, R328] Its place in the firing order: that of its closing. -/
  arb : Nat := 0
  deriving DecidableEq, Repr

/-- Who waits in the weight-slot FIFO: a command by its record, or a restore, by context and slot number at the save (R334). -/
inductive WAsk where
  | cmd (recd : Nat)
  | back (ctx slot : Nat)
  deriving DecidableEq, Repr

/-- The engines of a core. -/
structure Engines where
  /-- [R138; 64 × 1,024] Engine-command records in use. -/
  recs : List Eng := []
  /-- Next firing order. -/
  seq : Nat := 0
  /-- [R176; 4] PW0 to PW3. -/
  pw : List WSlot := [{}, {}, {}, {}]
  /-- [R180, R334] The weight-slot FIFO. -/
  wFifo : List WAsk := []
  /-- [R186; 8] Status of each context's last WLD on a logical slot: context, WS, status. -/
  wStat : List (Nat × Nat × Nat) := []
  /-- [R188] What the matrix engine issues: a record, or a group's members. -/
  matrix : List Nat := []
  /-- [R440] The last window of 16 clk in which a row issued, and the rows issued in it. -/
  rowsIn : Nat × Nat := (0, 0)
  /-- [R328] Turns of the copy engine so far; [R180] entries into IDLE so far. -/
  arbSeq : Nat := 0
  idleSeq : Nat := 0
  /-- [R188; 32] Accumulator write buffer: the record of each row issued and not committed, oldest first. -/
  wbuf : List Nat := []
  /-- [R198] Pan groups. -/
  pan : List PanGroup := []
  panSeq : Nat := 0
  /-- [R158] Pipelines and scratch units taken: record, LPMASK, SBMASK. -/
  taken : List (Nat × Nat × Nat) := []
  /-- [R149; 8 × 128 KiB] Scratch words that are not 0: unit × 32,768 + word. -/
  scratch : List (Nat × BitVec 32) := []
  /-- [R408] Scratch words with an uncorrectable error, and those with a single-bit error. -/
  scratchUe : List Nat := []
  scratchCe : List Nat := []
  deriving DecidableEq, Repr

/-! ## In-flight operations -/

/-- How far a walk of a tenant's tables has come (R287). -/
structure WalkPos where
  /-- Levels still to be read, and the table of the next (none: the tenant's root). -/
  left : Nat := 4
  table : Option Nat := none
  /-- [R286] A 64 KiB leaf, and how many of its 16 entries are still to be compared with it. -/
  leaf : Option Nat := none
  same : Nat := 0
  deriving DecidableEq, Repr

/-- A range of a tenant's memory that an access of the device has still to translate and reach. DESIGN CHOICE (log 176). -/
structure Reach where
  /-- [R283; 48] The next byte's virtual address. -/
  va : Nat := 0
  /-- Bytes, and the offset of the first in the access. -/
  len : Nat := 8
  off : Nat := 0
  /-- [R285] The PERM bits that it needs. -/
  need : Nat := 1
  /-- What it does; a write's bytes are those of the whole access. -/
  op : PieceOp := .read
  /-- [R294, R431] It goes through ID0's translation service. -/
  tlb : Bool := false
  pos : WalkPos := {}
  deriving DecidableEq, Repr

/-- What an access of the device to a tenant's memory is for. -/
inductive Visit where
  /-- [R305] 8 bytes of the packet at HEAD of a queue: queue, packet number, offset. -/
  | packet
  /-- [R323] The header (0) or the whole (1) of a configuration image, or a load's completion word (2): packet. -/
  | load (stage : Nat)
  /-- [R321] Argument word 0: packet. -/
  | arg
  /-- [R227] The packet of a QPUT into its slot: queue, request, context. -/
  | slot
  /-- [R433] A fault record. -/
  | fault (vf : Nat)
  /-- [R431] An access through a window. -/
  | host (vf : Nat) (write : Bool)
  deriving DecidableEq, Repr

/-- What a request is for, once its pieces have performed. -/
inductive ReqKind where
  /-- LD of a type (R208). -/
  | ld (ty : Ty)
  | st
  | ldt
  | stt
  /-- AOP, ACAS: width and type of the old value. -/
  | atomic (ty : Ty)
  | bank
  | bara
  | barw
  | acq
  | rel
  | pipe (op q : Nat)
  /-- QPUT: queue, packet bytes (R227). -/
  | qput (queue : Nat) (bytes : List Byte)
  /-- The completion arrival of an engine command, or of the Dispatcher (R222, R265); a Dispatcher's raises MSI-X
  vector 3 of tenant `after - 1` once it has performed (R432). -/
  | arrive (after : Nat)
  /-- A part of a granule that an engine record tracks, on another package (R204, R205). -/
  | part
  /-- An access of the Dispatcher or of the host port (R305, R321, R323, R431, R433), or a QPUT's write. -/
  | visit (v : Visit)
  deriving DecidableEq, Repr

/-- An IFR entry with its request (R204, R366). -/
structure Req where
  /-- Serial number; for another package's request also the number it bears there. A request of package p's context
  c has 2^16 × (p + 1) + c as its context. -/
  id : Nat := 0
  far : Nat := 0
  /-- [R240; 10] Entry number on its core and context. -/
  idx : Nat := 0
  site : Site := {}
  d0 : Dest := .none
  d1 : Dest := .none
  d2 : Dest := .none
  /-- [R366; 9] OPC. -/
  opc : Nat := 0
  /-- [R366; 2] CLASS: 1 A, 2 B, 3 C. -/
  cls : Nat := 1
  /-- [R366; 24] TAG. -/
  tag : Nat := 0
  /-- [R366; 3] STATE. -/
  st : Nat := 1
  /-- [R366; 1] RPL. -/
  rpl : Bool := false
  /-- [R366; 56] PADDR. -/
  paddr : Nat := 0
  /-- [R366; 64] OPA, OPB. -/
  opa : Word := 0
  opb : Word := 0
  kind : ReqKind := .st
  /-- Handle operands held to completion. -/
  hold : List Tok := []
  out : Option Nat := none
  /-- Events still to perform, and whether in the order given (R206). -/
  pieces : List Piece := []
  ordered : Bool := false
  /-- [R136] Of an LDT whose bytes have come: the granules of its tile that are still to be written. -/
  work : Option (List Nat) := none
  /-- [R369] The events as issued, for a class A request issued anew. -/
  pieces0 : List Piece := []
  /-- [R219; 1] RTRY. -/
  rtry : Bool := false
  /-- [R205; ns] First issue and last issue. -/
  first : Nat := 0
  last : Nat := 0
  /-- Bytes read. -/
  got : List Host.Cell := []
  /-- Status, result and whether the response is on its way. -/
  status : Nat := 0
  result : Word := 0
  done : Bool := false
  /-- [R360] Performed after the freeze mark: no response is sent. -/
  silent : Bool := false
  /-- [R370] The node has looked up a replayed request's tag; [R361] its entry was unsettled. -/
  seen : Bool := false
  unset : Bool := false
  /-- [R222, R223, R226] Held in its node's wait queue; order of arrival there. -/
  waits : Bool := false
  arrived : Nat := 0
  /-- [R222] A BARW whose condition held at a write. -/
  go : Bool := false
  /-- [R223] Requests that a REL waits for, engine commands that fired before it, and the bound ranges. -/
  before : List Nat := []
  beforeEng : List Nat := []
  ranges : List (Nat × Nat) := []
  /-- [R355] Address operand. -/
  addr : Word := 0
  /-- [R373] Watch units that have been hit: context, unit. -/
  hits : List (Nat × Nat) := []
  /-- [R374] The units of its own context that it still meets at HOME, as they stood at its firing. -/
  home : Option (List WatchAt) := none
  /-- [R350] Held by a precise watch hit. -/
  watch : Bool := false
  /-- [R386] Sent by a step. -/
  stepped : Bool := false
  /-- [R204] Held by an engine record or the Dispatcher rather than by a firing. -/
  noEntry : Bool := false
  /-- The tenant whose memory it reaches; [R426] the job that another package's request names, with its tenant. -/
  tenant : Nat := 0
  job : Nat := 0
  /-- [R329; 4 each] Phases of the operands consumed. -/
  phases : List Nat := []
  /-- [R316] A Dispatcher's arrival: queue, packet number, status; [R310] its test of a barrier record: packet, record, 0;
  what a visit belongs to. -/
  disp : Option (Nat × Nat × Nat) := none
  /-- [R287] What is still to be translated. -/
  reach : Option Reach := none
  deriving DecidableEq, Repr

/-- An entry of a duplicate-suppression table (R205, R370). -/
structure Logged where
  node : Nat := 0
  /-- Source package, core and context. -/
  pkg : Nat := 0
  core : Nat := 0
  ctx : Nat := 0
  /-- [R368; 24] TAG. -/
  tag : Nat := 0
  /-- [R368; 64] RESULT. -/
  result : Word := 0
  /-- [R368; 8] STATUS. -/
  status : Nat := 0
  /-- [R368; 12] Of an entry that another package sent: the node's number there. -/
  num : Nat := 0
  /-- [R382] The job, with its tenant. -/
  job : Nat := 0
  /-- [R205; ns] When it was logged. -/
  logged : Nat := 0
  deriving DecidableEq, Repr

/-! ## Traps -/

/-- A raised trap that waits for its handler (R350, R351). -/
structure Trap where
  /-- [R350; 8] Cause code. -/
  cause : Nat := 0
  core : Nat := 0
  site : Site := {}
  /-- [R354; 16] CODE. -/
  code : Nat := 0
  /-- [R355] Details A and B; A may keep its kind. -/
  a : Tok := {}
  b : Word := 0
  /-- TRAP_SW: destinations of the TRAP; other causes: the item held. -/
  d0 : Dest := .none
  d1 : Dest := .none
  d2 : Dest := .none
  item : Nat := 0
  tok : Option QTok := none
  /-- [R384; ns] When it was raised; [R351] its place among the traps raised on the package. -/
  raised : Nat := 0
  order : Nat := 0
  deriving DecidableEq, Repr

/-! ## Contexts -/

/-- The registers of a context that are saved with it (R237, R363). -/
structure CtxRegs where
  /-- [R238; 2] CTX_PRIO.BASE; raises held (R318). -/
  base : Nat := 0
  raises : List Nat := []
  /-- [R77; 5] FPFLAGS. -/
  fpflags : Nat := 0
  /-- [R246; 8] CTX_STATUS.STATUS. -/
  status : Nat := 0
  /-- [R246; 8] CTX_STATUS.CHILD. -/
  child : Nat := 0
  /-- [R246; 16] CTX_STATUS.ORPHANS. -/
  orphans : Nat := 0
  /-- [R246; 8] CTX_STATUS.PINNED. -/
  pinned : Nat := 0
  /-- [R246; 8] CTX_STATUS.QUAR. -/
  quar : Nat := 0
  /-- [R246; 16] CTX_STATUS.KIDS. -/
  kids : Nat := 0
  /-- [R237; 64] WDOG_LIMIT. -/
  wdog : Nat := 0x1000000
  /-- [R237; 64] REMOTE_TMO. -/
  tmo : Nat := 100000
  /-- [R237; 64] HIST_SPILL_BASE. -/
  hist : Word := 0
  /-- [R237; 64] TRACE_BUF. -/
  trace : Word := 0
  /-- [R237; 12 × 64] Watch units 0 to 3. -/
  watch : List Watch := [{}, {}, {}, {}]
  /-- [R239; 15 × 64] Context counters of PERF by number. -/
  perf : List (Nat × Nat) := []
  /-- [R395] LOST. -/
  lost : Nat := 0
  deriving DecidableEq, Repr

/-- A DRAIN or QWAIT that waits (R217, R228). -/
structure Wait where
  site : Site := {}
  d0 : Dest := .none
  d1 : Dest := .none
  d2 : Dest := .none
  /-- DRAIN: path, and the records it covers. QWAIT: the children it counts. SETC of a watch register: its number, and the
  packages that have still to answer. -/
  path : Nat := 0
  on : List Nat := []
  count : Nat := 0
  deriving DecidableEq, Repr

/-- A child launch of a context (R264, R228). -/
structure Child where
  queue : Nat := 0
  seq : Nat := 0
  done : Bool := false
  status : Nat := 0
  /-- Completion order. -/
  order : Nat := 0
  deriving DecidableEq, Repr

/-- Where a context stands. -/
inductive CtxMode where
  /-- Granted and not yet placed (R315). -/
  | building
  | running
  /-- Frozen by a halt or a pre-emption request (R359), settling. -/
  | frozen
  | saved
  /-- Restoring: waits for its requests (R334). -/
  | restoring
  deriving DecidableEq, Repr

/-- A histogram entry (R395). -/
structure Hist where
  pos : Nat := 0
  ctx : Nat := 0
  cslot : Nat := 0
  block : Nat := 0
  node : Nat := 0
  /-- [R395; 8 × 24] Counters. -/
  counts : List Nat := [0, 0, 0, 0, 0, 0, 0, 0]
  deriving DecidableEq, Repr

/-- What a save area holds of a context (R363): core by core, beside what stays in the context itself. -/
structure Saved where
  /-- [R364; 256] The area's local address and SIZE, and SETTLE. -/
  base : Nat := 0
  size : Nat := 0
  settle : Nat := 0
  /-- [R364] Firmware version under which it was written. -/
  version : Nat := 0
  /-- Tokens with core and class, in order. -/
  toks : List (Nat × Nat × QTok) := []
  frames : List (Nat × Frame) := []
  loops : List (Nat × Loop) := []
  asks : List (Nat × FrameReq) := []
  tiles : List (Nat × Tile) := []
  tileAsks : List (Nat × TileReq) := []
  /-- Engine records with the pipelines and scratch units they held, and the units' words. -/
  engs : List (Nat × Eng × Nat × Nat) := []
  scratch : List (Nat × Nat × BitVec 32) := []
  scratchUe : List (Nat × Nat) := []
  /-- Weight slots that its logical slots or commands use: core, number, content. -/
  weights : List (Nat × Nat × WSlot) := []
  /-- [R334] Those that a restore has been granted: core, number then, number now. -/
  placed : List (Nat × Nat × Nat) := []
  wstat : List (Nat × Nat × Nat) := []
  reqs : List Req := []
  log : List Logged := []
  hist : List (Nat × Hist) := []
  deriving DecidableEq, Repr

/-- A context (R244, R245). -/
structure Ctx where
  /-- [R245; 16] Id. -/
  id : Nat := 0
  /-- [R245; 4] Tenant. -/
  tenant : Nat := 0
  /-- [R245; 16] Job. -/
  job : Nat := 0
  /-- [R261] Region home, slot and CID it runs in. -/
  home : Nat := 0
  cslot : Nat := 0
  cid : Nat := 0
  /-- [R262] Admission order. -/
  order : Nat := 0
  /-- [R244; 4] Seat on each core: core, seat. -/
  seats : List (Nat × Nat) := []
  regs : CtxRegs := {}
  /-- [R289; 16] Extents. -/
  extents : List Extent := []
  /-- [R225] Pipes q0 to q15: pipe number, physical address of the descriptor. -/
  pipes : List (Nat × Nat) := []
  /-- [R241] Bindings: object (physical), first and last bytes of its physical ranges. -/
  binds : List (Nat × List (Nat × Nat)) := []
  /-- [R247] Levels: kind, count, scope. -/
  levels : List (Nat × Nat × Nat) := []
  /-- [R250] Fixed frames: block, instance, core, frame. -/
  fixed : List (Nat × Nat × Nat × Nat) := []
  mode : CtxMode := .running
  /-- [R366; 24] Tag counter of each core: core, next. -/
  tags : List (Nat × Nat) := []
  /-- [R358; clk] Watchdog counters: core, count, whether it has expired. -/
  wdogs : List (Nat × Nat × Bool) := []
  /-- [R351] Traps held, oldest first, and the one whose handler is live. -/
  traps : List Trap := []
  handler : Option Trap := none
  /-- [R217, R228] Waiting DRAINs and QWAITs. -/
  drains : List Wait := []
  qwaits : List Wait := []
  /-- [R374] SETCs of watch registers that wait for nodes of other packages to hold the setting. -/
  watchWaits : List Wait := []
  /-- [R264] Children, parent context, and the launch id it came from. -/
  kids : List Child := []
  parent : Option Nat := none
  queue : Nat := 0
  seq : Nat := 0
  pkt : Nat := 0
  /-- [R265; 48] CWORD, virtual. -/
  cword : Nat := 0
  /-- [R361] Fences awaited: core, node; settling ended; [R359; ns] start of the freeze. -/
  fences : List (Nat × Nat) := []
  settled : Bool := true
  froze : Nat := 0
  /-- [R394; clk] When it froze, by core. -/
  frozenAt : List (Nat × Nat) := []
  /-- [R359] Marks and drain markers already taken: node; core, node. -/
  marks : List Nat := []
  markers : List (Nat × Nat) := []
  /-- [R363] The save area. -/
  saved : Saved := {}
  deriving DecidableEq, Repr

/-! ## Cores -/

/-- The core registers of R237 and their companions. -/
structure CoreRegs where
  /-- [R237; 64] TIMER_CMP, and whether the trap of the last write is still to come. -/
  timerCmp : Word := BitVec.allOnes 64
  timerArmed : Bool := false
  /-- [R351] TIMER traps raised and not entered: order among the traps raised, and the instant in ns. -/
  timers : List (Nat × Nat) := []
  /-- [R238; 8] RAS_INJECT.COUNT. -/
  rasCount : Nat := 0
  /-- [R238; 4] RAS_INJECT.TARGET. -/
  rasTarget : Nat := 0
  /-- [R237; 64] PAN_HOLD. -/
  panHold : Nat := 1000
  /-- [R239; 64 each] Core counters of PERF by number. -/
  perf : List (Nat × Nat) := []
  deriving DecidableEq, Repr

/-- An edge breakpoint comparator (R392). -/
structure Brk where
  /-- [R392; 64] TOK. -/
  tok : Word := 0
  /-- [R392; 64] TMASK. -/
  tmask : Word := 0
  /-- [R392; 64] VAL. -/
  val : Word := 0
  /-- [R392; 64] VMASK. -/
  vmask : Word := 0
  /-- [R392; 64] CTL. -/
  ctl : Word := 0
  /-- [R392, R428] The job whose SETBRK wrote it. -/
  job : Nat := 0
  deriving DecidableEq, Repr

/-- The token engine of a core. -/
structure TokUnit where
  /-- [R324] Handler queue and FIFOs 0 to 3, spilled tokens at the tails (R327). -/
  handlerQ : List QTok := []
  fifo0 : List QTok := []
  fifo1 : List QTok := []
  fifo2 : List QTok := []
  fifo3 : List QTok := []
  /-- [R255] In-port input buffers, in arrival order; [R230] held arrivals stand here too. -/
  inq : List QTok := []
  /-- [R97; clk] When the divide units are free: integer, float. -/
  idiv : Nat := 0
  fdiv : Nat := 0
  /-- [R300] Tokens accepted so far. -/
  accSeq : Nat := 0
  /-- [R440] The last window of 16 clk with a selection, and the selections made in it. -/
  fired : Nat × Nat := (0, 0)
  deriving DecidableEq, Repr

/-- The frame store of a core. -/
structure FrameUnit where
  /-- [R252] Live frames. -/
  frames : List Frame := []
  /-- [R253; 4,096 × 12] Free list. -/
  free : List Nat := List.range 4096
  /-- [R110] Loop instance records. -/
  loops : List Loop := []
  loopSeq : Nat := 0
  /-- [R254] The allocation FIFO. -/
  fifo : List FrameReq := []
  /-- [R334] Frame numbers reserved to saved contexts: context, frame. -/
  reserved : List (Nat × Nat) := []
  deriving DecidableEq, Repr

/-- One core. -/
structure Core where
  /-- [R423] Owner, R413 failed mark. -/
  tenant : Option Nat := none
  /-- [R413] Marked failed by management firmware. DEDUCED (log 127). -/
  failed : Bool := false
  /-- [R29; 4 × 64 × 64] Descriptor words that are not 0: slot × 64 + block. -/
  desc : List (Nat × Word) := []
  /-- [R30; 512 KiB] Code words that are not 0: slot × 8,192 + block × 128 + i. -/
  code : List (Nat × IWord) := []
  /-- [R408] Code words with an uncorrectable error, and those with a single-bit error; a word of the descriptor array counts
  from 32,768. -/
  codeUe : List Nat := []
  codeCe : List Nat := []
  regs : CoreRegs := {}
  tok : TokUnit := {}
  frm : FrameUnit := {}
  tile : TileUnit := {}
  eng : Engines := {}
  /-- [R395; 1,024] Histogram store. -/
  hist : List Hist := []
  /-- [R392; 8] Comparators. -/
  brk : List Brk := [{}, {}, {}, {}, {}, {}, {}, {}]
  /-- [R398] Trace state of each buffer: context, GTC of the last record, GTC of the last GTC record. -/
  traced : List (Nat × Nat × Nat) := []
  deriving DecidableEq, Repr

/-! ## Regions and configurations -/

/-- State of a configuration slot (R259). -/
inductive SlotState where
  | empty | loading | armed | active | freeing
  deriving DecidableEq, Repr

/-- A configuration slot of a region with the records CLOAD wrote. -/
structure CSlot where
  /-- [R259] State. -/
  state : SlotState := .empty
  /-- [R45; 8] CID. -/
  cid : Nat := 0
  /-- [R150] Vconfig records, by VID: header then pipeline records as bytes. -/
  vcfg : List (Nat × List Byte) := []
  /-- [R211; 512 each] Pattern records. -/
  pats : List (List Byte) := []
  /-- [R48; 64 each] In-port bindings. -/
  inports : List Word := []
  /-- [R49; 64 each] Route entries. -/
  routes : List Word := []
  /-- [R47] Placement: block, core. -/
  placed : List (Nat × Nat) := []
  deriving DecidableEq, Repr

/-- A pending CSEL, CSWT or CFREE (R233). -/
structure Switch where
  /-- 0 CSEL, 1 CSWT, 2 CFREE; of a CSEL its number in the region, from 1. -/
  op : Nat := 0
  no : Nat := 0
  slot : Nat := 0
  /-- [R231; ns] T. -/
  instant : Nat := 0
  site : Site := {}
  d0 : Dest := .none
  d1 : Dest := .none
  d2 : Dest := .none
  deriving DecidableEq, Repr

/-- A PHCLOSE that waits (R115). -/
structure PhWait where
  ph : Nat := 0
  tok : Tok := {}
  site : Site := {}
  d0 : Dest := .none
  d1 : Dest := .none
  d2 : Dest := .none
  /-- Quiet sweeps seen in succession. -/
  quiet : Nat := 0
  deriving DecidableEq, Repr

/-- A region (R251). -/
structure Region where
  /-- [R251; 8] Home core. -/
  home : Nat := 0
  /-- [R251] Cores, ascending. -/
  cores : List Nat := []
  tenant : Nat := 0
  /-- [R259; 4] Slots. -/
  slots : List CSlot := [{}, {}, {}, {}]
  /-- [R230; 16] Switch count. -/
  switches : Nat := 0
  /-- [R230 to R233] CSELs, CSWTs and CFREEs that wait, in order; CSELs so far that hold arrivals. -/
  waits : List Switch := []
  selSeq : Nat := 0
  /-- [R330] Tokens of each phase gained so far, and the count the last sweep saw. -/
  gained : List (Nat × Nat) := []
  /-- DEDUCED (log 46). -/
  swept : List (Nat × Nat) := []
  /-- [R115] Waiting PHCLOSEs. -/
  closes : List PhWait := []
  /-- [R104] Free frames of each core as last carried by the control network: core, descriptors, groups. -/
  freeSeen : List (Nat × Nat × Nat) := []
  /-- [R319] The admission FIFO: packets. -/
  admitq : List Nat := []
  deriving DecidableEq, Repr

/-! ## Dispatcher, Cairn, host, platform -/

/-- Registers of a hardware queue (R304). -/
structure Queue where
  /-- [R304; 64] QBASE. -/
  base : Word := 0
  /-- [R304; 1] QCTL.EN. -/
  en : Bool := false
  /-- [R304; 4] QCTL.TENANT. -/
  tenant : Nat := 0
  /-- [R304; 4] QCTL.LSIZE. -/
  lsize : Nat := 1
  /-- [R304; 32] HEAD. -/
  head : Nat := 0
  /-- [R304; 32] TAIL. -/
  tail : Nat := 0
  /-- [R304; 8] QERR.STATUS. -/
  errStatus : Nat := 0
  /-- [R304; 32] QERR.SEQ. -/
  errSeq : Nat := 0
  /-- [R314] Accepted doorbells that cover unread packets: value and order, oldest first. -/
  bell : List (Nat × Nat) := []
  /-- [R228, R264] Packets QPUT wrote: number, parent context. -/
  puts : List (Nat × Nat) := []
  /-- [R314] The first 8 bytes of the packet at HEAD, once read, with the status of the read. -/
  front : Option (Nat × List Byte) := none
  /-- [R342] Window writes that the next packet reads wait for. -/
  after : List Nat := []
  deriving DecidableEq, Repr

/-- State of a packet (R315). -/
inductive PktState where
  | checked | waiting | admitting | translating | placing | running | done
  deriving DecidableEq, Repr

/-- How a walk ends: a well-formed leaf with its page size and the package its address lies in, or not. DESIGN CHOICE (log 175). -/
inductive WalkEnd where
  | leaf (word size pkg : Nat)
  | absent
  | malformed
  /-- An entry could not be read (R406). -/
  | failed (st : Nat)
  deriving DecidableEq, Repr

/-- A packet in the Dispatcher. -/
structure Pkt where
  /-- Its number in the Dispatcher. -/
  no : Nat := 0
  /-- [R303; 6] The queue that it came from. -/
  queue : Nat := 0
  /-- [R303; 32] Packet number. -/
  seq : Nat := 0
  /-- [R307; 2,048] Bytes. -/
  bytes : List Byte := []
  state : PktState := .checked
  /-- [R314; 2] Effective priority. -/
  eff : Nat := 0
  /-- [R310] Records met. -/
  met0 : Bool := false
  met1 : Bool := false
  /-- [R320] Head of its gang. -/
  gang : Option Nat := none
  /-- [R319; 16] Context, once granted. -/
  ctx : Nat := 0
  /-- [R321] Instances injected. -/
  injected : Nat := 0
  /-- [R287, R291] Pages walked: range, address, end; and the walk under way: range, address, position. -/
  walked : List (Nat × Nat × WalkEnd) := []
  walk : Option (Nat × Nat × WalkPos) := none
  /-- [R323] Image read for a configuration load, and the completion word of one that has failed. -/
  image : List Byte := []
  word : Word := 0
  /-- [R264, R227; 16, 4] The context whose QPUT wrote it, its tenant, and the status it ended or will end with. -/
  parent : Option Nat := none
  tenant : Nat := 0
  status : Nat := 0
  deriving DecidableEq, Repr

/-- A packet that the Dispatcher reads (R305, R314). -/
structure Reading where
  queue : Nat := 0
  /-- [R320] The head of its gang, and the members that follow. -/
  gang : Option Nat := none
  left : Nat := 0
  /-- [R305] Bytes read so far. -/
  bytes : List Byte := []
  deriving DecidableEq, Repr

/-- The Dispatcher. -/
structure Dispatcher where
  /-- [R303; 64] Queues. -/
  queues : List Queue := List.replicate 64 {}
  /-- [R315; up to 256] Packets. -/
  pkts : List Pkt := []
  pktSeq : Nat := 0
  bells : Nat := 0
  /-- [R314] The packet being read. -/
  reading : Option Reading := none
  /-- [R319; 16] Last context id assigned; admission order. -/
  lastCtx : Nat := 0
  orders : Nat := 0
  /-- [R423, R290] Save pool of each tenant: tenant, local address, bytes. -/
  pools : List (Nat × Nat × Nat) := []
  /-- [R364, R414] What the save areas written so far hold, newest first: the draw that forms an area's bytes, and the context.
  -/
  shots : List (Nat × Ctx) := []
  deriving DecidableEq, Repr

/-- State of a job (R383). -/
inductive JobState where
  | running | halting | halted | stepping | armed
  deriving DecidableEq, Repr

/-- A Cairn job entry (R379). -/
structure Job where
  /-- [R379; 16] JOB. -/
  id : Nat := 0
  /-- [R379; 4] TENANT. -/
  tenant : Nat := 0
  /-- [R379; 4] RIGHTS: [3] HALT, [2] STEP, [1] TRACE, [0] WATCH. -/
  rights : Nat := 0
  /-- [R379; 6] HEN. -/
  hen : Nat := 0
  /-- [R379; 3] STATE. -/
  state : JobState := .running
  /-- [R384; 2 × 64] CAUSE_LOCAL. -/
  local0 : Word := 0
  local1 : Word := 0
  hasLocal : Bool := false
  /-- [R384; 2 × 64] CAUSE_DOM. -/
  dom0 : Word := 0
  dom1 : Word := 0
  hasDom : Bool := false
  /-- [R385] Packages that have reported or are missing. -/
  reported : List Nat := []
  /-- [R388; ns] T of the last ARM accepted here. -/
  resumeAt : Nat := 0
  /-- [R388] ARM commands that a debugger gave this package: T, packages that have acknowledged. -/
  arms : List (Nat × List Nat) := []
  /-- [R389] CANCEL commands it gave: packages still to answer, how many returned to HALTED so far. -/
  cancels : List (List Nat × Nat) := []
  /-- [R386] A STEP whose command has still to complete. -/
  step : Bool := false
  /-- [R385; ns] When the halt began here. -/
  since : Nat := 0
  deriving DecidableEq, Repr

/-- A membership list (R426). -/
structure Members where
  tenant : Nat := 0
  job : Nat := 0
  packages : List Nat := []
  deriving DecidableEq, Repr

/-- A TDISP device interface state (R421). PRESUMED (log 134). -/
inductive Tdisp where
  | unlocked | locked | run | error
  deriving DecidableEq, Repr

/-- A fault record outstanding (R433). -/
structure FaultRec where
  /-- Its number, once it has been written to the ring. -/
  seq : Option Nat := none
  va : Nat := 0
  access : Nat := 0
  die : Nat := 0
  deriving DecidableEq, Repr

/-- A virtual function (R430). -/
structure Vf where
  /-- PRESUMED (log 134). -/
  tdisp : Tdisp := .unlocked
  /-- [R431; 4 × 64] Window registers. -/
  windows : List Word := [0, 0, 0, 0]
  /-- [R421] The key of its selective IDE stream, once the tenant's SPDM session has set one. -/
  ide : Option Nat := none
  /-- [R433; 64 each] FQBASE, FQLS, FQHEAD, FQTAIL. -/
  fqBase : Word := 0
  /-- DEDUCED (log 16). -/
  fqls : Nat := 1
  /-- DESIGN CHOICE (log 158). -/
  fqHead : Nat := 0
  fqTail : Nat := 0
  /-- [R433] Records outstanding. -/
  faults : List FaultRec := []
  /-- [R430, R432; 8 × 128 and 8] MSI-X table words and pending bits. PRESUMED (log 15). -/
  msix : List Word := [0, 0x100000000, 0, 0x100000000, 0, 0x100000000, 0, 0x100000000, 0, 0x100000000, 0, 0x100000000, 0,
    0x100000000, 0, 0x100000000]
  pending : Nat := 0
  deriving DecidableEq, Repr

/-- A tenant (R420). -/
structure Tenant where
  id : Nat := 0
  /-- [R420] Root of its page tables, local. -/
  root : Nat := 0
  /-- [R420] Memory keys by number: HBM, second tier. -/
  keyH : Nat := 0
  keyT : Nat := 0
  /-- [R438] Connection table: QPI, peer. -/
  conns : List (Nat × Nat) := []
  /-- [R427] Rights by job. -/
  rights : List (Nat × Nat) := []
  deriving DecidableEq, Repr

/-- An SPDM connection (R419). -/
structure Spdm where
  peer : Nat := 0
  /-- Requests answered so far: 1 version, 2 capabilities, 3 algorithms. -/
  phase : Nat := 0
  /-- Secured session: 0 none, 1 key exchanged, 2 established; its secret and tenant. -/
  session : Nat := 0
  secret : Nat := 0
  deriving DecidableEq, Repr

/-- A die's RAS block, voltage and clock (R410, R411, R440). -/
structure Die where
  /-- [R410; 64] CE_NOM. -/
  ceNom : Nat := 0
  /-- [R410; 64] CE_LOW. -/
  ceLow : Nat := 0
  /-- [R410; 64] UE_COUNT. -/
  ue : Nat := 0
  /-- [R410; 64] RESIDUE_COUNT. -/
  residue : Nat := 0
  /-- [R410; 64] ROUTE_COUNT. -/
  route : Nat := 0
  /-- [R410; 3] MARGIN.STEP. -/
  step : Nat := 0
  /-- [R410; 1] MARGIN.BAR, and until when it stands. -/
  bar : Bool := false
  barUntil : Nat := 0
  /-- [R410; 64] CE_GUARD. -/
  guard : Nat := 16
  /-- [R410; 64] PF_LIMIT. -/
  pfLimit : Nat := 64
  /-- [R410; 1] PFAIL.PF. -/
  pf : Bool := false
  /-- [R411, R412; ns] Corrected errors of the last 10 s, newest first: instant, whether at nominal margin, whether a
  back-off has answered it. -/
  ces : List (Nat × Bool × Bool) := []
  /-- [R411] The clk and the instant of the newest, and how many have been counted in that clk. -/
  ceClk : Nat := 0
  ceWall : Nat := 0
  ceNew : Nat := 0
  /-- [R441; 16] MHZ. DEDUCED (log 17). -/
  mhz : Nat := 0
  /-- [R441; 8] FIRE_N. -/
  fireN : Nat := 0
  /-- [R441; 8] ROW_N. -/
  rowN : Nat := 0
  /-- [R441; 24] MW. -/
  mw : Nat := 0
  /-- [R440] The part of PKG_LIMIT that the last division gave the die, in W. -/
  watts : Nat := 0
  /-- [R9] Core clocks passed, in millionths of a clk. -/
  uclk : Nat := 0
  deriving DecidableEq, Repr

/-- A Ridgeline port (R425, R436). -/
structure RidgePort where
  up : Bool := false
  /-- [R425] The SPDM session between the security engines of its two ends that set its keys (0: none yet), the number of the
  present key, and the flits sent under it. -/
  session : Nat := 0
  key : Nat := 0
  aged : Nat := 0
  /-- [R436] Flits sent, and of those acknowledged: the replay buffer holds the rest; flits received in order. -/
  sent : Nat := 0
  acked : Nat := 0
  got : Nat := 0
  /-- [R425, R436; ns] First and last instant of the retries that still persist. -/
  retries : Option (Nat × Nat) := none
  deriving DecidableEq, Repr

/-- Boot states (R443). -/
inductive Boot where
  | reset | rom | hbm | repair | ready | fail
  deriving DecidableEq, Repr

/-- What is outside the cores. -/
structure Platform where
  /-- [R15; 12] Logical package id. DESIGN CHOICE (log 135). -/
  pkg : Nat := 0
  boot : Boot := .reset
  /-- [R429; 8] BOOTSTAT failure code. -/
  bootFail : Nat := 0
  /-- [R429; 64] PKG_LIMIT. -/
  limit : Nat := 3200
  /-- [R429, R437] GTCSTAT: LOCK, offset. -/
  lock : Bool := false
  offset : Int := 0
  /-- [R437] First master time received; ps still to pass at half rate. -/
  gtcOn : Bool := false
  gtcHalf : Nat := 0
  /-- [R435] The master time taken last, whose copies on other planes are dropped. DEDUCED (log 182). -/
  gtcLast : Option Nat := none
  /-- [R437] The GTC master of the domain; slewing, in parts per million. DEDUCED (log 21). -/
  master : Bool := false
  slew : Int := 0
  /-- [R364] Version of the management firmware that runs. -/
  version : Nat := 0
  /-- [R417; 4 × 32] Fuse counters of the firmware images, and the digests of those accepted. -/
  fuses : List Nat := [0, 0, 0, 0]
  firmware : List Nat := [0, 0, 0, 0]
  /-- [R429; 4 KiB] Security mailbox: last message. -/
  mailbox : List Word := []
  /-- [R410; 10] Dies CD0 to CD7, ID0, ID1. -/
  dies : List Die := List.replicate 10 {}
  /-- [R436; 18] Ports. -/
  ports : List RidgePort := List.replicate 18 {}
  /-- [R281] Populated bytes of the second tier and CXL ports in use, as management firmware reports them. DESIGN CHOICE (log 7). -/
  tier2 : Nat := Config.tier2Size
  cxl : Nat := Config.cxlPorts
  /-- [R415] Logical-to-physical table. -/
  l2p : List (Nat × Nat) := []
  /-- [R415] Table writes not yet acknowledged. -/
  l2pPending : Nat := 0
  /-- [R430; 17] Function 0 is physical; function t + 1 is tenant t. -/
  vfs : List Vf := List.replicate 17 {}
  /-- [R420] Tenants. -/
  tenants : List Tenant := []
  keySeq : Nat := 0
  /-- [R280; 512] Bank owners: bank, tenant. -/
  banks : List (Nat × Nat) := []
  /-- [R419] SPDM connections. -/
  spdm : List Spdm := []
  /-- [R426] Membership lists. -/
  members : List Members := []
  /-- [R379; up to 64] Job entries. -/
  jobs : List Job := []
  deriving DecidableEq, Repr

/-- A debug command or message that a package passes on to the job's other packages (R388 to R390, R427). -/
inductive Relay where
  | arm (t : Nat)
  | cancel
  | sethen (hen : Nat)
  | rights (r : Nat)
  /-- A command for the package it goes to: its eight words. -/
  | command (words : List Word)
  deriving DecidableEq, Repr

/-- A watch unit of a context of another package whose range lies here (R373, R374). -/
structure FarWatch where
  pkg : Nat := 0
  ctx : Nat := 0
  at' : WatchAt := {}
  deriving DecidableEq, Repr

/-- A message that leaves the package: what another package, the host or a peer can see. -/
inductive Sent where
  | token (q : QTok) (pkg : Nat)
  | report (pkg core ctx status : Nat)
  | request (r : Req) (pkg : Nat)
  /-- The answer to a request, with the granule that it was for. -/
  | answer (pkg id status : Nat) (result : Word) (bytes : List Byte) (gran : Nat)
  | cairn (pkg job : Nat)
  | cause (pkg job : Nat) (w0 w1 : Word)
  | relay (pkg job : Nat) (r : Relay)
  /-- R388, R389: the answers to a relayed ARM of T and to a relayed CANCEL. -/
  | acked (pkg job t : Nat)
  | cancelled (pkg job : Nat) (back : Bool)
  | freeze (pkg : Nat) (ctxs : List Nat)
  /-- R359: the drain marker of a core for a context. -/
  | marker (pkg core ctx : Nat)
  /-- R370, R372: the logged entries of a context are released. -/
  | release (pkg ctx : Nat)
  /-- R374: a watch unit whose range lies on another package, with the number that its answer names; the answer; and a hit. -/
  | watchSet (pkg : Nat) (w : FarWatch) (no : Nat)
  | watchAck (pkg ctx no : Nat)
  | watchHit (pkg ctx n : Nat) (a b : Word)
  | fence (pkg core ctx : Nat) (entries : List Logged)
  | msix (vf vector : Nat)
  /-- R288: what a forwarded walk has found here; none where it fails. -/
  | leaf (pkg tenant va : Nat) (word : Option Nat)
  /-- R296: an invalidation has completed. -/
  | invalidated (tenant va len : Nat)
  | hostRead (vf : Nat) (ok : Bool) (value : Word)
  | hostWrite (pa : Nat) (bytes : List Byte)
  /-- R439: an RDMA WRITE and an RDMA READ, under the serial number that the transport's answer names. -/
  | rdma (id tenant qp off : Nat) (bytes : List Byte)
  | rdmaRead (id tenant qp off len : Nat)
  | response (op status : Nat) (words : List Word)
  | spdm (peer code : Nat) (body : List Nat)
  /-- R436: a flit is sent again from the replay buffer. -/
  | flit (port no : Nat)
  deriving DecidableEq, Repr

/-- A message on its way out. To another package: the physical port that its logical id turns into (R415), and the planes that it
travels on (R435); on none, it is lost (R425). DESIGN CHOICE (log 179). -/
structure Out where
  msg : Sent
  phys : Option Nat := none
  planes : List Nat := []
  deriving DecidableEq, Repr

/-- A page walk in progress on a die's translation service (R294), for the address that missed first. -/
structure Walk where
  die : Nat := 0
  tenant : Nat := 0
  va : Nat := 0
  /-- 1 read, 2 write, 3 atomic or reduce. -/
  access : Nat := 1
  cid : Nat := 0
  /-- [R287] How far it has come. -/
  pos : WalkPos := {}
  /-- It waits for the answer to a fault record. -/
  faulted : Bool := false
  deriving DecidableEq, Repr

/-- A walk that another package forwards here (R288). -/
structure FarWalk where
  pkg : Nat := 0
  tenant : Nat := 0
  va : Nat := 0
  pos : WalkPos := {}
  deriving DecidableEq, Repr

/-- An invalidation that has dropped its entries and waits for the runs that used them (R296): core, firing order of the
command, run. -/
structure Inval where
  tenant : Nat := 0
  va : Nat := 0
  len : Nat := 0
  runs : List (Nat × Nat × Nat) := []
  deriving DecidableEq, Repr

/-- The memory system of the package. DESIGN CHOICE (log 13). -/
structure MemSys where
  /-- [R278; 16] Bytes of physical memory by local address: HBM, shared memory, second tier. Unlisted bytes are 0. -/
  mem : List Host.Cell := []
  /-- [R406; 4] Allocation tags of 32-byte sectors that are not 0. -/
  tags : List (Nat × Nat) := []
  /-- [R422] Key under which a sector was last written, where not 0 (plaintext). -/
  keys : List (Nat × Nat) := []
  /-- [R406, R408] Standing errors of sectors, by the sum of 1 address, 2 uncorrectable, 4 correctable. -/
  errs : List (Nat × Nat) := []
  /-- [R298; 512 × 32 lines] Staged granules, newest first: granule number, read since, core that asked. -/
  staged : List (Nat × Bool × Nat) := []
  /-- [R204] IFR entries with their requests. -/
  reqs : List Req := []
  reqSeq : Nat := 0
  arrivals : Nat := 0
  /-- [R205, R361] Duplicate-suppression tables. -/
  log : List Logged := []
  /-- [R360] Contexts of other packages whose freeze mark has come: context × 256 + core. -/
  farMarks : List Nat := []
  /-- [R374] Watch units of other packages. -/
  farWatch : List FarWatch := []
  /-- [R294] TLBs and walks. -/
  tlb : List Tlb := []
  walks : List Walk := []
  farWalks : List FarWalk := []
  invals : List Inval := []
  /-- [R297] Free-frame pool of system software, local addresses of 2 MiB frames. DEDUCED (log 121). -/
  freePages : List Nat := []
  /-- [R297] Access counters of pages: tenant, page, count. DEDUCED (log 121). -/
  touched : List (Nat × Nat × Nat) := []
  deriving DecidableEq, Repr

/-- What may come in over Ridgeline or from the physical world. DESIGN CHOICE (log 125). DESIGN CHOICE (log 180). DESIGN CHOICE (log 181). -/
inductive Outside where
  | token (q : QTok)
  /-- A quarantine report for a core and context (R17). -/
  | report (core ctx status : Nat)
  /-- The response of a package to its part of a remote request of ours: serial, status, result, the bytes it read. -/
  | response (id pkg status : Nat) (result : Word) (bytes : List Byte)
  /-- The transport's answer to an RDMA WRITE or READ of ours: serial, whether it succeeded, the bytes read (R439). -/
  | rdma (id : Nat) (ok : Bool) (bytes : List Byte)
  /-- A request of another package. -/
  | request (r : Req) (pkg job : Nat)
  /-- A bit upset: store (0 sector, 1 tile granule, 2 frame slot, 3 weight slot, 4 code word, 5 scratch word), core,
  index, sub-index, class of R406; store 6 is a descriptor word. -/
  | upset (store core idx sub cls : Nat)
  /-- A token's ROUTE fails at a switch (R404): in-flight token, die. -/
  | misroute (i die : Nat)
  /-- A multiplier or adder fault in the next row committed on a core (R195). DEDUCED (log 64). -/
  | rowFault (core : Nat)
  /-- A scalar unit's residue fails at the next scalar firing of a core (R98). -/
  | scalarFault (core : Nat)
  /-- The k-th granule still to be read of the i-th departing tile leaves its core (R136, R137). DESIGN CHOICE (log 139). -/
  | departed (i k : Nat)
  /-- Software or the pool of R297 gives a free 2 MiB frame; management firmware gives a save pool (R423). -/
  | freePage (pa : Nat)
  | savePool (tenant base bytes : Nat)
  /-- Management firmware reports the GiB of the second tier and the CXL ports in use (R281). -/
  | tier2 (gib ports : Nat)
  /-- The host reads a register of a function, by its offset (R304, R429 to R434). -/
  | hostRead (fn off : Nat)
  /-- Another package forwards a walk of a tenant's tables (R288). -/
  | walk (pkg tenant va : Nat)
  /-- Management firmware gives a queue to a tenant (R304). -/
  | queueOwner (queue tenant : Nat)
  /-- Management firmware starts a write of some member package's logical-to-physical table, and another package's is
  acknowledged (R415, R416). DESIGN CHOICE (log 126). -/
  | l2pStart
  /-- DESIGN CHOICE (log 126). -/
  | l2pAck
  /-- Management firmware makes this package the GTC master, or no longer (R437). DEDUCED (log 21). -/
  | gtcMaster (on : Bool)
  /-- A HOME hit at a node of another package: context, unit, details A and B (R376). -/
  | watchHit (ctx n : Nat) (a b : Word)
  /-- A setting of a watch unit of another package, and the answer to one of ours (R374). -/
  | watchSet (w : FarWatch) (no : Nat)
  | watchAck (pkg ctx no : Nat)
  /-- Another package releases a context's logged entries (R370, R372). -/
  | release (pkg ctx : Nat)
  /-- A freeze mark of another package for a context's requests from a core, and that core's drain marker (R359). -/
  | farMark (pkg ctx core : Nat)
  | farMarker (pkg ctx core : Nat)
  /-- The fence of a package for a context of ours on a core, with the entries it had logged (R359). -/
  | fence (pkg ctx core : Nat) (entries : List Logged)
  /-- A debugger's command of eight words, through a tenant's debug session (R390). -/
  | command (tenant : Nat) (words : List Word)
  /-- A member package acknowledges an ARM of T (R388), or answers a CANCEL: whether it returned to HALTED (R389). -/
  | armAck (job pkg t : Nat)
  | cancelled (job pkg : Nat) (back : Bool)
  /-- A debug command or rights message that package `pkg` passes on (R388 to R390, R427). -/
  | relay (pkg job : Nat) (r : Relay)
  /-- The management processor loads an image into slot 3 for a tenant (R51, PRIV). -/
  | loadImage (tenant : Nat) (bytes : List Byte)
  /-- On a link: so many flits have been sent and acknowledged; a flit arrives; the security engines at its two ends have agreed on
  keys (R425, R436). -/
  | flits (port sent acked : Nat)
  | flitIn (port no : Nat)
  | linkSession (port secret : Nat)
  /-- A tenant's SPDM session sets the key of its function's IDE stream (R421). -/
  | ideKey (vf key : Nat)
  /-- A spare takes in a context that was saved elsewhere, with the draw that forms its area's bytes and its suppression entries, and
  takes a logical id (R416). -/
  | adopt (c : Ctx) (seed : Nat) (log : List Logged)
  | logicalId (pkg : Nat)
  deriving DecidableEq, Repr

/-- A tile that leaves a core (R137): its granules are read one by one, and the emission's reference stays here. -/
structure Departure where
  id : Nat := 0
  core : Nat := 0
  /-- [R22; 64] The handle. -/
  handle : Word := 0
  /-- The tile or view as it was emitted, and the granules of the base array still to be read. -/
  view : Tile := {}
  left : List Nat := []
  /-- What has been read, by place in the base array, and whether a granule could not be (R408). -/
  buf : List Host.Cell := []
  ue : Bool := false
  /-- The poison that then goes in its place. -/
  fail : Tok := {}
  /-- The token that goes to another package once the tile has been read. -/
  out : Option (QTok × Nat) := none
  deriving DecidableEq, Repr

/-- What happens in a turn. -/
inductive Act where
  /-- The token engine of a core selects one token (R325); `busy` are the frames whose frame-store port is busy in that
  clk, which the spec leaves to the run. DESIGN CHOICE (log 140). -/
  | select (core : Nat) (busy : List Nat)
  /-- An event of the opcode table. -/
  | event (i : Instr)
  | outside (o : Outside)
  /-- Nothing but time. -/
  | idle
  deriving DecidableEq, Repr

/-- A turn: how much time passes (ps) before it, and what happens then. -/
structure Turn where
  ps : Nat := 0
  act : Act := .idle
  deriving DecidableEq, Repr

/-- The machine. -/
structure State where
  /-- [R15; 256] Cores. -/
  cores : List Core := List.replicate 256 {}
  /-- [R244] Contexts, live or saved. -/
  ctxs : List Ctx := []
  /-- [R251; up to 64] Regions. -/
  regions : List Region := []
  /-- [R97] Tokens in flight on the package. -/
  flight : List QTok := []
  /-- [R137] Tiles whose last granule has not left the sending core. DESIGN CHOICE (log 139). -/
  departing : List Departure := []
  departSeq : Nat := 0
  /-- [R17] Quarantine reports in flight: core, context, status. -/
  reports : List (Nat × Nat × Nat) := []
  ms : MemSys := {}
  disp : Dispatcher := {}
  plat : Platform := {}
  /-- [R378; 64] GTC in ns, and the half ps past it. -/
  gtc : Nat := 0
  gtcPs : Nat := 0
  /-- [R9] Wall clock in ns since power-on, and the ps past it. -/
  wall : Nat := 0
  wallPs : Nat := 0
  /-- The model's own: the firing in progress, the next free value, faults to come, what has left
  the package, and the turns to come. DESIGN CHOICE (log 10). -/
  cur : Firing := {}
  /-- DESIGN CHOICE (log 10). -/
  fresh : Nat := 0
  scalarFaults : List Nat := []
  /-- DEDUCED (log 64). -/
  rowFaults : List Nat := []
  /-- [R351] Traps raised so far. -/
  trapSeq : Nat := 0
  /-- DESIGN CHOICE (log 1). -/
  outbox : List Out := []
  /-- DESIGN CHOICE (log 1). DESIGN CHOICE (log 2). -/
  agenda : List Turn := []
  deriving DecidableEq, Repr

/-- The package right after power-on reset: BOOTSTAT is RESET, no tenant exists, and every store is clear. DEDUCED (log 4). DESIGN CHOICE (log 14). -/
def State.reset : State := {}

end Sys2Proof.Machine
end

