-- ==== Sys2Proof/Machine/Mem.lean ====
section
/-! DEFINITION. Memory as data: sparse byte arrays in one canonical form (R3, R63), sector code words and keys
(R406, R407, R422), and reading and writing physical memory as events at its home node. -/

namespace Sys2Proof.Machine

/-! ## Sparse bytes: strictly rising addresses, no entry equal to the default 0 -/

/-- What an unlisted address reads as: HBM and banks are zeroed (R424, R443); the second tier is the model's choice. DESIGN CHOICE (log 9). -/
def blank : Byte := 0

/-- The byte at an address. DESIGN CHOICE (log 9). -/
def Memory.get (m : List Host.Cell) (a : Nat) : Byte :=
  match m with
  | [] => blank
  | c :: cs => if c.1 == a then c.2 else Memory.get cs a

/-- Removes an address. -/
def Memory.erase (m : List Host.Cell) (a : Nat) : List Host.Cell :=
  match m with
  | [] => []
  | c :: cs => if c.1 == a then cs else c :: Memory.erase cs a

/-- Puts a listed byte in its place. -/
def Memory.insert (m : List Host.Cell) (a : Nat) (b : Byte) : List Host.Cell :=
  match m with
  | [] => [(a, b)]
  | c :: cs => if a < c.1 then (a, b) :: c :: cs else if c.1 == a then (a, b) :: cs else c :: Memory.insert cs a b

/-- Writes a byte, keeping the canonical form. DESIGN CHOICE (log 8). -/
def Memory.set (m : List Host.Cell) (a : Nat) (b : Byte) : List Host.Cell :=
  if b == blank then Memory.erase m a else Memory.insert m a b

/-- Writes consecutive bytes. -/
def Memory.setMany (m : List Host.Cell) (a : Nat) (bs : List Byte) : List Host.Cell :=
  match bs with
  | [] => m
  | b :: bs => Memory.setMany (Memory.set m a b) (a + 1) bs

/-- Reads consecutive bytes. -/
def Memory.getMany (m : List Host.Cell) (a n : Nat) : List Byte :=
  (List.range n).map fun i => Memory.get m (a + i)

/-- The canonical form, from a least address. -/
def Memory.wfFrom (lo : Nat) (m : List Host.Cell) : Bool :=
  match m with
  | [] => true
  | c :: cs => decide (lo ≤ c.1) && c.2 != blank && Memory.wfFrom (c.1 + 1) cs

/-- The canonical form: addresses strictly rising, no entry equal to what an unlisted address reads as. DESIGN CHOICE (log 8). -/
def Memory.wf (m : List Host.Cell) : Bool := Memory.wfFrom 0 m

/-! ## Small tables: unlisted keys hold 0 -/

def Table.get (t : List (Nat × Nat)) (k : Nat) : Nat :=
  match t with
  | [] => 0
  | e :: es => if e.1 == k then e.2 else Table.get es k

def Table.erase (t : List (Nat × Nat)) (k : Nat) : List (Nat × Nat) := t.filter fun e => e.1 != k

def Table.insert (t : List (Nat × Nat)) (k v : Nat) : List (Nat × Nat) :=
  match t with
  | [] => [(k, v)]
  | e :: es => if k < e.1 then (k, v) :: e :: es else if e.1 == k then (k, v) :: es else e :: Table.insert es k v

def Table.set (t : List (Nat × Nat)) (k v : Nat) : List (Nat × Nat) :=
  if v == 0 then Table.erase t k else Table.insert t k v

def Table.add (t : List (Nat × Nat)) (k n : Nat) : List (Nat × Nat) := Table.set t k ((Table.get t k + n) % 2 ^ 64)

/-! ## Accessors of the state -/

def State.core (s : State) (c : Nat) : Core := s.cores.getD c {}

def State.modCore (s : State) (c : Nat) (f : Core → Core) : State := { s with cores := s.cores.modify c f }

def State.ctx? (s : State) (id : Nat) : Option Ctx := s.ctxs.find? fun c => c.id == id

def State.modCtx (s : State) (id : Nat) (f : Ctx → Ctx) : State :=
  { s with ctxs := s.ctxs.map fun c => if c.id == id then f c else c }

def State.modRegs (s : State) (id : Nat) (f : CtxRegs → CtxRegs) : State :=
  s.modCtx id fun c => { c with regs := f c.regs }

def State.modCoreRegs (s : State) (c : Nat) (f : CoreRegs → CoreRegs) : State :=
  s.modCore c fun k => { k with regs := f k.regs }

def State.modTok (s : State) (c : Nat) (f : TokUnit → TokUnit) : State := s.modCore c fun k => { k with tok := f k.tok }

def State.modFrm (s : State) (c : Nat) (f : FrameUnit → FrameUnit) : State :=
  s.modCore c fun k => { k with frm := f k.frm }

def State.modTile (s : State) (c : Nat) (f : TileUnit → TileUnit) : State :=
  s.modCore c fun k => { k with tile := f k.tile }

def State.modEng (s : State) (c : Nat) (f : Engines → Engines) : State := s.modCore c fun k => { k with eng := f k.eng }

def State.modMs (s : State) (f : MemSys → MemSys) : State := { s with ms := f s.ms }

def State.modPlat (s : State) (f : Platform → Platform) : State := { s with plat := f s.plat }

def State.modDisp (s : State) (f : Dispatcher → Dispatcher) : State := { s with disp := f s.disp }

def State.modDie (s : State) (d : Nat) (f : Die → Die) : State :=
  s.modPlat fun p => { p with dies := p.dies.modify d f }

def State.region? (s : State) (core : Nat) : Option Region := s.regions.find? fun r => r.cores.contains core

/-- A configuration slot of a core's region (R259). -/
def State.cslot? (s : State) (core cs : Nat) : Option CSlot := (s.region? core).bind fun r => r.slots[cs]?

def State.modRegion (s : State) (home : Nat) (f : Region → Region) : State :=
  { s with regions := s.regions.map fun r => if r.home == home then f r else r }

/-- The package that a message goes to. -/
def Sent.dest (m : Sent) : Option Nat :=
  match m with
  | .token _ p | .report p _ _ _ | .request _ p | .answer p _ _ _ _ _ | .cairn p _ | .cause p _ _ _ | .relay p _ _ | .acked p _ _
  | .cancelled p _ _ | .freeze p _ | .marker p _ _ | .release p _ | .watchSet p _ _ | .watchAck p _ _ | .watchHit p _ _ _ _
  | .fence p _ _ _ | .leaf p _ _ _ => some p
  | .msix _ _ | .invalidated _ _ _ | .hostRead _ _ _ | .hostWrite _ _ | .rdma _ _ _ _ _ | .rdmaRead _ _ _ _ _ | .response _ _ _
  | .spdm _ _ _ | .flit _ _ => none

/-- R435: the one plane of a message; none: every plane, with the first arrival taken. DESIGN CHOICE (log 179). -/
def Sent.plane (m : Sent) : Option Nat :=
  match m with
  | .token q _ => some (q.route % 18)
  | .request r _ => some (r.paddr / 256 % 18)
  | .answer _ _ _ _ _ gran => some (gran % 18)
  | _ => none

/-- R425: a link carries traffic once it is up and its keys are set. DESIGN CHOICE (log 179). DESIGN CHOICE (log 180). -/
def RidgePort.carries (p : RidgePort) : Bool := p.up && p.session != 0

/-- R415, R435, R436: a message leaves by the table's physical port, on its plane or, where that port is down, on the next one whose
port is up. DESIGN CHOICE (log 179). -/
def State.stamp (s : State) (m : Sent) : Out :=
  let up (p : Nat) : Bool := (s.plat.ports.getD p {}).carries
  { msg := m
    phys := m.dest.bind fun pkg => (s.plat.l2p.find? fun e => e.1 == pkg).map fun e => e.2
    planes := if m.dest.isNone then [] else match m.plane with
      | some p => (((List.range 18).map fun i => (p + i) % 18).find? up).toList
      | none => (List.range 18).filter up }

def State.send (s : State) (m : Sent) : State := { s with outbox := s.outbox ++ [s.stamp m] }

/-- R15: the die of a core. -/
def dieOf (core : Nat) : Nat := core / 32

/-- R9: clk of a core's clock since power-on. DESIGN CHOICE (log 3). -/
def State.clk (s : State) (core : Nat) : Nat := (s.plat.dies.getD (dieOf core) {}).uclk / 1000000

/-- A draw of a free choice (R6). DESIGN CHOICE (log 6). -/
def State.draw (s : State) : Nat × State := (Config.choice s.fresh, { s with fresh := s.fresh + 1 })

def State.tenant? (s : State) (t : Nat) : Option Tenant := s.plat.tenants.find? fun x => x.id == t

/-! ## The physical map (R278 to R281) -/

def hbmTop : Nat := 0x10000000000
def shmBase : Nat := 0x10000000000
def shmTop : Nat := 0x10020000000
def tier2Base : Nat := 0x80000000000

/-- R278, R281: reachable through a leaf. -/
def State.localOk (s : State) (a : Nat) : Bool :=
  decide (a < shmTop) || (decide (tier2Base ≤ a) && decide (a < tier2Base + s.plat.tier2))

/-- R279 to R281, R368: the home node of a local address. -/
def State.nodeOf (s : State) (a : Nat) : Nat :=
  if a < hbmTop then a / 256 % 512
  else if a < shmTop then 512 + (a - shmBase) / 0x100000
  else 1024 + (a - tier2Base) / 256 % s.plat.cxl

/-- R279, R410: the die on which an error at an address is counted; CXL ports are on ID0. -/
def dieOfAddr (a : Nat) : Nat :=
  if a < hbmTop then a / 256 % 512 / 64 else if a < shmTop then (a - shmBase) / 0x4000000 else 8

/-- Encrypted and tagged sectors stand in HBM and the second tier only (R406, R408). -/
def tagged (a : Nat) : Bool := decide (a < hbmTop) || decide (tier2Base ≤ a)

/-! ## Errors counted (R410, R411) -/

/-- R411: the clk in which a die's newest corrected errors were detected lasts on; a clk takes at most 5 ns (R440). -/
def Die.sameClk (d : Die) (wall : Nat) : Bool := d.ceClk == d.uclk / 1000000 && decide (wall ≤ d.ceWall + 5)

/-- R411: a corrected error. -/
def State.countCe (s : State) (die : Nat) : State :=
  s.modDie die fun d =>
    { d with
      ceNom := if d.step == 0 then min (d.ceNom + 1) (2 ^ 64 - 1) else d.ceNom
      ceLow := if d.step == 0 then d.ceLow else min (d.ceLow + 1) (2 ^ 64 - 1)
      ces := (s.wall, d.step == 0, false) :: d.ces.filter fun e => decide (s.wall < e.1 + 10000000000)
      ceClk := d.uclk / 1000000, ceWall := if d.sameClk s.wall then d.ceWall else s.wall, ceNew := if d.sameClk s.wall then d.ceNew + 1 else 1 }

/-- R411: STEP changes; the corrected errors of the same clk count under the new STEP. -/
def Die.setStep (d : Die) (wall step : Nat) : Die :=
  if d.sameClk wall && (d.step == 0) != (step == 0) then
    { d with
      step := step
      ceNom := if step == 0 then min (d.ceNom + d.ceNew) (2 ^ 64 - 1) else d.ceNom - d.ceNew
      ceLow := if step == 0 then d.ceLow - d.ceNew else min (d.ceLow + d.ceNew) (2 ^ 64 - 1)
      ces := (d.ces.take d.ceNew).map (fun e => (e.1, step == 0, e.2.2)) ++ d.ces.drop d.ceNew }
  else { d with step := step }

/-- R410, R411: an uncorrectable event sets STEP to 0 and BAR for 60 s. -/
def State.countUe (s : State) (die : Nat) : State :=
  s.modDie die fun d =>
    { d.setStep s.wall 0 with ue := min (d.ue + 1) (2 ^ 64 - 1), bar := true, barUntil := s.wall + 60000000000 }

/-- R408, R410: so many corrected, and uncorrectable, errors of a die's stores are counted. DEDUCED (log 178). -/
def State.countErrs (s : State) (die ces ues : Nat) : State :=
  (List.range ues).foldl (fun s _ => s.countUe die) ((List.range ces).foldl (fun s _ => s.countCe die) s)

def State.countResidue (s : State) (core : Nat) : State :=
  (s.modDie (dieOf core) fun d => { d with residue := min (d.residue + 1) (2 ^ 64 - 1) }).modCoreRegs core
    fun r => { r with perf := Table.add r.perf 0x0D 1 }

/-- R426: traffic that its job's membership list does not admit is dropped and counted. DEDUCED (log 164). -/
def State.countDropped (s : State) (die : Nat) : State :=
  s.modDie die fun d => { d with route := min (d.route + 1) (2 ^ 64 - 1) }

def State.countRoute (s : State) (core : Nat) : State :=
  (s.modDie (dieOf core) fun d => { d with route := min (d.route + 1) (2 ^ 64 - 1) }).modCoreRegs core
    fun r => { r with perf := Table.add r.perf 0x0C 1 }

/-- PERF of a context (R239). -/
def State.perfCtx (s : State) (id k n : Nat) : State := s.modRegs id fun r => { r with perf := Table.add r.perf k n }

def State.perfCore (s : State) (core k n : Nat) : State :=
  s.modCoreRegs core fun r => { r with perf := Table.add r.perf k n }

/-! ## Sectors -/

/-- R406: the status with which a sector decodes for an access carrying `tag`. -/
def sectorStatus (s : State) (sec tag : Nat) : Nat :=
  let e := Table.get s.ms.errs sec
  if e % 2 == 1 then 3
  else if tagged (sec * 32) && Table.get s.ms.tags sec != tag then 2
  else if e / 2 % 2 == 1 then 4 else 0

/-- The sectors that a byte range touches. -/
def sectorsOf (a n : Nat) : List Nat :=
  if n == 0 then [] else (List.range ((a + n - 1) / 32 + 1 - a / 32)).map fun i => a / 32 + i

/-- R406, R408: counts what reading a sector found, and writes a corrected sector back. DESIGN CHOICE (log 71). -/
def State.sectorRead (s : State) (sec tag : Nat) : State :=
  let e := Table.get s.ms.errs sec
  if e % 2 == 1 then s.countUe (dieOfAddr (sec * 32))
  else if sectorStatus s sec tag == 2 then s
  else if e / 2 % 2 == 1 then s.countUe (dieOfAddr (sec * 32))
  else if e == 4 then
    (s.modMs fun m => { m with errs := Table.erase m.errs sec }).countCe (dieOfAddr (sec * 32))
  else s

/-- R422: the byte that a key reads. -/
def keyByte (s : State) (a key : Nat) : Byte :=
  let b := Memory.get s.ms.mem a
  let k := Table.get s.ms.keys (a / 32)
  if tagged a && k != key then Config.wrongKey k key a b.toNat else b

def firstNonzero (l : List Nat) : Nat := (l.find? (· != 0)).getD 0

/-- R239, R298: a read of staged granules; a granule read for the first time counts as used or, where the prefetch is
still in flight, as late. DESIGN CHOICE (log 74). -/
def State.useStaged (s : State) (a n : Nat) : State :=
  let hit (g : Nat × Bool × Nat) : Bool := !g.2.1 && decide (g.1 * 64 < a + n) && decide (a < (g.1 + 1) * 64)
  let fresh := s.ms.staged.filter hit
  let s := fresh.foldl (fun s g =>
    let d := s.draw
    d.2.perfCore g.2.2 (if d.1 % 2 == 0 then 0x09 else 0x0A) 1) s
  s.modMs fun m => { m with staged := m.staged.map fun g => if hit g then (g.1, true, g.2.2) else g }

/-- One read event of local physical memory: status, bytes, state (R406, R335). -/
def State.readPhys (s : State) (a n tag key : Nat) : Nat × List Byte × State :=
  let secs := sectorsOf a n
  let st := firstNonzero (secs.map fun x => sectorStatus s x tag)
  let s' := (secs.foldl (fun s x => s.sectorRead x tag) s).useStaged a n
  (st, (List.range n).map (fun i => keyByte s (a + i) key), s')

/-- R298: a write drops every staged line it touches; a granule dropped unread counts at the core that asked for it. -/
def State.dropStaged (s : State) (a n : Nat) : State :=
  let hit (g : Nat × Bool × Nat) : Bool := decide (g.1 / 4 * 256 < a + n) && decide (a < (g.1 / 4 + 1) * 256)
  let gone := s.ms.staged.filter hit
  let s := gone.foldl (fun s g => if g.2.1 then s else s.perfCore g.2.2 0x0B 1) s
  s.modMs fun m => { m with staged := m.staged.filter fun g => !hit g }

/-- R407: writes the part of a range that lies in one sector: status and state. -/
def State.writeSector (s : State) (sec a : Nat) (bs : List Byte) (tag key : Nat) : Nat × State :=
  let whole := bs.length == 32
  if whole then
    (0, s.modMs fun m => { m with
      mem := Memory.setMany m.mem a bs
      tags := if tagged a then Table.set m.tags sec tag else m.tags
      keys := if tagged a then Table.set m.keys sec key else m.keys
      errs := Table.erase m.errs sec })
  else
    let st := sectorStatus s sec tag
    let s' := s.sectorRead sec tag
    if st != 0 then (st, s')
    else
      let old := (List.range 32).map fun i => keyByte s (sec * 32 + i) key
      (0, s'.modMs fun m => { m with
        mem := Memory.setMany (if tagged a && Table.get m.keys sec != key then Memory.setMany m.mem (sec * 32) old else m.mem) a bs
        keys := if tagged a then Table.set m.keys sec key else m.keys })

/-- R222: the condition of a BARW for phase `n` on a barrier word. -/
def barwMet (w n : Nat) : Bool := decide ((w / 2 ^ 48 % 65536 + 65536 - n % 65536) % 65536 < 32768)

/-- R222: a BARW held on a word that a write touches, whose condition now holds, is to be released. -/
def wakes (s : State) (a n : Nat) (r : Req) : Bool :=
  r.waits && match r.pieces with
    | [p] => match p.op with
      | .barw target =>
        let parts := (p.place, p.len) :: p.more.map fun x => (x.1, x.2.1)
        let touched (x : Loc × Nat) : Bool := match x.1 with
          | .mem pa _ _ => decide (pa % 2 ^ 44 < a + n) && decide (a < pa % 2 ^ 44 + x.2)
          | _ => false
        let bytes (x : Loc × Nat) : List Byte := match x.1 with
          | .mem pa _ key => (List.range x.2).map fun i => keyByte s (pa % 2 ^ 44 + i) key
          | _ => []
        parts.any touched && barwMet (leNat (parts.flatMap bytes)) target
      | _ => false
    | _ => false

def State.wakeBarws (s : State) (a n : Nat) : State :=
  s.modMs fun m => { m with reqs := m.reqs.map fun r => if wakes s a n r then { r with go := true } else r }

/-- One write event of local physical memory: status and state. -/
def State.writePhys (s : State) (a : Nat) (bs : List Byte) (tag key : Nat) : Nat × State :=
  let w := (sectorsOf a bs.length).foldl
    (fun r sec =>
      let lo := max a (sec * 32)
      let hi := min (a + bs.length) (sec * 32 + 32)
      let w := r.2.writeSector sec lo ((bs.drop (lo - a)).take (hi - lo)) tag key
      (if r.1 == 0 then w.1 else r.1, w.2))
    (0, s.dropStaged a bs.length)
  (w.1, w.2.wakeBarws a bs.length)

end Sys2Proof.Machine
end

