-- ==== Sys2Proof/Machine/Tiles.lean ====
section
/-! DEFINITION. Tiles as byte arrays (R63, R69, R70, R131, R445): sizes, elements, scales and windows, handles
(R22), and the tile image that travels between cores (R137). -/

namespace Sys2Proof.Machine

def ceilDiv (a b : Nat) : Nat := (a + b - 1) / b

/-- R67: elements of a block. -/
def blockOf : Geom → Nat
  | .g1 => 8 | .g2 => 16 | .g3 => 32 | .g4 => 32 | _ => 1

/-- R67: the type of a geometry's scales; E8M0 is marked by `none`. -/
def scaleTy : Geom → Ty
  | .g1 => .e5m2 | .g2 => .e4m3 | _ => .none

/-- Bytes of a row's elements, packed (R63). -/
def packedRow (sh : Shape) : Nat := ceilDiv (sh.cols * tyBits sh.ty) 8

/-- R131, R445: bytes of an element row. -/
def rowBytes (sh : Shape) : Nat := if sh.acc then 1024 else 64 * ceilDiv (packedRow sh) 64

def blocksOf (sh : Shape) : Nat := ceilDiv sh.cols (blockOf sh.bg)

/-- R69, R70: bytes of a scale row. -/
def scaleRow (sh : Shape) : Nat :=
  match sh.bg with
  | .g1 | .g2 | .g3 => 64 * ceilDiv (blocksOf sh) 64
  | .g4 => 64 * ceilDiv (4 + blocksOf sh) 64
  | _ => 0

def elemBytes (sh : Shape) : Nat := sh.rows * rowBytes sh

def scaleBytes (sh : Shape) : Nat := sh.rows * scaleRow sh

/-- R445: tile size. -/
def tileSize (sh : Shape) : Nat := elemBytes sh + scaleBytes sh

/-- R131: granules that a tile takes. -/
def granulesOf (sh : Shape) : Nat := if sh.acc then 0 else tileSize sh / 64

/-- R22: the handle of a tile. -/
def handleWord (t : Tile) (gen : Nat) : Word :=
  BitVec.ofNat 64 ((if t.view.isSome then 2 ^ 55 else 0) + (if t.shape.acc then 2 ^ 54 else 0) + t.shape.cols * 2 ^ 41 +
    t.shape.rows * 2 ^ 28 + geomCode t.shape.bg * 2 ^ 24 + tyCode t.shape.ty * 2 ^ 20 + gen * 2 ^ 12 + t.idx)

def handleIdx (w : Word) : Nat := w.toNat % 4096
def handleGen (w : Word) : Nat := bf w.toNat 12 8

def TileUnit.find? (u : TileUnit) (idx : Nat) : Option Tile := u.tiles.find? fun t => t.idx == idx

def TileUnit.gen (u : TileUnit) (idx : Nat) : Nat := Table.get u.gens idx

/-- R22: the live tile of a handle on a core; none when it is stale. -/
def State.tileOf? (s : State) (core : Nat) (h : Word) : Option Tile :=
  let u := (s.core core).tile
  if u.gen (handleIdx h) == handleGen h then u.find? (handleIdx h) else none

def State.tile? (s : State) (core idx : Nat) : Option Tile := (s.core core).tile.find? idx

def State.modTileIdx (s : State) (core idx : Nat) (f : Tile → Tile) : State :=
  s.modTile core fun u => { u with tiles := u.tiles.map fun t => if t.idx == idx then f t else t }

/-- The index whose bytes a tile or view uses. -/
def Tile.baseIdx (t : Tile) : Nat := match t.view with
  | some v => v.base
  | none => t.idx

/-- The tile that holds the bytes of a tile or view. -/
def State.baseTile (s : State) (core : Nat) (t : Tile) : Tile := (s.tile? core t.baseIdx).getD t

def Tile.row0 (t : Tile) : Nat := match t.view with
  | some v => v.row0
  | none => 0

def Tile.col0 (t : Tile) : Nat := match t.view with
  | some v => v.col0
  | none => 0

/-- A byte of a tile's array. -/
def Tile.byte (t : Tile) (off : Nat) : Byte := Memory.get t.bytes off

def Tile.setByte (t : Tile) (off : Nat) (b : Byte) : Tile := { t with bytes := Memory.set t.bytes off b }

def Tile.setBytes (t : Tile) (off : Nat) (bs : List Byte) : Tile :=
  match bs with
  | [] => t
  | b :: bs => Tile.setBytes (t.setByte off b) (off + 1) bs

/-- R409: granules that are written whole hold no error any more. -/
def Tile.mend (t : Tile) (gs : List Nat) : Tile :=
  { t with ue := t.ue.filter fun g => !gs.contains g, ce := t.ce.filter fun g => !gs.contains g }

def Tile.getBytes (t : Tile) (off n : Nat) : List Byte := (List.range n).map fun i => t.byte (off + i)

/-- The code of element (r, c) of the base tile's own array (R63, R445). -/
def Tile.elem (t : Tile) (r c : Nat) : Nat :=
  let b := tyBits t.shape.ty
  if b == 4 then bf (t.byte (r * rowBytes t.shape + c / 2)).toNat (4 * (c % 2)) 4
  else leNat (t.getBytes (r * rowBytes t.shape + c * (b / 8)) (b / 8))

def Tile.setElem (t : Tile) (r c v : Nat) : Tile :=
  let b := tyBits t.shape.ty
  if b == 4 then
    let off := r * rowBytes t.shape + c / 2
    let old := (t.byte off).toNat
    let nib := v % 16
    t.setByte off (BitVec.ofNat 8 (if c % 2 == 0 then old / 16 * 16 + nib else old % 16 + 16 * nib))
  else t.setBytes (r * rowBytes t.shape + c * (b / 8)) (leBytes (b / 8) v)

/-- Where the scale byte of block j of row r lies (R69, R70). -/
def scaleOff (sh : Shape) (r j : Nat) : Nat :=
  elemBytes sh + r * scaleRow sh + (if sh.bg == .g4 then 4 + j else j)

def superOff (sh : Shape) (r : Nat) : Nat := elemBytes sh + r * scaleRow sh

def Tile.scale (t : Tile) (r j : Nat) : Nat := (t.byte (scaleOff t.shape r j)).toNat

def Tile.super (t : Tile) (r : Nat) : Nat := leNat (t.getBytes (superOff t.shape r) 4)

/-- The value of a scale byte of geometries 1 to 3 (R67), or of a QN4 block (R65). -/
def scaleVal (bg : Geom) (byte super : Nat) : Fp :=
  match bg with
  | .g1 => decFp .e5m2 byte
  | .g2 => decFp .e4m3 byte
  | .g3 => decE8 byte
  | .g4 => decFp .f32 (qn4Scale byte super)
  | _ => .fin false 1 0

/-- A window read as a compact list of element codes, row by row, with its scales and superscales. -/
structure Plane where
  shape : Shape := {}
  elems : List (List Nat) := []
  scales : List (List Nat) := []
  supers : List Nat := []
  deriving DecidableEq, Repr

/-- What the window of a tile or view holds in its base array. -/
def Tile.plane (b t : Tile) : Plane :=
  let sh := t.shape
  let rows := List.range sh.rows
  { shape := sh
    elems := rows.map fun r => (List.range sh.cols).map fun c => b.elem (t.row0 + r) (t.col0 + c)
    scales := if sh.bg.scaled then rows.map fun r => (List.range (blocksOf sh)).map fun j =>
        b.scale (t.row0 + r) (t.col0 / blockOf sh.bg + j) else []
    supers := if sh.bg == .g4 then rows.map fun r => b.super (t.row0 + r) else [] }

/-- Reads a tile or view as its window (R135, R137). -/
def State.readPlane (s : State) (core : Nat) (t : Tile) : Plane := (s.baseTile core t).plane t

def enumL {α : Type} (l : List α) : List (Nat × α) := (List.range l.length).zip l

/-- Writes element codes, scales and superscales into a window of the base array. -/
def Tile.writePlane (b : Tile) (row0 col0 : Nat) (p : Plane) : Tile :=
  let b := (enumL p.elems).foldl (fun b r => (enumL r.2).foldl (fun b c => b.setElem (row0 + r.1) (col0 + c.1) c.2) b) b
  let b := (enumL p.scales).foldl (fun b r => (enumL r.2).foldl
    (fun b j => b.setByte (scaleOff b.shape (row0 + r.1) (col0 / blockOf b.shape.bg + j.1)) (BitVec.ofNat 8 j.2)) b) b
  (enumL p.supers).foldl (fun b r => b.setBytes (superOff b.shape (row0 + r.1)) (leBytes 4 r.2)) b

/-- R63, R69, R70: the array of a compact tile that holds a plane: zeros wherever padding stands. -/
def planeBytes (p : Plane) : List Host.Cell :=
  let t : Tile := { shape := { p.shape with acc := false } }
  (t.writePlane 0 0 p).bytes

/-- R63, R69, R70: a plane's array from bytes that were read for it: padding is written as zero. -/
def compactBytes (sh : Shape) (bs : List Host.Cell) : List Host.Cell :=
  let t : Tile := { shape := { sh with acc := false }, bytes := bs }
  let rows := List.range sh.rows
  planeBytes
    { shape := sh
      elems := rows.map fun r => (List.range sh.cols).map fun c => t.elem r c
      scales := if sh.bg.scaled then rows.map fun r => (List.range (blocksOf sh)).map fun j => t.scale r j else []
      supers := if sh.bg == .g4 then rows.map fun r => t.super r else [] }

/-! ## Granules (R136) -/

/-- The granules that a byte range touches. -/
def granuleSpan (off n : Nat) : List Nat :=
  if n == 0 then [] else (List.range ((off + n - 1) / 64 + 1 - off / 64)).map fun i => off / 64 + i

/-- The granules of the elements and scales of one row of a window. -/
def rowGrans (sh : Shape) (r c0 cols : Nat) : List Nat :=
  let b := tyBits sh.ty
  let lo := r * rowBytes sh + c0 * b / 8
  let el := granuleSpan lo (r * rowBytes sh + ceilDiv ((c0 + cols) * b) 8 - lo)
  let j0 := c0 / blockOf sh.bg
  let sc := if sh.bg.scaled then granuleSpan (scaleOff sh r j0) (ceilDiv (c0 + cols) (blockOf sh.bg) - j0) else []
  let su := if sh.bg == .g4 then granuleSpan (superOff sh r) 4 else []
  el ++ (su ++ sc).eraseDups

/-- The granules of a window, row by row. -/
def windowGrans (sh : Shape) (r0 c0 rows cols : Nat) : List Nat :=
  (List.range rows).flatMap fun r => rowGrans sh (r0 + r) c0 cols

/-- The row of a base array whose element or scale bytes a granule holds. -/
def granRow (sh : Shape) (g : Nat) : Nat :=
  if g * 64 < elemBytes sh then g * 64 / rowBytes sh else (g * 64 - elemBytes sh) / max (scaleRow sh) 1

/-- R136: one granule of a window is written as one event: element (r, c), scale (r, j) and superscale r of the window come
from the three functions; where the window reaches a row's end, the padding in the granule is zero (R63, R69, R70). -/
def Tile.writeGran (t : Tile) (g r0 c0 cols : Nat) (el sc : Nat → Nat → Nat) (su : Nat → Nat) : Tile :=
  let sh := t.shape
  let r := granRow sh g
  let b := tyBits sh.ty
  let base := g * 64
  let zero (t : Tile) (lo hi : Nat) : Tile := t.setBytes (max lo base) (List.replicate (min hi (base + 64) - max lo base) 0)
  let atEnd := c0 + cols == sh.cols
  if base < elemBytes sh then
    let first := (base - r * rowBytes sh) * 8 / b
    let lo := max first c0
    let hi := min (first + 512 / b) (c0 + cols)
    let t := if lo == first && (hi == first + 512 / b || atEnd) then t.mend [g] else t
    let t := (List.range (hi - lo)).foldl (fun t i => t.setElem r (lo + i) (el (r - r0) (lo + i - c0))) t
    if atEnd && !sh.acc then zero t (r * rowBytes sh + packedRow sh) ((r + 1) * rowBytes sh) else t
  else
    let j0 := c0 / blockOf sh.bg
    let j1 := ceilDiv (c0 + cols) (blockOf sh.bg)
    let t := (List.range (j1 - j0)).foldl (fun t i =>
      let o := scaleOff sh r (j0 + i)
      if base ≤ o && o < base + 64 then t.setByte o (BitVec.ofNat 8 (sc (r - r0) i)) else t) t
    let t := if c0 == 0 && atEnd then t.mend [g] else t
    let t := if sh.bg == .g4 && superOff sh r == base then t.setBytes base (leBytes 4 (su (r - r0))) else t
    if atEnd then zero t (scaleOff sh r (blocksOf sh)) (superOff sh r + scaleRow sh) else t

/-- R137: the sum modulo 255 of the residues of a byte array's 64-bit words. -/
def bytesResidue (bs : List Host.Cell) : Nat :=
  -- 256 mod 255 = 1, so a word's residue is the sum of its bytes
  (bs.foldl (fun a c => a + c.2.toNat) 0) % 255

/-- R137: the image of a tile or its window. -/
def State.imageOf (s : State) (core : Nat) (t : Tile) : TileImg :=
  let bs := planeBytes (s.readPlane core t)
  { shape := { t.shape with acc := false }, bytes := bs, res := bytesResidue bs, status := t.status }

/-- R130, R276: granules, accumulator rows and handle indices in use on a core. -/
def TileUnit.usedGranules (u : TileUnit) : Nat :=
  (u.tiles.map fun t => if t.view.isSome then 0 else granulesOf t.shape).sum

def TileUnit.usedRows (u : TileUnit) : Nat :=
  (u.tiles.map fun t => if t.view.isSome || !t.shape.acc then 0 else t.shape.rows).sum

/-- The lowest handle index that is neither live nor reserved. -/
def TileUnit.freeIdx (u : TileUnit) : Option Nat :=
  (List.range Config.tileIndices).find? fun i => !(u.tiles.any fun t => t.idx == i) && !(u.reserved.any fun r => r.2 == i)

/-- R130: the space of a shape is free. -/
def TileUnit.room (u : TileUnit) (sh : Shape) : Bool :=
  if sh.acc then decide (u.usedRows + sh.rows ≤ Config.accRows)
  else decide (u.usedGranules + granulesOf sh ≤ Config.granules)

/-- Whether a request fits now (R134). -/
def TileUnit.fits (u : TileUnit) (sh : Shape) (view : Bool) : Bool := u.freeIdx.isSome && (view || u.room sh)

/-- R134: a request that can never be met. -/
def neverFits (sh : Shape) : Bool :=
  if sh.acc then decide (Config.accRows < sh.rows) else decide (Config.granules < granulesOf sh)

end Sys2Proof.Machine
end

