-- ==== Sys2Proof/Machine/Operands.lean ====
section
/-! DEFINITION. Operands: immediates (R24), positions (R93, R94, R139), tokens formed from values (R11, R19), and
address operands with their checks (R35, R36, R201, R202, R280, R282, R289, R293). -/

namespace Sys2Proof.Machine

/-! ## Token kinds and statuses -/

def kScalar : Nat := 0
def kTile : Nat := 1
def kCont : Nat := 2
def kEos : Nat := 3
def kPoison : Nat := 4
def kDecision : Nat := 5

/-- R37. -/
def stExtentBound : Nat := 0x01
def stTagMismatch : Nat := 0x02
def stAddrMismatch : Nat := 0x03
def stDataUe : Nat := 0x04
def stResidue : Nat := 0x05
def stRoute : Nat := 0x06
def stPageFault : Nat := 0x07
def stLinkTimeout : Nat := 0x08
def stIndeterminate : Nat := 0x09
def stWeightUe : Nat := 0x0A
def stFormat : Nat := 0x0B
def stPerm : Nat := 0x0C
def stOversize : Nat := 0x0D
def stAbandoned : Nat := 0x0E
def stPoisonIn : Nat := 0x0F
def stBadSpace : Nat := 0x10

/-- R11. -/
def residue255 (v : Word) : Nat := v.toNat % 255

/-- A token formed by a firing: its phase and priority are the firing's, its residue that of its value (R11, R96). -/
def mkTok (site : Site) (kind : Nat) (v : Word) : Tok := ⟨v, kind, site.phase, residue255 v, site.prio⟩

def scalarTok (site : Site) (v : Word) : Tok := mkTok site kScalar v

/-- A value that a firing moves on unchanged keeps its residue (R98). -/
def carryTok (site : Site) (t : Tok) : Tok := { t with phase := site.phase, prio := site.prio }

/-- R19: a poison value that arises at a site. DEDUCED (log 37). -/
def poisonVal (s : State) (site : Site) (st : Nat) : Word :=
  BitVec.ofNat 64 (s.plat.pkg * 2 ^ 52 + site.core * 2 ^ 44 + site.block * 2 ^ 38 + site.node * 2 ^ 31 + st)

def poisonTok (s : State) (site : Site) (st : Nat) : Tok := mkTok site kPoison (poisonVal s site st)

/-- The status that a poison value carries (R19). -/
def poisonStatus (v : Word) : Nat := v.toNat % 256

/-- R24: an immediate in an operand position, a scalar extended by TY. -/
def immTok (t : Ty) (imm : BitVec 32) : Tok :=
  let v : Word := if tySigned t || tyIsFloat t then imm.signExtend 64 else imm.zeroExtend 64
  { val := v, kind := kScalar, res := residue255 v }

/-- R94: the token that a firing with poison or EOS among its inputs emits. -/
def badInput (ops : List Tok) : Option Tok :=
  match ops.find? fun t => t.kind == kPoison with
  | some t => some t
  | none => ops.find? fun t => t.kind == kEos

/-- R93: a read position accepts KIND 0 and KIND 5. -/
def isRead (t : Tok) : Bool := t.kind == kScalar || t.kind == kDecision

/-! ## Physical addresses -/

/-- R278: package id of a physical address. -/
def paPkg (pa : Nat) : Nat := pa / 2 ^ 44 % 4096

def paLocal (pa : Nat) : Nat := pa % 2 ^ 44

def State.isLocal (s : State) (pa : Nat) : Bool := paPkg pa == 0xFFF || paPkg pa == s.plat.pkg

/-- R178: a physical address with its package id written out. -/
def State.absPa (s : State) (pa : Nat) : Nat := (if s.isLocal pa then s.plat.pkg else paPkg pa) * 2 ^ 44 + paLocal pa

/-- A local address in the form a chunk holds it. -/
def ownPa (a : Nat) : Nat := 0xFFF * 2 ^ 44 + a

/-- R422: the key of an encrypted access by a tenant. -/
def State.keyFor (s : State) (tenant pa : Nat) (enc : Bool) : Nat :=
  if enc then
    match s.tenant? tenant with
    | some t => if paLocal pa < hbmTop then t.keyH else t.keyT
    | none => 0
  else 0

/-- R280: every bank that a shared-memory range touches belongs to the tenant. -/
def State.banksOk (s : State) (tenant a n : Nat) : Bool :=
  if n == 0 then true else
    (List.range ((a - shmBase + n - 1) / 0x100000 + 1 - (a - shmBase) / 0x100000)).all fun i =>
      s.plat.banks.contains ((a - shmBase) / 0x100000 + i, tenant)

/-! ## Address operands -/

def spaceOf (a : Word) : Nat := bf a.toNat 60 4

/-- R35: the fields of each SPACE; a nonzero bit elsewhere is BAD_SPACE. DEDUCED (log 67). -/
def spaceFields (a : Word) : Bool :=
  let n := a.toNat % 2 ^ 60
  match spaceOf a with
  | 0 => true
  | 1 => decide (n < 2 ^ 26)
  | 2 => decide (n < 2 ^ 35) && bf n 26 6 == 0
  | 3 => bf n 32 24 == 0
  | 5 => decide (n < 2 ^ 44)
  | _ => false

/-- What an access is for: which spaces and extents the instruction accepts (R201). -/
structure Use where
  spaces : List Nat := [0, 1, 2, 3, 5]
  read : Bool := true
  write : Bool := false
  /-- Copy-engine use: copy-only and network extents are reached (R291). -/
  copy : Bool := false
  /-- The device's own use of e13 to e15 (R289). -/
  device : Bool := false
  deriving DecidableEq, Repr

/-- Where a checked access lands. -/
structure Target where
  /-- Parts with their length and offset in the access, ascending. -/
  parts : List (Loc × Nat × Nat) := []
  /-- FA of the page, when the access has a page attribute. -/
  fa : Option Nat := none
  /-- R217: the access path. -/
  path : Nat := 0
  /-- A copy-only extent: virtual address to translate page by page; a network extent: queue pair and offset. -/
  va : Option Nat := none
  net : Option (Nat × Nat) := none
  deriving DecidableEq, Repr

/-- The 64 bytes of a pipe descriptor, as a number (R224). -/
def State.pipeWord (s : State) (pa : Nat) : Nat := leNat (Memory.getMany s.ms.mem pa 64)

/-- R224: SIZE, RING and the reserved fields of a descriptor are legal. -/
def pipeOk (d : Nat) : Bool :=
  let ring := BitVec.ofNat 64 (bf d 64 64)
  decide (1 ≤ bf d 128 32) && decide (bf d 128 32 ≤ 2 ^ 20) && bf d 384 128 == 0 && bf d 160 32 == 0 && bf d 1 63 == 0 &&
    (spaceOf ring == 1 || spaceOf ring == 2) && spaceFields ring && bf ring.toNat 0 6 == 0

/-- R36, R224: the local address of a ring whose descriptor lies at `pa`. -/
def ringBase (pa d : Nat) : Nat :=
  let ring := bf d 64 64
  let die := if ring / 2 ^ 60 == 1 then (pa - shmBase) / 0x4000000 else bf ring 32 3
  shmBase + die * 0x4000000 + ring % 2 ^ 26

/-- R293: the parts of a direct extent's range, split at page boundaries (`k` pages at most). -/
def chunkParts (x : Extent) (tag : Nat) (key : Nat → Nat) : Nat → Nat → Nat → Nat → List (Loc × Nat × Nat)
  | 0, _, _, _ => []
  | k + 1, o, n, done =>
    if n == 0 then [] else
      let va := x.vbase + o
      let psb := if x.ps == 0 then 2 ^ 21 else 2 ^ 30
      let pa := x.chunks.getD (va / psb - x.vbase / psb) 0 + va % psb
      let len := min n (psb - va % psb)
      (.mem pa tag (key pa), len, done) :: chunkParts x tag key k (o + len) (n - len) (done + len)

/-- R217: the access path of a physical address, seen from a core. -/
def State.pathOf (s : State) (core pa : Nat) : Nat :=
  if !s.isLocal pa then 5
  else if paLocal pa < hbmTop then 3
  else if paLocal pa < shmTop then (if (paLocal pa - shmBase) / 0x4000000 == dieOf core then 1 else 2)
  else 4

/-- R202: the CID of the slot of a firing. -/
def State.cidOf (s : State) (site : Site) : Nat :=
  match s.cslot? site.core site.cslot with
  | some k => k.cid
  | none => ((s.ctx? site.ctx).map fun c => c.cid).getD 0

/-- R201, R202, R280: an access of `n` bytes in an extent; `cid` is that of the firing's slot. DEDUCED (log 68). -/
def resolveExtent (s : State) (c : Ctx) (core cid : Nat) (u : Use) (a : Word) (n : Nat) : Except Nat Target :=
  let e := bf a.toNat 56 4
  let o := a.toNat % 2 ^ 56
  let x := c.extents.getD e {}
  if 13 ≤ e && !u.device then .error stPerm
  else if !x.v || x.len ≤ o || x.len < o + n then .error stExtentBound
  else if x.kind != 0 && !u.copy then .error stPerm
  else if (u.read && x.perm % 2 == 0) || (u.write && x.perm / 2 == 0) || (e == 12 && u.write) then .error stPerm
  else if x.kind == 0 && x.cid != 0 && x.cid != cid then .error stPerm
  else match x.kind with
    | 0 =>
      let parts := chunkParts x x.atag (fun pa => s.keyFor c.tenant pa x.enc) 65 o n 0
      let pas := parts.map fun p => match p.1 with
        | .mem pa _ _ => pa
        | _ => 0
      if pas.any fun pa => !s.isLocal pa && Table.get s.plat.l2p (paPkg pa) == 0 && !(s.plat.l2p.any fun e => e.1 == paPkg pa)
      then .error stAddrMismatch
      else if pas.any fun pa => s.isLocal pa && !s.localOk (paLocal pa) then .error stAddrMismatch
      else .ok { parts := parts, fa := some x.fa, path := s.pathOf core (pas.headD 0) }
    | 1 => .ok { va := some (x.vbase + o), path := 7 }
    | _ => .ok { net := some (x.chunks.headD 0, o), path := 5 }

/-- R35, R36, R201, R202: checks an address operand of a firing at a core, for `n` bytes. DEDUCED (log 67). -/
def State.resolve (s : State) (site : Site) (u : Use) (a : Word) (n : Nat) : Except Nat Target :=
  match s.ctx? site.ctx with
  | none => .error stExtentBound
  | some c =>
    let sp := spaceOf a
    let shm (die o : Nat) : Except Nat Target :=
      let pa := shmBase + die * 0x4000000 + o
      if 0x4000000 < o + n then .error stExtentBound
      else if !s.banksOk c.tenant pa n then .error stPerm
      else .ok { parts := [(.mem (ownPa pa) 0 0, n, 0)], path := if die == dieOf site.core then 1 else 2 }
    if !spaceFields a then .error stBadSpace
    else if !u.spaces.contains sp then .error stFormat
    else match sp with
      | 0 => resolveExtent s c site.core (if u.device then c.cid else s.cidOf site) u a n
      | 1 => shm (dieOf site.core) (a.toNat % 2 ^ 26)
      | 2 => shm (bf a.toNat 32 3) (a.toNat % 2 ^ 26)
      | 3 =>
        match c.pipes.find? fun p => p.1 == bf a.toNat 56 4 with
        | none => .error stExtentBound
        | some p =>
          let d := s.pipeWord p.2
          let o := a.toNat % 2 ^ 32
          let base := ringBase p.2 d
          if bf d 128 32 * 64 ≤ o || bf d 128 32 * 64 < o + n then .error stExtentBound
          else if !s.banksOk c.tenant (base + o) n then .error stPerm
          else .ok { parts := [(.mem (ownPa (base + o)) 0 0, n, 0)], path := 6 }
      | _ =>
        let idx := bf a.toNat 32 12
        let t := s.tile? site.core idx
        if (s.core site.core).tile.gen idx != bf a.toNat 24 8 then .error stTagMismatch
        else match t with
          | none => .error stTagMismatch
          | some t =>
            let b := s.baseTile site.core t
            let o := a.toNat % 2 ^ 24
            if tileSize b.shape ≤ o || tileSize b.shape < o + n then .error stExtentBound
            else .ok { parts := [(.tile site.core b.idx o, n, 0)], path := 0 }

/-- R72: FA's type and geometry, when the page is typed. -/
def faTyped (fa : Option Nat) : Option (Nat × Nat) :=
  match fa with
  | none => none
  | some f => if f / 256 % 2 == 1 || (f % 16 == 15 && f / 16 % 16 == 0) then none else some (f % 16, f / 16 % 16)

/-- R73: the type and geometry of a formed access: `t`, `g` as the instruction names them (code 15: as page). -/
def formatOf (fa : Option Nat) (t : Ty) (g : Option Geom) : Except Nat (Ty × Geom) :=
  match faTyped fa with
  | none => .ok (t, g.getD .g0)
  | some (ft, fg) =>
    match geomOfCode fg with
    | none => .error stFormat
    | some bg =>
      let ty := tyOfCode ft
      if bg == .g5 || !pairOk ty bg then .error stFormat
      else if t != .none && t != ty then .error stFormat
      else if t != .none && g.isSome && g != some bg then .error stFormat
      else .ok (ty, bg)

/-- R73: a page that may be named as the scale address of an element geometry (R71). -/
def scalePageOk (fa : Option Nat) (g : Geom) : Bool :=
  match faTyped fa with
  | none => true
  | some (ft, fg) => fg == 5 && ft == (match g with
    | .g1 => 0xC
    | .g2 => 0xB
    | .g3 => 0xF
    | _ => 0x4)

/-- The bytes at a local place, without any check: what the home node holds (R335). -/
def State.peek (s : State) (p : Loc) (n : Nat) : List Byte :=
  match p with
  | .mem pa _ key => (List.range n).map fun i => keyByte s (paLocal pa + i) key
  | .tile core idx off => match s.tile? core idx with
    | some t => t.getBytes off n
    | none => List.replicate n blank
  | _ => List.replicate n blank

end Sys2Proof.Machine
end

