-- ==== Sys2Proof/Machine/Flags.lean ====
section
/-! DEFINITION. Flags and status words of a context: FPFLAGS (R77), CTX_STATUS (R246), CTX_PRIO (R238), rights. -/

namespace Sys2Proof.Machine

/-- R77: raises flags in a context's FPFLAGS; none is ever cleared by the device. DEDUCED (log 39). -/
def State.raise (s : State) (ctx f : Nat) : State :=
  if f == 0 then s else s.modRegs ctx fun r => { r with fpflags := (r.fpflags ||| f) % 32 }

/-- R246: records an event with a status in CTX_STATUS. -/
def State.record (s : State) (ctx st : Nat) : State :=
  s.modRegs ctx fun r =>
    { r with status := if r.status == 0 then st else r.status, quar := min (r.quar + 1) 255 }

/-- R17, R405: a quarantined token: counted where it is, recorded where it was emitted. DEDUCED (log 38). -/
def State.quarantine (s : State) (core : Nat) (q : QTok) (st : Nat) : State :=
  let s := s.countRoute core
  if q.epkg == s.plat.pkg then
    if q.ecore == core then s.record q.ectx st else { s with reports := s.reports ++ [(q.ecore, q.ectx, st)] }
  else s.send (.report q.epkg q.ecore q.ectx st)

/-- R246: the CTX_STATUS word. -/
def statusWord (r : CtxRegs) : Word :=
  BitVec.ofNat 64 (r.status * 2 ^ 56 + r.child * 2 ^ 48 + r.orphans * 2 ^ 32 + r.pinned * 2 ^ 24 + r.quar * 2 ^ 16 + r.kids)

/-- R238, R318: CTX_PRIO.EFF. -/
def CtxRegs.eff (r : CtxRegs) : Nat := r.raises.foldl min r.base

def State.eff (s : State) (ctx : Nat) : Nat := match s.ctx? ctx with
  | some c => c.regs.eff
  | none => 3

/-- R379, R390: jobs are named by their tenant and their JOB. DESIGN CHOICE (log 110). -/
def jobKey (tenant job : Nat) : Nat := tenant * 65536 + job

/-- DESIGN CHOICE (log 110). -/
def Ctx.jobKey (c : Ctx) : Nat := Machine.jobKey c.tenant c.job

def Job.key (j : Job) : Nat := jobKey j.tenant j.id

/-- R379: the job entry of a job. -/
def State.job? (s : State) (key : Nat) : Option Job := s.plat.jobs.find? fun j => j.key == key

def State.modJob (s : State) (key : Nat) (f : Job → Job) : State :=
  s.modPlat fun p => { p with jobs := p.jobs.map fun j => if j.key == key then f j else j }

/-- R391: a right bit of a context's job: 3 HALT, 2 STEP, 1 TRACE, 0 WATCH. -/
def State.right (s : State) (key bit : Nat) : Bool :=
  match s.job? key with
  | some j => bf j.rights bit 1 == 1
  | none => false

end Sys2Proof.Machine
end

