-- ==== Sys2Proof/Machine/Translate.lean ====
section
/-! DEFINITION. Page tables (R283 to R288), the walks of the Dispatcher and of the copy path, and building extents
(R291, R292). -/

namespace Sys2Proof.Machine

def leafPerm (w : Nat) : Nat := bf w 61 2
def leafCid (w : Nat) : Nat := bf w 53 8
def leafFa (w : Nat) : Nat := bf w 44 9
def leafAtag (w : Nat) : Nat := bf w 40 4
def leafSize (w : Nat) : Nat := bf w 12 4
def leafEnc (w : Nat) : Bool := bf w 3 1 == 1
def leafRemote (w : Nat) : Bool := bf w 2 1 == 1
def leafHost (w : Nat) : Bool := bf w 1 1 == 1

/-- R285: local address bits [43:12] of the page. -/
def leafAddr (w : Nat) : Nat := bf w 16 24 * 2 ^ 20 + bf w 4 8 * 2 ^ 12

/-- R283: bytes that a leaf size maps. -/
def leafBytes : Nat → Nat
  | 0 => 2 ^ 12 | 1 => 2 ^ 16 | 2 => 2 ^ 21 | _ => 2 ^ 30

/-- R283: the leaf sizes of a level. -/
def sizeAtLevel (level size : Nat) : Bool :=
  match level with
  | 0 => size == 0 || size == 1
  | 1 => size == 2
  | 2 => size == 3
  | _ => false

/-- An entry of a table. -/
def State.tableWord (s : State) (table i : Nat) : Nat := leNat (Memory.getMany s.ms.mem (table + 8 * i) 8)

/-- R284: a table entry is well formed. -/
def nextOk (level w : Nat) : Bool :=
  bf w 56 7 == 0 && bf w 16 8 == 0 && bf w 0 12 == 0 && decide (bf w 24 32 * 2 ^ 12 < hbmTop) && level != 0

/-- R284: the table that an entry points to. -/
def nextTable (w : Nat) : Nat := bf w 24 32 * 2 ^ 12

/-- R286: a leaf found at `level` is well formed, the other entries of a 64 KiB leaf apart. -/
def State.leafForm (s : State) (level w : Nat) : Bool :=
  sizeAtLevel level (leafSize w) && leafAddr w % leafBytes (leafSize w) == 0 && bf w 0 1 == 0 &&
    !(leafRemote w && leafHost w) && (decide (leafSize w < 2) || bf w 4 8 == 0) &&
    (if leafRemote w then bf w 16 12 == 0 && bf w 4 8 == 0 else leafHost w || s.localOk (leafAddr w))

/-- R286: the index of the `k`-th entry after entry `i` of the 16 of its 64 KiB leaf. -/
def leafMate (i k : Nat) : Nat := i / 16 * 16 + (i + k) % 16

/-- R286: a leaf found at `level` in entry `i` of a table is well formed. -/
def State.leafOk (s : State) (table level i w : Nat) : Bool :=
  s.leafForm level w && (leafSize w != 1 || (List.range 16).all fun k => s.tableWord table (leafMate i k) == w)

/-- R282, R288: a package that a forwarded walk can reach. -/
def State.otherPkg (s : State) (pkg : Nat) : Bool := pkg != 0xFFF && pkg != s.plat.pkg && s.plat.l2p.any fun e => e.1 == pkg

/-- R288: the final leaf of a forwarded walk; a REMOTE leaf, no tables there, or no other package, fails. -/
def State.forwarded (s : State) (tenant va w : Nat) : WalkEnd :=
  let pkg := bf w 28 12
  if !s.otherPkg pkg then .malformed
  else match Config.remoteLeaf s.fresh pkg tenant va with
    | none => .malformed
    | some r =>
      if bf r 63 1 == 0 then .absent
      else if leafRemote r || bf r 0 1 == 1 || decide (3 < leafSize r) || leafAddr r % leafBytes (leafSize r) != 0 then .malformed
      else .leaf r (leafBytes (leafSize r)) pkg

/-- R285, R288: how a walk that has found a well-formed leaf ends; one that another package forwarded fails on a REMOTE leaf. -/
def State.leafEnd (s : State) (served : Bool) (tenant va w : Nat) : WalkEnd :=
  if leafRemote w then (if served then .malformed else s.forwarded tenant va w) else .leaf w (leafBytes (leafSize w)) 0xFFF

/-- R283: the index of an address in a table, `k` levels above the last. -/
def levelIndex (va k : Nat) : Nat := va / 2 ^ (12 + 9 * k) % 512

/-- R283 to R288: walks from a table at a level down, all at once. -/
def State.walkFrom (s : State) (tenant va : Nat) : Nat → Nat → WalkEnd
  | 0, _ => .malformed
  | k + 1, table =>
    let i := levelIndex va k
    let w := s.tableWord table i
    if bf w 63 1 == 0 then .absent
    else if leafSize w == 15 then (if nextOk k w then s.walkFrom tenant va k (nextTable w) else .malformed)
    else if !s.leafOk table k i w then .malformed
    else s.leafEnd false tenant va w

/-- R287, R406: reads one entry of a table, as one event of 8 bytes with the tag that its sector has: status, entry. DESIGN CHOICE (log 175). -/
def State.readEntry (s : State) (table i : Nat) : Nat × Nat × State :=
  let a := table + 8 * i
  let sec := a / 32
  let tag := Table.get s.ms.tags sec
  (sectorStatus s sec tag, s.tableWord table i, s.sectorRead sec tag)

/-- R283 to R286: what an entry read at a walk's position means: the position after it, or how the walk ends. -/
def State.walkEntry (s : State) (served : Bool) (tenant va : Nat) (pos : WalkPos) (w : Nat) : WalkPos ⊕ WalkEnd :=
  match pos.leaf with
  | some x =>
    -- R286: one of the other entries of a 64 KiB leaf
    if w != x then .inr .malformed
    else if pos.same ≤ 1 then .inr (s.leafEnd served tenant va x)
    else .inl { pos with same := pos.same - 1 }
  | none =>
    let k := pos.left - 1
    if bf w 63 1 == 0 then .inr .absent
    else if leafSize w == 15 then (if nextOk k w then .inl { left := k, table := some (nextTable w) } else .inr .malformed)
    else if !s.leafForm k w then .inr .malformed
    else if leafSize w == 1 then .inl { pos with leaf := some w, same := 15 }
    else .inr (s.leafEnd served tenant va w)

/-- R287: one event of a walk: the next entry is read. DESIGN CHOICE (log 73). -/
def State.walkOn (s : State) (served : Bool) (tenant va : Nat) (pos : WalkPos) : (WalkPos ⊕ WalkEnd) × State :=
  match s.tenant? tenant with
  | none => (.inr .absent, s)
  | some t =>
    if 2 ^ 48 ≤ va || pos.left == 0 then (.inr .malformed, s)
    else
      let i := levelIndex va (pos.left - 1)
      let r := s.readEntry (pos.table.getD t.root) (if pos.leaf.isSome then leafMate i pos.same else i)
      if r.1 != 0 then (.inr (.failed r.1), r.2.2)
      else (s.walkEntry served tenant va pos r.2.1, { r.2.2 with fresh := s.fresh + 1 })

/-- A walk of a tenant's tables. -/
def State.walk (s : State) (tenant va : Nat) : WalkEnd :=
  match s.tenant? tenant with
  | none => .absent
  | some t => if 2 ^ 48 ≤ va then .malformed else s.walkFrom tenant va 4 t.root

/-- The 56-bit physical address of a byte of a page. -/
def leafPa (w size pkg va : Nat) : Nat := pkg * 2 ^ 44 + leafAddr w + va % size

/-- The place that a leaf gives a virtual address. -/
def State.leafLoc (s : State) (tenant w size pkg va : Nat) : Loc :=
  if leafHost w then .host (leafAddr w + va % size)
  else
    let pa := leafPa w size pkg va
    .mem pa (leafAtag w) (s.keyFor tenant pa (leafEnc w))

/-- R291: the pages of a virtual range as far as `look` knows them, `k` pages at most, and the first address it does not know. -/
def pagesBy (look : Nat → Option WalkEnd) (last : Nat) : Nat → Nat → List (Nat × WalkEnd) × Option Nat
  | 0, _ => ([], none)
  | k + 1, va =>
    if last < va then ([], none) else
      match look va with
      | none => ([], some va)
      | some r =>
        let size := match r with
          | .leaf _ size _ => size
          | _ => 4096
        let t := pagesBy look last k (va / size * size + size)
        ((va, r) :: t.1, t.2)

/-- The bytes of a page from an address on, up to the end of a range. -/
def pageSpan (last va : Nat) (r : WalkEnd) : Nat :=
  let size := match r with
    | .leaf _ size _ => size
    | _ => 4096
  min (last + 1) (va / size * size + size) - va

/-- R291: builds the extent of a range from its pages, or the status that rejects the packet. -/
def State.buildExtent (s : State) (ps : List (Nat × WalkEnd)) (tenant base len perm : Nat) (net : Bool) : Except Nat Extent :=
  if net then
    -- R438
    let known := match s.tenant? tenant with
      | some t => t.conns.any fun c => c.1 == bf base 32 16
      | none => false
    if bf base 0 32 != 0 || bf base 48 16 != 0 then .error stFormat
    else if !known then .error stExtentBound
    else .ok { v := true, kind := 2, perm := perm, len := len, vbase := base, chunks := [bf base 32 16] }
  else if 2 ^ 48 < base + len then .error stFormat
  else
    let leaves := ps.filterMap fun p => match p.2 with
      | .leaf w size pkg => some (w, size, pkg)
      | _ => none
    let failedReads := ps.map fun p => match p.2 with
      | .failed st => st
      | _ => 0
    if leaves.any fun l => leafPerm l.1 &&& perm != perm then .error stPerm
    else if ps.any fun p => p.2 == .malformed then .error stFormat
    else if failedReads.any fun st => st != 0 then .error (firstNonzero failedReads)
    else
      let same (f : Nat → Nat) : Bool := match leaves with
        | [] => true
        | l :: ls => ls.all fun x => f x.1 == f l.1
      let direct := ps.all (fun p => p.2 != .absent) && leaves.all (fun l => decide (2 ≤ leafSize l.1) && !leafHost l.1) &&
        same leafSize && same leafCid && same leafFa && same leafAtag && same (fun w => bf w 3 1) && decide (ps.length ≤ 64)
      let x := (leaves.headD (0, 0, 0)).1
      if direct then
        .ok { v := true, kind := 0, cid := leafCid x, fa := leafFa x, atag := leafAtag x, perm := perm,
              ps := leafSize x - 2, len := len, vbase := base, enc := leafEnc x,
              chunks := leaves.map fun l => l.2.2 * 2 ^ 44 + leafAddr l.1 }
      else .ok { v := true, kind := 1, perm := perm, len := len, vbase := base }

/-- R292: an extent record of 576 bytes read by XTSET; `none` where a rule of R292 is broken. -/
def State.readExtent (s : State) (bytes : List Byte) : Option Extent :=
  let h := leNat (bytes.take 64)
  let nch := bf h 179 6
  let ps := bf h 178 1
  let psb := if ps == 0 then 2 ^ 21 else 2 ^ 30
  let kind := bf h 176 2
  let words := (List.range 64).map fun i => leNat ((bytes.drop (64 + 8 * i)).take 8)
  let used := words.take (nch + 1)
  let vbase := bf h 0 64
  let len := bf h 64 64
  let okChunk (w : Nat) : Bool := decide (w < 2 ^ 56) && w % psb == 0 && s.localOk (paLocal w)
  if bf h 209 303 == 0 && bf h 128 48 == 0 && kind != 3 && decide (vbase < 2 ^ 48) && decide (1 ≤ len) && decide (len ≤ 2 ^ 48) &&
      (words.drop (nch + 1)).all (· == 0) &&
      (if kind == 0 then used.all okChunk && decide (len ≤ (nch + 1) * psb - vbase % psb)
       else nch == 0 && (if kind == 1 then used.all okChunk else used.all fun w => decide (w < 4096))) then
    some { v := bf h 208 1 == 1, kind := kind, cid := bf h 200 8, fa := bf h 191 9, atag := bf h 187 4, perm := bf h 185 2,
           ps := ps, len := len, vbase := vbase, chunks := used }
  else none

end Sys2Proof.Machine
end

