-- ==== Sys2Proof/Machine/Ops.lean ====
section
/-! DEFINITION. The shared operations of the token engine: references (R95, R132, R133), emission (R11, R97),
acceptance (R17, R18, R31, R32, R324), activations (R111, R252), memory requests (R204, R366), engine-command
records (R138, R367), taking a trap and returning from it (R350 to R356), halting and freezing (R359, R381). -/

namespace Sys2Proof.Machine

/-! ## References -/

/-- R95, R132: the count of a handle index changes once, by `up` less `down`; beyond 65,535 the tile is pinned. -/
def State.changeRefs (s : State) (core idx up down : Nat) : State :=
  match s.tile? core idx with
  | none => s
  | some t =>
    let n := t.refs + up - down
    let tooMany := decide (65535 < n)
    let s := s.modTileIdx core idx fun t =>
      { t with refs := if t.pinned then t.refs else min n 65535, pinned := t.pinned || tooMany }
    if tooMany && !t.pinned then s.modRegs t.ctx fun r => { r with pinned := min (r.pinned + 1) 255 } else s

/-- R132: the same for the tile of a handle; a stale handle changes nothing. -/
def State.addRefs (s : State) (core : Nat) (h : Word) (up down : Nat) : State :=
  match s.tileOf? core h with
  | none => s
  | some t => s.changeRefs core t.idx up down

/-- R140: the units of space of a tile (granules, or accumulator rows) that hold more than zeros, each from its byte 0. -/
def Tile.remains (t : Tile) : List (List Host.Cell) :=
  let unit := if t.shape.acc then 1024 else 64
  if t.view.isSome then [] else
    (((t.bytes.map fun c => c.1 / unit).eraseDups).map fun u =>
      (t.bytes.filter fun c => c.1 / unit == u).map fun c => (c.1 % unit, c.2))

/-- R140: what a tile held stays in the space that it gives back. -/
def TileUnit.giveBack (u : TileUnit) (t : Tile) : TileUnit :=
  if t.shape.acc then { u with leftRows := u.leftRows ++ t.remains } else { u with left := u.left ++ t.remains }

/-- R133: frees a handle index. -/
def State.freeIdx (s : State) (core idx : Nat) : State :=
  s.modTile core fun u =>
    let u : TileUnit := match u.find? idx with
      | some t => u.giveBack t
      | none => u
    { u with tiles := u.tiles.filter fun t => t.idx != idx, gens := Table.set u.gens idx ((u.gen idx + 1) % 256) }

/-- R133: frees a tile whose count has reached zero. -/
def State.sweepIdx (s : State) (core idx : Nat) : State :=
  match s.tile? core idx with
  | none => s
  | some t =>
    if t.refs == 0 && !t.pinned then
      let s := s.freeIdx core idx
      match t.view with
      | none => s
      | some v =>
        let s := s.changeRefs core v.base 0 1
        match s.tile? core v.base with
        | some b => if b.refs == 0 && !b.pinned then s.freeIdx core v.base else s
        | none => s
    else s

/-- R133: frees the tile of a handle when its count is zero. -/
def State.sweepTile (s : State) (core : Nat) (h : Word) : State :=
  match s.tileOf? core h with
  | some t => s.sweepIdx core t.idx
  | none => s

/-- R11: Release. -/
def State.release (s : State) (core : Nat) (t : Tok) : State :=
  if t.kind == kTile then (s.addRefs core t.val 0 1).sweepTile core t.val else s

/-! ## Regions, blocks, frames -/

/-- R29: the descriptor of a block on a core. DESIGN CHOICE (log 14). -/
def Core.descOf (c : Core) (cslot block : Nat) : Nat :=
  match c.desc.find? fun d => d.1 == cslot * 64 + block with
  | some d => d.2.toNat
  | none => 0

def descFsize (d : Nat) : Nat := bf d 56 8 + 1
def descNinstr (d : Nat) : Nat := bf d 49 7 + 1
def descKb (d : Nat) : Nat := bf d 43 6 + 1
def descExits (d : Nat) : Nat := bf d 27 16
def descPrio (d : Nat) : Nat := bf d 25 2
def descPriv (d : Nat) : Bool := bf d 24 1 == 1
def descHist (d : Nat) : Bool := bf d 23 1 == 1
def descTrace (d : Nat) : Bool := bf d 22 1 == 1
def descTbl (d : Nat) : Bool := bf d 21 1 == 1
def descValid (d : Nat) : Bool := bf d 20 1 == 1

/-- R30: a code word. -/
def Core.word (c : Core) (cslot block i : Nat) : IWord :=
  match c.code.find? fun e => e.1 == cslot * 8192 + block * 128 + i with
  | some e => e.2
  | none => 0

/-- R30: entry `j` of a table block. -/
def Core.tableEntry (c : Core) (cslot block j : Nat) : Dest :=
  ((destOfCode (bf (c.word cslot block (j / 8)).toNat (j % 8 * 16) 11)).getD .none)

/-- R47: a core holds a block. -/
def State.holds (s : State) (core cs block : Nat) : Bool :=
  match s.cslot? core cs with
  | some k => k.placed.contains (block, core)
  | none => false

def FrameUnit.find? (u : FrameUnit) (n : Nat) : Option Frame := u.frames.find? fun f => f.num == n

def State.frame? (s : State) (core n : Nat) : Option Frame := (s.core core).frm.find? n

def State.modFrame (s : State) (core n : Nat) (f : Frame → Frame) : State :=
  s.modFrm core fun u => { u with frames := u.frames.map fun x => if x.num == n then f x else x }

/-- R252: slot groups of 8 in use. -/
def FrameUnit.groups (u : FrameUnit) : Nat := (u.frames.map fun f => ceilDiv f.slots.length 8).sum

/-- R254: a descriptor and enough slots are free for a frame of `n` slots. -/
def FrameUnit.fits (u : FrameUnit) (n : Nat) : Bool :=
  (u.free.any fun f => !(u.reserved.any fun r => r.2 == f)) && decide (u.groups + ceilDiv n 8 ≤ 4096)

/-- R247: the linear index of coordinates. -/
def linearIndex (levels : List (Nat × Nat × Nat)) (xs : List Nat) : Nat :=
  ((levels.zip xs).foldl (fun a p => a * p.1.2.1 + p.2) 0)

/-! ## Tracing (R396 to R399) -/

/-- Bytes that come from outside the package, one draw for the read. DESIGN CHOICE (log 72). -/
def State.outsideBytes (s : State) (n : Nat) : List Byte × State :=
  ((List.range n).map fun i => Config.outsideByte s.fresh i, { s with fresh := s.fresh + 1 })

/-- The device's own 8-byte read at an address operand of a context (R289, R395, R396); a word of another package is drawn. DESIGN CHOICE (log 162). -/
def State.devGet (s : State) (site : Site) (a : Word) : Nat × State :=
  match s.resolve site { device := true } a 8 with
  | .ok t => match t.parts.head? with
    | some (.mem pa tag key, _) =>
      if s.isLocal pa then (leNat (s.peek (.mem pa tag key) 8), s) else ((leNat (s.outsideBytes 8).1), (s.outsideBytes 8).2)
    | _ => (0, s)
  | .error _ => (0, s)

/-- R282: an event of the device's own on another package, whose answer nothing awaits. DESIGN CHOICE (log 162). -/
def State.devSend (s : State) (site : Site) (p : Piece) (pa : Nat) : State :=
  let tenant := match s.ctx? site.ctx with
    | some c => c.tenant
    | none => 0
  (s.modMs fun m => { m with reqSeq := m.reqSeq + 1 }).send (.request
    { id := s.ms.reqSeq, site := site, st := 2, paddr := pa, kind := .part, pieces := [p], pieces0 := [p], noEntry := true,
      tenant := tenant, first := s.wall, last := s.wall } (paPkg pa))

/-- The device's own write at an address operand of a context. DESIGN CHOICE (log 162). -/
def State.devPut (s : State) (site : Site) (a : Word) (bs : List Byte) : State :=
  match s.resolve site { write := true, read := false, device := true } a bs.length with
  | .ok t => t.parts.foldl (fun s p =>
    let part := (bs.drop p.2.2).take p.2.1
    match p.1 with
    | .mem pa tag key =>
      if s.isLocal pa then (s.writePhys (paLocal pa) part tag key).2
      else s.devSend site { place := p.1, len := p.2.1, op := .write part } pa
    | _ => s) s
  | .error _ => s

/-- R395, R396: the device's own atomic add to a 64-bit word at an address operand of a context; the word counts modulo `2 ^ w`. DESIGN CHOICE (log 162). -/
def State.devAdd (s : State) (site : Site) (a : Word) (n w : Nat) : State :=
  match s.resolve site { write := true, device := true } a 8 with
  | .ok t => match t.parts.head? with
    | some (.mem pa tag key, _) =>
      if s.isLocal pa then
        (s.writePhys (paLocal pa) (leBytes 8 ((leNat (s.peek (.mem pa tag key) 8) + n) % 2 ^ w)) tag key).2
      else s.devSend site { place := .mem pa tag key, len := 8, op := .update 0 .z64 n } pa
    | _ => s
  | .error _ => s

/-- R396, R397: claims and writes one record; with the buffer full or out of reach the record is dropped. It answers whether
the record is written. -/
def State.traceWrite (s : State) (site : Site) (typ : Nat) (delta : Nat) (w1 w2 w3 : Word) : Bool × State :=
  match s.ctx? site.ctx with
  | none => (false, s)
  | some c =>
    let base := c.regs.trace
    let size := s.devGet site base
    let claimed := size.2.devGet site (base + 8)
    let read := claimed.2.devGet site (base + 16)
    let s := read.2
    let k := claimed.1 % 2 ^ 32
    if size.1 == 0 || decide (size.1 ≤ (k + 2 ^ 32 - read.1 % 2 ^ 32) % 2 ^ 32) then
      (false, (s.devAdd site (base + 24) 1 64).perfCtx site.ctx 0x0E 1)
    else
      let w0 := typ * 2 ^ 60 + delta * 2 ^ 44 + site.core * 2 ^ 36 + site.cslot * 2 ^ 34 + site.block * 2 ^ 28 +
        site.node * 2 ^ 21 + site.frame * 2 ^ 9 + k / size.1 % 256
      (true, (s.devAdd site (base + 8) 1 32).devPut site (base + BitVec.ofNat 64 (64 + 32 * (k % size.1)))
        (leBytes 8 w0 ++ leBytes 8 w1.toNat ++ leBytes 8 w2.toNat ++ leBytes 8 w3.toNat))

/-- R397, R398: notes the instant of a context's last record in its buffer by a core, and of its last GTC record. -/
def State.noteTrace (s : State) (core ctx last gtc : Nat) : State :=
  s.modCore core fun k => { k with traced := (ctx, last, gtc) :: k.traced.filter fun t => t.1 != ctx }

/-- R398: writes a GTC record. DEDUCED (log 163). -/
def State.gtcRec (s : State) (core ctx : Nat) : State :=
  let w := s.traceWrite { core := core, ctx := ctx } 0 0 (BitVec.ofNat 64 s.gtc) 0 0
  if w.1 then w.2.noteTrace core ctx s.gtc s.gtc else w.2

/-- R398: whether a GTC record must come before the next record of a core. -/
def State.gtcDue (s : State) (core ctx : Nat) : Bool :=
  match (s.core core).traced.find? fun t => t.1 == ctx with
  | none => true
  | some (_, last, gtc) => decide (gtc + 65536 ≤ s.gtc) || decide (last + 65535 < s.gtc)

/-- R397, R398: a trace record, with the GTC record that must precede it; where that is dropped, so is the record. The location
fields of a record without a node are zero. DEDUCED (log 163). -/
def State.traceRec (s : State) (site : Site) (typ : Nat) (w1 w2 w3 : Word) : State :=
  match s.ctx? site.ctx with
  | none => s
  | some c =>
    if c.regs.trace == 0 then (if typ == 4 then s.perfCtx site.ctx 0x0E 1 else s)
    else
      let s := if s.gtcDue site.core site.ctx then s.gtcRec site.core site.ctx else s
      if s.gtcDue site.core site.ctx then (s.devAdd site (c.regs.trace + 24) 1 64).perfCtx site.ctx 0x0E 1
      else
        let (last, gtc) := (((s.core site.core).traced.find? fun t => t.1 == site.ctx).map fun t => t.2).getD (s.gtc, s.gtc)
        let w := s.traceWrite site typ (s.gtc - last) w1 w2 w3
        if w.1 then w.2.noteTrace site.core site.ctx s.gtc gtc else w.2

/-- R26: a node's trace bit and its block's. -/
def State.traced (s : State) (site : Site) (trcf : Bool) : Bool :=
  trcf && descTrace ((s.core site.core).descOf site.cslot site.block)

/-! ## Emission -/

/-- R204: opcodes whose firing takes an IFR entry. -/
def needsEntry (opc : Nat) : Bool :=
  [0x140, 0x141, 0x142, 0x143, 0x14A, 0x14B, 0x14C, 0x14D, 0x180, 0x181, 0x182, 0x183, 0x184, 0x185, 0x186, 0x187, 0x188,
   0x189].contains opc

/-- R138, R182, R204: opcodes whose firing takes an engine-command record. -/
def needsRecord (opc : Nat) : Bool :=
  [0xC5, 0xC6, 0xC7, 0xCA, 0xCB, 0x100, 0x102, 0x103, 0x104, 0x105, 0x144, 0x145, 0x146, 0x147, 0x18B].contains opc

/-- R301: the stream of a firing's results: loads, stores, atomics, pipe operations and engine commands keep no order (0), the
others that of the token engine (1). -/
def State.resultStream (s : State) (site : Site) : Nat :=
  let opc := (Fields.ofNat ((s.core site.core).word site.cslot site.block site.node).toNat).opc
  if needsEntry opc || needsRecord opc then 0 else 1

/-- A token to a port of a frame on a core of this package. -/
def toFrame (site : Site) (pkg due stream : Nat) (core frame cs block node port : Nat) (t : Tok) : QTok :=
  { tok := t, core := core, frame := frame, cslot := cs, block := block, instr := node, port := port, epkg := pkg,
    ecore := site.core, ectx := site.ctx, dst := .frame, due := due, stream := stream }

/-- R238, R408: reads granules of a tile's array: whether one had an uncorrectable error, with what that and the corrected ones
count; TARGET 3 of RAS_INJECT strikes each next tile-store granule read. DEDUCED (log 55). DEDUCED (log 178). -/
def State.readGrans (s : State) (core : Nat) (b : Tile) (gs : List Nat) : Bool × State :=
  let x := (s.core core).regs
  let k := if x.rasTarget == 3 && !b.shape.acc then min x.rasCount gs.length else 0
  let bad := (gs.filter fun g => b.ue.contains g).length
  let s := if k == 0 then s else s.modCoreRegs core fun x => { x with rasCount := x.rasCount - k }
  (decide (0 < k + bad), s.countErrs (dieOf core) (gs.filter fun g => b.ce.contains g).length (k + bad))

/-- R238, R408: reads rows of a tile's window. DEDUCED (log 55). -/
def State.readRows (s : State) (core : Nat) (t : Tile) (r n : Nat) : Bool × State :=
  let b := s.baseTile core t
  s.readGrans core b (windowGrans b.shape (t.row0 + r) t.col0 n t.shape.cols)

/-- R137, R257: a handle leaves its core or its context: its tile begins to leave, granule by granule, and the reference that the
emission added stays behind until the last one has left. A stale handle becomes poison of the firing. DESIGN CHOICE (log 139). DEDUCED (log 141). -/
def State.depart (s : State) (site : Site) (q : QTok) : QTok × State :=
  if q.tok.kind != kTile || q.tile.isSome then (q, s)
  else
    let from' : Site := { site with phase := q.tok.phase, prio := q.tok.prio }
    match s.tileOf? site.core q.tok.val with
    | some t =>
      let d : Departure :=
        { id := s.departSeq, core := site.core, handle := q.tok.val, view := t
          left := windowGrans (s.baseTile site.core t).shape t.row0 t.col0 t.shape.rows t.shape.cols, fail := poisonTok s from' stDataUe }
      ({ q with tile := some { shape := { t.shape with acc := false }, dep := d.id } },
        { s with departing := s.departing ++ [d], departSeq := s.departSeq + 1 })
    | none => ({ q with tok := poisonTok s from' stTagMismatch }, s)

/-- R137: the tile of a departure as it was read, or poison where it could not be, in the token that carries it. -/
def Departure.fill (d : Departure) (b : Tile) (q : QTok) : QTok :=
  match q.tile with
  | none => q
  | some m =>
    if m.dep != d.id then q
    else if d.ue then { q with tok := { d.fail with phase := q.tok.phase }, tile := none }
    else
      let bs := planeBytes ({ b with bytes := d.buf }.plane d.view)
      { q with tile := some { m with bytes := bs, res := bytesResidue bs, status := d.view.status } }

/-- R136, R137: one granule of a departing tile leaves its core; after the last the token may arrive, or leaves the package, and
the emission's reference goes. -/
def State.leaveGran (s : State) (d : Departure) (g : Nat) : State :=
  let b := s.baseTile d.core d.view
  let u := s.readGrans d.core b [g]
  let s := u.2
  let d : Departure := { d with left := d.left.erase g, ue := d.ue || u.1, buf := Memory.setMany d.buf (g * 64) (b.getBytes (g * 64) 64),
                                view := { d.view with status := ((s.tile? d.core d.view.idx).map fun t => t.status).getD d.view.status } }
  if !d.left.isEmpty then { s with departing := s.departing.map fun x => if x.id == d.id then d else x }
  else
    let own (q : QTok) : QTok := if q.epkg == s.plat.pkg then d.fill b q else q
    let s : State := { s with departing := s.departing.filter fun x => x.id != d.id, flight := s.flight.map own }
    let s := s.release d.core { kind := kTile, val := d.handle }
    match d.out with
    | some (q, pkg) => s.send (.token (d.fill b q) pkg)
    | none => s

/-- The granules of some departing tiles all leave. -/
def State.leaveAll (s : State) (which : Departure → Bool) : State :=
  (s.departing.filter which).foldl (fun s d => d.left.foldl (fun s g =>
    match s.departing.find? fun x => x.id == d.id with
    | some x => s.leaveGran x g
    | none => s) s) s

/-- R238, R329: what every token that leaves a core meets: RAS_INJECT may corrupt its residue. -/
def State.inject2 (s : State) (core : Nat) (q : QTok) : QTok × State :=
  let r := (s.core core).regs
  if r.rasTarget == 2 && r.rasCount != 0 then
    ({ q with tok := { q.tok with res := (q.tok.res + 1) % 256 } },
      s.modCoreRegs core fun r => { r with rasCount := r.rasCount - 1 })
  else (q, s)

/-- Sends one token of this package: a phase above 0 is gained in its region (R329). -/
def State.push (s : State) (core : Nat) (q : QTok) : State :=
  let x := s.inject2 core q
  let s := match x.2.region? core with
    | some g => if q.tok.phase == 0 then x.2 else
        x.2.modRegion g.home fun g => { g with gained := Table.add g.gained q.tok.phase 1 }
    | none => x.2
  { s with flight := s.flight ++ [x.1] }

/-- Sends a token to another package; one with a tile goes once that has been read (R137). -/
def State.pushOut (s : State) (core : Nat) (q : QTok) (pkg : Nat) : State :=
  let x := s.inject2 core q
  let waits (d : Departure) : Bool := x.1.tile.any fun m => m.dep == d.id
  if x.2.departing.any waits then
    { x.2 with departing := x.2.departing.map fun d => if waits d then { d with out := some (x.1, pkg) } else d }
  else x.2.send (.token x.1 pkg)

/-- A package id of a target names this package (R15). -/
def State.isHere (s : State) (pkg : Nat) : Bool := pkg == 0xFFF || pkg == s.plat.pkg

/-- Delivers a token toward an in-port of a core of some package; `route` entries keep their order (R97). A token that
stays on its core has ROUTE 0 (R16). -/
def State.toInport (s : State) (site : Site) (lat : Nat) (t : Tok) (pkg core iport cid route stream : Nat) : State :=
  let here := s.isHere pkg
  let stays := here && core == site.core
  let leaves := !here || match s.region? site.core with
    | some g => !g.cores.contains core
    | none => true
  let q : QTok :=
    { tok := if leaves then { t with phase := 0 } else t, core := core, route := if stays then 0 else route,
      epkg := s.plat.pkg, ecore := site.core, ectx := site.ctx, etenant := (s.ctx? site.ctx).map fun c => c.tenant, dst := .inport iport cid (route != 0),
      due := if stays then s.clk site.core + lat else 0, stream := stream }
  if stays then s.push site.core q
  else
    let x := s.depart site q
    if here then x.2.push site.core x.1 else x.2.pushOut site.core x.1 pkg

/-- R49: the route entries of an out-port of a core. -/
def State.routesOf (s : State) (site : Site) (p : Nat) : List Word :=
  match s.cslot? site.core site.cslot with
  | none => []
  | some k => k.routes.filter fun w => bf w.toNat 56 8 == site.core && bf w.toNat 50 6 == p

/-- Emits a token to a destination field from a firing, `lat` clk later (R25, R49, R97). `stream` 0 keeps no order among
the results for one port, 1 is the token engine's (R301). -/
def State.emitAs (s : State) (site : Site) (lat stream : Nat) (d : Dest) (t : Tok) : State :=
  match d with
  | .none => s
  | .node n p =>
    s.push site.core (toFrame site s.plat.pkg (s.clk site.core + lat) stream site.core site.frame
      site.cslot site.block n.toNat (portCode p) t)
  | .out p =>
    (s.routesOf site p.toNat).foldl
      (fun s w => s.toInport site lat t (bf w.toNat 28 12) (bf w.toNat 20 8) (bf w.toNat 14 6) (bf w.toNat 6 8)
        (bf w.toNat 40 10) (2 + site.core * 64 + p.toNat)) s

/-- R95: how many tokens an emission to a destination field sends. -/
def State.emitCount (s : State) (site : Site) (d : Dest) : Nat :=
  match d with
  | .none => 0
  | .node _ _ => 1
  | .out p => (s.routesOf site p.toNat).length

/-- The same token to three destinations. -/
def spread (p : Par) (t : Tok) : List (Dest × Tok) := [(p.d0, t), (p.d1, t), (p.d2, t)]

/-- R95: a firing's emissions, D0 before D1 before D2, and then, once for each tile, the change of its references: one
more for each token sent, one less for each operand consumed. -/
def State.settle (s : State) (site : Site) (lat stream : Nat) (ems : List (Dest × Tok)) (used : List Tok) : State :=
  let out := ems.filter fun e => e.2.kind == kTile
  let back := used.filter fun t => t.kind == kTile
  let hs := (out.map (fun e => e.2.val) ++ back.map fun t => t.val).eraseDups
  let up (h : Word) : Nat := (out.map fun e => if e.2.val == h then s.emitCount site e.1 else 0).sum
  let down (h : Word) : Nat := (back.filter fun t => t.val == h).length
  let s := ems.foldl (fun s e => s.emitAs site lat stream e.1 e.2) s
  let s := hs.foldl (fun s h => s.addRefs site.core h (up h) (down h)) s
  hs.foldl (fun s h => s.sweepTile site.core h) s

/-- Emissions that consume no operand. -/
def State.emitAll (s : State) (site : Site) (lat stream : Nat) (ems : List (Dest × Tok)) : State :=
  s.settle site lat stream ems []

/-- A firing that completes in the token engine: emissions, references, trace (R26), counter (R239). -/
def State.finish (s : State) (p : Par) (lat : Nat) (ems : List (Dest × Tok)) (used : List Tok) : State :=
  let site := s.cur.site
  let s := s.settle site lat (s.resultStream site) ems used
  let s := s.perfCtx site.ctx 0x00 1
  if s.traced site p.trcf then
    let d0 := match ems.find? fun e => e.1 == p.d0 && p.d0 != .none with
      | some e => e.2.val
      | none => 0
    s.traceRec site 3 s.cur.l.val d0 0
  else s

/-- A firing whose operands are examined first: R94 forwards poison and EOS to every destination. -/
def State.firing (s : State) (p : Par) (lat : Nat) (ops : List Tok) (k : State → State) :
    Host.Outcome State Fault Refusal :=
  match badInput ops with
  | some t => .next (s.finish p lat (spread p (carryTok s.cur.site t)) ops)
  | none => .next (k s)

/-- A firing that fails: poison with this firing as origin to every destination. DEDUCED (log 35). -/
def State.failing (s : State) (p : Par) (lat : Nat) (st : Nat) (ops : List Tok) : State :=
  s.finish p lat (spread p (poisonTok s s.cur.site st)) ops

/-- Latencies of R97 and R138. DEDUCED (log 36). -/
def latGraph : Nat := 2
def latScalar : Nat := 4
def latTile : Nat := 6

/-! ## Activations -/

/-- The end of a record: it is free, with the pipelines and units it held. -/
def State.dropEng (s : State) (core idx : Nat) : State :=
  s.modEng core fun g =>
    { g with recs := g.recs.filter fun e => e.idx != idx, taken := g.taken.filter fun t => t.1 != idx
             matrix := g.matrix.filter fun i => i != idx }

/-- R164, R165: a stream's state tile is freed, and with it what it was granted or still asks for. -/
def State.freeStream (s : State) (core : Nat) (e : Eng) : State :=
  let s := (e.stream.stateTile.toList ++ e.stream.outs).foldl (fun s i => (s.changeRefs core i 0 1).sweepIdx core i) s
  let other (r : TileReq) : Bool := !(r.why == 2 && r.owner == e.idx)
  s.modTile core fun u => { u with fifo := u.fifo.filter other, accFifo := u.accFifo.filter other }

/-- R165: an open stream closes with its activation. -/
def State.dropStream (s : State) (core : Nat) (e : Eng) : State :=
  (((s.raise e.site.ctx e.stream.flags).record e.site.ctx stAbandoned).freeStream core e).dropEng core e.idx

/-- R165: streams of an activation close with it; one with rows already fired closes after them. -/
def State.closeStreams (s : State) (core frame ctx : Nat) : State :=
  let mine := (s.core core).eng.recs.filter fun e =>
    e.site.frame == frame && e.site.ctx == ctx && e.stream.opened && !e.stream.closing
  mine.foldl (fun s e =>
    if e.stream.rows.isEmpty && e.stream.mrows.isEmpty then s.dropStream core e
    else s.modEng core fun g => { g with recs := g.recs.map fun x =>
      if x.idx == e.idx then { x with stream := { x.stream with closing := true } } else x }) s

/-- R110, R254: a loop's pending requests move to the allocation FIFO while LIVE and the requests there stay below KB. DEDUCED (log 48). -/
def FrameUnit.pump (u : FrameUnit) (id : Nat) : FrameUnit :=
  match u.loops.find? fun l => l.id == id with
  | none => u
  | some l =>
    let queued := (u.fifo.filter fun q => q.why == .iter id).length
    let n := l.kb - (l.live + queued)
    { u with fifo := u.fifo ++ l.pend.take n
             loops := u.loops.map fun x => if x.id == id then { x with pend := x.pend.drop n } else x }

/-- R110: an iteration of a loop has completed: LIVE falls, and the record is freed when nothing is left. DEDUCED (log 48). -/
def FrameUnit.iterDone (u : FrameUnit) (id : Nat) : FrameUnit :=
  let u : FrameUnit := { u with loops := u.loops.map fun l => if l.id == id then { l with live := l.live - 1 } else l }
  let u : FrameUnit := u.pump id
  { u with loops := u.loops.filter fun l =>
      l.id != id || l.live != 0 || !l.pend.isEmpty || (u.fifo.any fun q => q.why == .iter id) }

/-- R111, R253: the activation in a frame completes; parked operands are released and, unless a handler's, counted. DEDUCED (log 163). -/
def State.completeFrame (s : State) (core n : Nat) : State :=
  match s.frame? core n with
  | none => s
  | some f =>
    let count := if f.hnd then 0 else
      (f.slots.map fun x => if x.pres == 0 then 0 else bf x.pres 0 1 + bf x.pres 1 1 + bf x.pres 2 1).sum
    let s := f.slots.foldl (fun s x => s.release core x.tok) s
    let s := s.modRegs f.ctx fun r => { r with orphans := min (r.orphans + count) 65535 }
    let s := s.closeStreams core n f.ctx
    let s := if descTrace ((s.core core).descOf f.cslot f.block) then
      s.traceRec { core := core, ctx := f.ctx } 2 (BitVec.ofNat 64 count) 0 0 else s
    s.modFrm core fun u =>
      let u : FrameUnit := { u with frames := u.frames.filter fun x => x.num != n, free := u.free ++ [n] }
      match f.loop with
      | some id => u.iterDone id
      | none => u

/-- A new frame of a block (R104, R252): slots empty, variable slots KIND 0 with value 0. -/
def newFrame (num ctx cs block : Nat) (d : Nat) (inst : List Nat) : Frame :=
  { num := num, ctx := ctx, cslot := cs, block := block, exits := descExits d, inst := inst,
    slots := List.replicate (descFsize d) {} }

/-! ## Traps and halts -/

/-- R354: the location part of a trap; imprecise traps carry none. -/
def trapWord (s : State) (t : Trap) : Word :=
  let seat := match s.ctx? t.site.ctx with
    | some c => Table.get c.seats t.core
    | none => 0
  BitVec.ofNat 64 (t.cause * 2 ^ 56 + seat * 2 ^ 52 + t.site.block * 2 ^ 42 + t.site.cslot * 2 ^ 40 + t.site.frame * 2 ^ 28 +
    t.site.node * 2 ^ 21 + t.code)

/-- R379: the HEN bit of a cause. -/
def henBit (cause : Nat) : Option Nat :=
  match cause with
  | 1 => some 0 | 2 => some 1 | 3 => some 2 | 4 => some 3 | 6 => some 5 | _ => none

/-- R380: whether a trap is halt-enabled; `own` is the HALT bit of its watchpoint or comparator. -/
def State.haltEnabled (s : State) (ctx cause : Nat) (own : Bool) : Bool :=
  match s.ctx? ctx with
  | none => false
  | some c => match s.job? c.jobKey with
    | none => false
    | some j => bf j.rights 3 1 == 1 && (own || match henBit cause with
      | some b => bf j.hen b 1 == 1
      | none => false)

/-- R368: the node numbers of a package. -/
def nodeCount : Nat := 1028

/-- R179, R184: what a physical slot becomes when its bindings or references have fallen; `n`: entries into IDLE so far. -/
def WSlot.settle (w : WSlot) (n : Nat) : WSlot :=
  if w.bound.isEmpty && w.holds == 0 then
    match w.state with
    | .ready => { w with state := .idle, idleAt := n }
    | .failed => { w with state := .empty }
    | _ => w
  else w

/-- R179, R180: changes the physical slots of a core, of which some may enter IDLE. -/
def Engines.modSlots (g : Engines) (f : Nat → WSlot → WSlot) : Engines :=
  { g with pw := (enumL g.pw).map fun w => WSlot.settle (f w.1 w.2) g.idleSeq, idleSeq := g.idleSeq + 1 }

/-- Passes and rows of a command that hold physical slot `i` (R179, R187). -/
def Eng.holdsOf (e : Eng) (i : Nat) : Nat :=
  match e.kind with
  | .wld _ _ _ => 0
  | _ => (e.slots.filter fun x => x.1 == i).length + (e.stream.mrows.map fun r => (r.slots.filter fun x => x.1 == i).length).sum

/-- Renames the physical slots that a command holds. -/
def Eng.mapSlots (e : Eng) (f : Nat × WKey → Nat × WKey) : Eng :=
  { e with slots := e.slots.map f
           stream := { e.stream with mrows := e.stream.mrows.map fun r => { r with slots := r.slots.map f } } }

/-- R183: a WLD that has not ended. -/
def Eng.loads (e : Eng) : Bool :=
  match e.kind with
  | .wld _ _ _ => e.step == .running || e.step == .waiting
  | _ => false

/-- A command that only reads memory, and holds what it reads: WLD and CLOAD. -/
def Eng.readsOnly (e : Eng) : Bool :=
  match e.kind with
  | .wld _ _ _ | .cload _ => true
  | _ => false

/-- R183, R229: everything that a WLD or CLOAD asked for has been read. -/
def Eng.allRead (e : Eng) : Bool := e.moves.all fun m => m.src.isEmpty && m.asked.isEmpty

/-- R189: WLDs stop. A load in progress passes to the oldest other WLD that waits for it, which starts it anew; with none,
its slot is EMPTY, and who holds it finds it again by its key. -/
def Engines.handOn (g : Engines) (stops : Eng → Bool) : Engines :=
  let waits (i : Nat) (e : Eng) : Bool := e.loads && e.slots.any fun x => x.1 == i
  let heir (i : Nat) : Option Eng := g.recs.find? fun e => !stops e && waits i e
  let stopped (w : WSlot) : Bool := w.state == .loading && g.recs.any fun e => e.idx == w.loader && stops e
  let lost (i : Nat) : Bool := stopped (g.pw.getD i {}) && (heir i).isNone
  let free (i : Nat) (w : WSlot) : WSlot :=
    if w.state != .loading then w
    else
      let w := { w with bound := w.bound.filter fun b => !(g.recs.any fun e => stops e && waits i e && e.site.ctx == b.1) }
      if !stopped w then w else match heir i with
        | some e => { w with loader := e.idx }
        | none => {}
  { g with pw := (enumL g.pw).map fun w => free w.1 w.2
           recs := g.recs.map fun e => if e.loads then e else e.mapSlots fun x => if lost x.1 then (4, x.2) else x }

/-- R198: a Pan group without some of its members. -/
def Engines.leave (g : Engines) (p : PanGroup) (gone : Nat → Bool) : PanGroup :=
  let left := p.members.filter fun m => !gone m
  { p with members := left, rows := ((g.recs.filter fun e => left.contains e.idx).map fun e => e.total).sum }

/-- R187 to R191: a matrix command whose context freezes stops at a row boundary: a row that has not committed is not
issued, and what goes on afterwards asks for the engine again. R200: an MMA of which no row has issued is as never issued. -/
def Eng.stopped (e : Eng) : Eng :=
  match e.kind with
  | .wld _ _ _ => if e.loads then { e with step := .waiting, slots := [], st := 1, moves := [], fail := 0 } else e
  | .mma arow acol koff zacc hold =>
    if e.step != .running then { e with pan := none }
    else if e.row == 0 && hold.isSome then { e with step := .waiting, pan := none }
    else { e with kind := .mma arow acol koff zacc none, row := match e.inflight with
             | x :: _ => x.1
             | [] => e.row, inflight := [], step := .queued, pan := none }
  | .mmas _ _ _ =>
    { e with row := 0, total := 0, inflight := [], step := .waiting
             stream := { e.stream with mrows := e.stream.mrows.map fun r => { r with phase := if r.phase == 1 then 0 else r.phase } } }
  | .adrain _ _ _ _ _ _ => if e.step == .running then { e with step := .queued } else e
  | .aclr => if e.step == .running then { e with step := .queued } else e
  | _ => e

/-- A command of a set that waits for a weight slot. -/
def WAsk.isCmd (a : WAsk) (f : Nat → Bool) : Bool :=
  match a with
  | .cmd i => f i
  | .back _ _ => false

/-- A restore of a context that waits for a weight slot. -/
def WAsk.isBack (a : WAsk) (id : Nat) : Bool :=
  match a with
  | .cmd _ => false
  | .back c _ => c == id

/-- R402: rows that an injected error struck and that a freeze discards: they are recorded not issued. -/
def Engines.struckRows (g : Engines) (gone : List Nat) : Nat :=
  ((g.recs.filter fun e => gone.contains e.site.ctx && !e.stepped).map fun e => (e.inflight.filter fun x => x.2 == 1).length).sum

/-- R189, R200: the matrix commands and weight loads of contexts that freeze stop, and Pan entries leave their groups. DEDUCED (log 62). -/
def Engines.stop (g : Engines) (gone : List Nat) : Engines :=
  let mine (e : Eng) : Bool := gone.contains e.site.ctx && !e.stepped
  let isMine (i : Nat) : Bool := g.recs.any fun e => e.idx == i && mine e
  let g := g.handOn mine
  { g with
    recs := g.recs.map fun e => if mine e then e.stopped else e
    pan := (g.pan.map fun p => if p.members.any isMine then
      { g.leave p isMine with closed := true, arb := if p.closed then p.arb else g.seq } else p).filter fun p => !p.members.isEmpty
    seq := g.seq + 1
    wFifo := g.wFifo.filter fun a => !a.isCmd isMine
    matrix := g.matrix.filter fun m => !isMine m
    wbuf := g.wbuf.filter fun m => !isMine m }

/-- What stands for the physical address of an access to the tile store, which has none and goes to no node (R366). DEDUCED (log 81). -/
def tilePa : Nat := 2 ^ 56 + ownPa 0

/-- The node of a place: R368's numbers for this package, `nodeCount` plus its package for another one. -/
def State.placeNode (s : State) (l : Loc) : Option Nat :=
  match l with
  | .mem pa _ _ => some (if s.isLocal pa then s.nodeOf (paLocal pa) else nodeCount + paPkg pa)
  | _ => none

/-- The nodes that a request has to hear from. -/
def State.reqNodes (s : State) (r : Req) : List Nat :=
  if tilePa ≤ r.paddr then []
  else if r.pieces.isEmpty then
    [if s.isLocal r.paddr then s.nodeOf (paLocal r.paddr) else nodeCount + paPkg r.paddr]
  else (r.pieces.filterMap fun p => s.placeNode p.place).eraseDups

/-- R359: the nodes to which a context's requests and copy granules on its cores are outstanding: core, node. -/
def State.owedFences (s : State) (c : Ctx) : List (Nat × Nat) :=
  let a := (s.ms.reqs.filter fun r => r.site.ctx == c.id && r.st == 2).flatMap fun r =>
    (s.reqNodes r).map fun n => (r.site.core, n)
  let b := c.seats.flatMap fun k => ((s.core k.1).eng.recs.filter fun e => e.site.ctx == c.id).flatMap fun e =>
    e.moves.flatMap fun m => (m.dst :: m.src.map fun x => x.1).filterMap fun l => (s.placeNode l).map fun n => (k.1, n)
  (a ++ b).eraseDups

/-- R229, R251, R259: a load that does not complete leaves its slot EMPTY; a region with four empty slots ends. -/
def State.unclaim (s : State) (home slot : Nat) : State :=
  let s := s.modRegion home fun g =>
    { g with slots := g.slots.modify slot fun k => if k.state == .loading then {} else k }
  { s with regions := s.regions.filter fun g => g.home != home || g.slots.any fun k => k.state != .empty }

/-- R229: a CLOAD of these contexts on a core discards what it did and will start again. -/
def State.stopLoads (s : State) (core : Nat) (gone : List Nat) : State :=
  ((s.core core).eng.recs.filter fun e => gone.contains e.site.ctx && e.step == .running).foldl (fun s e =>
    match e.kind with
    | .cload slot => (if e.claimed then s.unclaim e.row slot else s).modEng core fun g => { g with recs := g.recs.map fun x =>
        if x.idx == e.idx then
          { x with step := .waiting, st := 1, buf := [], total := 0, word := 0, fail := 0, claimed := false, pos := 0, moves := [] } else x }
    | _ => s) s

/-- R359 steps 1 to 4: freezes contexts that are not frozen yet; each request outstanding owes a fence. DEDUCED (log 62). -/
def State.freeze (s : State) (ids : List Nat) : State :=
  let todo := s.ctxs.filter fun c => ids.contains c.id && c.mode == .running
  let s := todo.foldl (fun s c =>
    let owed := s.owedFences c
    let pkgs := (owed.filterMap fun f => if nodeCount ≤ f.2 then some (f.2 - nodeCount) else none).eraseDups
    let s := pkgs.foldl (fun s p => s.send (.freeze p [c.id])) s
    let s := s.modCtx c.id fun c =>
      { c with mode := .frozen, fences := owed, settled := owed.isEmpty, froze := s.wall, marks := [], markers := []
               saved := { c.saved with settle := if owed.isEmpty then s.gtc else c.saved.settle }
               frozenAt := c.seats.map fun k => (k.1, s.clk k.1) }
    -- R397: the cause code of the halt
    let cause := match s.job? c.jobKey with
      | some j => if j.state == .running then 0 else j.local0.toNat % 256
      | none => 0
    c.seats.foldl (fun s k => s.traceRec { core := k.1, ctx := c.id } 8 (BitVec.ofNat 64 (cause * 256)) 0 0) s) s
  (todo.flatMap fun c => c.seats.map fun k => k.1).eraseDups.foldl
    (fun s core =>
      let gone := todo.map fun c => c.id
      let n := (s.core core).eng.struckRows gone
      let s := if n == 0 then s else s.modCoreRegs core fun r => { r with rasCount := min (r.rasCount + n) 255 }
      (s.stopLoads core gone).modEng core fun g => g.stop gone) s

/-- R384: NMORE counts a further trap of a job that is not running. -/
def Job.countMore (j : Job) : Job :=
  if j.state == .running || bf j.local0.toNat 8 9 == 511 then j else { j with local0 := j.local0 + 256 }

/-- R426: the other packages that a job's membership list names. -/
def State.peers (s : State) (job : Nat) : List Nat :=
  match s.plat.members.find? fun m => jobKey m.tenant m.job == job with
  | some m => m.packages.filter fun p => p != s.plat.pkg
  | none => []

/-- R381, R384: a halt of a job begins on this package. `relay`: its cause arose here (a trap or a HALT command), so the
other packages are told; else it is HALT_REMOTE, whose instant is the end of the stop. DEDUCED (log 111). -/
def State.beginHalt (s : State) (job : Nat) (w0 : Word) (w1 : Nat) (relay : Bool) : State :=
  match s.job? job with
  | none => s
  | some j =>
    if j.state != .running then s.modJob job Job.countMore
    else
      let s := s.modJob job fun j =>
        { j with state := .halting, since := s.wall, local0 := w0, local1 := BitVec.ofNat 64 w1, hasLocal := relay,
                 dom0 := if relay then w0 else 0, dom1 := if relay then BitVec.ofNat 64 w1 else 0, hasDom := relay, reported := [] }
      if relay then (s.peers job).foldl (fun s p => s.send (.cairn p job)) s else s

/-- R354, R376, R384: a trap that names no firing, token or access: ORPHAN, TIMER, and WATCH on the copy path or at HOME. -/
def Trap.imprecise (t : Trap) : Bool := t.cause == 4 || t.cause == 5 || (t.cause == 3 && decide (2 ≤ bf t.b.toNat 61 3))

/-- R384: word 0 of a cause register for a trap. -/
def causeWord (s : State) (t : Trap) : Word :=
  BitVec.ofNat 64 (s.plat.pkg * 2 ^ 52 + (if t.imprecise then 0 else t.site.core) * 2 ^ 44 + t.site.block * 2 ^ 38 + t.site.cslot * 2 ^ 36 +
    t.site.frame * 2 ^ 24 + t.site.node * 2 ^ 17 + t.cause)

/-- Taking a trap (R350 to R352): a halt-enabled one starts a Cairn halt and stays held; every other waits for its
handler, in the order raised. A trap held through a halt is released as RESUME at the resume instant. -/
def State.trap (s : State) (t : Trap) (own : Bool) : State :=
  let t := { t with raised := s.gtc, order := s.trapSeq }
  let s := { s with trapSeq := s.trapSeq + 1 }
  let halt := s.haltEnabled t.site.ctx t.cause own
  let stepping := match s.ctx? t.site.ctx with
    | some c => ((s.job? c.jobKey).map fun j => j.state == .stepping).getD false
    | none => false
  -- R386: a stepped firing's trap waits for the resume instant
  let mark := if !halt then 0 else if t.site.step || stepping then 2 ^ 33 else 2 ^ 32
  let s := s.modCtx t.site.ctx fun c => { c with traps := c.traps ++ [{ t with item := t.item + mark }] }
  match s.ctx? t.site.ctx with
  | none => s
  | some c =>
    if halt then s.beginHalt c.jobKey (causeWord s t) s.gtc true
    else s.modJob c.jobKey Job.countMore

/-- A trap that a halt holds (R352); one that a stepped firing raised and that may start a new halt (R386). DEDUCED (log 113). -/
def Trap.halted (t : Trap) : Bool := decide (2 ^ 32 ≤ t.item)
/-- DEDUCED (log 113). -/
def Trap.deferred (t : Trap) : Bool := decide (2 ^ 33 ≤ t.item)

/-- R359: a context runs. -/
def State.ctxRuns (s : State) (id : Nat) : Bool :=
  match s.ctx? id with
  | some c => c.mode == .running
  | none => false

/-! ## Acceptance -/

/-- R324: the class in which a token is filed. -/
def State.classOf (s : State) (core cs block ctx : Nat) : Nat :=
  max (s.eff ctx) (descPrio ((s.core core).descOf cs block))

def TokUnit.fifo (u : TokUnit) (c : Nat) : List QTok :=
  match c with
  | 0 => u.fifo0 | 1 => u.fifo1 | 2 => u.fifo2 | 3 => u.fifo3 | _ => u.handlerQ

def TokUnit.setFifo (u : TokUnit) (c : Nat) (l : List QTok) : TokUnit :=
  match c with
  | 0 => { u with fifo0 := l } | 1 => { u with fifo1 := l } | 2 => { u with fifo2 := l } | 3 => { u with fifo3 := l }
  | _ => { u with handlerQ := l }

/-- R324, R327: files a token at the tail of its FIFO, or of the handler queue. -/
def State.file (s : State) (core cls : Nat) (q : QTok) : State :=
  s.modTok core fun u => u.setFifo cls (u.fifo cls ++ [{ q with since := s.clk core }])

/-- R326: the effective priority of a context was `old`: its queued tokens whose class has changed on a core move to the
tail of their new FIFO, in their order. -/
def State.refileOn (s : State) (core ctx old : Nat) : State :=
  [0, 1, 2, 3].foldl (fun s c =>
    let prio (q : QTok) : Nat := descPrio ((s.core core).descOf q.cslot q.block)
    let moved := (((s.core core).tok.fifo c).filter fun q =>
      (match s.frame? core q.frame with
        | some f => f.ctx == ctx
        | none => false) && max (s.eff ctx) (prio q) != max old (prio q) && max (s.eff ctx) (prio q) != c)
    moved.foldl (fun s q => (s.modTok core fun u => u.setFifo c ((u.fifo c).erase q)).file core (max (s.eff ctx) (prio q)) q) s) s

/-- R318, R326: the effective priority of a context was `old`. -/
def State.refile (s : State) (ctx old : Nat) : State :=
  match s.ctx? ctx with
  | some c => if s.eff ctx == old then s else c.seats.foldl (fun s k => s.refileOn k.1 ctx old) s
  | none => s

/-- R16: a token's low 64 bits. -/
def tokenLow (q : QTok) : Word :=
  BitVec.ofNat 64 (q.core * 2 ^ 56 + q.frame * 2 ^ 44 + q.cslot * 2 ^ 42 + q.block * 2 ^ 36 + q.instr * 2 ^ 29 +
    q.port * 2 ^ 27 + q.tok.kind * 2 ^ 24 + q.tok.phase * 2 ^ 20 + q.tok.res * 2 ^ 12 + q.route * 2 ^ 2 + q.tok.prio)

/-- R392: the lowest enabled comparator, from `q.bp` on, that the token matches. -/
def State.brkHit (s : State) (core ctx : Nat) (q : QTok) : Option (Nat × Bool) :=
  let low := tokenLow q
  ((enumL (s.core core).brk).find? fun b =>
    decide (q.bp ≤ b.1) && bf b.2.ctl.toNat 0 1 == 1 && bf b.2.ctl.toNat 48 16 == ctx &&
      ((low ^^^ b.2.tok) &&& b.2.tmask) == 0 && ((q.tok.val ^^^ b.2.val) &&& b.2.vmask) == 0).map
    fun b => (b.1, bf b.2.ctl.toNat 1 1 == 1)

/-- R17: what the token engine checks of a token addressed to a frame. -/
def State.tokenOk (s : State) (core : Nat) (q : QTok) : Bool :=
  let d := (s.core core).descOf q.cslot q.block
  decide (q.port < 3) && decide (q.tok.kind < 6) && descValid d && !descTbl d && decide (q.instr < descNinstr d) &&
    match s.frame? core q.frame with
    | some f => f.cslot == q.cslot && f.block == q.block
    | none => false

/-- The context that holds the frame a token is addressed to. -/
def State.ctxOfTok (s : State) (core : Nat) (q : QTok) : Nat := match s.frame? core q.frame with
  | some f => f.ctx
  | none => 0

/-- The word of a token's target and its fields. -/
def State.targetWord (s : State) (core : Nat) (q : QTok) : Fields :=
  Fields.ofNat ((s.core core).word q.cslot q.block q.instr).toNat

/-- The operands that a word takes as tokens: AR of them (R24). -/
def tokenPort (f : Fields) (p : Nat) : Bool := decide (p < f.ar)

/-- The match slot of a word in a frame, with what is parked: SLOT holds the presence bits (R31). -/
def Frame.slot (f : Frame) (i : Nat) : Slot := f.slots.getD i {}

/-- Whether a token completes its target's match (R31). -/
def completes (ar pres port : Nat) : Bool :=
  pres ||| 2 ^ port == 2 ^ ar - 1

/-- Parks an operand (R11 Park, R31): the first in SLOT, the second in SLOT + 1. -/
def State.park (s : State) (core : Nat) (q : QTok) (slot : Nat) : State :=
  s.modFrame core q.frame fun f =>
    let first := f.slot slot
    let put (i : Nat) (x : Slot) (l : List Slot) : List Slot := l.set i x
    if first.pres == 0 then
      { f with slots := put slot { tok := q.tok, pres := 2 ^ q.port, vport := q.port, since := s.clk core } f.slots }
    else
      let two := put slot { first with pres := first.pres ||| 2 ^ q.port } f.slots
      { f with slots := put (slot + 1) { tok := q.tok, vport := q.port, pres := 0, since := s.clk core } two }

/-- R300: a token accepted before this one for the same port of the same instruction in the same frame still stands in
a queue, or is held by a CODE_UE trap. DEDUCED (log 142). -/
def State.earlier (s : State) (core : Nat) (q : QTok) : Bool :=
  let u := (s.core core).tok
  let ahead (x : QTok) : Bool := x.frame == q.frame && x.cslot == q.cslot && x.block == q.block && x.instr == q.instr &&
    x.port == q.port && decide (x.acc < q.acc)
  ([u.handlerQ, u.fifo0, u.fifo1, u.fifo2, u.fifo3].any fun l => l.any ahead) ||
    s.ctxs.any fun c => (c.traps ++ c.handler.toList).any fun t => t.cause == 6 && t.core == core && t.tok.any ahead

/-- Filing an accepted token (R32, R267): ready or out of turn into a FIFO, otherwise parked at once. -/
def State.place (s : State) (core : Nat) (q : QTok) : State :=
  match s.frame? core q.frame with
  | none => s
  | some f =>
    let w := s.targetWord core q
    let cls := if f.hnd then 4 else s.classOf core q.cslot q.block f.ctx
    let pres := (f.slot w.slot).pres
    if w.ar ≤ 1 || bf pres q.port 1 == 1 || completes w.ar pres q.port || s.earlier core q then
      s.file core cls { q with accAt := s.clk core }
    else (s.park core q w.slot).perfCtx f.ctx 0x01 1

/-- R17, R18, R392: the token engine accepts a token addressed to a frame. DEDUCED (log 12). DEDUCED (log 37). -/
def State.accept (s : State) (core : Nat) (q : QTok) : Host.Outcome State Fault Refusal :=
  if !s.tokenOk core q then .next ((s.quarantine core q stRoute).release core q.tok)
  else if !tokenPort (s.targetWord core q) q.port then .fault .noSuchOperand
  else
    let bad := residue255 q.tok.val != q.tok.res
    let site : Site := { core := core, phase := q.tok.phase, prio := q.tok.prio }
    let s := if bad then s.countResidue core else s
    let s := if bad then s.release core q.tok else s
    let q := if bad then { q with tok := mkTok site kPoison (poisonVal s site stResidue) } else q
    let q := { q with acc := (s.core core).tok.accSeq }
    let s := s.modTok core fun u => { u with accSeq := u.accSeq + 1 }
    let ctx := s.ctxOfTok core q
    let hnd := match s.frame? core q.frame with
      | some f => f.hnd
      | none => false
    match if hnd then none else s.brkHit core ctx q with
    | none => .next (s.place core { q with tile := none })
    | some (n, own) =>
      -- a matching token stays in its place unselected, at the tail of its FIFO
      let w := s.targetWord core q
      let cls := s.classOf core q.cslot q.block ctx
      let s := s.file core cls { q with held := true, bp := n + 1, accAt := s.clk core, tile := none }
      let here : Site := { core := core, ctx := ctx, frame := q.frame, cslot := q.cslot, block := q.block, node := q.instr }
      let t : Trap := { cause := 2, core := core, site := here, code := n, a := q.tok, b := tokenLow q, item := w.ar, tok := some q }
      .next (s.trap t own)

/-! ## In-flight records -/

/-- R366: a tag that the counter skips: 0, or one that an entry or an engine record of the context holds on the core. -/
def State.tagHeld (s : State) (ctx core t : Nat) : Bool :=
  t == 0 || (s.ms.reqs.any fun r => r.site.ctx == ctx && r.site.core == core && r.tag == t) ||
    ((s.core core).eng.recs.any fun e => e.site.ctx == ctx &&
      (e.tag == t || decide ((t + 2 ^ 24 - e.tagBase) % 2 ^ 24 < e.tagN) || e.moves.any fun m => m.tag == t))

/-- R366: the first tag from `t` on that is free with the `n` tags after it. -/
def firstTag (held : Nat → Bool) (n : Nat) : Nat → Nat → Nat
  | 0, t => t
  | k + 1, t => if (List.range (n + 1)).any fun i => held ((t + i) % 2 ^ 24) then firstTag held n k ((t + 1) % 2 ^ 24) else t

/-- R366: the next tag of a context's counter on a core, with a block of `n` directly after it, and the state with them
taken. -/
def State.nextTag (s : State) (ctx core n : Nat) : Nat × State :=
  match s.ctx? ctx with
  | none => (1, s)
  | some c =>
    let t := firstTag (s.tagHeld ctx core) n (2 ^ 24) (Table.get c.tags core)
    (t, s.modCtx ctx fun c => { c with tags := Table.set c.tags core ((t + n + 1) % 2 ^ 24) })

/-- R204: a free IFR entry of the core. -/
def State.freeEntry (s : State) (core : Nat) : Option Nat :=
  let used := (s.ms.reqs.filter fun r => r.site.core == core && !r.noEntry).map fun r => r.idx
  if used.length < Config.ifrEntries then (List.range Config.ifrEntries).find? fun i => !used.contains i else none

/-- Sends the parts of an issued request that lie on other packages (R282). -/
def State.sendOut (s : State) (r : Req) : State :=
  let on (p : Piece) : Option Nat := match p.place with
    | .mem pa _ _ => if s.isLocal pa then none else some (paPkg pa)
    | _ => none
  (r.pieces.filterMap on).eraseDups.foldl
    (fun s pkg => s.send (.request { r with pieces := r.pieces.filter fun p => on p == some pkg, reach := none } pkg)) s

/-- A request that is not sent at its firing: an LDT that waits for its tile (R209). -/
def Req.needsTile (r : Req) : Bool := r.kind == .ldt && r.out.isNone

/-- Adds a request with an IFR entry, tag and serial number; it is sent at once unless it must wait (R204, R366). -/
def State.issue (s : State) (r : Req) : State :=
  let t := s.nextTag r.site.ctx r.site.core 0
  let s := t.2
  let idx := (s.freeEntry r.site.core).getD 0
  let r := { r with id := s.ms.reqSeq, idx := idx, tag := t.1, first := s.wall, last := s.wall, pieces0 := r.pieces,
                    st := if r.watch || r.needsTile then 1 else 2, stepped := r.site.step,
                    phases := ([s.cur.l.phase, s.cur.r.phase, s.cur.c.phase].filter fun p => p != 0).eraseDups }
  let s := s.modMs fun m => { m with reqs := m.reqs ++ [r], reqSeq := m.reqSeq + 1 }
  let s := s.perfCtx r.site.ctx 0x02 1
  if r.st == 2 then s.sendOut r else s

def State.req? (s : State) (id : Nat) : Option Req := s.ms.reqs.find? fun r => r.id == id

def State.modReq (s : State) (id : Nat) (f : Req → Req) : State :=
  s.modMs fun m => { m with reqs := m.reqs.map fun r => if r.id == id then f r else r }

def State.dropReq (s : State) (id : Nat) : State :=
  s.modMs fun m => { m with reqs := m.reqs.filter fun r => r.id != id }

/-- R138: the lowest free engine-command record of a core. -/
def State.freeRec (s : State) (core : Nat) : Option Nat :=
  (List.range Config.engRecords).find? fun i => !((s.core core).eng.recs.any fun e => e.idx == i)

def State.eng? (s : State) (core idx : Nat) : Option Eng := (s.core core).eng.recs.find? fun e => e.idx == idx

def State.modEngRec (s : State) (core idx : Nat) (f : Eng → Eng) : State :=
  s.modEng core fun g => { g with recs := g.recs.map fun e => if e.idx == idx then f e else e }

/-- R164, R302: an EOS of the stream waits behind its rows. -/
def Eng.eosQueued (e : Eng) : Bool :=
  (e.stream.rows.any fun x => x.poison.isNone && (x.a.kind == kEos || (x.b.map fun t => t.kind == kEos).getD false)) ||
    e.stream.mrows.any fun r => r.eos

/-- R164: the latest stream of a frame and node that has not closed. -/
def State.lastStream (s : State) (core frame node : Nat) : Option Eng :=
  ((s.core core).eng.recs.filter fun e =>
    e.stream.opened && !e.stream.closing && e.site.frame == frame && e.site.node == node).getLast?

/-- R164, R302: the open stream of a frame and node: what fires behind a stream's EOS opens a new one. -/
def State.openStream (s : State) (core frame node : Nat) : Option Eng :=
  (s.lastStream core frame node).filter fun e => !e.eosQueued

/-- R164, R302: an earlier stream of the same frame and node has still to close. -/
def State.behindStream (s : State) (core : Nat) (e : Eng) : Bool :=
  ((s.core core).eng.recs.takeWhile fun x => x.idx != e.idx).any fun x =>
    x.stream.opened && x.site.frame == e.site.frame && x.site.node == e.site.node && x.site.ctx == e.site.ctx

/-- R359, R387: an engine command goes on: its context runs, or it is the command of a step. -/
def State.engRuns (s : State) (e : Eng) : Bool := s.ctxRuns e.site.ctx || e.stepped

/-- Takes an engine-command record for the firing in progress, with its tag and the tags of its block (R138, R366). -/
def State.command (s : State) (p : Par) (e : Eng) : State :=
  let site := s.cur.site
  let t := s.nextTag site.ctx site.core e.tagN
  let s := t.2
  let e := { e with idx := (s.freeRec site.core).getD 0, seq := (s.core site.core).eng.seq, site := site, d0 := p.d0,
                    d1 := p.d1, d2 := p.d2, tag := t.1, tagBase := if e.kind == .copy then (t.1 + 1) % 2 ^ 24 else 0
                    stepped := site.step, trc := s.traced site p.trcf
                    exts := match s.ctx? site.ctx with
                      | some c => c.extents
                      | none => [] }
  let s := s.modEng site.core fun g => { g with recs := g.recs ++ [e], seq := g.seq + 1 }
  let s := s.perfCtx site.ctx 0x00 1
  if e.trc then s.traceRec site 3 s.cur.l.val 0 0 else s

/-- R241: the package with the extents that a command's context had at its firing: every address of the command is formed under
them. -/
def State.asFired (s : State) (e : Eng) : State :=
  if e.exts.isEmpty then s
  else { s with ctxs := s.ctxs.map fun c => if c.id == e.site.ctx then { c with extents := e.exts } else c }

/-- R397: an engine command starts. -/
def State.engStart (s : State) (core idx : Nat) : State :=
  match s.eng? core idx with
  | none => s
  | some e =>
    let s := s.modEngRec core idx fun e => { e with step := .running, st := 2 }
    if e.trc && e.step != .running then s.traceRec e.site 5 (BitVec.ofNat 64 (e.opc + e.idx * 2 ^ 16)) 0 0 else s

/-- R138, R239, R397: an engine command completes: its record is free, its completion is counted and traced. -/
def State.engEnd (s : State) (core idx st : Nat) : State :=
  match s.eng? core idx with
  | none => s
  | some e =>
    let s := s.perfCtx e.site.ctx 0x04 1
    let s := if e.trc then s.traceRec e.site 6 (BitVec.ofNat 64 (e.idx + st * 2 ^ 8)) 0 0 else s
    s.dropEng core idx

/-! ## Reading memory for an engine -/

/-- R238, TARGET 4: a read of HBM sectors by a core: how many of them an injected error strikes, and the state. -/
def State.injectHbm (s : State) (core a n : Nat) : Bool × State :=
  let g := (s.core core).regs
  if g.rasTarget == 4 && g.rasCount != 0 && decide (a < hbmTop) then
    let k := min g.rasCount (sectorsOf a n).length
    (decide (0 < k), (List.range k).foldl (fun s _ => s.countUe (dieOfAddr a))
      (s.modCoreRegs core fun x => { x with rasCount := x.rasCount - k }))
  else (false, s)

/-- Reads one part of a checked access for the device, or as an event at its home: status, bytes, state (R335, R406). -/
def State.readPart (s : State) (core : Nat) (p : Loc) (n : Nat) : Nat × List Byte × State :=
  match p with
  | .mem pa tag key =>
    if s.isLocal pa then
      let i := s.injectHbm core (paLocal pa) n
      let r := i.2.readPhys (paLocal pa) n tag key
      (if i.1 && r.1 == 0 then stDataUe else r.1, r.2.1, r.2.2)
    else
      let b := s.outsideBytes n
      (0, b.1, b.2)
  | .tile c idx off =>
    match s.tile? c idx with
    | none => (stTagMismatch, List.replicate n 0, s)
    | some t =>
      let u := s.readGrans c t (granuleSpan off n)
      if u.1 then (stDataUe, List.replicate n 0, u.2) else (0, t.getBytes off n, u.2)
  | _ =>
    let b := s.outsideBytes n
    (0, b.1, b.2)

/-- Reads every part of a checked access: the first failing status and the bytes in order. -/
def State.readParts (s : State) (core : Nat) (ps : List (Loc × Nat × Nat)) : Nat × List Byte × State :=
  ps.foldl (fun acc p =>
    let r := acc.2.2.readPart core p.1 p.2.1
    (if acc.1 == 0 then r.1 else acc.1, acc.2.1 ++ r.2.1, r.2.2)) (0, [], s)

/-! ## Completion arrivals (R222) -/

/-- R222: BARA on the 64-bit barrier word. -/
def baraWord (w st : Nat) : Nat :=
  let expect := max (bf w 32 16) 1
  let status := if bf w 8 8 == 0 then st % 256 else bf w 8 8
  let arrived := bf w 16 16 + 1
  let full := decide (expect ≤ arrived)
  (if full then (bf w 48 16 + 1) % 65536 else bf w 48 16) * 2 ^ 48 + bf w 32 16 * 2 ^ 32 +
    (if full then 0 else arrived % 65536) * 2 ^ 16 + status * 2 ^ 8 + w % 256

/-- What stands for the context of the Dispatcher's own requests. DESIGN CHOICE (log 11). -/
def dispCtx : Nat := 2 ^ 30

/-- R204, R205, R282, R439: an engine sends one event of a granule to another package, or over the network, under the granule's tag;
`rpl`: by a replay. -/
def State.sendPart (s : State) (site : Site) (tag cls : Nat) (rpl unset : Bool) (p : Piece) : Nat × State :=
  let pa := match p.place with
    | .mem pa _ _ => pa
    | _ => 0
  let tenant := match s.ctx? site.ctx with
    | some c => c.tenant
    | none => 0
  let r : Req :=
    { id := s.ms.reqSeq, site := site, cls := cls, tag := tag, st := 2, paddr := pa, kind := .part, pieces := [p], pieces0 := [p],
      noEntry := true, tenant := tenant, first := s.wall, last := s.wall, rpl := rpl, unset := unset, stepped := site.step }
  let s := (s.modMs fun m => { m with reqs := m.reqs ++ [{ r with seen := true }], reqSeq := m.reqSeq + 1 }).sendOut r
  (r.id, match p.place, p.op with
    | .net t qp off, .write bs => s.send (.rdma r.id t qp off bs)
    | .net t qp off, _ => s.send (.rdmaRead r.id t qp off p.len)
    | _, _ => s)

/-- R439: a part that goes over the network. -/
def Req.overNet (r : Req) : Bool := r.kind == .part && r.pieces.any fun p => match p.place with
  | .net _ _ _ => true
  | _ => false

/-- Arrives at a completion word with a request of class C (R213, R265). The tag of one of the Dispatcher's own is its serial
number. -/
def State.arriveAt (s : State) (site : Site) (tenant : Nat) (word : Piece) (st tag after : Nat) : State :=
  let pa := match word.place with
    | .mem pa _ _ => pa
    | _ => 0
  let r : Req :=
    { id := s.ms.reqSeq, site := site, opc := 0x185, cls := 3,
      tag := if site.ctx == dispCtx then s.ms.reqSeq % 2 ^ 24 else tag, st := 2, paddr := pa, kind := .arrive after,
      pieces := [{ word with op := .bara st, more := word.more.map fun x => (x.1, x.2.1, x.2.2.1, .bara st) }], noEntry := true, tenant := tenant, first := s.wall,
      last := s.wall }
  let s := s.modMs fun m => { m with reqs := m.reqs ++ [r], reqSeq := m.reqSeq + 1 }
  if s.isLocal pa then s else s.send (.request r (paPkg pa))

/-- R203: the class of an event: 1 A, 2 B, 3 C. -/
def PieceOp.cls (o : PieceOp) : Nat :=
  match o with
  | .read | .barw _ => 1
  | .write _ => 2
  | _ => 3

/-- R285, R287: an access of the device to a tenant's memory: its translation is walked, then each part is an event at its
home. Its tag is its serial number. DESIGN CHOICE (log 176). -/
def State.visit (s : State) (tenant : Nat) (kind : ReqKind) (disp : Option (Nat × Nat × Nat)) (x : Reach) : State :=
  let r : Req :=
    { id := s.ms.reqSeq, site := { ctx := dispCtx }, cls := x.op.cls, tag := s.ms.reqSeq % 2 ^ 24, st := 2, kind := kind,
      noEntry := true, tenant := tenant, first := s.wall, last := s.wall, disp := disp, reach := some x
      opc := match x.op with
        | .bara _ => 0x185
        | .barw _ => 0x186
        | _ => 0 }
  s.modMs fun m => { m with reqs := m.reqs ++ [r], reqSeq := m.reqSeq + 1 }

/-- The visit of a kind that belongs to `disp`. -/
def State.visitOf (s : State) (v : Visit) (disp : Option (Nat × Nat × Nat)) : Option Req :=
  s.ms.reqs.find? fun r => r.kind == .visit v && r.disp == disp

/-! ## The park-time histogram (R394, R395) -/

/-- R394: the bucket of a park time. -/
def bucketOf (n : Nat) : Nat :=
  if n < 16 then 0 else if n < 64 then 1 else if n < 256 then 2 else if n < 1024 then 3 else if n < 4096 then 4
  else if n < 16384 then 5 else if n < 65536 then 6 else 7

/-- R395: a word of a context's spill area, `off` bytes into the core's part; `none` where spilling is disabled. -/
def State.histAt (s : State) (site : Site) (off : Nat) : Option Word :=
  match s.ctx? site.ctx with
  | none => none
  | some c =>
    let i := (((s.region? site.core).map fun r => r.cores.filter fun k => decide (k < site.core)).getD []).length
    if c.regs.hist == 0 then none else some (c.regs.hist + BitVec.ofNat 64 (131200 * i + off))

/-- R395: writes a word of a context's spill area. -/
def State.histPut (s : State) (site : Site) (off v : Nat) : State := match s.histAt site off with
  | some a => s.devPut site a (leBytes 8 v)
  | none => s

/-- R395: writes the 128 bytes of a header or entry of a context's spill area: a first word, and zeros. -/
def State.histClear (s : State) (site : Site) (off v : Nat) : State := match s.histAt site off with
  | some a => s.devPut site a (leBytes 128 v)
  | none => s

/-- R395: adds to a total of a context's spill area. -/
def State.histAdd (s : State) (site : Site) (off n : Nat) : State := match s.histAt site off with
  | some a => s.devAdd site a n 64
  | none => s

/-- R394, R395: counts one park time of a node. -/
def State.histCount (s : State) (site : Site) (n : Nat) : State :=
  match s.ctx? site.ctx with
  | none => s
  | some c =>
    let store := (s.core site.core).hist
    let j := bucketOf n
    let mine (h : Hist) : Bool := h.ctx == site.ctx && h.cslot == site.cslot && h.block == site.block && h.node == site.node
    match store.find? mine with
    | some h =>
      let v := h.counts.getD j 0
      let full := v == 2 ^ 24 - 1
      let v' := if full then (if c.regs.hist == 0 then v else 0) else v + 1
      let s := s.modCore site.core fun k =>
        { k with hist := k.hist.map fun x => if mine x then { x with counts := x.counts.set j v' } else x }
      if full then s.histAdd site (128 + 128 * h.pos + 8 * (j + 1)) (2 ^ 24) else s
    | none =>
      match (List.range 1024).find? fun p => !(store.any fun h => h.pos == p) with
      | none =>
        (s.modRegs site.ctx fun r => { r with lost := r.lost + 1 }).histPut site 8 (c.regs.lost + 1)
      | some p =>
        let h : Hist := { pos := p, ctx := site.ctx, cslot := site.cslot, block := site.block, node := site.node,
                          counts := (List.replicate 8 0).set j 1 }
        let s := s.modCore site.core fun k => { k with hist := k.hist ++ [h] }
        let used := (store.filter fun h => h.ctx == site.ctx).length + 1
        (s.histPut site 0 used).histClear site (128 + 128 * p)
          (site.cslot * 2 ^ 22 + site.block * 2 ^ 16 + site.node * 2 ^ 8 + 1)

/-- R395: at completion, adds a context's live counters on a core to their totals and frees its entries. -/
def State.histFlush (s : State) (core ctx : Nat) : State :=
  let mine := (s.core core).hist.filter fun h => h.ctx == ctx
  let s := mine.foldl (fun s h => (enumL h.counts).foldl
    (fun s c => if c.2 == 0 then s else s.histAdd { core := core, ctx := ctx } (128 + 128 * h.pos + 8 * (c.1 + 1)) c.2) s) s
  s.modCore core fun k => { k with hist := k.hist.filter fun h => h.ctx != ctx }

/-! ## Weight-slot bindings (R179, R184) -/

/-- R184: unbinds a context's logical slot, or with `ws` none all of them, on a core. -/
def State.unbind (s : State) (core ctx : Nat) (ws : Option Nat) : State :=
  let hit (b : Nat × Nat) : Bool := b.1 == ctx && (match ws with
    | none => true
    | some w => b.2 == w)
  s.modEng core fun g => g.modSlots fun _ w => { w with bound := w.bound.filter fun b => !hit b }

/-! ## Arrivals and messages of the Dispatcher -/

/-- R432: raises an MSI-X vector of a function: sent at once, or pending while the vector is masked. -/
def State.msix (s : State) (vf vector : Nat) : State :=
  match s.plat.vfs[vf]? with
  | none => s
  | some v =>
    let masked := bf ((v.msix.getD (2 * vector + 1) 0).toNat) 32 1 == 1
    if masked then s.modPlat fun p =>
      { p with vfs := p.vfs.modify vf fun v => { v with pending := v.pending ||| 2 ^ vector } }
    else s.send (.msix vf vector)

/-- R304, R305: records a status in a queue's QERR and raises vector 1. DEDUCED (log 93). -/
def State.qerr (s : State) (queue st seq : Nat) : State :=
  let t := (s.disp.queues.getD queue {}).tenant
  let was := (s.disp.queues.getD queue {}).errStatus
  let s := s.modDisp fun d =>
    { d with queues := d.queues.modify queue fun q => { q with errStatus := st, errSeq := seq % 2 ^ 32 } }
  if was == 0 && st != 0 then s.msix (t + 1) 1 else s

/-- R265, R308, R316: the one arrival at a packet's completion word; QERR where the word is not reached. -/
def State.dispArrive (s : State) (tenant queue seq cword st : Nat) : State :=
  s.visit tenant (.arrive (tenant + 1)) (some (queue, seq, st)) { va := cword, len := 8, need := 3, op := .bara st }

/-! ## The end of a context (R253, R258, R265, R266) -/

/-- The tiles of a context on a core are freed, pinned ones included. -/
def State.freeTiles (s : State) (core ctx : Nat) : State :=
  let mine := (s.core core).tile.tiles.filter fun t => t.ctx == ctx
  mine.foldl (fun s t => s.freeIdx core t.idx) s

/-- Removes what a context holds on one core. DEDUCED (log 49). -/
def State.clearCore (s : State) (id core : Nat) : State :=
  let frames := ((s.core core).frm.frames.filter fun f => f.ctx == id).map fun f => f.num
  let s := s.histFlush core id
  let mine (q : QTok) : Bool := q.core == core && (match q.dst with
    | .frame => frames.contains q.frame
    | .inject _ c _ => c == id
    | _ => false)
  let s := frames.foldl (fun s n => s.completeFrame core n) s
  let s := s.leaveAll fun d => d.core == core && d.view.ctx == id
  let s := s.freeTiles core id
  let s := s.unbind core id none
  let s := s.modTok core fun u =>
    { u with handlerQ := u.handlerQ.filter fun q => !mine q, fifo0 := u.fifo0.filter fun q => !mine q,
             fifo1 := u.fifo1.filter fun q => !mine q, fifo2 := u.fifo2.filter fun q => !mine q,
             fifo3 := u.fifo3.filter fun q => !mine q, inq := u.inq.filter fun q => !mine q }
  let s := s.modFrm core fun u =>
    { u with fifo := u.fifo.filter fun r => r.ctx != id, loops := u.loops.filter fun l => l.ctx != id,
             free := u.free ++ (u.reserved.filter fun r => r.1 == id).map fun r => r.2
             reserved := u.reserved.filter fun r => r.1 != id }
  let s := s.modTile core fun u =>
    { u with fifo := u.fifo.filter fun r => r.site.ctx != id, accFifo := u.accFifo.filter fun r => r.site.ctx != id,
             gens := (u.reserved.filter fun r => r.1 == id).foldl (fun g r => Table.set g r.2 ((Table.get g r.2 + 1) % 256)) u.gens
             reserved := u.reserved.filter fun r => r.1 != id }
  let ours := (s.core core).eng.recs.filter fun e => e.site.ctx == id
  let gone := ours.map fun e => e.idx
  let s := s.stopLoads core [id]
  -- R179, R189: its references to weight slots fall, and a load it had begun passes on
  let back := ((s.ctx? id).map fun c => c.saved.placed.filter fun p => p.1 == core).getD []
  let s := s.modEng core fun g => (g.handOn fun e => e.site.ctx == id).modSlots fun i w =>
    { w with holds := w.holds - (ours.map fun e => e.holdsOf i).sum - (back.filter fun p => p.2.2 == i).length }
  let s := s.modEng core fun g =>
    { g with
      recs := g.recs.filter fun e => e.site.ctx != id
      wFifo := g.wFifo.filter fun a => !a.isCmd gone.contains && !a.isBack id
      wStat := g.wStat.filter fun w => w.1 != id
      matrix := g.matrix.filter fun i => !gone.contains i
      wbuf := g.wbuf.filter fun i => !gone.contains i
      taken := g.taken.filter fun t => !gone.contains t.1
      pan := (g.pan.map fun p => g.leave p fun i => gone.contains i).filter fun p => !p.members.isEmpty }
  let s := { s with flight := s.flight.filter fun q => !mine q }
  s.modCore core fun k => { k with traced := k.traced.filter fun t => t.1 != id }

/-- R264: the completion or rejection of a child launch is recorded in its parent. -/
def State.tellParent (s : State) (parent : Option Nat) (queue seq st : Nat) : State :=
  match parent with
  | none => s
  | some p =>
    s.modCtx p fun x =>
      let last := x.kids.foldl (fun m k => max m k.order) 0
      { x with
        regs := { x.regs with kids := x.regs.kids - 1, child := if x.regs.child == 0 then st else x.regs.child }
        kids := x.kids.map fun k =>
          if k.queue == queue && k.seq == seq && !k.done then { k with done := true, status := st, order := last + 1 } else k }

/-- R265, R266: the steps by which a context ends with a status. DEDUCED (log 49). -/
def State.endContext (s : State) (id st : Nat) : State :=
  match s.ctx? id with
  | none => s
  | some c =>
    let cores := ((s.regions.find? fun r => r.home == c.home).map fun r => r.cores).getD []
    let s := cores.foldl (fun s k => s.clearCore id k) s
    let s := s.modMs fun m =>
      { m with reqs := m.reqs.filter fun r => r.site.ctx != id || (r.noEntry && r.kind != .part), log := m.log.filter fun l => l.ctx != id }
    -- R370, R372: the nodes of the job's other packages drop its entries
    let s := (s.peers c.jobKey).foldl (fun s p => s.send (.release p id)) s
    let s := { s with ctxs := s.ctxs.filter fun x => x.id != id
                      reports := s.reports.filter fun r => r.2.1 != id }
    let s := s.dispArrive c.tenant c.queue c.seq c.cword st
    let s := s.tellParent c.parent c.queue c.seq st
    -- R266: its children run on without it
    let orphan (p : Option Nat) : Option Nat := if p == some id then none else p
    let s : State := { s with ctxs := s.ctxs.map fun (x : Ctx) => { x with parent := orphan x.parent } }
    let s := s.modDisp fun d =>
      { d with pkts := (d.pkts.filter fun (p : Pkt) => p.ctx != id || p.no != c.pkt).map fun (p : Pkt) => { p with parent := orphan p.parent }
               queues := d.queues.map fun (q : Queue) => { q with puts := q.puts.filter fun p => p.2 != id } }
    if s.ctxs.any fun x => x.job == c.job && x.tenant == c.tenant then s
    else s.modPlat fun p => { p with jobs := p.jobs.filter fun j => !(j.id == c.job && j.tenant == c.tenant) }

/-- R213, R266, R349: what a command that an abandonment ends arrives with; none where its arrival has been sent and stands. A
saved command's arrival that has not performed is made again. -/
def Eng.lastStatus (e : Eng) (x : Saved) : Option Nat :=
  if e.step != .finishing then some stAbandoned
  else if x.reqs.any (fun r => r.noEntry && r.site.core == e.site.core && r.tag == e.tag && !r.done) &&
      !(x.log.any fun l => l.core == e.site.core && l.tag == e.tag) then some e.fail
  else none

/-- R266, R349: abandonment: engine commands, of a saved context too, arrive at their completion words with ABANDONED, then the
context ends so. -/
def State.abandon (s : State) (id : Nat) : State :=
  let c := (s.ctx? id).getD {}
  let cmds := (s.cores.flatMap fun k => k.eng.recs.filter fun e => e.site.ctx == id) ++ c.saved.engs.map fun e => e.2.1
  let s := cmds.foldl (fun s e => match e.cword, e.lastStatus c.saved with
    | some l, some st => s.arriveAt { e.site with ctx := dispCtx } c.tenant l st e.tag 0
    | _, _ => s) s
  s.endContext id stAbandoned

/-! ## Handlers: entry and return (R353 to R357) -/

/-- R353, R356: no handler stands for a cause on a core: slot 3 is not ARMED, or block c − 1 is not valid. -/
def State.noHandler (s : State) (t : Trap) : Bool :=
  let d := (s.core t.core).descOf 3 (t.cause - 1)
  !descValid d || descTbl d || (match s.cslot? t.core 3 with
    | some k => k.state != .armed
    | none => true)

/-- The first frame number of the free list that no saved context holds (R253, R334). DESIGN CHOICE (log 41). -/
def FrameUnit.next (u : FrameUnit) : Option Nat := u.free.find? fun n => !(u.reserved.any fun r => r.2 == n)

/-- Takes a frame for an activation (R252, R253); it must fit. DESIGN CHOICE (log 41). DEDUCED (log 163). -/
def State.takeFrame (s : State) (core : Nat) (mk : Nat → Frame) : Option (Nat × State) :=
  match (s.core core).frm.next with
  | none => none
  | some n =>
    let f := mk n
    if (s.core core).frm.fits f.slots.length then
      let s := s.modFrm core fun u => { u with free := u.free.filter fun x => x != n, frames := u.frames ++ [f] }
      let lin := match s.ctx? f.ctx with
        | some c => linearIndex c.levels f.inst
        | none => 0
      some (n, if descTrace ((s.core core).descOf f.cslot f.block) then
        s.traceRec { core := core, ctx := f.ctx } 1 (BitVec.ofNat 64 lin) (BitVec.ofNat 64 f.iter) 0 else s)
    else none

/-- Sends a token, with the reference that it already holds, to an instruction of a frame on a core of this package. On its
own core it keeps the order of the token engine's deliveries (R301). -/
def State.deliver (s : State) (site : Site) (core frame cs block node port due : Nat) (t : Tok) : State :=
  let q := toFrame site s.plat.pkg due (if core == site.core then 1 else 0) core frame cs block node port t
  if core == site.core then s.push site.core q
  else
    let x := s.depart site q
    x.2.push site.core x.1

/-- Acts of R356. -/
def actResume : Nat := 0
def actDrop : Nat := 1
def actAbandon : Nat := 2

/-- R355: the frames that an ORPHAN trap lists. -/
def orphanFrames (a b : Word) : List Nat :=
  (List.range (bf a.toNat 60 4)).map fun i => if i < 5 then bf a.toNat (12 * i) 12 else bf b.toNat (12 * (i - 5)) 12

/-- The held token of a BREAK_EDGE trap, in whichever queue it stands: the one of that acceptance. -/
def heldIs (q t : QTok) : Bool := q.held && q.acc == t.acc

def State.modQueues (s : State) (core : Nat) (f : List QTok → List QTok) : State :=
  s.modTok core fun u =>
    { u with handlerQ := f u.handlerQ, fifo0 := f u.fifo0, fifo1 := f u.fifo1, fifo2 := f u.fifo2, fifo3 := f u.fifo3 }

/-- R392: RESUME of a held token tests it against the higher comparators only. -/
def State.resumeToken (s : State) (t : Trap) (q : QTok) : State :=
  let q' := { q with bp := t.code + 1, held := true }
  match s.brkHit t.core t.site.ctx q' with
  | none => s.modQueues t.core fun l => l.map fun x => if heldIs x q then { x with held := false } else x
  | some (n, own) => s.trap { t with code := n, item := t.item % 2 ^ 32, tok := some { q' with bp := n + 1 } } own

/-- Sends a request that waited, once neither a precise hit nor a tile holds it (R209, R356). -/
def State.sendHeld (s : State) (id : Nat) : State :=
  match s.req? id with
  | none => s
  | some r =>
    if r.watch || r.st != 1 then s
    else if r.status != 0 then s.modReq id fun r => { r with st := 2, done := true }
    else if r.needsTile then s
    else
      let r' := { r with st := 2, first := s.wall, last := s.wall }
      (s.modReq id fun _ => r').sendOut r'

/-- R373: another trap of the context still holds what this one holds. -/
def State.heldStill (s : State) (t : Trap) : Bool :=
  match s.ctx? t.site.ctx with
  | none => false
  | some c => (c.traps ++ c.handler.toList).any fun x => x.cause == 3 && x.core == t.core && x.order != t.order &&
      bf x.b.toNat 61 3 == bf t.b.toNat 61 3 && x.item % 2 ^ 32 == t.item % 2 ^ 32

/-- R377: an access that a precise hit held goes on, at once or, while its context is frozen, at the resume instant. -/
def State.sendFreed (s : State) (ctx id : Nat) : State := if s.ctxRuns ctx then s.sendHeld id else s

/-- R356: what a handler's action, or the lack of a handler, does with what a trap holds. -/
def State.settleTrap (s : State) (t : Trap) (act : Nat) : State :=
  let ctx := t.site.ctx
  match t.cause with
  | 1 => s
  | 2 =>
    match t.tok with
    | none => s
    | some q =>
      if act == actAbandon then s.abandon ctx
      else if act == actDrop then
        (s.modQueues t.core fun l => l.filter fun x => !heldIs x q).release t.core q.tok
      else s.resumeToken t q
  | 3 =>
    if act == actAbandon then s.abandon ctx
    else match bf t.b.toNat 61 3 with
      | 1 =>
        let id := t.item % 2 ^ 32
        if act == actDrop then
          (s.modReq id fun r => if r.st != 1 then r else
            { r with watch := false, status := stAbandoned, pieces := [], waits := false }).sendFreed ctx id
        else if s.heldStill t then s
        else (s.modReq id fun r => { r with watch := false }).sendFreed ctx id
      | 2 =>
        s.modEngRec t.core (t.item % 2 ^ 32) fun e =>
          if act == actDrop then
            { e with watch := none, fail := if e.fail == 0 then stAbandoned else e.fail, todo := [], pos := e.total }
          else if s.heldStill t then e
          else { e with watch := none }
      | _ => s
  | 4 =>
    if act == actAbandon then s.abandon ctx
    else if act == actDrop then
      (orphanFrames t.a.val t.b).foldl (fun s n => match s.frame? t.core n with
        | some f => if f.ctx == ctx then s.completeFrame t.core n else s
        | none => s) s
    else s.modCtx ctx fun c => { c with wdogs := c.wdogs.map fun w => if w.1 == t.core then (w.1, 0, false) else w }
  | 6 =>
    match t.tok with
    | none => s
    | some q =>
      if act == actAbandon then s.abandon ctx
      else
        let hnd := match s.frame? t.core q.frame with
          | some f => f.hnd
          | none => false
        let s := s.file t.core (if hnd then 4 else s.classOf t.core q.cslot q.block ctx) { q with held := false }
        if act == actDrop then
          let w := s.targetWord t.core q
          let parked := match s.frame? t.core q.frame with
            | some f => if w.ar ≤ 1 then [] else ([f.slot w.slot, f.slot (w.slot + 1)].take (w.ar - 1)).map fun x => x.tok
            | none => []
          let s := s.modQueues t.core fun l => l.filter fun x => x.acc != q.acc
          let s := s.modFrame t.core q.frame fun f =>
            if w.ar ≤ 1 then f else { f with slots := (f.slots.set w.slot {}).set (w.slot + (if w.ar == 3 then 1 else 0)) {} }
          (q.tok :: parked).foldl (fun s x => s.release t.core x) s
        else s
  | _ => s

/-- R356: the value that a software trap returns goes to the TRAP's destinations. -/
def State.trapReturn (s : State) (t : Trap) (v : Tok) (used : List Tok) : State :=
  s.settle t.site latGraph 0 [(t.d0, { v with phase := t.site.phase, prio := t.site.prio }),
    (t.d1, { v with phase := t.site.phase, prio := t.site.prio }),
    (t.d2, { v with phase := t.site.phase, prio := t.site.prio })] used

/-- Removes the oldest trap that no halt holds from a context's list. -/
def dropTrap : List Trap → List Trap
  | [] => []
  | t :: ts => if t.halted then t :: dropTrap ts else ts

/-- R351: the context in the lowest-numbered occupied seat of a core. -/
def State.lowestSeat (s : State) (core : Nat) : Option Nat :=
  let seats := s.ctxs.flatMap fun c => if c.mode == .saved then [] else (c.seats.filter fun k => k.1 == core).map fun k => (k.2, c.id)
  (seats.find? fun k => seats.all fun x => decide (k.1 ≤ x.1)).map fun k => k.2

/-- R351: the oldest TIMER of the cores on which a context holds the lowest occupied seat. -/
def State.nextTimer (s : State) (c : Ctx) : Option Trap :=
  let ts := c.seats.flatMap fun k => if s.lowestSeat k.1 == some c.id then
      (s.core k.1).regs.timers.map fun t => ({ cause := 5, core := k.1, site := { core := k.1, ctx := c.id }, order := t.1, raised := t.2 } : Trap)
    else []
  ts.find? fun t => ts.all fun x => decide (t.order ≤ x.order)

/-- R351: the trap that enters next for a context: the oldest that no halt holds, a TIMER of its cores included. -/
def State.nextTrap (s : State) (c : Ctx) : Option Trap :=
  match c.traps.find? (fun t => !t.halted), s.nextTimer c with
  | some t, some u => if u.order < t.order then some u else some t
  | some t, none => some t
  | none, o => o

/-- A trap leaves the place where it stood. -/
def State.takeTrap (s : State) (id : Nat) (t : Trap) : State :=
  if t.cause == 5 then s.modCoreRegs t.core fun g => { g with timers := g.timers.filter fun x => x.1 != t.order }
  else s.modCtx id fun c => { c with traps := dropTrap c.traps }

/-- R353: a handler waits for a frame of a core; its request goes ahead of the allocation FIFO. -/
def State.entryAsks (s : State) (core : Nat) : Bool :=
  s.ctxs.any fun c => c.mode == .running && c.handler.isNone && match s.nextTrap c with
    | some t => t.core == core && !s.noHandler t
    | none => false

/-- Handler entry (R351 to R353, R356): the oldest held trap of a context takes a frame of its cause's block, and the
trap word and the details are delivered; where no handler stands, the "No handler" outcome; while no frame fits,
nothing. -/
def State.enterHandler (s : State) (id : Nat) : State :=
  match s.ctx? id with
  | none => s
  | some c =>
    match s.nextTrap c with
    | none => s
    | some t =>
      if c.handler.isSome || c.mode != .running then s
      else if s.noHandler t then
        let s := s.takeTrap id t
        match t.cause with
        | 1 => s.trapReturn t t.a [t.a]
        | 4 => s.abandon id
        | 6 => s.abandon id
        | _ => s.settleTrap t actResume
      else
        let block := t.cause - 1
        let d := (s.core t.core).descOf 3 block
        match s.takeFrame t.core fun n => { newFrame n id 3 block d [] with hnd := true } with
        | none => s
        | some (n, s) =>
          let s := (s.takeTrap id t).modCtx id fun c => { c with handler := some t }
          let a := if t.cause == 5 then { t.a with val := BitVec.ofNat 64 s.gtc } else t.a
          let b := if t.cause == 5 then (s.core t.core).regs.timerCmp else t.b
          let site : Site := { core := t.core, ctx := id, prio := s.eff id }
          let due := s.clk t.core
          let s := s.deliver site t.core n 3 block 0 0 due (scalarTok site (trapWord s t))
          -- R95: the token that BREAK_EDGE holds keeps its reference, and detail A takes one of its own; TRAP_SW hands L's on
          let s := if t.cause == 2 && a.kind == kTile then s.addRefs t.core a.val 1 0 else s
          let s := s.deliver site t.core n 3 block 1 0 due (mkTok site a.kind a.val)
          s.deliver site t.core n 3 block 2 0 due (scalarTok site b)

/-- Return from a handler (R356): the activation in `frame` ends and `v`, the operand of TRET, acts on the trap. -/
def State.leaveHandler (s : State) (id frame : Nat) (v : Tok) : State :=
  match s.ctx? id with
  | none => s
  | some c =>
    match c.handler with
    | none => s
    | some t =>
      let s := s.completeFrame t.core frame
      let s := s.modCtx id fun c => { c with handler := none }
      if t.cause == 1 then s.trapReturn t v [v]
      else
        let bad := v.kind != kScalar || decide (2 < v.val.toNat)
        let s := if bad then s.record id stFormat else s
        let act := if bad then actAbandon else v.val.toNat
        let s := s.release t.core v
        if t.cause == 5 then s else s.settleTrap t act

end Sys2Proof.Machine
end

