-- ==== Sys2Proof/Machine/Graph.lean ====
section
/-! DEFINITION. The graph instructions (R99 to R116): moving and steering values, frames and continuations, loops,
exits, frame variables, streams, phases and identity. -/

namespace Sys2Proof.Machine

/-- A graph firing that emits one carried operand to every destination (R100). -/
def State.moves (s : State) (p : Par) (ops : List Tok) (t : Tok) : Host.Outcome State Fault Refusal :=
  s.firing p latGraph ops fun s => s.finish p latGraph (spread p (carryTok s.cur.site t)) ops

/-- A graph firing that emits one new scalar to every destination. -/
def State.tells (s : State) (p : Par) (ops : List Tok) (v : Word) : Host.Outcome State Fault Refusal :=
  s.firing p latGraph ops fun s => s.finish p latGraph (spread p (scalarTok s.cur.site v)) ops

/-- PASS, R100. -/
def execPass (p : Par) (s : State) : Host.Outcome State Fault Refusal := s.moves p [s.cur.l] s.cur.l

/-- R101: the constant that a CONST forms. -/
def constValue (t : Ty) (hi : Bool) (imm : BitVec 32) : Word :=
  if hi then BitVec.ofNat 64 (imm.toNat * 2 ^ 32)
  else if tyIsInt t then extendTy t imm.toNat else BitVec.ofNat 64 (imm.toNat % 2 ^ tyBits t)

/-- R101: a signed constant wider than 32 bits is sign-extended from IMM. -/
def constWord (t : Ty) (hi : Bool) (imm : BitVec 32) : Word :=
  if t == .s64 && !hi then imm.signExtend 64 else constValue t hi imm

/-- CONST, R101. -/
def execConst (p : Par) (hi : Bool) (imm : BitVec 32) (s : State) : Host.Outcome State Fault Refusal :=
  s.tells p [s.cur.l] (constWord p.ty hi imm)

/-- R102: the predicate that STEER reads, at the width of TY. -/
def steerTrue (t : Ty) (v : Word) (inv : Bool) : Bool := (v.toNat % 2 ^ tyBits t != 0) != inv

/-- STEER with its predicate operand `r` (R102). -/
def State.steer (s : State) (p : Par) (inv : Bool) (ops : List Tok) (r : Tok) : Host.Outcome State Fault Refusal :=
  s.firing p latGraph ops fun s =>
    if !isRead r then s.failing p latGraph stFormat ops
    else s.finish p latGraph [(if steerTrue p.ty r.val inv then p.d0 else p.d1, carryTok s.cur.site s.cur.l)] ops

/-- STEER, R102. -/
def execSteer (p : Par) (inv : Bool) (s : State) : Host.Outcome State Fault Refusal :=
  s.steer p inv [s.cur.l, s.cur.r] s.cur.r

/-- STEER with an immediate predicate, R102. -/
def execSteerImm (p : Par) (inv : Bool) (imm : BitVec 32) (s : State) : Host.Outcome State Fault Refusal :=
  s.steer p inv [s.cur.l] (immTok p.ty imm)

/-- GATE, R100. -/
def execGate (p : Par) (s : State) : Host.Outcome State Fault Refusal := s.moves p [s.cur.l, s.cur.r] s.cur.l

/-- GATE with an immediate trigger, R100. -/
def execGateImm (p : Par) (_imm : BitVec 32) (s : State) : Host.Outcome State Fault Refusal := s.moves p [s.cur.l] s.cur.l

/-- The table that a firing reads: its entries, in order (R30). -/
def State.tableOf (s : State) (site : Site) (tbl : Nat) : List Dest :=
  let k := s.core site.core
  (List.range (descExits (k.descOf site.cslot tbl))).map fun j => k.tableEntry site.cslot tbl j

/-- R103: the destination that an index selects. -/
def dispDest (entries : List Dest) (d0 : Dest) (i : Int) : Dest :=
  if 0 ≤ i && i < entries.length then entries.getD i.toNat .none else d0

/-- R94: D0 and every table entry that is not none, each once. -/
def tableSpread (entries : List Dest) (d0 : Dest) (t : Tok) : List (Dest × Tok) :=
  (((d0 :: entries).filter fun d => d != .none).eraseDups).map fun d => (d, t)

/-- R103: an index read as an integer of type TY, none meaning s64. -/
def indexOf (t : Ty) (v : Word) : Int := if t == .none then v.toInt else readInt t v

/-- DISP with its index operand `r` (R94, R103). -/
def State.dispTo (s : State) (p : Par) (tbl : BitVec 6) (ops : List Tok) (r : Tok) : Host.Outcome State Fault Refusal :=
  let site := s.cur.site
  let entries := s.tableOf site tbl.toNat
  match badInput ops with
  | some t => .next (s.finish p latGraph (tableSpread entries p.d0 (carryTok site t)) ops)
  | none =>
    if !isRead r then
      .next (s.finish p latGraph (tableSpread entries p.d0 (poisonTok s site stFormat)) ops)
    else .next (s.finish p latGraph [(dispDest entries p.d0 (indexOf p.ty r.val), carryTok site s.cur.l)] ops)

/-- DISP, R103. -/
def execDisp (p : Par) (tbl : BitVec 6) (s : State) : Host.Outcome State Fault Refusal :=
  s.dispTo p tbl [s.cur.l, s.cur.r] s.cur.r

/-- DISP with an immediate index, R103. -/
def execDispImm (p : Par) (tbl : BitVec 6) (imm : BitVec 32) (s : State) : Host.Outcome State Fault Refusal :=
  s.dispTo p tbl [s.cur.l] (immTok p.ty imm)

/-- R100: the operand that SELP selects. -/
def selected (sel : Port) (l r c : Tok) : Tok :=
  match sel with
  | .l => l
  | .r => r
  | .c => c

/-- JOIN of two operands, R100. -/
def execJoin (p : Par) (selp : Port) (s : State) : Host.Outcome State Fault Refusal :=
  s.moves p [s.cur.l, s.cur.r] (selected selp s.cur.l s.cur.r s.cur.c)

/-- JOIN of three operands, R100. -/
def execJoin3 (p : Par) (selp : Port) (s : State) : Host.Outcome State Fault Refusal :=
  s.moves p [s.cur.l, s.cur.r, s.cur.c] (selected selp s.cur.l s.cur.r s.cur.c)

/-- JOIN whose R is an immediate, R100. -/
def execJoinImm (p : Par) (selp : Port) (imm : BitVec 32) (s : State) : Host.Outcome State Fault Refusal :=
  s.moves p [s.cur.l] (selected selp s.cur.l (immTok p.ty imm) s.cur.c)

/-- JOIN whose C is an immediate, R100. -/
def execJoin3Imm (p : Par) (selp : Port) (imm : BitVec 32) (s : State) : Host.Outcome State Fault Refusal :=
  s.moves p [s.cur.l, s.cur.r] (selected selp s.cur.l s.cur.r (immTok p.ty imm))

/-! ## Frames and continuations -/

/-- R21: a continuation value. -/
def contVal (pkg core frame cs block node port : Nat) : Word :=
  BitVec.ofNat 64 (pkg * 2 ^ 52 + core * 2 ^ 44 + frame * 2 ^ 32 + cs * 2 ^ 30 + block * 2 ^ 24 + node * 2 ^ 17 + port * 2 ^ 15)

/-- R107: delivers a token, with the reference that it holds, toward a port of a frame on some core of some package. -/
def State.toCont (s : State) (site : Site) (c : Word) (node port : Nat) (t : Tok) : State :=
  let pkg := bf c.toNat 52 12
  let core := bf c.toNat 44 8
  let frame := bf c.toNat 32 12
  let cs := bf c.toNat 30 2
  let block := bf c.toNat 24 6
  if s.isHere pkg then s.deliver site core frame cs block node port 0 t
  else
    let x := s.depart site (toFrame site s.plat.pkg 0 0 core frame cs block node port { t with phase := 0 })
    x.2.pushOut site.core x.1 pkg

/-- CNTN and SENDF: L to the frame that R names, then the issue token (R107). -/
def State.cntnTo (s : State) (p : Par) (node port : Nat) : State :=
  let site := s.cur.site
  let ops := [s.cur.l, s.cur.r]
  if s.cur.r.kind != kCont then s.failing p latGraph stFormat ops
  else (s.toCont site s.cur.r.val node port (carryTok site s.cur.l)).finish p latGraph [(p.d0, scalarTok site 0)] []

/-- CNTN, R107. -/
def execCntn (p : Par) (s : State) : Host.Outcome State Fault Refusal :=
  s.firing p latGraph [s.cur.l, s.cur.r] fun s =>
    s.cntnTo p (bf s.cur.r.val.toNat 17 7) (bf s.cur.r.val.toNat 15 2)

/-- SENDF, R107. -/
def execSendf (p : Par) (node : BitVec 7) (port : Port) (s : State) : Host.Outcome State Fault Refusal :=
  s.firing p latGraph [s.cur.l, s.cur.r] fun s => s.cntnTo p node.toNat (portCode port)

/-- The frame that a firing stands in. -/
def State.curFrame (s : State) : Frame := (s.frame? s.cur.site.core s.cur.site.frame).getD {}

/-- A firing that has handed its operands to a waiting request: counted and traced, nothing emitted, `used` released. -/
def State.parkFiring (s : State) (p : Par) (used : List Tok) : State := s.finish p latGraph [] used

/-- R47, R104: a core holds a block of a firing's slot: it is a core of the firing's own region. -/
def State.holdsFor (s : State) (site : Site) (core block : Nat) : Bool :=
  (match s.region? site.core with
    | some g => g.cores.contains core
    | none => false) && s.holds core site.cslot block

/-- FNEW on a chosen core (R104, R105). `used` are the operands that the request does not carry: R names the core and is
not delivered (R99, R104; R243 speaks of each operand that is). DEDUCED (log 143). -/
def State.fnewOn (s : State) (p : Par) (core : Nat) (node : BitVec 7) (port : Port) (block : BitVec 6) (used : List Tok) :
    State :=
  let site := s.cur.site
  if !s.holdsFor site core block.toNat then s.failing p latGraph stRoute (s.cur.l :: used)
  else
    let r : FrameReq :=
      { site := site, d0 := p.d0, d1 := p.d1, d2 := p.d2, why := .fnew, ctx := site.ctx, cslot := site.cslot,
        block := block.toNat, inst := s.curFrame.inst, give := [(node.toNat, portCode port, carryTok site s.cur.l)],
        node := node.toNat, port := portCode port }
    (s.modFrm core fun u => { u with fifo := u.fifo ++ [r] }).parkFiring p used

/-- R104: how many frames of `n` slots a core could grant at once. -/
def grantable (descs groups n : Nat) : Nat := min descs (groups / ceilDiv n 8)

/-- R104: free descriptors and free slot groups of a core now. DESIGN CHOICE (log 42). -/
def State.freeNow (s : State) (core : Nat) : Nat × Nat :=
  let u := (s.core core).frm
  ((u.free.filter fun f => !(u.reserved.any fun r => r.2 == f)).length, 4096 - u.groups)

/-- R104: PLACE 2: each core is judged on its present count, or on the count last carried, as drawn. DESIGN CHOICE (log 42). -/
def State.leastCore (s : State) (site : Site) (block : Nat) (pick : Nat) : Option Nat :=
  match s.region? site.core with
  | none => none
  | some g =>
    let cands := g.cores.filter fun c => s.holds c site.cslot block
    let score (c : Nat) : Nat :=
      let now := s.freeNow c
      let old := match g.freeSeen.find? fun f => f.1 == c with
        | some f => f.2
        | none => now
      let v := if pick / 2 ^ c % 2 == 0 then now else old
      grantable v.1 v.2 (descFsize ((s.core c).descOf site.cslot block))
    cands.foldl (fun best c => match best with
      | none => some c
      | some b => if score b < score c then some c else some b) none

/-- FNEW of one operand: on the firing core, or on the least-loaded core (R104). -/
def execFnew (p : Par) (place : Place) (node : BitVec 7) (port : Port) (block : BitVec 6) (s : State) :
    Host.Outcome State Fault Refusal :=
  s.firing p latGraph [s.cur.l] fun s =>
    match place with
    | .least =>
      let d := s.draw
      match s.leastCore s.cur.site block.toNat d.1 with
      | some c => d.2.fnewOn p c node port block []
      | none => d.2.failing p latGraph stRoute [s.cur.l]
    | _ => s.fnewOn p s.cur.site.core node port block []

/-- FNEW on the core that an operand names (R104). -/
def State.fnewNamedOn (s : State) (p : Par) (node : BitVec 7) (port : Port) (block : BitVec 6) (r : Tok) (used : List Tok) :
    State :=
  if !isRead r then s.failing p latGraph stFormat (s.cur.l :: used)
  else s.fnewOn p (r.val.toNat % 256) node port block used

/-- FNEW on a named core, R104. DEDUCED (log 143). -/
def execFnewNamed (p : Par) (_place : Place) (node : BitVec 7) (port : Port) (block : BitVec 6) (s : State) :
    Host.Outcome State Fault Refusal :=
  s.firing p latGraph [s.cur.l, s.cur.r] fun s => s.fnewNamedOn p node port block s.cur.r [s.cur.r]

/-- FNEW on a core named by an immediate, R104. -/
def execFnewNamedImm (p : Par) (_place : Place) (node : BitVec 7) (port : Port) (block : BitVec 6) (imm : BitVec 32)
    (s : State) : Host.Outcome State Fault Refusal :=
  s.firing p latGraph [s.cur.l] fun s => s.fnewNamedOn p node port block (immTok p.ty imm) []

/-- MKCONT, R106. -/
def execMkcont (p : Par) (node : BitVec 7) (port : Port) (s : State) : Host.Outcome State Fault Refusal :=
  s.firing p latGraph [s.cur.l] fun s =>
    let site := s.cur.site
    let v := contVal s.plat.pkg site.core site.frame site.cslot site.block node.toNat (portCode port)
    s.finish p latGraph (spread p (mkTok site kCont v)) [s.cur.l]

/-! ## Loops and exits -/

/-- ITER (R110): `give` are the operands with their ports, which the request carries. -/
def State.iterate (s : State) (p : Par) (next : Bool) (node : BitVec 7) (port : Port) (block : BitVec 6)
    (give : List (Nat × Tok)) (ops : List Tok) : State :=
  let site := s.cur.site
  let f := s.curFrame
  let req (id : Nat) (b : Nat) : FrameReq :=
    { site := site, d0 := p.d0, d1 := p.d1, d2 := p.d2, why := .iter id, ctx := site.ctx, cslot := site.cslot, block := b,
      inst := f.inst, give := give.map fun g => (node.toNat, g.1, carryTok site g.2), node := node.toNat,
      port := portCode port }
  let enqueue (s : State) (id b : Nat) : State :=
    (s.modFrm site.core fun u =>
      FrameUnit.pump { u with loops := u.loops.map fun l => if l.id == id then { l with pend := l.pend ++ [req id b] } else l } id).parkFiring
      p []
  if next then
    match f.loop with
    | none => s.failing p latGraph stRoute ops
    | some id => enqueue s id f.block
  else if !s.holds site.core site.cslot block.toNat then s.failing p latGraph stRoute ops
  else
    let id := (s.core site.core).frm.loopSeq
    let kb := descKb ((s.core site.core).descOf site.cslot block.toNat)
    let l : Loop := { id := id, ctx := site.ctx, cslot := site.cslot, block := block.toNat, kb := kb }
    enqueue (s.modFrm site.core fun u => { u with loops := u.loops ++ [l], loopSeq := u.loopSeq + 1 }) id block.toNat

/-- ITER of one operand, R110. -/
def execIter (p : Par) (next : Bool) (node : BitVec 7) (port : Port) (block : BitVec 6) (s : State) :
    Host.Outcome State Fault Refusal :=
  s.firing p latGraph [s.cur.l] fun s => s.iterate p next node port block [(portCode port, s.cur.l)] [s.cur.l]

/-- ITER of two operands, R110. -/
def execIter2 (p : Par) (next : Bool) (node : BitVec 7) (port : Port) (block : BitVec 6) (s : State) :
    Host.Outcome State Fault Refusal :=
  s.firing p latGraph [s.cur.l, s.cur.r] fun s =>
    s.iterate p next node port block [(0, s.cur.l), (1, s.cur.r)] [s.cur.l, s.cur.r]

/-- ITER whose R is an immediate, R110. -/
def execIter2Imm (p : Par) (next : Bool) (node : BitVec 7) (port : Port) (block : BitVec 6) (imm : BitVec 32) (s : State) :
    Host.Outcome State Fault Refusal :=
  s.firing p latGraph [s.cur.l] fun s =>
    s.iterate p next node port block [(0, s.cur.l), (1, immTok p.ty imm)] [s.cur.l]

/-- R111: one exit of the activation in a frame. -/
def State.countExit (s : State) (core frame : Nat) : State :=
  let s := s.modFrame core frame fun f => { f with exits := f.exits - 1 }
  match s.frame? core frame with
  | some f => if f.exits == 0 then s.completeFrame core frame else s
  | none => s

/-- EXIT, R111: poison and EOS are forwarded alike and count as exits. -/
def execExit (p : Par) (s : State) : Host.Outcome State Fault Refusal :=
  let site := s.cur.site
  .next ((s.finish p latGraph (spread p (carryTok site s.cur.l)) [s.cur.l]).countExit site.core site.frame)

/-! ## Variables, streams, phases, identity -/

/-- FSET, R112: the slot takes over L's reference. -/
def execFset (p : Par) (var : BitVec 8) (s : State) : Host.Outcome State Fault Refusal :=
  s.firing p latGraph [s.cur.l] fun s =>
    let site := s.cur.site
    let old := (s.curFrame.slot var.toNat).tok
    let s := s.modFrame site.core site.frame fun f =>
      { f with slots := f.slots.modify var.toNat fun x => { x with tok := { s.cur.l with prio := x.tok.prio }, ue := false, ce := false } }
    s.finish p latGraph (spread p (scalarTok site 0)) [old]

/-- FGET, R112: an uncorrectable error in the slot makes the value poison DATA_UE (R408). -/
def execFget (p : Par) (var : BitVec 8) (s : State) : Host.Outcome State Fault Refusal :=
  s.firing p latGraph [s.cur.l] fun s =>
    let site := s.cur.site
    let x := s.curFrame.slot var.toNat
    let s := if x.ce then s.countCe (dieOf site.core) else s
    if x.ue then (s.countUe (dieOf site.core)).finish p latGraph
      (spread p (carryTok site (poisonTok s { core := site.core } stDataUe))) [s.cur.l]
    else s.finish p latGraph (spread p (carryTok site x.tok)) [s.cur.l]

/-- ISEOS, R114. -/
def execIseos (p : Par) (s : State) : Host.Outcome State Fault Refusal :=
  let site := s.cur.site
  let t := if s.cur.l.kind == kPoison then carryTok site s.cur.l
    else scalarTok site (if s.cur.l.kind == kEos then 1 else 0)
  .next (s.finish p latGraph (spread p t) [s.cur.l])

/-- MKEOS, R114. -/
def execMkeos (p : Par) (s : State) : Host.Outcome State Fault Refusal :=
  s.firing p latGraph [s.cur.l] fun s =>
    let site := s.cur.site
    s.finish p latGraph (spread p (mkTok site kEos (if isRead s.cur.l then s.cur.l.val else 0))) [s.cur.l]

/-- SEND to the in-port that a target word names (R108). -/
def State.sendTo (s : State) (p : Par) (cid : BitVec 8) (r : Tok) (ops : List Tok) : State :=
  let site := s.cur.site
  if !isRead r then s.failing p latGraph stFormat ops
  else if bf r.val.toNat 6 38 != 0 then s.failing p latGraph 0x10 ops
  else
    (s.toInport site 0 (carryTok site s.cur.l) (bf r.val.toNat 52 12) (bf r.val.toNat 44 8) (bf r.val.toNat 0 6) cid.toNat 0
      0).finish p latGraph [(p.d0, scalarTok site 0)] []

/-- SEND, R108. -/
def execSend (p : Par) (cid : BitVec 8) (s : State) : Host.Outcome State Fault Refusal :=
  s.firing p latGraph [s.cur.l, s.cur.r] fun s => s.sendTo p cid s.cur.r [s.cur.l, s.cur.r]

/-- SEND to an immediate target word, R108. -/
def execSendImm (p : Par) (cid : BitVec 8) (imm : BitVec 32) (s : State) : Host.Outcome State Fault Refusal :=
  s.firing p latGraph [s.cur.l] fun s => s.sendTo p cid (immTok p.ty imm) [s.cur.l]

/-- PHOPEN, R115. DEDUCED (log 32). -/
def execPhopen (p : Par) (ph : BitVec 4) (s : State) : Host.Outcome State Fault Refusal :=
  s.firing p latGraph [s.cur.l] fun s =>
    s.finish p latGraph (spread p { carryTok s.cur.site s.cur.l with phase := ph.toNat }) [s.cur.l]

/-- PHCLOSE, R115: the trigger leaves the phase count and waits, with its reference. DEDUCED (log 32). -/
def execPhclose (p : Par) (ph : BitVec 4) (s : State) : Host.Outcome State Fault Refusal :=
  s.firing p latGraph [s.cur.l] fun s =>
    let site := s.cur.site
    match s.region? site.core with
    | none => s.finish p latGraph (spread p { carryTok site s.cur.l with phase := 0 }) [s.cur.l]
    | some g =>
      let w : PhWait := { ph := ph.toNat, tok := s.cur.l, site := site, d0 := p.d0, d1 := p.d1, d2 := p.d2 }
      (s.modRegion g.home fun g => { g with closes := g.closes ++ [w] }).parkFiring p []

/-- R116: what SELF emits. -/
def selfValue (s : State) (site : Site) (what : SelfWhat) : Nat :=
  match what with
  | .frame => site.frame
  | .core => site.core
  | .pkg => s.plat.pkg
  | .ctx => site.ctx
  | .iter => match (s.frame? site.core site.frame) with
    | some f => if f.loop.isSome then f.iter else 0
    | none => 0
  | .cid => ((s.cslot? site.core site.cslot).map fun k => k.cid).getD 0
  | .blk => site.cslot * 64 + site.block

/-- SELF, R116. -/
def execSelf (p : Par) (what : SelfWhat) (s : State) : Host.Outcome State Fault Refusal :=
  s.tells p [s.cur.l] (BitVec.ofNat 64 (selfValue s s.cur.site what))

/-- R116: a coordinate, or a level's count. -/
def levelValue (s : State) (site : Site) (cnt : Bool) (lvl : Nat) : Nat :=
  let levels := ((s.ctx? site.ctx).map fun c => c.levels).getD []
  if cnt then (levels[lvl]?.map fun l => l.2.1).getD 1
  else if lvl < levels.length then (((s.frame? site.core site.frame).map fun f => f.inst).getD []).getD lvl 0 else 0

/-- LEVEL, R116. -/
def execLevel (p : Par) (cnt : Bool) (lvl : BitVec 3) (s : State) : Host.Outcome State Fault Refusal :=
  s.tells p [s.cur.l] (BitVec.ofNat 64 (levelValue s s.cur.site cnt lvl.toNat))

end Sys2Proof.Machine
end

