-- ==== Sys2Proof/Machine/ScalarInt.lean ====
section
/-! DEFINITION. The scalar integer instructions (R117 to R123). -/

namespace Sys2Proof.Machine

/-- R98: whether the unit of a core fails its residue check at this firing (a fault of the hardware itself). -/
def State.unitFault (s : State) (core : Nat) : Bool := s.scalarFaults.contains core

/-- A scalar firing: R94, the read positions (R93), the residue check (R98), the result or a status, and the flags. -/
def State.scalarFiring (s : State) (p : Par) (reads ops : List Tok) (check : Bool) (r : Except Nat (Tok × Nat)) :
    Host.Outcome State Fault Refusal :=
  s.firing p latScalar ops fun s =>
    let core := s.cur.site.core
    if !reads.all isRead then s.failing p latScalar stFormat ops
    else if s.unitFault core || !check then
      ({ s with scalarFaults := s.scalarFaults.erase core }.countResidue core).failing p latScalar stResidue ops
    else match r with
      | .error st => s.failing p latScalar st ops
      | .ok (t, fl) => (s.raise s.cur.site.ctx fl).finish p latScalar (spread p t) ops

/-- A scalar firing whose result is a number. -/
def State.scalarNum (s : State) (p : Par) (ops all : List Tok) (check : Bool) (v : Word) :
    Host.Outcome State Fault Refusal :=
  s.scalarFiring p all ops check (.ok (scalarTok s.cur.site v, 0))

/-! ## Residue prediction (R123): each on the operands' RESIDUE fields and the 64-bit output -/

def carryOut (a b : Word) : Nat := if 2 ^ 64 ≤ a.toNat + b.toNat then 1 else 0

def borrowOut (a b : Word) : Nat := if a.toNat < b.toNat then 1 else 0

def highPart (a b : Word) : Nat := a.toNat * b.toNat / 2 ^ 64

/-- DEDUCED (log 151). -/
def predAdd (ra rb : Nat) (a b : Word) : Nat := (ra + rb + 255 - carryOut a b) % 255

def predSub (ra rb : Nat) (a b : Word) : Nat := (ra + 255 - rb + borrowOut a b) % 255

def predMul (ra rb : Nat) (a b : Word) : Nat := (ra * rb + 255 - highPart a b % 255) % 255

def predMad (ra rb rc : Nat) (a b c : Word) : Nat := (predMul ra rb a b + rc + 255 - carryOut (a * b) c) % 255

/-! ## Results -/

/-- R118: add and subtract through the 64-bit adder, then the width reduction of R58. DEDUCED (log 151). -/
def intAdd (t : Ty) (a b : Word) : Word := extendTy t (a + b).toNat
def intSub (t : Ty) (a b : Word) : Word := extendTy t (a - b).toNat
/-- DEDUCED (log 151). -/
def intMul (t : Ty) (a b : Word) : Word := extendTy t (a * b).toNat
def intMad (t : Ty) (a b c : Word) : Word := extendTy t (a * b + c).toNat

/-- R118: the high w bits of the 2w-bit product. -/
def intMulh (t : Ty) (a b : Word) : Word := reduceInt t ((readInt t a * readInt t b) / 2 ^ tyBits t)

/-- R118: clamped to TY's range. -/
def intAdds (t : Ty) (a b : Word) : Word := reduceInt t (clampInt (tyMin t) (tyMax t) (readInt t a + readInt t b))
def intSubs (t : Ty) (a b : Word) : Word := reduceInt t (clampInt (tyMin t) (tyMax t) (readInt t a - readInt t b))

/-- R119. -/
def intDiv (t : Ty) (a b : Word) : Word :=
  let x := readInt t a
  let y := readInt t b
  if y = 0 then reduceInt t (-1) else reduceInt t (x.tdiv y)

/-- R119. -/
def intRem (t : Ty) (a b : Word) : Word :=
  let x := readInt t a
  let y := readInt t b
  if y = 0 then reduceInt t x else reduceInt t (x.tmod y)

def intAnd (t : Ty) (a b : Word) : Word := extendTy t (a &&& b).toNat
def intOr (t : Ty) (a b : Word) : Word := extendTy t (a ||| b).toNat
def intXor (t : Ty) (a b : Word) : Word := extendTy t (a ^^^ b).toNat
def intAndn (t : Ty) (a b : Word) : Word := extendTy t (a &&& ~~~b).toNat

/-- The w low bits of an operand as an unsigned number. -/
def lowBits (t : Ty) (a : Word) : Nat := a.toNat % 2 ^ tyBits t

/-- Rotate left of w bits by n < w. -/
def rotl (w v n : Nat) : Nat := v * 2 ^ n % 2 ^ w + v / 2 ^ (w - n)

/-- R120. -/
def intShl (t : Ty) (a n : Word) : Word :=
  if tyBits t ≤ n.toNat then 0 else extendTy t (lowBits t a * 2 ^ n.toNat)

def intShr (t : Ty) (a n : Word) : Word :=
  if tyBits t ≤ n.toNat then 0 else extendTy t (lowBits t a / 2 ^ n.toNat)

def intSar (t : Ty) (a n : Word) : Word :=
  let x := sx a.toNat (tyBits t)
  if tyBits t ≤ n.toNat then reduceInt t (if x < 0 then -1 else 0) else reduceInt t (x / 2 ^ n.toNat)

def intRol (t : Ty) (a n : Word) : Word := extendTy t (rotl (tyBits t) (lowBits t a) (n.toNat % tyBits t))

def intMin (t : Ty) (a b : Word) : Word :=
  reduceInt t (if readInt t a ≤ readInt t b then readInt t a else readInt t b)

def intMax (t : Ty) (a b : Word) : Word :=
  reduceInt t (if readInt t a ≤ readInt t b then readInt t b else readInt t a)

def intAbs (t : Ty) (a : Word) : Word := reduceInt t (readInt t a).natAbs

def intNeg (t : Ty) (a : Word) : Word := reduceInt t (-(readInt t a))

/-- Leading zero bits of a w-bit number. -/
def clzNat (w v : Nat) : Nat := if v == 0 then w else w - 1 - Nat.log2 v

/-- Trailing zero bits, looking at `n` bits from the bottom. -/
def ctzNat : Nat → Nat → Nat
  | 0, _ => 0
  | n + 1, v => if v % 2 == 1 then 0 else 1 + ctzNat n (v / 2)

/-- One bits among the low `n`. -/
def popNat : Nat → Nat → Nat
  | 0, _ => 0
  | n + 1, v => v % 2 + popNat n (v / 2)

def intClz (t : Ty) (a : Word) : Word := extendTy t (clzNat (tyBits t) (lowBits t a))
def intCtz (t : Ty) (a : Word) : Word := extendTy t (ctzNat (tyBits t) (lowBits t a))
def intPopc (t : Ty) (a : Word) : Word := extendTy t (popNat (tyBits t) (lowBits t a))

/-- R121. -/
def intCond (t : Ty) (c : IntCond) (a b : Word) : Bool :=
  let x := readInt t a
  let y := readInt t b
  match c with
  | .eq => decide (x = y) | .ne => decide (x ≠ y) | .lt => decide (x < y) | .le => decide (x ≤ y)
  | .gt => decide (y < x) | .ge => decide (y ≤ x) | .tst => lowBits t (a &&& b) != 0

def boolWord (b : Bool) : Word := if b then 1 else 0

/-- R122: the field that EXT takes. -/
def extField (t : Ty) (a ctl : Word) : Except Nat Word :=
  if 2 ^ 12 ≤ ctl.toNat then .error stBadSpace
  else
    let m := bf ctl.toNat 6 6 + 1
    let f := a.toNat / 2 ^ bf ctl.toNat 0 6 % 2 ^ m
    .ok (if t == .s64 then wordOf (sx f m) else BitVec.ofNat 64 f)

/-- R122: INS. -/
def insField (a b ctl : Word) : Except Nat Word :=
  if 2 ^ 12 ≤ ctl.toNat then .error stBadSpace
  else
    let p := bf ctl.toNat 0 6
    let mask : Word := BitVec.ofNat 64 ((2 ^ (bf ctl.toNat 6 6 + 1) - 1) * 2 ^ p)
    .ok ((a &&& ~~~mask) ||| (BitVec.ofNat 64 (b.toNat * 2 ^ p) &&& mask))

/-! ## The instructions: each with token operands, then with its immediate form -/

/-- R97: the integer divide unit is busy for 4 clk. -/
def State.takeIntDivide (s : State) (core : Nat) : State := s.modTok core fun u => { u with idiv := s.clk core + 4 }

/-- ADD, R118. DEDUCED (log 151). -/
def execAdd (p : Par) (s : State) : Host.Outcome State Fault Refusal :=
  s.scalarNum p [s.cur.l, s.cur.r] [s.cur.l, s.cur.r]
    (predAdd s.cur.l.res s.cur.r.res s.cur.l.val s.cur.r.val == residue255 (s.cur.l.val + s.cur.r.val))
    (intAdd p.ty s.cur.l.val s.cur.r.val)

/-- ADD with an immediate R, R118. -/
def execAddImm (p : Par) (imm : BitVec 32) (s : State) : Host.Outcome State Fault Refusal :=
  let r := immTok p.ty imm
  s.scalarNum p [s.cur.l] [s.cur.l]
    (predAdd s.cur.l.res r.res s.cur.l.val r.val == residue255 (s.cur.l.val + r.val))
    (intAdd p.ty s.cur.l.val r.val)

/-- SUB, R118. -/
def execSub (p : Par) (s : State) : Host.Outcome State Fault Refusal :=
  s.scalarNum p [s.cur.l, s.cur.r] [s.cur.l, s.cur.r]
    (predSub s.cur.l.res s.cur.r.res s.cur.l.val s.cur.r.val == residue255 (s.cur.l.val - s.cur.r.val))
    (intSub p.ty s.cur.l.val s.cur.r.val)

/-- SUB with an immediate R, R118. -/
def execSubImm (p : Par) (imm : BitVec 32) (s : State) : Host.Outcome State Fault Refusal :=
  let r := immTok p.ty imm
  s.scalarNum p [s.cur.l] [s.cur.l]
    (predSub s.cur.l.res r.res s.cur.l.val r.val == residue255 (s.cur.l.val - r.val))
    (intSub p.ty s.cur.l.val r.val)

/-- MUL, R118. -/
def execMul (p : Par) (s : State) : Host.Outcome State Fault Refusal :=
  s.scalarNum p [s.cur.l, s.cur.r] [s.cur.l, s.cur.r]
    (predMul s.cur.l.res s.cur.r.res s.cur.l.val s.cur.r.val == residue255 (s.cur.l.val * s.cur.r.val))
    (intMul p.ty s.cur.l.val s.cur.r.val)

/-- MUL with an immediate R, R118. -/
def execMulImm (p : Par) (imm : BitVec 32) (s : State) : Host.Outcome State Fault Refusal :=
  let r := immTok p.ty imm
  s.scalarNum p [s.cur.l] [s.cur.l]
    (predMul s.cur.l.res r.res s.cur.l.val r.val == residue255 (s.cur.l.val * r.val))
    (intMul p.ty s.cur.l.val r.val)

/-- MULH, R118. -/
def execMulh (p : Par) (s : State) : Host.Outcome State Fault Refusal :=
  s.scalarNum p [s.cur.l, s.cur.r] [s.cur.l, s.cur.r]
    true
    (intMulh p.ty s.cur.l.val s.cur.r.val)

/-- MULH with an immediate R, R118. -/
def execMulhImm (p : Par) (imm : BitVec 32) (s : State) : Host.Outcome State Fault Refusal :=
  let r := immTok p.ty imm
  s.scalarNum p [s.cur.l] [s.cur.l]
    true
    (intMulh p.ty s.cur.l.val r.val)

/-- DIV, R119, on the divide unit (R97). -/
def execDiv (p : Par) (s : State) : Host.Outcome State Fault Refusal :=
  (s.takeIntDivide s.cur.site.core).scalarNum p [s.cur.l, s.cur.r] [s.cur.l, s.cur.r] true
    (intDiv p.ty s.cur.l.val s.cur.r.val)

/-- DIV with an immediate R, R119. -/
def execDivImm (p : Par) (imm : BitVec 32) (s : State) : Host.Outcome State Fault Refusal :=
  (s.takeIntDivide s.cur.site.core).scalarNum p [s.cur.l] [s.cur.l] true
    (intDiv p.ty s.cur.l.val (immTok p.ty imm).val)

/-- REM, R119, on the divide unit (R97). -/
def execRem (p : Par) (s : State) : Host.Outcome State Fault Refusal :=
  (s.takeIntDivide s.cur.site.core).scalarNum p [s.cur.l, s.cur.r] [s.cur.l, s.cur.r] true
    (intRem p.ty s.cur.l.val s.cur.r.val)

/-- REM with an immediate R, R119. -/
def execRemImm (p : Par) (imm : BitVec 32) (s : State) : Host.Outcome State Fault Refusal :=
  (s.takeIntDivide s.cur.site.core).scalarNum p [s.cur.l] [s.cur.l] true
    (intRem p.ty s.cur.l.val (immTok p.ty imm).val)

/-- AND, R118. -/
def execAnd (p : Par) (s : State) : Host.Outcome State Fault Refusal :=
  s.scalarNum p [s.cur.l, s.cur.r] [s.cur.l, s.cur.r]
    true
    (intAnd p.ty s.cur.l.val s.cur.r.val)

/-- AND with an immediate R, R118. -/
def execAndImm (p : Par) (imm : BitVec 32) (s : State) : Host.Outcome State Fault Refusal :=
  let r := immTok p.ty imm
  s.scalarNum p [s.cur.l] [s.cur.l]
    true
    (intAnd p.ty s.cur.l.val r.val)

/-- OR, R118. -/
def execOr (p : Par) (s : State) : Host.Outcome State Fault Refusal :=
  s.scalarNum p [s.cur.l, s.cur.r] [s.cur.l, s.cur.r]
    true
    (intOr p.ty s.cur.l.val s.cur.r.val)

/-- OR with an immediate R, R118. -/
def execOrImm (p : Par) (imm : BitVec 32) (s : State) : Host.Outcome State Fault Refusal :=
  let r := immTok p.ty imm
  s.scalarNum p [s.cur.l] [s.cur.l]
    true
    (intOr p.ty s.cur.l.val r.val)

/-- XOR, R118. -/
def execXor (p : Par) (s : State) : Host.Outcome State Fault Refusal :=
  s.scalarNum p [s.cur.l, s.cur.r] [s.cur.l, s.cur.r]
    true
    (intXor p.ty s.cur.l.val s.cur.r.val)

/-- XOR with an immediate R, R118. -/
def execXorImm (p : Par) (imm : BitVec 32) (s : State) : Host.Outcome State Fault Refusal :=
  let r := immTok p.ty imm
  s.scalarNum p [s.cur.l] [s.cur.l]
    true
    (intXor p.ty s.cur.l.val r.val)

/-- ANDN, R118. -/
def execAndn (p : Par) (s : State) : Host.Outcome State Fault Refusal :=
  s.scalarNum p [s.cur.l, s.cur.r] [s.cur.l, s.cur.r]
    true
    (intAndn p.ty s.cur.l.val s.cur.r.val)

/-- ANDN with an immediate R, R118. -/
def execAndnImm (p : Par) (imm : BitVec 32) (s : State) : Host.Outcome State Fault Refusal :=
  let r := immTok p.ty imm
  s.scalarNum p [s.cur.l] [s.cur.l]
    true
    (intAndn p.ty s.cur.l.val r.val)

/-- SHL, R120. -/
def execShl (p : Par) (s : State) : Host.Outcome State Fault Refusal :=
  s.scalarNum p [s.cur.l, s.cur.r] [s.cur.l, s.cur.r]
    true
    (intShl p.ty s.cur.l.val s.cur.r.val)

/-- SHL with an immediate R, R120. -/
def execShlImm (p : Par) (imm : BitVec 32) (s : State) : Host.Outcome State Fault Refusal :=
  let r := immTok p.ty imm
  s.scalarNum p [s.cur.l] [s.cur.l]
    true
    (intShl p.ty s.cur.l.val r.val)

/-- SHR, R120. -/
def execShr (p : Par) (s : State) : Host.Outcome State Fault Refusal :=
  s.scalarNum p [s.cur.l, s.cur.r] [s.cur.l, s.cur.r]
    true
    (intShr p.ty s.cur.l.val s.cur.r.val)

/-- SHR with an immediate R, R120. -/
def execShrImm (p : Par) (imm : BitVec 32) (s : State) : Host.Outcome State Fault Refusal :=
  let r := immTok p.ty imm
  s.scalarNum p [s.cur.l] [s.cur.l]
    true
    (intShr p.ty s.cur.l.val r.val)

/-- SAR, R120. -/
def execSar (p : Par) (s : State) : Host.Outcome State Fault Refusal :=
  s.scalarNum p [s.cur.l, s.cur.r] [s.cur.l, s.cur.r]
    true
    (intSar p.ty s.cur.l.val s.cur.r.val)

/-- SAR with an immediate R, R120. -/
def execSarImm (p : Par) (imm : BitVec 32) (s : State) : Host.Outcome State Fault Refusal :=
  let r := immTok p.ty imm
  s.scalarNum p [s.cur.l] [s.cur.l]
    true
    (intSar p.ty s.cur.l.val r.val)

/-- ROL, R120. -/
def execRol (p : Par) (s : State) : Host.Outcome State Fault Refusal :=
  s.scalarNum p [s.cur.l, s.cur.r] [s.cur.l, s.cur.r]
    true
    (intRol p.ty s.cur.l.val s.cur.r.val)

/-- ROL with an immediate R, R120. -/
def execRolImm (p : Par) (imm : BitVec 32) (s : State) : Host.Outcome State Fault Refusal :=
  let r := immTok p.ty imm
  s.scalarNum p [s.cur.l] [s.cur.l]
    true
    (intRol p.ty s.cur.l.val r.val)

/-- MIN, R118. -/
def execMin (p : Par) (s : State) : Host.Outcome State Fault Refusal :=
  s.scalarNum p [s.cur.l, s.cur.r] [s.cur.l, s.cur.r]
    true
    (intMin p.ty s.cur.l.val s.cur.r.val)

/-- MIN with an immediate R, R118. -/
def execMinImm (p : Par) (imm : BitVec 32) (s : State) : Host.Outcome State Fault Refusal :=
  let r := immTok p.ty imm
  s.scalarNum p [s.cur.l] [s.cur.l]
    true
    (intMin p.ty s.cur.l.val r.val)

/-- MAX, R118. -/
def execMax (p : Par) (s : State) : Host.Outcome State Fault Refusal :=
  s.scalarNum p [s.cur.l, s.cur.r] [s.cur.l, s.cur.r]
    true
    (intMax p.ty s.cur.l.val s.cur.r.val)

/-- MAX with an immediate R, R118. -/
def execMaxImm (p : Par) (imm : BitVec 32) (s : State) : Host.Outcome State Fault Refusal :=
  let r := immTok p.ty imm
  s.scalarNum p [s.cur.l] [s.cur.l]
    true
    (intMax p.ty s.cur.l.val r.val)

/-- ABS, R118. -/
def execAbs (p : Par) (s : State) : Host.Outcome State Fault Refusal :=
  s.scalarNum p [s.cur.l] [s.cur.l] true (intAbs p.ty s.cur.l.val)

/-- NEG, R118. -/
def execNeg (p : Par) (s : State) : Host.Outcome State Fault Refusal :=
  s.scalarNum p [s.cur.l] [s.cur.l] true (intNeg p.ty s.cur.l.val)

/-- CLZ, R118. -/
def execClz (p : Par) (s : State) : Host.Outcome State Fault Refusal :=
  s.scalarNum p [s.cur.l] [s.cur.l] true (intClz p.ty s.cur.l.val)

/-- CTZ, R118. -/
def execCtz (p : Par) (s : State) : Host.Outcome State Fault Refusal :=
  s.scalarNum p [s.cur.l] [s.cur.l] true (intCtz p.ty s.cur.l.val)

/-- POPC, R118. -/
def execPopc (p : Par) (s : State) : Host.Outcome State Fault Refusal :=
  s.scalarNum p [s.cur.l] [s.cur.l] true (intPopc p.ty s.cur.l.val)

/-- CMP, R121. -/
def execCmp (p : Par) (cond : IntCond) (s : State) : Host.Outcome State Fault Refusal :=
  s.scalarNum p [s.cur.l, s.cur.r] [s.cur.l, s.cur.r] true
    (extendTy p.ty (boolWord (intCond p.ty cond s.cur.l.val s.cur.r.val)).toNat)

/-- CMP with an immediate R, R121. -/
def execCmpImm (p : Par) (cond : IntCond) (imm : BitVec 32) (s : State) : Host.Outcome State Fault Refusal :=
  s.scalarNum p [s.cur.l] [s.cur.l] true
    (extendTy p.ty (boolWord (intCond p.ty cond s.cur.l.val (immTok p.ty imm).val)).toNat)

/-- SEL, R121: the chosen operand keeps its KIND, VALUE and residue. -/
def execSel (p : Par) (s : State) : Host.Outcome State Fault Refusal :=
  s.scalarFiring p [s.cur.l] [s.cur.l, s.cur.r, s.cur.c] true
    (.ok (carryTok s.cur.site (if lowBits p.ty s.cur.l.val != 0 then s.cur.r else s.cur.c), 0))

/-- SEL with an immediate C, R121. -/
def execSelImm (p : Par) (imm : BitVec 32) (s : State) : Host.Outcome State Fault Refusal :=
  s.scalarFiring p [s.cur.l] [s.cur.l, s.cur.r] true
    (.ok (carryTok s.cur.site (if lowBits p.ty s.cur.l.val != 0 then s.cur.r else immTok p.ty imm), 0))

/-- A field result as a scalar, or its status. -/
def fieldResult (site : Site) (r : Except Nat Word) : Except Nat (Tok × Nat) :=
  match r with
  | .ok v => .ok (scalarTok site v, 0)
  | .error st => .error st

/-- EXT, R122. -/
def execExt (p : Par) (s : State) : Host.Outcome State Fault Refusal :=
  s.scalarFiring p [s.cur.l, s.cur.r] [s.cur.l, s.cur.r] true
    (fieldResult s.cur.site (extField p.ty s.cur.l.val s.cur.r.val))

/-- EXT with an immediate control word, R122. -/
def execExtImm (p : Par) (imm : BitVec 32) (s : State) : Host.Outcome State Fault Refusal :=
  s.scalarFiring p [s.cur.l] [s.cur.l] true
    (fieldResult s.cur.site (extField p.ty s.cur.l.val (immTok p.ty imm).val))

/-- INS, R122. -/
def execIns (p : Par) (s : State) : Host.Outcome State Fault Refusal :=
  s.scalarFiring p [s.cur.l, s.cur.r, s.cur.c] [s.cur.l, s.cur.r, s.cur.c] true
    (fieldResult s.cur.site (insField s.cur.l.val s.cur.r.val s.cur.c.val))

/-- INS with an immediate control word, R122. -/
def execInsImm (p : Par) (imm : BitVec 32) (s : State) : Host.Outcome State Fault Refusal :=
  s.scalarFiring p [s.cur.l, s.cur.r] [s.cur.l, s.cur.r] true
    (fieldResult s.cur.site (insField s.cur.l.val s.cur.r.val (immTok p.ty imm).val))

/-- MAD, R118. -/
def execMad (p : Par) (s : State) : Host.Outcome State Fault Refusal :=
  s.scalarNum p [s.cur.l, s.cur.r, s.cur.c] [s.cur.l, s.cur.r, s.cur.c]
    (predMad s.cur.l.res s.cur.r.res s.cur.c.res s.cur.l.val s.cur.r.val s.cur.c.val ==
      residue255 (s.cur.l.val * s.cur.r.val + s.cur.c.val))
    (intMad p.ty s.cur.l.val s.cur.r.val s.cur.c.val)

/-- MAD with an immediate C, R118. -/
def execMadImm (p : Par) (imm : BitVec 32) (s : State) : Host.Outcome State Fault Refusal :=
  let c := immTok p.ty imm
  s.scalarNum p [s.cur.l, s.cur.r] [s.cur.l, s.cur.r]
    (predMad s.cur.l.res s.cur.r.res c.res s.cur.l.val s.cur.r.val c.val ==
      residue255 (s.cur.l.val * s.cur.r.val + c.val))
    (intMad p.ty s.cur.l.val s.cur.r.val c.val)

/-- ADDS, R118. -/
def execAdds (p : Par) (s : State) : Host.Outcome State Fault Refusal :=
  s.scalarNum p [s.cur.l, s.cur.r] [s.cur.l, s.cur.r]
    true
    (intAdds p.ty s.cur.l.val s.cur.r.val)

/-- ADDS with an immediate R, R118. -/
def execAddsImm (p : Par) (imm : BitVec 32) (s : State) : Host.Outcome State Fault Refusal :=
  let r := immTok p.ty imm
  s.scalarNum p [s.cur.l] [s.cur.l]
    true
    (intAdds p.ty s.cur.l.val r.val)

/-- SUBS, R118. -/
def execSubs (p : Par) (s : State) : Host.Outcome State Fault Refusal :=
  s.scalarNum p [s.cur.l, s.cur.r] [s.cur.l, s.cur.r]
    true
    (intSubs p.ty s.cur.l.val s.cur.r.val)

/-- SUBS with an immediate R, R118. -/
def execSubsImm (p : Par) (imm : BitVec 32) (s : State) : Host.Outcome State Fault Refusal :=
  let r := immTok p.ty imm
  s.scalarNum p [s.cur.l] [s.cur.l]
    true
    (intSubs p.ty s.cur.l.val r.val)

end Sys2Proof.Machine
end

