-- ==== Sys2Proof/Machine/Tile.lean ====
section
/-! DEFINITION. Tile allocation (R134, R137) and the tile instructions (R139 to R148). -/

namespace Sys2Proof.Machine

/-! ## Allocation -/

/-- R134: appends a request to the tile-store or the accumulator FIFO; a view's request, which takes an index and no space,
joins the FIFO of its underlying tile. DESIGN CHOICE (log 144). -/
def State.queueTile (s : State) (core : Nat) (r : TileReq) : State :=
  s.modTile core fun u => if r.shape.acc then { u with accFifo := u.accFifo ++ [r] } else { u with fifo := u.fifo ++ [r] }

/-- R22, R134: a shape that no tile can have, or that no core can hold; a handle has no room for more than 4,096 rows or
columns, so an output of that size fails like one that never fits. DESIGN CHOICE (log 145). -/
def impossible (sh : Shape) : Bool := neverFits sh || decide (4096 < sh.rows) || decide (4096 < sh.cols)

/-- R140: which of the units left by freed tiles a new tile of `n` units takes, each with its place in the tile; which free
units it gets is drawn, and so is whether each byte is what was left there or zero. DESIGN CHOICE (log 50). -/
def takeLeft (fresh n unit : Nat) (left : List (List Host.Cell)) : List (Nat × List Host.Cell) × List (List Host.Cell) :=
  (enumL left).foldl (fun acc u =>
    let at' := Config.choice (fresh + 2 * u.1) % (n + 1)
    if at' < n && !(acc.1.any fun x => x.1 == at') then
      (acc.1 ++ [(at', u.2.filterMap fun c =>
        if Config.choice (fresh + 2 * u.1 + 1) / 2 ^ c.1 % 2 == 1 then some (at' * unit + c.1, c.2) else none)], acc.2)
    else (acc.1, acc.2 ++ [u.2])) ([], [])

/-- R140: the space of a new tile: what it finds there, and the unit without it. -/
def TileUnit.takeSpace (u : TileUnit) (fresh : Nat) (sh : Shape) : List Host.Cell × TileUnit :=
  let unit := if sh.acc then 1024 else 64
  let t := takeLeft fresh (if sh.acc then sh.rows else granulesOf sh) unit (if sh.acc then u.leftRows else u.left)
  ((t.1.flatMap fun x => x.2).foldl (fun m c => Memory.set m c.1 c.2) [],
    if sh.acc then { u with leftRows := t.2 } else { u with left := t.2 })

/-- Creates a live tile at the lowest free index (R131, R140). `zero` false: its bytes are what its space holds. DESIGN CHOICE (log 50). -/
def State.newTile (s : State) (core ctx : Nat) (sh : Shape) (view : Option View) (zero : Bool) : Option (Nat × State) :=
  let u := (s.core core).tile
  match u.freeIdx with
  | none => none
  | some i =>
    let x := if view.isSome then ([], u) else u.takeSpace s.fresh sh
    let t : Tile := { idx := i, ctx := ctx, shape := sh, view := view, bytes := if zero then [] else x.1 }
    let draws := 2 * (u.left.length + u.leftRows.length)
    some (i, { (s.modTile core fun _ => { x.2 with tiles := u.tiles ++ [t] }) with fresh := s.fresh + draws })

/-- The handle of a live index. -/
def State.handleOf (s : State) (core idx : Nat) : Word :=
  match s.tile? core idx with
  | some t => handleWord t ((s.core core).tile.gen idx)
  | none => 0

/-- R140, R143: emits a handle to three destinations; with none left holding it the tile is freed. -/
def State.emitHandle (s : State) (site : Site) (d0 d1 d2 : Dest) (idx : Nat) : State :=
  let t := mkTok site kTile (s.handleOf site.core idx)
  s.emitAll site latTile 1 [(d0, t), (d1, t), (d2, t)]

/-- Puts a token in the place of another. -/
def swapTok (a b : QTok) : List QTok → List QTok
  | [] => []
  | q :: qs => if q == a then b :: qs else q :: swapTok a b qs

/-- R137: the new tile of a transfer: its bytes are the image's, and a wrong residue makes the token poison. The token
waits in flight, where it holds back its circuit. -/
def State.landTile (s : State) (core idx : Nat) (q : QTok) (img : TileImg) : State :=
  if bytesResidue img.bytes != img.res then
    let s := (s.freeIdx core idx).countResidue core
    let site : Site := { core := core, phase := q.tok.phase, prio := q.tok.prio }
    { s with flight := swapTok q { q with tok := poisonTok s site stResidue, tile := none, held := false } s.flight }
  else
    let s := s.modTileIdx core idx fun t => { t with bytes := img.bytes, status := img.status, refs := 1 }
    let v := s.handleOf core idx
    { s with flight := swapTok q { q with tok := { q.tok with val := v, res := residue255 v }, tile := none, held := false } s.flight }

/-- R334: a restored tile takes its old index again, and space, which its bytes fill. -/
def State.restoreTile (s : State) (core : Nat) (t : Tile) : State :=
  let u := (s.core core).tile
  let x : TileUnit := if t.view.isSome then u else (u.takeSpace s.fresh t.shape).2
  { (s.modTile core fun _ => { x with tiles := x.tiles ++ [t], reserved := x.reserved.filter fun r => r.2 != t.idx }) with
    fresh := s.fresh + 2 * (u.left.length + u.leftRows.length) }

/-- R134, R256, R334, R387: the request that a FIFO grants next: the first whose context, or whose step, goes on. DEDUCED (log 45). -/
def State.nextTileAsk (s : State) (core : Nat) (acc : Bool) : Option TileReq :=
  let u := (s.core core).tile
  let stepped (r : TileReq) : Bool :=
    if r.why == 2 then ((s.eng? core r.owner).map fun e => e.stepped).getD false
    else if r.why == 3 then ((s.req? r.owner).map fun q => q.stepped).getD false
    else r.why < 2 && r.site.step
  (if acc then u.accFifo else u.fifo).find? fun r => match s.ctx? r.site.ctx with
    | some c => c.mode == .running || (c.mode == .frozen && (r.why == 4 || stepped r)) || (c.mode == .restoring && r.why == 5)
    | none => false

/-- R134: grants the next request of a FIFO when it fits. -/
def State.grantTile (s : State) (core : Nat) (acc : Bool) : State :=
  let u := (s.core core).tile
  match s.nextTileAsk core acc with
  | none => s
  | some r =>
    let take (s : State) : State := s.modTile core fun u =>
      if acc then { u with accFifo := u.accFifo.erase r } else { u with fifo := u.fifo.erase r }
    if r.why == 5 then
      match r.saved with
      | some t => if u.room t.shape then (take s).restoreTile core t else s
      | none => take s
    else if !u.fits r.shape r.view.isSome then s else
      let zero := r.zero || r.why == 1 || r.why == 4
      match s.newTile core r.site.ctx r.shape r.view zero with
      | none => s
      | some (i, s) =>
        let s := take s
        match r.why with
        | 2 =>
          (s.modTileIdx core i fun t => { t with refs := 1 }).modEngRec core r.owner fun e => match e.kind with
            | .adrain _ _ _ _ _ _ => { e with out := some i, step := .queued }
            | .mmas _ _ _ =>
              if e.stream.stateTile.isNone then { e with stream := { e.stream with stateTile := some i } }
              else { e with stream := { e.stream with outs := e.stream.outs ++ [i] } }
            | .vruns _ _ =>
              if e.stream.stateTile.isNone then { e with stream := { e.stream with stateTile := some i } }
              else { e with stream := { e.stream with outs := e.stream.outs ++ [i] } }
            | _ => { e with out := some i }
        | 3 => ((s.modTileIdx core i fun t => { t with refs := 1 }).modReq r.owner fun q => { q with out := some i }).sendHeld r.owner
        | 4 => match r.arrival with
          | some q => match q.tile with
            | some img => s.landTile core i q img
            | none => s
          | none => s
        | _ => s.emitHandle r.site r.d0 r.d1 r.d2 i

/-- R134: a request joins its FIFO, and one that can be met at once is met at once. DESIGN CHOICE (log 144). -/
def State.askTile (s : State) (core : Nat) (r : TileReq) : State :=
  let s := s.queueTile core r
  if s.nextTileAsk core r.shape.acc == some r then s.grantTile core r.shape.acc else s

/-- TILE_ALLOCATION_GRANT, R134. -/
def execTileAllocationGrant (core : Nat) (acc : Bool) (s : State) : Host.Outcome State Fault Refusal :=
  .next (s.grantTile core acc)

/-! ## Handles and granules -/

/-- R139, R22: a handle operand of a firing at a core. -/
def State.handle (s : State) (core : Nat) (t : Tok) : Except Nat Tile :=
  if t.kind != kTile then .error stFormat
  else match s.tileOf? core t.val with
    | some x => .ok x
    | none => .error stTagMismatch

/-- A tile firing: R94, then the handle of L, then `k`. DEDUCED (log 153). -/
def State.tileFiring (s : State) (p : Par) (ops : List Tok) (k : State → Tile → State) :
    Host.Outcome State Fault Refusal :=
  s.firing p latTile ops fun s =>
    match s.handle s.cur.site.core s.cur.l with
    | .error st => s.failing p latTile st ops
    | .ok t => k s t

/-- R348: an engine command with a poison operand fails at its firing with POISON_IN; an EOS is forwarded under R94. DEDUCED (log 34). -/
def State.cmdFiring (s : State) (p : Par) (lat : Nat) (ops : List Tok) (k : State → State) :
    Host.Outcome State Fault Refusal :=
  if ops.any fun t => t.kind == kPoison then .next (s.failing p lat stPoisonIn ops) else s.firing p lat ops k

/-- R348: the same for a command whose L is a handle. DEDUCED (log 34). -/
def State.tileCmdFiring (s : State) (p : Par) (ops : List Tok) (k : State → Tile → State) :
    Host.Outcome State Fault Refusal :=
  if ops.any fun t => t.kind == kPoison then .next (s.failing p latTile stPoisonIn ops) else s.tileFiring p ops k

/-- R408: reads row `r` of a base array. -/
def State.readRow (s : State) (core : Nat) (b : Tile) (r : Nat) : Bool × State := s.readGrans core b (rowGrans b.shape r 0 b.shape.cols)

/-! ## Allocation, references, views -/

/-- TALLOC, R140. -/
def execTalloc (p : Par) (acc : Bool) (zero : Bool) (bg : Geom) (rows : BitVec 13) (cols : BitVec 13) (s : State) :
    Host.Outcome State Fault Refusal :=
  s.firing p latTile [s.cur.l] fun s =>
    let sh : Shape := { ty := p.ty, bg := bg, rows := rows.toNat, cols := cols.toNat, acc := acc }
    if impossible sh then s.failing p latTile stExtentBound [s.cur.l]
    else (s.askTile s.cur.site.core { site := s.cur.site, d0 := p.d0, d1 := p.d1, d2 := p.d2, shape := sh, why := 0,
                                      zero := zero }).finish p latTile [] [s.cur.l]

/-- R141: the index that a tile-store address names, or the status. -/
def State.trefIndex (s : State) (site : Site) (a : Word) : Except Nat Nat :=
  if spaceOf a != 5 || !spaceFields a then .error stBadSpace
  else if bf a.toNat 0 24 != 0 then .error stExtentBound
  else
    let i := bf a.toNat 32 12
    if (s.core site.core).tile.gen i != bf a.toNat 24 8 then .error stTagMismatch
    else match s.tile? site.core i with
      | some t => if t.ctx == site.ctx then .ok i else .error stTagMismatch
      | none => .error stTagMismatch

/-- TREF, R141. -/
def execTref (p : Par) (s : State) : Host.Outcome State Fault Refusal :=
  s.firing p latTile [s.cur.l] fun s =>
    if !isRead s.cur.l then s.failing p latTile stFormat [s.cur.l]
    else match s.trefIndex s.cur.site s.cur.l.val with
      | .error st => s.failing p latTile st [s.cur.l]
      | .ok i => s.finish p latTile (spread p (mkTok s.cur.site kTile (s.handleOf s.cur.site.core i))) [s.cur.l]

/-- TDROP, R142. -/
def execTdrop (p : Par) (s : State) : Host.Outcome State Fault Refusal :=
  s.tileFiring p [s.cur.l] fun s _ => s.finish p latTile (spread p (scalarTok s.cur.site 0)) [s.cur.l]

/-- R143: the window that a word names relative to a tile, or the status. -/
def windowOf (t : Tile) (w : Word) : Except Nat (Nat × Nat × Nat × Nat) :=
  let r0 := bf w.toNat 26 12
  let c0 := bf w.toNat 38 12
  let vr := bf w.toNat 0 13
  let vc := bf w.toNat 13 13
  if bf w.toNat 50 14 != 0 || vr == 0 || vc == 0 then .error stBadSpace
  else if t.shape.rows < r0 + vr || t.shape.cols < c0 + vc then .error stExtentBound
  else if c0 * tyBits t.shape.ty % 8 != 0 || (t.shape.bg.scaled && c0 % blockOf t.shape.bg != 0) then .error stFormat
  else .ok (r0, c0, vr, vc)

/-- TVIEW by a window word (R135, R143): the view's own reference is taken now, L's is given back; where L is the underlying
tile itself, L's reference becomes the view's (R95). -/
def State.viewOf (s : State) (p : Par) (t : Tile) (r : Tok) (ops : List Tok) : State :=
  if !isRead r then s.failing p latTile stFormat ops
  else match windowOf t r.val with
    | .error st => s.failing p latTile st ops
    | .ok (r0, c0, vr, vc) =>
      let core := s.cur.site.core
      let v : View := { base := t.baseIdx, row0 := t.row0 + r0, col0 := t.col0 + c0 }
      let own := t.view.isNone
      let s := if own then s else s.changeRefs core v.base 1 0
      (s.askTile core { site := s.cur.site, d0 := p.d0, d1 := p.d1, d2 := p.d2, why := 1, view := some v,
                        shape := { t.shape with rows := vr, cols := vc } }).finish p latTile [] (if own then ops.drop 1 else ops)

/-- TVIEW, R143. -/
def execTview (p : Par) (s : State) : Host.Outcome State Fault Refusal :=
  s.tileFiring p [s.cur.l, s.cur.r] fun s t => s.viewOf p t s.cur.r [s.cur.l, s.cur.r]

/-- TVIEW with an immediate window word, R143. -/
def execTviewImm (p : Par) (imm : BitVec 32) (s : State) : Host.Outcome State Fault Refusal :=
  s.tileFiring p [s.cur.l] fun s t => s.viewOf p t (immTok p.ty imm) [s.cur.l]

/-- R144: what TINFO tells of a tile, but for the count. -/
def tileInfo (t b : Tile) (gen : Nat) (what : InfoWhat) : Nat :=
  match what with
  | .count => 0
  | .pbytes => if t.view.isSome then 0 else elemBytes t.shape
  | .sbytes => if t.view.isSome then 0 else scaleBytes t.shape
  | .base => gen * 2 ^ 12 + b.idx
  | .window => t.col0 * 2 ^ 38 + t.row0 * 2 ^ 26 + t.shape.cols * 2 ^ 13 + t.shape.rows

/-- TINFO, R144: the count is that after every change of the firing. -/
def execTinfo (p : Par) (what : InfoWhat) (s : State) : Host.Outcome State Fault Refusal :=
  s.tileFiring p [s.cur.l] fun s t =>
    let site := s.cur.site
    let after := s.settle site latTile 1 [(p.d1, carryTok site s.cur.l)] [s.cur.l]
    let count := match after.tileOf? site.core s.cur.l.val with
      | some x => x.refs
      | none => 0
    let b := s.baseTile site.core t
    let v := if what == .count then count else tileInfo t b ((s.core site.core).tile.gen b.idx) what
    s.finish p latTile [(p.d0, scalarTok site (BitVec.ofNat 64 v)), (p.d1, carryTok site s.cur.l)] [s.cur.l]

/-! ## Engine commands of the tile unit -/

/-- TFILL (R145): starts the command, or fails. -/
def State.fill (s : State) (p : Par) (t : Tile) (r : Tok) (ops : List Tok) : State :=
  if !isRead r then s.failing p latTile stFormat ops
  else if (p.ty != .none && p.ty != t.shape.ty) || t.shape.bg != .g0 then s.failing p latTile stFormat ops
  else s.command p { opc := 0xC5, l := s.cur.l, r := r, kind := .tfill (r.val.toNat % 2 ^ tyBits t.shape.ty), step := .queued }

/-- TFILL, R145. -/
def execTfill (p : Par) (s : State) : Host.Outcome State Fault Refusal :=
  s.tileCmdFiring p [s.cur.l, s.cur.r] fun s t => s.fill p t s.cur.r [s.cur.l, s.cur.r]

/-- TFILL with an immediate value, R145. -/
def execTfillImm (p : Par) (imm : BitVec 32) (s : State) : Host.Outcome State Fault Refusal :=
  s.tileCmdFiring p [s.cur.l] fun s t => s.fill p t (immTok p.ty imm) [s.cur.l]

/-- Starts an engine command that waits for a new tile of a shape (R134, R138). -/
def State.commandNew (s : State) (p : Par) (e : Eng) (sh : Shape) (ops : List Tok) : State :=
  if impossible sh then s.failing p latTile stExtentBound ops
  else
    let core := s.cur.site.core
    let i := (s.freeRec core).getD 0
    (s.command p { e with step := .waiting }).askTile core { site := s.cur.site, shape := sh, why := 2, owner := i }

/-- TCOPY into a new tile, R146. -/
def execTcopy (p : Par) (toacc : Bool) (s : State) : Host.Outcome State Fault Refusal :=
  s.tileCmdFiring p [s.cur.l] fun s t =>
    let sh : Shape := { t.shape with acc := toacc }
    if toacc && (t.shape.ty != .f32 || t.shape.bg != .g0 || decide (512 < t.shape.rows) || decide (256 < t.shape.cols)) then
      s.failing p latTile stFormat [s.cur.l]
    else s.commandNew p { opc := 0xC6, l := s.cur.l, kind := .tcopy true } sh [s.cur.l]

/-- R146: source and destination agree. -/
def sameForm (a b : Shape) : Bool := a.ty == b.ty && a.bg == b.bg && a.rows == b.rows && a.cols == b.cols

/-- TCOPY into an existing tile, R146. -/
def execTcopyInto (p : Par) (s : State) : Host.Outcome State Fault Refusal :=
  s.tileCmdFiring p [s.cur.l, s.cur.r] fun s t =>
    match s.handle s.cur.site.core s.cur.r with
    | .error st => s.failing p latTile st [s.cur.l, s.cur.r]
    | .ok d =>
      if !sameForm t.shape d.shape then s.failing p latTile stFormat [s.cur.l, s.cur.r]
      else s.command p { opc := 0xC6, l := s.cur.l, r := s.cur.r, kind := .tcopy false, step := .queued }

/-- TTRAN, R147. -/
def execTtran (p : Par) (s : State) : Host.Outcome State Fault Refusal :=
  s.tileCmdFiring p [s.cur.l] fun s t =>
    if t.shape.bg != .g0 then s.failing p latTile stFormat [s.cur.l]
    else s.commandNew p { opc := 0xC7, l := s.cur.l, kind := .ttran }
      { ty := t.shape.ty, bg := .g0, rows := t.shape.cols, cols := t.shape.rows } [s.cur.l]

/-! ## Elements -/

/-- R148: the row and column of an index word within a window, or the status. -/
def indexWord (t : Tile) (part : Part) (ty : Ty) (w : Word) : Except Nat (Nat × Nat) :=
  let r := bf w.toNat 16 12
  let c := bf w.toNat 0 12
  if bf w.toNat 28 36 != 0 || bf w.toNat 12 4 != 0 then .error stBadSpace
  else if t.shape.rows ≤ r || t.shape.cols ≤ c then .error stExtentBound
  else if (part == .scale && !t.shape.bg.scaled) || (part == .super && t.shape.bg != .g4) then .error stFormat
  else if ty != .none && ty != t.shape.ty then .error stFormat
  else .ok (t.row0 + r, t.col0 + c)

/-- R148: the item of a base tile. -/
def Tile.item (b : Tile) (part : Part) (r c : Nat) : Word :=
  match part with
  | .elem => if tyIsInt b.shape.ty then extendTy b.shape.ty (b.elem r c) else BitVec.ofNat 64 (b.elem r c)
  | .scale => BitVec.ofNat 64 (b.scale r (c / blockOf b.shape.bg))
  | .super => BitVec.ofNat 64 (b.super r)

/-- R148: writes an item of a base tile. -/
def Tile.setItem (b : Tile) (part : Part) (r c : Nat) (v : Word) : Tile :=
  match part with
  | .elem => b.setElem r c (v.toNat % 2 ^ tyBits b.shape.ty)
  | .scale => b.setByte (scaleOff b.shape r (c / blockOf b.shape.bg)) (BitVec.ofNat 8 v.toNat)
  | .super => b.setBytes (superOff b.shape r) (leBytes 4 v.toNat)

/-- R136: the granule that holds an item. -/
def Tile.itemGrans (b : Tile) (part : Part) (r c : Nat) : List Nat :=
  match part with
  | .elem => granuleSpan (r * rowBytes b.shape + c * tyBits b.shape.ty / 8) 1
  | .scale => granuleSpan (scaleOff b.shape r (c / blockOf b.shape.bg)) 1
  | .super => granuleSpan (superOff b.shape r) 1

/-- TGET by an index word (R148). -/
def State.getItem (s : State) (p : Par) (part : Part) (t : Tile) (r : Tok) (ops : List Tok) : State :=
  let site := s.cur.site
  if !isRead r then s.failing p latTile stFormat ops
  else match indexWord t part p.ty r.val with
    | .error st => s.failing p latTile st ops
    | .ok (row, col) =>
      let b := s.baseTile site.core t
      let u := s.readGrans site.core b (b.itemGrans part row col)
      if u.1 then u.2.failing p latTile stDataUe ops
      else u.2.finish p latTile [(p.d0, scalarTok site ((s.baseTile site.core t).item part row col)),
        (p.d1, carryTok site s.cur.l)] ops

/-- TGET, R148. -/
def execTget (p : Par) (part : Part) (s : State) : Host.Outcome State Fault Refusal :=
  s.tileFiring p [s.cur.l, s.cur.r] fun s t => s.getItem p part t s.cur.r [s.cur.l, s.cur.r]

/-- TGET with an immediate index word, R148. -/
def execTgetImm (p : Par) (part : Part) (imm : BitVec 32) (s : State) : Host.Outcome State Fault Refusal :=
  s.tileFiring p [s.cur.l] fun s t => s.getItem p part t (immTok p.ty imm) [s.cur.l]

/-- TSET of a value (R136, R148). -/
def State.putItem (s : State) (p : Par) (part : Part) (t : Tile) (v : Tok) (ops : List Tok) : State :=
  let site := s.cur.site
  if !isRead s.cur.r || !isRead v then s.failing p latTile stFormat ops
  else match indexWord t part p.ty s.cur.r.val with
    | .error st => s.failing p latTile st ops
    | .ok (row, col) =>
      (s.modTileIdx site.core t.baseIdx fun b => b.setItem part row col v.val).finish p latTile
        (spread p (carryTok site s.cur.l)) ops

/-- TSET, R148. -/
def execTset (p : Par) (part : Part) (s : State) : Host.Outcome State Fault Refusal :=
  s.tileFiring p [s.cur.l, s.cur.r, s.cur.c] fun s t => s.putItem p part t s.cur.c [s.cur.l, s.cur.r, s.cur.c]

/-- TSET with an immediate value, R148. -/
def execTsetImm (p : Par) (part : Part) (imm : BitVec 32) (s : State) : Host.Outcome State Fault Refusal :=
  s.tileFiring p [s.cur.l, s.cur.r] fun s t => s.putItem p part t (immTok p.ty imm) [s.cur.l, s.cur.r]

/-! ## Completion of tile-unit commands -/

/-- A command's emissions and releases, then the end of its record (R95, R138); among the results of commands no order
holds (R301). -/
def State.endCommand (s : State) (core : Nat) (e : Eng) (st : Nat) (ems : List (Dest × Tok)) (used : List Tok) : State :=
  (s.settle e.site latTile 0 ems used).engEnd core e.idx st

/-- The three destinations of a record. -/
def Eng.spread (e : Eng) (t : Tok) : List (Dest × Tok) := [(e.d0, t), (e.d1, t), (e.d2, t)]

/-- R160, R349: a command that fails: poison with its firing as origin, its operands released, an output freed. -/
def State.failCommand (s : State) (core : Nat) (e : Eng) (st : Nat) (used : List Tok) : State :=
  let s := match e.out with
    | some i => (s.changeRefs core i 0 1).sweepIdx core i
    | none => s
  s.endCommand core e st (e.spread (poisonTok s e.site st)) used

/-- A new tile's handle goes out; the command's own reference to it ends. -/
def State.endWithTile (s : State) (core : Nat) (e : Eng) (idx : Nat) (used : List Tok) : State :=
  let t := mkTok e.site kTile (s.handleOf core idx)
  s.endCommand core e 0 (e.spread t) (t :: used)

/-- An allocated output before its command writes it: nothing of what was left there is ever seen. -/
def Tile.wipe (t : Tile) : Tile := { t with bytes := [] }

/-- R136: the granules that a TFILL, TCOPY or TTRAN touches one by one: those it writes in a tile that others can see, or
those of its source, which it reads before it writes its new tile. -/
def State.tileWork (s : State) (core : Nat) (e : Eng) (t : Tile) : List Nat :=
  let whole (x : Tile) : List Nat := windowGrans (s.baseTile core x).shape x.row0 x.col0 x.shape.rows x.shape.cols
  match e.kind with
  | .tcopy false => match s.handle core e.r with
    | .ok d => whole d
    | .error _ => []
  | _ => whole t

/-- R136, R146: which granule goes next: any, as drawn; of a TCOPY any of its lowest row. -/
def nextGran (sh : Shape) (inRows : Bool) (work : List Nat) (draw : Nat) : Nat :=
  let l := if inRows then match work with
      | g :: _ => work.takeWhile fun x => granRow sh x == granRow sh g
      | [] => []
    else work
  l.getD (draw % max l.length 1) 0

/-- R136: the source of a command that makes a new tile, as it was read granule by granule. -/
def Eng.source (e : Eng) (b : Tile) : Tile := { b with bytes := e.buf }

/-- R146: one granule of a TCOPY into a tile: from the source as it is, or, where the two share bytes, as it was before the
copy, as drawn. DESIGN CHOICE (log 65). -/
def State.copyGran (s : State) (core : Nat) (e : Eng) (t d : Tile) (g draw : Nat) : Bool × State :=
  let b := s.baseTile core t
  let db := s.baseTile core d
  let src := if d.baseIdx == t.baseIdx && draw % 2 == 1 then e.source b else b
  let r := granRow db.shape g - d.row0
  let u := s.readGrans core b (windowGrans b.shape (t.row0 + r) t.col0 1 t.shape.cols)
  if u.1 then (true, u.2)
  else (false, u.2.modTileIdx core d.baseIdx fun x => x.writeGran g d.row0 d.col0 d.shape.cols
    (fun r c => src.elem (t.row0 + r) (t.col0 + c)) (fun r j => src.scale (t.row0 + r) (t.col0 / blockOf b.shape.bg + j))
    (fun r => src.super (t.row0 + r)))

/-- R136, R146, R147: one granule of the new tile of a TCOPY or TTRAN, written from the source as it was read. -/
def writeNew (tran : Bool) (src t d : Tile) (g : Nat) : Tile :=
  (d.setBytes (g * 64) (List.replicate 64 0)).writeGran g 0 0 d.shape.cols
    (fun r c => if tran then src.elem (t.row0 + c) (t.col0 + r) else src.elem (t.row0 + r) (t.col0 + c))
    (fun r j => src.scale (t.row0 + r) (t.col0 / blockOf src.shape.bg + j)) (fun r => src.super (t.row0 + r))

/-- One granule of a running TFILL, TCOPY or TTRAN (R136, R145 to R147); a read that fails ends the command. -/
def State.tileGran (s : State) (core : Nat) (e : Eng) (t : Tile) : State :=
  let w := s.draw
  let s := w.2
  let b := s.baseTile core t
  let drop (s : State) (g : Nat) : State := s.modEngRec core e.idx fun e => { e with work := e.work.erase g }
  match e.kind with
  | .tfill v =>
    let g := nextGran b.shape false e.work w.1
    drop (s.modTileIdx core t.baseIdx fun b => b.writeGran g t.row0 t.col0 t.shape.cols (fun _ _ => v) (fun _ _ => 0) fun _ => 0) g
  | .tcopy false =>
    match s.handle core e.r with
    | .error st => s.failCommand core e st [e.l, e.r]
    | .ok d =>
      let g := nextGran (s.baseTile core d).shape true e.work (w.1 / 2)
      let x := s.copyGran core e t d g w.1
      if x.1 then x.2.failCommand core e stDataUe [e.l, e.r] else drop x.2 g
  | _ =>
    if e.row == 1 then
      match e.out.bind fun i => s.tile? core i with
      | none => s
      | some d =>
        let g := nextGran d.shape false e.work w.1
        drop (s.modTileIdx core d.idx fun d => writeNew (e.kind == .ttran) (e.source b) t d g) g
    else
    let g := nextGran b.shape (e.kind != .ttran) e.work w.1
    let x := s.readGrans core b [g]
    if x.1 then x.2.failCommand core e stDataUe [e.l]
    else drop (x.2.modEngRec core e.idx fun e => { e with buf := Memory.setMany e.buf (g * 64) (b.getBytes (g * 64) 64) }) g

/-- A TFILL, TCOPY or TTRAN whose granules are done completes, or one that has read its source goes on to its new tile (R145 to
R147). -/
def State.endTileCommand (s : State) (core : Nat) (e : Eng) : State :=
  match e.kind, e.out with
  | .tfill _, _ => s.endCommand core e 0 (e.spread (carryTok e.site e.l)) [e.l]
  | .tcopy false, _ => s.endCommand core e 0 (e.spread (carryTok e.site e.r)) [e.l, e.r]
  | _, some i =>
    if e.row == 1 then s.endWithTile core e i [e.l]
    else match s.tile? core i with
      | none => s
      | some d => s.modEngRec core e.idx fun x =>
          { x with row := 1, work := windowGrans d.shape 0 0 d.shape.rows d.shape.cols }
  | _, none => s

/-- A TFILL, TCOPY or TTRAN goes on: it starts, or reads or writes one granule, or completes (R136, R145 to R147). DESIGN CHOICE (log 65). -/
def State.runTileCommand (s : State) (core : Nat) (e : Eng) : State :=
  match s.handle core e.l with
  | .error st => s.failCommand core e st (match e.kind with
    | .tcopy false => [e.l, e.r]
    | _ => [e.l])
  | .ok t =>
    if e.step != .running then
      let shared := match e.kind with
        | .tcopy false => (s.baseTile core t).bytes
        | _ => []
      (s.engStart core e.idx).modEngRec core e.idx fun x => { x with work := s.tileWork core e t, buf := shared }
    else if e.work.isEmpty then s.endTileCommand core e
    else s.tileGran core e t

end Sys2Proof.Machine
end

