-- ==== Sys2Proof/Machine/Access.lean ====
section
/-! DEFINITION. Forming memory accesses: addresses and their parts (R206, R213, R341), formats (R73, R208), watchpoints
(R373 to R376, R393) and the request that a memory firing issues (R203, R204). -/

namespace Sys2Proof.Machine

/-! ## Addresses -/

/-- R35: bits of the byte-offset field of a SPACE. -/
def offBits : Nat → Nat
  | 0 => 56 | 1 => 26 | 2 => 26 | 3 => 32 | _ => 24

/-- The byte offset of an address operand. -/
def offsetOf (a : Word) : Nat := a.toNat % 2 ^ offBits (spaceOf a)

/-- R213: adds to the byte-offset field; an offset carried out of it is EXTENT_BOUND. -/
def addOff (a : Word) (d : Int) : Except Nat Word :=
  let w := offBits (spaceOf a)
  let o : Int := (offsetOf a : Nat) + d
  if o < 0 || 2 ^ w ≤ o then .error stExtentBound else .ok (BitVec.ofNat 64 (a.toNat / 2 ^ w * 2 ^ w + o.toNat))

def Loc.add (l : Loc) (n : Nat) : Loc :=
  match l with
  | .mem pa tag key => .mem (pa + n) tag key
  | .tile core idx off => .tile core idx (off + n)
  | .host pa => .host (pa + n)
  | .net tenant qp off => .net tenant qp (off + n)

/-- The position of a place, by which granules are aligned. -/
def Loc.pos (l : Loc) : Nat :=
  match l with
  | .mem pa _ _ => pa
  | .tile _ _ off => off
  | .host pa => pa
  | .net _ _ off => off

/-- R341: cuts a range at 64-byte boundaries; `k` pieces at most. DEDUCED (log 69). -/
def granuleCuts : Nat → Loc → Nat → Nat → List (Loc × Nat × Nat)
  | 0, _, _, _ => []
  | k + 1, l, n, off =>
    if n == 0 then [] else
      let len := min n (64 - l.pos % 64)
      (l, len, off) :: granuleCuts k (l.add len) (n - len) (off + len)

/-- R341: the granules of an access. -/
def granulesIn (ps : List (Loc × Nat × Nat)) : List (Loc × Nat × Nat) :=
  ps.flatMap fun p => granuleCuts (p.2.1 / 64 + 2) p.1 p.2.1 p.2.2

/-- What an event of a piece reads or writes: its own place and those of the same granule, with length, offset, operation. DESIGN CHOICE (log 177). -/
def Piece.spans (p : Piece) : List (Loc × Nat × Nat × PieceOp) := (p.place, p.len, p.off, p.op) :: p.more

/-- R341: two places lie in one aligned 64-byte granule of memory. -/
def sameGranule (a b : Loc) : Bool :=
  match a, b with
  | .mem x _ _, .mem y _ _ => x / 64 == y / 64
  | _, _ => false

/-- R341: parts of an access, in ascending order: those of one granule perform as one event. -/
def oneByGranule : List Piece → List Piece
  | [] => []
  | p :: ps => match oneByGranule ps with
    | [] => [p]
    | q :: qs => if sameGranule p.place q.place then { p with more := q.spans } :: qs else p :: q :: qs

/-- The parts of a range within an access. -/
def subParts (ps : List (Loc × Nat × Nat)) (o n : Nat) : List (Loc × Nat × Nat) :=
  ps.filterMap fun p =>
    let lo := max p.2.2 o
    let hi := min (p.2.2 + p.2.1) (o + n)
    if lo < hi then some (p.1.add (lo - p.2.2), hi - lo, lo) else none

/-- R206: the aligned pieces of a scalar access: offset in the access and length, `k` pieces at most. DEDUCED (log 69). -/
def alignedCuts : Nat → Nat → Nat → Nat → List (Nat × Nat)
  | 0, _, _, _ => []
  | k + 1, a, n, off =>
    if n == 0 then [] else
      let w := if 8 ≤ n && a % 8 == 0 then 8 else if 4 ≤ n && a % 4 == 0 then 4 else if 2 ≤ n && a % 2 == 0 then 2 else 1
      (off, w) :: alignedCuts k (a + w) (n - w) (off + w)

/-- R279: cuts a part of at most 8 bytes where the home node changes, at a 256-byte boundary. -/
def nodeCuts (p : Loc × Nat × Nat) : List (Loc × Nat × Nat) :=
  let room := 256 - p.1.pos % 256
  if p.2.1 ≤ room then [p] else [(p.1, room, p.2.2), (p.1.add room, p.2.1 - room, p.2.2 + room)]

/-- R206, R279, R341: the pieces of a scalar access of `n` bytes. -/
def scalarPieces (a : Word) (n : Nat) (t : Target) (op : Nat → Nat → PieceOp) : List Piece :=
  (alignedCuts 8 (offsetOf a) n 0).flatMap fun c =>
    ((subParts t.parts c.1 c.2).flatMap nodeCuts).map fun p => { place := p.1, len := p.2.1, off := p.2.2, op := op p.2.2 p.2.1 }

/-- The physical address of the first byte of an access (R366). -/
def firstPa (ps : List (Loc × Nat × Nat)) : Nat :=
  match ps.head? with
  | some (.mem pa _ _, _, _) => pa
  | _ => tilePa

/-! ## Formats -/

/-- R73, R208: the type of a scalar access. -/
def scalarForm (sp : Nat) (fa : Option Nat) (ty : Ty) : Except Nat Ty :=
  if sp != 0 then .ok (if ty == .none then .z64 else ty)
  else match formatOf fa ty none with
    | .error st => .error st
    | .ok (t, g) => if g != .g0 || t == .e2m1 || t == .qn4 then .error stFormat else .ok (if t == .none then .z64 else t)

/-- R202, R208: a scalar access: its type and where it lands. DESIGN CHOICE (log 13). -/
def State.scalarAccess (s : State) (site : Site) (u : Use) (a : Word) (ty : Ty) : Except Nat (Ty × Target) :=
  match s.resolve site u a (if ty == .none then 1 else tyBits ty / 8) with
  | .error st => .error st
  | .ok t =>
    match scalarForm (spaceOf a) t.fa ty with
    | .error st => .error st
    | .ok x => if ty == .none then (s.resolve site u a (tyBits x / 8)).map fun t => (x, t) else .ok (x, t)

/-! ## Watchpoints -/

/-- The physical address of each byte of a watch unit's 16-byte range. -/
def State.watchPlaces (s : State) (c : Ctx) (w : Watch) : List (Option Nat) :=
  (List.range 16).map fun j =>
    match s.resolve { core := w.core, ctx := c.id } { spaces := [0, 1, 2], read := false, copy := true, device := true }
        (w.base + BitVec.ofNat 64 j) 1 with
    | .error _ => none
    | .ok t => match t.parts.head?, t.va with
      | some (.mem pa _ _, _, _), _ => some (s.absPa pa)
      | _, some va => match s.walk c.tenant va with
        | .leaf x size pkg => if leafHost x then none else some (s.absPa (leafPa x size pkg va))
        | _ => none
      | _, _ => none

/-- R355: which bytes of a watched range an access touches. -/
def touchMask (places : List (Option Nat)) (ranges : List (Nat × Nat)) : Nat :=
  ((enumL places).map fun p => match p.2 with
    | some a => if ranges.any fun r => decide (r.1 ≤ a) && decide (a < r.1 + r.2) then 2 ^ p.1 else 0
    | none => 0).sum

/-- R393: the kind bit of WATCHn_CTL for an access kind: 1 read, 2 write, 4 atomic. -/
def watchBit (kind : Nat) : Nat := if kind == 1 then 1 else if kind == 2 then 2 else 3

/-- R238: check points by their bit of WATCHn_CTL. -/
def atIssue : Nat := 4
def atCpath : Nat := 5
def atHome : Nat := 6

/-- R238: a unit is enabled for a check point. -/
def Watch.checks (w : Watch) (point : Nat) : Bool := bf w.ctl.toNat 0 1 == 1 && bf w.ctl.toNat point 1 == 1

/-- A unit's mask of touched bytes where it is enabled for a kind at a check point and hit; else 0. -/
def WatchAt.touch (x : WatchAt) (point kind : Nat) (ranges : List (Nat × Nat)) : Nat :=
  if x.unit.checks point && bf x.unit.ctl.toNat (watchBit kind) 1 == 1 then
    let m := touchMask x.places ranges
    if m &&& x.unit.mask.toNat != 0 then m else 0
  else 0

/-- The enabled units of a context. -/
def State.watchesOf (s : State) (c : Ctx) : List WatchAt :=
  (enumL c.regs.watch).filterMap fun w =>
    if bf w.2.ctl.toNat 0 1 == 1 then some { n := w.1, unit := w.2, places := s.watchPlaces c w.2 } else none

/-- R373: the units hit at a check point, with the mask of touched bytes. -/
def watchHits (us : List WatchAt) (point kind : Nat) (ranges : List (Nat × Nat)) : List (WatchAt × Nat) :=
  us.filterMap fun u => if u.touch point kind ranges == 0 then none else some (u, u.touch point kind ranges)

/-- R373: the units of a context that an access which passes a check point meets at HOME. -/
def homeUnits (us : List WatchAt) (point : Nat) : List WatchAt :=
  us.filter fun u => u.unit.checks atHome && !u.unit.checks point

/-- The units that an access of a firing, or of a command, meets: none of a handler's (R357). -/
def State.watchesAt (s : State) (site : Site) : List WatchAt :=
  if site.hnd then [] else match s.ctx? site.ctx with
    | some c => s.watchesOf c
    | none => []

def Watch.halts (w : Watch) : Bool := bf w.ctl.toNat 7 1 == 1

/-- The physical ranges of an access. -/
def State.rangesOf (s : State) (ps : List Piece) : List (Nat × Nat) :=
  (ps.flatMap Piece.spans).filterMap fun p => match p.1 with
    | .mem pa _ _ => some (s.absPa pa, p.2.1)
    | _ => none

/-! ## Firing -/

/-- A memory firing: R94, then the read positions, then `k`. -/
def State.memFiring (s : State) (p : Par) (reads ops : List Tok) (k : State → State) : Host.Outcome State Fault Refusal :=
  s.firing p latGraph ops fun s => if !reads.all isRead then s.failing p latGraph stFormat ops else k s

/-- A memory firing whose checks answer a status or what to do. -/
def State.orFail (s : State) (p : Par) (ops : List Tok) {α : Type} (x : Except Nat α) (k : α → State) : State :=
  match x with
  | .error st => s.failing p latGraph st ops
  | .ok a => k a

/-- The tenant of a context. -/
def State.tenantOf (s : State) (ctx : Nat) : Nat := match s.ctx? ctx with
  | some c => c.tenant
  | none => 0

/-- R203, R204: a memory firing issues its request: issue tokens and references, the watch check of R373, the IFR entry.
`kind` is the access kind of R355; 0: none is checked. -/
def State.fireReq (s : State) (p : Par) (kind : Nat) (ems : List (Dest × Tok)) (used : List Tok) (r : Req) : State :=
  let site := s.cur.site
  let s := s.finish p latGraph ems used
  let r : Req := { r with site := site, d0 := p.d0, d1 := p.d1, d2 := p.d2, tenant := s.tenantOf site.ctx }
  let us := if kind == 0 then [] else s.watchesAt site
  let r : Req := { r with home := if kind == 0 then none else some (homeUnits us atIssue) }
  let hits := watchHits us atIssue kind (s.rangesOf r.pieces)
  let id := s.ms.reqSeq
  hits.foldl (fun s h => s.trap
      { cause := 3, core := site.core, site := site, code := h.1.n, a := scalarTok site r.addr,
        b := BitVec.ofNat 64 (2 ^ 61 + kind * 2 ^ 56 + h.2), item := id } h.1.unit.halts)
    (s.issue { r with watch := !hits.isEmpty, hits := hits.map fun h => (site.ctx, h.1.n) })

/-- R203: the issue token on D1. -/
def issueTok (p : Par) (site : Site) : List (Dest × Tok) := [(p.d1, scalarTok site 0)]

end Sys2Proof.Machine
end

