-- ==== Sys2Proof/Machine/Memory.lean ====
section
/-! DEFINITION. The load, store, atomic, bank, barrier and object instructions (R207 to R223, R218, R346): each firing
checks its access and issues one request; what the request does at its home node stands in Node.lean. -/

namespace Sys2Proof.Machine

/-! ## LD and ST (R206 to R208) -/

/-- LD, R208. -/
def execLd (p : Par) (s : State) : Host.Outcome State Fault Refusal :=
  s.memFiring p [s.cur.l] [s.cur.l] fun s =>
    let a := s.cur.l.val
    s.orFail p [s.cur.l] (s.scalarAccess s.cur.site {} a p.ty) fun x =>
      s.fireReq p 1 [] [s.cur.l]
        { opc := 0x140, cls := 1, paddr := firstPa x.2.parts, kind := .ld x.1, ordered := true, addr := a
          pieces := scalarPieces a (tyBits x.1 / 8) x.2 fun _ _ => .read }

/-- ST of a value. -/
def State.store (s : State) (p : Par) (v : Tok) (ops : List Tok) : State :=
  let a := s.cur.l.val
  s.orFail p ops (s.scalarAccess s.cur.site { write := true, read := false } a p.ty) fun x =>
    let bytes := leBytes (tyBits x.1 / 8) v.val.toNat
    s.fireReq p 2 (issueTok p s.cur.site) ops
      { opc := 0x141, cls := 2, paddr := firstPa x.2.parts, kind := .st, ordered := true, addr := a, opa := v.val
        pieces := scalarPieces a (tyBits x.1 / 8) x.2 fun o n => .write ((bytes.drop o).take n) }

/-- ST, R208. -/
def execSt (p : Par) (s : State) : Host.Outcome State Fault Refusal :=
  s.memFiring p [s.cur.l, s.cur.r] [s.cur.l, s.cur.r] fun s => s.store p s.cur.r [s.cur.l, s.cur.r]

/-- ST of an immediate value, R208. -/
def execStImm (p : Par) (imm : BitVec 32) (s : State) : Host.Outcome State Fault Refusal :=
  s.memFiring p [s.cur.l] [s.cur.l] fun s => s.store p (immTok p.ty imm) [s.cur.l]

/-! ## LDT and STT (R209, R210) -/

/-- R209: the byte distance of memory rows, or FORMAT where it is smaller than a packed row. -/
def rowPitch (sh : Shape) (pitch : Nat) : Except Nat Nat :=
  let packed := packedRow sh
  let rp := if pitch == 0 then packed else pitch * 16
  if rp < packed then .error stFormat else .ok rp

/-- Where each row of `n` bytes lands, rows `rp` bytes apart. -/
def State.rowParts (s : State) (site : Site) (u : Use) (a : Word) (rp n : Nat) : Nat → Nat → Except Nat (List (Nat × Target))
  | 0, _ => .ok []
  | k + 1, r =>
    match addOff a (r * rp : Nat) with
    | .error st => .error st
    | .ok x =>
      match s.resolve site u x n with
      | .error st => .error st
      | .ok t => (s.rowParts site u a rp n k (r + 1)).map fun ts => (r, t) :: ts

/-- R206: the byte offset of an element is a multiple of its width. -/
def elemAligned (ty : Ty) (a : Word) : Bool := decide (tyBits ty < 8) || offsetOf a % (tyBits ty / 8) == 0

/-- R69 to R73, R209, R210: the accesses of a tile transfer: each granule with its offset in the tile's byte array. -/
def State.tileAccess (s : State) (site : Site) (u : Use) (sh : Shape) (pitch : Nat) (ea : Word) (sa : Option Word) :
    Except Nat (List (Loc × Nat × Nat)) :=
  match rowPitch sh pitch with
  | .error st => .error st
  | .ok rp =>
    if !elemAligned sh.ty ea || sh.bg.scaled != sa.isSome then .error stFormat
    else match s.rowParts site u ea rp (packedRow sh) sh.rows 0 with
      | .error st => .error st
      | .ok rows =>
        let el := rows.flatMap fun r => (granulesIn r.2.parts).map fun g => (g.1, g.2.1, g.2.2 + r.1 * rowBytes { sh with acc := false })
        match sa with
        | none => .ok el
        | some a =>
          match s.resolve site u a (scaleBytes sh) with
          | .error st => .error st
          | .ok t =>
            if !scalePageOk t.fa sh.bg then .error stFormat
            else .ok (el ++ (granulesIn t.parts).map fun g => (g.1, g.2.1, g.2.2 + elemBytes { sh with acc := false }))

/-- Spaces of LDT, STT and the copy engine (R201). -/
def tileSpaces : List Nat := [0, 1, 2, 3]

/-- R209: the type and geometry of an LDT, from the instruction or the page. -/
def State.loadForm (s : State) (site : Site) (a : Word) (ty : Ty) (bg : Geom) (two : Bool) : Except Nat (Ty × Geom) :=
  match s.resolve site { spaces := tileSpaces } a 1 with
  | .error st => .error st
  | .ok t =>
    if spaceOf a != 0 then (if ty == .none then .error stFormat else .ok (ty, bg))
    else match formatOf t.fa ty (if ty == .none then none else some bg) with
      | .error st => .error st
      | .ok (x, g) => if x == .none || g.scaled != two then .error stFormat else .ok (x, g)

/-- LDT (R209). -/
def State.loadTile (s : State) (p : Par) (bg : Geom) (pitch rows cols : Nat) (sa : Option Word) (ops : List Tok) : State :=
  let site := s.cur.site
  let a := s.cur.l.val
  s.orFail p ops (s.loadForm site a p.ty bg sa.isSome) fun f =>
    let sh : Shape := { ty := f.1, bg := f.2, rows := rows, cols := cols }
    s.orFail p ops (s.tileAccess site { spaces := tileSpaces } sh pitch a sa) fun gs =>
      if impossible sh then s.failing p latGraph stExtentBound ops
      else
        let id := s.ms.reqSeq
        (s.fireReq p 1 [] ops
          { opc := 0x142, cls := 1, paddr := firstPa gs, kind := .ldt, addr := a, opa := sa.getD 0
            pieces := oneByGranule (gs.map fun g => { place := g.1, len := g.2.1, off := g.2.2, op := .read }) }).askTile site.core
          { site := site, shape := sh, why := 3, owner := id }

/-- LDT of one plane, R209. -/
def execLdt (p : Par) (bg : Geom) (pitch : BitVec 16) (rows : BitVec 13) (cols : BitVec 13) (s : State) :
    Host.Outcome State Fault Refusal :=
  s.memFiring p [s.cur.l] [s.cur.l] fun s => s.loadTile p bg pitch.toNat rows.toNat cols.toNat none [s.cur.l]

/-- LDT of two planes, R209. -/
def execLdtScaled (p : Par) (bg : Geom) (pitch : BitVec 16) (rows : BitVec 13) (cols : BitVec 13) (s : State) :
    Host.Outcome State Fault Refusal :=
  s.memFiring p [s.cur.l, s.cur.r] [s.cur.l, s.cur.r] fun s =>
    s.loadTile p bg pitch.toNat rows.toNat cols.toNat (some s.cur.r.val) [s.cur.l, s.cur.r]

/-- R210: checks a store's element page against the tile. -/
def State.storeForm (s : State) (site : Site) (a : Word) (sh : Shape) : Except Nat Unit :=
  match s.resolve site { spaces := tileSpaces, write := true, read := false } a 1 with
  | .error st => .error st
  | .ok t => if spaceOf a != 0 then .ok () else (formatOf t.fa sh.ty (some sh.bg)).map fun _ => ()

/-- R202, R210: an STT that fails a check at its firing: its completion is poison, and L goes on to D2. DEDUCED (log 35). -/
def State.storeFail (s : State) (p : Par) (st : Nat) (ops : List Tok) : State :=
  let site := s.cur.site
  let t := poisonTok s site st
  s.finish p latGraph [(p.d0, t), (p.d1, t), (p.d2, carryTok site s.cur.l)] ops

/-- STT (R210): the bytes stored are those of the tile as it fires (R335). DEDUCED (log 59). -/
def State.storeTile (s : State) (p : Par) (pitch : Nat) (sa : Option Word) (reads ops : List Tok) : State :=
  let site := s.cur.site
  let a := s.cur.r.val
  s.orFail p ops (s.handle site.core s.cur.l) fun t =>
    if !reads.all isRead then s.storeFail p stFormat ops
    else match s.storeForm site a t.shape, s.tileAccess site { spaces := tileSpaces, write := true, read := false } t.shape pitch a sa with
      | .error st, _ => s.storeFail p st ops
      | _, .error st => s.storeFail p st ops
      | .ok _, .ok gs =>
        let u := s.readRows site.core t 0 t.shape.rows
        if u.1 then u.2.storeFail p stDataUe ops
        else
          let img : Tile := { shape := { t.shape with acc := false }, bytes := planeBytes (u.2.readPlane site.core t) }
          u.2.fireReq p 2 (issueTok p site) (ops.drop 1)
            { opc := 0x143, cls := 2, paddr := firstPa gs, kind := .stt, addr := a, opa := a, opb := sa.getD 0, hold := [s.cur.l]
              pieces := oneByGranule (gs.map fun g => { place := g.1, len := g.2.1, off := g.2.2, op := .write (img.getBytes g.2.2 g.2.1) }) }

/-- STT of one plane, R210. -/
def execStt (p : Par) (pitch : BitVec 16) (s : State) : Host.Outcome State Fault Refusal :=
  s.firing p latGraph [s.cur.l, s.cur.r] fun s => s.storeTile p pitch.toNat none [s.cur.r] [s.cur.l, s.cur.r]

/-- STT of two planes, R210. -/
def execSttScaled (p : Par) (pitch : BitVec 16) (s : State) : Host.Outcome State Fault Refusal :=
  s.firing p latGraph [s.cur.l, s.cur.r, s.cur.c] fun s =>
    s.storeTile p pitch.toNat (some s.cur.c.val) [s.cur.r, s.cur.c] [s.cur.l, s.cur.r, s.cur.c]

/-! ## PFH (R218, R298) -/

/-- The 256-byte lines of a channel that hold staged granules, newest first. -/
def stagedLines (l : List (Nat × Bool × Nat)) (channel : Nat) : List Nat :=
  ((l.map fun g => g.1 / 4).filter fun x => x % 512 == channel).eraseDups

/-- R298: stages a granule at its channel; beyond 32 lines the oldest line goes. DESIGN CHOICE (log 74). -/
def State.stage (s : State) (core g : Nat) : State :=
  let s := s.perfCore core 0x08 1
  let s := s.modMs fun m => { m with staged := (g, false, core) :: m.staged.filter fun x => x.1 != g }
  match (stagedLines s.ms.staged (g / 4 % 512))[32]? with
  | some line => s.dropStaged (line * 256) 256
  | none => s

/-- The HBM granules of this package that a PFH names, from its first byte on. -/
def State.prefetchable (s : State) (site : Site) (a : Word) (n : Nat) : List Nat :=
  match s.resolve site { spaces := [0] } a (64 * n) with
  | .error _ => []
  | .ok t => ((granulesIn t.parts).filterMap fun g => match g.1 with
      | .mem pa _ _ => if s.isLocal pa && decide (paLocal pa < hbmTop) then some (paLocal pa / 64) else none
      | _ => none).eraseDups.take n

/-- PFH, R218: a scalar 0 whatever L is, poison and EOS included. -/
def execPfh (p : Par) (count : BitVec 16) (s : State) : Host.Outcome State Fault Refusal :=
  let site := s.cur.site
  let gs := if isRead s.cur.l then s.prefetchable site s.cur.l.val (count.toNat + 1) else []
  .next ((gs.foldl (fun s g => s.stage site.core g) s).finish p latGraph (spread p (scalarTok site 0)) [s.cur.l])

/-! ## Atomics (R219, R220) -/

/-- R201: the spaces of atomics, barriers and objects. -/
def atomSpaces : List Nat := [0, 1, 2]

/-- R202, R206: an atomic access of a type: aligned to its width, and of the page's format. -/
def State.atomAccess (s : State) (site : Site) (a : Word) (ty : Ty) : Except Nat Target :=
  match s.scalarAccess site { spaces := atomSpaces, write := true } a ty with
  | .error st => .error st
  | .ok x => if offsetOf a % (tyBits ty / 8) != 0 then .error stFormat else .ok x.2

/-- R293, R341: the one event of an operation on a word; where the word lies in two pages, its further part stands beside the
first. DESIGN CHOICE (log 177). -/
def oneEvent (t : Target) (op : PieceOp) : List Piece :=
  t.parts.take 1 |>.map fun p =>
    { place := p.1, len := p.2.1, off := 0, op := op, more := (t.parts.drop 1).map fun q => (q.1, q.2.1, q.2.2, op) }

/-- AOP (R220). -/
def State.atomic (s : State) (p : Par) (op : AtomOp) (rtry : Bool) (v : Tok) (ops : List Tok) : State :=
  let a := s.cur.l.val
  s.orFail p ops (s.atomAccess s.cur.site a p.ty) fun t =>
    s.fireReq p 4 (issueTok p s.cur.site) ops
      { opc := 0x14A, cls := 3, paddr := firstPa t.parts, kind := .atomic p.ty, rtry := rtry, addr := a, opa := v.val
        pieces := oneEvent t (.update (atomOpCode op) p.ty (v.val.toNat % 2 ^ tyBits p.ty)) }

/-- AOP, R220. -/
def execAop (p : Par) (op : AtomOp) (rtry : Bool) (s : State) : Host.Outcome State Fault Refusal :=
  s.memFiring p [s.cur.l, s.cur.r] [s.cur.l, s.cur.r] fun s => s.atomic p op rtry s.cur.r [s.cur.l, s.cur.r]

/-- AOP with an immediate operand, R220. -/
def execAopImm (p : Par) (op : AtomOp) (rtry : Bool) (imm : BitVec 32) (s : State) : Host.Outcome State Fault Refusal :=
  s.memFiring p [s.cur.l] [s.cur.l] fun s => s.atomic p op rtry (immTok p.ty imm) [s.cur.l]

/-- ACAS (R220). -/
def State.compareSwap (s : State) (p : Par) (rtry : Bool) (v : Tok) (ops : List Tok) : State :=
  let a := s.cur.l.val
  let e := s.cur.r.val
  s.orFail p ops (s.atomAccess s.cur.site a p.ty) fun t =>
    s.fireReq p 4 (issueTok p s.cur.site) ops
      { opc := 0x14B, cls := 3, paddr := firstPa t.parts, kind := .atomic p.ty, rtry := rtry, addr := a, opa := e, opb := v.val
        pieces := oneEvent t (.cas (tyBits p.ty) (e.toNat % 2 ^ tyBits p.ty) (v.val.toNat % 2 ^ tyBits p.ty)) }

/-- ACAS, R220. -/
def execAcas (p : Par) (rtry : Bool) (s : State) : Host.Outcome State Fault Refusal :=
  s.memFiring p [s.cur.l, s.cur.r, s.cur.c] [s.cur.l, s.cur.r, s.cur.c] fun s =>
    s.compareSwap p rtry s.cur.c [s.cur.l, s.cur.r, s.cur.c]

/-- ACAS with an immediate new value, R220. -/
def execAcasImm (p : Par) (rtry : Bool) (imm : BitVec 32) (s : State) : Host.Outcome State Fault Refusal :=
  s.memFiring p [s.cur.l, s.cur.r] [s.cur.l, s.cur.r] fun s => s.compareSwap p rtry (immTok p.ty imm) [s.cur.l, s.cur.r]

/-! ## BUPD and BAXPY (R221) -/

/-- CRED's and BUPD's operations as updates (R215). DEDUCED (log 88). -/
def redUpdate : RedOp → Nat
  | .add => 0 | .min => 4 | .max => 5

/-- R221: an array update by the elements of tile x, `op` of each element. DEDUCED (log 59). -/
def State.bankUpdate (s : State) (p : Par) (opc pitch : Nat) (ops : List Tok) (opb : Word) (op : Nat → PieceOp) : State :=
  let site := s.cur.site
  let a := s.cur.l.val
  s.orFail p ops (s.handle site.core s.cur.r) fun x =>
    if x.shape.bg != .g0 || x.shape.ty != p.ty then s.failing p latGraph stFormat ops
    else s.orFail p ops (rowPitch x.shape pitch) fun rp =>
      s.orFail p ops (s.rowParts site { spaces := [1, 2], write := true } a rp (packedRow x.shape) x.shape.rows 0) fun rows =>
        let u := s.readRows site.core x 0 x.shape.rows
        if u.1 then u.2.failing p latGraph stDataUe ops
        else
          let elems := (u.2.readPlane site.core x).elems
          let w := tyBits p.ty / 8
          let ps : List Piece := rows.flatMap fun r => (enumL (elems.getD r.1 [])).flatMap fun e =>
            (subParts r.2.parts (e.1 * w) w).map fun q => { place := q.1, len := q.2.1, off := 0, op := op e.2 }
          u.2.fireReq p 4 (issueTok p site) (ops.filter fun t => t.kind != kTile)
            { opc := opc, cls := 3, paddr := firstPa ((rows.map fun r => r.2.parts).headD []), kind := .bank, addr := a,
              opa := s.cur.r.val, opb := opb, hold := [s.cur.r], pieces := ps }

/-- BUPD, R221. -/
def execBupd (p : Par) (rop : RedOp) (pitch : BitVec 16) (s : State) : Host.Outcome State Fault Refusal :=
  s.memFiring p [s.cur.l] [s.cur.l, s.cur.r] fun s =>
    s.bankUpdate p 0x14C pitch.toNat [s.cur.l, s.cur.r] 0 fun x => .update (redUpdate rop) p.ty x

/-- BAXPY, R221. -/
def execBaxpy (p : Par) (pitch : BitVec 16) (s : State) : Host.Outcome State Fault Refusal :=
  s.memFiring p [s.cur.l, s.cur.c] [s.cur.l, s.cur.r, s.cur.c] fun s =>
    s.bankUpdate p 0x14D pitch.toNat [s.cur.l, s.cur.r, s.cur.c] s.cur.c.val fun x =>
      .axpy p.ty (s.cur.c.val.toNat % 2 ^ tyBits p.ty) x

/-- BAXPY with an immediate factor, R221. -/
def execBaxpyImm (p : Par) (pitch : BitVec 16) (imm : BitVec 32) (s : State) : Host.Outcome State Fault Refusal :=
  s.memFiring p [s.cur.l] [s.cur.l, s.cur.r] fun s =>
    s.bankUpdate p 0x14D pitch.toNat [s.cur.l, s.cur.r] (immTok p.ty imm).val fun x =>
      .axpy p.ty ((immTok p.ty imm).val.toNat % 2 ^ tyBits p.ty) x

/-! ## Barrier words (R222) -/

/-- R202, R206: an access to a 64-bit word, aligned. DEDUCED (log 25). -/
def State.wordAccess (s : State) (site : Site) (a : Word) (write : Bool) : Except Nat Target :=
  match s.resolve site { spaces := atomSpaces, write := write } a 8 with
  | .error st => .error st
  | .ok t => if offsetOf a % 8 != 0 then .error stFormat else .ok t

/-- BARA (R222). -/
def State.arrive (s : State) (p : Par) (rtry : Bool) (st : Word) (ops : List Tok) : State :=
  let a := s.cur.l.val
  s.orFail p ops (s.wordAccess s.cur.site a true) fun t =>
    s.fireReq p 4 (issueTok p s.cur.site) ops
      { opc := 0x185, cls := 3, paddr := firstPa t.parts, kind := .bara, rtry := rtry, addr := a, opa := st
        pieces := oneEvent t (.bara (st.toNat % 256)) }

/-- BARA of status 0, R222. -/
def execBara (p : Par) (rtry : Bool) (s : State) : Host.Outcome State Fault Refusal :=
  s.memFiring p [s.cur.l] [s.cur.l] fun s => s.arrive p rtry 0 [s.cur.l]

/-- BARA with a status operand, R222. -/
def execBaraStatus (p : Par) (rtry : Bool) (s : State) : Host.Outcome State Fault Refusal :=
  s.memFiring p [s.cur.l, s.cur.r] [s.cur.l, s.cur.r] fun s => s.arrive p rtry s.cur.r.val [s.cur.l, s.cur.r]

/-- BARA with an immediate status, R222. -/
def execBaraImm (p : Par) (rtry : Bool) (imm : BitVec 32) (s : State) : Host.Outcome State Fault Refusal :=
  s.memFiring p [s.cur.l] [s.cur.l] fun s => s.arrive p rtry (immTok p.ty imm).val [s.cur.l]

/-- BARW (R222). -/
def State.awaitPhase (s : State) (p : Par) (n : Word) (ops : List Tok) : State :=
  let a := s.cur.l.val
  s.orFail p ops (s.wordAccess s.cur.site a false) fun t =>
    s.fireReq p 1 [] ops
      { opc := 0x186, cls := 1, paddr := firstPa t.parts, kind := .barw, addr := a, opa := n
        pieces := oneEvent t (.barw (n.toNat % 65536)) }

/-- BARW, R222. -/
def execBarw (p : Par) (s : State) : Host.Outcome State Fault Refusal :=
  s.memFiring p [s.cur.l, s.cur.r] [s.cur.l, s.cur.r] fun s => s.awaitPhase p s.cur.r.val [s.cur.l, s.cur.r]

/-- BARW of an immediate phase, R222. -/
def execBarwImm (p : Par) (imm : BitVec 32) (s : State) : Host.Outcome State Fault Refusal :=
  s.memFiring p [s.cur.l] [s.cur.l] fun s => s.awaitPhase p (immTok p.ty imm).val [s.cur.l]

/-! ## Synchronisation objects (R223, R345, R346) -/

/-- R346: an object's home node lies within a scope of a core. -/
def State.inScope (s : State) (core : Nat) (scope : Scope) (pa : Nat) : Bool :=
  match scope with
  | .core => s.isLocal pa && dieOfAddr (paLocal pa) == dieOf core
  | .die => s.isLocal pa && dieOfAddr (paLocal pa) == dieOf core
  | .package => s.isLocal pa
  | .domain => true

/-- R345: the bound ranges of an object. -/
def Ctx.boundTo (c : Ctx) (obj : Nat) : List (Nat × Nat) := (c.binds.filter fun b => b.1 == obj).flatMap fun b => b.2

/-- A physical range touches one of a list of first and last bytes. -/
def touches (rs : List (Nat × Nat)) (a n : Nat) : Bool := rs.any fun r => decide (r.1 < a + n) && decide (a ≤ r.2)

/-- A write to a place lies in bound ranges. -/
def State.writesInto (s : State) (rs : List (Nat × Nat)) (l : Loc) (n : Nat) : Bool :=
  match l with
  | .mem pa _ _ => touches rs (s.absPa pa) n
  | _ => false

/-- R345: stores, atomics and bank updates. -/
def ReqKind.publishes (k : ReqKind) : Bool :=
  match k with
  | .st | .stt | .atomic _ | .bara | .bank => true
  | _ => false

/-- ACQ and REL. -/
def State.object (s : State) (p : Par) (rel sh rtry : Bool) (scope : Scope) : State :=
  let site := s.cur.site
  let a := s.cur.l.val
  s.orFail p [s.cur.l] (s.wordAccess site a true) fun t =>
    let pa := firstPa t.parts
    if !s.inScope site.core scope pa then s.failing p latGraph stPerm [s.cur.l]
    else if rel then
      let rs := match s.ctx? site.ctx with
        | some c => c.boundTo (s.absPa pa)
        | none => []
      let before := s.ms.reqs.filter fun r => r.site.core == site.core && r.site.ctx == site.ctx && !r.noEntry &&
        r.kind.publishes && (r.pieces.flatMap Piece.spans).any fun q => s.writesInto rs q.1 q.2.1
      let engs := if rs.isEmpty then [] else (s.core site.core).eng.recs.filter fun e => e.site.ctx == site.ctx && e.kind == .copy
      s.fireReq p 4 (issueTok p site) [s.cur.l]
        { opc := 0x188, cls := 3, paddr := pa, kind := .rel, rtry := rtry, addr := a, ranges := rs,
          before := before.map fun r => r.id, beforeEng := engs.map fun e => e.seq
          pieces := oneEvent t (.rel sh) }
    else
      s.fireReq p 4 [] [s.cur.l]
        { opc := 0x187, cls := 3, paddr := pa, kind := .acq, rtry := rtry, addr := a
          pieces := oneEvent t (.acq sh) }

/-- ACQ, R223. -/
def execAcq (p : Par) (sh : Bool) (rtry : Bool) (scope : Scope) (s : State) : Host.Outcome State Fault Refusal :=
  s.memFiring p [s.cur.l] [s.cur.l] fun s => s.object p false sh rtry scope

/-- REL, R223. -/
def execRel (p : Par) (sh : Bool) (rtry : Bool) (scope : Scope) (s : State) : Host.Outcome State Fault Refusal :=
  s.memFiring p [s.cur.l] [s.cur.l] fun s => s.object p true sh rtry scope

end Sys2Proof.Machine
end

