-- ==== Sys2Proof/Machine/Copy.lean ====
section
/-! DEFINITION. The copy engine's commands (R211 to R217): pattern records, runs and their checks, translation of
copy-only extents (R294, R295), issue of granules (R328, R366, R375), and the firings of COPY, GATH, SCAT, CRED, DRAIN. -/

namespace Sys2Proof.Machine

/-! ## Pattern records (R211) -/

structure Pat where
  src : Word := 0
  dst : Word := 0
  cword : Word := 0
  /-- Strides of counters 1 to 3, source then destination. -/
  ss : List Int := [0, 0, 0]
  ds : List Int := [0, 0, 0]
  /-- Counts of counters 1 to 3. -/
  counts : List Nat := [0, 0, 0]
  run : Nat := 0
  cwen : Bool := false
  deriving DecidableEq, Repr

/-- R211. -/
def patOf (bytes : List Byte) : Pat :=
  let n := leNat (bytes.take 64)
  let w (lo : Nat) : Word := BitVec.ofNat 64 (bf n lo 64)
  { src := w 448, dst := w 384, cword := w 320
    ss := [sx (bf n 96 32) 32, sx (bf n 160 32) 32, sx (bf n 288 32) 32]
    ds := [sx (bf n 64 32) 32, sx (bf n 128 32) 32, sx (bf n 256 32) 32]
    counts := [bf n 208 16, bf n 224 16, bf n 240 16], run := bf n 32 32, cwen := bf n 0 1 == 1 }

/-- R211: a record CLOAD accepts. -/
def patReserved (bytes : List Byte) : Bool :=
  let n := leNat (bytes.take 64)
  bf n 192 16 != 0 || bf n 1 31 != 0

/-- The record that a copy word names in the slot of its firing. -/
def State.pattern (s : State) (site : Site) (i : Nat) : Pat :=
  match s.cslot? site.core site.cslot with
  | some k => patOf (k.pats.getD i [])
  | none => {}

/-- The word of a command's firing (R366: a reissue takes what it needs from code memory). -/
def State.wordOfSite (s : State) (site : Site) : Fields :=
  Fields.ofNat ((s.core site.core).word site.cslot site.block site.node).toNat

def State.patternOf (s : State) (e : Eng) : Pat := s.pattern e.site (bf (s.wordOfSite e.site).aux 0 10)

def opCopy : Nat := 0x144
def opGath : Nat := 0x145
def opScat : Nat := 0x146
def opCred : Nat := 0x147

/-! ## Runs (R213, R214) -/

/-- The base addresses of a command: a record's SRC and DST, or the operands that replace them (R212). -/
def Eng.bases (e : Eng) (ar : Nat) (p : Pat) : Word × Word :=
  if e.opc == opGath then (p.src, e.r.val)
  else if e.opc == opScat then (e.r.val, p.dst)
  else if e.opc == opCopy && ar < 2 then (p.src, p.dst)
  else (e.l.val, e.r.val)

/-- R214: element j of the index tile, in row order. -/
def State.indexElem (s : State) (core : Nat) (t : Tile) (j : Nat) : Int :=
  let b := s.baseTile core t
  readInt t.shape.ty (BitVec.ofNat 64 (b.elem (t.row0 + j / t.shape.cols) (t.col0 + j % t.shape.cols)))

/-- R214: the granule that holds element `k` of a command's index tile, where an earlier element does not stand in it. -/
def State.indexGrans (s : State) (e : Eng) (k : Nat) : Option (Tile × List Nat) :=
  if e.opc != opGath && e.opc != opScat then none
  else match s.tileOf? e.site.core e.l.val with
    | none => none
    | some t =>
      let b := s.baseTile e.site.core t
      let g (k : Nat) : Nat := ((t.row0 + k / t.shape.cols) * rowBytes b.shape + (t.col0 + k % t.shape.cols) * (tyBits t.shape.ty / 8)) / 64
      some (b, if 0 < k && g (k - 1) == g k then [] else [g k])

/-- The source and destination offsets of run `k` from the bases. -/
def State.runOffsets (s : State) (e : Eng) (p : Pat) (k : Nat) : Int × Int :=
  if e.opc == opGath || e.opc == opScat then
    let x := match s.tileOf? e.site.core e.l.val with
      | some t => s.indexElem e.site.core t k
      | none => 0
    if e.opc == opGath then (x * p.ss.getD 0 0, k * p.ds.getD 0 0) else (k * p.ss.getD 0 0, x * p.ds.getD 0 0)
  else
    let c1 := p.counts.getD 0 0
    let c2 := p.counts.getD 1 0
    let i : List Int := [((k % c1 : Nat) : Int), ((k / c1 % c2 : Nat) : Int), ((k / (c1 * c2) : Nat) : Int)]
    let dot (x : List Int) : Int := ((i.zip x).map fun q => q.1 * q.2).sum
    (dot p.ss, dot p.ds)

/-- Source and destination operands of run `k`. -/
def State.runAddrs (s : State) (e : Eng) (p : Pat) (k : Nat) : Except Nat (Word × Word) :=
  let b := e.bases (s.wordOfSite e.site).ar p
  let o := s.runOffsets e p k
  match addOff b.1 o.1, addOff b.2 o.2 with
  | .ok x, .ok y => .ok (x, y)
  | _, _ => .error stExtentBound

/-! ## Translation of copy-only ranges (R294, R295) -/

/-- How a side of a run translates. -/
inductive Side where
  /-- Its parts, and the FA of each page (none: no page attribute). -/
  | ok (parts : List (Loc × Nat × Nat)) (fas : List (Option Nat))
  | bad (st : Nat)
  /-- A TLB miss on the page of this address. -/
  | miss (va : Nat)
  deriving DecidableEq, Repr

def State.tlbFind (s : State) (held : List Tlb) (die tenant va : Nat) : Option Tlb :=
  (held ++ s.ms.tlb).find? fun t => t.die == die && t.tenant == tenant && t.va == va / t.size * t.size

/-- R294: a translation enters a die's TLB of 4,096 entries; the oldest leaves. -/
def State.fillTlb (s : State) (e : Tlb) : State :=
  let mine := s.ms.tlb.filter fun t => t.die == e.die
  s.modMs fun m => { m with tlb := e :: (match mine.getLast? with
    | some old => if 4096 ≤ mine.length then m.tlb.erase old else m.tlb
    | none => m.tlb) }

/-- R289, R291: a copy-only range page by page, `k` pages at most. `need` is the permission a run's access takes; `held` are
translations that the run already has. -/
def State.translate (s : State) (held : List Tlb) (die tenant cid need : Nat) : Nat → Nat → Nat → Nat → List (Loc × Nat × Nat) → List (Option Nat) → Side
  | 0, _, _, _, ps, fs => .ok ps fs
  | k + 1, va, n, off, ps, fs =>
    if n == 0 then .ok ps fs else
      match s.tlbFind held die tenant va with
      | none => .miss va
      | some t =>
        let w := t.leaf.toNat
        let pkg := t.pkg
        if leafPerm w &&& need != need || (leafCid w != 0 && leafCid w != cid) then .bad stPerm
        else
          let l := s.leafLoc tenant w t.size pkg va
          let known := match l with
            | .mem pa _ _ => s.isLocal pa || s.plat.l2p.any fun e => e.1 == paPkg pa
            | _ => true
          if !known then .bad stAddrMismatch
          else
            let len := min n (t.size - va % t.size)
            s.translate held die tenant cid need k (va + len) (n - len) (off + len) (ps ++ [(l, len, off)]) (fs ++ [some (leafFa w)])

/-- R201, R202, R291: one side of a run of `n` bytes. -/
def State.side (s : State) (site : Site) (held : List Tlb) (read write : Bool) (a : Word) (n : Nat) : Side :=
  match s.resolve site { spaces := tileSpaces, read := read, write := write, copy := true } a n with
  | .error st => .bad st
  | .ok t =>
    match t.va, t.net with
    | some va, _ =>
      s.translate held (dieOf site.core) (s.tenantOf site.ctx) (s.cidOf site) ((if read then 1 else 0) + (if write then 2 else 0))
        (n / 4096 + 2) va n 0 [] []
    | _, some (qp, o) => .ok [(.net (s.tenantOf site.ctx) qp o, n, 0)] [none]
    | _, _ => .ok t.parts [t.fa]

/-! ## Formats of a run (R206, R213, R215) -/

/-- R71, R213: SCL set: pages of BG 5 and one TY, that of a scale plane, or untyped. -/
def scaleRunOk (ty : Ty) (pages : List (Nat × Nat)) : Bool :=
  pages.all (fun p => p.2 == 5 && [0x4, 0xB, 0xC, 0xF].contains p.1) && (match pages with
    | [] => true
    | p :: ps => ps.all fun q => q.1 == p.1) && (ty == .none || pages.all fun p => p.1 == tyCode ty)

/-- R73, R213: the format of a run between the pages of its sides; no typed page may be what R73 bars as an element page. -/
def runFormatOk (ty : Ty) (scl : Bool) (src dst : List (Option Nat)) : Bool :=
  let a := src.filterMap faTyped
  let b := dst.filterMap faTyped
  if scl then scaleRunOk ty (a ++ b)
  else (ty != .none || a.all fun x => b.all fun y => x == y) && (src ++ dst).all fun f => match formatOf f ty none with
    | .ok _ => true
    | .error _ => false

/-- R206: the width in bytes by which a run's elements are aligned. -/
def runWidth (ty : Ty) (src dst : List (Option Nat)) : Nat :=
  let t := if ty != .none then ty else match (src ++ dst).filterMap faTyped with
    | p :: _ => tyOfCode p.1
    | [] => .none
  if t == .none then 1 else max (tyBits t / 8) 1

/-- What forming a run answers. -/
inductive RunOut where
  | moves (ms : List Move)
  | bad (st : Nat)
  /-- A miss at an address, with the access of R433. -/
  | miss (va access : Nat)
  deriving DecidableEq, Repr

def isNet (ps : List (Loc × Nat × Nat)) : Bool := ps.any fun p => match p.1 with
  | .net _ _ _ => true
  | _ => false

/-- R217: the access path of a granule write. DEDUCED (log 87). -/
def State.movePath (s : State) (core : Nat) (space : Nat) (l : Loc) : Nat :=
  match l with
  | .mem pa _ _ => if space == 3 then 6 else s.pathOf core pa
  | .tile _ _ _ => 0
  | .host _ => 8
  | .net _ _ _ => 5

/-- Cuts a run into its granule writes or element updates (R213, R215, R341). -/
def State.cutRun (s : State) (core k space : Nat) (red : Option (Nat × Ty)) (src dst : List (Loc × Nat × Nat)) (n : Nat) :
    List Move :=
  let mk (g : Loc × Nat × Nat) : Move :=
    let parts := granulesIn ((subParts src g.2.2 g.2.1).map fun p => (p.1, p.2.1, p.2.2 - g.2.2))
    { run := k, src := parts, src0 := parts, dst := g.1, len := g.2.1, red := red, path := s.movePath core space g.1 }
  match red with
  | none => (granulesIn dst).map mk
  | some (_, ty) =>
    let w := tyBits ty / 8
    (List.range (n / w)).flatMap fun i => (subParts dst (i * w) w).map fun g => mk g

/-- Run `k` of a command: every check of R213 and R215, then its moves. DEDUCED (log 84). -/
def State.formRun (s : State) (e : Eng) (k : Nat) : RunOut :=
  let s := s.asFired e
  let p := s.patternOf e
  let w := s.wordOfSite e.site
  let ty := tyOfCode w.ty
  let red : Option (Nat × Ty) := if e.opc == opCred then
    some ((if bf w.mod 0 2 == 0 then 0 else if bf w.mod 0 2 == 1 then 4 else 5), ty) else none
  match s.runAddrs e p k with
  | .error st => .bad st
  | .ok (a, b) =>
    match s.side e.site e.trans true false a p.run, s.side e.site e.trans red.isSome true b p.run with
    | .bad st, _ => .bad st
    | _, .bad st => .bad st
    | .miss va, _ => .miss va 1
    | _, .miss va => .miss va (if red.isSome then 3 else 2)
    | .ok ps fs, .ok qs gs =>
      let wd := match red with
        | some _ => tyBits ty / 8
        | none => runWidth ty fs gs
      if !runFormatOk ty (e.opc == opCopy && bf w.mod 0 1 == 1) fs gs || offsetOf a % wd != 0 || offsetOf b % wd != 0 ||
          (red.isSome && p.run % wd != 0) || (isNet ps && isNet qs) || (red.isSome && (isNet ps || isNet qs)) then .bad stFormat
      else .moves (s.cutRun e.site.core k (spaceOf b) red ps qs p.run)

/-- Runs of a command; 0 where it moves nothing (R213). -/
def State.runCount (s : State) (e : Eng) (p : Pat) : Nat :=
  if p.run == 0 then 0
  else if e.opc == opGath || e.opc == opScat then
    match s.tileOf? e.site.core e.l.val with
    | some t => t.shape.rows * t.shape.cols
    | none => 0
  else p.counts.getD 0 0 * p.counts.getD 1 0 * p.counts.getD 2 0

/-- R366: granule writes of a command, up to 64. -/
def State.writeCount (s : State) (e : Eng) (p : Pat) (total : Nat) : Nat :=
  let per (k : Nat) : Nat :=
    if e.opc == opCred then p.run / (tyBits (tyOfCode (s.wordOfSite e.site).ty) / 8)
    else match s.runAddrs e p k with
      | .error _ => 0
      | .ok (_, b) =>
        let x := match s.resolve e.site { spaces := tileSpaces, read := false, write := true, copy := true } b 1 with
          | .error _ => 0
          | .ok t => match t.va with
            | some va => va % 64
            | none => match t.parts.head? with
              | some l => l.1.pos % 64
              | none => offsetOf b % 64
        ceilDiv (x + p.run) 64
  min 64 ((List.range (min total 64)).map per).sum

/-! ## Issue (R328, R366, R375) -/

/-- A copy command that may issue now. -/
def Eng.mayIssue (e : Eng) : Bool :=
  e.kind == .copy && e.step == .running && e.fail == 0 && e.stall.isNone && decide (e.moves.length < 64) &&
    (!e.todo.isEmpty || decide (e.pos < e.total)) && (match e.watch with
      | some (_, 0) => false
      | _ => true)

/-- R328: grants waiting copy commands, up to 16 at once, by class and then in firing order. -/
def State.grantCopies (s : State) (core : Nat) : Nat → State
  | 0 => s
  | k + 1 =>
    let es := (s.core core).eng.recs
    let waiting := es.filter fun e => e.kind == .copy && e.step == .queued && s.engRuns e
    let cls (e : Eng) : Nat := s.classOf core e.site.cslot e.site.block e.site.ctx
    if 16 ≤ (es.filter fun e => e.kind == .copy && e.step == .running).length then s
    else match waiting.find? fun e => waiting.all fun f => decide (cls e < cls f) || (cls e == cls f && decide (e.seq ≤ f.seq)) with
      | none => s
      | some e => (s.engStart core e.idx).grantCopies core k

/-- R366: the tag of granule write `k`. -/
def Eng.tagOf (e : Eng) (k : Nat) : Nat := (e.tagBase + k % 64) % 2 ^ 24

/-- R373, R375: issues the first waiting granule of a command, with the check on the copy path; how many granules follow the
first that hits is drawn. DESIGN CHOICE (log 66). -/
def State.issueMove (s : State) (core : Nat) (e : Eng) (m : Move) : State :=
  let tag := e.tagOf e.writes
  let kind := if m.red.isSome then 4 else 2
  let us := s.watchesAt e.site
  let hits := match m.dst with
    | .mem pa _ _ => watchHits us atCpath kind [(s.absPa pa, m.len)]
    | _ => []
  let d := s.draw
  let s := if hits.isEmpty then s else d.2
  let s := s.modEngRec core e.idx fun e =>
    { e with moves := e.moves ++ [{ m with tag := tag, since := s.wall, home := some (homeUnits us atCpath) }]
             todo := e.todo.drop 1, writes := e.writes + 1
             watch := match hits, e.watch with
               | _, some (n, k) => some (n, k - 1)
               | h :: _, none => some (h.1.n, d.1 % 5)
               | [], none => none }
  hits.foldl (fun s h => s.trap
      { cause := 3, core := core, site := { core := core, ctx := e.site.ctx }, code := h.1.n,
        a := scalarTok {} (BitVec.ofNat 64 e.idx), b := BitVec.ofNat 64 (2 * 2 ^ 61 + tag), item := e.idx } h.1.unit.halts) s

/-- R294, R295: a run that misses waits for the walk of its address; misses to one 4 KiB page share the walk of the first, whose
address it bears. DEDUCED (log 85). -/
def State.missOn (s : State) (core : Nat) (e : Eng) (va access : Nat) : State :=
  let die := dieOf core
  let tenant := s.tenantOf e.site.ctx
  let stallOn (at' : Nat) (s : State) : State := s.modEngRec core e.idx fun e => { e with stall := some at' }
  match s.ms.walks.find? fun w => w.die == die && w.tenant == tenant && w.va / 4096 == va / 4096 with
  | some w => stallOn w.va s
  | none => (stallOn va s).modMs fun m =>
      { m with walks := m.walks ++ [{ die := die, tenant := tenant, va := va, access := access, cid := s.cidOf e.site }] }

/-- R216: a command's first failing status; no further run is issued. -/
def State.failCopy (s : State) (core idx st : Nat) : State :=
  s.modEngRec core idx fun e =>
    { e with fail := if e.fail == 0 then st else e.fail, todo := [], pos := e.total, stall := none, trans := [] }

/-- The virtual ranges that a run reaches through the tables (R291): first byte, bytes. -/
def State.runVas (s : State) (e : Eng) (k : Nat) : List (Nat × Nat) :=
  let s := s.asFired e
  let p := s.patternOf e
  match s.runAddrs e p k with
  | .error _ => []
  | .ok (a, b) => [(a, true), (b, false)].filterMap fun x =>
    match s.resolve e.site { spaces := tileSpaces, read := x.2, write := !x.2, copy := true } x.1 p.run with
    | .ok t => t.va.map fun va => (va, p.run)
    | .error _ => none

/-- R297: the access counters of the 2 MiB pages that a run reaches. -/
def State.countPages (s : State) (e : Eng) (k : Nat) : State :=
  let tenant := s.tenantOf e.site.ctx
  let pages := ((s.runVas e k).flatMap fun r =>
    (List.range ((r.1 + r.2 - 1) / 2 ^ 21 + 1 - r.1 / 2 ^ 21)).map fun i => r.1 / 2 ^ 21 + i).eraseDups
  s.modMs fun m => { m with touched := pages.foldl (fun l p =>
    let n := ((l.find? fun x => x.1 == tenant && x.2.1 == p).map fun x => x.2.2).getD 0
    (tenant, p, n + 1) :: l.filter fun x => !(x.1 == tenant && x.2.1 == p)) m.touched }

/-- R214, R216, R328: a command forms its next run, after the granule of its index tile has been read: it is then the last in
turn. DEDUCED (log 84). -/
def State.nextRun (s : State) (core : Nat) (e : Eng) : State :=
  let u : Bool × State := match s.indexGrans e e.pos with
    | some (b, gs) => s.readGrans core b gs
    | none => (false, s)
  let s := u.2
  if u.1 then s.failCopy core e.idx stDataUe
  else match s.formRun e e.pos with
    | .bad st => s.failCopy core e.idx st
    | .miss va acc => s.missOn core e va acc
    | .moves ms =>
      let n := (s.core core).eng.arbSeq + 1
      ((s.countPages e e.pos).modEng core fun g => { g with arbSeq := n }).modEngRec core e.idx fun e =>
        { e with todo := ms, pos := e.pos + 1, arb := n, trans := [] }

/-- One turn of the copy engine's issue: the next granule of a run goes out, or the next run of a command is formed. -/
def State.issueCopy (s : State) (core : Nat) (e : Eng) : State :=
  match e.todo with
  | m :: _ => s.issueMove core e m
  | [] => s.nextRun core e

/-- R328, R366: the command that issues next: of the best class present, one whose run goes out, else the one whose last run is
longest ago; a tag still in use holds it back. -/
def State.nextCopy (s : State) (core : Nat) : Option Eng :=
  let cls (e : Eng) : Nat := s.classOf core e.site.cslot e.site.block e.site.ctx
  let es := (s.core core).eng.recs.filter fun e => e.mayIssue && s.engRuns e &&
    (e.todo.isEmpty || !(e.moves.any fun m => m.tag == e.tagOf e.writes))
  let best := es.filter fun e => es.all fun f => decide (cls e ≤ cls f)
  match best.find? fun e => !e.todo.isEmpty with
  | some e => some e
  | none => best.find? fun e => best.all fun f => decide (e.arb ≤ f.arb)

/-- Issues until nothing more can be issued. -/
def State.issueCopies (s : State) (core : Nat) : Nat → State
  | 0 => s
  | k + 1 => match s.nextCopy core with
    | none => s
    | some e => (s.issueCopy core e).issueCopies core k

/-- The copy engine of a core goes on: it grants commands and issues granules. -/
def State.copyPump (s : State) (core : Nat) : State := (s.grantCopies core 16).issueCopies core 3000

/-! ## Firings -/

/-- The place of a pattern's CWORD, checked as the address of a BARA (R216). -/
def State.cwordPlace (s : State) (site : Site) (p : Pat) : Except Nat (Option Piece) :=
  if !p.cwen then .ok none
  else (s.wordAccess site p.cword true).map fun t => (oneEvent t .read).head?

/-- R212, R216, R348: a copy command starts; `st` is a status with which it fails at its firing. DEDUCED (log 83). DESIGN CHOICE (log 170). -/
def State.startCopy (s : State) (p : Par) (opc recd : Nat) (st : Nat) (ops : List Tok) : State :=
  let site := s.cur.site
  let pat := s.pattern site recd
  match s.cwordPlace site pat with
  | .error cst => s.failing p latTile (if st == 0 then cst else st) ops
  | .ok place =>
    if st != 0 && !pat.cwen then s.failing p latTile st ops
    else
      let e : Eng := { site := site, opc := opc, l := s.cur.l, r := s.cur.r, kind := .copy, step := .queued, fail := st, cword := place }
      let total := if st == 0 then s.runCount e pat else 0
      (s.command p { e with total := total, tagN := s.writeCount e pat total }).copyPump site.core

/-- R348: the operands of a copy command: poison fails it with POISON_IN, EOS is forwarded under R94. DEDUCED (log 83). -/
def State.copyFiring (s : State) (p : Par) (opc recd : Nat) (ops : List Tok) (k : State → Nat → State) :
    Host.Outcome State Fault Refusal :=
  if ops.any fun t => t.kind == kPoison then .next (s.startCopy p opc recd stPoisonIn ops)
  else s.firing p latTile ops fun s => k s 0

/-- COPY of its record's addresses, R213. -/
def execCopy (p : Par) (_scl : Bool) (recd : BitVec 10) (s : State) : Host.Outcome State Fault Refusal :=
  s.copyFiring p opCopy recd.toNat [s.cur.l] fun s st => s.startCopy p opCopy recd.toNat st [s.cur.l]

/-- Read positions of a copy firing. -/
def State.copyReads (s : State) (p : Par) (reads ops : List Tok) (k : State → State) : State :=
  if reads.all isRead then k s else s.failing p latTile stFormat ops

/-- COPY between two operand addresses, R213. -/
def execCopyAddr (p : Par) (_scl : Bool) (recd : BitVec 10) (s : State) : Host.Outcome State Fault Refusal :=
  s.copyFiring p opCopy recd.toNat [s.cur.l, s.cur.r] fun s st =>
    s.copyReads p [s.cur.l, s.cur.r] [s.cur.l, s.cur.r] fun s => s.startCopy p opCopy recd.toNat st [s.cur.l, s.cur.r]

/-- R214: the index tile and counts of GATH and SCAT. -/
def State.indexed (s : State) (p : Par) (opc recd : Nat) : State :=
  let ops := [s.cur.l, s.cur.r]
  match s.handle s.cur.site.core s.cur.l with
  | .error st => s.failing p latTile st ops
  | .ok t =>
    let pat := s.pattern s.cur.site recd
    let ok := t.shape.bg == .g0 && [Ty.s32, .z32, .s64, .z64].contains t.shape.ty && pat.counts.getD 1 0 == 1 && pat.counts.getD 2 0 == 1
    s.copyReads p [s.cur.r] ops fun s => s.startCopy p opc recd (if ok then 0 else stFormat) ops

/-- GATH, R214. -/
def execGath (p : Par) (recd : BitVec 10) (s : State) : Host.Outcome State Fault Refusal :=
  s.copyFiring p opGath recd.toNat [s.cur.l, s.cur.r] fun s _ => s.indexed p opGath recd.toNat

/-- SCAT, R214. -/
def execScat (p : Par) (recd : BitVec 10) (s : State) : Host.Outcome State Fault Refusal :=
  s.copyFiring p opScat recd.toNat [s.cur.l, s.cur.r] fun s _ => s.indexed p opScat recd.toNat

/-- CRED, R215. -/
def execCred (p : Par) (_rop : RedOp) (recd : BitVec 10) (s : State) : Host.Outcome State Fault Refusal :=
  s.copyFiring p opCred recd.toNat [s.cur.l, s.cur.r] fun s st =>
    s.copyReads p [s.cur.l, s.cur.r] [s.cur.l, s.cur.r] fun s => s.startCopy p opCred recd.toNat st [s.cur.l, s.cur.r]

/-! ## Completion -/

/-- The completion arrival of a record that has been sent and not answered. DEDUCED (log 171). -/
def State.arrivalOf (s : State) (core : Nat) (e : Eng) : Option Req :=
  s.ms.reqs.find? fun r => r.noEntry && r.site.core == core && r.site.ctx == e.site.ctx && r.tag == e.tag &&
    (match r.kind with
      | .arrive _ => true
      | _ => false)

/-- R205, R213, R216, R343: once every run has performed or failed, a command arrives at its completion word; once the arrival
has performed, it emits and its record is free. A command that did not fail itself ends with its arrival's status. DEDUCED (log 171). -/
def State.endCopy (s : State) (core : Nat) (e : Eng) : State :=
  let emit (s : State) (arrived : Nat) : State :=
    let st := if e.fail == 0 then arrived else e.fail
    let t := if st == 0 then scalarTok e.site 0 else poisonTok s e.site st
    (s.endCommand core e st (e.spread t) [e.l, e.r]).copyPump core
  match e.cword with
  | none => emit s 0
  | some l =>
    if e.step == .finishing then
      match s.arrivalOf core e with
      | some r => if r.done then emit (s.dropReq r.id) r.status else s
      | none => emit s 0
    else
      (s.arriveAt e.site (s.tenantOf e.site.ctx) l e.fail e.tag 0).modEngRec core e.idx fun e => { e with step := .finishing }

/-- COPY_COMPLETE, R213; a command that a watch hit holds waits for its handler (R375). -/
def execCopyComplete (core : Nat) (recd : Nat) (s : State) : Host.Outcome State Fault Refusal :=
  match s.eng? core recd with
  | none => .next s
  | some e =>
    if e.kind == .copy && s.engRuns e && (e.step == .running || e.step == .finishing || e.fail != 0) && e.moves.isEmpty && e.todo.isEmpty &&
        e.pos == e.total && e.watch.isNone then .next (s.endCopy core e)
    else .next s

/-! ## DRAIN (R217) -/

/-- Whether a path number of DRAIN covers a granule's path. DEDUCED (log 87). -/
def covers (path p : Nat) : Bool := path == 7 || path == p

/-- R217: a command still has writes into a path, issued or not. -/
def State.writesLeft (s : State) (e : Eng) (path : Nat) : Bool :=
  (e.moves ++ e.todo).any (fun m => covers path m.path) ||
    (List.range (e.total - e.pos)).any fun k => match s.formRun e (e.pos + k) with
      | .moves ms => ms.any fun m => covers path m.path
      | .bad _ => false
      | .miss _ _ => true

/-- DRAIN, R217. -/
def execDrain (p : Par) (path : BitVec 3) (s : State) : Host.Outcome State Fault Refusal :=
  s.firing p latGraph [s.cur.l] fun s =>
    let site := s.cur.site
    let on := ((s.core site.core).eng.recs.filter fun e => e.site.ctx == site.ctx && e.kind == .copy).map fun e => e.seq
    let w : Wait := { site := site, d0 := p.d0, d1 := p.d1, d2 := p.d2, path := path.toNat, on := on }
    (s.modCtx site.ctx fun c => { c with drains := c.drains ++ [w] }).finish p latGraph [] [s.cur.l]

/-- R217: the writes that a DRAIN covers have performed or failed. -/
def State.drained (s : State) (w : Wait) : Bool :=
  (s.core w.site.core).eng.recs.all fun e => !(w.on.contains e.seq && s.writesLeft e w.path)

/-- DRAIN_COMPLETE, R217: the i-th DRAIN that waits. -/
def execDrainComplete (i : Nat) (s : State) : Host.Outcome State Fault Refusal :=
  match (s.ctxs.flatMap fun c => c.drains.map fun w => (c.id, w))[i]? with
  | none => .next s
  | some (id, w) =>
    if s.ctxRuns id && s.drained w then
      let s := s.modCtx id fun c => { c with drains := c.drains.erase w }
      .next (s.emitAll w.site latGraph 1 [(w.d0, scalarTok w.site 0), (w.d1, scalarTok w.site 0), (w.d2, scalarTok w.site 0)])
    else .next s

end Sys2Proof.Machine
end

