-- ==== Sys2Proof/Machine/Fabric.lean ====
section
/-! DEFINITION. The vector fabric as arithmetic: vconfigs (R150 to R152), lane operations (R167 to R175), the passage of
beats through stages and pipelines (R155, R156, R159), lane kinds (R446), entry and packing (R87). -/

namespace Sys2Proof.Machine

/-! ## Configurations -/

/-- R33: a lane operation word. -/
structure LaneWord where
  lop : Nat := 0
  ty : Ty := .none
  sa : Nat := 0
  sb : Nat := 0
  sc : Nat := 0
  xd : Nat := 0
  xw : Bool := false
  sec : Nat := 0
  imm : Nat := 0
  deriving DecidableEq, Repr

def laneWordOf (w : Nat) : LaneWord :=
  { lop := bf w 25 7, ty := tyOfCode (bf w 21 4), sa := bf w 18 3, sb := bf w 15 3, sc := bf w 12 3, xd := bf w 10 2,
    xw := bf w 9 1 == 1, sec := bf w 7 2, imm := bf w 0 7 }

/-- R152: a scratch pattern; counts and strides from counter 0 up. -/
structure Pattern where
  en : Bool := false
  unit : Nat := 0
  base : Nat := 0
  counts : List Nat := []
  strides : List Int := []
  deriving DecidableEq, Repr

def patternOf (w : Nat) : Pattern :=
  { en := bf w 19 1 == 1, unit := bf w 16 3, base := bf w 0 15,
    counts := [bf w 32 16, bf w 80 16, bf w 128 16, bf w 176 16],
    strides := [sx (bf w 48 32) 32, sx (bf w 96 32) 32, sx (bf w 144 32) 32, sx (bf w 192 32) 32] }

def Pattern.c (p : Pattern) (i : Nat) : Nat := p.counts.getD i 0

/-- R152: rows of the pattern. -/
def Pattern.rows (p : Pattern) : Nat := if p.c 0 == 0 then 0 else p.c 1 * p.c 2 * p.c 3

/-- R152: elements in all. -/
def Pattern.total (p : Pattern) : Nat := p.rows * p.c 0

/-- R152: the word address of element `i`. -/
def Pattern.addr (p : Pattern) (i : Nat) : Int :=
  let i0 := i % p.c 0
  let i1 := i / p.c 0 % p.c 1
  let i2 := i / (p.c 0 * p.c 1) % p.c 2
  let i3 := i / (p.c 0 * p.c 1 * p.c 2)
  let s (k : Nat) : Int := p.strides.getD k 0
  (p.base : Int) + i0 * s 0 + i1 * s 1 + i2 * s 2 + i3 * s 3

/-- R151: a pipeline record. -/
structure PipeCfg where
  p : Nat := 0
  stages : List LaneWord := []
  asrc : Nat := 0
  bsrc : Nat := 0
  sink : Nat := 0
  k : List Nat := []
  src : Pattern := {}
  dst : Pattern := {}
  deriving DecidableEq, Repr

/-- R150: a vconfig. -/
structure VCfg where
  vid : Nat := 0
  lpmask : Nat := 0
  sbmask : Nat := 0
  zmask : Nat := 0
  oty : Ty := .none
  obg : Geom := .g0
  sat : Bool := false
  tail : Bool := false
  pipes : List PipeCfg := []
  deriving DecidableEq, Repr

def pipeOf (p : Nat) (bytes : List Byte) : PipeCfg :=
  let w (o n : Nat) : Nat := leNat ((bytes.drop o).take n)
  { p := p, stages := (List.range 6).map fun i => laneWordOf (w (4 * i) 4), asrc := bf (w 24 8) 0 2,
    bsrc := bf (w 24 8) 2 2, sink := bf (w 24 8) 4 2, k := (List.range 16).map fun i => w (32 + 4 * i) 4,
    src := patternOf (w 96 32), dst := patternOf (w 128 32) }

/-- The pipelines of a mask, ascending. -/
def maskBits (m : Nat) : List Nat := (List.range 8).filter fun i => m / 2 ^ i % 2 == 1

/-- R150: a record from its bytes. -/
def vcfgOf (bytes : List Byte) : VCfg :=
  let h := leNat (bytes.take 16)
  { vid := bf h 60 4, lpmask := bf h 52 8, sbmask := bf h 44 8, zmask := bf h 36 8, oty := tyOfCode (bf h 32 4),
    obg := (geomOfCode (bf h 28 4)).getD .g0, sat := bf h 27 1 == 1, tail := bf h 26 1 == 1,
    pipes := (enumL (maskBits (bf h 52 8))).map fun x => pipeOf x.2 (bytes.drop (16 + 160 * x.1)) }

def VCfg.pipe (v : VCfg) (p : Nat) : PipeCfg := (v.pipes.find? fun x => x.p == p).getD {}

/-- Whether a pipeline of a vconfig reads tile A, or tile B. -/
def VCfg.readsA (v : VCfg) : Bool := v.pipes.any fun x => x.asrc == 0
def VCfg.readsB (v : VCfg) : Bool := v.pipes.any fun x => x.asrc == 1 || x.bsrc == 1

/-- The chain, latest first, that feeds a pipeline up to it (R151). -/
def PipeCfg.hasRed (x : PipeCfg) : Bool := x.stages.any fun w => w.lop == 0x31

/-! ## Row lengths (R157) -/

/-- The a length and the sink length of each pipeline in ascending order; `prev` is the sink length before. -/
def pipeLengths (colsA colsB : Nat) : List PipeCfg → Nat → List (Nat × Nat × Nat)
  | [], _ => []
  | x :: xs, prev =>
    let al := match x.asrc with
      | 0 => colsA | 1 => colsB | 2 => x.src.c 0 | _ => prev
    let sl := if x.hasRed then 1 else al
    (x.p, al, sl) :: pipeLengths colsA colsB xs sl

/-- The row length at the tile sink. -/
def VCfg.sinkLen (v : VCfg) (lens : List (Nat × Nat × Nat)) : Nat :=
  match v.pipes.find? fun x => x.sink == 0 with
  | some x => ((lens.find? fun l => l.1 == x.p).map fun l => l.2.2).getD 0
  | none => 0

/-- R58: an element type that the fabric accepts. DEDUCED (log 51). -/
def fabricTy (t : Ty) : Bool := tyBits t != 64

/-- R157: N, and whether every check on the sources holds; a stream's token has `rows` rows whatever a pattern's count. DESIGN CHOICE (log 167). -/
def VCfg.shapeOk (v : VCfg) (a : Shape) (b : Option Shape) (stream : Bool) (done : Nat) : Option Nat :=
  let bs := b.getD a
  let lens := pipeLengths a.cols bs.cols v.pipes 0
  let srcs (x : PipeCfg) : List Nat :=
    (if x.asrc == 0 then [a.rows] else if x.asrc == 1 then [bs.rows] else if x.asrc == 2 then [x.src.rows] else []) ++
    (if x.bsrc == 1 then [bs.rows] else if x.bsrc == 2 then [x.src.rows] else [])
  let isPat (x : PipeCfg) : Bool := x.asrc == 2 || x.bsrc == 2
  let ns := if stream then [a.rows] else v.pipes.flatMap srcs
  let n := ns.headD 0
  let lenOk (x : PipeCfg) : Bool :=
    let al := ((lens.find? fun l => l.1 == x.p).map fun l => l.2.1).getD 0
    match x.bsrc with
    | 1 => bs.cols == al | 2 => x.src.c 0 == al | _ => true
  if fabricTy a.ty && fabricTy bs.ty && ns.all (· == n) && a.rows == bs.rows && a.cols == bs.cols && v.pipes.all lenOk && v.lpmask != 0 &&
      (!stream || v.pipes.all fun x => !isPat x || decide (done + a.rows ≤ x.src.rows))
  then some n else none

/-! ## Lane kinds (R446) -/

inductive LaneKind where
  | flt | sgn | uns | raw
  deriving DecidableEq, Repr

def signKind (t : Ty) : LaneKind := if tySigned t then .sgn else .uns

def tileKind (sh : Shape) : LaneKind :=
  if sh.bg.scaled || tyIsFloat sh.ty || sh.ty == .qn4 then .flt else signKind sh.ty

/-- The result kind that an operation fixes; none where it follows its sources. -/
def ownKind (w : LaneWord) : Option LaneKind :=
  if [0x01, 0x02, 0x03, 0x04, 0x05, 0x06, 0x07, 0x08, 0x0B, 0x0D, 0x0E, 0x0F, 0x10, 0x12, 0x13, 0x14, 0x30, 0x51,
      0x53].contains w.lop then some .flt
  else if w.lop == 0x09 || w.lop == 0x11 then some .sgn
  else if w.lop == 0x0C || (decide (0x20 ≤ w.lop) && decide (w.lop ≤ 0x2A)) then some (signKind w.ty)
  else if w.lop == 0x31 || w.lop == 0x32 || w.lop == 0x42 then some (if w.ty == .f32 then .flt else signKind w.ty)
  else if w.lop == 0x40 then some .raw
  else none

/-- The kinds of a stage's primary and secondary outputs. -/
def stageKinds (w : LaneWord) (a b : LaneKind) : LaneKind × LaneKind :=
  let own := ownKind w
  let xk (n : Nat) : LaneKind := if w.xw && w.xd == n && w.lop != 0x40 then own.getD .raw else .raw
  let src (s : Nat) : LaneKind := match s with
    | 0 => a | 1 => b | 2 => xk 0 | 3 => xk 1 | 4 => xk 2 | 5 => xk 3 | 6 => .raw | _ => .sgn
  let res := match own with
    | some k => k
    | none =>
      if w.lop == 0x41 then src w.sb
      else if w.lop == 0x0A then (if src w.sa == src w.sb then src w.sa else .raw)
      else src w.sa
  (res, match w.sec with
    | 0 => b | 1 => a | 2 => res | _ => xk 0)

/-- The kinds of every pipeline's outputs, ascending; `prev` those of the pipeline before. -/
def pipeKinds (ka kb : LaneKind) : List PipeCfg → LaneKind × LaneKind → List (Nat × LaneKind)
  | [], _ => []
  | x :: xs, prev =>
    let a := match x.asrc with
      | 0 => ka | 1 => kb | 2 => .raw | _ => prev.1
    let b := match x.bsrc with
      | 1 => kb | 3 => prev.2 | _ => .raw
    let out := x.stages.foldl (fun k w => stageKinds w k.1 k.2) (a, b)
    (x.p, out.1) :: pipeKinds ka kb xs out

/-- The kind at the tile sink. -/
def VCfg.sinkKind (v : VCfg) (a : Shape) (b : Option Shape) : LaneKind :=
  match v.pipes.find? fun x => x.sink == 0 with
  | some x => (((pipeKinds (tileKind a) (tileKind (b.getD a)) v.pipes (.raw, .raw)).find? fun k => k.1 == x.p).map
      fun k => k.2).getD .raw
  | none => .raw

/-! ## Entry and packing (R87) -/

/-- A tile element as a lane value. -/
def enterLane (sh : Shape) (code byte super : Nat) : Nat × Nat :=
  if sh.bg.scaled then roundOp .f32 .rne (mulFp (decElem sh.ty code) (scaleVal sh.bg byte super))
  else if sh.ty == .f32 then (code, 0)
  else if tyIsFloat sh.ty then toFp .f32 .rne false (decFp sh.ty code)
  else
    ((readInt sh.ty (BitVec.ofNat 64 code) % 2 ^ 32).toNat, 0)

/-- A lane value packed to an element code of the sink's type. -/
def packLane (t : Ty) (sat : Bool) (k : LaneKind) (v : Nat) : Nat × Nat :=
  let k : LaneKind := if k == .raw then (if tyIsFloat t then .flt else signKind t) else k
  let i : Int := if k == .sgn then sx v 32 else (v : Int)
  if tyIsFloat t then
    if k == .flt then toFp t .rne sat (decFp .f32 v) else intToFp t .rne sat i
  else if k == .flt then
    let r := fpToInt t .rne (decFp .f32 v)
    ((r.1 % 2 ^ tyBits t).toNat, r.2)
  else if tyBits t == 32 then (v, 0)
  else ((clampInt (tyMin t) (tyMax t) i % 2 ^ tyBits t).toNat, 0)

/-! ## Lane operations -/

/-- The quotient of two values, with every bit below its kept ones gathered in the lowest: it rounds as the exact
quotient does. -/
def quotFp (x y : Fp) : Fp × Nat :=
  match x, y with
  | .fin a m e, .fin b m' e' =>
    if m' == 0 then (if m == 0 then (.nan false, fNV) else (.inf (a != b), fDZ))
    else
      let k := 64 + Nat.log2 m'
      let n := m * 2 ^ k
      (.fin (a != b) (2 * (n / m') + (if n % m' == 0 then 0 else 1)) (e - e' - k - 1), 0)
  | .inf a, .fin b _ _ => (.inf (a != b), 0)
  | .fin a _ _, .inf b => (.fin (a != b) 0 0, 0)
  | .inf _, .inf _ => (.nan false, fNV)
  | _, _ => (.nan false, if isSnan x || isSnan y then fNV else 0)

/-- R169: LFRC. -/
def fpFrac (x : Nat) : Nat × Nat :=
  match decFp .f32 x with
  | .nan s => (nanOf .f32, if s then fNV else 0)
  | .inf _ => (nanOf .f32, fNV)
  | .fin n m e =>
    if 0 ≤ e then (0, 0)
    else
      let d := 2 ^ (-e).toNat
      let f := if n then (d - m % d) % d else m % d
      roundMag .f32 .rne false false f e false

/-- R120 with w = 32. -/
def laneShift (lop a b : Nat) : Nat :=
  match lop with
  | 0x26 => if 32 ≤ b then 0 else a * 2 ^ b % 2 ^ 32
  | 0x27 => if 32 ≤ b then 0 else a / 2 ^ b
  | _ => ((sx a 32 / 2 ^ (min b 32)) % 2 ^ 32).toNat

/-- Integer lane operations. -/
def laneInt (lop : Nat) (t : Ty) (a b : Nat) : Nat :=
  let less : Bool := if tySigned t then decide (sx a 32 < sx b 32) else decide (a < b)
  match lop with
  | 0x20 => (a + b) % 2 ^ 32
  | 0x21 => (a + 2 ^ 32 - b) % 2 ^ 32
  | 0x22 => a * b % 2 ^ 32
  | 0x23 => a &&& b
  | 0x24 => a ||| b
  | 0x25 => a ^^^ b
  | 0x29 => if less then a else b
  | 0x2A => if less then b else a
  | _ => laneShift lop a b

/-- R169: LCMP on integers, R121. -/
def laneCmpInt (t : Ty) (c : IntCond) (a b : Nat) : Bool :=
  let x : Int := if tySigned t then sx a 32 else (a : Int)
  let y : Int := if tySigned t then sx b 32 else (b : Int)
  match c with
  | .eq => decide (x = y) | .ne => decide (x ≠ y) | .lt => decide (x < y) | .le => decide (x ≤ y)
  | .gt => decide (y < x) | .ge => decide (y ≤ x) | .tst => (a &&& b) != 0

/-- R167 to R169, R172: the operations on one lane's values. -/
def laneOp (w : LaneWord) (a b c : Nat) : Nat × Nat :=
  let mode := (modeOfCode (w.imm % 4)).getD .rne
  match w.lop with
  | 0x00 => (a, 0)
  | 0x01 => fpAdd .f32 .rne a b
  | 0x02 => fpSub .f32 .rne a b
  | 0x03 => fpMul .f32 .rne a b
  | 0x04 => fpFma .f32 .rne a b c
  | 0x05 => fpMinMax .f32 false a b
  | 0x06 => fpMinMax .f32 true a b
  | 0x07 => (a % 2 ^ 31, 0)
  | 0x08 => ((a + 2 ^ 31) % 2 ^ 32, 0)
  | 0x09 =>
    if w.ty == .f32 then
      let r := fpCmp .f32 ((fltCondOfCode (w.imm % 8)).getD .eq) a b
      (if r.1 then 1 else 0, r.2)
    else (if laneCmpInt w.ty ((intCondOfCode (w.imm % 8)).getD .eq) a b then 1 else 0, 0)
  | 0x0A => (if c == 0 then b else a, 0)
  | 0x0B => fpRnd .f32 mode a
  | 0x0C =>
    let r := fpToInt w.ty mode (decFp .f32 a)
    ((r.1 % 2 ^ 32).toNat, r.2)
  | 0x0D => fpFrac a
  | 0x0E => fpExp2 .f32 a
  | 0x0F => fpLog2 a
  | 0x10 => fpLdx .f32 .rne a (sx b 32)
  | 0x11 =>
    let r := fpGetx .f32 a
    ((r.1 % 2 ^ 32).toNat, r.2)
  | 0x12 => fpRcp .f32 .rne a
  | 0x13 => fpRsq .f32 .rne a
  | 0x14 =>
    if tyIsFloat w.ty then
      let r := toFp w.ty mode (w.imm / 4 % 2 == 1) (decFp .f32 a)
      ((toFp .f32 .rne false (decFp w.ty r.1)).1, r.2)
    else intToFp .f32 mode false (if tySigned w.ty then sx a 32 else (a : Int))
  | 0x51 => roundOp .f32 .rne (mulFp (decElem w.ty (a % 2 ^ tyBits w.ty)) (decFp .f32 b))
  | op => (laneInt op w.ty a b, 0)

/-- R91: one step of a reduction: 0 sum, 1 max, 2 min; an inactive lane is skipped, and a value that meets no other passes
unchanged, a NaN too. DEDUCED (log 150). -/
def combine (t : Ty) (how : Nat) (x y : Option Nat) : Option Nat × Nat :=
  match x, y with
  | none, y => (y, 0)
  | x, none => (x, 0)
  | some a, some b =>
    let r := if t == .f32 then (match how with
        | 0 => fpAdd .f32 .rne a b
        | 1 => fpMinMax .f32 true a b
        | _ => fpMinMax .f32 false a b)
      else (laneInt (match how with
        | 0 => 0x20 | 1 => 0x2A | _ => 0x29) t a b, 0)
    (some r.1, r.2)

def lane (l : List (Option Nat)) (i : Nat) : Option Nat := (l.getD i none)

/-- One level of the tree of R91: lane i with lane i + d, for i below d. -/
def foldLevel (t : Ty) (how d : Nat) (acc : List (Option Nat) × Nat) : List (Option Nat) × Nat :=
  (List.range d).foldl (fun v i =>
    let r := combine t how (lane v.1 i) (lane v.1 (i + d))
    (v.1.set i r.1, v.2 ||| r.2)) acc

/-- R91: a beat reduced to one value, with flags. DEDUCED (log 150). -/
def reduceBeat (t : Ty) (how : Nat) (v : List (Option Nat)) : Option Nat × Nat :=
  let r := [8, 4, 2, 1].foldl (fun acc d => foldLevel t how d acc) (v, 0)
  (lane r.1 0, r.2)

/-- R91: the inclusive prefix within a beat, one distance. -/
def scanLevel (t : Ty) (how d : Nat) (acc : List (Option Nat) × Nat) : List (Option Nat) × Nat :=
  (List.range 16).foldl (fun out i =>
    if i < d then out else
      match lane acc.1 i with
      | none => out
      | some _ =>
        let r := combine t how (lane acc.1 (i - d)) (lane acc.1 i)
        (out.1.set i r.1, out.2 ||| r.2)) acc

/-- R172: the block maximum of LAMAX. -/
def amax (l : List (Option Nat)) : Nat :=
  let vs := l.filterMap id
  if vs.any fun v => isNan (decFp .f32 v) then nanOf .f32 else vs.foldl (fun m v => max m (v % 2 ^ 31)) 0

/-- R173: Qmax. -/
def qmax : Ty → Nat
  | .e4m3 => 448 | .e5m2 => 57344 | .e2m1 => 6 | _ => 127

/-- R67: scale bytes of a geometry: 1.0, the largest finite, the canonical NaN. -/
def scaleConsts : Geom → Nat × Nat × Nat
  | .g1 => (0x3C, 0x7B, 0x7E) | .g2 => (0x38, 0x7E, 0x7F) | _ => (127, 0xFE, 0xFF)

/-- R173, step 2: the scale byte for an amax value. -/
def quantScale (t : Ty) (g : Geom) (b : Nat) : Nat × Nat :=
  match decFp .f32 b with
  | .nan _ => ((scaleConsts g).2.2, fNV)
  | .inf _ => ((scaleConsts g).2.1, fNV)
  | .fin _ m e =>
    if m == 0 then ((scaleConsts g).1, 0)
    else
      let q := (quotFp (.fin false m e) (.fin false (qmax t) 0)).1
      if g == .g3 then toE8 .rup q else toFp (scaleTy g) .rup true q

/-- R173, step 3: an element's code. -/
def quantCode (t : Ty) (g : Geom) (sc a : Nat) : Nat × Nat :=
  let s := scaleVal g sc 0
  if isNan s || isNan (decFp .f32 a) then
    (match t with
      | .e4m3 => 0x7F | .e5m2 => 0x7E | _ => 0, fNV)
  else
    let q := quotFp (decFp .f32 a) s
    let r := if tyIsFloat t then toFp t .rne true q.1 else
      let i := fpToInt t .rne q.1
      ((i.1 % 2 ^ tyBits t).toNat, i.2)
    (r.1, r.2 ||| q.2)

/-- R174: the block code s. DESIGN CHOICE (log 52). -/
def codebookScale (b S : Nat) : Nat × Nat :=
  match decFp .f32 S with
  | .fin false m e =>
    if m == 0 then (0, fNV)
    else match decFp .f32 b with
      | .nan _ => (Config.nanBlock b S % 256, 0)
      | .inf _ => (255, fNX)
      | .fin _ m' e' =>
        match (quotFp (.fin false m' e') (.fin false m e)).1 with
        | .fin _ q x =>
          let c := (roundIntMag .rup false q x).1
          if 255 < c then (255, fNX) else (c, 0)
        | _ => (0, 0)
  | _ => (0, fNV)

/-- R174, R66: a code against s and S. -/
def codebookCode (s S a : Nat) : Nat × Nat :=
  let t := roundOp .f32 .rne (mulFp (.fin false s 0) (decFp .f32 S))
  let q := qn4Code (decFp .f32 a) (decFp .f32 t.1)
  (q.1, q.2 ||| t.2)

/-! ## Beats through stages (R155, R156, R170, R171) -/

/-- A beat: its number in the row, its lanes, and whether it is the row's last. -/
structure LaneBeat where
  j : Nat := 0
  a : List (Option Nat) := []
  b : List (Option Nat) := []
  last : Bool := false
  deriving DecidableEq, Repr

/-- What all stages of a run share. -/
structure RunIo where
  scratch : List (Nat × BitVec 32) := []
  ue : List Nat := []
  ce : List Nat := []
  /-- Uncorrectable and corrected errors met. -/
  ues : Nat := 0
  ces : Nat := 0
  flags : Nat := 0
  /-- First failing status, and the draw for the words that could not be read. -/
  fail : Nat := 0
  draw : Nat := 0
  beats : Nat := 0
  /-- The row at the tile sink: lane values in order; the scale channel: block and byte; S. -/
  row : List Nat := []
  scales : List (Nat × Nat) := []
  super : Nat := 0
  /-- Elements stored so far by each pattern sink. -/
  sunk : List (Nat × Nat) := []
  deriving DecidableEq, Repr

def RunIo.raise (io : RunIo) (f : Nat) : RunIo := { io with flags := io.flags ||| f }

def RunIo.failWith (io : RunIo) (st : Nat) : RunIo := { io with fail := if io.fail == 0 then st else io.fail }

/-- Reads a scratch word; an address outside the unit, or an uncorrectable error, fails the run (R160, R171). DESIGN CHOICE (log 152). -/
def RunIo.load (io : RunIo) (unit : Nat) (a : Int) : BitVec 32 × RunIo :=
  if a < 0 || Config.scratchWords ≤ a then (Config.failedWord io.draw unit, io.failWith stExtentBound)
  else
    let w := unit * Config.scratchWords + a.toNat
    if io.ue.contains w then (Config.failedWord io.draw w, { io.failWith stDataUe with ues := io.ues + 1 })
    else (match io.scratch.find? fun e => e.1 == w with
      | some e => e.2
      | none => 0, { io with ces := io.ces + (if io.ce.contains w then 1 else 0) })

/-- Writes a scratch word. -/
def RunIo.store (io : RunIo) (unit : Nat) (a : Int) (v : Nat) : RunIo :=
  if a < 0 || Config.scratchWords ≤ a then io.failWith stExtentBound
  else
    let w := unit * Config.scratchWords + a.toNat
    let rest := io.scratch.filter fun e => e.1 != w
    { io with ue := io.ue.filter (· != w), ce := io.ce.filter (· != w),
              scratch := if v % 2 ^ 32 == 0 then rest else (w, BitVec.ofNat 32 v) :: rest }

/-- R33: a source of a lane; `fp`: the operation reads it as FP32. DEDUCED (log 26). -/
def laneSrc (w : LaneWord) (k : List Nat) (st : StageState) (beat : LaneBeat) (fp : Bool) (sel i : Nat) : Nat :=
  match sel with
  | 0 => (lane beat.a i).getD 0
  | 1 => (lane beat.b i).getD 0
  | 6 => k.getD (w.imm % 16) 0
  | 7 => if fp then (intToFp .f32 .rne false (sx w.imm 7)).1 else (sx w.imm 7 % 2 ^ 32).toNat
  | n => (st.regs.getD (n - 2) []).getD i 0

/-- Values for the active lanes of a beat. -/
def onActive (a : List (Option Nat)) (f : Nat → Nat) : List (Option Nat) :=
  (List.range 16).map fun i => if (lane a i).isSome then some (f i) else none

/-- R156: a result beat leaves a stage: XD is written in its active lanes, and SEC forms the secondary output. DEDUCED (log 54). -/
def leaveStage (w : LaneWord) (st : StageState) (j : Nat) (last : Bool) (res sec : List (Option Nat)) :
    StageState × LaneBeat :=
  let regs := if w.xw then st.regs.modify w.xd fun x =>
      (List.range 16).map fun i => (lane res i).getD (x.getD i 0) else st.regs
  ({ st with regs := regs }, { j := j, a := res, b := if w.sec == 2 then res else sec, last := last })

/-- Several result beats leave in order; the final one is the row's last when `last`. DEDUCED (log 149). -/
def leaveMany (w : LaneWord) (last : Bool) (acc : StageState × List LaneBeat) : List HeldBeat → StageState × List LaneBeat
  | [] => acc
  | h :: hs =>
    let r := leaveStage w acc.1 h.j (last && hs.isEmpty) (h.res.getD h.src) h.sec
    leaveMany w last (r.1, acc.2 ++ [r.2]) hs

/-- R89: the sums and differences of two beats of a butterfly; an inactive or missing partner reads +0. -/
def butterfly (lo hi : List (Option Nat)) : (List (Option Nat) × List (Option Nat)) × Nat :=
  (List.range 16).foldl (fun r i =>
    match lane lo i with
    | none => (((r.1.1 ++ [none]), (r.1.2 ++ [none])), r.2)
    | some x =>
      let y := (lane hi i).getD 0
      let p := fpAdd .f32 .rne x y
      let m := fpSub .f32 .rne x y
      if (lane hi i).isSome then ((r.1.1 ++ [some p.1], r.1.2 ++ [some m.1]), r.2 ||| p.2 ||| m.2)
      else ((r.1.1 ++ [some p.1], r.1.2 ++ [none]), r.2 ||| p.2)) (([], []), 0)

/-- R89 within a beat, d below 16. -/
def butterflyIn (d : Nat) (v : List (Option Nat)) : List (Option Nat) × Nat :=
  (List.range 16).foldl (fun r i =>
    if d ≤ i % (2 * d) then r else
      match lane v i with
      | none => r
      | some x =>
        let p := fpAdd .f32 .rne x ((lane v (i + d)).getD 0)
        match lane v (i + d) with
        | none => (r.1.set i (some p.1), r.2 ||| p.2)
        | some y =>
          let m := fpSub .f32 .rne x y
          ((r.1.set i (some p.1)).set (i + d) (some m.1), r.2 ||| p.2 ||| m.2)) (v, 0)

/-- R170: LBFLY at a distance of `n` beats: a beat enters, and the beats whose time has come leave; with the row's last beat
all of them leave, before the next row's first beat enters. DEDUCED (log 149). -/
def bflyStage (w : LaneWord) (n : Nat) (st : StageState) (h : HeldBeat) (last : Bool) :
    StageState × List LaneBeat × Nat :=
  let upper := decide (n ≤ h.j % (2 * n))
  let partner := st.held.find? fun x => x.j + n == h.j
  let r : List HeldBeat × Nat :=
    if upper then match partner with
      | some p =>
        let b := butterfly p.src h.src
        ((st.held.map fun x => if x.j == p.j then { x with res := some b.1.1 } else x) ++
          [{ h with res := some b.1.2 }], b.2)
      | none => (st.held ++ [h], 0)
    else (st.held ++ [h], 0)
  let ready := r.1.filter fun x => last || decide (x.j + n ≤ h.j)
  let alone := ready.map fun x =>
    match x.res with
    | some _ => (x, 0)
    | none =>
      let b := butterfly x.src []
      ({ x with res := some b.1.1 }, b.2)
  let out := leaveMany w last ({ st with held := r.1.filter fun x => !(last || decide (x.j + n ≤ h.j)) }, [])
    (alone.map fun x => x.1)
  (out.1, out.2, alone.foldl (fun f x => f ||| x.2) r.2)

/-- R172: LAMAX over blocks of `b` elements. -/
def amaxStage (w : LaneWord) (b : Nat) (st : StageState) (h : HeldBeat) (last : Bool) : StageState × List LaneBeat :=
  if b ≤ 16 then
    let res := (List.range 16).map fun i =>
      if (lane h.src i).isSome then some (amax ((h.src.drop (i / b * b)).take b)) else none
    leaveMany w last (st, []) [{ h with res := some res }]
  else
    let held := st.held ++ [h]
    if last || (h.j + 1) % (b / 16) == 0 then
      let m := amax (held.flatMap fun x => x.src)
      leaveMany w last ({ st with held := [] }, [])
        (held.map fun x => { x with res := some (x.src.map fun v => v.map fun _ => m) })
    else ({ st with held := held }, [])

/-- R171: the scratch operations, lane by lane in ascending order; they raise no flags (R167). -/
def scratchStage (w : LaneWord) (unit : Nat) (a : List (Option Nat)) (adr val : Nat → Nat) (io : RunIo) :
    List (Option Nat) × RunIo :=
  (List.range 16).foldl (fun r i =>
    if (lane a i).isNone then (r.1 ++ [none], r.2) else
      let x : Int := adr i
      match w.lop with
      | 0x40 =>
        let v := r.2.load unit x
        (r.1 ++ [some v.1.toNat], v.2)
      | 0x41 => (r.1 ++ [some (val i)], r.2.store unit x (val i))
      | _ =>
        let v := r.2.load unit x
        let n := if w.ty == .f32 then (fpAdd .f32 .rne v.1.toNat (val i)).1 else (v.1.toNat + val i) % 2 ^ 32
        -- a word that could not be read is not written
        if x < Config.scratchWords && v.2.ues == r.2.ues then (r.1 ++ [some n], v.2.store unit x n)
        else (r.1 ++ [some n], v.2)) ([], io)

/-- R173, R174: the quantising operations, lane by lane; the scale channel takes each block's scale. -/
def quantStage (w : LaneWord) (g : Geom) (j : Nat) (a : List (Option Nat)) (av bv cv : Nat → Nat) (st : StageState)
    (io : RunIo) : List (Option Nat) × StageState × RunIo :=
  (List.range 16).foldl (fun r i =>
    if (lane a i).isNone then (r.1 ++ [none], r.2) else
      let col := 16 * j + i
      let st := r.2.1
      let io := r.2.2
      let st := if w.lop == 0x52 && col == 0 then { st with super := cv i } else st
      let io := if w.lop == 0x52 && col == 0 then { io with super := cv i } else io
      let new := col % blockOf g == 0
      let s := if new then (if w.lop == 0x52 then codebookScale (bv i) st.super else quantScale w.ty g (bv i)) else (st.sc, 0)
      let io := if new then { io.raise s.2 with scales := io.scales ++ [(col / blockOf g, s.1)] } else io
      let q := if w.lop == 0x52 then codebookCode s.1 st.super (av i) else quantCode w.ty g s.1 (av i)
      (r.1 ++ [some q.1], { st with sc := s.1 }, io.raise q.2)) ([], st, io)

/-- One beat enters a stage of pipeline `p`: the stage afterwards and the beats that leave it. DEDUCED (log 54). -/
def stageBeat (p : Nat) (k : List Nat) (g : Geom) (w : LaneWord) (st : StageState) (beat : LaneBeat) (io : RunIo) :
    StageState × List LaneBeat × RunIo :=
  let st := if beat.j == 0 then { st with held := [], tot := none, sc := 0, super := 0 } else st
  let fp := w.ty == .f32
  let av := laneSrc w k st beat (fp || w.lop == 0x0C) w.sa
  let bv := laneSrc w k st beat fp w.sb
  let cv := laneSrc w k st beat fp w.sc
  let src := onActive beat.a av
  let sec : List (Option Nat) := match w.sec with
    | 1 => beat.a
    | 3 => onActive beat.a fun i => (st.regs.getD 0 []).getD i 0
    | _ => (List.range 16).map fun i => if (lane beat.a i).isSome then some ((lane beat.b i).getD 0) else none
  let one (st : StageState) (res : List (Option Nat)) (io : RunIo) : StageState × List LaneBeat × RunIo :=
    let r := leaveStage w st beat.j beat.last res sec
    (r.1, [r.2], io)
  match w.lop with
  | 0x30 =>
    let d := 2 ^ (w.imm % 16)
    if d < 16 then
      let r := butterflyIn d src
      one st r.1 (io.raise r.2)
    else
      let r := bflyStage w (d / 16) st { j := beat.j, src := src, sec := sec } beat.last
      (r.1, r.2.1, io.raise r.2.2)
  | 0x31 =>
    let r := reduceBeat w.ty (w.imm % 4) src
    let t := combine w.ty (w.imm % 4) st.tot r.1
    let io := io.raise (r.2 ||| t.2)
    if beat.last then
      let res := t.1 :: List.replicate 15 none
      let o := leaveStage w { st with tot := none } 0 true res res
      (o.1, [o.2], io)
    else ({ st with tot := t.1 }, [], io)
  | 0x32 =>
    let how := w.imm % 2
    let v := [1, 2, 4, 8].foldl (fun acc d => scanLevel w.ty how d acc) (src, 0)
    let u := (List.range 16).foldl (fun r i =>
      match lane v.1 i, st.tot with
      | some _, some _ =>
        let c := combine w.ty how st.tot (lane v.1 i)
        (r.1 ++ [c.1], r.2 ||| c.2)
      | x, _ => (r.1 ++ [x], r.2)) ([], v.2)
    let t := match (u.1.filterMap id).getLast? with
      | some x => some x
      | none => st.tot
    one { st with tot := t } u.1 (io.raise u.2)
  | 0x33 =>
    if w.imm / 64 % 2 == 1 then
      let t := if beat.j == 0 then some ((lane src 0).getD 0) else st.tot
      one { st with tot := t } (onActive beat.a fun _ => t.getD 0) io
    else one st (onActive beat.a fun _ => (lane src (w.imm % 16)).getD 0) io
  | 0x34 =>
    one st (onActive beat.a fun i =>
      (lane src (k.getD (w.imm % 16 + i / 8) 0 / 2 ^ (4 * (i % 8)) % 16)).getD 0) io
  | 0x50 =>
    let r := quantStage w g beat.j beat.a av bv cv st io
    one r.2.1 r.1 r.2.2
  | 0x52 =>
    let r := quantStage w g beat.j beat.a av bv cv st io
    one r.2.1 r.1 r.2.2
  | 0x53 =>
    let r := amaxStage w (8 * 2 ^ (w.imm % 4)) st { j := beat.j, src := src, sec := sec } beat.last
    (r.1, r.2, io)
  | op =>
    if op == 0x40 || op == 0x41 || op == 0x42 then
      let r := scratchStage w ((p + w.imm % 2) % 8) beat.a av bv io
      one st r.1 r.2
    else
      let rs := (List.range 16).map fun i => if (lane beat.a i).isSome then some (laneOp w (av i) (bv i) (cv i)) else none
      one st (rs.map fun r => r.map fun x => x.1)
        (io.raise (rs.foldl (fun f r => f ||| (r.map fun x => x.2).getD 0) 0))

/-- A step of a chain of pipelines (R151). -/
inductive ChainStep where
  | stage (p : Nat) (k : List Nat) (w : LaneWord)
  /-- The way into a pipeline's stage 0 with the source of its b elements: BSRC, or 4 where a and b are one pattern. -/
  | link (bsrc : Nat) (pat : Pattern)
  /-- The end: 0 tile writer, 1 pattern sink, 3 discard. -/
  | sink (p kind : Nat) (pat : Pattern)
  deriving DecidableEq, Repr

/-- What a beat of a row meets beside its chain: the output's geometry, the row of the patterns, tile B as read, its
window and the row of the run. -/
structure BeatEnv where
  g : Geom := .g0
  prow : Nat := 0
  b : Tile := {}
  tb : Option Tile := none
  r : Nat := 0
  deriving DecidableEq, Repr

/-- Beat `j` of row `r` of a window `t` of a base array `b` as lane values, with the flags of entry (R87). -/
def laneBeat (b : Tile) (t : Option Tile) (r j : Nat) : List (Option Nat) × Nat :=
  match t with
  | none => (List.replicate 16 none, 0)
  | some t =>
    let sh := t.shape
    let row := t.row0 + r
    let super := if sh.bg == .g4 then b.super row else 0
    (List.range 16).foldl (fun acc i =>
      let c := 16 * j + i
      if sh.cols ≤ c then (acc.1 ++ [none], acc.2) else
        let col := t.col0 + c
        let v := enterLane sh (b.elem row col) (if sh.bg.scaled then b.scale row (col / blockOf sh.bg) else 0) super
        (acc.1 ++ [some v.1], acc.2 ||| v.2)) ([], 0)

/-- R152: beat `j` of row `r` of a pattern source. -/
def patternBeat (p : Pattern) (r j : Nat) (io : RunIo) : List (Option Nat) × RunIo :=
  (List.range 16).foldl (fun acc i =>
    if p.c 0 ≤ 16 * j + i then (acc.1 ++ [none], acc.2) else
      let v := acc.2.load p.unit (p.addr (r * p.c 0 + 16 * j + i))
      (acc.1 ++ [some v.1.toNat], v.2)) ([], io)

/-- The elements of a beat reach a chain's end (R152, R160). -/
def sinkBeat (p kind : Nat) (pat : Pattern) (beat : LaneBeat) (io : RunIo) : RunIo :=
  let vs := beat.a.filterMap id
  match kind with
  | 0 => { io with row := io.row ++ vs }
  | 1 => vs.foldl (fun io v =>
      let n := Table.get io.sunk p
      if pat.total ≤ n then io.failWith stExtentBound
      else { io.store pat.unit (pat.addr n) v with sunk := Table.set io.sunk p (n + 1) }) io
  | _ => io

/-- A beat passes through the rest of a chain (R156, R159). -/
def feed (env : BeatEnv) : List ChainStep → List StageState → LaneBeat → RunIo → List StageState × RunIo
  | [], sts, _, io => (sts, io)
  | .stage p k w :: cs, sts, beat, io =>
    let r := stageBeat p k env.g w (sts.headD {}) beat io
    let out := r.2.1.foldl (fun (acc : List StageState × RunIo) o => feed env cs acc.1 o acc.2) (sts.tail, r.2.2)
    (r.1 :: out.1, out.2)
  | .link bsrc pat :: cs, sts, beat, io =>
    let b : List (Option Nat) × RunIo := match bsrc with
      | 0 => (List.replicate 16 none, io)
      | 1 =>
        let x := laneBeat env.b env.tb env.r beat.j
        (x.1, io.raise x.2)
      | 2 => patternBeat pat env.prow beat.j io
      | 4 => (beat.a, io)
      | _ => (beat.b, io)
    let out := feed env cs sts.tail { beat with b := b.1 } { b.2 with beats := b.2.beats + 1 }
    (sts.headD {} :: out.1, out.2)
  | .sink p kind pat :: _, sts, beat, io => (sts, sinkBeat p kind pat beat io)

/-- The steps of a chain of pipelines. DESIGN CHOICE (log 168). -/
def chainSteps (xs : List PipeCfg) : List ChainStep :=
  xs.flatMap fun x =>
    ChainStep.link (if x.asrc == 2 && x.bsrc == 2 then 4 else x.bsrc) x.src :: x.stages.map (fun w => ChainStep.stage x.p x.k w) ++
      (if x.sink == 2 then [] else [ChainStep.sink x.p x.sink x.dst])

/-- R159: beat `j` of `beats` of a row enters a chain and passes through; `a` is tile A as read, `ta` its window. DESIGN CHOICE (log 166). -/
def chainBeat (env : BeatEnv) (xs : List PipeCfg) (a : Tile) (ta : Option Tile) (j beats : Nat) (sts : List StageState)
    (io : RunIo) : List StageState × RunIo :=
  let x := xs.headD {}
  let e : List (Option Nat) × RunIo := match x.asrc with
    | 0 =>
      let v := laneBeat a ta env.r j
      (v.1, io.raise v.2)
    | 1 =>
      let v := laneBeat env.b env.tb env.r j
      (v.1, io.raise v.2)
    | _ => patternBeat x.src env.prow j io
  feed env (chainSteps xs) sts { j := j, a := e.1, last := j + 1 == beats } e.2

/-- The chains of a vconfig as lists of pipelines (R151). -/
def chainsOf : List PipeCfg → List (List PipeCfg)
  | [] => []
  | x :: xs =>
    match chainsOf xs with
    | (y :: ys) :: rest => if y.asrc == 3 then (x :: y :: ys) :: rest else [x] :: (y :: ys) :: rest
    | rest => [x] :: rest

end Sys2Proof.Machine
end

