-- ==== Sys2Proof/Machine/Image.lean ====
section
/-! DEFINITION. Validation of a Xitor image (R45 to R52, R112, R153, R175, R229, R234, R251, R353, R447, R448): every
check of R51 in its order, reporting the first failure. -/

namespace Sys2Proof.Machine

/-- What a failed check reports (R52). -/
structure Bad where
  reason : Reason
  status : Nat := stFormat
  block : Nat := 0
  instr : Nat := 0
  lane : Nat := 0
  item : Nat := 0
  deriving DecidableEq, Repr

/-- R52: the completion word. -/
def loadWord (st reason block instr lane item : Nat) : Word :=
  BitVec.ofNat 64 (st % 256 * 2 ^ 56 + reason * 2 ^ 48 + block % 64 * 2 ^ 42 + instr % 128 * 2 ^ 35 + lane % 8 * 2 ^ 32 +
    item % 65536 * 2 ^ 16)

/-- DEDUCED (log 28). -/
def Bad.word (b : Bad) : Word := loadWord b.status (reasonCode b.reason) b.block b.instr b.lane b.item

/-- A check that may fail. -/
def failIf (c : Bool) (b : Bad) : Option Bad := if c then some b else none

/-- The first failure in a list. -/
def firstBad {α : Type} (l : List α) (f : α → Option Bad) : Option Bad := l.findSome? f

/-! ## The parts of an image -/

/-- R46: a section table entry. -/
structure Sect where
  stype : Nat := 0
  zero : Nat := 0
  count : Nat := 0
  off : Nat := 0
  size : Nat := 0
  deriving DecidableEq, Repr

def sectOf (w : Nat) : Sect := { stype := bf w 0 8, zero := bf w 8 24, count := bf w 32 32, off := bf w 64 32, size := bf w 96 32 }

/-- The little-endian number in `n` bytes at an offset. -/
def numAt (bs : List Byte) (off n : Nat) : Nat := leNat ((bs.drop off).take n)

/-- `k` records of `n` bytes. -/
def chunksOf (n : Nat) : Nat → List Byte → List (List Byte)
  | 0, _ => []
  | k + 1, bs => bs.take n :: chunksOf n k (bs.drop n)

/-- R45: the CRC-32 of IEEE 802.3, least significant bit first. -/
def crcBits : Nat → Nat → Nat
  | 0, c => c
  | k + 1, c => crcBits k (if c % 2 == 1 then (c / 2) ^^^ 0xEDB88320 else c / 2)

def crc32 (bs : List Byte) : Nat := (bs.foldl (fun c b => crcBits 8 (c ^^^ b.toNat)) 0xFFFFFFFF) ^^^ 0xFFFFFFFF

/-- R45: what the first 32 bytes must hold before the image is read whole. -/
def headOk (h slot : Nat) : Bool :=
  bf h 0 32 == 0x474D4958 && bf h 32 16 == 1 && bf h 58 6 == 0 && bf h 112 16 == 0 && bf h 160 96 == 0 &&
    bf h 64 32 % 16 == 0 && decide (1 ≤ bf h 96 16) && decide (bf h 96 16 ≤ 64) &&
    decide (32 + 16 * bf h 96 16 ≤ bf h 64 32) && bf h 56 2 == slot

def headLength (h : Nat) : Nat := bf h 64 32

def sectsOf (bs : List Byte) : List Sect :=
  (List.range (numAt bs 12 2)).map fun i => sectOf (numAt bs (32 + 16 * i) 16)

/-- The pipelines a mask names. -/
def popcount8 (m : Nat) : Nat := (maskBits m).length

/-- R46, R150: the vconfig records of a section, by the lengths their LPMASKs give; none when they do not fill it. -/
def vconfigsOf : Nat → List Byte → Option (List (List Byte))
  | 0, bs => if bs.isEmpty then some [] else none
  | k + 1, bs =>
    let n := 16 + 160 * popcount8 (bf (leNat (bs.take 16)) 52 8)
    if bs.length < n then none else (vconfigsOf k (bs.drop n)).map fun l => bs.take n :: l

/-- R46: data records fill their section. -/
def dataOk : Nat → List Byte → Bool
  | 0, bs => bs.isEmpty
  | k + 1, bs =>
    let n := 16 + 16 * ceilDiv (numAt bs 8 8) 16
    decide (16 ≤ bs.length) && decide (n ≤ bs.length) && dataOk k (bs.drop n)

def Sect.bytes (x : Sect) (bs : List Byte) : List Byte := (bs.drop x.off).take x.size

/-- R46: COUNT and SIZE agree. -/
def Sect.sizeOk (x : Sect) (bs : List Byte) : Bool :=
  match x.stype with
  | 0x01 => decide (1 ≤ x.count) && decide (x.count ≤ 256) && x.size == 2 * x.count
  | 0x02 => x.count == 64 && x.size == 512
  | 0x03 => x.size == 8 * x.count
  | 0x04 => x.size == 16 * x.count
  | 0x05 => x.size == 8 * x.count
  | 0x06 => x.size == 8 * x.count
  | 0x07 => decide (16 * x.count ≤ x.size) && (vconfigsOf x.count (x.bytes bs)).isSome
  | 0x08 => x.size == 8 * x.count
  | 0x09 => x.size == 64 * x.count
  | 0x0A => x.size == 256 * x.count
  | 0x0B => decide (16 * x.count ≤ x.size) && dataOk x.count (x.bytes bs)
  | _ => false

/-- The bytes between one section and another that follows it with none between are zero (R46). DEDUCED (log 27). -/
def gapsOk (bs : List Byte) (l : List Sect) : Bool :=
  l.all fun a =>
    let next := ((l.filter fun b => b != a && decide (a.off + a.size ≤ b.off)).map fun b => b.off).foldl min bs.length
    if l.any fun b => b != a && decide (a.off + a.size ≤ b.off) then
      ((bs.drop (a.off + a.size)).take (next - (a.off + a.size))).all (· == 0)
    else true

/-- Sections do not overlap (R51). -/
def disjointSects : List Sect → Bool
  | [] => true
  | a :: l => (l.all fun b => decide (a.off + a.size ≤ b.off) || decide (b.off + b.size ≤ a.off)) && disjointSects l

/-- R51, HEADER, of a whole image. -/
def headerOk (bs : List Byte) (slot : Nat) : Bool :=
  let l := sectsOf bs
  let n (t : Nat) : Nat := (l.filter fun x => x.stype == t).length
  headOk (numAt bs 0 32) slot && crc32 (bs.drop 32) == numAt bs 16 4 &&
    l.all (fun x => x.zero == 0 && decide (1 ≤ x.stype) && decide (x.stype ≤ 0x0B) && x.off % 16 == 0 &&
      decide (32 + 16 * l.length ≤ x.off) && decide (x.off + x.size ≤ bs.length)) &&
    [1, 2, 3, 4, 5, 6].all (fun t => n t == 1) && [7, 8, 9, 0x0A, 0x0B].all (fun t => decide (n t ≤ 1)) &&
    disjointSects l && gapsOk bs l && l.all fun x => x.sizeOk bs

/-- The records of an image. -/
structure Image where
  slot : Nat := 0
  cid : Nat := 0
  cores : List Nat := []
  desc : List Nat := []
  places : List Nat := []
  code : List Nat := []
  inports : List Nat := []
  routes : List Nat := []
  vcfgs : List (List Byte) := []
  consts : List Nat := []
  pats : List (List Byte) := []
  deriving DecidableEq, Repr

def imageOfBytes (bs : List Byte) : Image :=
  let l := sectsOf bs
  let sect (t : Nat) : Sect := (l.find? fun x => x.stype == t).getD {}
  let recs (t n : Nat) : List (List Byte) := chunksOf n (sect t).count ((sect t).bytes bs)
  { slot := bf (numAt bs 0 32) 56 2, cid := bf (numAt bs 0 32) 48 8, cores := (recs 1 2).map leNat, desc := (recs 2 8).map leNat,
    places := (recs 3 8).map leNat, code := (recs 4 16).map leNat, inports := (recs 5 8).map leNat, routes := (recs 6 8).map leNat,
    vcfgs := (vconfigsOf (sect 7).count ((sect 7).bytes bs)).getD [], consts := (recs 8 8).map leNat, pats := recs 9 64 }

def Image.region (m : Image) : List Nat := (List.range 256).filter fun c => m.cores.any fun w => w % 256 == c

def Image.descOf (m : Image) (b : Nat) : Nat := m.desc.getD b 0

def Image.holders (m : Image) (b : Nat) : List Nat := (m.places.filter fun w => w % 64 == b).map fun w => bf w 16 8

/-- The words of each valid block (R46). -/
def blockWords : List (Nat × Nat) → List Nat → List (Nat × List Nat)
  | [], _ => []
  | (b, d) :: ds, ws =>
    if descValid d then (b, ws.take (descNinstr d)) :: blockWords ds (ws.drop (descNinstr d)) else blockWords ds ws

def Image.blocks (m : Image) : List (Nat × List Nat) := blockWords (enumL m.desc) m.code

def Image.words (m : Image) (b : Nat) : List Nat := ((m.blocks.find? fun x => x.1 == b).map fun x => x.2).getD []

/-- Code blocks with their words taken apart, and table blocks with theirs. -/
def Image.codeBlocks (m : Image) : List (Nat × List Fields) :=
  (m.blocks.filter fun x => !descTbl (m.descOf x.1)).map fun x => (x.1, x.2.map Fields.ofNat)

def Image.tables (m : Image) : List (Nat × List Nat) := m.blocks.filter fun x => descTbl (m.descOf x.1)

/-- Every instruction of the code blocks: block, index, fields, word. -/
def Image.instrs (m : Image) : List (Nat × Nat × Fields × Nat) :=
  (m.blocks.filter fun x => !descTbl (m.descOf x.1)).flatMap fun x =>
    (enumL x.2).map fun w => (x.1, w.1, Fields.ofNat w.2, w.2)

/-- The table block that a DISP or a steering ADRAIN reads. DEDUCED (log 29). -/
def tableRead (f : Fields) : Option Nat :=
  if f.opc == 0x05 then some (bf f.aux 0 6) else if f.opc == 0x104 && bf f.mod 0 1 == 1 then some (bf f.aux 4 6) else none

/-- R30: entries of a table's words, with the word each lies in. -/
def entriesOf (ws : List Nat) : List (Nat × Nat) :=
  (List.range (8 * ws.length)).map fun j => (j, bf (ws.getD (j / 8) 0) (j % 8 * 16) 16)

/-! ## Destinations -/

/-- R24, R25: a destination's target in a block: its node exists and its port is not one that IMM supplies. DEDUCED (log 30). -/
def targetOk (ws : List Fields) (node port : Nat) : Bool :=
  match ws[node]? with
  | some f => !(f.immr == 1 && port == f.ar)
  | none => false

/-- R25, R51 DEST: a destination field in a block that lies on `cores`. -/
def fieldOk (routed : List (Nat × Nat)) (ws : List Fields) (cores : List Nat) (d : Nat) : Bool :=
  match destOfCode d with
  | none => false
  | some .none => true
  | some (.node n p) => targetOk ws n.toNat (portCode p)
  | some (.out p) => cores.all fun c => routed.contains (c, p.toNat)

def Image.routed (m : Image) : List (Nat × Nat) := m.routes.map fun w => (bf w 56 8, bf w 50 6)

/-! ## Lane words and vconfigs -/

/-- What a lane operation takes (R168): sources read, element types, and its use of IMM7. -/
structure LaneUse where
  reads : Nat
  tys : List Ty
  imm : Option (Nat → Ty → Bool) := none

def laneTyInt : List Ty := [.s32, .z32]
def laneTyNum : List Ty := [.f32, .s32, .z32]

/-- R44, R168: the lane operation map. DEDUCED (log 26). -/
def laneUse (lop : Nat) : Option LaneUse :=
  match lop with
  | 0x00 => some ⟨1, [.none], none⟩
  | 0x01 => some ⟨2, [.f32], none⟩
  | 0x02 => some ⟨2, [.f32], none⟩
  | 0x03 => some ⟨2, [.f32], none⟩
  | 0x04 => some ⟨3, [.f32], none⟩
  | 0x05 => some ⟨2, [.f32], none⟩
  | 0x06 => some ⟨2, [.f32], none⟩
  | 0x07 => some ⟨1, [.f32], none⟩
  | 0x08 => some ⟨1, [.f32], none⟩
  | 0x09 => some ⟨2, laneTyNum, some fun v t => decide (v < 7) || (v == 7 && t == .f32)⟩
  | 0x0A => some ⟨3, [.none], none⟩
  | 0x0B => some ⟨1, [.f32], some fun v _ => decide (v < 4)⟩
  | 0x0C => some ⟨1, laneTyInt, some fun v _ => decide (v < 4)⟩
  | 0x0D => some ⟨1, [.f32], none⟩
  | 0x0E => some ⟨1, [.f32], none⟩
  | 0x0F => some ⟨1, [.f32], none⟩
  | 0x10 => some ⟨2, [.f32], none⟩
  | 0x11 => some ⟨1, [.f32], none⟩
  | 0x12 => some ⟨1, [.f32], none⟩
  | 0x13 => some ⟨1, [.f32], none⟩
  | 0x14 => some ⟨1, [.bf16, .f16, .e4m3, .e5m2, .e2m1, .s32, .z32], some fun v _ => decide (v < 8)⟩
  | 0x20 => some ⟨2, laneTyInt, none⟩
  | 0x21 => some ⟨2, laneTyInt, none⟩
  | 0x22 => some ⟨2, laneTyInt, none⟩
  | 0x23 => some ⟨2, laneTyInt, none⟩
  | 0x24 => some ⟨2, laneTyInt, none⟩
  | 0x25 => some ⟨2, laneTyInt, none⟩
  | 0x26 => some ⟨2, laneTyInt, none⟩
  | 0x27 => some ⟨2, laneTyInt, none⟩
  | 0x28 => some ⟨2, laneTyInt, none⟩
  | 0x29 => some ⟨2, laneTyInt, none⟩
  | 0x2A => some ⟨2, laneTyInt, none⟩
  | 0x30 => some ⟨1, [.f32], some fun v _ => decide (v ≤ 8)⟩
  | 0x31 => some ⟨1, laneTyNum, some fun v _ => decide (v ≤ 2)⟩
  | 0x32 => some ⟨1, laneTyNum, some fun v _ => decide (v ≤ 1)⟩
  | 0x33 => some ⟨1, [.none], some fun v _ => v / 16 % 4 == 0⟩
  | 0x34 => some ⟨1, [.none], some fun v _ => decide (v ≤ 14)⟩
  | 0x40 => some ⟨1, [.none], some fun v _ => decide (v ≤ 1)⟩
  | 0x41 => some ⟨2, [.none], some fun v _ => decide (v ≤ 1)⟩
  | 0x42 => some ⟨2, laneTyNum, some fun v _ => decide (v ≤ 1)⟩
  | 0x50 => some ⟨2, [.s8, .e4m3, .e5m2, .e2m1], none⟩
  | 0x51 => some ⟨2, [.s8, .e4m3, .e5m2, .e2m1, .qn4], none⟩
  | 0x52 => some ⟨3, [.qn4], none⟩
  | 0x53 => some ⟨1, [.f32], some fun v _ => decide (v ≤ 3)⟩
  | _ => none

/-- R34, R153: a lane operation word is legal. DEDUCED (log 169). -/
def laneOk (w : LaneWord) : Bool :=
  match laneUse w.lop with
  | none => false
  | some u =>
    let sel := [w.sa, w.sb, w.sc]
    u.tys.contains w.ty && (sel.drop u.reads).all (· == 0) && !(sel.contains 6 && sel.contains 7) &&
      (!sel.contains 6 || w.imm / 16 == 0) && (w.xw || w.xd == 0) && (w.lop != 0x31 || w.sec == 2) &&
      match u.imm with
      | some ok => !sel.contains 6 && !sel.contains 7 && ok w.imm w.ty
      | none => sel.contains 6 || sel.contains 7 || w.imm == 0

/-- R152: the zero fields of a pattern. -/
def patternZeros (w : Nat) : Bool := bf w 224 32 == 0 && bf w 20 12 == 0 && bf w 15 1 == 0

/-- The raw pipeline records of a vconfig: pipeline, bytes. -/
def rawPipes (bs : List Byte) : List (Nat × List Byte) :=
  (enumL (maskBits (bf (leNat (bs.take 16)) 52 8))).map fun x => (x.2, (bs.drop (16 + 160 * x.1)).take 160)

/-- The unit that a stage of a pipeline reaches, where it is a scratch operation (R171). -/
def scratchUnit (x : PipeCfg) (w : LaneWord) : Option Nat :=
  if 0x40 ≤ w.lop && w.lop ≤ 0x42 then some ((x.p + w.imm % 2) % 8) else none

/-- The units of the patterns a pipeline uses. -/
def patternUnits (x : PipeCfg) : List Nat :=
  (if x.asrc == 2 || x.bsrc == 2 then [x.src.unit] else []) ++ (if x.sink == 1 then [x.dst.unit] else [])

def hasDup : List Nat → Bool
  | [] => false
  | a :: l => l.contains a || hasDup l

/-- R151, R152, R153: the stream word and the patterns of a pipeline record. -/
def pipeRecOk (v : VCfg) (x : PipeCfg) (bs : List Byte) : Bool :=
  let prev := v.pipes.find? fun y => y.p + 1 == x.p
  let next := v.pipes.find? fun y => y.p == x.p + 1
  let reach (u : Nat) : Bool := u == x.p || u == (x.p + 1) % 8
  let p0 := numAt bs 96 32
  let p1 := numAt bs 128 32
  let used0 := x.asrc == 2 || x.bsrc == 2
  let pat (used : Bool) (w : Nat) (p : Pattern) : Bool :=
    if used then p.en && patternZeros w && reach p.unit && v.sbmask / 2 ^ p.unit % 2 == 1 else w == 0
  numAt bs 24 8 / 64 == 0 &&
    (x.asrc != 3 || (match prev with
      | some y => y.sink == 2
      | none => false)) &&
    (x.bsrc != 3 || x.asrc == 3) &&
    (x.sink != 2 || (match next with
      | some y => y.asrc == 3
      | none => false)) &&
    pat used0 p0 x.src && pat (x.sink == 1) p1 x.dst

/-- R150, R151, R153: the LANE_WORD checks of a record, that of the record first and then each stage in order; the failing
stage, or 0 where none is at fault. DEDUCED (log 147). -/
def vconfigLane (bs : List Byte) : Option Nat :=
  let h := leNat (bs.take 16)
  let v := vcfgOf bs
  let pats := v.pipes.flatMap patternUnits
  if bf h 64 64 != 0 || bf h 0 26 != 0 || v.lpmask == 0 || v.zmask &&& v.sbmask != v.zmask || hasDup pats ||
      (rawPipes bs).any (fun r => !pipeRecOk v (v.pipe r.1) r.2) then some 0
  else v.pipes.findSome? fun x => (enumL x.stages).findSome? fun w =>
    if laneOk w.2 && (scratchUnit x w.2).all (fun u => v.sbmask / 2 ^ u % 2 == 1 && !pats.contains u) then none else some w.1

/-- R175: the block-format stages of a pipeline, with their places. -/
def formatStages (x : PipeCfg) : List (Nat × LaneWord) := (enumL x.stages).filter fun w => w.2.lop == 0x50 || w.2.lop == 0x52

/-- R58, R67: an output type and geometry of the vector fabric. DEDUCED (log 51). -/
def outPairOk (t : Ty) (g : Geom) : Bool := if t == .none then g == .g0 else pairOk t g && tyBits t != 64

/-- R67, R153, R175: the EDGE_FORMAT checks of a record, that of the record first and then each block-format stage; the
failing stage, or 0 where none is at fault. DEDUCED (log 147). -/
def vconfigFormat (bs : List Byte) : Option Nat :=
  let h := leNat (bs.take 16)
  let v := vcfgOf bs
  let sinks := v.pipes.filter fun x => x.sink == 0
  let formats := v.pipes.flatMap fun x => (formatStages x).map fun w => (x, w)
  let geomOk := match geomOfCode (bf h 28 4) with
    | some g => outPairOk v.oty g
    | none => false
  if !geomOk || sinks.length != (if v.oty == .none then 0 else 1) || (v.tail && v.obg != .g0) ||
      (v.obg != .g0 && formats.isEmpty) then some 0
  else (enumL formats).findSome? fun k =>
    let f := k.2
    if k.1 == 0 && f.1.sink == 0 && (f.1.stages.drop (f.2.1 + 1)).all (fun w => w.lop == 0) &&
        (if f.2.2.lop == 0x50 then (v.obg == .g1 || v.obg == .g2 || v.obg == .g3) && v.oty == f.2.2.ty
         else v.obg == .g4 && v.oty == .qn4) then none
    else some f.2.1

def Image.vcfg? (m : Image) (vid : Nat) : Option VCfg :=
  (m.vcfgs.find? fun r => (vcfgOf r).vid == vid).map vcfgOf

/-! ## What an output is (R447) -/

inductive OutClass where
  | typed (t : Ty)
  | untyped
  | tile (t : Ty) (g : Nat)
  | cont
  | free
  deriving DecidableEq, Repr

/-- R447: the class of output `k` of a word. -/
def outClass (m : Image) (f : Fields) (k : Nat) : OutClass :=
  let t := tyOfCode f.ty
  let op := f.opc
  let at0 (c : OutClass) : OutClass := if k == 0 then c else .free
  let typed (t : Ty) : OutClass := if t == .none then .untyped else .typed t
  if op == 0x02 then typed t
  else if op == 0x08 || op == 0x0A || op == 0x0B then .cont
  else if [0x07, 0x09, 0x0D, 0x0F, 0x11, 0x14, 0x15].contains op then .untyped
  else if op == 0x56 then .free
  else if decide (0x40 ≤ op) && decide (op ≤ 0x5B) then typed t
  else if op == 0x8C || op == 0x8D then .typed .z64
  else if op == 0x93 then .typed .s32
  else if op == 0x8E || op == 0x8F || op == 0x90 then typed (tyOfCode (bf f.aux 0 4))
  else if decide (0x80 ≤ op) && decide (op ≤ 0x94) then typed t
  else if op == 0xC0 then .tile t (bf f.aux 0 4)
  else if op == 0xC2 then .untyped
  else if op == 0xC4 || op == 0xCC || op == 0x107 then at0 .untyped
  else if op == 0xC8 then (if t == .none then .free else at0 (.typed t))
  else if op == 0xCA || op == 0xCB then
    match m.vcfg? (bf f.aux 0 4) with
    | some v => if v.oty == .none then .untyped else .tile v.oty (geomCode v.obg)
    | none => .free
  else if op == 0x100 || op == 0x101 || op == 0x106 then .untyped
  else if op == 0x102 then (if k == 0 then .free else .untyped)
  else if op == 0x103 then .tile (tyOfCode (bf f.aux 4 4)) 0
  else if op == 0x104 then at0 (.tile (tyOfCode (bf f.aux 0 4)) 0)
  else if op == 0x140 then (if t == .none then .free else .typed t)
  else if op == 0x142 then (if t == .none then .free else .tile t (bf f.mod 0 4))
  else if op == 0x143 then (if k == 2 then .free else .untyped)
  else if decide (0x141 ≤ op) && decide (op ≤ 0x14D) then .untyped
  else if op == 0x18C then .free
  else if decide (0x180 ≤ op) && decide (op ≤ 0x18E) then .untyped
  else if decide (0x1C2 ≤ op) && decide (op ≤ 0x1C9) then .untyped
  else .free

/-- R48, R51: an output agrees with an in-port binding; TY 0xF agrees with every type, and BG must still be equal. DEDUCED (log 146). -/
def agrees (c : OutClass) (w : Nat) : Bool :=
  let ty := tyOfCode (bf w 38 4)
  match c with
  | .typed t => bf w 31 1 == 1 && (ty == .none || ty == t)
  | .untyped => bf w 31 1 == 1
  | .tile t g => bf w 32 1 == 1 && (ty == .none || ty == t) && bf w 34 4 == g
  | .cont => bf w 33 1 == 1
  | .free => true

/-! ## The checks -/

/-- Who loads, and into what. -/
structure Load where
  slot : Nat := 0
  priv : Bool := false
  tenant : Nat := 0
  rhome : Option Nat := none
  deriving DecidableEq, Repr

/-- The region with exactly the image's cores (R251). -/
def State.regionOf (s : State) (cores : List Nat) : Option Region := s.regions.find? fun r => r.cores == cores

/-- R51, SLOT_BUSY. -/
def checkBusy (s : State) (m : Image) (ld : Load) : Option Bad :=
  match s.regionOf m.region with
  | some r => failIf (((r.slots.getD ld.slot {}).state) != .empty) { reason := .slotBusy, status := stPerm }
  | none => none

/-- R43, R229, R234: a word that its block's PRIV does not allow. -/
def privBad (priv : Bool) (f : Fields) : Bool :=
  (!priv && (f.opc == 0x1C7 || f.opc == 0x1C8 || f.opc == 0x1C9)) ||
  (!priv && (f.opc == 0x1C2 || f.opc == 0x1C3) && regPriv (bf f.aux 0 12)) ||
  (priv && f.opc == 0x1C0) ||
  (!priv && (f.opc == 0x18B || f.opc == 0x18D || f.opc == 0x18E) && bf f.aux 0 2 == 3)

/-- R51, PRIV: slot 3 first, then block by block the descriptor and the block's instructions. DEDUCED (log 92). -/
def checkPriv (m : Image) (ld : Load) : Option Bad :=
  (failIf (ld.slot == 3 && !ld.priv) { reason := .priv, status := stPerm }).or <|
  firstBad (enumL m.desc) fun d =>
    (failIf (descValid d.2 && descPriv d.2 && ld.slot != 3) { reason := .priv, status := stPerm, block := d.1 }).or <|
    firstBad (m.instrs.filter fun w => w.1 == d.1) fun w => failIf (privBad (descPriv d.2) w.2.2.1)
      { reason := .priv, status := stPerm, block := d.1, instr := w.2.1 }

/-- R29: a descriptor. DEDUCED (log 27). -/
def descOk (d : Nat) : Bool :=
  if descValid d then
    bf d 0 20 == 0 && descExits d != 0 &&
      (!descTbl d || (bf d 56 8 == 0 && bf d 43 6 == 0 && decide (descExits d ≤ 1024) && decide (descExits d ≤ 8 * descNinstr d)))
  else d == 0

/-- Blocks that read a table. -/
def Image.readers (m : Image) (t : Nat) : List Nat :=
  ((m.instrs.filter fun w => tableRead w.2.2.1 == some t).map fun w => w.1).eraseDups

/-- R46, R47, R251, R413: the region-core records. DEDUCED (log 147). -/
def checkCores (s : State) (m : Image) (ld : Load) : Option Bad :=
  (firstBad (enumL m.cores) fun w =>
    let c := w.2 % 256
    let owner := (s.core c).tenant
    (failIf (decide (256 ≤ w.2) || ((m.cores.take w.1).any fun x => x % 256 == c)) { reason := .descriptor, item := w.1 }).or
      (failIf (owner != some ld.tenant || (s.core c).failed) { reason := .descriptor, status := stPerm, item := w.1 })).or <|
  failIf (match s.regionOf m.region with
    | some _ => false
    | none => s.regions.any (fun r => r.cores.any fun c => m.region.contains c) || decide (64 ≤ s.regions.length))
    { reason := .descriptor }

/-- R51, DESCRIPTOR: the region cores, RHOME, each descriptor, the placements, the code section's COUNT. DEDUCED (log 147). DESIGN CHOICE (log 165). -/
def checkDesc (s : State) (m : Image) (ld : Load) : Option Bad :=
  (checkCores s m ld).or <|
  (failIf (match ld.rhome with
    | some h => m.region.head? != some h
    | none => false) { reason := .descriptor }).or <|
  (firstBad (enumL m.desc) fun d => failIf
    (!descOk d.2 || (descValid d.2 && ((m.holders d.1).isEmpty ||
      (descTbl d.2 && (m.readers d.1).any fun b => (m.holders b).any fun c => !(m.holders d.1).contains c))))
    { reason := .descriptor, block := d.1 }).or <|
  (firstBad (enumL m.places) fun w => failIf
    (bf w.2 24 40 != 0 || bf w.2 6 10 != 0 || !m.region.contains (bf w.2 16 8) || !descValid (m.descOf (w.2 % 64)))
    { reason := .descriptor, block := w.2 % 64, item := w.1 }).or <|
  failIf (m.code.length != ((m.desc.filter descValid).map descNinstr).sum) { reason := .descriptor }

/-- The decoder rejects a word with a reason. -/
def rejects (w : Nat) (r : Reason) : Bool :=
  match decodeWord (BitVec.ofNat 128 w) with
  | .error e => e == r
  | .ok _ => false

/-- The first word that the decoder rejects with a reason. -/
def wordBad (m : Image) (r : Reason) : Option Bad :=
  firstBad m.instrs fun w => failIf (rejects w.2.2.2 r)
    { reason := r, block := w.1, instr := w.2.1 }

/-- R51, ARITY, with the shape of handler blocks (R353). -/
def checkArity (m : Image) (ld : Load) : Option Bad :=
  firstBad (enumL m.desc) fun d =>
    let handler := ld.slot == 3 && decide (d.1 < 6) && descValid d.2
    let ws := (m.words d.1).map Fields.ofNat
    (failIf (handler && (descTbl d.2 || decide (ws.length < 3) || (ws.take 3).any fun f => f.ar != 1))
      { reason := .arity, block := d.1 }).or
    (if descTbl d.2 then none else firstBad (enumL (m.words d.1)) fun w =>
      failIf (rejects w.2 .arity) { reason := .arity, block := d.1, instr := w.1 })

/-- R51, RESERVED. -/
def checkReserved (m : Image) : Option Bad :=
  (firstBad m.blocks fun b =>
    if descTbl (m.descOf b.1) then firstBad (entriesOf b.2) fun e =>
      failIf (decide (2 ^ 11 ≤ e.2) || (decide (descExits (m.descOf b.1) ≤ e.1) && e.2 != 0))
        { reason := .reserved, block := b.1, instr := e.1 / 8 }
    else firstBad (enumL b.2) fun w => failIf (rejects w.2 .reserved)
      { reason := .reserved, block := b.1, instr := w.1 }).or <|
  (firstBad (enumL m.inports) fun w => failIf (bf w.2 0 31 != 0 || bf w.2 31 3 == 0) { reason := .reserved, item := w.1 }).or <|
  (firstBad (enumL m.routes) fun w => failIf (bf w.2 0 6 != 0) { reason := .reserved, item := w.1 }).or <|
  firstBad (enumL m.pats) fun r => failIf (patReserved r.2) { reason := .reserved, item := r.1 }

/-- R51, TYPE, with the geometry of in-port and vconfig records (R28, R67). DEDUCED (log 22). -/
def checkType (m : Image) : Option Bad :=
  (wordBad m .type).or <|
  (firstBad (enumL m.inports) fun w =>
    let t := tyOfCode (bf w.2 38 4)
    failIf (match geomOfCode (bf w.2 34 4) with
      | some g => t != .none && !pairOk t g
      | none => true) { reason := .type, item := w.1 }).or <|
  firstBad (enumL m.vcfgs) fun r => failIf (geomOfCode (bf (leNat (r.2.take 16)) 28 4)).isNone { reason := .type, item := r.1 }

/-- The matching slots of a word (R24). -/
def matchSlots (f : Fields) : List Nat := if f.ar == 2 then [f.slot] else if f.ar == 3 then [f.slot, f.slot + 1] else []

/-- R51, MATCH_SLOT, and the variable slots of R112. -/
def checkSlots (m : Image) : Option Bad :=
  firstBad m.codeBlocks fun b =>
    let size := descFsize (m.descOf b.1)
    firstBad (enumL b.2) fun w =>
      let f := w.2
      let earlier := (b.2.take w.1).flatMap matchSlots
      let all := b.2.flatMap matchSlots
      let var := bf f.aux 0 8
      failIf ((matchSlots f).any (fun x => decide (size ≤ x) || earlier.contains x) ||
        ((f.opc == 0x0D || f.opc == 0x0E) && (decide (size ≤ var) || all.contains var)))
        { reason := .matchSlot, block := b.1, instr := w.1 }

/-- R51, DEST. DEDUCED (log 30). -/
def checkDest (m : Image) : Option Bad :=
  (firstBad m.codeBlocks fun b => firstBad (enumL b.2) fun w =>
    let f := w.2
    failIf (rejects f.toNat .dest ||
      [f.d0, f.d1, f.d2].any (fun d => !fieldOk m.routed b.2 (m.holders b.1) d))
      { reason := .dest, block := b.1, instr := w.1 }).or <|
  (firstBad (enumL m.inports) fun w =>
    let ws := ((m.codeBlocks.find? fun b => b.1 == bf w.2 52 6).map fun b => b.2).getD []
    failIf (bf w.2 43 2 == 3 || !targetOk ws (bf w.2 45 7) (bf w.2 43 2)) { reason := .dest, item := w.1 }).or <|
  firstBad (enumL m.routes) fun w =>
    let same := (m.routes.take w.1).filter fun x => bf x 50 14 == bf w.2 50 14
    failIf (bf w.2 40 10 == 0 || !m.region.contains (bf w.2 56 8) || decide (8 ≤ same.length) ||
      same.any fun x => bf x 40 10 != bf w.2 40 10) { reason := .dest, item := w.1 }

def isVrun (f : Fields) : Bool := f.opc == 0xCA || f.opc == 0xCB

/-- R51, LANE_WORD: the VIDs of VRUN and VRUNS words, then the vconfig records. DEDUCED (log 147). -/
def checkLane (m : Image) : Option Bad :=
  (firstBad m.instrs fun w => failIf (isVrun w.2.2.1 && (m.vcfg? (bf w.2.2.1.aux 0 4)).isNone)
    { reason := .laneWord, block := w.1, instr := w.2.1 }).or <|
  firstBad (enumL m.vcfgs) fun r => match vconfigLane r.2 with
    | some st => some { reason := .laneWord, lane := st, item := r.1 }
    | none => none

/-- R51, TABLE_RANGE: named tables, table entries for each reader, copy records (R211). -/
def checkTable (m : Image) : Option Bad :=
  firstBad m.blocks fun b =>
    if descTbl (m.descOf b.1) then
      firstBad ((entriesOf b.2).take (descExits (m.descOf b.1))) fun e =>
        failIf ((m.readers b.1).any fun r => !fieldOk m.routed ((m.words r).map Fields.ofNat) (m.holders r) (e.2 % 2 ^ 11))
          { reason := .tableRange, block := b.1, instr := e.1 / 8 }
    else firstBad (enumL b.2) fun w =>
      let f := Fields.ofNat w.2
      failIf ((match tableRead f with
        | some t => !(descValid (m.descOf t) && descTbl (m.descOf t))
        | none => false) || (decide (0x144 ≤ f.opc) && decide (f.opc ≤ 0x147) && decide (m.pats.length ≤ bf f.aux 0 10)))
        { reason := .tableRange, block := b.1, instr := w.1 }

/-- R153, R162: a VRUN or VRUNS supplies tile B exactly when its vconfig reads it, and an output tile only to a sink. -/
def runFormOk (v : VCfg) (f : Fields) : Bool :=
  let form := bf f.mod 0 2
  let gives := if f.opc == 0xCA then form == 1 || form == 3 else f.ar == 2
  v.readsB == gives && !(f.opc == 0xCA && decide (2 ≤ form) && v.oty == .none)

/-- R51: the binding of an in-port that feeds a VRUN or VRUNS. -/
def runPortOk (v : VCfg) (f : Fields) (w : Nat) : Bool :=
  let out := f.opc == 0xCA && decide (2 ≤ bf f.mod 0 2) && bf w 43 2 == f.ar - 1
  bf w 31 3 == 2 &&
    (!out || ((tyOfCode (bf w 38 4) == .none || tyOfCode (bf w 38 4) == v.oty) && bf w 34 4 == geomCode v.obg))

/-- The outputs of a core that leave by an out-port: word and output number; a table target counts as D0. -/
def Image.emitters (m : Image) (core oport : Nat) : List (Fields × Nat) :=
  let d := 2 * 2 ^ 9 + oport * 8
  (m.instrs.filter fun w => (m.holders w.1).contains core).flatMap fun w =>
    let f := w.2.2.1
    let own := ((enumL [f.d0, f.d1, f.d2]).filter fun x => x.2 == d).map fun x => (f, x.1)
    let tbl := match tableRead f with
      | some t => if (entriesOf (m.words t)).any fun e => e.2 % 2 ^ 11 == d then [(f, 0)] else []
      | none => []
    own ++ tbl

/-- A route entry that stays on the package, into the graph being loaded. -/
def Image.own (m : Image) (w : Nat) : Bool := bf w 6 8 == m.cid && m.region.contains (bf w 20 8)

/-- R51, CID: the slot of the target core that a DCID names, armed now. -/
def State.armedWith (s : State) (core cid : Nat) : Option CSlot :=
  (s.region? core).bind fun r => r.slots.find? fun k => (k.state == .armed || k.state == .active) && k.cid == cid

def State.staysHere (s : State) (w : Nat) : Bool := bf w 28 12 == 0xFFF || bf w 28 12 == s.plat.pkg

/-- R51, EDGE_FORMAT: VRUN forms, in-port bindings, route entries, vconfig records. DEDUCED (log 146). DEDUCED (log 147). -/
def checkFormat (s : State) (m : Image) : Option Bad :=
  (firstBad m.instrs fun w => failIf (isVrun w.2.2.1 && (match m.vcfg? (bf w.2.2.1.aux 0 4) with
    | some v => !runFormOk v w.2.2.1
    | none => false)) { reason := .edgeFormat, block := w.1, instr := w.2.1 }).or <|
  (firstBad (enumL m.inports) fun w =>
    let f := (((m.codeBlocks.find? fun b => b.1 == bf w.2 52 6).bind fun b => b.2[bf w.2 45 7]?).getD (Fields.ofNat 0))
    failIf (isVrun f && (match m.vcfg? (bf f.aux 0 4) with
      | some v => !runPortOk v f w.2
      | none => false)) { reason := .edgeFormat, item := w.1 }).or <|
  (firstBad (enumL m.routes) fun w =>
    if !s.staysHere w.2 then none else
      let ports := if m.own w.2 then some m.inports else (s.armedWith (bf w.2 20 8) (bf w.2 6 8)).map fun k => k.inports.map BitVec.toNat
      match ports with
      | none => none
      | some l =>
        let b := l.reverse.find? fun x => bf x 58 6 == bf w.2 14 6
        failIf ((m.emitters (bf w.2 56 8) (bf w.2 50 6)).any fun e => match b with
          | some x => !agrees (outClass m e.1 e.2) x
          | none => true) { reason := .edgeFormat, item := w.1 }).or <|
  firstBad (enumL m.vcfgs) fun r => match vconfigFormat r.2 with
    | some st => some { reason := .edgeFormat, lane := st, item := r.1 }
    | none => none

/-- R51, CID, with R259. -/
def checkCid (s : State) (m : Image) (ld : Load) : Option Bad :=
  (failIf (m.cid == 0 || (match s.regionOf m.region with
    | some r => (enumL r.slots).any fun k => k.1 != ld.slot && k.2.state != .empty && k.2.cid == m.cid
    | none => false)) { reason := .cid }).or <|
  firstBad (enumL m.routes) fun w => failIf
    (s.staysHere w.2 && !m.own w.2 && (s.armedWith (bf w.2 20 8) (bf w.2 6 8)).isNone) { reason := .cid, item := w.1 }

/-- R51, CAPACITY. -/
def checkCapacity (m : Image) : Option Bad :=
  (firstBad (enumL m.vcfgs) fun r => failIf
    (decide (16 ≤ r.1) || ((m.vcfgs.take r.1).any fun x => (vcfgOf x).vid == (vcfgOf r.2).vid))
    { reason := .capacity, item := r.1 }).or <|
  (firstBad (enumL m.consts) fun w => failIf (decide (1024 ≤ w.1) || bf w.2 48 16 != w.1) { reason := .capacity, item := w.1 }).or <|
  failIf (decide (1024 < m.pats.length)) { reason := .capacity, item := 1024 }

/-- R51: every check on a whole image, in order. DEDUCED (log 28). -/
def validate (s : State) (ld : Load) (bs : List Byte) : Except Bad Image :=
  if !headerOk bs ld.slot then .error { reason := .header }
  else
    let m := imageOfBytes bs
    let bad :=
      (checkBusy s m ld).or <| (checkPriv m ld).or <| (checkDesc s m ld).or <| (wordBad m .opcUnassigned).or <|
      (checkArity m ld).or <| (checkReserved m).or <| (checkType m).or <| (checkSlots m).or <| (checkDest m).or <|
      (checkLane m).or <| (checkTable m).or <| (checkFormat s m).or <| (checkCid s m ld).or (checkCapacity m)
    match bad with
    | some b => .error b
    | none => .ok m

end Sys2Proof.Machine
end

