-- ==== Sys2Proof/Machine/Regions.lean ====
section
/-! DEFINITION. Regions and their configuration slots (R251, R259 to R261): CLOAD (R229), CSEL (R230), CSWT (R231), CFREE
(R232) and the events that complete them; sweeps of the region control network and PHCLOSE (R115, R329, R330). -/

namespace Sys2Proof.Machine

/-- R259: the ACTIVE slot of a region. -/
def Region.active (g : Region) : Option Nat := ((enumL g.slots).find? fun k => k.2.state == .active).map fun k => k.1

/-- R230: CSELs that wait. -/
def Region.pending (g : Region) : List Switch := g.waits.filter fun w => w.op == 0

/-- R231, R261: the slot that arrivals of an instant go to: that of the latest CSWT whose T has come, else the ACTIVE one. -/
def Region.activeAt (g : Region) (now : Nat) : Option Nat :=
  match (g.waits.filter fun w => w.op == 1 && decide (w.instant ≤ now)).foldl
      (fun (b : Option Switch) w => match b with
        | some x => if x.instant ≤ w.instant then some w else b
        | none => some w) none with
  | some w => some w.slot
  | none => g.active

/-- R230, R233: the slot that will be ACTIVE once the CSELs that wait have been applied. -/
def Region.target (g : Region) : Option Nat :=
  match g.pending.getLast? with
  | some w => some w.slot
  | none => g.active

def Region.slot (g : Region) (i : Nat) : CSlot := g.slots.getD i {}

def State.modSlot (s : State) (home i : Nat) (f : CSlot → CSlot) : State :=
  s.modRegion home fun g => { g with slots := g.slots.modify i f }

def State.regionAt (s : State) (home : Nat) : Option Region := s.regions.find? fun g => g.home == home

/-- R259: makes a slot ACTIVE; the one before goes to ARMED. -/
def Region.activate (g : Region) (i : Nat) : Region :=
  { g with
    slots := (enumL g.slots).map fun k =>
      if k.1 == i then { k.2 with state := .active }
      else if k.2.state == .active then { k.2 with state := .armed } else k.2
    switches := if g.active == some i then g.switches else (g.switches + 1) % 65536 }

/-! ## Writing a slot -/

/-- R408: a code word, or a descriptor word, of a slot. -/
def inSlot (slot w : Nat) : Bool := if w < 32768 then w / 8192 == slot else (w - 32768) / 64 == slot

/-- Clears a slot's descriptors and code on one core (R29, R30). -/
def Core.dropSlot (k : Core) (slot : Nat) : Core :=
  { k with desc := k.desc.filter fun d => d.1 / 64 != slot, code := k.code.filter fun w => w.1 / 8192 != slot,
           codeUe := k.codeUe.filter fun w => !inSlot slot w, codeCe := k.codeCe.filter fun w => !inSlot slot w }

/-- R29, R30, R47: writes the blocks that an image places on a core. -/
def Core.writeSlot (k : Core) (core slot : Nat) (m : Image) : Core :=
  let mine := m.blocks.filter fun b => (m.holders b.1).contains core
  let k := k.dropSlot slot
  { k with
    desc := k.desc ++ mine.map fun b => (slot * 64 + b.1, BitVec.ofNat 64 (m.descOf b.1))
    code := k.code ++ mine.flatMap fun b => ((enumL b.2).filter fun w => w.2 != 0).map fun w =>
      (slot * 8192 + b.1 * 128 + w.1, BitVec.ofNat 128 w.2) }

/-- R51, R259, R260: every core of the region arms the slot; it becomes ACTIVE where the region has no ACTIVE slot. -/
def State.armSlot (s : State) (home slot : Nat) (m : Image) : State :=
  let s := m.region.foldl (fun s c => s.modCore c fun k => k.writeSlot c slot m) s
  s.modRegion home fun g =>
    let k : CSlot :=
      { state := if g.active.isNone && slot != 3 then .active else .armed, cid := m.cid,
        vcfg := m.vcfgs.map fun r => ((vcfgOf r).vid, r), pats := m.pats, inports := m.inports.map (BitVec.ofNat 64),
        routes := m.routes.map (BitVec.ofNat 64), placed := m.places.map fun w => (w % 64, bf w 16 8) }
    { g with slots := g.slots.set slot k }

/-- R251, R259: a CLOAD claims the slot of its image's region, and creates the region where none has those cores. -/
def State.claim (s : State) (tenant slot : Nat) (m : Image) : State :=
  let home := m.region.headD 0
  let mark (g : Region) : Region := { g with slots := g.slots.set slot { state := .loading, cid := m.cid } }
  match s.regionOf m.region with
  | some g => s.modRegion g.home mark
  | none => { s with regions := s.regions ++ [mark { home := home, cores := m.region, tenant := tenant }] }

/-- R232, R251: empties a slot on every core; a region with four empty slots ends. -/
def State.emptySlot (s : State) (home slot : Nat) : State :=
  match s.regionAt home with
  | none => s
  | some g =>
    let s := g.cores.foldl (fun s c => s.modCore c fun k => k.dropSlot slot) s
    let s := s.modSlot home slot fun _ => {}
    { s with regions := s.regions.filter fun r => r.home != home || r.slots.any fun k => k.state != .empty }

/-! ## CLOAD -/

/-- How the checks of a load ended; a load that fails may have taken the slot of its image's region. -/
inductive Loaded where
  | unread (st : Nat)
  | bad (w : Word) (took : Option Image)
  | good (m : Image) (bytes : List Byte)
  deriving DecidableEq, Repr

/-- R53: the image whose slot a load takes, the first to reach its home core: its header stands, the slot is empty, and
the cores make a region. -/
def State.takes (s : State) (ld : Load) (bytes : List Byte) : Option Image :=
  let m := imageOfBytes bytes
  if headerOk bytes ld.slot && (checkBusy s m ld).isNone && ((s.regionOf m.region).isSome || (checkCores s m ld).isNone) &&
    !m.region.isEmpty then some m else none

/-- The checks on bytes already read: the header first, as only it says how long the image is. -/
def State.judge (s : State) (ld : Load) (bytes : List Byte) : Loaded :=
  match validate s ld bytes with
  | .ok m => .good m bytes
  | .error b => .bad b.word (s.takes ld bytes)

/-- R229, R335: a CLOAD record is to read `n` bytes at its address operand, each granule as one event. -/
def State.readImage (s : State) (core : Nat) (e : Eng) (n pos : Nat) : State :=
  match (s.asFired e).resolve e.site { spaces := [0, 1, 2] } e.l.val n with
  | .error st => s.modEngRec core e.idx fun e => { e with fail := st, moves := [] }
  | .ok t => s.modEngRec core e.idx fun e =>
      { e with pos := pos, moves := [{ src := granulesIn t.parts, src0 := granulesIn t.parts, len := n, since := s.wall }] }

/-- R229: a CLOAD record starts, or starts again after a freeze: its image's first 32 bytes tell how long the image is. -/
def State.startLoad (s : State) (core : Nat) (e : Eng) : State := (s.engStart core e.idx).readImage core e 32 0

/-- R51, R53: an image that has been read is checked, and takes the slot. -/
def State.judgeLoad (s : State) (core : Nat) (e : Eng) (slot : Nat) (bytes : List Byte) : State :=
  let priv := descPriv ((s.core core).descOf e.site.cslot e.site.block)
  let ld : Load := { slot := slot, priv := priv, tenant := s.tenantOf e.site.ctx }
  let s := s.modEngRec core e.idx fun e => { e with pos := 2, moves := [] }
  match s.judge ld bytes with
  | .unread st => s.modEngRec core e.idx fun e => { e with fail := st }
  | .bad w none => s.modEngRec core e.idx fun e => { e with word := w }
  | .bad w (some m) => (s.claim ld.tenant slot m).modEngRec core e.idx fun e =>
      { e with word := w, row := m.region.headD 0, claimed := true }
  | .good m bs => (s.claim ld.tenant slot m).modEngRec core e.idx fun e =>
      { e with buf := Memory.setMany [] 0 bs, total := bs.length, row := m.region.headD 0, claimed := true }

/-- R51, R229: what a CLOAD record has read is used: the header for the whole image, the image for its checks. -/
def State.goOnLoad (s : State) (core : Nat) (e : Eng) (slot : Nat) : State :=
  let m := e.moves.headD {}
  let bytes := Memory.getMany m.got 0 m.len
  if e.pos != 0 then s.judgeLoad core e slot bytes
  else if !headOk (leNat bytes) slot then
    s.modEngRec core e.idx fun e => { e with word := Bad.word { reason := .header }, pos := 2, moves := [] }
  else s.readImage core e (headLength (leNat bytes)) 1

/-- CLOAD, R229, R348. -/
def execCload (p : Par) (cs : BitVec 2) (s : State) : Host.Outcome State Fault Refusal :=
  s.cmdFiring p latGraph [s.cur.l] fun s =>
    if !isRead s.cur.l then s.failing p latGraph stFormat [s.cur.l]
    else
      let site := s.cur.site
      let i := (s.freeRec site.core).getD 0
      let s := s.command p { opc := 0x18B, l := s.cur.l, kind := .cload cs.toNat }
      match s.eng? site.core i with
      | some e => s.startLoad site.core e
      | none => s

/-- CLOAD_COMPLETE, R229: a load whose bytes have been read goes on; then the slot is armed on every core, or the load ends with its first failure. -/
def execCloadComplete (core : Nat) (recd : Nat) (s : State) : Host.Outcome State Fault Refusal :=
  match s.eng? core recd with
  | none => .next s
  | some e =>
    match e.kind with
    | .cload slot =>
      if !s.engRuns e then .next s
      else if e.step == .waiting then .next (s.startLoad core e)
      else if e.fail != 0 then .next (s.failCommand core e e.fail [e.l])
      else if !e.allRead then .next s
      else if e.pos < 2 then .next (s.goOnLoad core e slot)
      else
        let s := if e.total != 0 then s.armSlot e.row slot (imageOfBytes (Memory.getMany e.buf 0 e.total))
          else if e.claimed then s.unclaim e.row slot else s
        .next (s.endCommand core e (bf e.word.toNat 56 8) (e.spread (scalarTok e.site e.word)) [e.l])
    | _ => .next s

/-- R51, PRIV: the management processor loads an image into slot 3; a failing image changes nothing. DEDUCED (log 92). -/
def State.manageLoad (s : State) (tenant : Nat) (bytes : List Byte) : State :=
  match s.judge { slot := 3, priv := true, tenant := tenant } bytes with
  | .good m _ => (s.claim tenant 3 m).armSlot (m.region.headD 0) 3 m
  | _ => s

/-! ## CSEL, CSWT, CFREE -/

/-- R230: the value of a decision token. -/
def decisionWord (seq cid old new : Nat) : Word :=
  BitVec.ofNat 64 (seq % 65536 * 2 ^ 48 + cid * 2 ^ 40 + old * 2 ^ 32 + new)

/-- A slot that CSEL and CSWT may name. -/
def CSlot.ready (k : CSlot) : Bool := k.state == .armed || k.state == .active

/-- A firing that reads L in a region. -/
def State.slotFiring (s : State) (p : Par) (k : State → Region → State) : Host.Outcome State Fault Refusal :=
  s.memFiring p [s.cur.l] [s.cur.l] fun s =>
    match s.region? s.cur.site.core with
    | none => s.failing p latGraph stFormat [s.cur.l]
    | some g => k s g

/-- CSEL, R230. DEDUCED (log 91). -/
def execCsel (p : Par) (s : State) : Host.Outcome State Fault Refusal :=
  s.slotFiring p fun s g =>
    let new := s.cur.l.val.toNat % 4
    let site := s.cur.site
    let used := [s.cur.l]
    if new == 3 then s.failing p latGraph stPerm used
    else if !(g.slot new).ready then s.failing p latGraph stFormat used
    else
      let old := g.target.getD new
      let n := g.switches + g.pending.length
      let go (s : State) (n : Nat) : State :=
        s.finish p latGraph (spread p (mkTok site kDecision (decisionWord n (g.slot new).cid old new))) used
      if old == new then go s n
      else
        let w : Switch := { op := 0, no := g.selSeq + 1, slot := new, site := site, d0 := p.d0, d1 := p.d1, d2 := p.d2 }
        go (s.modRegion g.home fun g => { g with waits := g.waits ++ [w], selSeq := g.selSeq + 1 }) (n + 1)

/-- CSWT, R231. DEDUCED (log 89). -/
def execCswt (p : Par) (cs : BitVec 2) (s : State) : Host.Outcome State Fault Refusal :=
  s.slotFiring p fun s g =>
    let used := [s.cur.l]
    let t := s.cur.l.val.toNat
    if cs == 3 then s.failing p latGraph stPerm used
    else if t < s.gtc + 2000 then s.failing p latGraph stExtentBound used
    else if !(g.slot cs.toNat).ready then s.failing p latGraph stFormat used
    else
      let w : Switch := { op := 1, slot := cs.toNat, instant := t, site := s.cur.site, d0 := p.d0, d1 := p.d1, d2 := p.d2 }
      (s.modRegion g.home fun g => { g with waits := g.waits ++ [w] }).finish p latGraph [] used

/-- CFREE, R232. DEDUCED (log 90). -/
def execCfree (p : Par) (cs : BitVec 2) (s : State) : Host.Outcome State Fault Refusal :=
  s.firing p latGraph [s.cur.l] fun s =>
    let used := [s.cur.l]
    let site := s.cur.site
    match s.region? site.core with
    | none => s.finish p latGraph (spread p (scalarTok site 0)) used
    | some g =>
      let st := (g.slot cs.toNat).state
      let named := g.waits.any fun w => decide (w.op < 2) && w.slot == cs.toNat
      if st == .active || st == .loading || named then s.failing p latGraph stPerm used
      else if st == .empty then s.finish p latGraph (spread p (scalarTok site 0)) used
      else
        let w : Switch := { op := 2, slot := cs.toNat, site := site, d0 := p.d0, d1 := p.d1, d2 := p.d2 }
        let s := s.modRegion g.home fun g => { g with waits := g.waits ++ [w] }
        (s.modSlot g.home cs.toNat fun k => { k with state := .freeing }).finish p latGraph [] used

/-- The scalar 0 of a CSWT or CFREE that completes. -/
def State.emitSwitch (s : State) (w : Switch) : State :=
  s.emitAll w.site latGraph 0 [(w.d0, scalarTok w.site 0), (w.d1, scalarTok w.site 0), (w.d2, scalarTok w.site 0)]

/-- R230: a CSEL holds an arrival at an in-port. -/
def Region.holds (g : Region) (q : QTok) : Bool := g.pending.any fun w => decide (w.no ≤ q.sel)

/-- R230, R259: an activation, a token or an engine command of a slot on some core of a region. -/
def State.slotBusy (s : State) (g : Region) (slot : Nat) : Bool :=
  let ctxHere (c : Nat) : Bool := match s.ctx? c with
    | some x => x.cslot == slot
    | none => false
  let ofSlot (q : QTok) : Bool := g.cores.contains q.core && (match q.dst with
    | .frame => q.cslot == slot
    | .inject _ c _ => ctxHere c
    | .inport _ _ _ => q.bound == some slot && !g.holds q)
  (g.cores.any fun c =>
    let k := s.core c
    (k.frm.frames.any fun f => f.cslot == slot) || (k.frm.fifo.any fun r => r.cslot == slot) ||
      (k.eng.recs.any fun e => e.site.cslot == slot) || k.tok.inq.any ofSlot) ||
    s.flight.any ofSlot ||
    s.ms.reqs.any fun r => g.cores.contains r.site.core && r.site.cslot == slot && decide (r.site.ctx < 2 ^ 16) && !r.noEntry

/-- R334, R344: a saved context holds activations, commands, accesses or tokens of a slot. -/
def State.savedIn (s : State) (g : Region) (slot : Nat) : Bool :=
  s.ctxs.any fun c => c.home == g.home && ((c.saved.frames.any fun f => f.2.cslot == slot) ||
    (c.saved.engs.any fun e => e.2.1.site.cslot == slot) || (c.saved.asks.any fun r => r.2.cslot == slot) ||
    (c.saved.reqs.any fun r => r.site.cslot == slot) || c.saved.toks.any fun t => match t.2.2.dst with
      | .frame => t.2.2.cslot == slot
      | _ => c.cslot == slot)

/-- CSEL_SWITCH, R230: the oldest CSEL that waits is applied once nothing of the old slot is left in the region. DEDUCED (log 91). -/
def execCselSwitch (home : Nat) (s : State) : Host.Outcome State Fault Refusal :=
  match s.regionAt home with
  | none => .next s
  | some g =>
    match g.pending.head? with
    | none => .next s
    | some w =>
      let busy := match g.active with
        | some old => old != w.slot && (s.slotBusy g old || s.savedIn g old)
        | none => false
      if busy then .next s
      else .next (s.modRegion home fun g => ({ g with waits := g.waits.erase w } : Region).activate w.slot)

/-- CSWT_INSTANT, R231: the earliest CSWT whose T has come. DEDUCED (log 89). -/
def execCswtInstant (home : Nat) (s : State) : Host.Outcome State Fault Refusal :=
  match s.regionAt home with
  | none => .next s
  | some g =>
    let due := g.waits.filter fun w => w.op == 1 && decide (w.instant ≤ s.gtc)
    match due.foldl (fun (b : Option Switch) w => match b with
        | some x => if w.instant < x.instant then some w else b
        | none => some w) none with
    | none => .next s
    | some w =>
      .next ((s.modRegion home fun g => ({ g with waits := g.waits.erase w } : Region).activate w.slot).emitSwitch w)

/-- CFREE_COMPLETE, R232: a slot that is being freed and no longer occupied becomes EMPTY. DEDUCED (log 90). -/
def execCfreeComplete (home : Nat) (s : State) : Host.Outcome State Fault Refusal :=
  match s.regionAt home with
  | none => .next s
  | some g =>
    match (enumL g.slots).find? fun k => k.2.state == .freeing && !s.slotBusy g k.1 && !s.savedIn g k.1 with
    | none => .next s
    | some (i, _) =>
      let done := g.waits.filter fun w => w.op == 2 && w.slot == i
      let s := done.foldl (fun s w => s.emitSwitch w) s
      let s := s.modRegion home fun g => { g with waits := g.waits.filter fun w => !(w.op == 2 && w.slot == i) }
      .next (s.emptySlot home i)

/-! ## Sweeps and PHCLOSE -/

/-- The operands that are parked in a frame (R31): the second slot of a match follows one with two presence bits. -/
def Frame.parked (f : Frame) : List Tok :=
  (enumL f.slots).flatMap fun x =>
    let n := bf x.2.pres 0 1 + bf x.2.pres 1 1 + bf x.2.pres 2 1
    if n == 0 then [] else if n == 1 then [x.2.tok] else [x.2.tok, (f.slot (x.1 + 1)).tok]

/-- The phases of the operands that an engine command holds (R329). -/
def Eng.phases (e : Eng) : List Nat :=
  [e.l.phase, e.r.phase, e.c.phase, e.site.phase] ++
    (e.stream.rows.flatMap fun r => [r.a.phase, (r.b.getD {}).phase]) ++
    e.stream.mrows.flatMap fun r => [r.l.phase, (r.r.getD {}).phase]

/-- R329: the phases of the tokens held in a region. DEDUCED (log 46). -/
def State.phasesHeld (s : State) (g : Region) : List Nat :=
  let inG (c : Nat) : Bool := g.cores.contains c
  let local' := g.cores.flatMap fun c =>
    let k := s.core c
    let u := k.tok
    let qs := u.handlerQ ++ u.fifo0 ++ u.fifo1 ++ u.fifo2 ++ u.fifo3 ++ u.inq
    let asks := k.frm.fifo ++ k.frm.loops.flatMap fun l => l.pend
    (qs.map fun q => q.tok.phase) ++ (k.frm.frames.flatMap fun f => f.parked.map fun t => t.phase) ++
      (asks.flatMap fun r => r.site.phase :: r.give.map fun x => x.2.2.phase) ++
      ((k.tile.fifo ++ k.tile.accFifo).map fun r => r.site.phase) ++ k.eng.recs.flatMap Eng.phases
  local' ++
    ((s.flight.filter fun q => inG q.core && inG q.ecore && q.epkg == s.plat.pkg).map fun q => q.tok.phase) ++
    ((s.ms.reqs.filter fun r => inG r.site.core && !r.noEntry && decide (r.site.ctx < 2 ^ 16)).flatMap fun r => r.phases) ++
    (s.ctxs.filter fun c => c.home == g.home).flatMap (fun c =>
      ((c.drains ++ c.qwaits).map fun w => w.site.phase) ++ (c.traps.map fun t => t.site.phase) ++
        (match c.handler with
          | some t => [t.site.phase]
          | none => [])) ++
    g.waits.map fun w => w.site.phase

/-- REGION_SWEEP, R330: one sweep counts each phase, and carries the free frames of every core (R104). -/
def execRegionSweep (home : Nat) (s : State) : Host.Outcome State Fault Refusal :=
  match s.regionAt home with
  | none => .next s
  | some g =>
    let held := s.phasesHeld g
    let quiet (p : Nat) : Bool := !held.contains p && Table.get g.gained p == Table.get g.swept p
    .next (s.modRegion home fun g =>
      { g with closes := g.closes.map fun w => { w with quiet := if quiet w.ph then w.quiet + 1 else 0 }, swept := g.gained,
               freeSeen := g.cores.map fun c => (c, (s.freeNow c).1, (s.freeNow c).2) })

/-- PHCLOSE_RETURN, R115: the i-th PHCLOSE that waits, once two successive sweeps found its phase quiet. -/
def execPhcloseReturn (i : Nat) (s : State) : Host.Outcome State Fault Refusal :=
  match (s.regions.flatMap fun g => g.closes.map fun w => (g.home, w))[i]? with
  | none => .next s
  | some (home, w) =>
    if w.quiet < 2 || !s.ctxRuns w.site.ctx then .next s
    else
      let t : Tok := { w.tok with phase := 0, prio := w.site.prio }
      let s := s.modRegion home fun g => { g with closes := g.closes.erase w }
      .next (s.settle w.site latGraph 0 [(w.d0, t), (w.d1, t), (w.d2, t)] [w.tok])

end Sys2Proof.Machine
end

