-- ==== Sys2Proof/Machine/Arrivals.lean ====
section
/-! DEFINITION. Tokens at their destinations: acceptance (R17, R327), quarantine reports, in-ports (R48, R248, R255, R257,
R261, R262, R321, R426), tile transfers (R137), frame grants (R104, R110, R250, R254, R255, R334), promotion (R326). -/

namespace Sys2Proof.Machine

/-! ## Networks -/

/-- Two tokens with one target: their order in a stream counts (R97). -/
def sameTarget (a b : QTok) : Bool :=
  a.core == b.core && a.dst == b.dst && a.frame == b.frame && a.cslot == b.cslot && a.block == b.block &&
    a.instr == b.instr && a.port == b.port

/-- The streams in which tokens keep an order: 1 what a token engine sends to its own frames (R301), from 2 on the
out-ports (R97), from `inPortStream` on the in-ports (R255), then the rows of VRUNS and MMAS nodes (`rowStream`, R164). -/
def inPortStream (core port : Nat) : Nat := 2 + 256 * 64 + core * 64 + port

/-- R97, R255, R301: no token that goes first is still on its way: in stream 1 one to the same port that is due earlier, or
at the same clk and fired before; from an out-port an earlier one to the same target; from an in-port an earlier one. -/
def State.streamFirst (s : State) (i : Nat) (q : QTok) : Bool :=
  q.stream == 0 || !((enumL s.flight).any fun x => x.1 != i && x.2.stream == q.stream &&
    ((decide (inPortStream 0 0 ≤ q.stream) && decide (q.stream < inPortStream 256 0)) || sameTarget x.2 q) &&
    (if q.stream == 1 then decide (x.2.due < q.due) || (x.2.due == q.due && decide (x.1 < i)) else decide (x.1 < i)))

/-- R137: the circuit of a token from an out-port: its sender, its route identifier and its target core. -/
def circuitOf (q : QTok) : Nat × Nat × Nat × Nat := (q.epkg, q.ecore, q.route, q.core)

/-- R137: a tile that has come in over a circuit and waits for its space holds back what follows on the circuit. -/
def State.circuitHeld (s : State) (q : QTok) : Bool :=
  q.route != 0 && q.dst != .frame && s.flight.any fun x => x.dst == .frame && x.tile.isSome && circuitOf x == circuitOf q

/-- R137: the last granule of a token's tile has not left its sender. -/
def State.leaving (s : State) (q : QTok) : Bool := match q.tile with
  | some img => q.epkg == s.plat.pkg && s.departing.any fun d => d.id == img.dep
  | none => false

/-- The i-th token in flight, when it may arrive now. DEDUCED (log 44). -/
def State.arriving (s : State) (i : Nat) : Option QTok :=
  match s.flight[i]? with
  | some q => if !q.held && decide (q.due ≤ s.clk q.core) && s.streamFirst i q && !s.circuitHeld q && !s.leaving q then some q else none
  | none => none

def State.dropFlight (s : State) (i : Nat) : State := { s with flight := s.flight.eraseIdx i }

/-- R426: traffic of a job from a package of its membership list, or from this package. -/
def State.memberOf (s : State) (tenant job pkg : Nat) : Bool :=
  pkg == s.plat.pkg || s.plat.members.any fun m => m.tenant == tenant && m.job == job && m.packages.contains pkg

/-- R426: the sender of a token may send to a context. -/
def State.admits (s : State) (ctx : Nat) (q : QTok) : Bool :=
  match s.ctx? ctx with
  | some c => s.memberOf c.tenant c.job q.epkg
  | none => true

/-- R257: a handle that enters a frame of another context without an image, on its own core, takes a copy of the tile. -/
def State.leavesCtx (s : State) (ctx : Nat) (q : QTok) : Bool :=
  q.tok.kind == kTile && q.tile.isNone && !(q.ectx == ctx && q.epkg == s.plat.pkg) && match s.tileOf? q.core q.tok.val with
    | some t => t.ctx != ctx
    | none => true

/-- R327: the spill ring of a context on a core is full. DEDUCED (log 43). -/
def State.ringFull (s : State) (core ctx : Nat) : Bool :=
  let u := (s.core core).tok
  let all := u.fifo0 ++ u.fifo1 ++ u.fifo2 ++ u.fifo3
  let mine := (all.filter fun q => s.ctxOfTok core q == ctx).length
  let others := all.length - mine
  decide (65536 + (8192 - min 8192 others) ≤ mine)

/-- R334: a frame number kept for a saved context. DEDUCED (log 44). -/
def State.frameSaved (s : State) (core n : Nat) : Bool := (s.core core).frm.reserved.any fun r => r.2 == n

/-- TOKEN_ACCEPT, R17: the i-th token in flight, addressed to a frame. DEDUCED (log 164). -/
def execTokenAccept (i : Nat) (s : State) : Host.Outcome State Fault Refusal :=
  match s.arriving i with
  | none => .next s
  | some q =>
    if q.dst != .frame || s.frameSaved q.core q.frame then .next s
    else
      let ok := s.tokenOk q.core q
      let ctx := s.ctxOfTok q.core q
      if ok && s.ringFull q.core ctx then .next s
      else if ok && !s.admits ctx q then .next ((s.dropFlight i).countDropped (dieOf q.core))
      else if ok && s.leavesCtx ctx q then
        let x := s.depart { core := q.core, ctx := ctx } q
        .next { x.2 with flight := x.2.flight.set i x.1 }
      else if q.tile.isSome then (if ok then .next s else .next ((s.dropFlight i).quarantine q.core q stRoute))
      else (s.dropFlight i).accept q.core q

/-- QUARANTINE_REPORT, R17: the i-th report reaches its core; one whose context has ended is dropped. DEDUCED (log 38). -/
def execQuarantineReport (i : Nat) (s : State) : Host.Outcome State Fault Refusal :=
  match s.reports[i]? with
  | none => .next s
  | some (_, ctx, st) => .next (({ s with reports := s.reports.eraseIdx i } : State).record ctx st)

/-- TILE_TRANSFER_RECEIVE, R137, R257: a token with a tile asks the receiving core for a tile of the same form; meanwhile
it holds back its circuit. One whose own RESIDUE is wrong is poison (R18). -/
def execTileTransferReceive (i : Nat) (s : State) : Host.Outcome State Fault Refusal :=
  match s.arriving i with
  | none => .next s
  | some q =>
    match q.tile with
    | none => .next s
    | some img =>
      let ctx := s.ctxOfTok q.core q
      if q.dst != .frame || s.frameSaved q.core q.frame || !s.tokenOk q.core q || !s.admits ctx q then .next s
      else if residue255 q.tok.val != q.tok.res then
        let site : Site := { core := q.core, phase := q.tok.phase, prio := q.tok.prio }
        let s := s.countResidue q.core
        .next { s with flight := s.flight.set i { q with tok := poisonTok s site stResidue, tile := none } }
      else
        let q' := { q with held := true }
        let s := { s with flight := s.flight.set i q' }
        .next (s.askTile q.core
          { site := { core := q.core, ctx := ctx, hnd := ((s.frame? q.core q.frame).map fun (f : Frame) => f.hnd).getD false },
            shape := { img.shape with acc := false }, why := 4, arrival := some q' })

/-! ## Instances and their homes (R247, R248) -/

/-- R247: the coordinates of a linear index, x0 first. -/
def coordsOf (levels : List (Nat × Nat × Nat)) (i : Nat) : List Nat :=
  (levels.foldr (fun l (acc : List Nat × Nat) => (acc.2 % max l.2.1 1 :: acc.1, acc.2 / max l.2.1 1)) ([], i)).1

/-- R248: the number and the count that the coordinates of a kind's levels form. -/
def kindIndex (levels : List (Nat × Nat × Nat)) (xs : List Nat) (kind : Nat) : Nat × Nat :=
  ((levels.zip xs).filter fun p => p.1.1 == kind).foldl (fun a p => (a.1 * p.1.2.1 + p.2, a.2 * p.1.2.1)) (0, 1)

/-- R248: the unit of a kind among those available. -/
def unitOf (u : Nat × Nat) (units : List Nat) : Option Nat := units[u.1 * units.length / max u.2 1]?

/-- R247, R311: kind codes. -/
def kindCore : Nat := 0
def kindDie : Nat := 2
/-- DEDUCED (log 47). -/
def kindDomain : Nat := 4

/-- R248: the packages of a job: those of its membership list, or this one alone. -/
def State.jobPkgs (s : State) (tenant job : Nat) : List Nat :=
  match s.plat.members.find? fun m => m.tenant == tenant && m.job == job with
  | some m => (List.range 4096).filter fun p => m.packages.contains p
  | none => [s.plat.pkg]

/-- R248: the package and the core on which an instance has its home. -/
def homeOf (pkgs cores : List Nat) (levels : List (Nat × Nat × Nat)) (xs : List Nat) : Nat × Nat :=
  let pkg := (unitOf (kindIndex levels xs kindDomain) pkgs).getD 0
  let dies := (cores.map dieOf).eraseDups
  let onDie := if levels.any fun l => l.1 == kindDie then
      match unitOf (kindIndex levels xs kindDie) dies with
      | some d => cores.filter fun c => dieOf c == d
      | none => cores
    else cores
  (pkg, (unitOf (kindIndex levels xs kindCore) onDie).getD 0)

def instCount (levels : List (Nat × Nat × Nat)) : Nat := levels.foldl (fun a l => a * l.2.1) 1

/-- The home of an instance of a context. -/
def State.instHome (s : State) (c : Ctx) (i : Nat) : Nat × Nat :=
  let cores := ((s.regionAt c.home).map fun g => g.cores).getD []
  homeOf (s.jobPkgs c.tenant c.job) cores c.levels (coordsOf c.levels i)

/-! ## In-ports -/

/-- R48: fields of a binding. -/
def bindPortNo (w : Word) : Nat := bf w.toNat 58 6
def bindBlock (w : Word) : Nat := bf w.toNat 52 6
def bindNode (w : Word) : Nat := bf w.toNat 45 7
def bindOpnd (w : Word) : Nat := bf w.toNat 43 2
def bindNewFrame (w : Word) : Bool := bf w.toNat 42 1 == 1

/-- R48: the binding of an in-port in a slot: of two records for one in-port the later. DEDUCED (log 29). -/
def CSlot.port? (k : CSlot) (iport : Nat) : Option Word := k.inports.reverse.find? fun w => bindPortNo w == iport

/-- R48: the binding accepts a token. -/
def kindOk (w : Word) (q : QTok) : Bool :=
  if q.tok.kind == kScalar then bf w.toNat 31 1 == 1
  else if q.tok.kind == kCont then bf w.toNat 33 1 == 1
  else if q.tok.kind == kTile then
    -- a live handle's fields are those of its tile; a stale one has its own still
    let form : Nat × Nat := match q.tile with
      | some img => (tyCode img.shape.ty, geomCode img.shape.bg)
      | none => (bf q.tok.val.toNat 20 4, bf q.tok.val.toNat 24 4)
    bf w.toNat 32 1 == 1 && (bf w.toNat 38 4 == 15 || bf w.toNat 38 4 == form.1) && bf w.toNat 34 4 == form.2
  else true

/-- R48: what enters at the in-port: the token, or poison FORMAT with this core as origin. -/
def State.enterPort (s : State) (core : Nat) (w : Word) (q : QTok) : QTok × State :=
  if kindOk w q then (q, s)
  else
    let site : Site := { core := core, phase := q.tok.phase, prio := q.tok.prio }
    ({ q with tok := poisonTok s site stFormat, tile := none }, if q.tile.isNone then s.release core q.tok else s)

/-- R257: a handle that enters another context on its own core takes a copy of the tile with it. -/
def State.leaveCtx (s : State) (core ctx : Nat) (q : QTok) : QTok × State :=
  if s.leavesCtx ctx q then s.depart { core := core, ctx := ctx } q else (q, s)

/-- R262: the oldest context of a slot that runs (a frozen one still takes its arrivals, R359). -/
def State.oldest (s : State) (g : Region) (slot : Nat) : Option Ctx :=
  (s.ctxs.filter fun c => c.home == g.home && c.cslot == slot && (c.mode == .running || c.mode == .frozen)).foldl
    (fun (b : Option Ctx) c => match b with
      | some x => if c.order < x.order then some c else b
      | none => some c) none

/-- R262: the instance into which an arrival at a core goes. -/
def State.instFor (s : State) (c : Ctx) (core : Nat) (w : Word) : Nat :=
  if bindNewFrame w then
    ((List.range (instCount c.levels)).find? fun i => s.instHome c i == (s.plat.pkg, core)).getD 0
  else
    match (c.fixed.filter fun f => f.1 == bindBlock w && f.2.2.1 == core).map fun f => f.2.1 with
    | i :: l => l.foldl min i
    | [] => 0

/-- How an arrival at an in-port ends. -/
inductive PortEnd where
  /-- Held for a switch (R230). -/
  | held
  | refused (st : Nat)
  /-- R426: dropped. -/
  | dropped
  | bound (ctx inst : Nat) (w : Word)
  deriving DecidableEq, Repr

/-- R230, R231, R261: the instant of its arrival gives a token at an in-port its slot: the one of the last CSEL that waits,
which holds it, else the one ACTIVE at that instant. -/
def State.bindSlot (s : State) (q : QTok) : QTok :=
  match s.region? q.core with
  | none => q
  | some g => match g.pending.getLast? with
    | some w => { q with bound := some w.slot, sel := w.no }
    | none => { q with bound := g.activeAt s.gtc, sel := 0 }

/-- R108, R261, R262: binds an arrival at an in-port. DEDUCED (log 47). -/
def State.bindArrival (s : State) (q : QTok) : PortEnd :=
  match q.dst with
  | .frame => .refused stRoute
  | .inject iport ctx inst =>
    match s.ctx? ctx with
    | none => .refused stRoute
    | some c => match (s.cslot? q.core c.cslot).bind fun k => k.port? iport with
      | some w => .bound ctx inst w
      | none => .refused stRoute
  | .inport iport cid _ =>
    match s.region? q.core with
    | none =>
      -- R108: a core of another tenant, though in no region
      .refused (match q.etenant, (s.core q.core).tenant with
        | some t, some u => if t == u then stRoute else stPerm
        | _, _ => stRoute)
    | some g =>
      if q.etenant.any fun t => t != g.tenant then .refused stPerm
      else if g.holds q then .held
      else match q.bound with
        | none => .refused stRoute
        | some slot =>
          let k := g.slot slot
          if k.cid != cid then .refused stPerm
          else match k.port? iport, s.oldest g slot with
            | some w, some c => if s.memberOf c.tenant c.job q.epkg then .bound c.id (s.instFor c q.core w) w else .dropped
            | _, _ => .refused stRoute

/-- R261, R262, R271: the context that an arrival reaches: on its way, it is bound as it would be now; held for a switch, it goes
to the oldest context of the slot that it was bound to. -/
def State.arrivalCtx (s : State) (q : QTok) : Option Nat :=
  match q.dst with
  | .frame => none
  | .inject _ c _ => some c
  | .inport iport cid _ => match s.region? q.core with
    | none => none
    | some g =>
      let q := if q.bound.isNone then s.bindSlot q else q
      if q.etenant.any fun t => t != g.tenant then none
      else match q.bound with
        | none => none
        | some slot =>
          if (g.slot slot).cid != cid || ((g.slot slot).port? iport).isNone then none
          else match s.oldest g slot with
            | some c => if s.memberOf c.tenant c.job q.epkg then some c.id else none
            | none => none

def portOf (q : QTok) : Nat := match q.dst with
  | .inport p _ _ => p
  | .inject p _ _ => p
  | .frame => 64

/-- Delivers an arrival that its in-port has bound (R255, R262, R321): into the fixed frame, or, after a frame is asked
for, into a new one; `q` is out of every queue. -/
def State.deliverPort (s : State) (q : QTok) (ctx inst : Nat) (w : Word) : State :=
  match s.ctx? ctx with
  | none => s.quarantine q.core q stRoute
  | some c =>
    let a := s.enterPort q.core w q
    let b := a.2.leaveCtx q.core ctx a.1
    let q := { b.1 with cslot := c.cslot, block := bindBlock w, instr := bindNode w, port := bindOpnd w,
                        held := false, stream := inPortStream q.core (portOf q), due := b.2.clk q.core }
    let s := b.2
    if bindNewFrame w then
      if !s.holds q.core c.cslot (bindBlock w) then (s.quarantine q.core q stRoute).release q.core (if q.tile.isNone then q.tok else {})
      else
        let q := { q with dst := .inject (portOf q) ctx inst, held := true }
        let r : FrameReq := { site := { core := q.core, ctx := ctx }, why := .arrival (portOf q), ctx := ctx, cslot := c.cslot,
                              block := bindBlock w, inst := coordsOf c.levels inst }
        -- R255: it keeps its place ahead of the arrivals behind it at its in-port
        let before (x : QTok) : Bool := portOf x != portOf q
        (s.modTok q.core fun u => { u with inq := u.inq.takeWhile before ++ q :: u.inq.dropWhile before }).modFrm q.core fun u => { u with fifo := u.fifo ++ [r] }
    else
      match c.fixed.find? fun f => f.1 == bindBlock w && f.2.1 == inst with
      | none => (s.quarantine q.core q stRoute).release q.core (if q.tile.isNone then q.tok else {})
      | some f =>
        let q := { q with dst := .frame, core := f.2.2.1, frame := f.2.2.2 }
        let x := if f.2.2.1 != b.1.core then s.depart { core := b.1.core, ctx := ctx } q else (q, s)
        { x.2 with flight := x.2.flight ++ [x.1] }

/-- One arrival that has been taken from the network or from an input buffer. -/
def State.arrivePort (s : State) (q : QTok) : State :=
  match s.bindArrival q with
  | .held => s.modTok q.core fun u => { u with inq := u.inq ++ [{ q with held := true }] }
  | .refused st => (s.quarantine q.core q st).release q.core (if q.tile.isNone then q.tok else {})
  | .dropped => s.countDropped (dieOf q.core)
  | .bound ctx inst w => s.deliverPort q ctx inst w

/-- R230, R255: an earlier arrival at the same in-port stands in the input buffer. -/
def portBlocked (q : QTok) (before : List QTok) : Bool :=
  before.any fun x => portOf x == portOf q && x.core == q.core

/-- The arrivals that switches hold, core by core, with those ahead of each. -/
def State.heldArrivals (s : State) : List (QTok × List QTok) :=
  s.cores.flatMap fun k => (enumL k.tok.inq).map fun x => (x.2, k.tok.inq.take x.1)

/-- SOURCE_PORT_ARRIVAL, R255, R261, R262: the i-th token in flight, or beyond those the held arrivals. -/
def execSourcePortArrival (i : Nat) (s : State) : Host.Outcome State Fault Refusal :=
  if i < s.flight.length then
    match s.arriving i with
    | none => .next s
    | some q =>
      if q.dst == .frame then .next s
      else
        let inq := (s.core q.core).tok.inq
        let q := s.bindSlot q
        let u := s.dropFlight i
        if portBlocked q inq then .next (u.modTok q.core fun t => { t with inq := t.inq ++ [{ q with held := true }] })
        else .next (u.arrivePort q)
  else
    match s.heldArrivals[i - s.flight.length]? with
    | none => .next s
    | some (q, before) =>
      -- one that waits for its frame goes with FRAME_GRANT
      let waits := (s.core q.core).frm.fifo.any fun r => match q.dst, r.why with
        | .inject p c _, .arrival p' => p == p' && c == r.ctx
        | _, _ => false
      if waits || portBlocked q before || s.bindArrival q == .held then .next s
      else .next ((s.modTok q.core fun u => { u with inq := u.inq.erase q }).arrivePort { q with held := false })

/-! ## Frames -/

/-- R254, R359, R386: the request that the allocation FIFO grants next: the first whose context is not frozen or saved, or
that a step made. DEDUCED (log 45). -/
def State.nextAsk (s : State) (core : Nat) : Option FrameReq :=
  (s.core core).frm.fifo.find? fun r => match s.ctx? r.ctx with
    | some c => c.mode == .running || c.mode == .building || (c.mode == .frozen && r.site.step) || (c.mode == .restoring && match r.why with
      | .restore _ => true
      | _ => false)
    | none => false

/-- R104, R110: the operands into the new frame, the continuation to the destinations. -/
def State.fillFrame (s : State) (core n : Nat) (r : FrameReq) : State :=
  let due := s.clk core + latGraph
  let s := r.give.foldl (fun s g => s.deliver r.site core n r.cslot r.block g.1 g.2.1 due g.2.2) s
  let c := mkTok r.site kCont (contVal s.plat.pkg core n r.cslot r.block r.node r.port)
  s.emitAll r.site latGraph 1 [(r.d0, c), (r.d1, c), (r.d2, c)]

/-- R255: the arrival that asked for the frame goes into it. -/
def State.fillArrival (s : State) (core n iport : Nat) (r : FrameReq) : State :=
  let mine (q : QTok) : Bool := match q.dst with
    | .inject p c _ => p == iport && c == r.ctx
    | _ => false
  match (s.core core).tok.inq.find? mine with
  | none => s
  | some q =>
    let s := s.modTok core fun u => { u with inq := u.inq.erase q }
    { s with flight := s.flight ++ [{ q with dst := .frame, frame := n, held := false, due := s.clk core }] }

/-- R334: a restored frame takes its old number again. -/
def State.restoreFrame (s : State) (core : Nat) (f : Frame) : State :=
  s.modFrm core fun u =>
    { u with frames := u.frames ++ [f], free := u.free.filter fun n => n != f.num,
             reserved := u.reserved.filter fun r => r.2 != f.num }

/-- R254: grants one request. -/
def State.grantFrame (s : State) (core : Nat) (r : FrameReq) : State :=
  let u := s.modFrm core fun u => { u with fifo := u.fifo.erase r }
  let d := (s.core core).descOf r.cslot r.block
  match r.why with
  | .restore f => u.restoreFrame core f
  | .iter id =>
    let ix := (((s.core core).frm.loops.find? fun l => l.id == id).map fun l => l.nextix).getD 0
    match u.takeFrame core fun n => { newFrame n r.ctx r.cslot r.block d r.inst with loop := some id, iter := ix } with
    | none => s
    | some (n, u) =>
      (u.modFrm core fun x =>
        { x with loops := x.loops.map fun l => if l.id == id then { l with live := l.live + 1, nextix := l.nextix + 1 } else l }).fillFrame
          core n r
  | why =>
    match u.takeFrame core fun n =>
        { newFrame n r.ctx r.cslot r.block d r.inst with fixed := (match why with
          | .admission _ => true
          | _ => false) } with
    | none => s
    | some (n, u) =>
      match why with
      | .arrival iport => u.fillArrival core n iport r
      | .admission _ => u.modCtx r.ctx fun c => { c with fixed := c.fixed ++ [(r.block, r.node, core, n)] }
      | _ => u.fillFrame core n r

/-- The slots that a request needs, and whether they and a descriptor are free. -/
def State.askFits (s : State) (core : Nat) (r : FrameReq) : Bool :=
  let u := (s.core core).frm
  match r.why with
  | .restore f => decide (u.groups + ceilDiv f.slots.length 8 ≤ 4096)
  | _ => u.fits (descFsize ((s.core core).descOf r.cslot r.block))

/-- FRAME_GRANT, R254; a handler that waits for its frame goes first (R353). -/
def execFrameGrant (core : Nat) (s : State) : Host.Outcome State Fault Refusal :=
  match s.nextAsk core with
  | none => .next s
  | some r => if s.askFits core r && !s.entryAsks core then .next (s.grantFrame core r) else .next s

/-! ## Promotion -/

/-- TOKEN_PROMOTION, R326: the first token that has stood 2^20 clk in FIFO 1, 2 or 3 of a core. -/
def execTokenPromotion (core : Nat) (s : State) : Host.Outcome State Fault Refusal :=
  let u := (s.core core).tok
  match ([1, 2, 3].filterMap fun c => ((u.fifo c).find? fun q => decide (q.since + 2 ^ 20 ≤ s.clk core)).map fun q => (c, q)).head? with
  | none => .next s
  | some (c, q) => .next ((s.modTok core fun u => u.setFifo c ((u.fifo c).erase q)).file core (c - 1) q)

end Sys2Proof.Machine
end

