-- ==== Sys2Proof/Machine/Halts.lean ====
section
/-! DEFINITION. The end of a Cairn halt's stop on this package (R383 to R385). -/

namespace Sys2Proof.Machine

/-- R385: CAUSE_DOM is the report with the earliest word 1; a tie goes to the lower PKG; its NMORE is zero. -/
def Job.report (j : Job) (w0 w1 : Word) : Job :=
  let w0 := w0 &&& ~~~(0x1FF00 : Word)
  let first := !j.hasDom || decide (w1.toNat < j.dom1.toNat) ||
    (w1 == j.dom1 && decide (bf w0.toNat 52 12 < bf j.dom0.toNat 52 12))
  if first then { j with dom0 := w0, dom1 := w1, hasDom := true } else j

/-- The contexts of a job on this package. -/
def State.jobCtxs (s : State) (key : Nat) : List Ctx := s.ctxs.filter fun c => c.jobKey == key

/-- R383, R384, R385: once every context of a HALTING job has stopped, HALT_REMOTE takes its instant and the local cause
goes to every member. -/
def State.reportStop (s : State) (j : Job) : State :=
  let key := j.key
  if (s.jobCtxs key).any (fun c => c.mode == .running) || j.reported.contains s.plat.pkg then s
  else
    let w1 := if j.hasLocal then j.local1 else BitVec.ofNat 64 s.gtc
    let s := s.modJob key fun j =>
      { j.report j.local0 w1 with local1 := w1, hasLocal := true, reported := s.plat.pkg :: j.reported }
    (s.peers key).foldl (fun s p => s.send (.cause p key (j.local0 &&& ~~~(0x1FF00 : Word)) w1)) s

/-- R383, R428, R432: settled, with every report in or missing, the job is HALTED and vector 2 is raised; a job whose
HALT right has been revoked is armed at once. -/
def State.enterHalted (s : State) (j : Job) : State :=
  let key := j.key
  let all := (s.plat.pkg :: s.peers key).all fun p => j.reported.contains p
  if all && ((s.jobCtxs key).all fun c => c.mode != .frozen || c.settled) then
    (s.modJob key fun j =>
      if bf j.rights 3 1 == 1 then { j with state := .halted }
      else { j with state := .armed, resumeAt := s.gtc + 100000 }).msix (j.tenant + 1) 2
  else s

/-- R381, R383: every halt under way goes as far as it can. -/
def State.stopJobs (s : State) : State :=
  let halting (s : State) : List Job := s.plat.jobs.filter fun j => j.state == .halting
  let s := (halting s).foldl (fun s j => s.reportStop j) s
  (halting s).foldl (fun s j => s.enterHalted j) s

end Sys2Proof.Machine
end

