-- ==== Sys2Proof/Machine/Vector.lean ====
section
/-! DEFINITION. Vector runs (R157 to R161), VRUN, VRUNS and VSTAT (R162 to R166), and the fabric's two events. -/

namespace Sys2Proof.Machine

/-! ## A run -/

/-- R158: the vconfig that a firing names. -/
def State.vcfg (s : State) (site : Site) (cfg : Nat) : VCfg :=
  match (s.cslot? site.core site.cslot).bind fun k => k.vcfg.find? fun v => v.1 == cfg with
  | some v => vcfgOf v.2
  | none => {}

/-- The tile of an operand of a record, if it has one. -/
def State.operandTile (s : State) (core : Nat) (t : Option Tok) : Option Tile := t.bind fun t => s.tileOf? core t.val

/-- What a run reads and writes: vconfig, tiles A and B, output tile, and the rows of the pattern sources that lie behind
it (R164). -/
structure RunSpec where
  v : VCfg := {}
  ta : Option Tile := none
  tb : Option Tile := none
  out : Option Tile := none
  skip : Nat := 0
  deriving DecidableEq, Repr

/-- The run of a record: that of a VRUN, or of the head row of a stream. -/
def State.runSpec (s : State) (core : Nat) (e : Eng) : RunSpec :=
  match e.kind with
  | .vrun cfg b out =>
    { v := s.vcfg e.site cfg, ta := s.operandTile core (some e.l), tb := s.operandTile core b,
      out := match e.out with
        | some i => s.tile? core i
        | none => s.operandTile core out }
  | .vruns cfg _ =>
    match e.stream.rows with
    | [] => {}
    | x :: _ =>
      { v := s.vcfg e.site cfg, ta := s.operandTile core (some x.a), tb := s.operandTile core x.b,
        out := e.out.bind fun i => s.tile? core i, skip := e.stream.rowsDone }
  | _ => {}

def shapeOf (t : Option Tile) : Shape := (t.map fun t => t.shape).getD {}

/-- R157: the row count of a run, and none where a check fails. -/
def RunSpec.rows (x : RunSpec) (stream : Bool) : Option Nat :=
  x.v.shapeOk (shapeOf x.ta) (x.tb.map fun t => t.shape) stream x.skip

/-- A run of `n` rows starts; the stage registers of a stream's rows before it stay (R164). -/
def Stream.begin (st : Stream) (v : VCfg) (n : Nat) : Stream :=
  { st with run :=
    { n := n
      chains := (enumL (chainsOf v.pipes)).map fun (x : Nat × List PipeCfg) =>
        { sts := match st.run.chains[x.1]? with
            | some c => c.sts
            | none => List.replicate (7 * x.2.length) {} } } }

/-- R157: beats of a row of a chain. -/
def RunSpec.beats (x : RunSpec) (xs : List PipeCfg) : Nat :=
  let b := match x.tb with
    | some t => t.shape.cols
    | none => (shapeOf x.ta).cols
  let lens := pipeLengths (shapeOf x.ta).cols b x.v.pipes 0
  ceilDiv (((lens.find? fun l => l.1 == (xs.headD {}).p).map fun l => l.2.1).getD 0) 16

/-- R136: the granules that beat `j` of row `r` of a chain takes from tile A (0) and tile B (1). -/
def State.beatNeeds (s : State) (core : Nat) (x : RunSpec) (xs : List PipeCfg) (r j : Nat) : List (Nat × Nat) :=
  let of (src : Nat) (t : Option Tile) : List (Nat × Nat) := match t with
    | none => []
    | some t =>
      if t.shape.cols ≤ 16 * j then [] else
        (rowGrans (s.baseTile core t).shape (t.row0 + r) (t.col0 + 16 * j) (min 16 (t.shape.cols - 16 * j))).map fun g => (src, g)
  (if xs.any fun p => p.asrc == 0 then of 0 x.ta else []) ++
    (if xs.any fun p => p.asrc == 1 || p.bsrc == 1 then of 1 x.tb else [])

/-- The granules that a chain's next beat has still to read. -/
def State.beatMisses (s : State) (core : Nat) (x : RunSpec) (xs : List PipeCfg) (c : ChainPos) : List (Nat × Nat) :=
  (s.beatNeeds core x xs c.row c.j).filter fun n => !(c.got.any fun y => y.1 == n.1 && y.2.1 == n.2)

def State.modRun (s : State) (core idx : Nat) (f : Run → Run) : State :=
  s.modEngRec core idx fun e => { e with stream := { e.stream with run := f e.stream.run } }

/-- R136, R160, R163: a chain reads one granule of an input; of one that the run has written, as it was before or as it is
now, as drawn. A granule that cannot be read fails the run at the end of the beat. DESIGN CHOICE (log 56). DESIGN CHOICE (log 152). -/
def State.runRead (s : State) (core : Nat) (e : Eng) (x : RunSpec) (i src g : Nat) : State :=
  let t := (if src == 0 then x.ta else x.tb).getD {}
  let b := s.baseTile core t
  let u := s.readGrans core b [g]
  let w := u.2.draw
  let now := b.getBytes (64 * g) 64
  let bytes := if u.1 then (List.range 64).map (Config.failedByte w.1)
    else if x.out.map Tile.baseIdx != some t.baseIdx || w.1 % 2 == 0 then now
    else match e.stream.run.wrote.find? fun y => y.1 == g with
      | some y => y.2
      | none => now
  let s := if u.1 then w.2.modEngRec core e.idx fun e => { e with fail := if e.fail == 0 then stDataUe else e.fail } else w.2
  s.modRun core e.idx fun r =>
    { r with failing := if u.1 then some i else r.failing
             chains := r.chains.modify i fun c => { c with got := c.got ++ [(src, g, bytes)] } }

/-- A base array as far as a chain has read it. -/
def ChainPos.tile (c : ChainPos) (src : Nat) (b : Tile) : Tile :=
  { b with bytes := (c.got.filter fun y => y.1 == src).foldl (fun m y => Memory.setMany m (64 * y.2.1) y.2.2) [] }

/-- R163, R175: what a beat brings to the tile writer joins its row. -/
def Run.take (run : Run) (r : Nat) (codes : List Nat) (scales : List (Nat × Nat)) (super : Nat) (last : Bool)
    (grans : List Nat) : Run :=
  let add (o : OutRow) : OutRow :=
    { o with codes := o.codes ++ codes, scales := o.scales ++ scales, super := super, full := o.full || last }
  if run.outs.any fun o => o.r == r then { run with outs := run.outs.map fun o => if o.r == r then add o else o }
  else { run with outs := run.outs ++ [add { r := r, todo := grans }] }

/-- What a beat leaves in the scratch units and the error counters. DEDUCED (log 39). -/
def State.afterBeat (s : State) (core : Nat) (io : RunIo) : State :=
  (s.modEng core fun g => { g with scratch := io.scratch, scratchUe := io.ue, scratchCe := io.ce }).countErrs (dieOf core) io.ces io.ues

/-- R159, R160: a chain's next beat, its granules read, passes through its stages; after a failing beat the run stops. -/
def State.runBeat (s : State) (core : Nat) (e : Eng) (x : RunSpec) (xs : List PipeCfg) (i : Nat) : State :=
  let st := e.stream
  let c := st.run.chains.getD i {}
  let base (t : Option Tile) : Tile := match t with
    | some t => s.baseTile core t
    | none => {}
  let beats := x.beats xs
  let last := c.j + 1 == beats
  let eng := (s.core core).eng
  let w := s.draw
  let env : BeatEnv := { g := x.v.obg, prow := x.skip + c.row, b := c.tile 1 (base x.tb), tb := x.tb, r := c.row }
  let super := ((st.run.outs.find? fun o => o.r == c.row).map fun o => o.super).getD 0
  let io : RunIo :=
    { scratch := eng.scratch, ue := eng.scratchUe, ce := eng.scratchCe, flags := st.flags, fail := e.fail, draw := w.1, beats := st.beats,
      super := super, sunk := st.sunk }
  let r := chainBeat env xs (c.tile 0 (base x.ta)) x.ta c.j beats c.sts io
  let kind := x.v.sinkKind (shapeOf x.ta) (x.tb.map fun t => t.shape)
  let codes := r.2.row.map fun l => if x.v.obg.scaled then (l % 2 ^ tyBits x.v.oty, 0) else packLane x.v.oty x.v.sat kind l
  let io := r.2.raise (codes.foldl (fun f c => f ||| c.2) 0)
  let words : List Nat := codes.map fun x => x.1
  let sinks := xs.any fun p => p.sink == 0
  let next : ChainPos := if last then { c with row := c.row + 1, j := 0, got := [], sts := r.1 } else { c with j := c.j + 1, sts := r.1 }
  let moved : Run := { st.run with chains := st.run.chains.set i next }
  (w.2.afterBeat core io).modEngRec core e.idx fun e =>
    { e with fail := io.fail, step := if io.fail == 0 then e.step else .finishing
             stream := { e.stream with
               flags := io.flags, beats := io.beats, sunk := io.sunk
               run := match x.out with
                 | some t => if sinks then moved.take c.row words io.scales io.super last
                     (rowGrans (base (some t)).shape (t.row0 + c.row) t.col0 t.shape.cols) else moved
                 | none => moved } }

/-- R163: rows 0 to `r` of every input have been read. -/
def State.inputsRead (s : State) (core : Nat) (x : RunSpec) (run : Run) (r : Nat) : Bool :=
  (run.chains.zip (chainsOf x.v.pipes)).all fun (c : ChainPos × List PipeCfg) =>
    (c.2.all fun p => decide (2 ≤ p.asrc) && p.bsrc != 1) || decide (r < c.1.row) ||
      (c.1.row == r && c.1.j + 1 == x.beats c.2 && (s.beatMisses core x c.2 c.1).isEmpty)

/-- R163: the granule that the tile writer may write next: the lowest row's first, once the inputs have been read so far
and the granule's elements are there. -/
def State.runWrites (s : State) (core : Nat) (x : RunSpec) (run : Run) : Option (OutRow × Nat) :=
  match run.outs, x.out with
  | o :: _, some t =>
    match o.todo with
    | g :: _ =>
      let sh := (s.baseTile core t).shape
      let next := min ((g * 64 + 64 - (t.row0 + o.r) * rowBytes sh) * 8 / tyBits sh.ty) (t.col0 + t.shape.cols) - t.col0
      if s.inputsRead core x run o.r && (o.full || (decide (g * 64 < elemBytes sh) && decide (next ≤ o.codes.length))) then
        some (o, g) else none
    | [] => none
  | _, _ => none

/-- R136, R163: the tile writer writes one granule of a row. -/
def State.runWrite (s : State) (core : Nat) (e : Eng) (x : RunSpec) (o : OutRow) (g : Nat) : State :=
  let t := x.out.getD {}
  let d := s.baseTile core t
  let shares := [x.ta, x.tb].any fun y => y.map Tile.baseIdx == some t.baseIdx
  let scale (j : Nat) : Nat := ((o.scales.find? fun y => y.1 == j).map fun y => y.2).getD 0
  (s.modTileIdx core t.baseIdx fun d => d.writeGran g (t.row0 + o.r) t.col0 t.shape.cols (fun _ c => o.codes.getD c 0)
    (fun _ j => scale j) fun _ => o.super).modRun core e.idx fun r =>
      { r with wrote := if shares && !(r.wrote.any fun y => y.1 == g) then r.wrote ++ [(g, d.getBytes (64 * g) 64)] else r.wrote
               outs := match r.outs with
                 | y :: ys => if y.todo.length ≤ 1 then ys else { y with todo := y.todo.tail } :: ys
                 | [] => [] }

/-- One event of a running run (R136, R159, R163): as drawn, some chain reads a granule or passes a beat, or a granule of
the output is written; with nothing left the run has come to its end. DESIGN CHOICE (log 56). -/
def State.runStep (s : State) (core : Nat) (e : Eng) : State :=
  let x := s.runSpec core e
  let run := e.stream.run
  let chains := chainsOf x.v.pipes
  let act (s : State) (i : Nat) : State :=
    let xs := chains.getD i []
    match s.beatMisses core x xs (run.chains.getD i {}) with
    | n :: _ => s.runRead core e x i n.1 n.2
    | [] => s.runBeat core e x xs i
  match run.failing with
  | some i => act s i
  | none =>
    let left := (List.range chains.length).filter fun i => decide ((run.chains.getD i {}).row < run.n)
    let w := s.draw
    match s.runWrites core x run with
    | some (o, g) =>
      match left[w.1 % (left.length + 1)]? with
      | some i => act w.2 i
      | none => s.runWrite core e x o g
    | none =>
      match left[w.1 % max left.length 1]? with
      | some i => act w.2 i
      | none => s.modEngRec core e.idx fun e => { e with step := .finishing }

/-- R166: the run status word. -/
def runWord (rows flags beats : Nat) : Word :=
  BitVec.ofNat 64 (min rows 65535 * 2 ^ 48 + flags % 32 * 2 ^ 35 + min beats (2 ^ 32 - 1))

/-- R166: the status word of a VRUN, or of a stream up to the row that has run. -/
def Eng.runWord (e : Eng) : Word :=
  Machine.runWord (e.stream.rowsDone + e.stream.run.n) e.stream.flags e.stream.beats

/-- R158: on binding, the units in ZMASK are written +0. -/
def State.bindUnits (s : State) (core zmask : Nat) : State :=
  s.modEng core fun g =>
    { g with scratch := g.scratch.filter fun e => zmask / 2 ^ (e.1 / Config.scratchWords) % 2 == 0
             scratchUe := g.scratchUe.filter fun w => zmask / 2 ^ (w / Config.scratchWords) % 2 == 0
             scratchCe := g.scratchCe.filter fun w => zmask / 2 ^ (w / Config.scratchWords) % 2 == 0 }

/-- A run starts on pipelines and units that it has taken: an allocated output holds nothing of what was left there. -/
def State.startRun (s : State) (core : Nat) (e : Eng) (stream : Bool) : State :=
  let x := s.runSpec core e
  match x.rows stream with
  | none => s.modEngRec core e.idx fun y => { y with step := .finishing, fail := stFormat }
  | some n =>
    let s := s.bindUnits core (if e.stream.run.chains.isEmpty then x.v.zmask else 0)
    let s := match e.out with
      | some i => s.modTileIdx core i Tile.wipe
      | none => s
    s.modEngRec core e.idx fun y => { y with before := y.stream.beats, stream := y.stream.begin x.v n }

/-- R164: the tail row: x0 of stage 5 of the tile-sink pipeline, packed to OTY, in the tile granted for it. -/
def State.runTail (s : State) (core : Nat) (e : Eng) (cfg : Nat) : State :=
  let v := s.vcfg e.site cfg
  match e.out, v.pipes.find? (fun x => x.sink == 0) with
  | some i, some x =>
    let w5 := x.stages.getD 5 {}
    let kind := if w5.xw && w5.xd == 0 && w5.lop != 0x40 then (ownKind w5).getD .raw else .raw
    let at' : Nat × List PipeCfg := ((enumL (chainsOf v.pipes)).find? fun (c : Nat × List PipeCfg) => c.2.any fun y => y.p == x.p).getD (0, [])
    let k := (at'.2.findIdx? fun y => y.p == x.p).getD 0
    let st := (((e.stream.run.chains.getD at'.1 {}).sts.getD (7 * k + 6) {}).regs.getD 0 [])
    let codes := (List.range 16).map fun l => packLane v.oty v.sat kind (st.getD l 0)
    let f := codes.foldl (fun f c => f ||| c.2) e.stream.flags
    let word := runWord e.stream.rowsDone f e.stream.beats
    let s := s.modTileIdx core i fun t => { (enumL codes).foldl (fun t c => t.setElem 0 c.1 c.2.1) t.wipe with status := word }
    s.modEngRec core e.idx fun x => { x with step := .finishing, word := word, stream := { x.stream with flags := f } }
  | _, _ => s.modEngRec core e.idx fun x => { x with step := .finishing }

/-! ## Firings -/

/-- The handles of a firing's operands, or the first failing status. -/
def State.handles (s : State) (core : Nat) : List Tok → Except Nat (List Tile)
  | [] => .ok []
  | t :: ts => match s.handle core t with
    | .error st => .error st
    | .ok x => match s.handles core ts with
      | .error st => .error st
      | .ok xs => .ok (x :: xs)

/-- VRUN (R157, R158, R163, R348): checks, then an engine command that waits for its output and its pipelines. DESIGN CHOICE (log 145). -/
def State.vrun (s : State) (p : Par) (cfg : Nat) (b out : Option Tok) (ops : List Tok) : Host.Outcome State Fault Refusal :=
  s.cmdFiring p latTile ops fun s =>
    let core := s.cur.site.core
    match s.handles core ops with
    | .error st => s.failing p latTile st ops
    | .ok _ =>
      let v := s.vcfg s.cur.site cfg
      let a := (s.operandTile core (some s.cur.l)).getD {}
      let tb := s.operandTile core b
      match v.shapeOk a.shape (tb.map fun t => t.shape) false 0 with
      | none => s.failing p latTile stFormat ops
      | some n =>
        let len := v.sinkLen (pipeLengths a.shape.cols ((tb.map fun t => t.shape.cols).getD a.shape.cols) v.pipes 0)
        let sh : Shape := { ty := v.oty, bg := v.obg, rows := n, cols := len }
        let e : Eng := { opc := 0xCA, l := s.cur.l, r := s.cur.r, c := s.cur.c, kind := .vrun cfg b out }
        match out with
        | some o =>
          match s.operandTile core (some o) with
          | some t => if sameForm t.shape sh then s.command p e else s.failing p latTile stFormat ops
          | none => s.failing p latTile stFormat ops
        | none => if v.oty == .none || n == 0 then s.command p e else s.commandNew p e sh ops

/-- VRUN FORM a, R163. -/
def execVrunA (p : Par) (cfg : BitVec 4) (s : State) : Host.Outcome State Fault Refusal :=
  s.vrun p cfg.toNat none none [s.cur.l]

/-- VRUN FORM ab, R163. -/
def execVrunAb (p : Par) (cfg : BitVec 4) (s : State) : Host.Outcome State Fault Refusal :=
  s.vrun p cfg.toNat (some s.cur.r) none [s.cur.l, s.cur.r]

/-- VRUN FORM ao, R163. -/
def execVrunAo (p : Par) (cfg : BitVec 4) (s : State) : Host.Outcome State Fault Refusal :=
  s.vrun p cfg.toNat none (some s.cur.r) [s.cur.l, s.cur.r]

/-- VRUN FORM abo, R163. -/
def execVrunAbo (p : Par) (cfg : BitVec 4) (s : State) : Host.Outcome State Fault Refusal :=
  s.vrun p cfg.toNat (some s.cur.r) (some s.cur.c) [s.cur.l, s.cur.r, s.cur.c]

/-- R158, R164: something of a stream joins its queue, with its own class and firing order. -/
def State.queueRow (s : State) (core idx : Nat) (site : Site) (x : RowTok) : State :=
  let n := (s.core core).eng.seq
  (s.modEng core fun g => { g with seq := g.seq + 1 }).modEngRec core idx fun e =>
    { e with stepped := e.stepped || (site.step && e.stream.rows.isEmpty)
             stream := { e.stream with rows := e.stream.rows ++ [{ x with cls := site.cls, seq := n }] } }

/-- R164: a row joins an open stream, with the tile that it will need asked for now (R134). -/
def State.addRow (s : State) (core idx : Nat) (site : Site) (a : Tok) (b : Option Tok) (need : Option Shape) : State :=
  let s := s.queueRow core idx site { a := a, b := b }
  match need with
  | none => s
  | some sh => s.askTile core { site := site, shape := sh, why := 2, owner := idx }

/-- R164: poison that a VRUNS firing emits leaves in firing order: behind the rows of its stream that have not left. -/
def State.rowPoison (s : State) (p : Par) (t : Tok) (b : Option Tok) (ops : List Tok) : State :=
  let site := s.cur.site
  match (s.lastStream site.core site.frame site.node).filter fun e => !e.stream.rows.isEmpty with
  | some e => (s.finish p latTile [] []).queueRow site.core e.idx site { a := s.cur.l, b := b, poison := some t }
  | none => s.finish p latTile (spread p t) ops

/-- VRUNS (R164): a row or EOS of a stream. DEDUCED (log 58). -/
def State.vrunsFire (s : State) (p : Par) (cfg : Nat) (b : Option Tok) (ops : List Tok) : Host.Outcome State Fault Refusal :=
  let site := s.cur.site
  let core := site.core
  let v := s.vcfg site cfg
  let fired (s : State) : State := s.finish p latTile [] []
  let failing (s : State) (st : Nat) : State := s.rowPoison p (poisonTok s site st) b ops
  match badInput ops with
  | some t =>
    if t.kind == kPoison then .next (s.rowPoison p (carryTok site t) b ops)
    else match s.lastStream core site.frame site.node with
      | some e => .next ((fired s).addRow core e.idx site s.cur.l b
          (if v.tail && v.oty != .none && !e.eosQueued then some { ty := v.oty, bg := .g0, rows := 1, cols := 16 } else none))
      | none => .next (s.finish p latTile (spread p (carryTok site t)) ops)
  | none =>
    .next (match s.handles core ops with
      | .error st => failing s st
      | .ok _ =>
        let a := (s.operandTile core (some s.cur.l)).getD {}
        let tb := s.operandTile core b
        match v.shapeOk a.shape (tb.map fun t => t.shape) true 0 with
        | none => failing s stFormat
        | some n =>
          let len := v.sinkLen (pipeLengths a.shape.cols ((tb.map fun t => t.shape.cols).getD a.shape.cols) v.pipes 0)
          let sh : Shape := { ty := v.oty, bg := v.obg, rows := n, cols := len }
          if v.oty != .none && impossible sh then failing s stExtentBound
          else
            let need := if v.oty == .none then none else some sh
            match s.openStream core site.frame site.node with
            | some e => (fired s).addRow core e.idx site s.cur.l b need
            | none =>
              let i := (s.freeRec core).getD 0
              let pipes := v.pipes.length
              ((s.command p { opc := 0xCB, l := s.cur.l, r := s.cur.r, kind := .vruns cfg b.isSome,
                              stream := { opened := true } }).askTile core
                { site := site, shape := { ty := .z8, rows := pipes, cols := 1664 }, why := 2, owner := i }).addRow
                  core i site s.cur.l b need)

/-- VRUNS of one operand, R164. -/
def execVruns (p : Par) (cfg : BitVec 4) (s : State) : Host.Outcome State Fault Refusal :=
  s.vrunsFire p cfg.toNat none [s.cur.l]

/-- VRUNS of two operands, R164. -/
def execVruns2 (p : Par) (cfg : BitVec 4) (s : State) : Host.Outcome State Fault Refusal :=
  s.vrunsFire p cfg.toNat (some s.cur.r) [s.cur.l, s.cur.r]

/-- VSTAT, R166. DEDUCED (log 148). -/
def execVstat (p : Par) (s : State) : Host.Outcome State Fault Refusal :=
  s.tileFiring p [s.cur.l] fun s t =>
    s.finish p latTile [(p.d0, scalarTok s.cur.site t.status), (p.d1, carryTok s.cur.site s.cur.l)] [s.cur.l]

/-! ## VRUN_START -/

/-- R164: an entry of a stream's queue that is an EOS. -/
def RowTok.eos (x : RowTok) : Bool :=
  x.poison.isNone && (x.a.kind == kEos || (x.b.map fun t => t.kind == kEos).getD false)

/-- R164, R165: the entry of a stream's queue needs a tile for its output; a stream that closes has no tail row. -/
def Eng.rowNeedsTile (e : Eng) (v : VCfg) (x : RowTok) : Bool :=
  x.poison.isNone && v.oty != .none && (!x.eos || (v.tail && !e.stream.closing))

/-- What a waiting record needs to start: pipelines and units still to be taken; none while it cannot start yet. -/
def State.runNeeds (s : State) (core : Nat) (e : Eng) : Option (Nat × Nat) :=
  if e.step != .waiting || !s.engRuns e then none else
    match e.kind with
    | .vrun cfg _ out =>
      let v := s.vcfg e.site cfg
      let n := ((s.runSpec core e).rows false).getD 1
      if v.oty != .none && out.isNone && n != 0 && e.out.isNone then none else some (v.lpmask, v.sbmask)
    | .vruns cfg _ =>
      let v := s.vcfg e.site cfg
      let bound := (s.core core).eng.taken.any fun t => t.1 == e.idx
      match e.stream.rows with
      | [] => none
      | x :: _ =>
        if s.behindStream core e then none
        else if x.poison.isSome then some (0, 0)
        else if (e.stream.stateTile.isNone && !x.eos) || (e.rowNeedsTile v x && e.stream.outs.isEmpty) then none
        else if x.eos then some (0, 0)
        else some (v.lpmask, if bound then 0 else v.sbmask)
    | _ => none

/-- R158: the first run that may start, in order of priority and then of firing: its needs are free and no earlier
waiting run needs any of them. -/
def firstFree (lp sb : Nat) : List (Eng × Nat × Nat) → Option Eng
  | [] => none
  | (e, l, b) :: rest =>
    if l &&& lp == 0 && b &&& sb == 0 then some e else firstFree (lp ||| l) (sb ||| b) rest

/-- R158: the class and the firing order of the run that a record waits to start: a stream's row has its own. -/
def Eng.runOrder (e : Eng) : Nat × Nat := match e.stream.rows with
  | x :: _ => (x.cls, x.seq)
  | [] => (e.site.cls, e.seq)

/-- Inserts a waiting run by its firing order. -/
def insertRun (x : Eng × Nat × Nat) : List (Eng × Nat × Nat) → List (Eng × Nat × Nat)
  | [] => [x]
  | y :: ys => if x.1.runOrder.2 < y.1.runOrder.2 then x :: y :: ys else y :: insertRun x ys

/-- Waiting runs in order: the handler queue's first, then classes 0 to 3; within a class by firing. -/
def State.waitingRuns (s : State) (core : Nat) : List (Eng × Nat × Nat) :=
  let all := (s.core core).eng.recs.filterMap fun e => (s.runNeeds core e).map fun n => (e, n.1, n.2)
  [4, 0, 1, 2, 3].flatMap fun c => (all.filter fun x => x.1.runOrder.1 == c).foldr insertRun []

/-- VRUN_START, R158: grants one waiting run its pipelines and units. DEDUCED (log 57). -/
def execVrunStart (core : Nat) (s : State) : Host.Outcome State Fault Refusal :=
  let taken := (s.core core).eng.taken
  let lp := taken.foldl (fun m t => m ||| t.2.1) 0
  let sb := taken.foldl (fun m t => m ||| t.2.2) 0
  match firstFree lp sb (s.waitingRuns core) with
  | none => .next s
  | some e =>
    let s := s.engStart core e.idx
    match e.kind with
    | .vrun cfg _ _ =>
      let v := s.vcfg e.site cfg
      .next ((s.modEng core fun g => { g with taken := g.taken ++ [(e.idx, v.lpmask, v.sbmask)] }).startRun core e false)
    | .vruns cfg _ =>
      let v := s.vcfg e.site cfg
      match e.stream.rows with
      | [] => .next s
      | x :: _ =>
        let tile := e.rowNeedsTile v x
        let e' : Eng := { e with out := if tile then e.stream.outs.head? else none }
        let s := s.modEngRec core e.idx fun y =>
          { y with out := e'.out, stream := { y.stream with outs := if tile then y.stream.outs.tail else y.stream.outs } }
        if x.poison.isSome then .next (s.modEngRec core e.idx fun y => { y with step := .finishing })
        else if x.eos then .next (s.runTail core e' cfg)
        else
          .next ((s.modEng core fun g =>
            { g with taken := (g.taken.filter fun t => t.1 != e.idx) ++ [(e.idx, v.lpmask, v.sbmask)] }).startRun core e' true)
    | _ => .next s

/-! ## VRUN_COMPLETE -/

/-- R163: a VRUN ends; the run status word goes to the handle index of its output. DEDUCED (log 148). -/
def State.endVrun (s : State) (core : Nat) (e : Eng) (cfg : Nat) (b out : Option Tok) : State :=
  let ops := e.l :: (b.toList ++ out.toList)
  let s := s.raise e.site.ctx e.stream.flags
  let s := s.perfCore core 0x07 e.stream.beats
  if e.fail != 0 then s.failCommand core e e.fail ops
  else
    let v := s.vcfg e.site cfg
    if v.oty == .none then s.endCommand core e 0 (e.spread (scalarTok e.site e.runWord)) ops
    else match e.out, out with
      | some i, _ => (s.modTileIdx core i fun t => { t with status := e.runWord }).endWithTile core e i ops
      | none, some o =>
        let s := match s.operandTile core (some o) with
          | some t => s.modTileIdx core t.idx fun t => { t with status := e.runWord }
          | none => s
        s.endCommand core e 0 (e.spread (carryTok e.site o)) ops
      | none, none => s.endCommand core e 0 (e.spread (mkTok e.site kEos 0)) ops

/-- R165: the destinations of a stream whose activation has completed: only out-ports are left. -/
def Eng.outPorts (e : Eng) : Eng :=
  let f (d : Dest) : Dest := if d.isLocal then .none else d
  if e.stream.closing then { e with d0 := f e.d0, d1 := f e.d1, d2 := f e.d2 } else e

/-- R164: the stream in which the outputs of a VRUNS or MMAS node keep their order. -/
def rowStream (core frame node : Nat) : Nat := 2 + 2 * (256 * 64) + (core * 4096 + frame) * 128 + node

def Eng.rowStream (e : Eng) : Nat := Machine.rowStream e.site.core e.site.frame e.site.node

/-- R94, R164: what follows a stream's EOS in its queue is forwarded: a further EOS, or poison. -/
def State.forwardRest (s : State) (e : Eng) (rest : List RowTok) : State :=
  rest.foldl (fun s x =>
    let site := { e.site with phase := x.a.phase, prio := x.a.prio }
    let ops := x.a :: x.b.toList
    s.settle site latTile e.rowStream (e.outPorts.spread (x.poison.getD (carryTok site ((badInput ops).getD {})))) ops) s

/-- R164, R165: the EOS of a stream ends it; a stream whose activation has completed emits no tail row and records
ABANDONED. -/
def State.endStream (s : State) (core : Nat) (e : Eng) (x : RowTok) (rest : List RowTok) : State :=
  let ops := x.a :: x.b.toList
  let site := { e.site with phase := x.a.phase, prio := x.a.prio }
  let o := e.outPorts
  let s := match e.out with
    | some i =>
      let t := mkTok site kTile (s.handleOf core i)
      if e.stream.closing then s.settle site latTile e.rowStream [] [t] else s.settle site latTile e.rowStream (o.spread t) [t]
    | none => s
  let s := (s.settle site latTile e.rowStream (o.spread (carryTok site ((badInput ops).getD {}))) ops).forwardRest e rest
  if e.stream.closing then s.dropStream core e
  else ((s.raise e.site.ctx e.stream.flags).freeStream core e).engEnd core e.idx 0

/-- R164: a row of a stream ends: its output leaves, or poison, and the pipelines are free. DEDUCED (log 58). -/
def State.endRow (s : State) (core : Nat) (e : Eng) (cfg : Nat) : State :=
  match e.stream.rows with
  | [] => s
  | x :: rest =>
    if x.eos then s.endStream core e x rest
    else
      let ops := x.a :: x.b.toList
      let site := { e.site with phase := x.a.phase, prio := x.a.prio }
      let o := e.outPorts
      let v := s.vcfg e.site cfg
      let s := s.perfCore core 0x07 (if x.poison.isSome then 0 else e.stream.beats - e.before)
      let mine := (e.out.map fun i => mkTok site kTile (s.handleOf core i)).toList
      let s := match x.poison with
        | some t => s.settle site latTile e.rowStream (o.spread t) ops
        | none =>
          if e.fail != 0 then
            let s := s.raise e.site.ctx e.stream.flags
            s.settle site latTile e.rowStream (o.spread (poisonTok s site e.fail)) (mine ++ ops)
          else
            let s := match e.out with
              | some i => s.modTileIdx core i fun t => { t with status := e.runWord }
              | none => s
            s.settle site latTile e.rowStream (o.spread (mine.headD (scalarTok site e.runWord))) (mine ++ ops)
      let done := if x.poison.isSome then 0 else e.stream.run.n
      let s := s.modEng core fun g => { g with
        taken := if x.poison.isSome then g.taken else (g.taken.filter fun t => t.1 != e.idx) ++ [(e.idx, 0, v.sbmask)]
        recs := g.recs.map fun y => if y.idx == e.idx then
          { y with step := .waiting, out := none, fail := 0, st := 1
                   stream := { y.stream with rows := rest, rowsDone := y.stream.rowsDone + done
                                             run := { y.stream.run with n := 0, outs := [], wrote := [], failing := none } } } else y }
      if e.stream.closing && rest.isEmpty then
        match s.eng? core e.idx with
        | some y => s.dropStream core y
        | none => s
      else s

/-- VRUN_COMPLETE, R163, R164: one event of a running run, or the end of one that has come to its end. DEDUCED (log 57). -/
def execVrunComplete (core : Nat) (recd : Nat) (s : State) : Host.Outcome State Fault Refusal :=
  match s.eng? core recd with
  | none => .next s
  | some e =>
    if !s.engRuns e then .next s
    else match e.kind, e.step with
      | .vrun cfg b out, .finishing => .next (s.endVrun core e cfg b out)
      | .vruns cfg _, .finishing => .next (s.endRow core e cfg)
      | .vrun _ _ _, .running => .next (s.runStep core e)
      | .vruns _ _, .running => .next (s.runStep core e)
      | _, _ => .next s

end Sys2Proof.Machine
end

