-- ==== Sys2Proof/Machine/Matrix.lean ====
section
/-! DEFINITION. Weight slots (R176 to R186), passes and drains (R82 to R85, R194, R195), and the tokens that the matrix
instructions emit at their firing (R181 to R196). -/

namespace Sys2Proof.Machine

/-! ## Shapes -/

/-- R177: K and N of a slot type. -/
def slotK : Ty → Nat
  | .e2m1 | .qn4 => 256 | _ => 128

def slotN : Ty → Nat
  | .bf16 | .f16 => 128 | _ => 256

/-- R82: whether an A format goes with a slot format. -/
def modeOk (ta : Ty) (ga : Geom) (tb : Ty) (gb : Geom) : Bool :=
  let low := ga != .g4 && gb != .g4
  let fp8 (t : Ty) : Bool := t == .e4m3 || t == .e5m2
  let i8 (t : Ty) : Bool := t == .s8 || t == .z8
  (fp8 ta && fp8 tb && low) || (i8 ta && i8 tb && low) || (ta == .e2m1 && tb == .e2m1 && low) ||
    (ta == .e2m1 && ga != .g4 && tb == .qn4 && gb == .g4) ||
    (ta == tb && (ta == .bf16 || ta == .f16) && ga == .g0 && gb == .g0)

/-- R82: the exact modes. -/
def exactMode (t : Ty) : Bool := !(t == .bf16 || t == .f16)

/-- R177: bytes of an element plane in memory. -/
def planeBytesOf (t : Ty) (c : Comp) : Nat :=
  let w := tyBits t
  if c == .s24 then slotN t * (slotK t / 2 * w / 8 + slotK t / 8) else slotN t * (slotK t * w / 8)

/-! ## Passes -/

/-- What a pass reads of an A row: element codes below COLS in the window of KOFF, and scale bytes by block. -/
structure ARow where
  ty : Ty := .s8
  bg : Geom := .g0
  codes : List Nat := []
  scales : List Nat := []
  deriving DecidableEq, Repr

/-- R187: row `r` of tile A, columns koff × P to koff × P + P − 1. -/
def aRow (b t : Tile) (r koff p : Nat) : ARow :=
  let sh := t.shape
  let base := koff * p
  let n := min p (sh.cols - base)
  { ty := sh.ty, bg := sh.bg
    codes := (List.range n).map fun k => b.elem (t.row0 + r) (t.col0 + base + k)
    scales := if sh.bg.scaled then (List.range (ceilDiv n (blockOf sh.bg))).map fun j =>
      b.scale (t.row0 + r) ((t.col0 + base) / blockOf sh.bg + j) else [] }

/-- The scale of a weight row's block (R69, R70). -/
def WSlot.scale (w : WSlot) (n j : Nat) : Fp :=
  let rec' := (w.scales.drop (64 * n)).take 64
  match w.key.bg with
  | .g0 | .g5 => .fin false 1 0
  | .g4 => scaleVal .g4 ((rec'.getD (4 + j) 0).toNat) (leNat (rec'.take 4))
  | g => scaleVal g ((rec'.getD j 0).toNat) 0

/-- R83: the exact sum over the segments that hold some k. -/
def exactSum (a : ARow) (w : WSlot) (n : Nat) : Fp :=
  let row := w.elems.getD n []
  let p := slotK w.key.ty
  let ba := if a.bg.scaled then blockOf a.bg else p
  let bb := if w.key.bg.scaled then blockOf w.key.bg else p
  let seg := min ba bb
  let kmax := a.codes.length
  (List.range (ceilDiv kmax seg)).foldl (fun sum g =>
    let k0 := g * seg
    let part := (List.range (min seg (kmax - k0))).foldl (fun part i =>
      (addFp false part (mulFp (decElem a.ty (a.codes.getD (k0 + i) 0)) (decElem w.key.ty (row.getD (k0 + i) 0))).1).1)
      (.fin false 0 0)
    let sa : Fp := if a.bg.scaled then scaleVal a.bg (a.scales.getD (k0 / ba) 0) 0 else .fin false 1 0
    (addFp false sum (mulFp (mulFp sa (w.scale n (k0 / bb))).1 part).1).1) (.fin false 0 0)

/-- R84: the aligned sum, each magnitude truncated at 2^(Emax − 47). -/
def alignedSum (a : ARow) (w : WSlot) (n : Nat) : Fp :=
  let row := w.elems.getD n []
  let ps := (List.range a.codes.length).map fun k =>
    (mulFp (decElem a.ty (a.codes.getD k 0)) (decElem w.key.ty (row.getD k 0))).1
  let infs (neg : Bool) : Bool := ps.any fun p => p == .inf neg
  if ps.any isNan || (infs true && infs false) then .nan false
  else if infs true then .inf true
  else if infs false then .inf false
  else
    let tops := ps.filterMap fun p => match p with
      | .fin _ m e => if m == 0 then none else some ((Nat.log2 m : Int) + e)
      | _ => none
    match tops with
    | [] => .fin false 0 0
    | t :: ts =>
      let q : Int := ts.foldl (fun x y => if x < y then y else x) t - 47
      let sum : Int := ps.foldl (fun s p => match p with
        | .fin neg m e =>
          let v : Nat := if q ≤ e then m * 2 ^ (e - q).toNat else m / 2 ^ (q - e).toNat
          if neg then s - v else s + v
        | _ => s) 0
      .fin (decide (sum < 0)) sum.natAbs q

/-- R83, R84: a pass on one accumulator element. -/
def passElem (a : ARow) (w : WSlot) (n old : Nat) : Nat :=
  let sum := if exactMode w.key.ty then exactSum a w n else alignedSum a w n
  let r := (toFp .f32 .rne false (addFp false (decFp .f32 old) sum).1).1
  if r == 2 ^ 31 then 0 else r

/-- A pass on a row of N accumulator elements. -/
def passRow (a : ARow) (w : WSlot) (old : List Nat) : List Nat :=
  (List.range (slotN w.key.ty)).map fun n => passElem a w n (old.getD n 0)

def isFin : Fp → Bool
  | .fin _ _ _ => true
  | _ => false

/-- R194: the exact column sum of each k: over n, the scale of k's segment times the element. -/
def WSlot.columnSums (w : WSlot) : List Fp :=
  let block := if w.key.bg.scaled then blockOf w.key.bg else slotK w.key.ty
  (List.range (slotK w.key.ty)).map fun k => (List.range (slotN w.key.ty)).foldl (fun sum n =>
    (addFp false sum (mulFp (w.scale n (k / block)) (decElem w.key.ty ((w.elems.getD n []).getD k 0))).1).1) (.fin false 0 0)

/-- R194: a row is checked when no element, scale or column sum that takes part is a NaN or an infinity. -/
def checkedRow (a : ARow) (w : WSlot) : Bool :=
  !exactMode w.key.ty ||
    ((a.codes.all fun c => isFin (decElem a.ty c)) && (!a.bg.scaled || a.scales.all fun c => isFin (scaleVal a.bg c 0)) &&
      (w.sums.take a.codes.length).all isFin)

/-- R194: what the check column computes of a row, before it is taken mod 65,535. -/
def checkColumn (a : ARow) (w : WSlot) : Fp :=
  let block := if a.bg.scaled then blockOf a.bg else slotK w.key.ty
  (enumL a.codes).foldl (fun sum c =>
    let sa : Fp := if a.bg.scaled then scaleVal a.bg (a.scales.getD (c.1 / block) 0) 0 else .fin false 1 0
    (addFp false sum (mulFp (mulFp sa (decElem a.ty c.2)).1 (w.sums.getD c.1 (.fin false 0 0))).1).1) (.fin false 0 0)

/-- R194: what it is compared with: the row's exact pass sums, added up. -/
def rowSum (a : ARow) (w : WSlot) : Fp :=
  (List.range (slotN w.key.ty)).foldl (fun sum n => (addFp false sum (exactSum a w n)).1) (.fin false 0 0)

/-- R194: a value in units of 2^q, mod 65,535. -/
def residueAt (q : Int) (x : Fp) : Nat :=
  match x with
  | .fin neg m e => ((if neg then -((m * 2 ^ (e - q).toNat : Nat) : Int) else ((m * 2 ^ (e - q).toNat : Nat) : Int)) % 65535).toNat
  | _ => 0

/-- R194: the check column agrees; the unit is a power of two that divides both, and which one does not matter, since 2 has
an inverse mod 65,535. -/
def columnAgrees (a : ARow) (w : WSlot) : Bool :=
  match checkColumn a w, rowSum a w with
  | .fin s m e, .fin t n f =>
    let q := if e < f then e else f
    residueAt q (.fin s m e) == residueAt q (.fin t n f)
  | _, _ => true

/-- R85: one drained element. -/
def drainElem (t : Nat) (mode : Mode) (sat : Bool) (oty : Ty) (acc : Nat) : Nat :=
  let v := (roundOp .f32 .rne (mulFp (decFp .f32 acc) (decFp .f32 t))).1
  if oty == .f32 then v
  else if tyIsFloat oty then (toFp oty mode sat (decFp .f32 v)).1
  else ((fpToInt oty mode (decFp .f32 v)).1 % 2 ^ tyBits oty).toNat

/-- R85: a tensor scale of a type as exact FP32. -/
def tensorScale (t : Ty) (v : Word) : Nat := (toFp .f32 .rne false (decFp t (v.toNat % 2 ^ tyBits t))).1

/-! ## Weight slots -/

def State.modPw (s : State) (core i : Nat) (f : WSlot → WSlot) : State :=
  s.modEng core fun g => { g with pw := g.pw.modify i f }

/-- The physical slot that a logical slot is bound to. -/
def Engines.slotOf (g : Engines) (ctx ws : Nat) : Option (Nat × WSlot) :=
  (enumL g.pw).find? fun w => w.2.bound.contains (ctx, ws)

/-- The slot that holds a key in LOADING, READY or IDLE. -/
def Engines.findKey (g : Engines) (key : WKey) : Option (Nat × WSlot) :=
  (enumL g.pw).find? fun w => w.2.key == key && (w.2.state == .loading || w.2.state == .ready || w.2.state == .idle)

/-- The idle slot that entered IDLE earliest. -/
def Engines.oldestIdle (g : Engines) : Option Nat :=
  ((enumL g.pw).foldl (fun (best : Option (Nat × Nat)) w =>
    if w.2.state == .idle then match best with
      | some b => if w.2.idleAt < b.2 then some (w.1, w.2.idleAt) else best
      | none => some (w.1, w.2.idleAt)
    else best) none).map fun b => b.1

/-- R180: the slot that a WLD takes. -/
def Engines.chooseSlot (g : Engines) : Option Nat :=
  match (enumL g.pw).find? fun w => w.2.state == .empty with
  | some w => some w.1
  | none => g.oldestIdle

/-- R183: the content that a WLD names, with the address of its scale plane, or the status. DEDUCED (log 154). -/
def State.wldSource (s : State) (site : Site) (l : Tok) (ty : Ty) (bg : Geom) (cmp : Comp) (sxe gen : Nat) :
    Except Nat (WKey × Option Word) :=
  let tenant := match s.ctx? site.ctx with
    | some c => c.tenant
    | none => 0
  -- WLD of TY 0xF cannot name CMP 2 (R181): QN4 content is what it is
  let comp (x : Ty) : Comp := if ty == .none && x == .qn4 && cmp == .dense then .qn4 else cmp
  if l.kind == kTile then
    match s.handle site.core l with
    | .error st => .error st
    | .ok t =>
      let x := t.shape.ty
      if t.shape.acc || !tyWld.contains x || x == .none || t.shape.rows != slotN x || t.shape.cols != slotK x ||
          (ty != .none && (ty != x || bg != t.shape.bg)) || cmp == .s24 || !wldCmpOk x t.shape.bg (comp x) then .error stFormat
      else .ok ({ tenant := tenant, fromTile := true, ty := x, bg := t.shape.bg, cmp := comp x, gen := gen,
                  src := site.core * 2 ^ 20 + handleGen l.val * 2 ^ 12 + handleIdx l.val }, none)
  else if l.kind != kScalar then .error stFormat
  else match s.resolve site { spaces := [0, 1, 2] } l.val 1 with
    | .error st => .error st
    | .ok tg =>
      let pa := match tg.parts.head? with
        | some (.mem pa _ _, _, _) => s.absPa pa
        | _ => 0
      match (if spaceOf l.val == 0 then formatOf tg.fa ty (some bg) else .ok (ty, bg)) with
      | .error st => .error st
      | .ok (x, g) =>
        if x == .none || !tyWld.contains x || !pairOk x g || !wldCmpOk x g (comp x) ||
            (spaceOf l.val != 0 && (g != .g0 || cmp != .dense)) then .error stFormat
        else
          let o := l.val.toNat % 2 ^ 56
          let eb := planeBytesOf x (comp x)
          let key : WKey := { tenant := tenant, src := pa, ty := x, bg := g, cmp := comp x, gen := gen }
          if !g.scaled then .ok (key, none)
          else if o % eb != 0 then .error stFormat
          else .ok (key, some (BitVec.ofNat 64 (sxe * 2 ^ 56 + o / eb * 16384)))

/-- Codes of a packed row (R63). -/
def unpackRow (w : Nat) (bs : List Byte) (n : Nat) : List Nat :=
  (List.range n).map fun i =>
    if w == 4 then bf ((bs.getD (i / 2) 0).toNat) (4 * (i % 2)) 4 else leNat ((bs.drop (i * (w / 8))).take (w / 8))

/-- R185: a 2:4 row; none for a nibble with i0 ≥ i1. -/
def unpack24 (w k : Nat) (bs : List Byte) : Option (List Nat) :=
  let kept := unpackRow w bs (k / 2)
  let md := bs.drop (k / 2 * w / 8)
  let nib (g : Nat) : Nat := bf ((md.getD (g / 2) 0).toNat) (4 * (g % 2)) 4
  if (List.range (k / 4)).any fun g => decide (nib g / 4 ≤ nib g % 4) then none
  else some ((List.range (k / 4)).flatMap fun g => (List.range 4).map fun i =>
    if i == nib g % 4 then kept.getD (2 * g) 0 else if i == nib g / 4 then kept.getD (2 * g + 1) 0 else 0)

/-- R185: rows of an element plane, each of `rb` bytes. -/
def decompress (t : Ty) (c : Comp) (rb : Nat) : Nat → List Byte → Option (List (List Nat))
  | 0, _ => some []
  | n + 1, bs =>
    match (if c == .s24 then unpack24 (tyBits t) (slotK t) (bs.take rb) else some (unpackRow (tyBits t) (bs.take rb) (slotK t))) with
    | none => none
    | some row => (decompress t c rb n (bs.drop rb)).map fun rows => row :: rows

/-- R183, R241: the parts that a weight load reads, under the extents of its firing: the element plane, then the scale plane; or
the status. -/
def State.weightParts (s : State) (core : Nat) (e : Eng) (key : WKey) (scale : Option Word) : Except Nat (List (Loc × Nat × Nat)) :=
  let s := s.asFired e
  if key.fromTile then
    match s.handle core e.l with
    | .error st => .error st
    | .ok t => .ok (((windowGrans (s.baseTile core t).shape t.row0 t.col0 t.shape.rows t.shape.cols).eraseDups).map fun g =>
        (.tile core t.baseIdx (64 * g), 64, 64 * g))
  else
    let eb := planeBytesOf key.ty key.cmp
    match s.resolve e.site { spaces := [0, 1, 2] } e.l.val eb with
    | .error st => .error st
    | .ok tg => match scale with
      | none => .ok (granulesIn tg.parts)
      | some a => match s.resolve e.site { spaces := [0] } a 16384 with
        | .error st => .error st
        | .ok sc => if scalePageOk sc.fa key.bg then .ok (granulesIn (tg.parts ++ sc.parts.map fun p => (p.1, p.2.1, eb + p.2.2)))
          else .error stFormat

/-- R183, R279, R335: a weight load starts: every granule of its source is to be read, each as one event. DEDUCED (log 63). -/
def State.beginLoad (s : State) (core : Nat) (e : Eng) (key : WKey) (scale : Option Word) : State :=
  let s := s.engStart core e.idx
  match s.weightParts core e key scale with
  | .error st => s.modEngRec core e.idx fun x => { x with fail := st, moves := [] }
  | .ok ps => s.modEngRec core e.idx fun x => { x with fail := 0, moves := [{ src := ps, src0 := ps, since := s.wall }] }

/-- R183, R185: the content of a WLD from the bytes it has read: elements and scale store, or a status. -/
def State.decodeWeights (s : State) (core : Nat) (e : Eng) (key : WKey) (got : List Host.Cell) :
    Except Nat (List (List Nat) × List Byte) :=
  if key.fromTile then
    match s.handle core e.l with
    | .error st => .error st
    | .ok t =>
      let p := ({ s.baseTile core t with bytes := got } : Tile).plane t
      let recs := (List.range t.shape.rows).flatMap fun r =>
        let row := ((if key.bg == .g4 then leBytes 4 (p.supers.getD r 0) else []) ++
          (p.scales.getD r []).map fun b => BitVec.ofNat 8 b).take 64
        row ++ List.replicate (64 - row.length) 0
      .ok (p.elems, if key.bg.scaled then recs else [])
  else
    let eb := planeBytesOf key.ty key.cmp
    match decompress key.ty key.cmp (eb / slotN key.ty) (slotN key.ty) (Memory.getMany got 0 eb) with
    | none => .error stFormat
    | some rows => .ok (rows, if key.bg.scaled then Memory.getMany got eb 16384 else [])

/-- R186: records the status of a context's last WLD on a logical slot. -/
def State.wldStatus (s : State) (core ctx ws st : Nat) : State :=
  s.modEng core fun g => { g with wStat := (ctx, ws, st) :: g.wStat.filter fun w => !(w.1 == ctx && w.2.1 == ws) }

/-- R183: binds a logical slot to a slot that holds its key, or takes one by R180: `none` where it has to wait. DEDUCED (log 63). -/
def State.attachWld (s : State) (core : Nat) (e : Eng) (ws : Nat) (key : WKey) (may : Bool) : Option State :=
  -- what a later WLD bound meanwhile is unbound
  let s := s.unbind core e.site.ctx (some ws)
  let g := (s.core core).eng
  let b := (e.site.ctx, ws)
  match g.findKey key with
  | some (i, w) =>
    let s := s.modPw core i fun w => { w with bound := w.bound ++ [b], state := if w.state == .idle then .ready else w.state }
    some (s.modEngRec core e.idx fun x =>
      if w.state == .loading then { x with slots := [(i, key)] } else { x with step := .finishing, slots := [] })
  | none =>
    if !may then none else match g.chooseSlot with
      | none => none
      | some i =>
        let s := s.modPw core i fun _ => { state := .loading, key := key, bound := [b], loader := e.idx }
        some (s.modEngRec core e.idx fun x => { x with slots := [(i, key)] })

/-- R183: a WLD fires, or is fired again on resume: its logical slot is unbound, then it binds or waits (R180). -/
def State.startWld (s : State) (core : Nat) (e : Eng) (ws : Nat) (key : WKey) : State :=
  let s := s.unbind core e.site.ctx (some ws)
  match s.attachWld core e ws key (s.core core).eng.wFifo.isEmpty with
  | some s => s
  | none => s.modEng core fun g => { g with wFifo := g.wFifo ++ [.cmd e.idx] }

/-- WLD, R183. DEDUCED (log 153). -/
def execWld (p : Par) (comp : Comp) (sx : BitVec 4) (bg : Geom) (ws : BitVec 2) (gen : BitVec 16) (s : State) :
    Host.Outcome State Fault Refusal :=
  s.firing p latTile [s.cur.l] fun s =>
    let site := s.cur.site
    match s.wldSource site s.cur.l p.ty bg comp sx.toNat gen.toNat with
    | .error st => (s.wldStatus site.core site.ctx ws.toNat st).failing p latTile st [s.cur.l]
    | .ok (key, scale) =>
      let i := (s.freeRec site.core).getD 0
      let s := s.command p { opc := 0x100, l := s.cur.l, kind := .wld ws.toNat key scale }
      match s.eng? site.core i with
      | some e => s.startWld site.core e ws.toNat key
      | none => s

/-- WFREE, R184. -/
def execWfree (p : Par) (ws : BitVec 2) (s : State) : Host.Outcome State Fault Refusal :=
  s.firing p latTile [s.cur.l] fun s =>
    let site := s.cur.site
    (s.unbind site.core site.ctx (some ws.toNat)).finish p latTile (spread p (scalarTok site 0)) [s.cur.l]

/-- R189, R334: a saved weight slot binds to a resident one with its key, or its content goes into a slot of R180, which the
restore holds until the context goes on: none while no slot can be had. -/
def State.placeWeight (s : State) (core ctx old : Nat) (w : WSlot) : Option State :=
  let g := (s.core core).eng
  let note (i : Nat) (s : State) : State := s.modCtx ctx fun c =>
    { c with saved := { c.saved with placed := c.saved.placed ++ [(core, old, i)] } }
  match g.findKey w.key with
  | some (i, _) => some (note i (s.modPw core i fun x =>
      { x with bound := x.bound ++ w.bound, holds := x.holds + 1, state := if x.state == .idle then .ready else x.state }))
  | none => g.chooseSlot.map fun i => note i (s.modPw core i fun _ => { w with holds := 1 })

/-- The saved weight slot that a restore asks for. -/
def State.savedWeight (s : State) (core ctx old : Nat) : Option WSlot :=
  (s.ctx? ctx).bind fun c => if c.mode == .restoring then
    (c.saved.weights.find? fun w => w.1 == core && w.2.1 == old).map fun w => w.2.2
  else none

/-- WEIGHT_SLOT_GRANT, R180, R334: the head of the weight-slot FIFO takes a slot. -/
def execWeightSlotGrant (core : Nat) (s : State) : Host.Outcome State Fault Refusal :=
  match (s.core core).eng.wFifo with
  | [] => .next s
  | .back ctx old :: rest =>
    match s.savedWeight core ctx old with
    | none => .next (s.modEng core fun g => { g with wFifo := rest })
    | some w => match s.placeWeight core ctx old w with
      | some s => .next (s.modEng core fun g => { g with wFifo := rest })
      | none => .next s
  | .cmd i :: rest =>
    match s.eng? core i with
    | none => .next (s.modEng core fun g => { g with wFifo := rest })
    | some e => match e.kind with
      | .wld ws key _ => match s.attachWld core e ws key true with
        | some s => .next (s.modEng core fun g => { g with wFifo := rest })
        | none => .next s
      | _ => .next s

/-- R186: the info word of a logical slot; the binding count saturates. DESIGN CHOICE (log 174). -/
def infoWord (g : Engines) (ctx ws : Nat) : Nat :=
  let st := ((g.wStat.find? fun w => w.1 == ctx && w.2.1 == ws).map fun w => w.2.2).getD 0
  match g.slotOf ctx ws with
  | none => st
  | some (i, w) =>
    (match w.state with
      | .loading => 1 | .failed => 3 | _ => 2) * 2 ^ 62 + tyCode w.key.ty * 2 ^ 58 + geomCode w.key.bg * 2 ^ 54 +
      compCode w.key.cmp * 2 ^ 52 + i * 2 ^ 48 + w.key.gen * 2 ^ 32 + min w.bound.length 16 * 2 ^ 27 + st

/-- WINFO, R186. -/
def execWinfo (p : Par) (ws : BitVec 2) (s : State) : Host.Outcome State Fault Refusal :=
  s.firing p latTile [s.cur.l] fun s =>
    let site := s.cur.site
    s.finish p latTile (spread p (scalarTok site (BitVec.ofNat 64 (infoWord (s.core site.core).eng site.ctx ws.toNat)))) [s.cur.l]

/-! ## Status records (R196) -/

/-- A row fails. -/
def MStat.fail (m : MStat) (row st : Nat) : MStat :=
  { m with first := if m.first == 0 then st else m.first, last := st, map := if m.map.contains row then m.map else m.map ++ [row] }

/-- A pass commits. -/
def MStat.pass (m : MStat) : MStat := { m with passes := min (m.passes + 1) (2 ^ 29 - 1) }

def MStat.summary (m : MStat) : Nat :=
  let low := m.map.foldl min 511
  m.first * 2 ^ 56 + m.last * 2 ^ 48 + m.map.length * 2 ^ 38 + (if m.map.isEmpty then 0 else low) * 2 ^ 29 + m.passes

/-- Bitmap word `j`. -/
def MStat.bits (m : MStat) (j : Nat) : Nat :=
  ((List.range 64).map fun i => if m.map.contains (64 * j + i) then 2 ^ i else 0).sum

/-- MSTAT, R196. DEDUCED (log 61). -/
def execMstat (p : Par) (what : BitVec 4) (clr : Bool) (s : State) : Host.Outcome State Fault Refusal :=
  s.tileFiring p [s.cur.l] fun s t =>
    let site := s.cur.site
    if !t.shape.acc then
      s.finish p latTile [(p.d0, poisonTok s site stFormat), (p.d1, carryTok site s.cur.l)] [s.cur.l]
    else
      let v := if what == 0 then t.mstat.summary else t.mstat.bits (what.toNat - 1)
      let s := if clr then s.modTileIdx site.core t.idx fun t => { t with mstat := {} } else s
      s.finish p latTile [(p.d0, scalarTok site (BitVec.ofNat 64 v)), (p.d1, carryTok site s.cur.l)] [s.cur.l]

/-! ## Commands: firing -/

/-- The class of a command (R188). -/
def State.classOfEng (s : State) (core : Nat) (e : Eng) : Nat := s.classOf core e.site.cslot e.site.block e.site.ctx

/-- A command enters arbitration (R188). -/
def State.enterArb (s : State) (core idx : Nat) : State :=
  s.modEngRec core idx fun e => { e with step := .queued, pan := none }

/-- R237, R401: entries of the Pan in use: those whose last row has not issued. -/
def Engines.panUsed (g : Engines) : Nat :=
  (g.recs.filter fun e => e.pan.isSome && decide (e.row < e.total)).length

/-- R187: every slot that a command holds is READY or FAILED. -/
def Engines.slotsReady (g : Engines) (slots : List (Nat × WKey)) : Bool :=
  slots.all fun x => match g.pw[x.1]? with
    | some w => w.state == .ready || w.state == .failed
    | none => false

/-- R188: rows of what the engine started last have still to issue. -/
def State.matrixBusy (s : State) (core : Nat) : Bool :=
  (s.core core).eng.matrix.any fun i => match s.eng? core i with
    | some e => decide (e.row < e.total)
    | none => false

/-- R198: every member of a group may start. -/
def State.groupReady (s : State) (core : Nat) (p : PanGroup) : Bool :=
  p.members.all fun i => match s.eng? core i with
    | some e => (s.core core).eng.slotsReady e.slots && s.engRuns e
    | none => false

/-- R397: the start of a group with a member under R26 is traced once, as the first such member. -/
def State.traceGroup (s : State) (members : List Nat) (rows core : Nat) : State :=
  match (members.filterMap fun i => s.eng? core i).find? fun e => e.trc with
  | some e =>
    let gen := ((e.slots.head?).map fun x => x.2.gen).getD 0
    s.traceRec e.site 7 (BitVec.ofNat 64 (gen + members.length * 2 ^ 16 + rows * 2 ^ 24)) 0 0
  | none => s

/-- R188, R198: a command, or a Pan group by its number, starts. -/
def State.startMatrix (s : State) (core : Nat) (members : List Nat) (group : Option Nat) : State :=
  let rows := (members.filterMap fun i => (s.eng? core i).map fun e => e.total).sum
  let s := members.foldl (fun s i => s.engStart core i) s
  let s := s.modEng core fun g => { g with
    matrix := members
    recs := g.recs.map fun e => match e.kind with
      | .mmas _ _ _ => if members.contains e.idx then { e with total := e.row + 1 } else e
      | _ => e
    pan := match group with
      | some id => g.pan.filter fun p => p.id != id
      | none => g.pan }
  match group with
  | none => s
  | some _ => (s.perfCore core 0x06 1).traceGroup members rows core

/-- R198, R401: closes a group, which enters arbitration; its closing is its place in the firing order. One whose slot is READY
and that finds the engine idle starts. DEDUCED (log 155). -/
def State.closePan (s : State) (core id : Nat) : State :=
  let s := s.modEng core fun g => { g with
    pan := g.pan.map fun p => if p.id == id && !p.closed then { p with closed := true, arb := g.seq } else p
    seq := g.seq + 1 }
  match (s.core core).eng.pan.find? fun p => p.id == id && p.closed with
  | some p => if !s.matrixBusy core && s.groupReady core p then s.startMatrix core p.members (some id) else s
  | none => s

/-- R198: groups whose deadline GTC has reached close. -/
def State.closeDue (s : State) (core : Nat) : State :=
  (s.core core).eng.pan.foldl (fun s p =>
    if !p.closed && decide (p.first + p.hold ≤ s.gtc) then s.closePan core p.id else s) s

/-- R197, R198: an MMA enters the Pan: it joins the open group of its key or opens one. -/
def State.enterPan (s : State) (core : Nat) (e : Eng) (hold : Nat) : State :=
  let s := s.closeDue core
  let key := ((e.slots.head?).map fun x => x.2).getD {}
  let limit := (s.core core).regs.panHold
  let h := if hold != 0 && decide (hold < limit) then hold else limit
  let same (p : PanGroup) : Bool := p.key == key && !p.closed
  let s := match (s.core core).eng.pan.find? same with
    | some p => if 128 < p.rows + e.total then s.closePan core p.id else s
    | none => s
  let g := (s.core core).eng
  let s' : State × Nat := match g.pan.find? same with
    | some p => (s.modEng core fun g => { g with pan := g.pan.map fun (x : PanGroup) => if x.id == p.id then
        { x with members := x.members ++ [e.idx], rows := x.rows + e.total, hold := min x.hold h } else x }, p.id)
    | none => (s.modEng core fun g => { g with
        pan := g.pan ++ [{ id := g.panSeq, key := key, members := [e.idx], rows := e.total, first := s.gtc, hold := h }]
        panSeq := g.panSeq + 1 }, g.panSeq)
  let s := s'.1.modEngRec core e.idx fun x => { x with pan := some s'.2, step := .waiting }
  let full := (s.core core).eng.pan.any fun p => p.id == s'.2 && decide (128 ≤ p.rows)
  if full || s.classOfEng core e == 0 then s.closePan core s'.2 else s

/-- R188, R197: offers an MMA to the Pan or to arbitration; it waits for a slot that is LOADING. -/
def State.offer (s : State) (core : Nat) (e : Eng) : State :=
  match e.kind with
  | .mma arow acol koff zacc hold =>
    let enters : Option Nat := hold.filter fun _ => decide (e.total ≤ 127) && decide ((s.core core).eng.panUsed < 16) && e.row == 0
    match enters with
    | some h => s.enterPan core e h
    | none =>
      let s := s.modEngRec core e.idx fun x => { x with kind := .mma arow acol koff zacc none, step := .waiting, pan := none }
      if e.slots.any fun x => match (s.core core).eng.pw[x.1]? with
          | some w => w.state == .ready || w.state == .failed
          | none => false
      then s.enterArb core e.idx else s
  | _ => s

/-- R187: a failure before the first row: R to D0, poison to D1 and D2. -/
def State.mmaFail (s : State) (p : Par) (st : Nat) : State :=
  let site := s.cur.site
  let t := poisonTok s site st
  s.finish p latTile [(p.d0, carryTok site s.cur.r), (p.d1, t), (p.d2, t)] [s.cur.l, s.cur.r]

/-- MMA, R187. -/
def execMma (p : Par) (pan : Bool) (zacc : Bool) (acol : BitVec 8) (ws : BitVec 2) (arow : BitVec 9) (koff : BitVec 5)
    (hold : BitVec 16) (s : State) : Host.Outcome State Fault Refusal :=
  let site := s.cur.site
  let l := s.cur.l
  let r := s.cur.r
  let ops := [l, r]
  match badInput [r], badInput [l] with
  | some _, _ => .next (s.finish p latTile (spread p (carryTok site ((badInput ops).getD r))) ops)
  | none, some t => .next (s.finish p latTile [(p.d0, carryTok site r), (p.d1, carryTok site t), (p.d2, carryTok site t)] ops)
  | none, none =>
    match s.handle site.core l, s.handle site.core r with
    | .error st, _ => .next (s.mmaFail p st)
    | .ok _, .error st => .next (s.mmaFail p st)
    | .ok a, .ok acc =>
      match (s.core site.core).eng.slotOf site.ctx ws.toNat with
      | none => .next (s.mmaFail p stFormat)
      | some (i, w) =>
        if w.state == .empty || a.shape.acc || !acc.shape.acc || !modeOk a.shape.ty a.shape.bg w.key.ty w.key.bg then
          .next (s.mmaFail p stFormat)
        else if acc.shape.rows < arow.toNat + a.shape.rows || acc.shape.cols < acol.toNat + slotN w.key.ty then
          .next (s.mmaFail p stExtentBound)
        else
          let e : Eng := { opc := 0x102, l := l, r := r, slots := [(i, w.key)], total := a.shape.rows,
                           kind := .mma arow.toNat acol.toNat koff.toNat zacc
                             (if pan && !site.step then some hold.toNat else none) }
          let idx := (s.freeRec site.core).getD 0
          let s := (s.command p e).modPw site.core i fun w => { w with holds := w.holds + 1 }
          match s.eng? site.core idx with
          | some e => .next (s.offer site.core e)
          | none => .next s

/-- R190: a row's checks: the slots that its passes use, and its scale, or the status. -/
def State.mmasRow (s : State) (ws : Nat) (ty : Ty) (l r : Tok) : Except Nat (List (Nat × WKey) × Nat) :=
  let site := s.cur.site
  let g := (s.core site.core).eng
  match s.handle site.core l with
  | .error st => .error st
  | .ok a =>
    if !isRead r then .error stFormat
    else match g.slotOf site.ctx ws with
      | none => .error stFormat
      | some (_, w) =>
        let k := slotK w.key.ty
        let np := ceilDiv a.shape.cols k
        let slots := (List.range np).map fun i => g.slotOf site.ctx (ws + i)
        let ok := slots.all fun x => match x with
          | some y => y.2.state != .empty && y.2.key.ty == w.key.ty && y.2.key.bg == w.key.bg
          | none => false
        if a.shape.rows != 1 || a.shape.acc || !modeOk a.shape.ty a.shape.bg w.key.ty w.key.bg ||
            decide (4 * k < a.shape.cols) || decide (3 < ws + np - 1) || !ok then .error stFormat
        else .ok (slots.filterMap fun x => x.map fun y => (y.1, y.2.key), tensorScale ty r.val)

/-- R190, R302: something joins a stream's queue, with its firing order; a row holds its slots. -/
def State.addMmas (s : State) (core idx : Nat) (x : MmasRow) : State :=
  let n := (s.core core).eng.seq
  let s := x.slots.foldl (fun s y => s.modPw core y.1 fun w => { w with holds := w.holds + 1 }) s
  (s.modEng core fun g => { g with seq := n + 1 }).modEngRec core idx fun e =>
    { e with stepped := e.stepped || (s.cur.site.step && e.stream.mrows.isEmpty), stream := { e.stream with mrows := e.stream.mrows ++ [{ x with seq := n }] } }

/-- MMAS (R190, R302): a row, EOS or poison joins its stream; the first row opens it. -/
def State.mmasFire (s : State) (p : Par) (ws : Nat) (mode : Mode) (sat : Bool) (oty : Ty) (r : Option Tok) (scale : Tok)
    (ops : List Tok) : Host.Outcome State Fault Refusal :=
  let site := s.cur.site
  let core := site.core
  let last := s.lastStream core site.frame site.node
  match badInput ops with
  | some t =>
    if t.kind == kPoison then match last.filter fun e => !e.stream.mrows.isEmpty with
      | some e => .next ((s.finish p latTile [] []).addMmas core e.idx { l := s.cur.l, r := r, poison := some (carryTok site t) })
      | none => .next (s.finish p latTile (spread p (carryTok site t)) ops)
    else match last with
      | some e => .next ((s.finish p latTile [] []).addMmas core e.idx { l := s.cur.l, r := r, eos := true })
      | none => .next (s.finish p latTile (spread p (carryTok site t)) ops)
  | none =>
    let row : MmasRow := match s.mmasRow ws p.ty s.cur.l scale with
      | .ok (slots, t) => { l := s.cur.l, r := r, slots := slots, t := t }
      | .error st => { l := s.cur.l, r := r, fail := st }
    match s.openStream core site.frame site.node with
    | some e => .next ((s.finish p latTile [] []).addMmas core e.idx row)
    | none =>
      let i := (s.freeRec core).getD 0
      .next (((s.command p { opc := 0x103, l := s.cur.l, r := s.cur.r, kind := .mmas mode sat oty,
                             stream := { opened := true } }).askTile core
        { site := site, shape := { ty := .f32, rows := 1, cols := 256, acc := true }, why := 2, owner := i }).addMmas core i row)

/-- MMAS, R190. -/
def execMmas (p : Par) (mode : Mode) (sat : Bool) (oty : Ty) (ws : BitVec 2) (s : State) : Host.Outcome State Fault Refusal :=
  s.mmasFire p ws.toNat mode sat oty (some s.cur.r) s.cur.r [s.cur.l, s.cur.r]

/-- MMAS with its scale in IMM, R190. -/
def execMmasImm (p : Par) (mode : Mode) (sat : Bool) (oty : Ty) (ws : BitVec 2) (imm : BitVec 32) (s : State) :
    Host.Outcome State Fault Refusal :=
  s.mmasFire p ws.toNat mode sat oty none (immTok p.ty imm) [s.cur.l]

/-- R191: starts a drain toward `target`. -/
def State.drainTo (s : State) (p : Par) (t : Tile) (scale : Tok) (mode : Mode) (sat clr : Bool) (oty : Ty) (target : Dest)
    (ops : List Tok) : State :=
  if !isRead scale then s.failing p latTile stFormat ops
  else
    s.commandNew p { opc := 0x104, l := s.cur.l, r := s.cur.r, c := s.cur.c, total := t.shape.rows,
                     kind := .adrain (tensorScale p.ty scale.val) mode sat clr oty target }
      { ty := oty, rows := t.shape.rows, cols := t.shape.cols } ops

/-- R191: an L that is no accumulator tile. -/
def State.noAcc (s : State) (p : Par) (ops : List Tok) : State :=
  let site := s.cur.site
  s.finish p latTile [(p.d0, poisonTok s site stFormat), (p.d1, carryTok site s.cur.l)] ops

/-- ADRAIN, R191. DEDUCED (log 153). -/
def execAdrain (p : Par) (mode : Mode) (sat : Bool) (clr : Bool) (oty : Ty) (s : State) : Host.Outcome State Fault Refusal :=
  s.tileFiring p [s.cur.l, s.cur.r] fun s t =>
    if !t.shape.acc then s.noAcc p [s.cur.l, s.cur.r]
    else s.drainTo p t s.cur.r mode sat clr oty p.d0 [s.cur.l, s.cur.r]

/-- ADRAIN with its scale in IMM, R191. -/
def execAdrainImm (p : Par) (mode : Mode) (sat : Bool) (clr : Bool) (oty : Ty) (imm : BitVec 32) (s : State) :
    Host.Outcome State Fault Refusal :=
  s.tileFiring p [s.cur.l] fun s t =>
    if !t.shape.acc then s.noAcc p [s.cur.l]
    else s.drainTo p t (immTok p.ty imm) mode sat clr oty p.d0 [s.cur.l]

/-- R191: the target of a steered drain. -/
def State.steerTarget (s : State) (p : Par) (tbl : BitVec 6) : Dest :=
  let i := s.cur.r.val.toInt
  if 8 ≤ i then p.d0 else dispDest (s.tableOf s.cur.site tbl.toNat) p.d0 i

/-- Steered ADRAIN, R191. -/
def execAdrainSteer (p : Par) (mode : Mode) (sat : Bool) (clr : Bool) (tbl : BitVec 6) (oty : Ty) (s : State) :
    Host.Outcome State Fault Refusal :=
  s.tileFiring p [s.cur.l, s.cur.r, s.cur.c] fun s t =>
    let ops := [s.cur.l, s.cur.r, s.cur.c]
    if !t.shape.acc then s.noAcc p ops
    else if !isRead s.cur.r then s.failing p latTile stFormat ops
    else s.drainTo p t s.cur.c mode sat clr oty (s.steerTarget p tbl) ops

/-- Steered ADRAIN with its scale in IMM, R191. -/
def execAdrainSteerImm (p : Par) (mode : Mode) (sat : Bool) (clr : Bool) (tbl : BitVec 6) (oty : Ty) (imm : BitVec 32)
    (s : State) : Host.Outcome State Fault Refusal :=
  s.tileFiring p [s.cur.l, s.cur.r] fun s t =>
    let ops := [s.cur.l, s.cur.r]
    if !t.shape.acc then s.noAcc p ops
    else if !isRead s.cur.r then s.failing p latTile stFormat ops
    else s.drainTo p t (immTok p.ty imm) mode sat clr oty (s.steerTarget p tbl) ops

/-- ACLR, R192. -/
def execAclr (p : Par) (s : State) : Host.Outcome State Fault Refusal :=
  s.tileCmdFiring p [s.cur.l] fun s t =>
    if !t.shape.acc then s.failing p latTile stFormat [s.cur.l]
    else
      let i := (s.freeRec s.cur.site.core).getD 0
      let core := s.cur.site.core
      (s.command p { opc := 0x105, l := s.cur.l, total := t.shape.rows, kind := .aclr }).enterArb core i

end Sys2Proof.Machine
end

