-- ==== Sys2Proof/Machine/MatrixEngine.lean ====
section
/-! DEFINITION. The matrix engine at work: weight loads end (R183), arbitration (R188), rows issue and commit (R187, R193
to R197), the Pan's deadlines (R198), and the end of tile and matrix commands (R138, R182). -/

namespace Sys2Proof.Machine

/-! ## Slots held by commands -/

/-- R179: a command gives back its slots. -/
def State.dropHolds (s : State) (core : Nat) (slots : List (Nat × WKey)) : State :=
  s.modEng core fun g => g.modSlots fun i w => { w with holds := w.holds - (slots.filter fun x => x.1 == i).length }

/-- R189: slots that a command lost with a frozen load are found again by their keys. -/
def Engines.regain (g : Engines) (slots : List (Nat × WKey)) : List (Nat × WKey) :=
  slots.map fun x => if x.1 < 4 then x else match g.findKey x.2 with
    | some w => (w.1, x.2)
    | none => x

/-- Slots gained by `regain` get their references. -/
def State.holdNew (s : State) (core : Nat) (old new : List (Nat × WKey)) : State :=
  (old.zip new).foldl (fun s x => if x.1.1 == x.2.1 then s else
    s.modPw core x.2.1 fun w => { w with holds := w.holds + 1, state := if w.state == .idle then .ready else w.state }) s

def State.regainSlots (s : State) (core : Nat) : State :=
  (s.core core).eng.recs.foldl (fun s e =>
    if !s.engRuns e then s else
      let new := (s.core core).eng.regain e.slots
      let s := (s.holdNew core e.slots new).modEngRec core e.idx fun x => match x.kind with
        | .wld _ _ _ => x
        | _ => { x with slots := new }
      (enumL e.stream.mrows).foldl (fun s r =>
        let new := (s.core core).eng.regain r.2.slots
        (s.holdNew core r.2.slots new).modEngRec core e.idx fun x =>
          { x with stream := { x.stream with mrows := x.stream.mrows.modify r.1 fun y => { y with slots := new } } }) s) s

/-! ## Entering arbitration -/

/-- R190: an output row that a stream has emitted is on its way: not accepted downstream. -/
def State.onWay (s : State) (core : Nat) (h : Word) : Bool :=
  (s.flight.any fun q => q.tok.kind == kTile && q.tok.val == h && q.ecore == core && q.epkg == s.plat.pkg &&
    (q.core == core || q.tile.isSome)) || s.departing.any fun d => d.core == core && d.handle == h

/-- R190: the stream's next row to issue, unless four of its output rows have not been accepted downstream. -/
def State.nextRow (s : State) (core : Nat) (e : Eng) : Option MmasRow :=
  if 4 ≤ (e.stream.mrows.filter fun r => r.phase != 0).length + (e.stream.sent.filter fun h => s.onWay core h).length then none
  else e.stream.mrows.find? fun r => r.phase == 0 && r.fail == 0 && !r.eos && r.poison.isNone

/-- R188: commands whose slots have become READY enter arbitration, in firing order. -/
def State.promote (s : State) (core : Nat) : State :=
  (s.core core).eng.recs.foldl (fun s e =>
    if e.step != .waiting || !s.engRuns e then s else
      match e.kind with
      | .mma _ _ _ _ _ => if e.pan.isNone && (s.core core).eng.slotsReady e.slots then s.enterArb core e.idx else s
      | .mmas _ _ _ => match s.nextRow core e with
        | some r => if e.stream.stateTile.isSome && (s.core core).eng.slotsReady r.slots then s.enterArb core e.idx else s
        | none => s
      | _ => s) s

/-! ## WLD_LOAD_COMPLETE -/

/-- R187, R190: commands that wait for a load that failed fail with its status. -/
def State.failWaiters (s : State) (core slot st : Nat) : State :=
  let holdsIt (l : List (Nat × WKey)) : Bool := l.any fun x => x.1 == slot
  let s := (s.core core).eng.recs.foldl (fun s e =>
    match e.kind with
    | .mma arow _ _ _ _ =>
      if !holdsIt e.slots then s else
        let s := match s.tileOf? core e.r.val with
          | some acc => s.modTileIdx core acc.idx fun t =>
              { t with mstat := (List.range (e.total - e.row)).foldl (fun m i => m.fail (arow + e.row + i) st) t.mstat }
          | none => s
        s.modEng core fun g => { g with
          recs := g.recs.map fun x => if x.idx == e.idx then
            { x with fail := if x.fail == 0 then st else x.fail, row := x.total, step := .finishing, slots := [], pan := none }
            else x
          pan := (g.pan.map fun p => g.leave p fun m => m == e.idx).filter fun p => !p.members.isEmpty }
    | .mmas _ _ _ =>
      s.modEngRec core e.idx fun x => { x with stream := { x.stream with mrows := x.stream.mrows.map fun r =>
        if (holdsIt r.slots && r.phase == 0) then { r with fail := st, slots := r.slots.filter fun y => y.1 != slot } else r } }
    | _ => s) s
  s.modPw core slot fun w => { w with holds := 0 }

/-- R183: a load has succeeded: its slot is READY with the content and its column sums, and every WLD that waits for it ends. -/
def State.loaded (s : State) (core slot : Nat) (rows : List (List Nat)) (scales : List Byte) : State :=
  let s := s.modEng core fun g =>
    { g with recs := g.recs.map fun x =>
        if x.loads && x.slots.any (fun y => y.1 == slot) then { x with step := .finishing, slots := [], moves := [] } else x }
  (s.modEng core fun g => g.modSlots fun i w => if i == slot && w.state == .loading then
    let w := { w with state := .ready, elems := rows, scales := scales, ue := false, ce := false }
    { w with sums := if exactMode w.key.ty then w.columnSums else [] } else w).promote core

/-- R183: a load has failed: every WLD that waits for it has its poison, whose origin is the load's WLD, and the slot is
EMPTY, with all its bindings gone. -/
def State.loadFailed (s : State) (core slot : Nat) (e : Eng) (st : Nat) : State :=
  let origin := poisonVal s e.site st
  -- R189: commands that find the slot again by its key wait for this load too
  let s := s.regainSlots core
  let s := s.modEng core fun g => { g with
    recs := g.recs.map fun x => if x.loads && x.slots.any (fun y => y.1 == slot) then
      { x with step := .finishing, slots := [], moves := [], fail := st, word := origin } else x }
  (s.failWaiters core slot st).modPw core slot fun _ => {}

/-- WLD_LOAD_COMPLETE, R183, R185: the load of a slot starts to read; once its source has been read, or a read has failed,
the content is decompressed and the slot is READY or EMPTY. -/
def execWldLoadComplete (core : Nat) (slot : Nat) (s : State) : Host.Outcome State Fault Refusal :=
  match (s.core core).eng.pw[slot]? with
  | none => .next s
  | some w =>
    match s.eng? core w.loader with
    | none => .next s
    | some e =>
      if w.state != .loading || !s.engRuns e then .next s
      else match e.kind with
        | .wld _ key scale =>
          if e.step == .waiting then .next (s.beginLoad core e key scale)
          else if e.fail != 0 then .next (s.loadFailed core slot e e.fail)
          else if !e.allRead then .next s
          else match s.decodeWeights core e key (e.moves.headD {}).got with
            | .error st => .next (s.loadFailed core slot e st)
            | .ok c => .next (s.loaded core slot c.1 c.2)
        | _ => .next s

/-! ## ENGINE_ARBITRATION -/

/-- R188, R198: the class of a Pan group: that of its most urgent member. -/
def State.classOfGroup (s : State) (core : Nat) (p : PanGroup) : Nat :=
  (p.members.filterMap fun i => (s.eng? core i).map fun e => s.classOfEng core e).foldl min 3

/-- R198, R401: an open group with a member of class 0 closes. -/
def State.panRefresh (s : State) (core : Nat) : State :=
  (s.core core).eng.pan.foldl (fun s p => if !p.closed && s.classOfGroup core p == 0 then s.closePan core p.id else s) s

/-- R238, R318: a new base priority takes effect on every core of the context, the Pan included. -/
def State.setPrio (s : State) (id : Nat) (f : CtxRegs → CtxRegs) : State :=
  let old := s.eff id
  let s := (s.modRegs id f).refile id old
  match s.ctx? id with
  | none => s
  | some c => c.seats.foldl (fun s k => s.panRefresh k.1) s

/-- What may start: class, place in the firing order, members, and the group's number. DEDUCED (log 155). -/
def State.matrixCandidates (s : State) (core : Nat) : List (Nat × Nat × List Nat × Option Nat) :=
  let g := (s.core core).eng
  let single := g.recs.filterMap fun e =>
    let order : Option Nat := match e.kind with
      | .mma _ _ _ _ _ => if g.slotsReady e.slots then some e.seq else none
      | .mmas _ _ _ => (s.nextRow core e).bind fun r => if g.slotsReady r.slots then some r.seq else none
      | .adrain _ _ _ _ _ _ => if e.out.isSome then some e.seq else none
      | .aclr => some e.seq
      | _ => none
    if e.step == .queued && e.pan.isNone && s.engRuns e then order.map fun n => (s.classOfEng core e, n, [e.idx], none) else none
  let groups := g.pan.filterMap fun p =>
    if p.closed && s.groupReady core p then some (s.classOfGroup core p, p.arb, p.members, some p.id) else none
  single ++ groups

/-- The most urgent, and of those the earliest. -/
def bestCandidate (l : List (Nat × Nat × List Nat × Option Nat)) : Option (Nat × Nat × List Nat × Option Nat) :=
  l.foldl (fun best x => match best with
    | none => some x
    | some b => if x.1 < b.1 || (x.1 == b.1 && decide (x.2.1 < b.2.1)) then some x else best) none

/-- ENGINE_ARBITRATION, R188: when every row of the last start has issued, the next command or group starts. -/
def execEngineArbitration (core : Nat) (s : State) : Host.Outcome State Fault Refusal :=
  let s := ((s.regainSlots core).panRefresh core).promote core
  if s.matrixBusy core then .next s else
    match bestCandidate (s.matrixCandidates core) with
    | none => .next s
    | some (_, _, members, group) => .next (s.startMatrix core members group)

/-! ## Rows -/

/-- The A row of a command's row `r` for pass `kk`. -/
def State.rowOf (s : State) (core : Nat) (l : Tok) (r koff p : Nat) : ARow :=
  match s.tileOf? core l.val with
  | some t => aRow (s.baseTile core t) t r koff p
  | none => {}

/-- The slot of a held entry. -/
def Engines.held (g : Engines) (slots : List (Nat × WKey)) (i : Nat) : WSlot :=
  ((slots[i]?).bind fun x => g.pw[x.1]?).getD {}

/-- R194: whether every pass of a row is checked: with KOFF in one slot, or slot by slot for a stream. -/
def State.rowChecked (s : State) (core : Nat) (l : Tok) (r koff : Nat) (slots : List (Nat × WKey)) : Bool :=
  let g := (s.core core).eng
  (enumL slots).all fun x =>
    let w := g.held slots x.1
    checkedRow (s.rowOf core l r (koff + x.1) (slotK w.key.ty)) w

/-- R194: the check column agrees in every pass of a row. -/
def State.rowAgrees (s : State) (core : Nat) (l : Tok) (r koff : Nat) (slots : List (Nat × WKey)) : Bool :=
  let g := (s.core core).eng
  (enumL slots).all fun x =>
    let w := g.held slots x.1
    !exactMode w.key.ty || columnAgrees (s.rowOf core l r (koff + x.1) (slotK w.key.ty)) w

/-- R402: an injected error strikes a checked row as it issues. -/
def State.strikeRow (s : State) (core : Nat) (checked : Bool) : Nat × State :=
  let g := (s.core core).regs
  if g.rasTarget == 1 && g.rasCount != 0 && checked then
    (1, s.modCoreRegs core fun x => { x with rasCount := x.rasCount - 1 })
  else (0, s)

/-- R195, R199, R402: what a row meets as it issues: 1, an injected error; 2, a slot that is FAILED, or in which an error is
found now. -/
def State.issueRow (s : State) (core : Nat) (slots : List (Nat × WKey)) (checked : Bool) : Nat × State :=
  let g := (s.core core).eng
  let ue := (enumL slots).filter fun x => (g.held slots x.1).ue
  let s := if ue.isEmpty then s else
    (ue.foldl (fun s x => s.modPw core x.2.1 fun w => { w with state := .failed, ue := false }) s).countUe (dieOf core)
  let s := s.countErrs (dieOf core) ((enumL slots).filter fun x => (g.held slots x.1).ce).length 0
  let failed := (enumL slots).any fun x => (((s.core core).eng.held slots x.1)).state == .failed
  let k := s.strikeRow core checked
  if k.1 == 0 && failed then (2, k.2) else k

/-- Zeroes a row of an accumulator window. -/
def Tile.zeroRow (b t : Tile) (r : Nat) : Tile :=
  (List.range t.shape.cols).foldl (fun b c => b.setElem (t.row0 + r) (t.col0 + c) 0)
    (if t.col0 == 0 && t.shape.cols == b.shape.cols then b.mend (rowGrans b.shape (t.row0 + r) 0 b.shape.cols) else b)

/-- R191, R193: one row of a drain; a row with an uncorrectable error stops the command. -/
def State.drainRow (s : State) (core : Nat) (e : Eng) (t : Nat) (mode : Mode) (sat clr : Bool) (oty : Ty) : State :=
  match s.tileOf? core e.l.val, e.out with
  | some acc, some o =>
    let b := s.baseTile core acc
    let u := s.readRow core b (acc.row0 + e.row)
    let s := u.2
    if u.1 then s.modEngRec core e.idx fun x => { x with fail := stDataUe, total := x.row, step := .finishing }
    else
      let s := s.modTileIdx core o fun d =>
        let d := if e.row == 0 then d.wipe else d
        (List.range acc.shape.cols).foldl (fun d c =>
          d.setElem e.row c (drainElem t mode sat oty (b.elem (acc.row0 + e.row) (acc.col0 + c)))) d
      let s := if clr then s.modTileIdx core acc.baseIdx fun b => b.zeroRow acc e.row else s
      s.modEngRec core e.idx fun x =>
        { x with row := x.row + 1, step := if x.row + 1 == x.total then .finishing else x.step }
  | _, _ => s

/-- R440: ROW_N rows have issued in the present 16 clk; before the first division nothing is throttled. DESIGN CHOICE (log 183). -/
def State.rowThrottled (s : State) (core : Nat) : Bool :=
  let d := s.plat.dies.getD (dieOf core) {}
  let x := (s.core core).eng.rowsIn
  d.mhz != 0 && decide (d.rowN ≤ if x.1 == s.clk core / 16 then x.2 else 0)

/-- R440: an issued row is counted. DESIGN CHOICE (log 183). -/
def State.countRow (s : State) (core : Nat) : State :=
  if (s.plat.dies.getD (dieOf core) {}).mhz == 0 then s
  else s.modEng core fun g =>
    { g with rowsIn := (s.clk core / 16, if g.rowsIn.1 == s.clk core / 16 then g.rowsIn.2 + 1 else 1) }

/-- MMA_ROW_ISSUE, R188, R440: the next row of what the engine runs: a pass enters the write buffer, a drain or a clear
performs its row. -/
def execMmaRowIssue (core : Nat) (s : State) : Host.Outcome State Fault Refusal :=
  if s.rowThrottled core then .next s else
  let s := s.countRow core
  let g := (s.core core).eng
  match (g.matrix.filterMap fun i => s.eng? core i).find? fun e => decide (e.row < e.total) && s.engRuns e with
  | none => .next s
  | some e =>
    match e.kind with
    | .mma _ _ koff _ _ =>
      if 32 ≤ g.wbuf.length then .next s else
        let k := s.issueRow core e.slots (s.rowChecked core e.l e.row koff e.slots)
        let s := k.2.perfCore core 0x05 1
        .next (s.modEng core fun g => { g with
          wbuf := g.wbuf ++ [e.idx]
          recs := g.recs.map fun x => if x.idx == e.idx then
            { x with inflight := x.inflight ++ [(x.row, k.1)], row := x.row + 1 } else x })
    | .mmas _ _ _ =>
      match s.nextRow core e with
      | none => .next s
      | some r =>
        if 32 ≤ g.wbuf.length then .next s else
          let k := s.issueRow core r.slots (s.rowChecked core r.l 0 0 r.slots)
          let s := k.2.perfCore core 0x05 1
          let at' := (e.stream.mrows.findIdx? fun x => x == r).getD 0
          .next (s.modEng core fun g => { g with
            wbuf := g.wbuf ++ [e.idx]
            recs := g.recs.map fun x => if x.idx == e.idx then
              { x with inflight := x.inflight ++ [(x.row, k.1)], row := x.row + 1, step := .waiting,
                       stream := { x.stream with mrows := x.stream.mrows.modify at' fun y => { y with phase := 1 } } } else x })
    | .adrain t mode sat clr oty _ => .next (s.drainRow core e t mode sat clr oty)
    | .aclr =>
      match s.tileOf? core e.l.val with
      | none => .next s
      | some acc =>
        let s := s.modTileIdx core acc.baseIdx fun b => b.zeroRow acc e.row
        .next (s.modEngRec core e.idx fun x =>
          { x with row := x.row + 1, step := if x.row + 1 == x.total then .finishing else x.step })
    | _ => .next s

/-- R195, R402, R408: the status with which a row fails, 0 when it commits, with what it counts: RESIDUE for one that an injected
error struck. -/
def State.rowStatus (s : State) (core : Nat) (l : Tok) (r koff struck : Nat) (slots : List (Nat × WKey))
    (acc : Option (Tile × Nat)) : Nat × State :=
  if struck == 1 then (stResidue, s.countResidue core)
  else if struck == 2 then (stWeightUe, s)
  else
    let u : Bool × State := match s.tileOf? core l.val with
      | some t => s.readRows core t r 1
      | none => (false, s)
    let s := u.2
    let a : Bool × State := match acc with
      | some (t, row) => s.readRow core (s.baseTile core t) (t.row0 + row)
      | none => (false, s)
    let s := a.2
    if u.1 || a.1 then (stDataUe, s)
    else
      let fault := s.rowFaults.contains core
      let s := if fault then { s with rowFaults := s.rowFaults.erase core } else s
      if s.rowChecked core l r koff slots && (fault || !s.rowAgrees core l r koff slots) then
        (stResidue, s.countResidue core)
      else (0, s)

/-- R187: an MMA ends: R to D0; D1 and D2 tell whether a row failed; A is released. -/
def State.endMma (s : State) (core : Nat) (e : Eng) : State :=
  let done := if e.fail == 0 then scalarTok e.site 0 else poisonTok s e.site e.fail
  let s := s.dropHolds core e.slots
  s.endCommand core e e.fail [(e.d0, carryTok e.site e.r), (e.d1, done), (e.d2, done)] [e.l, e.r]

/-- R187: the pass of a row of an MMA commits, or the row fails. -/
def State.commitMma (s : State) (core : Nat) (e : Eng) (row struck arow acol koff : Nat) (zacc : Bool) : State :=
  match s.tileOf? core e.r.val with
  | none => s
  | some acc =>
    let st := s.rowStatus core e.l row koff struck e.slots (some (acc, arow + row))
    let s := st.2
    let w := (s.core core).eng.held e.slots 0
    let n := slotN w.key.ty
    let s := if st.1 != 0 then s.modTileIdx core acc.idx fun t => { t with mstat := t.mstat.fail (arow + row) st.1 }
      else
        let b := s.baseTile core acc
        let old := (List.range n).map fun i => if zacc then 0 else b.elem (acc.row0 + arow + row) (acc.col0 + acol + i)
        let new := passRow (s.rowOf core e.l row koff (slotK w.key.ty)) w old
        let s := s.modTileIdx core acc.baseIdx fun b =>
          (enumL new).foldl (fun b v => b.setElem (acc.row0 + arow + row) (acc.col0 + acol + v.1) v.2) b
        s.modTileIdx core acc.idx fun t => { t with mstat := t.mstat.pass }
    let s := s.modEngRec core e.idx fun x =>
      { x with inflight := x.inflight.tail, fail := if x.fail == 0 then st.1 else x.fail }
    match s.eng? core e.idx with
    | some x => if x.inflight.isEmpty && x.row == x.total then s.endMma core x else s
    | none => s

/-- R190: a row of a stream is computed, and a tile asked for; or it fails. -/
def State.commitMmas (s : State) (core : Nat) (e : Eng) (struck : Nat) (mode : Mode) (sat : Bool) (oty : Ty) : State :=
  match e.stream.mrows.findIdx? fun r => r.phase == 1 with
  | none => s
  | some i =>
    let r := e.stream.mrows.getD i {}
    let st := s.rowStatus core r.l 0 0 struck r.slots none
    let s := st.2
    let g := (s.core core).eng
    let n := slotN (g.held r.slots 0).key.ty
    let acc := (enumL r.slots).foldl (fun old x =>
      let w := g.held r.slots x.1
      passRow (s.rowOf core r.l 0 x.1 (slotK w.key.ty)) w old) (List.replicate n 0)
    let codes := if st.1 == 0 then acc.map fun a => drainElem r.t mode sat oty a else []
    let s := s.dropHolds core r.slots
    let s := s.modEngRec core e.idx fun x =>
      { x with inflight := x.inflight.tail,
               stream := { x.stream with mrows := x.stream.mrows.modify i fun y =>
                 { y with phase := 2, fail := st.1, codes := codes, slots := [] } } }
    if st.1 == 0 then s.askTile core { site := e.site, shape := { ty := oty, rows := 1, cols := n }, why := 2, owner := e.idx }
    else s

/-- MMA_ROW_COMMIT, R187, R193: the oldest row of the write buffer is checked and commits or fails. -/
def execMmaRowCommit (core : Nat) (s : State) : Host.Outcome State Fault Refusal :=
  match (s.core core).eng.wbuf with
  | [] => .next s
  | i :: rest =>
    let s := s.modEng core fun g => { g with wbuf := rest }
    match s.eng? core i with
    | none => .next s
    | some e =>
      let x := e.inflight.headD (0, 0)
      match e.kind with
      | .mma arow acol koff zacc _ => .next (s.commitMma core e x.1 x.2 arow acol koff zacc)
      | .mmas mode sat oty => .next ((s.commitMmas core e x.2 mode sat oty).promote core)
      | _ => .next s

/-- PAN_DEADLINE, R198: groups whose deadline GTC has reached close. -/
def execPanDeadline (core : Nat) (s : State) : Host.Outcome State Fault Refusal :=
  .next ((s.panRefresh core).closeDue core)

/-! ## ENGINE_COMMAND_COMPLETE -/

/-- R183: a WLD ends. -/
def State.endWld (s : State) (core : Nat) (e : Eng) (ws : Nat) : State :=
  let s := s.wldStatus core e.site.ctx ws e.fail
  s.endCommand core e e.fail (e.spread (if e.fail == 0 then scalarTok e.site 0 else mkTok e.site kPoison e.word)) [e.l]

/-- What follows a stream's EOS in its queue, as R94 forwards it. -/
def MmasRow.rest (r : MmasRow) : RowTok := { a := r.l, b := r.r, poison := r.poison }

/-- R165, R190: the EOS of an MMAS stream ends it; one whose activation has completed records ABANDONED. -/
def State.endMmas (s : State) (core : Nat) (e : Eng) (r : MmasRow) (rest : List MmasRow) : State :=
  let ops := r.l :: r.r.toList
  let site := { e.site with phase := r.l.phase, prio := r.l.prio }
  let s := s.settle site latTile e.rowStream (e.outPorts.spread (carryTok site ((badInput ops).getD {}))) ops
  let s := s.forwardRest e (rest.map MmasRow.rest)
  if e.stream.closing then s.dropStream core e else (s.freeStream core e).engEnd core e.idx 0

/-- R165, R190: the head row of an MMAS stream leaves with its output, or poison; the last one closes a stream whose
activation has completed. -/
def State.leaveMmas (s : State) (core : Nat) (e : Eng) (r : MmasRow) (rest : List MmasRow) (t : Tok) (mine : List Tok) : State :=
  let site := { e.site with phase := r.l.phase, prio := r.l.prio }
  -- R179: a row that failed before it issued gives back the slots that it still holds
  let s := s.dropHolds core r.slots
  let s := s.settle site latTile e.rowStream (e.outPorts.spread t) (mine ++ r.l :: r.r.toList)
  let s := s.modEngRec core e.idx fun x => { x with stream := { x.stream with
    mrows := rest, outs := if mine.isEmpty then x.stream.outs else x.stream.outs.tail
    sent := (x.stream.sent.filter fun h => s.onWay core h) ++ mine.map fun t => t.val } }
  match s.eng? core e.idx with
  | some x => (if e.stream.closing && rest.isEmpty then s.dropStream core x else s).promote core
  | none => s

/-- R190, R302: the stream's head row leaves, or its EOS, or poison; a stream leaves nothing before an earlier one of its
node has closed. -/
def State.endMmasRow (s : State) (core : Nat) (e : Eng) : State :=
  match e.stream.mrows with
  | [] => s
  | r :: rest =>
    let site := { e.site with phase := r.l.phase, prio := r.l.prio }
    if s.behindStream core e then s
    else if r.eos then s.endMmas core e r rest
    else if r.poison.isSome || r.fail != 0 then s.leaveMmas core e r rest (r.poison.getD (poisonTok s site r.fail)) []
    else match r.phase, e.stream.outs with
      | 2, i :: _ =>
        let s := s.modTileIdx core i fun t => (enumL r.codes).foldl (fun t c => t.setElem 0 c.1 c.2) t.wipe
        let t := mkTok site kTile (s.handleOf core i)
        s.leaveMmas core e r rest t [t]
      | _, _ => s

/-- R191: a drain ends: the output to its target, L to D1; one that fails sends poison there. DEDUCED (log 156). -/
def State.endDrain (s : State) (core : Nat) (e : Eng) (target : Dest) : State :=
  let used := [e.l, e.r, e.c]
  match e.out with
  | none => s
  | some i =>
    let o := mkTok e.site kTile (s.handleOf core i)
    if e.fail != 0 then
      let t := poisonTok s e.site e.fail
      s.endCommand core e e.fail [(target, t), (e.d1, t)] (o :: used)
    else s.endCommand core e 0 [(target, o), (e.d1, carryTok e.site e.l)] (o :: used)

/-- ENGINE_COMMAND_COMPLETE, R138, R182: a tile command, a weight load, a drain, a clear or a stream row completes. -/
def execEngineCommandComplete (core : Nat) (recd : Nat) (s : State) : Host.Outcome State Fault Refusal :=
  match s.eng? core recd with
  | none => .next s
  | some e =>
    if !s.engRuns e then .next s
    else match e.kind with
      | .tfill _ => .next (s.runTileCommand core e)
      | .tcopy toNew => if toNew && e.out.isNone then .next s else .next (s.runTileCommand core e)
      | .ttran => if e.out.isNone then .next s else .next (s.runTileCommand core e)
      | .wld ws _ _ => if e.step == .finishing then .next (s.endWld core e ws) else .next s
      | .mma _ _ _ _ _ => if e.step == .finishing then .next (s.endMma core e) else .next s
      | .mmas _ _ _ => .next (s.endMmasRow core e)
      | .adrain _ _ _ _ _ target => if e.step == .finishing then .next (s.endDrain core e target) else .next s
      | .aclr =>
        if e.step != .finishing then .next s
        else
          let s := match s.tileOf? core e.l.val with
            | some t => s.modTileIdx core t.idx fun t => { t with mstat := {} }
            | none => s
          .next (s.endCommand core e 0 (e.spread (carryTok e.site e.l)) [e.l])
      | _ => .next s

end Sys2Proof.Machine
end

