-- ==== Sys2Proof/Machine/Pipes.lean ====
section
/-! DEFINITION. Pipes (R224 to R226): the operations on a descriptor, and the firings of PCLM, PCMT, PAWT, PRET, PINFO. -/

namespace Sys2Proof.Machine

/-! ## The descriptor (R224) -/

structure PipeDesc where
  size : Nat := 1
  claimed : Nat := 0
  committed : Nat := 0
  taken : Nat := 0
  retired : Nat := 0
  padAt : Nat := 0
  padLen : Nat := 0
  padP : Bool := false
  deriving DecidableEq, Repr

/-- R224. -/
def pipeDesc (d : Nat) : PipeDesc :=
  { size := bf d 128 32, claimed := bf d 192 32, committed := bf d 224 32, taken := bf d 256 32, retired := bf d 288 32
    padAt := bf d 320 32, padLen := bf d 352 32, padP := bf d 0 1 == 1 }

/-- R224: the counters and the pad as the descriptor's 64 bytes hold them; the rest of `d` stays. -/
def pipePut (d : Nat) (p : PipeDesc) : Nat :=
  bf d 1 191 * 2 + (if p.padP then 1 else 0) + p.claimed * 2 ^ 192 + p.committed * 2 ^ 224 + p.taken * 2 ^ 256 +
    p.retired * 2 ^ 288 + p.padAt * 2 ^ 320 + p.padLen * 2 ^ 352 + d / 2 ^ 384 * 2 ^ 384

/-- Sums and differences of counters modulo 2^32. -/
def add32 (a b : Nat) : Nat := (a + b) % 2 ^ 32
def sub32 (a b : Nat) : Nat := (a + 2 ^ 32 - b % 2 ^ 32) % 2 ^ 32

/-- R224: the free count. -/
def PipeDesc.free (p : PipeDesc) : Int := (p.size : Int) - sub32 p.claimed p.retired

/-- A pending pad lies in the span from a counter to another. -/
def PipeDesc.padIn (p : PipeDesc) (lo hi : Nat) : Bool := p.padP && decide (sub32 p.padAt lo < sub32 hi lo)

/-- R224: the available count. -/
def PipeDesc.available (p : PipeDesc) : Int :=
  (sub32 p.committed p.taken : Int) - (if p.padIn p.taken p.committed then p.padLen else 0)

/-- What an operation on a descriptor answers: a failure, a wait, or the new descriptor, the result and the granule
offset and length of a pad record to write. -/
inductive PipeOut where
  | bad (st : Nat)
  | wait
  | done (p : PipeDesc) (result : Nat) (pad : Option (Nat × Nat))
  deriving DecidableEq, Repr

/-- PCLM (R225). DEDUCED (log 77). -/
def pipeClaim (p : PipeDesc) (n : Nat) : PipeOut :=
  let o := p.claimed % p.size
  if n == 0 then .done p o none
  else if p.size < n then .bad stOversize
  else
    let pad := if p.size < o + n then p.size - o else 0
    let grant (q : PipeDesc) (rec' : Option (Nat × Nat)) : PipeOut :=
      .done { q with claimed := add32 q.claimed n } (q.claimed % q.size) rec'
    if p.size < pad + n then
      if p.free == p.size && !p.padP then
        grant { p with claimed := add32 p.claimed pad, committed := add32 p.committed pad, taken := add32 p.taken pad,
                       retired := add32 p.retired pad } none
      else .wait
    else if decide ((pad + n : Nat) ≤ p.free) && (pad == 0 || !p.padP) then
      if pad == 0 then grant p none
      else
        let q : PipeDesc := { p with padAt := p.claimed, padLen := pad, padP := true, claimed := add32 p.claimed pad
                                     committed := if p.committed == p.claimed then add32 p.committed pad else p.committed }
        grant q (some (o, pad))
    else .wait

/-- PCMT (R225). -/
def pipeCommit (p : PipeDesc) (n : Nat) : PipeOut :=
  if n == 0 then .done p 0 none
  else
    let open' := sub32 p.claimed p.committed - (if p.padIn p.committed p.claimed then p.padLen else 0)
    if open' < n then .bad stExtentBound
    else
      let c := add32 p.committed n
      .done { p with committed := if p.padP && c == p.padAt then add32 c p.padLen else c } 0 none

/-- PAWT (R225). DEDUCED (log 77). -/
def pipeTake (p : PipeDesc) (n : Nat) : PipeOut :=
  if n == 0 then .done p (p.taken % p.size) none
  else if p.size < n then .bad stOversize
  else if decide (p.available < n) then .wait
  else
    let skip := if p.padP && p.taken == p.padAt then p.padLen else 0
    let t := add32 p.taken skip
    if p.size < t % p.size + n || (p.padP && skip == 0 && decide (sub32 p.padAt t < n)) then .bad stFormat
    else
      let q : PipeDesc := if p.padP && p.taken == p.padAt && skip != 0 then
        { p with taken := t, retired := add32 p.retired skip, padP := false } else p
      .done { q with taken := add32 q.taken n } (q.taken % q.size) none

/-- PRET (R225). -/
def pipeReturn (p : PipeDesc) (n : Nat) : PipeOut :=
  if n == 0 then .done p 0 none
  else if sub32 p.taken p.retired < n then .bad stExtentBound
  else .done { p with retired := add32 p.retired n } 0 none

/-- An operation on a legal descriptor: 0 claim, 1 commit, 2 take, 3 return, 4 info. -/
def pipeStep (op n : Nat) (p : PipeDesc) : PipeOut :=
  match op with
  | 0 => pipeClaim p n
  | 1 => pipeCommit p n
  | 2 => pipeTake p n
  | 3 => pipeReturn p n
  | _ => .done p ((p.free % 2 ^ 32).toNat * 2 ^ 32 + (p.available % 2 ^ 32).toNat) none

/-- R225: the result word of an operation. -/
def pipeResult (op q r : Nat) : Word :=
  if op == 0 || op == 2 then BitVec.ofNat 64 (3 * 2 ^ 60 + q * 2 ^ 56 + r * 64) else BitVec.ofNat 64 r

/-! ## Firings -/

/-- A pipe firing: its request goes to the bank that holds the descriptor. DEDUCED (log 25). -/
def State.pipeOp (s : State) (p : Par) (op : Nat) (pipe : BitVec 4) (n : Tok) (ops : List Tok) : State :=
  let q := pipe.toNat
  match (s.ctx? s.cur.site.ctx).bind fun c => c.pipes.find? fun x => x.1 == q with
  | none => s.failing p latGraph stExtentBound ops
  | some x =>
    s.fireReq p (if op == 4 then 1 else 4) [] ops
      { opc := 0x180 + op, cls := if op == 4 then 1 else 3, paddr := ownPa x.2, kind := .pipe op q, opa := n.val
        pieces := [{ place := .mem (ownPa x.2) 0 0, len := 64, op := .pipe op q n.val.toNat }] }

/-- PCLM, R225. -/
def execPclm (p : Par) (pipe : BitVec 4) (s : State) : Host.Outcome State Fault Refusal :=
  s.memFiring p [s.cur.r] [s.cur.l, s.cur.r] fun s => s.pipeOp p 0 pipe s.cur.r [s.cur.l, s.cur.r]

/-- PCLM of an immediate count, R225. -/
def execPclmImm (p : Par) (pipe : BitVec 4) (imm : BitVec 32) (s : State) : Host.Outcome State Fault Refusal :=
  s.memFiring p [] [s.cur.l] fun s => s.pipeOp p 0 pipe (immTok p.ty imm) [s.cur.l]

/-- PCMT, R225. -/
def execPcmt (p : Par) (pipe : BitVec 4) (s : State) : Host.Outcome State Fault Refusal :=
  s.memFiring p [s.cur.r] [s.cur.l, s.cur.r] fun s => s.pipeOp p 1 pipe s.cur.r [s.cur.l, s.cur.r]

/-- PCMT of an immediate count, R225. -/
def execPcmtImm (p : Par) (pipe : BitVec 4) (imm : BitVec 32) (s : State) : Host.Outcome State Fault Refusal :=
  s.memFiring p [] [s.cur.l] fun s => s.pipeOp p 1 pipe (immTok p.ty imm) [s.cur.l]

/-- PAWT, R225. -/
def execPawt (p : Par) (pipe : BitVec 4) (s : State) : Host.Outcome State Fault Refusal :=
  s.memFiring p [s.cur.r] [s.cur.l, s.cur.r] fun s => s.pipeOp p 2 pipe s.cur.r [s.cur.l, s.cur.r]

/-- PAWT of an immediate count, R225. -/
def execPawtImm (p : Par) (pipe : BitVec 4) (imm : BitVec 32) (s : State) : Host.Outcome State Fault Refusal :=
  s.memFiring p [] [s.cur.l] fun s => s.pipeOp p 2 pipe (immTok p.ty imm) [s.cur.l]

/-- PRET, R225. -/
def execPret (p : Par) (pipe : BitVec 4) (s : State) : Host.Outcome State Fault Refusal :=
  s.memFiring p [s.cur.r] [s.cur.l, s.cur.r] fun s => s.pipeOp p 3 pipe s.cur.r [s.cur.l, s.cur.r]

/-- PRET of an immediate count, R225. -/
def execPretImm (p : Par) (pipe : BitVec 4) (imm : BitVec 32) (s : State) : Host.Outcome State Fault Refusal :=
  s.memFiring p [] [s.cur.l] fun s => s.pipeOp p 3 pipe (immTok p.ty imm) [s.cur.l]

/-- PINFO, R225. -/
def execPinfo (p : Par) (pipe : BitVec 4) (s : State) : Host.Outcome State Fault Refusal :=
  s.memFiring p [] [s.cur.l] fun s => s.pipeOp p 4 pipe {} [s.cur.l]

end Sys2Proof.Machine
end

