-- ==== Sys2Proof/Machine/Launch.lean ====
section
/-! DEFINITION. QPUT and QWAIT (R227, R228, R264, R306). -/

namespace Sys2Proof.Machine

/-! ## Requests and nodes while a context is frozen (R359, R360) -/

/-- R359, R360: how a node treats a request of a context toward it. -/
inductive Mode2 where
  /-- As usual. -/
  | open'
  /-- Between the freeze mark and the drain marker: performed and logged, no response. -/
  | marked
  /-- Past the fence: nothing reaches the node. -/
  | fenced
  deriving DecidableEq, Repr

/-- R359, R360, R386: what a step sends performs as usual. -/
def State.nodeMode (s : State) (ctx core : Nat) (l : Loc) (stepped : Bool) : Mode2 :=
  if stepped then .open'
  else if s.ms.farMarks.contains (ctx * 256 + core) then .marked
  else match s.ctx? ctx, s.placeNode l with
    | some c, some n =>
      if c.mode == .running then .open'
      else if c.markers.contains (core, n) then .fenced
      else if c.marks.contains n then .marked else .open'
    | _, _ => .open'

/-- The job of a context of this package, with its tenant. -/
def State.ctxJob (s : State) (ctx : Nat) : Nat := match s.ctx? ctx with
  | some c => c.jobKey
  | none => 0

/-- R368: logs an operation at a node. -/
def State.logAt (s : State) (l : Loc) (site : Site) (pkg job tag st : Nat) (result : Word) : State :=
  match s.placeNode l with
  | none => s
  | some n => s.modMs fun m =>
      { m with log := m.log ++ [{ node := n, pkg := pkg, core := site.core, ctx := site.ctx, tag := tag,
                                  result := if st == 0 then result else poisonVal s site st, status := st, job := job, logged := s.wall }] }

/-! ## QPUT -/

/-- QPUT: reads the packet image; `args` replaces its ARGS field. DEDUCED (log 79). -/
def State.qput (s : State) (p : Par) (queue : BitVec 6) (args : Option Word) (ops : List Tok) : State :=
  let site := s.cur.site
  let a := s.cur.l.val
  s.orFail p ops (s.resolve site { spaces := [0, 1, 2, 5] } a 256) fun t =>
    s.fireReq p 0 [] ops
      { opc := 0x189, cls := 3, paddr := firstPa t.parts, kind := .qput queue.toNat [], addr := a
        opa := args.getD 0, opb := if args.isSome then 1 else 0
        pieces := (granulesIn t.parts).map fun g => { place := g.1, len := g.2.1, off := g.2.2, op := .read } }

/-- QPUT, R227. -/
def execQput (p : Par) (queue : BitVec 6) (s : State) : Host.Outcome State Fault Refusal :=
  s.memFiring p [s.cur.l] [s.cur.l] fun s => s.qput p queue none [s.cur.l]

/-- QPUT with an argument-block address, R227. DEDUCED (log 79). -/
def execQputArgs (p : Par) (queue : BitVec 6) (s : State) : Host.Outcome State Fault Refusal :=
  s.memFiring p [s.cur.l, s.cur.r] [s.cur.l, s.cur.r] fun s => s.qput p queue (some s.cur.r.val) [s.cur.l, s.cur.r]

/-- The packet that a QPUT writes (R227, R308): ARGS replaced by the R operand's bits [47:6], JOB by the context's. -/
def State.packetOf (s : State) (r : Req) : List Byte :=
  let n := leNat (Memory.getMany r.got 0 256)
  let n := if r.opb == 1 then n / 2 ^ 128 * 2 ^ 128 + bf r.opa.toNat 6 42 * 2 ^ 86 + n % 2 ^ 86 else n
  let job := match s.ctx? r.site.ctx with
    | some c => c.job
    | none => 0
  leBytes 256 (n / 2 ^ 44 * 2 ^ 44 + job * 2 ^ 28 + n % 2 ^ 28)

/-- R305: packets between HEAD and TAIL. -/
def Queue.used (q : Queue) : Nat := (q.tail + 2 ^ 32 - q.head) % 2 ^ 32

/-- R303: the virtual address of a packet's slot. -/
def Queue.slotVa (q : Queue) (seq : Nat) : Nat := q.base.toNat % 2 ^ 48 / 256 * 256 + seq % 2 ^ q.lsize * 256

/-- A completion arrival. -/
def ReqKind.isArrive (k : ReqKind) : Bool :=
  match k with
  | .arrive _ => true
  | _ => false

/-- The queue that a QPUT names. -/
def Req.queueOf (r : Req) : Nat := match r.kind with
  | .qput q _ => q
  | _ => 64

/-- A QPUT whose packet has been read. -/
def Req.readyQput (r : Req) : Bool := r.pieces.isEmpty && !r.done && !r.noEntry && !r.silent && (!r.rpl || r.seen) && (match r.kind with
  | .qput _ _ => true
  | _ => false)

/-- How the node of a QPUT's packet image treats it. -/
def State.qputMode (s : State) (r : Req) : Mode2 := s.nodeMode r.site.ctx r.site.core (.mem r.paddr 0 0) r.stepped

/-- A QPUT whose packet is being written into its slot: queue, request, context. -/
def Req.putting (r : Req) : Option (Nat × Nat × Nat) := if r.kind == .visit .slot then r.disp else none

/-- The writes of QPUTs' packets that are under way. -/
def State.puttings (s : State) : List (Nat × Nat × Nat) := s.ms.reqs.filterMap Req.putting

/-- R227, R360: QPUTs of one queue are served in the order their packets were read, one at a time; the head waits for space. One
whose context has been fenced off has left the queue. -/
def State.qputAble (s : State) (r : Req) : Bool :=
  let q := s.disp.queues.getD r.queueOf {}
  let before (x : Req) : Bool := x.readyQput && x.queueOf == r.queueOf && decide (x.arrived < r.arrived) && s.qputMode x != .fenced
  r.readyQput && s.qputMode r != .fenced && s.ms.reqs.all (fun x => !before x) && s.puttings.all (fun w => w.1 != r.queueOf) &&
    (r.status != 0 || q.tenant != r.tenant || decide (q.used < 2 ^ q.lsize))

/-- R227, R264: whose turn it is: where KIDS leaves no room for every QPUT of a context that its queue lets through, the
first to come goes, and none past 65,535. -/
def State.qputTurn (s : State) (r : Req) : Bool :=
  let q := s.disp.queues.getD r.queueOf {}
  s.qputAble r && (r.status != 0 || q.tenant != r.tenant || match s.ctx? r.site.ctx with
    | some c =>
      let able := s.ms.reqs.filter fun x => x.site.ctx == c.id && s.qputAble x
      let kids := c.regs.kids + (s.puttings.filter fun w => w.2.2 == c.id).length
      decide (kids < 65535) && (decide (kids + able.length ≤ 65535) || able.all fun x => decide (r.arrived ≤ x.arrived))
    | none => true)

/-- R203, R360: a QPUT ends; between the freeze mark and the drain marker it is logged, and no response goes. -/
def State.endQput (s : State) (r : Req) (st : Nat) (result : Word) : State :=
  let marked := s.qputMode r == .marked
  let s := if marked then s.logAt (.mem r.paddr 0 0) r.site s.plat.pkg (s.ctxJob r.site.ctx) r.tag st result else s
  s.modReq r.id fun x => { x with done := !marked, silent := marked, status := st, result := result }

/-- R227, R306: at ID0 the packet takes the next slot, into which it is written. -/
def State.enqueue (s : State) (r : Req) : State :=
  let n := r.queueOf
  let q := s.disp.queues.getD n {}
  if r.status != 0 then s.endQput r r.status 0
  else if q.tenant != r.tenant then s.endQput r stPerm 0
  else s.visit q.tenant (.visit .slot) (some (n, r.id, r.site.ctx)) { va := q.slotVa q.tail, len := 256, need := 2, op := .write (s.packetOf r) }

/-- R227, R264, R306: the packet stands in its slot: TAIL advances, and the launch becomes a child; where the slot cannot be
written nothing is launched. -/
def State.endSlot (s : State) (n id st : Nat) : State :=
  match s.req? id with
  | none => s
  | some r =>
    let q := s.disp.queues.getD n {}
    if st != 0 then s.endQput r st 0
    else
      let s := s.modDisp fun d =>
        { d with bells := d.bells + 1
                 queues := d.queues.modify n fun q =>
                   { q with tail := (q.tail + 1) % 2 ^ 32, puts := q.puts ++ [(q.tail, r.site.ctx)],
                             bell := q.bell ++ [((q.tail + 1) % 2 ^ 32, d.bells)] } }
      let s := s.modCtx r.site.ctx fun c =>
        { c with kids := c.kids ++ [{ queue := n, seq := q.tail }], regs := { c.regs with kids := c.regs.kids + 1 } }
      s.endQput r 0 (BitVec.ofNat 64 (s.plat.pkg * 2 ^ 52 + n * 2 ^ 46 + q.tail))

/-! ## What visits of the host port and of the fault queue do when they are over (R431, R433) -/

def State.modVf (s : State) (vf : Nat) (f : Vf → Vf) : State := s.modPlat fun p => { p with vfs := p.vfs.modify vf f }

def State.vf (s : State) (vf : Nat) : Vf := s.plat.vfs.getD vf {}

/-- Records written and not yet consumed. -/
def Vf.used (v : Vf) : Nat := (v.fqTail + 2 ^ 32 - v.fqHead) % 2 ^ 32

/-- R433: the 32 bytes of a record. -/
def FaultRec.bytes (r : FaultRec) (seq : Nat) : List Byte :=
  leBytes 8 r.va ++ leBytes 8 (r.access * 2 ^ 62 + r.die * 2 ^ 48) ++ leBytes 8 seq ++ leBytes 8 0

/-- R433: the oldest record that waits is written while the ring has space, one at a time. DEDUCED (log 117). -/
def State.writeFault (s : State) (vf : Nat) : State :=
  let v := s.vf vf
  match v.faults.find? fun r => r.seq.isNone with
  | none => s
  | some r =>
    if 2 ^ v.fqls ≤ v.used || (s.visitOf (.fault vf) none).isSome then s
    else s.visit (vf - 1) (.visit (.fault vf)) none
      { va := v.fqBase.toNat + 32 * (v.fqTail % 2 ^ v.fqls), len := 32, need := 2, op := .write (r.bytes v.fqTail) }

/-- R432, R433: a record has been written: FQTAIL advances, vector 0 is raised, and the next is written; a ring page that cannot
be written leaves it waiting. DEDUCED (log 117). -/
def State.endFault (s : State) (vf st : Nat) : State :=
  if st != 0 then s
  else
    let put (v : Vf) : Vf :=
      match (enumL v.faults).find? fun r => r.2.seq.isNone with
      | none => v
      | some (i, r) => { v with faults := v.faults.set i { r with seq := some v.fqTail }, fqTail := (v.fqTail + 1) % 2 ^ 32 }
    ((s.modVf vf put).msix vf 0).writeFault vf

/-- R431: a host access has performed, or failed: a failing read completes with Unsupported Request, a failing write is
dropped. -/
def State.endHost (s : State) (vf : Nat) (write : Bool) (r : Req) : State :=
  if write then s
  else if r.status != 0 then s.send (.hostRead vf false 0)
  else s.send (.hostRead vf true (BitVec.ofNat 64 (leNat (Memory.getMany r.got 0 8))))

/-- R228: the value of a QWAIT over children that have completed. -/
def waitWord (kids : List Child) : Word :=
  let bad := kids.filter fun k => k.status != 0
  let first := bad.find? fun k => bad.all fun x => decide (k.order ≤ x.order)
  BitVec.ofNat 64 (kids.length * 2 ^ 32 + match first with
    | some k => k.status
    | none => 0)

/-- The children that a QWAIT counts. -/
def Ctx.kidsOf (c : Ctx) (w : Wait) : List Child := c.kids.take w.count

/-- QWAIT, R228. -/
def execQwait (p : Par) (s : State) : Host.Outcome State Fault Refusal :=
  s.firing p latGraph [s.cur.l] fun s =>
    let site := s.cur.site
    let kids := match s.ctx? site.ctx with
      | some c => c.kids
      | none => []
    if kids.isEmpty then s.finish p latGraph (spread p (scalarTok site 0)) [s.cur.l]
    else
      let w : Wait := { site := site, d0 := p.d0, d1 := p.d1, d2 := p.d2, count := kids.length }
      (s.modCtx site.ctx fun c => { c with qwaits := c.qwaits ++ [w] }).finish p latGraph [] [s.cur.l]

/-- QWAIT_COMPLETE, R228: the i-th QWAIT that waits. -/
def execQwaitComplete (i : Nat) (s : State) : Host.Outcome State Fault Refusal :=
  match (s.ctxs.flatMap fun c => c.qwaits.map fun w => (c, w))[i]? with
  | none => .next s
  | some (c, w) =>
    if c.mode == .running && (c.kidsOf w).all fun k => k.done then
      let v := scalarTok w.site (waitWord (c.kidsOf w))
      let s := s.modCtx c.id fun c => { c with qwaits := c.qwaits.erase w }
      .next (s.emitAll w.site latGraph 0 [(w.d0, v), (w.d1, v), (w.d2, v)])
    else .next s

end Sys2Proof.Machine
end

