-- ==== Sys2Proof/Machine/Node.lean ====
section
/-! DEFINITION. Memory nodes: one event of a request or of a copy granule at its home (R220 to R226, R335 to R341), home
watchpoints (R376), the wait queues, duplicate suppression (R205, R360, R370), and the responses that cores receive. -/

namespace Sys2Proof.Machine

/-! ## Operations on words -/

/-- R215, R220: the new value of an element: 0 add, 1 and, 2 or, 3 xor, 4 min, 5 max, 6 exchange. -/
def updateVal (op : Nat) (ty : Ty) (old x : Nat) : Nat :=
  let m := 2 ^ tyBits ty
  match op with
  | 0 => if tyIsInt ty then (old + x) % m else (fpAdd ty .rne old x).1
  | 1 => (old &&& x) % m
  | 2 => (old ||| x) % m
  | 3 => (old ^^^ x) % m
  | 4 => if tyIsInt ty then (if readInt ty (BitVec.ofNat 64 old) ≤ readInt ty (BitVec.ofNat 64 x) then old else x)
         else (fpMinMax ty false old x).1
  | 5 => if tyIsInt ty then (if readInt ty (BitVec.ofNat 64 old) ≤ readInt ty (BitVec.ofNat 64 x) then x else old)
         else (fpMinMax ty true old x).1
  | _ => x % m

/-- What an operation on the old number answers: a status, the new number to write if any, the result; or a wait. -/
inductive WordOut where
  | wait
  | done (st : Nat) (new : Option Nat) (result : Word)
  deriving DecidableEq, Repr

/-- R223: the object word after an acquire or release. -/
def objectStep (release sh : Bool) (w : Nat) : WordOut :=
  let excl := bf w 63 1
  let shared := bf w 48 15
  let seq := bf w 0 48
  let put (e n q : Nat) : Nat := e * 2 ^ 63 + n * 2 ^ 48 + q % 2 ^ 48
  if release then
    if sh then
      if shared == 0 then .done stPerm none 0 else .done 0 (some (put excl (shared - 1) (seq + 1))) 0
    else if excl == 0 then .done stPerm none 0 else .done 0 (some (put 0 shared (seq + 1))) 0
  else if sh then
    if excl == 0 && decide (shared < 32767) then .done 0 (some (put 0 (shared + 1) seq)) (BitVec.ofNat 64 seq) else .wait
  else if excl == 0 && shared == 0 then .done 0 (some (put 1 0 seq)) (BitVec.ofNat 64 seq) else .wait

/-- R220 to R223: an operation that reads and writes its word as one event. -/
def wordStep (op : PieceOp) (old : Nat) : WordOut :=
  match op with
  | .update o ty x => .done 0 (some (updateVal o ty old x)) (BitVec.ofNat 64 old)
  | .cas w e n => .done 0 (if old % 2 ^ w == e % 2 ^ w then some n else none) (BitVec.ofNat 64 old)
  | .axpy ty a x => .done 0 (some (fpFma ty .rne a x old).1) 0
  | .bara st => .done 0 (some (baraWord old st)) (BitVec.ofNat 64 (bf old 48 16))
  | .barw n => if barwMet old n then .done 0 none (BitVec.ofNat 64 old) else .wait
  | .acq sh => objectStep false sh old
  | .rel sh => objectStep true sh old
  | _ => .done 0 none (BitVec.ofNat 64 old)

/-! ## One event -/

/-- What an event answers. -/
structure Answer where
  st : Nat := 0
  result : Word := 0
  bytes : List Byte := []
  /-- What the further parts of its granule read: offset and bytes. -/
  parts : List (Nat × List Byte) := []
  wait : Bool := false
  deriving DecidableEq, Repr

/-- A write event at a place, for an engine or the Dispatcher. -/
def State.writePart (s : State) (l : Loc) (bs : List Byte) : Nat × State :=
  match l with
  | .mem pa tag key =>
    if s.isLocal pa then s.writePhys (paLocal pa) bs tag key
    else (0, s.send (.request { paddr := pa, pieces := [{ place := l, len := bs.length, op := .write bs }] } (paPkg pa)))
  | .tile core idx off =>
    match s.tile? core idx with
    | none => (stTagMismatch, s)
    | some _ => (0, s.modTileIdx core idx fun t => t.setBytes off bs)
  | .host pa => (0, s.send (.hostWrite pa bs))
  -- R439: a network extent is reached by `State.sendPart` alone
  | .net _ _ _ => (0, s)

/-- R225: an operation on the descriptor of a pipe. -/
def State.pipeEvent (s : State) (core : Nat) (l : Loc) (op q n : Nat) : Answer × State :=
  let r := s.readPart core l 64
  let s := r.2.2
  let d := leNat r.2.1
  let pa := match l with
    | .mem pa _ _ => paLocal pa
    | _ => 0
  if r.1 != 0 then ({ st := r.1 }, s)
  else if !pipeOk d then ({ st := stFormat }, s)
  else match pipeStep op n (pipeDesc d) with
    | .bad st => ({ st := st }, s)
    | .wait => ({ wait := true }, s)
    | .done p result pad =>
      let s := match pad with
        | some (o, len) => (s.writePhys (ringBase pa d + o * 64) (leBytes 8 (2 ^ 63 + len)) 0 0).2
        | none => s
      let s := if pipePut d p == d then s else (s.writePhys pa (leBytes 64 (pipePut d p)) 0 0).2
      ({ result := pipeResult op q result }, s)

/-- One event at its home node (R335, R339), for a request of a core (256: none of this package's). -/
def State.event (s : State) (core : Nat) (l : Loc) (n : Nat) (op : PieceOp) : Answer × State :=
  let bad := match l with
    | .mem pa _ _ => s.isLocal pa && !s.localOk (paLocal pa)
    | _ => false
  if bad then ({ st := stAddrMismatch }, s)
  else match op with
    | .read =>
      let r := s.readPart core l n
      ({ st := r.1, bytes := r.2.1 }, r.2.2)
    | .write bs =>
      let w := s.writePart l bs
      ({ st := w.1 }, w.2)
    | .pipe o q k => s.pipeEvent core l o q k
    | op =>
      let r := s.readPart core l n
      if r.1 != 0 then ({ st := r.1 }, r.2.2)
      else match wordStep op (leNat r.2.1) with
        | .wait => ({ wait := true }, r.2.2)
        | .done st new v =>
          match new with
          | none => ({ st := st, result := v }, r.2.2)
          | some x =>
            let w := r.2.2.writePart l (leBytes n x)
            ({ st := if st == 0 then w.1 else st, result := v }, w.2)

/-- Whether an operation is one of a word that is read and written together. -/
def PieceOp.ofWord (o : PieceOp) : Bool :=
  match o with
  | .read | .write _ | .pipe _ _ _ => false
  | _ => true

/-- R293: an operation on a word that lies in two pages: both parts are read and written in its one event. DESIGN CHOICE (log 177). -/
def State.splitEvent (s : State) (core : Nat) (op : PieceOp) (ps : List (Loc × Nat × Nat × PieceOp)) : Answer × State :=
  let r := ps.foldl (fun (acc : Nat × List Byte × State) p =>
    let x := acc.2.2.readPart core p.1 p.2.1
    (if acc.1 == 0 then x.1 else acc.1, acc.2.1 ++ x.2.1, x.2.2)) (0, [], s)
  if r.1 != 0 then ({ st := r.1 }, r.2.2)
  else match wordStep op (leNat r.2.1) with
    | .wait => ({ wait := true }, r.2.2)
    | .done st new v =>
      match new with
      | none => ({ st := st, result := v }, r.2.2)
      | some x =>
        let bs := leBytes r.2.1.length x
        let w := ps.foldl (fun (acc : Nat × State) p =>
          let y := acc.2.writePart p.1 ((bs.drop p.2.2.1).take p.2.1)
          (if acc.1 == 0 then y.1 else acc.1, y.2)) (st, r.2.2)
        ({ st := w.1, result := v }, w.2)

/-- R341: the parts of a granule perform as one event: the answer of the first, the first failing status, what the others
read. -/
def State.spansEvent (s : State) (core : Nat) (ps : List (Loc × Nat × Nat × PieceOp)) : Answer × State :=
  match ps with
  | [] => ({}, s)
  | p :: q :: ps => if p.2.2.2.ofWord then s.splitEvent core p.2.2.2 (p :: q :: ps) else (q :: ps).foldl (fun acc q =>
      let a := acc.2.event core q.1 q.2.1 q.2.2.2
      ({ acc.1 with st := if acc.1.st == 0 then a.1.st else acc.1.st, parts := acc.1.parts ++ [(q.2.2.1, a.1.bytes)] }, a.2))
      (s.event core p.1 p.2.1 p.2.2.2)
  | [p] => s.event core p.1 p.2.1 p.2.2.2

/-! ## Home watchpoints (R373, R376) -/

/-- R393: the kind of an event: 1 read, 2 write, 4 atomic. -/
def PieceOp.kind (o : PieceOp) : Nat :=
  match o with
  | .read => 1
  | .write _ => 2
  | .barw _ => 1
  | .pipe 4 _ _ => 1
  | _ => 4

/-- R376: BASE with the offset of the access's first byte in the range. DEDUCED (log 76). -/
def homeDetail (base : Word) (places : List (Option Nat)) (a : Nat) : Word :=
  match (enumL places).find? fun p => p.2 == some a with
  | some p => base + BitVec.ofNat 64 p.1
  | none => base

/-- Who performs an access, for the report: package, core, context, tag. -/
structure Doer where
  pkg : Nat := 0
  core : Nat := 0
  ctx : Nat := 0
  tag : Nat := 0
  /-- [R373, R374] The units of its own context that it meets at HOME; none: those that stand when it performs. -/
  own : Option (List WatchAt) := none
  /-- [R376] The access's first byte, where it is not the event's. -/
  first : Option Nat := none
  deriving DecidableEq, Repr

/-- R355, R376: details A and B of a HOME hit. -/
def Doer.details (who : Doer) (u : WatchAt) (a : Nat) : Word × Word :=
  (homeDetail u.unit.base u.places (who.first.getD a),
   BitVec.ofNat 64 (3 * 2 ^ 61 + who.pkg % 4096 * 2 ^ 48 + who.core * 2 ^ 40 + who.tag))

/-- R373, R376: HOME hits of one event on the units of one context, each at most once; `key` names the context in the hits. DEDUCED (log 75). -/
def homeHits (us : List WatchAt) (who : Doer) (key kind a n : Nat) (report : WatchAt → Word × Word → State → State)
    (acc : List (Nat × Nat) × State) : List (Nat × Nat) × State :=
  (watchHits us atHome kind [(a, n)]).foldl (fun acc u =>
    if acc.1.contains (key, u.1.n) then acc else ((key, u.1.n) :: acc.1, report u.1 (who.details u.1 a) acc.2)) acc

/-- R373, R376: HOME hits of one event: of the contexts of this package, frozen and saved ones too, and of other packages'
units whose range lies here; answers the units hit. DEDUCED (log 75). -/
def State.homeWatch (s : State) (who : Doer) (kind : Nat) (l : Loc) (n : Nat) (hits : List (Nat × Nat)) :
    List (Nat × Nat) × State :=
  match l with
  | .mem pa _ _ =>
    let a := s.absPa pa
    let itself (pkg ctx : Nat) : Bool := who.own.isSome && who.pkg == pkg && who.ctx == ctx
    let own := who.own.getD []
    let far (pkg ctx : Nat) (u : WatchAt) (d : Word × Word) (s : State) : State := s.send (.watchHit pkg ctx u.n d.1 d.2)
    let here := s.ctxs.foldl (fun acc c =>
      homeHits (if itself s.plat.pkg c.id then own else s.watchesOf c) who c.id kind a n (fun u d s =>
        s.trap { cause := 3, core := u.unit.core, site := { core := u.unit.core, ctx := c.id }, code := u.n,
                 a := scalarTok {} d.1, b := d.2 } u.unit.halts) acc) (hits, s)
    let away := if who.pkg == s.plat.pkg then here else
      homeHits own who (2 ^ 16 * (who.pkg + 1) + who.ctx) kind a n (far who.pkg who.ctx) here
    (s.ms.farWatch.filter fun w => !itself w.pkg w.ctx).foldl (fun acc w =>
      homeHits [w.at'] who (2 ^ 16 * (w.pkg + 1) + w.ctx) kind a n (far w.pkg w.ctx) acc) away
  | _ => (hits, s)

/-- R376: HOME hits of the parts of one event. -/
def State.homeWatches (s : State) (who : Doer) (kind : Nat) (ps : List (Loc × Nat × Nat × PieceOp)) (hits : List (Nat × Nat)) :
    List (Nat × Nat) × State :=
  ps.foldl (fun acc p => acc.2.homeWatch who kind p.1 p.2.1 acc.1) (hits, s)

/-! ## Which events can happen -/

/-- The die whose service translates host accesses: ID0. DEDUCED (log 119). -/
def hostDie : Nat := 8

/-- A request of another package, and that package. DESIGN CHOICE (log 11). -/
def Req.foreign (r : Req) : Bool := decide (2 ^ 16 ≤ r.site.ctx) && decide (r.site.ctx < dispCtx)
def Req.fromPkg (r : Req) : Nat := r.site.ctx / 2 ^ 16 - 1

/-- R205: operations whose tags a node keeps for another package. -/
def ReqKind.logsFar (k : ReqKind) : Bool :=
  match k with
  | .atomic _ | .bara | .acq | .rel | .arrive _ => true
  | _ => false

/-- R205: a node's log. -/
def State.logOf (s : State) (ctx core tag : Nat) : List Logged := s.ms.log.filter fun l => l.ctx == ctx && l.core == core && l.tag == tag

/-- R205: a remote operation waits while its node's table is full. DEDUCED (log 78). -/
def State.logFull (s : State) (node : Nat) : Bool := decide (65536 ≤ (s.ms.log.filter fun l => l.node == node).length)

/-- R205: a node has room for the entry of a remote operation, or holds it already. -/
def State.logRoom (s : State) (r : Req) (l : Loc) : Bool :=
  !(r.foreign && r.kind.logsFar) || (match s.placeNode l with
    | some n => !s.logFull n || !(s.logOf r.site.ctx r.site.core r.tag).isEmpty
    | none => true)

/-- R223, R345: a REL may perform: every write that it publishes has performed. -/
def State.released (s : State) (r : Req) : Bool :=
  s.ms.reqs.all (fun x => !(r.before.contains x.id && (x.pieces.flatMap Piece.spans).any fun q => s.writesInto r.ranges q.1 q.2.1)) &&
    (s.core r.site.core).eng.recs.all fun e => !(r.beforeEng.contains e.seq &&
      ((e.moves ++ e.todo).any (fun m => s.writesInto r.ranges m.dst m.len) ||
        (List.range (e.total - e.pos)).any fun k => match s.formRun e (e.pos + k) with
          | .moves ms => ms.any fun m => s.writesInto r.ranges m.dst m.len
          | .bad _ => false
          | .miss _ _ => true))

/-- Whether piece `k` of a request can perform here now. -/
def State.performable (s : State) (r : Req) (k : Nat) : Bool :=
  match r.pieces[k]? with
  | none => false
  | some p =>
    let here := match p.place with
      | .mem pa _ _ => s.isLocal pa
      | .tile _ _ _ => true
      | _ => false
    here && (r.st == 2 || r.st == 5) && !r.done && !(r.silent && r.ordered) && !r.waits && (!r.rpl || r.seen) && (!r.ordered || k == 0) &&
      s.nodeMode r.site.ctx r.site.core p.place r.stepped != .fenced && (r.kind != .rel || s.released r) &&
      s.logRoom r p.place

/-- An event that a memory node, or the tile store, can perform now. -/
inductive Ready where
  | piece (id k : Nat)
  /-- Source part `k`, or the write, of granule `m` of a record on a core. -/
  | read (core recd m k : Nat)
  | write (core recd m : Nat)
  /-- The answer of another package to a part of a granule of a record. -/
  | back (core recd id : Nat)
  /-- A QPUT at ID0. -/
  | qput (id : Nat)
  /-- The next entry of the walk of a request of the device. -/
  | reach (id : Nat)
  deriving DecidableEq, Repr

/-- R204, R205, R439: a part of a granule on another package or over the network, which the engine asks for while its context
runs. -/
def State.farPart (s : State) (l : Loc) : Bool :=
  match l with
  | .mem pa _ _ => !s.isLocal pa
  | .net _ _ _ => true
  | _ => false

/-- R341: the events of a granule: its source parts in any order, then its write; a weight load or an image load only reads (R183, R229). -/
def State.moveEvents (s : State) (core : Nat) (e : Eng) : List Ready :=
  (enumL e.moves).flatMap fun m =>
    let can (l : Loc) : Bool := if s.farPart l then s.engRuns e else s.nodeMode e.site.ctx core l e.stepped != .fenced
    if m.2.silent || m.2.rpl then []
    else if !m.2.src.isEmpty then (enumL m.2.src).filterMap fun p => if can p.2.1 then some (.read core e.idx m.1 p.1) else none
    else if m.2.asked.isEmpty && m.2.sent.isNone && !e.readsOnly && can m.2.dst then [.write core e.idx m.1] else []

/-- A record has asked another package by this request. -/
def Eng.tracks (e : Eng) (id : Nat) : Bool :=
  (e.moves ++ e.todo).any fun m => m.sent == some id || m.asked.any fun a => a.1 == id

/-- R203, R439: answers of other packages, or of the network, that a running record takes. -/
def State.backEvents (s : State) (core : Nat) (e : Eng) : List Ready :=
  if s.engRuns e then s.ms.reqs.filterMap fun r =>
    if r.kind == .part && r.done && r.site.core == core && e.tracks r.id then some (.back core e.idx r.id) else none
  else []

/-- Every event that can happen. -/
def State.readyEvents (s : State) : List Ready :=
  (s.ms.reqs.flatMap fun r =>
    if r.readyQput then (if s.qputTurn r then [.qput r.id] else [])
    else if r.reach.isSome && r.pieces.isEmpty then [.reach r.id]
    else (List.range r.pieces.length).filterMap fun k => if s.performable r k then some (.piece r.id k) else none) ++
    (enumL s.cores).flatMap fun c => c.2.eng.recs.flatMap fun e => s.moveEvents c.1 e ++ s.backEvents c.1 e

/-! ## Performing -/

/-- R203: the bytes that the reads of a request have brought, in order. -/
def Req.bytesRead (r : Req) : List Byte :=
  (r.pieces0.flatMap Piece.spans).flatMap fun x => if x.2.2.2 == .read then Memory.getMany r.got x.2.2.1 x.2.1 else []

/-- R203, R227, R265: a request whose last event has performed: another package's is answered, a Dispatcher's arrival is over, a
QPUT waits at its queue. -/
def State.settleReq (s : State) (id : Nat) : State :=
  match s.req? id with
  | none => s
  | some r =>
    if r.readyQput then
      -- R227: its packet has been read: it joins the FIFO of its queue
      (if r.arrived != 0 then s else
        (s.modMs fun m => { m with arrivals := m.arrivals + 1 }).modReq id fun r => { r with arrived := s.ms.arrivals + 1 })
    else if !r.pieces.isEmpty || r.waits || r.reach.isSome then s
    else if r.foreign then
      (if r.silent then s.dropReq id else
        (s.dropReq id).send (.answer r.fromPkg r.far r.status r.result r.bytesRead (r.paddr / 256)))
    else match r.kind with
      | .arrive after =>
        if r.site.ctx == dispCtx then
          -- R316: a completion word that the arrival did not reach
          let s := match r.disp with
            | some (q, n, st) => if r.status == 0 then s else s.qerr q st n
            | none => s
          (if after == 0 then s.dropReq id else (s.dropReq id).msix after 3)
        else if r.silent then s else s.modReq id fun r => { r with done := true }
      | .visit v => match v, r.disp with
        | .slot, some (n, put, _) => (s.dropReq id).endSlot n put r.status
        | .fault vf, _ => (s.dropReq id).endFault vf r.status
        | .host vf write, _ => (s.dropReq id).endHost vf write r
        | .packet, _ => s.modReq id fun r => { r with done := true }
        | _, d => if s.disp.pkts.any fun p => (d.map fun x => x.1) == some p.no then s.modReq id fun r => { r with done := true } else s.dropReq id
      | .part => if (s.core r.site.core).eng.recs.any fun e => e.tracks id then s.modReq id fun r => { r with done := true }
        else s.dropReq id
      | _ => if r.silent then s else s.modReq id fun r => { r with done := true }

/-- The part of an operation from byte `o` on, `n` bytes long. -/
def PieceOp.part (op : PieceOp) (o n : Nat) : PieceOp :=
  match op with
  | .write bs => .write ((bs.drop o).take n)
  | op => op

/-- R282, R285, R341: a request of the device has its translation: the granules of the page, or the status that refuses them;
none but the copy engine reaches a HOST page. DESIGN CHOICE (log 176). -/
def State.landReach (s : State) (r : Req) (x : Reach) (w size pkg : Nat) : State :=
  let refuse (st : Nat) : State := (s.modReq r.id fun r => { r with reach := none, status := if r.status == 0 then st else r.status }).settleReq r.id
  let l := s.leafLoc r.tenant w size pkg x.va
  let len := min x.len (size - x.va % size)
  let ps : List Piece := (granuleCuts (len / 64 + 2) l len x.off).map fun g =>
    { place := g.1, len := g.2.1, off := g.2.2, op := x.op.part g.2.2 g.2.1 }
  let rest : Option Reach := if x.len ≤ len then none else
    some { x with va := x.va + len, len := x.len - len, off := x.off + len, pos := {} }
  if leafPerm w &&& x.need != x.need || leafHost w then refuse stPerm
  else if pkg != 0xFFF && !s.otherPkg pkg then refuse stAddrMismatch
  else
    let r' : Req := { r with reach := rest, pieces := ps, pieces0 := ps, paddr := l.pos, last := s.wall }
    (s.modReq r.id fun _ => r').sendOut r'

/-- R287: a request of the device reads the next entry of its walk, or takes what the translation service holds; what is not
mapped is PERM. DEDUCED (log 119). DESIGN CHOICE (log 176). -/
def State.reachOn (s : State) (r : Req) (x : Reach) : State :=
  match if x.tlb then s.tlbFind [] hostDie r.tenant x.va else none with
  | some t => s.landReach r x t.leaf.toNat t.size t.pkg
  | none =>
    let y := s.walkOn false r.tenant x.va x.pos
    let s := y.2
    let refuse (st : Nat) : State := (s.modReq r.id fun r => { r with reach := none, status := if r.status == 0 then st else r.status }).settleReq r.id
    match y.1 with
    | .inl pos => s.modReq r.id fun r => { r with reach := some { x with pos := pos } }
    | .inr (.leaf w size pkg) =>
      (if x.tlb then s.fillTlb { die := hostDie, tenant := r.tenant, va := x.va / size * size, size := size,
                                 leaf := BitVec.ofNat 64 w, pkg := pkg } else s).landReach r x w size pkg
    | .inr (.failed st) => refuse st
    | .inr _ => refuse stPerm

/-- R210: after a failure no further granule is issued; how many were issued already is drawn. DEDUCED (log 70). -/
def keepIssued (r : Req) (st draw : Nat) (ps : List Piece) : List Piece :=
  if st == 0 then ps else if r.ordered then [] else ps.take (draw % (ps.length + 1))

/-- The result of one event is put into its request. DEDUCED (log 70). -/
def Req.take (r : Req) (k off : Nat) (a : Answer) (draw : Nat) : Req :=
  { r with pieces := keepIssued r a.st draw (r.pieces.eraseIdx k)
           status := if r.status == 0 then a.st else r.status
           result := if a.st == 0 then a.result else r.result
           got := a.parts.foldl (fun g p => Memory.setMany g p.1 p.2) (Memory.setMany r.got off a.bytes), waits := false, go := false }

/-- Who performs a request (R373, R376): the elements of a bank update are accesses of their own. DEDUCED (log 76). -/
def Req.doer (s : State) (r : Req) : Doer :=
  { pkg := if r.foreign then r.fromPkg else s.plat.pkg, core := r.site.core, ctx := r.site.ctx % 2 ^ 16, tag := r.tag,
    own := r.home
    first := if r.kind == .bank || r.kind == .part then none else some (s.absPa r.paddr) }

/-- Whether an operation queues behind earlier ones of its kind on its word (R223, R226). -/
def queueKey (op : PieceOp) : Option Nat :=
  match op with
  | .acq _ => some 10
  | .pipe 0 _ n => if n == 0 then none else some 0
  | .pipe 2 _ n => if n == 0 then none else some 2
  | _ => none

/-- A request that waits at a word in the same FIFO. -/
def State.queued (s : State) (p : Piece) : List Req :=
  match queueKey p.op with
  | none => []
  | some q => s.ms.reqs.filter fun x => x.waits && match x.pieces with
    | [y] => y.place.pos % 2 ^ 44 == p.place.pos % 2 ^ 44 && queueKey y.op == some q
    | _ => false

/-- R225: a claim or take that fails as the descriptor stands, whatever waits before it. -/
def State.pipeRefuses (s : State) (p : Piece) : Bool :=
  match p.op, p.place with
  | .pipe op _ n, .mem pa tag key =>
    let r := s.readPhys (paLocal pa) 64 tag key
    (op == 0 || op == 2) && (r.1 != 0 || !pipeOk (leNat r.2.1) || decide ((pipeDesc (leNat r.2.1)).size < n))
  | _, _ => false

/-- A QPUT, which performs at its queue (R227). -/
def ReqKind.isQput (k : ReqKind) : Bool :=
  match k with
  | .qput _ _ => true
  | _ => false

/-- Performs piece `k` of a request as one event, or queues it at its node (R335, R360). -/
def State.performPiece (s : State) (r : Req) (k : Nat) (fromQueue : Bool) : State :=
  match r.pieces[k]? with
  | none => s
  | some p =>
    let mode := s.nodeMode r.site.ctx r.site.core p.place r.stepped
    let wait (s : State) : State :=
      let n := s.ms.arrivals
      (s.modMs fun m => { m with arrivals := n + 1 }).modReq r.id fun r => { r with waits := true, arrived := n }
    if !fromQueue && !(s.queued p).isEmpty && !s.pipeRefuses p then wait s
    else
      let a := s.spansEvent (if r.foreign then 256 else r.site.core) p.spans
      if a.1.wait then (if fromQueue then s else wait a.2)
      else
        let d := a.2.draw
        let s := d.2
        let w := if r.site.hnd then (r.hits, s) else s.homeWatches (Req.doer s r) p.op.kind p.spans r.hits
        let s := w.2
        let marked := mode == .marked && !r.kind.isQput
        if marked && r.cls == 1 then
          -- R360: the result is discarded, nothing is logged, no response is sent
          (s.modReq r.id fun r =>
            { r with pieces := r.pieces.eraseIdx k, hits := w.1, silent := true, waits := false, go := false }).settleReq r.id
        else
          let s := if marked || (r.foreign && r.kind.logsFar) then
            s.logAt p.place r.site (if r.foreign then r.fromPkg else s.plat.pkg) (if r.foreign then r.job else s.ctxJob r.site.ctx)
              r.tag a.1.st a.1.result else s
          (s.modReq r.id fun r =>
            { (r.take k p.off a.1 d.1) with hits := w.1, silent := r.silent || marked
                                            reach := if a.1.st == 0 then r.reach else none }).settleReq r.id

/-- R205: a repeat of a tag that the node holds is answered with the logged result and performs nothing. -/
def State.answerLogged (s : State) (r : Req) : Option State :=
  if r.foreign && r.kind.logsFar then
    match s.logOf r.site.ctx r.site.core r.tag with
    | l :: _ => some ((s.modReq r.id fun r => { r with pieces := [], status := l.status, result := l.result }).settleReq r.id)
    | [] => none
  else none

/-! ## Copy granules -/

def State.modMove (s : State) (core recd m : Nat) (f : Move → Move) : State :=
  s.modEngRec core recd fun e => { e with moves := e.moves.modify m f }

/-- A granule that failed: its command fails, its other granules complete (R216); a weight load or an image load reads no further. -/
def State.failMove (s : State) (core recd m st : Nat) : State :=
  ((s.modEngRec core recd fun e => { e with moves := if e.readsOnly then [] else e.moves.eraseIdx m }).failCopy core recd st).copyPump core

/-- R341: a source part `l` of granule `m`, and a part of a granule of the same run, lie in one granule, which is read once.
Element updates read each for itself. -/
def joins (mv x : Move) (l p : Loc) : Bool :=
  x.run == mv.run && mv.red.isNone && x.red.isNone && !x.silent && !x.rpl && match l, p with
    | .mem a _ _, .mem b _ _ => a / 64 == b / 64
    | .tile c i a, .tile d j b => c == d && i == j && a / 64 == b / 64
    | _, _ => false

/-- R341: applies `f` to every granule of a record that is read with part `l` of granule `m`, with what it reads there. -/
def Eng.joined (e : Eng) (m : Nat) (mv : Move) (l : Loc × Nat × Nat) (f : Move → List (Loc × Nat × Nat) → Move) : Eng :=
  let upd (own : Bool) (x : Move) : Move :=
    match x.src.filter fun p => (own && p == l) || joins mv x l.1 p.1 with
    | [] => x
    | ps => f { x with src := x.src.filter fun p => !ps.contains p } ps
  { e with moves := (enumL e.moves).map (fun x => upd (x.1 == m) x.2), todo := e.todo.map (upd false) }

/-- R341: the parts that are read with part `l` of granule `m`, in ascending order of issue. -/
def Eng.joinedParts (e : Eng) (m : Nat) (mv : Move) (l : Loc × Nat × Nat) : List (Loc × Nat × Nat) :=
  (enumL e.moves).flatMap (fun x => x.2.src.filter fun p => (x.1 == m && p == l) || joins mv x.2 l.1 p.1) ++
    e.todo.flatMap fun x => x.src.filter fun p => joins mv x l.1 p.1

/-- The tag of a granule (R205): of a weight load or an image load that of its command. -/
def Eng.moveTag (e : Eng) (mv : Move) : Nat := if e.readsOnly then e.tag else mv.tag

/-- R341: reads the granule of source part `k`, or asks another package for it (R205, R282). DEDUCED (log 86). -/
def State.moveRead (s : State) (core : Nat) (e : Eng) (m : Nat) (mv : Move) (k : Nat) : State :=
  match mv.src[k]? with
  | none => s
  | some l =>
    let ps := (e.joinedParts m mv l).eraseDups
    -- what the event reads stands in its answer in the order of the parts
    let lay := ps.foldl (fun (acc : List (Loc × Nat × Nat × PieceOp) × Nat) p => (acc.1 ++ [(p.1, p.2.1, acc.2, .read)], acc.2 + p.2.1)) ([], 0)
    let at' (p : Loc × Nat × Nat) : Nat := ((lay.1.find? fun q => q.1 == p.1 && q.2.1 == p.2.1).map fun q => q.2.2.1).getD 0
    if s.farPart l.1 then
      match lay.1 with
      | [] => s
      | q :: qs =>
        let r := s.sendPart { e.site with step := e.stepped } (e.moveTag mv) 1 false false { place := q.1, len := q.2.1, off := 0, op := .read, more := qs }
        r.2.modEngRec core e.idx fun e => e.joined m mv l fun x ps =>
          { x with asked := x.asked ++ ps.map fun p => (r.1, at' p, p.2.1, p.2.2) }
    else
      let a := s.spansEvent core lay.1
      let w := if e.site.hnd then (mv.hits, a.2) else
        a.2.homeWatches { pkg := s.plat.pkg, core := core, ctx := e.site.ctx, tag := e.moveTag mv } 1 lay.1 mv.hits
      let s := w.2.modMove core e.idx m fun x => { x with hits := w.1 }
      if s.nodeMode e.site.ctx core l.1 e.stepped == .marked then
        s.modEngRec core e.idx fun e => e.joined m mv l fun x _ => { x with silent := true, hits := w.1 }
      else if a.1.st != 0 then s.failMove core e.idx m a.1.st
      else
        let buf := a.1.parts.foldl (fun g p => Memory.setMany g p.1 p.2) (Memory.setMany [] 0 a.1.bytes)
        s.modEngRec core e.idx fun e => e.joined m mv l fun x ps =>
          { x with got := ps.foldl (fun g p => Memory.setMany g p.2.2 (Memory.getMany buf (at' p) p.2.1)) x.got }

/-- A granule write, or an element update, has performed: nothing of it is left. -/
def State.endMove (s : State) (core recd m : Nat) : State :=
  (s.modEngRec core recd fun e => { e with moves := e.moves.eraseIdx m }).copyPump core

/-- R213, R215: writes a granule, or updates an element, with the bytes read; on another package the write or the update is
sent, and the granule stands until it is answered (R343). DEDUCED (log 86). DEDUCED (log 88). -/
def State.moveWrite (s : State) (core : Nat) (e : Eng) (m : Nat) (mv : Move) : State :=
  let bs := Memory.getMany mv.got 0 mv.len
  let op : PieceOp := match mv.red with
    | none => .write bs
    | some (o, ty) => .update o ty (leNat bs)
  if s.farPart mv.dst then
    let r := s.sendPart { e.site with step := e.stepped } mv.tag (if mv.red.isSome then 3 else 2) mv.anew mv.unset { place := mv.dst, len := mv.len, op := op }
    r.2.modMove core e.idx m fun x => { x with sent := some r.1 }
  else
    let a := s.event core mv.dst mv.len op
    let w := if e.site.hnd then ([], a.2) else
      a.2.homeWatch { pkg := s.plat.pkg, core := core, ctx := e.site.ctx, tag := mv.tag, own := mv.home } op.kind mv.dst mv.len []
    let s := w.2
    if s.nodeMode e.site.ctx core mv.dst e.stepped == .marked then
      (s.logAt mv.dst { core := core, ctx := e.site.ctx } s.plat.pkg (s.ctxJob e.site.ctx) mv.tag a.1.st a.1.result).modMove core e.idx m
        fun x => { x with silent := true }
    else if a.1.st != 0 then s.failMove core e.idx m a.1.st
    else s.endMove core e.idx m

/-- The bytes that a request has read go to the granules of a record that asked for them. -/
def Eng.took (e : Eng) (r : Req) : Eng :=
  let take (x : Move) : Move :=
    { x with asked := x.asked.filter fun a => a.1 != r.id
             got := (x.asked.filter fun a => a.1 == r.id).foldl (fun g a => Memory.setMany g a.2.2.2 (Memory.getMany r.got a.2.1 a.2.2.1)) x.got }
  { e with moves := e.moves.map take, todo := e.todo.map take }

/-- R203, R282: the answer of another package to a part of a record's granules: bytes read go to every granule that waits for
them, a write has performed, a failure fails the command. -/
def State.moveBack (s : State) (core : Nat) (e : Eng) (r : Req) : State :=
  let s := s.dropReq r.id
  match (enumL e.moves).find? fun m => m.2.sent == some r.id || m.2.asked.any fun a => a.1 == r.id with
  | some (m, mv) =>
    if r.status != 0 then s.failMove core e.idx m r.status
    else if mv.sent == some r.id then s.endMove core e.idx m
    else s.modEngRec core e.idx fun e => e.took r
  | none => if r.status != 0 then (s.failCopy core e.idx r.status).copyPump core else s.modEngRec core e.idx fun e => e.took r

/-- MEMORY_REQUEST_PERFORM, R335: the i-th event that can happen. -/
def execMemoryRequestPerform (i : Nat) (s : State) : Host.Outcome State Fault Refusal :=
  match s.readyEvents[i]? with
  | none => .next s
  | some (.piece id k) =>
    match s.req? id with
    | none => .next s
    | some r => match s.answerLogged r with
      | some s => .next s
      | none => .next (s.performPiece r k false)
  | some (.qput id) =>
    match s.req? id with
    | none => .next s
    | some r => .next (s.enqueue r)
  | some (.reach id) =>
    match s.req? id with
    | none => .next s
    | some r => match r.reach with
      | none => .next s
      | some x => .next (s.reachOn r x)
  | some (.read core recd m k) =>
    match s.eng? core recd with
    | none => .next s
    | some e => match e.moves[m]? with
      | none => .next s
      | some mv => .next (s.moveRead core e m mv k)
  | some (.write core recd m) =>
    match s.eng? core recd with
    | none => .next s
    | some e => match e.moves[m]? with
      | none => .next s
      | some mv => .next (s.moveWrite core e m mv)
  | some (.back core recd id) =>
    match s.eng? core recd, s.req? id with
    | some e, some r => .next (s.moveBack core e r)
    | _, _ => .next s

/-! ## Wait queues -/

/-- The requests that wait at nodes, in order of their issue, and that satisfy a test. -/
def State.waiting (s : State) (f : Req → Bool) : List Req := s.ms.reqs.filter fun r => r.waits && !r.done && f r

/-- A held request whose node still serves it (R360: none of a frozen context performs from a wait queue), and has room to log
it (R205). -/
def State.served (s : State) (r : Req) : Bool :=
  match r.pieces with
  | [p] => s.nodeMode r.site.ctx r.site.core p.place r.stepped == .open' && s.logRoom r p.place
  | _ => false

/-- BARW_RELEASE, R222: the i-th BARW whose condition held reads the word as it stands. -/
def execBarwRelease (i : Nat) (s : State) : Host.Outcome State Fault Refusal :=
  match (s.waiting fun r => r.kind == .barw && r.go && s.served r)[i]? with
  | none => .next s
  | some r =>
    match r.pieces with
    | [p] =>
      let ps := p.spans.map fun x => (x.1, x.2.1, x.2.2.1, PieceOp.read)
      let a := s.spansEvent (if r.foreign then 256 else r.site.core) ps
      let w := if r.site.hnd then (r.hits, a.2) else a.2.homeWatches (Req.doer s r) 1 ps r.hits
      let word := a.1.bytes ++ a.1.parts.flatMap fun x => x.2
      .next ((w.2.modReq r.id fun r =>
        { (r.take 0 0 { st := a.1.st, result := BitVec.ofNat 64 (leNat word) } 0) with hits := w.1 }).settleReq r.id)
    | _ => .next s

/-- The head of its FIFO (R223, R226). -/
def State.isHead (s : State) (r : Req) : Bool :=
  match r.pieces with
  | [p] => (s.queued p).all fun x => decide (r.arrived ≤ x.arrived)
  | _ => false

/-- ACQ_GRANT, R223: the i-th ACQ at the head of its object's queue performs if the object allows it. -/
def execAcqGrant (i : Nat) (s : State) : Host.Outcome State Fault Refusal :=
  match (s.waiting fun r => r.kind == .acq && s.isHead r && s.served r)[i]? with
  | none => .next s
  | some r => .next (match s.answerLogged r with
    | some s => s
    | none => s.performPiece r 0 true)

/-- PIPE_WAIT_GRANT, R225: the i-th PCLM or PAWT at the head of its FIFO is served if the pipe allows it. -/
def execPipeWaitGrant (i : Nat) (s : State) : Host.Outcome State Fault Refusal :=
  match (s.waiting fun r => (match r.kind with
      | .pipe _ _ => true
      | _ => false) && s.isHead r && s.served r)[i]? with
  | none => .next s
  | some r => .next (s.performPiece r 0 true)

/-! ## Responses -/

/-- R203: which destinations a completed operation writes: its value or completion, D0 to D2 or D0 and D2. -/
def Req.outs (r : Req) (t : Tok) : List (Dest × Tok) :=
  match r.kind with
  | .st | .atomic _ | .bank | .bara | .rel => [(r.d0, t), (r.d2, t)]
  | .stt => [(r.d0, t)]
  | _ => [(r.d0, t), (r.d1, t), (r.d2, t)]

/-- The value of a completed operation. -/
def Req.value (r : Req) : Word :=
  match r.kind with
  | .ld ty => extendTy ty (leNat (Memory.getMany r.got 0 (tyBits ty / 8)))
  | .atomic ty => extendTy ty (r.result.toNat % 2 ^ tyBits ty)
  | .bara | .barw | .acq | .pipe _ _ | .qput _ _ => r.result
  | _ => 0

/-- R136, R209: an LDT's tile takes what was read, its padding zero (R63, R69, R70), granule by granule, and its handle goes out;
on failure the tile is freed. -/
def State.endLdt (s : State) (r : Req) : State :=
  let core := r.site.core
  let poison : Tok := poisonTok s r.site (if r.status == 0 then stAbandoned else r.status)
  match r.out with
  | none => (s.dropReq r.id).emitAll r.site latGraph 0 (r.outs poison)
  | some i =>
    let h := mkTok r.site kTile (s.handleOf core i)
    if r.status != 0 then (s.dropReq r.id).settle r.site latGraph 0 (r.outs poison) [h]
    else match r.work, s.tile? core i with
      | none, some t => s.modReq r.id fun r => { r with work := some (List.range (granulesOf t.shape)) }
      | some (g :: gs), some t =>
        let d := s.draw
        let k := (g :: gs).getD (d.1 % (gs.length + 1)) g
        let full := compactBytes t.shape r.got
        (d.2.modTileIdx core i fun t => (t.setBytes (k * 64) (Memory.getMany full (k * 64) 64)).mend [k]).modReq r.id fun r =>
          { r with work := some ((g :: gs).erase k) }
      | _, _ => (s.dropReq r.id).settle r.site latGraph 0 (r.outs h) [h]

/-- A completed operation reaches its core: outputs, held operands, and the end of its IFR entry (R203, R204). DEDUCED (log 36). -/
def State.respond (s : State) (r : Req) : State :=
  if r.kind == .ldt then s.endLdt r
  else
    let s := s.dropReq r.id
    let t := if r.status == 0 then scalarTok r.site r.value else poisonTok s r.site r.status
    let ems := r.outs t ++ (if r.kind == .stt then r.hold.map fun h => (r.d2, carryTok r.site h) else [])
    s.settle r.site latGraph 0 ems r.hold

/-- An answered request of this package's cores. -/
def Req.answered (r : Req) : Bool := r.done && !r.noEntry && decide (r.st < 3)

/-- MEMORY_RESPONSE, R203: the i-th answered request is delivered, or captured while its context is frozen (R359). -/
def execMemoryResponse (i : Nat) (s : State) : Host.Outcome State Fault Refusal :=
  match (s.ms.reqs.filter Req.answered)[i]? with
  | none => .next s
  | some r =>
    if s.ctxRuns r.site.ctx || r.stepped then .next (s.respond r)
    else .next (s.modReq r.id fun r => { r with st := if r.status == 0 then 3 else 4 })

/-! ## Remote timeouts and retention (R205, R439) -/

/-- A request with a part on another package that has not answered. -/
def State.outstandingFar (s : State) (r : Req) : Bool :=
  r.st == 2 && !r.done && !r.foreign && (s.ctxRuns r.site.ctx || r.stepped || r.site.ctx == dispCtx) && r.pieces.any fun p => match p.place with
    | .mem pa _ _ => !s.isLocal pa
    | _ => false

/-- R205: REMOTE_TMO of a context; for the Dispatcher's own requests its reset value. DESIGN CHOICE (log 157). -/
def State.tmoOf (s : State) (ctx : Nat) : Nat := match s.ctx? ctx with
  | some c => c.regs.tmo
  | none => 100000

/-- R205: what a request receives when its timeout has passed. -/
def State.timeOut (s : State) (r : Req) : State :=
  let ending (st : Nat) : State := (s.modReq r.id fun r => { r with pieces := [], reach := none, status := st }).settleReq r.id
  if r.rtry && r.kind.logsFar then
    if r.first + 1000000 ≤ s.wall then ending stIndeterminate
    else if r.last + s.tmoOf r.site.ctx ≤ s.wall then (s.modReq r.id fun r => { r with last := s.wall }).sendOut r
    else s
  else if r.last + s.tmoOf r.site.ctx ≤ s.wall then ending stLinkTimeout
  else s

/-- REMOTE_TIMEOUT, R205: the i-th outstanding remote request, of a firing or of a part of a record's granules. DESIGN CHOICE (log 157). -/
def execRemoteTimeout (i : Nat) (s : State) : Host.Outcome State Fault Refusal :=
  match (s.ms.reqs.filter s.outstandingFar)[i]? with
  | some r => .next (s.timeOut r)
  | none => .next s

/-- R205, R361, R382: an entry that may be evicted: 1 ms old, and of another package or of an unsettled request, whose
job is not halted. DEDUCED (log 78). -/
def State.evictable (s : State) (l : Logged) : Bool :=
  let halted := ((s.job? l.job).map fun j => j.state != .running).getD false
  !halted && decide (l.logged + 1000000 ≤ s.wall) && (l.pkg != s.plat.pkg ||
    s.ms.reqs.any fun r => r.st == 5 && r.site.ctx == l.ctx && r.site.core == l.core && r.tag == l.tag)

/-- RETENTION_WINDOW_EXPIRY, R205: the i-th entry of the duplicate-suppression tables. -/
def execRetentionWindowExpiry (i : Nat) (s : State) : Host.Outcome State Fault Refusal :=
  match s.ms.log[i]? with
  | none => .next s
  | some l => if s.evictable l then .next (s.modMs fun m => { m with log := m.log.eraseIdx i }) else .next s

/-- TRANSPORT_ERROR, R439: a run of a command whose source or destination is a network extent fails. -/
def execTransportError (core : Nat) (recd : Nat) (s : State) : Host.Outcome State Fault Refusal :=
  match s.eng? core recd with
  | none => .next s
  | some e =>
    match (enumL e.moves).find? fun m => isNet (m.2.src0 ++ [(m.2.dst, 0, 0)]) with
    | some (m, _) => .next (s.failMove core recd m stLinkTimeout)
    | none => .next s

/-! ## Replay (R369 to R371) -/

/-- A request that its node has still to look up. -/
def Req.replays (r : Req) : Bool := r.rpl && !r.seen && r.st == 2 && !r.done

/-- R370, R371: a replayed request: the logged result, or performed as new. -/
def State.replayReq (s : State) (r : Req) : State :=
  let ls := s.logOf r.site.ctx r.site.core r.tag
  let s := s.modMs fun m => { m with log := m.log.filter fun l => !ls.contains l }
  match ls with
  | l :: _ =>
    (s.modReq r.id fun r =>
      { r with seen := true, status := if r.status == 0 then (firstNonzero (ls.map fun l => l.status)) else r.status,
               result := if l.status == 0 then l.result else r.result
               done := r.done || (r.kind.isQput && r.pieces.isEmpty) }).settleReq r.id
  | [] =>
    if r.unset && r.cls == 3 && decide (r.first + 1000000 ≤ s.wall) then
      (s.modReq r.id fun r =>
        { r with seen := true, pieces := [], waits := false, done := true, status := stIndeterminate }).settleReq r.id
    else (s.modReq r.id fun r => { r with seen := true }).settleReq r.id

/-- R369 to R371: a replayed granule: dropped when its node had logged it, else read again and performed as new; an unsettled
reduce write on another package whose retention window has passed fails. -/
def State.replayMove (s : State) (core : Nat) (e : Eng) (m : Nat) (mv : Move) : State :=
  match s.logOf e.site.ctx core mv.tag with
  | l :: _ =>
    let s := s.modMs fun x => { x with log := x.log.filter fun y => y != l }
    if l.status != 0 then s.failMove core e.idx m l.status else s.endMove core e.idx m
  | [] =>
    if mv.unset && mv.red.isSome && s.farPart mv.dst && decide (mv.since + 1000000 ≤ s.wall) then
      s.failMove core e.idx m stIndeterminate
    else s.modMove core e.idx m fun x =>
      { x with rpl := false, anew := true, silent := false, src := x.src0, got := [], asked := [], sent := none }

/-- REPLAY_REQUEST, R370: the i-th request, then the i-th granule, that a replay has sent. -/
def execReplayRequest (i : Nat) (s : State) : Host.Outcome State Fault Refusal :=
  let rs := s.ms.reqs.filter Req.replays
  match rs[i]? with
  | some r => .next (s.replayReq r)
  | none =>
    let ms := (enumL s.cores).flatMap fun c => c.2.eng.recs.flatMap fun e => if s.engRuns e then
        (enumL e.moves).filterMap fun m => if m.2.rpl then some (c.1, e, m.1, m.2) else none
      else []
    match ms[i - rs.length]? with
    | some (core, e, m, mv) => .next (s.replayMove core e m mv)
    | none => .next s

end Sys2Proof.Machine
end

