-- ==== Sys2Proof/Machine/Packets.lean ====
section
/-! DEFINITION. The fields of a packet (R303, R307 to R312), its end in the Dispatcher (R315, R316), and the save pool
(R290, R363). -/

namespace Sys2Proof.Machine

/-! ## Header (R308) -/

def Pkt.hdr (p : Pkt) : Nat := leNat (p.bytes.take 32)
def Pkt.gangLen (p : Pkt) : Nat := bf p.hdr 1 3
def Pkt.levelCount (p : Pkt) : Nat := bf p.hdr 4 3 + 1
def Pkt.prio (p : Pkt) : Nat := bf p.hdr 7 2
def Pkt.typ (p : Pkt) : Nat := bf p.hdr 9 3
def Pkt.rhome (p : Pkt) : Nat := bf p.hdr 12 8
def Pkt.cid (p : Pkt) : Nat := bf p.hdr 20 8
def Pkt.job (p : Pkt) : Nat := bf p.hdr 28 16
def Pkt.cword (p : Pkt) : Nat := bf p.hdr 44 42 * 64
def Pkt.args (p : Pkt) : Nat := bf p.hdr 86 42 * 64
def Pkt.dep (p : Pkt) (i : Nat) : Nat := bf p.hdr (128 + 64 * i) 64

/-- R309: SLOT of a configuration load. -/
def Pkt.slot (p : Pkt) : Nat := bf p.hdr 4 2

/-- R309: ACTION and TCTX of a pre-emption request. -/
def Pkt.action (p : Pkt) : Nat := bf p.hdr 110 2
def Pkt.tctx (p : Pkt) : Nat := bf p.hdr 112 16

def typLaunch : Nat := 0
def typGang : Nat := 1
def typLoad : Nat := 2
def typBarrier : Nat := 3
def typPreempt : Nat := 4

def actSave : Nat := 0
def actRestore : Nat := 1
def actAbort : Nat := 2

/-- R307, R311: a level word; R312: a range descriptor. -/
def Pkt.levelWord (p : Pkt) (i : Nat) : Nat := leNat ((p.bytes.drop (32 + 4 * i)).take 4)
def Pkt.range (p : Pkt) (i : Nat) : Nat := leNat ((p.bytes.drop (64 + 16 * i)).take 16)

/-- R247: kind, count and scope of each declared level. -/
def Pkt.levels (p : Pkt) : List (Nat × Nat × Nat) :=
  (List.range p.levelCount).map fun i => (bf (p.levelWord i) 13 3, bf (p.levelWord i) 16 16, bf (p.levelWord i) 11 2)

def rangeV (w : Nat) : Bool := bf w 15 1 == 1
def rangePerm (w : Nat) : Nat := bf w 13 2
def rangeKind (w : Nat) : Nat := bf w 11 2
def rangeObj (w : Nat) : Nat := bf w 7 4
def rangeQn (w : Nat) : Nat := bf w 3 4
def rangeTrb (w : Nat) : Bool := bf w 2 1 == 1
def rangeLen (w : Nat) : Nat := bf w 16 48
def rangeAddr (w : Nat) : Nat := bf w 64 64

/-! ## Packets in the Dispatcher -/

def State.pkt? (s : State) (no : Nat) : Option Pkt := s.disp.pkts.find? fun p => p.no == no

def State.modPkt (s : State) (no : Nat) (f : Pkt → Pkt) : State :=
  s.modDisp fun d => { d with pkts := d.pkts.map fun p => if p.no == no then f p else p }

/-- What the Dispatcher sends on behalf of one packet: the tests of its barrier records, and reads and writes of its memory. -/
def ReqKind.ofPacket (k : ReqKind) : Bool :=
  match k with
  | .barw | .visit (.load _) | .visit .arg => true
  | _ => false

/-- R315, R316, R323: a packet that creates no context, or not yet, is DONE: one arrival with a status. -/
def State.endPacket (s : State) (p : Pkt) (st : Nat) : State :=
  let s := s.dispArrive p.tenant p.queue p.seq p.cword st
  let s := s.modMs fun m => { m with reqs := m.reqs.filter fun r =>
    !(r.site.ctx == dispCtx && r.kind.ofPacket && (r.disp.map fun x => x.1) == some p.no) }
  let s := s.modDisp fun d =>
    { d with pkts := d.pkts.filter fun x => x.no != p.no }
  let s := s.tellParent p.parent p.queue p.seq st
  { s with regions := s.regions.map fun g => { g with admitq := g.admitq.filter fun n => n != p.no } }

/-- R323: a pre-emption request of an action that is at work on a context. -/
def State.asked (s : State) (ctx action : Nat) : Option Pkt :=
  s.disp.pkts.find? fun p => p.typ == typPreempt && p.action == action && p.tctx == ctx && p.state == .running

/-! ## The save pool -/

/-- R290: the length of e14 and of e15 for a region of `n` cores. DEDUCED (log 43). -/
def spillBytes (n : Nat) : Nat := ceilDiv (n * 1179776) 0x200000 * 0x200000
def logBytes (n : Nat) : Nat := ceilDiv (n * 163840) 0x200000 * 0x200000

/-- What a context holds of its tenant's pool: address and bytes. DESIGN CHOICE (log 105). -/
def Ctx.held (c : Ctx) : List (Nat × Nat) :=
  ((c.saved.base, c.saved.size) :: [14, 15].filterMap fun i => (c.extents[i]?).bind fun x =>
    (x.chunks.head?).map fun pa => (paLocal pa, ceilDiv x.len 0x200000 * 0x200000)).filter fun h => h.2 != 0

/-- Takes `n` bytes of a tenant's pool at the lowest 2 MiB boundary where they are free. DESIGN CHOICE (log 105). -/
def State.poolFind (s : State) (tenant n : Nat) (more : List (Nat × Nat)) : Option Nat :=
  match s.disp.pools.find? fun p => p.1 == tenant with
  | none => none
  | some (_, base, bytes) =>
    let used := more ++ (s.ctxs.filter fun c => c.tenant == tenant).flatMap Ctx.held
    let up (a : Nat) : Nat := ceilDiv a 0x200000 * 0x200000
    let free (a : Nat) : Bool := decide (a + n ≤ base + bytes) && used.all fun u => decide (a + n ≤ u.1) || decide (u.1 + u.2 ≤ a)
    let at' := (up base :: used.map fun u => up (u.1 + u.2)).filter free
    match at' with
    | [] => none
    | a :: l => some (l.foldl min a)

end Sys2Proof.Machine
end

