-- ==== Sys2Proof/Machine/Freeze.lean ====
section
/-! DEFINITION. The end of a context (R265); freezing and settling (R359 to R362); saving and restoring (R363 to R365,
R334); and going on after a freeze (R369 to R371). -/

namespace Sys2Proof.Machine

/-! ## Completion -/

/-- R265, R271: a token toward a context, queued, in flight or held at an in-port. DEDUCED (log 102). -/
def State.ofCtx (s : State) (id : Nat) (q : QTok) : Bool :=
  match q.dst with
  | .frame => (s.frame? q.core q.frame).isSome && s.ctxOfTok q.core q == id
  | .inject _ c _ => c == id
  | .inport _ _ _ => s.arrivalCtx q == some id

/-- R265: what a context still has on a core. -/
def State.workOn (s : State) (id core : Nat) : Bool :=
  let k := s.core core
  (k.frm.frames.any fun f => f.ctx == id) || (k.tok.inq.any fun q => s.ofCtx id q) || (k.eng.recs.any fun e => e.site.ctx == id) ||
    (k.frm.fifo.any fun r => r.ctx == id) || (k.frm.loops.any fun l => l.ctx == id && !l.pend.isEmpty) ||
    ((k.tile.fifo ++ k.tile.accFifo).any fun r => r.site.ctx == id)

/-- R265, R376: nothing is left of a context's work. DEDUCED (log 102). -/
def State.atRest (s : State) (c : Ctx) : Bool :=
  let id := c.id
  c.mode == .running && (s.disp.pkts.all fun p => p.no != c.pkt || p.state == .running) &&
    !(c.seats.any fun k => s.workOn id k.1) && !(s.flight.any fun q => s.ofCtx id q) &&
    !(s.ms.reqs.any fun r => r.site.ctx == id && !r.noEntry) && c.regs.kids == 0 && c.traps.isEmpty && c.handler.isNone &&
    c.drains.isEmpty && c.qwaits.isEmpty && c.watchWaits.isEmpty &&
    !(s.regions.any fun g => (g.closes.any fun w => w.site.ctx == id) || g.waits.any fun w => w.site.ctx == id)

/-- CONTEXT_COMPLETION, R265. -/
def execContextCompletion (ctx : Nat) (s : State) : Host.Outcome State Fault Refusal :=
  match s.ctx? ctx with
  | none => .next s
  | some c => if s.atRest c then .next (s.endContext ctx c.regs.status) else .next s

/-! ## Freezing and settling -/

/-- R359, R381: a context that is to be frozen: its job halts, or a request saves it. -/
def State.freezeDue (s : State) (c : Ctx) : Bool :=
  ((s.job? c.jobKey).map fun j => j.state != .running).getD false || (s.asked c.id actSave).isSome

/-- FREEZE, R359: steps 1 to 4 for those of the named contexts that are to be frozen. -/
def execFreeze (ids : List Nat) (s : State) : Host.Outcome State Fault Refusal :=
  .next (s.freeze (ids.filter fun i => ((s.ctx? i).map s.freezeDue).getD false)).stopJobs

/-- FREEZE_MARK, R360: the mark of every frozen context that owes this node a fence reaches the node. -/
def execFreezeMark (node : Nat) (s : State) : Host.Outcome State Fault Refusal :=
  .next { s with ctxs := s.ctxs.map fun c =>
    if c.mode == .frozen && (c.fences.any fun f => f.2 == node) && !c.marks.contains node then { c with marks := node :: c.marks } else c }

/-- The node of a request that waits there. -/
def State.waitsAt (s : State) (r : Req) (node : Nat) : Bool :=
  r.waits && r.pieces.any fun p => s.placeNode p.place == some node

/-- R359, R360: a drain marker at a node: held operations leave their queue without performing. -/
def State.drainMark (s : State) (id core node : Nat) : State :=
  let s := s.modCtx id fun c => { c with markers := (core, node) :: c.markers }
  s.modMs fun m => { m with reqs := m.reqs.map fun r =>
    if r.site.ctx == id && r.site.core == core && s.waitsAt r node then { r with waits := false, go := false } else r }

/-- R359: an event at a node that requests, or granules, of a context's core have sent there and that has not performed: it is on
the path before the drain marker. -/
def State.onPath (s : State) (id core node : Nat) : Bool :=
  let here (l : Loc) : Bool := s.placeNode l == some node
  let sent (r : Req) : Bool := r.site.ctx == id && r.site.core == core && !r.stepped && ((r.replays && (s.reqNodes r).contains node) ||
    (if r.readyQput then s.qputTurn r && here (.mem r.paddr 0 0)
      else (enumL r.pieces).any fun p => here p.2.place && s.performable r p.1))
  let moves (e : Eng) : Bool := e.site.ctx == id && !e.stepped && (s.moveEvents core e).any fun v => match v with
    | .read _ _ m k => ((e.moves[m]?).bind fun x => x.src[k]?).any fun p => here p.1
    | .write _ _ m => (e.moves[m]?).any fun x => here x.dst
    | _ => false
  let put (w : Nat × Nat × Nat) : Bool := (s.req? w.2.1).any fun r => r.site.ctx == id && r.site.core == core && here (.mem r.paddr 0 0)
  s.ms.reqs.any sent || s.puttings.any put || (s.core core).eng.recs.any moves

/-- DRAIN_MARKER, R359: step 5 at a node for a core; toward another package the marker is sent. -/
def execDrainMarker (core : Nat) (node : Nat) (s : State) : Host.Outcome State Fault Refusal :=
  .next (s.ctxs.foldl (fun s c =>
    if c.mode == .frozen && c.marks.contains node && c.fences.contains (core, node) && !c.markers.contains (core, node) &&
        !s.onPath c.id core node then
      let s := s.drainMark c.id core node
      if nodeCount ≤ node then s.send (.marker (node - nodeCount) core c.id) else s
    else s) s)

/-- R361: a fence that a context no longer awaits; with the last one it is settled. -/
def Ctx.dropFence (c : Ctx) (now : Nat) (f : Nat × Nat) : Ctx :=
  let left := c.fences.erase f
  { c with fences := left, settled := left.isEmpty, saved := { c.saved with settle := if left.isEmpty then now else c.saved.settle } }

/-- FENCE, R359: step 6; responses that left the node before the fence have been captured. -/
def execFence (core : Nat) (node : Nat) (s : State) : Host.Outcome State Fault Refusal :=
  let late (c : Ctx) : Bool := s.ms.reqs.any fun r => r.site.ctx == c.id && r.site.core == core && r.answered && !r.stepped
  let due (c : Ctx) : Bool := c.mode == .frozen && c.markers.contains (core, node) && c.fences.contains (core, node) && !late c
  let u : State := { s with ctxs := s.ctxs.map fun c => if due c then c.dropFence s.gtc (core, node) else c }
  .next u.stopJobs

/-- R361: requests toward nodes whose fences did not come: answered ones are captured, the others unsettled. DEDUCED (log 103). -/
def State.unsettle (s : State) (c : Ctx) : State :=
  let s := s.modMs fun m => { m with reqs := m.reqs.map fun r =>
    if r.site.ctx != c.id || r.st != 2 || r.stepped then r
    else if r.answered then { r with st := if r.status == 0 then 3 else 4 }
    else if r.done then r
    else if ((s.reqNodes r).any fun n => c.fences.contains (r.site.core, n)) then { r with st := 5, waits := false, go := false } else r }
  let s := c.seats.foldl (fun s k => s.modEng k.1 fun g => { g with recs := g.recs.map fun e =>
    if e.site.ctx != c.id then e else { e with moves := e.moves.map fun m =>
      if (c.fences.any fun f => f.1 == k.1 && s.placeNode m.dst == some f.2) then { m with unset := true } else m } }) s
  s.modCtx c.id fun c => { c with fences := [], settled := true, saved := { c.saved with settle := s.gtc } }

/-- SETTLE_TIMEOUT, R361: 3 µs, or 5 µs with an entry toward another package. DEDUCED (log 108). -/
def execSettleTimeout (ctx : Nat) (s : State) : Host.Outcome State Fault Refusal :=
  match s.ctx? ctx with
  | none => .next s
  | some c =>
    let bound := if c.fences.any fun f => decide (nodeCount ≤ f.2) then 5000 else 3000
    if c.mode == .frozen && !c.settled && decide (c.froze + bound ≤ s.wall) then .next (s.unsettle c).stopJobs else .next s

/-! ## Saving (R363, R364, R334) -/

/-- What the save area takes of a context on one core. -/
def State.savedOn (s : State) (id core : Nat) (x : Saved) : Saved :=
  let k := s.core core
  let u := k.tok
  let mine (q : QTok) : Bool := s.ctxOfTok core q == id && (s.frame? core q.frame).isSome
  let bound (q : QTok) : Bool := match q.dst with
    | .inject _ c _ => c == id
    | _ => false
  let g := k.eng
  let recs := g.recs.filter fun e => e.site.ctx == id
  let masks (e : Eng) : Nat × Nat := ((g.taken.find? fun t => t.1 == e.idx).map fun t => t.2).getD (0, 0)
  let units := recs.foldl (fun m e => m ||| (masks e).2) 0
  let kept (i : Nat) : Bool := match g.pw[i]? with
    | some w => w.state == .ready || w.state == .failed
    | none => false
  let used := (enumL g.pw).filter fun w => kept w.1 && ((w.2.bound.any fun b => b.1 == id) || recs.any fun e => e.holdsOf w.1 != 0)
  { x with
    toks := x.toks ++ ([0, 1, 2, 3, 4].flatMap fun c => ((u.fifo c).filter mine).map fun q => (core, c, q)) ++
      (u.inq.filter bound).map fun q => (core, 5, q)
    frames := x.frames ++ (k.frm.frames.filter fun f => f.ctx == id).map fun f => (core, f)
    loops := x.loops ++ (k.frm.loops.filter fun l => l.ctx == id).map fun l => (core, l)
    asks := x.asks ++ (k.frm.fifo.filter fun r => r.ctx == id).map fun r => (core, r)
    tiles := x.tiles ++ (k.tile.tiles.filter fun t => t.ctx == id).map fun t => (core, t)
    tileAsks := x.tileAsks ++ ((k.tile.fifo ++ k.tile.accFifo).filter fun r => r.site.ctx == id && r.why != 4).map fun r => (core, r)
    engs := x.engs ++ recs.map fun e =>
      (core, e.mapSlots (fun y => if kept y.1 then y else (4, y.2)), (masks e).1, (masks e).2)
    scratch := x.scratch ++ (g.scratch.filter fun w => bf units (w.1 / Config.scratchWords) 1 == 1).map fun w => (core, w.1, w.2)
    scratchUe := x.scratchUe ++ (g.scratchUe.filter fun w => bf units (w / Config.scratchWords) 1 == 1).map fun w => (core, w)
    weights := x.weights ++ used.map fun w => (core, w.1, { w.2 with bound := w.2.bound.filter fun b => b.1 == id, holds := 0 })
    wstat := x.wstat ++ (g.wStat.filter fun w => w.1 == id).map fun w => (core, w.2.1, w.2.2)
    hist := x.hist ++ (k.hist.filter fun h => h.ctx == id).map fun h => (core, h) }

/-- What a save releases on one core: frame numbers and handle indices stay reserved. -/
def State.releaseOn (s : State) (id core : Nat) : State :=
  let x := s.savedOn id core {}
  let toks := x.toks.map fun t => t.2.2
  let keep (l : List QTok) : List QTok := toks.foldl (fun l q => l.erase q) l
  let recs := x.engs.map fun e => e.2.1.idx
  let mine := (s.core core).eng.recs.filter fun e => e.site.ctx == id
  let s := x.tiles.foldl (fun s t => s.modTile core fun u => u.giveBack t.2) s
  let s := s.modCore core fun k =>
    { k with
      tok := { k.tok with handlerQ := keep k.tok.handlerQ, fifo0 := keep k.tok.fifo0, fifo1 := keep k.tok.fifo1,
                          fifo2 := keep k.tok.fifo2, fifo3 := keep k.tok.fifo3, inq := keep k.tok.inq }
      frm := { k.frm with
        frames := k.frm.frames.filter fun f => f.ctx != id
        loops := k.frm.loops.filter fun l => l.ctx != id
        fifo := k.frm.fifo.filter fun r => r.ctx != id
        reserved := k.frm.reserved ++ x.frames.map fun f => (id, f.2.num) }
      tile := { k.tile with
        tiles := k.tile.tiles.filter fun t => t.ctx != id
        fifo := k.tile.fifo.filter fun r => r.site.ctx != id
        accFifo := k.tile.accFifo.filter fun r => r.site.ctx != id
        reserved := k.tile.reserved ++ x.tiles.map fun t => (id, t.2.idx) }
      hist := k.hist.filter fun h => h.ctx != id }
  s.modEng core fun g =>
    let g : Engines := { g with
      recs := g.recs.filter fun e => e.site.ctx != id
      taken := g.taken.filter fun t => !recs.contains t.1
      wStat := g.wStat.filter fun w => w.1 != id }
    g.modSlots fun i w => { w with bound := w.bound.filter fun b => b.1 != id, holds := w.holds - (mine.map fun e => e.holdsOf i).sum }

/-- R364: the contents of a save area after its header, which are the device's own. -/
def bodyOf (seed size : Nat) : List Byte := (List.range (size - 32)).map (Config.saveByte seed)

def State.saveBody (s : State) (c : Ctx) : List Byte := bodyOf s.fresh c.saved.size

/-- R364: the header of a save area. -/
def State.saveHeader (s : State) (c : Ctx) : Nat :=
  c.saved.settle * 2 ^ 192 + c.saved.size * 2 ^ 128 + crc32 (s.saveBody c) * 2 ^ 96 + c.seats.length * 2 ^ 80 +
    c.job * 2 ^ 64 + c.id * 2 ^ 48 + c.tenant * 2 ^ 44 + c.cslot * 2 ^ 42 + c.cid * 2 ^ 34 + 0x53564153

/-- R368: an entry of the suppression log. -/
def State.logEntry (s : State) (l : Logged) : List Byte :=
  let far := decide (nodeCount ≤ l.node)
  leBytes 8 (l.tag * 2 ^ 40 + (if far then l.node - nodeCount else s.plat.pkg) * 2 ^ 12 + (if far then l.num else l.node)) ++
    leBytes 8 l.result.toNat ++ leBytes 8 l.status ++ leBytes 8 0

/-- R368: entries that the suppression log holds for each core of its context. -/
def logRoomPerCore : Nat := 5120

/-- R363, R368: writes a context's suppression log into its e15. -/
def State.saveLog (s : State) (c : Ctx) (log : List Logged) : State :=
  match c.extents[15]? with
  | none => s
  | some x => match x.chunks.head? with
    | none => s
    | some pa => (s.writePhys (paLocal pa) ((log.take (logRoomPerCore * c.seats.length)).flatMap s.logEntry) x.atag
        (s.keyFor c.tenant pa x.enc)).2

/-- R359, R369: answers that came before the fence reach their engine records; a part of a granule that was not answered goes
with its granule, which is reissued, but for one over the network, whose transport goes on (R439). -/
def State.collectParts (s : State) (id : Nat) : State :=
  let s := (s.ms.reqs.filter fun r => r.kind == .part && r.site.ctx == id && r.done).foldl (fun s r =>
    match (s.core r.site.core).eng.recs.find? fun e => e.tracks r.id with
    | some e => s.moveBack r.site.core e r
    | none => s) s
  s.modMs fun m => { m with reqs := m.reqs.filter fun r => !(r.kind == .part && r.site.ctx == id) || r.overNet }

/-- R363, R334: writes a settled context to its area and releases its seats. -/
def State.saveCtx (s : State) (c : Ctx) : State :=
  let id := c.id
  let s := s.collectParts id
  -- transfers on their way to it ask again once it is back
  let waits := c.seats.flatMap fun k => ((s.core k.1).tile.fifo ++ (s.core k.1).tile.accFifo).filterMap fun r =>
    if r.site.ctx == id then r.arrival else none
  let s := { s with flight := waits.foldl (fun l q => swapTok q { q with held := false } l) s.flight }
  let area := c.seats.foldl (fun x k => s.savedOn id k.1 x) c.saved
  let own (r : Req) : Bool := r.site.ctx == id
  let ours (l : Logged) : Bool := l.ctx == id && l.pkg == s.plat.pkg
  let area : Saved := { area with reqs := s.ms.reqs.filter own, log := s.ms.log.filter ours, version := s.plat.version }
  let s := s.saveLog c area.log
  let s := c.seats.foldl (fun s k => s.releaseOn id k.1) s
  let s := s.modMs fun m => { m with reqs := m.reqs.filter fun r => !own r, log := m.log.filter fun l => !ours l }
  let pa := ownPa area.base
  let s := (s.writePhys area.base (leBytes 32 (s.saveHeader c) ++ s.saveBody c) 0 (s.keyFor c.tenant pa true)).2
  let t := s.modCtx id fun c => { c with mode := .saved, seats := [], saved := area }
  { t with fresh := s.fresh + 1, disp := { t.disp with shots := ((t.ctx? id).map fun c => (s.fresh, c)).toList ++ t.disp.shots } }

/-- A frozen context may be written out: it is settled, and nothing of a step is under way. DEDUCED (log 103). -/
def State.saveable (s : State) (c : Ctx) : Bool :=
  c.mode == .frozen && c.settled &&
    !(s.flight.any fun q => q.tile.isNone && (match q.dst with
      | .frame => (s.frame? q.core q.frame).isSome && s.ctxOfTok q.core q == c.id
      | .inject _ x _ => x == c.id
      | _ => false)) &&
    !(s.ms.reqs.any fun r => r.site.ctx == c.id && (r.stepped && !r.watch || r.answered || r.overNet)) &&
    !(s.departing.any fun d => d.view.ctx == c.id) &&
    !(c.seats.any fun k => (s.core k.1).eng.recs.any fun e => e.site.ctx == c.id && e.stepped)

/-- CONTEXT_SAVE, R363: completes the request that saves a context. -/
def execContextSave (ctx : Nat) (s : State) : Host.Outcome State Fault Refusal :=
  match s.ctx? ctx, s.asked ctx actSave with
  | some c, some p => if s.saveable c then .next ((s.saveCtx c).endPacket p 0) else .next s
  | _, _ => .next s

/-! ## Going on (R369 to R371, R388) -/

/-- R369: a request at a replay; captured and answered ones are delivered, others are sent again. -/
def Req.reissue (r : Req) (now : Nat) : Req :=
  if r.st == 3 || r.st == 4 || r.done then { r with st := 2, done := true, silent := false, waits := false }
  else if r.st == 1 then r
  else if r.cls == 1 then
    { r with st := 2, pieces := r.pieces0, got := [], status := 0, silent := false, waits := false, go := false, seen := false,
             unset := false, first := now, last := now }
  else { r with st := 2, rpl := true, seen := false, unset := r.st == 5, silent := false, waits := false, go := false, arrived := 0, last := now }

/-- R369: a class A entry that is reissued as a new request: it takes a new tag. -/
def Req.fresh (r : Req) : Bool := r.cls == 1 && !r.done && (r.st == 2 || r.st == 5)

/-- R370: pieces on another package whose fence brought the entry that logged them are not sent again. -/
def State.dropLogged (s : State) (r : Req) : Req :=
  let nodes := (s.logOf r.site.ctx r.site.core r.tag).map fun l => l.node
  { r with pieces := r.pieces.filter fun p => match s.placeNode p.place with
      | some n => n < nodeCount || !nodes.contains n
      | none => true }

/-- R394: an instant of a clk count, moved past the clk in which the context was frozen. -/
def thawClk (fz now x : Nat) : Nat := min x fz + (now - fz)

/-- R394: park times do not count frozen clk. -/
def State.thawOn (s : State) (id core fz : Nat) : State :=
  let now := s.clk core
  let mine (q : QTok) : Bool := s.ctxOfTok core q == id
  let shift (l : List QTok) : List QTok := l.map fun q => if mine q then { q with accAt := thawClk fz now q.accAt } else q
  (s.modQueues core shift).modFrm core fun u =>
    { u with frames := u.frames.map fun f =>
      if f.ctx == id then { f with slots := f.slots.map fun x => { x with since := thawClk fz now x.since } } else f }

/-- R439: a granule that waits for the network. -/
def Move.overNet (m : Move) : Bool := isNet ((m.dst, 0, 0) :: m.src0) && (m.sent.isSome || !m.asked.isEmpty)

/-- R295, R369: a command that goes on: its granules on their way are sent again, the others are read again, and a run that
was not formed is translated anew. -/
def Eng.goOn (e : Eng) : Eng :=
  { e with stall := none, trans := []
           moves := e.moves.map fun m => if m.overNet then m else { m with rpl := true, silent := false }
           todo := e.todo.map fun m => { m with src := m.src0, got := [], asked := [], silent := false } }

/-- R189, R200, R369: engine commands of a core go on: weight loads fire again, Pan entries are offered again, granules
on their way are sent again. -/
def State.resumeEngines (s : State) (id core : Nat) : State :=
  let s := s.modEng core fun g => { g with recs := g.recs.map fun e => if e.site.ctx == id then e.goOn else e }
  let s := ((s.core core).eng.recs.filter fun e => e.site.ctx == id).foldl (fun s e =>
    match e.kind with
    | .wld ws key _ => if e.step == .waiting then s.startWld core e ws key else s
    | .mma _ _ _ _ (some _) => if e.step == .waiting && e.pan.isNone then s.offer core e else s
    | _ => s) s
  (s.copyPump core).promote core

/-- R374: a SETC of a watch register is done once every node holds the setting. -/
def State.endWatchWaits (s : State) (id : Nat) : State :=
  match s.ctx? id with
  | none => s
  | some c => if c.mode != .running then s else
      (c.watchWaits.filter fun w => w.on.isEmpty).foldl (fun s w =>
        let v := scalarTok w.site 0
        s.emitAll w.site latGraph 0 [(w.d0, v), (w.d1, v), (w.d2, v)])
      (s.modCtx id fun c => { c with watchWaits := c.watchWaits.filter fun w => !w.on.isEmpty })

/-- R369, R388: a frozen context goes on, with its logs at their nodes. -/
def State.resumeCtx (s : State) (id : Nat) : State :=
  match s.ctx? id with
  | none => s
  | some c =>
    let cores := c.seats.map fun k => k.1
    let s := s.collectParts id
    let s := s.modCtx id fun c =>
      { c with mode := .running, fences := [], settled := true, marks := [], markers := [], frozenAt := [], saved := {} }
    let s := c.frozenAt.foldl (fun s k => s.thawOn id k.1 k.2) s
    let s := (s.ms.reqs.filter fun r => r.site.ctx == id).foldl (fun s r0 =>
      let r := r0.reissue s.wall
      let r := if r.rpl && !r.seen then s.dropLogged r else r
      let t := if r0.fresh then s.nextTag id r0.site.core 0 else (r.tag, s)
      let r := { r with tag := t.1 }
      let s := t.2.modReq r.id fun _ => r
      -- R377: what a precise hit held and a step released goes out now
      if r.st == 1 then s.sendHeld r.id else if r.st == 2 && !r.done then s.sendOut r else s) s
    let s := s.endWatchWaits id
    let s := cores.foldl (fun s k => s.resumeEngines id k) s
    cores.foldl (fun s k => s.traceRec { core := k, ctx := id } 8 1 0 0) s

/-! ## Restoring (R334, R364, R369) -/

/-- R364: what a restore reads of a save area: the status of the read and the bytes. -/
def State.readArea (s : State) (c : Ctx) : Nat × List Byte :=
  let r := s.readPhys c.saved.base c.saved.size 0 (s.keyFor c.tenant (ownPa c.saved.base) true)
  (r.1, r.2.1)

/-- R364: the area of a saved context reads without an error, was written under the firmware version that runs, and the CRC of its
header is that of the bytes after the header. DEDUCED (log 107). -/
def State.areaOk (s : State) (c : Ctx) : Bool :=
  let r := s.readArea c
  r.1 == 0 && c.saved.version == s.plat.version && numAt r.2 12 4 == crc32 (r.2.drop 32)

/-- R414, R416: the context as its area holds it, which may be that of an earlier save that was copied back; the launch that it belongs
to stays. -/
def State.areaCtx (s : State) (c : Ctx) : Ctx :=
  let r := s.readArea c
  match s.disp.shots.find? fun x => x.2.id == c.id && bodyOf x.1 c.saved.size == r.2.drop 32 with
  | none => c
  | some x => { x.2 with order := c.order, queue := c.queue, seq := c.seq, pkt := c.pkt, parent := c.parent
                         saved := { x.2.saved with base := c.saved.base, size := c.saved.size } }

/-- R244, R334: a restore takes seats and joins the FIFOs of its cores. -/
def State.beginRestore (s : State) (c : Ctx) (seats : List (Nat × Nat)) : State :=
  let c := s.areaCtx c
  let x := c.saved
  let s := s.modCtx c.id fun _ => { c with mode := .restoring, seats := seats }
  let s := x.frames.foldl (fun s f => s.modFrm f.1 fun u =>
    { u with fifo := u.fifo ++ [{ site := { core := f.1, ctx := c.id }, why := .restore f.2, ctx := c.id, cslot := f.2.cslot,
                                  block := f.2.block }] }) s
  let s := x.weights.foldl (fun s w => s.modEng w.1 fun g => { g with wFifo := g.wFifo ++ [.back c.id w.2.1] }) s
  x.tiles.foldl (fun s t =>
    if t.2.view.isSome then s.restoreTile t.1 t.2
    else s.askTile t.1 { site := { core := t.1, ctx := c.id }, shape := t.2.shape, why := 5, saved := some t.2 }) s

/-- R334: every request of a restore has been granted; a transfer that waits to reach the context is none of them. -/
def State.granted (s : State) (c : Ctx) : Bool :=
  let back (r : FrameReq) : Bool := r.ctx == c.id && match r.why with
    | .restore _ => true
    | _ => false
  c.saved.frames.all (fun f => !((s.core f.1).frm.fifo.any back)) &&
    c.saved.tiles.all (fun t => !(((s.core t.1).tile.fifo ++ (s.core t.1).tile.accFifo).any fun r => r.site.ctx == c.id && r.why == 5)) &&
    c.saved.weights.all fun w => c.saved.placed.any fun p => p.1 == w.1 && p.2.1 == w.2.1

/-- The numbers of a core's free records and IFR entries. -/
def State.freeRecs (s : State) (core : Nat) : List Nat :=
  (List.range Config.engRecords).filter fun i => !((s.core core).eng.recs.any fun e => e.idx == i)

def State.freeEntries (s : State) (core : Nat) : List Nat :=
  let used := (s.ms.reqs.filter fun r => r.site.core == core && !r.noEntry).map fun r => r.idx
  (List.range Config.ifrEntries).filter fun i => !used.contains i

/-- R240, R366: records and entries are free for everything a save area holds, and so are the pipelines and units. -/
def State.fitsBack (s : State) (c : Ctx) : Bool :=
  c.seats.all fun k =>
    let core := k.1
    let engs := c.saved.engs.filter fun e => e.1 == core
    let taken := (s.core core).eng.taken
    decide (engs.length ≤ (s.freeRecs core).length) &&
      decide ((c.saved.reqs.filter fun r => r.site.core == core && !r.noEntry).length ≤ (s.freeEntries core).length) &&
      engs.all fun e => taken.all fun t => t.2.1 &&& e.2.2.1 == 0 && t.2.2 &&& e.2.2.2 == 0

/-- A histogram entry goes back to its place, or to the lowest free one; with none free it is lost (R395). -/
def State.restoreHist (s : State) (core : Nat) (h : Hist) : State :=
  let store := (s.core core).hist
  match (h.pos :: List.range 1024).find? fun p => !(store.any fun x => x.pos == p) with
  | none => s.modRegs h.ctx fun r => { r with lost := r.lost + 1 }
  | some p =>
    let s := s.modCore core fun k => { k with hist := k.hist ++ [{ h with pos := p }] }
    if p == h.pos then s
    else s.histClear { core := core, ctx := h.ctx } (128 + 128 * p) (h.cslot * 2 ^ 22 + h.block * 2 ^ 16 + h.node * 2 ^ 8 + 1)

/-- R256, R334, R369: what a save area holds goes back to a core; `ws` renames weight slots. -/
def State.restoreOn (s : State) (c : Ctx) (ws : List (Nat × Nat × Nat)) (core : Nat) : State :=
  let x := c.saved
  let engs := x.engs.filter fun e => e.1 == core
  let nums := (engs.map fun e => e.2.1.idx).zip (s.freeRecs core)
  let rename (i : Nat) : Nat := ((nums.find? fun n => n.1 == i).map fun n => n.2).getD i
  let slot (y : Nat × WKey) : Nat × WKey :=
    ((ws.find? fun w => w.1 == core && w.2.1 == y.1).map fun w => (w.2.2, y.2)).getD y
  let unit (w : Nat) : Bool := engs.any fun e => bf e.2.2.2 (w / Config.scratchWords) 1 == 1
  let asks := (x.asks.filter fun r => r.1 == core).map fun r => r.2
  let tileAsks := (x.tileAsks.filter fun r => r.1 == core).map fun r =>
    if r.2.why == 2 then { r.2 with owner := rename r.2.owner } else r.2
  let s := s.modCore core fun k =>
    { k with
      frm := { k.frm with loops := k.frm.loops ++ (x.loops.filter fun l => l.1 == core).map (fun l => l.2), fifo := k.frm.fifo ++ asks }
      tile := { k.tile with fifo := k.tile.fifo ++ tileAsks.filter (fun r => !r.shape.acc),
                            accFifo := k.tile.accFifo ++ tileAsks.filter fun r => r.shape.acc }
      tok := { k.tok with inq := k.tok.inq ++ (x.toks.filter fun t => t.1 == core && t.2.1 == 5).map fun t => t.2.2 } }
  let s := [0, 1, 2, 3, 4].foldl (fun s cls => s.modTok core fun u =>
    u.setFifo cls (u.fifo cls ++ (x.toks.filter fun t => t.1 == core && t.2.1 == cls).map fun t => t.2.2)) s
  let s := s.modEng core fun g => { g with
    recs := g.recs ++ engs.map fun e => { e.2.1.mapSlots slot with idx := rename e.2.1.idx }
    taken := g.taken ++ (engs.filter fun e => e.2.2.1 != 0 || e.2.2.2 != 0).map fun e => (rename e.2.1.idx, e.2.2)
    -- R161: the units hold what they held, a word of 0 too
    scratch := (x.scratch.filter fun w => w.1 == core).map (fun w => (w.2.1, w.2.2)) ++ g.scratch.filter fun y => !unit y.1
    scratchUe := (x.scratchUe.filter fun w => w.1 == core).map (fun w => w.2) ++ g.scratchUe.filter fun y => !unit y
    scratchCe := g.scratchCe.filter fun y => !unit y
    wStat := (x.wstat.filter fun w => w.1 == core).map (fun w => (c.id, w.2.1, w.2.2)) ++ g.wStat }
  -- R355, R375: a trap that holds a copy command names its record
  let s := s.modCtx c.id fun c =>
    let fix (t : Trap) : Trap := if t.cause == 3 && t.core == core && bf t.b.toNat 61 3 == 2 then
      { t with item := rename (t.item % 2 ^ 32) + t.item / 2 ^ 32 * 2 ^ 32
               a := scalarTok {} (BitVec.ofNat 64 (rename (t.item % 2 ^ 32))) } else t
    { c with traps := c.traps.map fix, handler := c.handler.map fix }
  let reqs := x.reqs.filter fun r => r.site.core == core
  let back := ((reqs.filter fun r => !r.noEntry).zip (s.freeEntries core)).map fun r => { r.1 with idx := r.2 }
  let s := s.modMs fun m => { m with reqs := m.reqs ++ back ++ reqs.filter fun r => r.noEntry }
  (x.hist.filter fun h => h.1 == core).foldl (fun s h => s.restoreHist core h.2) s

/-- R179, R334: the commands of a restored context hold its slots in place of the restore. -/
def State.handSlots (s : State) (x : Saved) : State :=
  x.placed.foldl (fun s p =>
    let n := ((x.engs.filter fun e => e.1 == p.1).map fun e => e.2.1.holdsOf p.2.1).sum
    s.modEng p.1 fun g => g.modSlots fun i w => if i == p.2.2 then { w with holds := w.holds + n - 1 } else w) s

/-- R352, R388: releases a trap that the halt held, as RESUME. -/
def State.releaseTrap (s : State) (t : Trap) : State :=
  let s := s.modCtx t.site.ctx fun c => { c with traps := c.traps.erase t }
  if t.cause == 1 then s.trapReturn t t.a [t.a] else s.settleTrap t actResume

/-- R352: releases what a halt that has ended held of a context. -/
def State.releaseHeld (s : State) (id : Nat) : State :=
  match s.ctx? id with
  | none => s
  | some c => (c.traps.filter fun t => t.halted && !t.deferred).foldl (fun s t => s.releaseTrap t) s

/-- R364, R369: a restored context goes on, with what a halt that ended meanwhile held released (R352), or stays frozen while its job is halted; the tokens that come back are new to the
sweeps (R330). DEDUCED (log 106). -/
def State.finishRestore (s : State) (c : Ctx) : State :=
  let s := c.seats.foldl (fun s k => s.restoreOn c c.saved.placed k.1) (s.handSlots c.saved)
  let s := s.modMs fun m => { m with log := m.log ++ c.saved.log }
  let s := s.modRegion c.home fun g => { g with closes := g.closes.map fun w => { w with quiet := 0 } }
  let halted := ((s.job? c.jobKey).map fun j => j.state != .running).getD false
  if halted then s.modCtx c.id fun c => { c with mode := .frozen, settled := true, saved := {}, froze := s.wall }
  else (s.resumeCtx c.id).releaseHeld c.id

/-- CONTEXT_RESTORE, R334, R364, R369: once every request has been granted, the request that resumes a context ends. DEDUCED (log 106). DEDUCED (log 107). -/
def execContextRestore (ctx : Nat) (s : State) : Host.Outcome State Fault Refusal :=
  match s.ctx? ctx, s.asked ctx actRestore with
  | some c, some p =>
    if c.mode != .restoring then .next s
    else if !s.areaOk c then .next ((s.abandon ctx).endPacket p stDataUe)
    else if !s.granted c || !s.fitsBack c then .next s
    else .next ((s.finishRestore c).endPacket p 0)
  | _, _ => .next s

end Sys2Proof.Machine
end

