-- ==== Sys2Proof/Machine/Select.lean ====
section
/-! DEFINITION. Which token a core selects next (R325, R386). -/

namespace Sys2Proof.Machine

/-- R97: opcodes of the integer and of the float divide unit. -/
def intDivide (opc : Nat) : Bool := opc == 0x44 || opc == 0x45
def floatDivide (opc : Nat) : Bool := [0x84, 0x85, 0x86, 0x87].contains opc

/-- R31: an operand of the match that a token completes: the token itself, or one parked. -/
def State.matchOperand (s : State) (core : Nat) (q : QTok) (w : Fields) (port : Nat) : Tok :=
  if q.port == port then q.tok
  else match s.frame? core q.frame with
    | some f => (([f.slot w.slot, f.slot (w.slot + 1)].find? fun x => x.vport == port).map fun x => x.tok).getD {}
    | none => {}

/-- R327: the contexts on its core to which a destination of a token's firing sends: its own, or those that the routes of an
out-port reach. -/
def State.destCtxs (s : State) (core : Nat) (q : QTok) (d : Dest) : List Nat :=
  let ctx := s.ctxOfTok core q
  match d with
  | .none => []
  | .node _ _ => [ctx]
  | .out p => (s.routesOf { core := core, cslot := q.cslot } p.toNat).filterMap fun w =>
      if s.isHere (bf w.toNat 28 12) && bf w.toNat 20 8 == core then
        s.arrivalCtx { core := core, epkg := s.plat.pkg, ectx := ctx, dst := .inport (bf w.toNat 14 6) (bf w.toNat 6 8) true }
      else none

/-- R327: the contexts on its core to which a token's firing would emit at once: by its destinations and its table, by CNTN or
SENDF into a frame, by SEND at an in-port. -/
def State.emitsTo (s : State) (core : Nat) (q : QTok) (w : Fields) : List Nat :=
  let fires := decide (w.ar ≤ 1) || match s.frame? core q.frame with
    | some f => completes w.ar (f.slot w.slot).pres q.port
    | none => false
  if !fires then [] else
    let k := s.core core
    let own := [w.d0, w.d1, w.d2].filterMap destOfCode
    let table := if w.opc == 0x05 then
        (List.range (descExits (k.descOf q.cslot (bf w.aux 0 6)))).map fun j => k.tableEntry q.cslot (bf w.aux 0 6) j else []
    let r := if w.immr == 1 then immTok (tyOfCode w.ty) (BitVec.ofNat 32 w.imm) else s.matchOperand core q w 1
    let v := r.val.toNat
    let here := s.isHere (bf v 52 12) && bf v 44 8 == core
    let far := if !here then []
      else if w.opc == 0x07 || w.opc == 0x09 then
        (if r.kind == kCont then ((s.frame? core (bf v 32 12)).map fun (f : Frame) => f.ctx).toList else [])
      else if w.opc == 0x11 then
        (s.arrivalCtx { core := core, epkg := s.plat.pkg, ectx := s.ctxOfTok core q, dst := .inport (bf v 0 6) (bf w.aux 0 8) false }).toList
      else []
    (own ++ table).flatMap (s.destCtxs core q) ++ far

/-- R31, R112, R325: what a selected token needs of the frame store: a match parks or fires from it, FSET and FGET reach
a variable slot. DESIGN CHOICE (log 140). -/
def usesFrameStore (w : Fields) : Bool := decide (2 ≤ w.ar) || w.opc == 0x00D || w.opc == 0x00E

/-- R325, R327, R386: a token that selection passes over. -/
def State.passedOver (s : State) (core : Nat) (q : QTok) : Bool :=
  let w := s.targetWord core q
  let ctx := s.ctxOfTok core q
  let frozen := match s.ctx? ctx with
    | some c => c.mode != .running
    | none => true
  q.held || (frozen && !q.step) ||
    (needsEntry w.opc && (s.freeEntry core).isNone) ||
    (needsRecord w.opc && (s.freeRec core).isNone && !((w.opc == 0xCB || w.opc == 0x103) && (s.openStream core q.frame q.instr).isSome)) ||
    (intDivide w.opc && decide (s.clk core < (s.core core).tok.idiv)) ||
    (floatDivide w.opc && decide (s.clk core < (s.core core).tok.fdiv)) ||
    (s.emitsTo core q w).any (s.ringFull core)

/-- R440: FIRE_N selections have been made in the present 16 clk; before the first division nothing is throttled. DESIGN CHOICE (log 183). -/
def State.throttled (s : State) (core : Nat) : Bool :=
  let d := s.plat.dies.getD (dieOf core) {}
  let x := (s.core core).tok.fired
  d.mhz != 0 && x.1 == s.clk core / 16 && decide (d.fireN ≤ x.2)

/-- R440: a selection is counted. DESIGN CHOICE (log 183). -/
def State.countFired (s : State) (core : Nat) : State :=
  if (s.plat.dies.getD (dieOf core) {}).mhz == 0 then s
  else s.modTok core fun u =>
    { u with fired := (s.clk core / 16, if u.fired.1 == s.clk core / 16 then u.fired.2 + 1 else 1) }

/-- R325: the queue (4 first, then 0 to 3) and the token that is selected next on a core, with the frames whose
frame-store port is busy; a STEP has selected its token already (R386). DESIGN CHOICE (log 140). -/
def State.pick (s : State) (core : Nat) (busy : List Nat) : Option (Nat × QTok) :=
  if s.throttled core then none else
  let u := (s.core core).tok
  let skipped (q : QTok) : Bool := s.passedOver core q || (busy.contains q.frame && usesFrameStore (s.targetWord core q))
  let best (of : List QTok → Option QTok) : Option (Nat × QTok) :=
    ([4, 0, 1, 2, 3].filterMap fun c => (of (u.fifo c)).map fun q => (c, q)).head?
  match best fun l => l.find? fun q => q.step && !skipped q with
  | some x => some x
  | none => best fun l => (l.take 8).find? fun q => !skipped q

end Sys2Proof.Machine
end

