-- ==== Sys2Proof/Machine/System.lean ====
section
/-! DEFINITION. The system and special-register instructions (R234 to R241) and the traps' own events (R350 to R358). -/

namespace Sys2Proof.Machine

/-! ## TRAP and TRET (R235, R356) -/

/-- TRAP, R235: takes the software trap; L's reference travels with it. DEDUCED (log 33). -/
def execTrap (p : Par) (code : BitVec 16) (s : State) : Host.Outcome State Fault Refusal :=
  s.firing p latGraph [s.cur.l] fun s =>
    let site := s.cur.site
    (s.finish p latGraph [] []).trap
      { cause := 1, core := site.core, site := site, code := code.toNat, a := s.cur.l, d0 := p.d0, d1 := p.d1, d2 := p.d2 } false

/-- A context's copy commands go on where a watch hit had stopped them. -/
def State.pumpCtx (s : State) (id : Nat) : State :=
  match s.ctx? id with
  | none => s
  | some c => c.seats.foldl (fun s k => s.copyPump k.1) s

/-- TRET, R235: ends the handler activation that fires it; outside one it is quarantined. DEDUCED (log 33). -/
def execTret (p : Par) (s : State) : Host.Outcome State Fault Refusal :=
  let site := s.cur.site
  let s := s.finish p latGraph [] []
  if site.hnd then .next ((s.leaveHandler site.ctx site.frame s.cur.l).pumpCtx site.ctx)
  else .next (((s.countRoute site.core).record site.ctx stPerm).release site.core s.cur.l)

/-- HANDLER_ENTRY, R353: the oldest trap of a context that no halt holds enters its handler. -/
def execHandlerEntry (ctx : Nat) (s : State) : Host.Outcome State Fault Refusal :=
  .next ((s.enterHandler ctx).pumpCtx ctx)

/-! ## TIMER and ORPHAN (R350, R351, R358) -/

/-- R350, R351: raises TIMER on a core, where it stands until it enters for the context that then holds the lowest seat. -/
def State.raiseTimer (s : State) (core : Nat) : State :=
  let s := s.modCoreRegs core fun g => { g with timerArmed := false, timers := g.timers ++ [(s.trapSeq, s.gtc)] }
  let s := { s with trapSeq := s.trapSeq + 1 }
  match (s.lowestSeat core).bind s.ctx? with
  | none => s
  | some c => s.modJob c.jobKey Job.countMore

/-- TIMER, R350. DEDUCED (log 40). -/
def execTimer (core : Nat) (s : State) : Host.Outcome State Fault Refusal :=
  let g := (s.core core).regs
  if g.timerArmed && decide (g.timerCmp.toNat ≤ s.gtc) then .next (s.raiseTimer core) else .next s

/-- R355: the frames of a context with parked operands, ascending. -/
def State.parkedFrames (s : State) (core ctx : Nat) : List Nat :=
  let fs := ((s.core core).frm.frames.filter fun f => f.ctx == ctx && !f.hnd && f.slots.any fun x => x.pres != 0).map fun f => f.num
  (List.range 4096).filter fun n => fs.contains n

/-- R355: ORPHAN's details. -/
def orphanDetails (fs : List Nat) : Word × Word :=
  let l := fs.take 8
  let field (xs : List Nat) : Nat := ((enumL xs).map fun x => x.2 * 2 ^ (12 * x.1)).sum
  (BitVec.ofNat 64 (l.length * 2 ^ 60 + field (l.take 5)), BitVec.ofNat 64 (min fs.length 65535 * 2 ^ 48 + field (l.drop 5)))

/-- ORPHAN, R358: the watchdog of a context on a core has reached its limit. -/
def execOrphan (core : Nat) (ctx : Nat) (s : State) : Host.Outcome State Fault Refusal :=
  match s.ctx? ctx with
  | none => .next s
  | some c =>
    match c.wdogs.find? fun w => w.1 == core with
    | none => .next s
    | some w =>
      if c.mode == .running && !w.2.2 && decide (c.regs.wdog ≤ w.2.1) then
        let d := orphanDetails (s.parkedFrames core ctx)
        let s := s.modCtx ctx fun c => { c with wdogs := c.wdogs.map fun w => if w.1 == core then (w.1, w.2.1, true) else w }
        .next (s.trap { cause := 4, core := core, site := { core := core, ctx := ctx }, a := scalarTok {} d.1, b := d.2 } false)
      else .next s

/-! ## Control registers (R236 to R238) -/

/-- R237: TQ_DEPTH. -/
def TokUnit.depth (u : TokUnit) (n : Nat) : Nat := (u.fifo n).length

/-- R237: a watch register of a context. -/
def watchReg (w : Watch) (i : Nat) : Word :=
  match i % 4 with
  | 0 => w.base
  | 1 => w.mask
  | _ => w.ctl

/-- R237: the value of a register, read at a firing. -/
def State.readReg (s : State) (site : Site) (i : Nat) : Word :=
  let k := s.core site.core
  let c := (s.ctx? site.ctx).getD {}
  let n (v : Nat) : Word := BitVec.ofNat 64 v
  if regIsWatch i then watchReg (c.regs.watch.getD ((i - 0x040) / 4) {}) i
  else match i with
    | 0x000 => n (s.plat.pkg * 2 ^ 52 + site.core)
    | 0x001 => n (c.tenant * 2 ^ 32 + c.job * 2 ^ 16 + c.id)
    | 0x002 => n (c.regs.base * 2 ^ 8 + c.regs.eff)
    | 0x003 => n c.regs.fpflags
    | 0x004 => n s.gtc
    | 0x005 => statusWord c.regs
    | 0x010 => n (k.frm.free.filter fun f => !(k.frm.reserved.any fun r => r.2 == f)).length
    | 0x011 => n ((Config.tileIndices - k.tile.tiles.length - k.tile.reserved.length) * 2 ^ 32 + (Config.granules - k.tile.usedGranules))
    | 0x012 => n (k.tok.depth 0)
    | 0x013 => n (k.tok.depth 1)
    | 0x014 => n (k.tok.depth 2)
    | 0x015 => n (k.tok.depth 3)
    | 0x016 => n (s.ms.reqs.filter fun r => r.site.core == site.core && r.site.ctx == site.ctx && !r.noEntry).length
    | 0x017 => n k.eng.panUsed
    | 0x020 => k.regs.timerCmp
    | 0x021 => n c.regs.wdog
    | 0x022 => n c.regs.tmo
    | 0x030 => c.regs.hist
    | 0x031 => c.regs.trace
    | 0x060 => n (k.regs.rasCount * 2 ^ 8 + k.regs.rasTarget)
    | 0x070 => n k.regs.panHold
    | _ => 0

/-- GETC, R236. -/
def execGetc (p : Par) (idx : BitVec 12) (s : State) : Host.Outcome State Fault Refusal :=
  s.firing p latGraph [s.cur.l] fun s =>
    s.finish p latGraph (spread p (scalarTok s.cur.site (s.readReg s.cur.site idx.toNat))) [s.cur.l]

/-- A SETC firing: its value is checked, written, and a scalar 0 goes out. -/
def State.setReg (s : State) (p : Par) (f : Word → State → Except Nat State) : Host.Outcome State Fault Refusal :=
  s.memFiring p [s.cur.l] [s.cur.l] fun s =>
    match f s.cur.l.val s with
    | .error st => s.failing p latGraph st [s.cur.l]
    | .ok t => t.finish p latGraph (spread p (scalarTok s.cur.site 0)) [s.cur.l]

/-- R237: a write of a register that has no row of its own in the table. -/
def State.writeReg (s : State) (site : Site) (i : Nat) (v : Word) : State :=
  match i with
  | 0x002 => s.setPrio site.ctx fun r => { r with base := bf v.toNat 8 2 }
  | 0x021 => s.modRegs site.ctx fun r => { r with wdog := min (max v.toNat (2 ^ 10)) (2 ^ 40) }
  | 0x022 => s.modRegs site.ctx fun r => { r with tmo := min (max v.toNat 1000) 1000000 }
  | 0x030 => s.modRegs site.ctx fun r => { r with hist := v }
  | 0x031 =>
    -- R398: what follows goes to another buffer
    let s := s.modRegs site.ctx fun r => { r with trace := v }
    let s : State := { s with cores := s.cores.map fun k => { k with traced := k.traced.filter fun t => t.1 != site.ctx } }
    s
  | 0x070 => s.modCoreRegs site.core fun g => { g with panHold := v.toNat }
  | _ => s

/-- SETC of CTX_PRIO, WDOG_LIMIT, REMOTE_TMO, HIST_SPILL_BASE, TRACE_BUF or PAN_HOLD, R237. -/
def execSetc (p : Par) (idx : BitVec 12) (s : State) : Host.Outcome State Fault Refusal :=
  s.setReg p fun v s => .ok (s.writeReg s.cur.site idx.toNat v)

/-- SETC of FPFLAGS, R77. -/
def execSetcFpflags (p : Par) (s : State) : Host.Outcome State Fault Refusal :=
  s.setReg p fun v s => .ok (s.modRegs s.cur.site.ctx fun r => { r with fpflags := v.toNat % 32 })

/-- R237: a WATCHn_BASE value that keeps its row. -/
def watchBaseOk (v : Word) : Bool := spaceFields v && decide (spaceOf v < 3) && v.toNat % 16 == 0

/-- SETC of a watchpoint register (R237, R391). -/
def State.writeWatch (s : State) (site : Site) (i : Nat) (v : Word) : Except Nat State :=
  let job := match s.ctx? site.ctx with
    | some c => c.jobKey
    | none => 0
  let put (f : Watch → Watch) : State :=
    let upd (w : Watch) : Watch := f (if w.base == 0 then { w with core := site.core } else w)
    s.modRegs site.ctx fun r => { r with watch := r.watch.modify ((i - 0x040) / 4) upd }
  match i % 4 with
  | 0 => if watchBaseOk v then .ok (put fun w => { w with base := v, core := site.core }) else .error stBadSpace
  | 1 => .ok (put fun w => { w with mask := v &&& 0xFFFF })
  | _ => if v.toNat % 2 == 1 && !s.right job 0 then .error stPerm else .ok (put fun w => { w with ctl := v &&& 0xFF })

/-- R374: the other packages on which a unit of a context is checked at HOME. -/
def State.watchPkgs (s : State) (ctx n : Nat) : List Nat :=
  match s.ctx? ctx with
  | none => []
  | some c =>
    let w := c.regs.watch.getD n {}
    if w.checks atHome then
      ((s.watchPlaces c w).filterMap fun a => a.bind fun a => if paPkg a == s.plat.pkg then none else some (paPkg a)).eraseDups
    else []

/-- R374: a new setting goes to the packages that check it and to those that did before; the done token waits for the former. -/
def State.tellWatch (s : State) (p : Par) (n : Nat) (old new : List Nat) : State :=
  let site := s.cur.site
  let no := s.ms.reqSeq
  let unit := ((s.ctx? site.ctx).map fun c => (c.regs.watch.getD n {}, s.watchPlaces c (c.regs.watch.getD n {}))).getD ({}, [])
  let w : FarWatch := { pkg := s.plat.pkg, ctx := site.ctx, at' := { n := n, unit := unit.1, places := unit.2 } }
  let s := (old ++ new).eraseDups.foldl (fun s k => s.send (.watchSet k w no)) (s.modMs fun m => { m with reqSeq := no + 1 })
  if new.isEmpty then s else s.modCtx site.ctx fun c =>
    { c with watchWaits := c.watchWaits ++ [{ site := site, d0 := p.d0, d1 := p.d1, d2 := p.d2, count := no, on := new }] }

/-- SETC of a watchpoint register, R237, R374. -/
def execSetcWatch (p : Par) (idx : BitVec 12) (s : State) : Host.Outcome State Fault Refusal :=
  s.memFiring p [s.cur.l] [s.cur.l] fun s =>
    let n := (idx.toNat - 0x040) / 4
    match s.writeWatch s.cur.site idx.toNat s.cur.l.val with
    | .error st => s.failing p latGraph st [s.cur.l]
    | .ok t =>
      let old := s.watchPkgs s.cur.site.ctx n
      let new := t.watchPkgs s.cur.site.ctx n
      let t := if old.isEmpty && new.isEmpty then t else t.tellWatch p n old new
      t.finish p latGraph (if new.isEmpty then spread p (scalarTok s.cur.site 0) else []) [s.cur.l]

/-- SETC of TIMER_CMP, R237, R356. DEDUCED (log 40). -/
def execSetcTimerCmp (p : Par) (s : State) : Host.Outcome State Fault Refusal :=
  s.setReg p fun v s =>
    let core := s.cur.site.core
    let s := s.modCoreRegs core fun g => { g with timerCmp := v, timerArmed := true }
    .ok (if v.toNat ≤ s.gtc then s.raiseTimer core else s)

/-- SETC of RAS_INJECT, R238: a write of a reserved TARGET is ignored. -/
def execSetcRasInject (p : Par) (s : State) : Host.Outcome State Fault Refusal :=
  s.setReg p fun v s => .ok (
    if bf v.toNat 0 4 < 5 then
      s.modCoreRegs s.cur.site.core fun g => { g with rasCount := bf v.toNat 8 8, rasTarget := bf v.toNat 0 4 }
    else s)

/-! ## TIME, TRACE, PERF (R239) -/

/-- TIME, R239. -/
def execTime (p : Par) (s : State) : Host.Outcome State Fault Refusal :=
  s.firing p latGraph [s.cur.l] fun s =>
    s.finish p latGraph (spread p (scalarTok s.cur.site (BitVec.ofNat 64 s.gtc))) [s.cur.l]

/-- TRACE of one operand, R239. -/
def execTrace (p : Par) (tag : BitVec 16) (s : State) : Host.Outcome State Fault Refusal :=
  s.memFiring p [s.cur.l] [s.cur.l] fun s =>
    (s.traceRec s.cur.site 4 (tag.zeroExtend 64) s.cur.l.val 0).finish p latGraph (spread p (scalarTok s.cur.site 0)) [s.cur.l]

/-- TRACE of two operands, R239. -/
def execTrace2 (p : Par) (tag : BitVec 16) (s : State) : Host.Outcome State Fault Refusal :=
  s.memFiring p [s.cur.l, s.cur.r] [s.cur.l, s.cur.r] fun s =>
    (s.traceRec s.cur.site 4 (tag.zeroExtend 64) s.cur.l.val s.cur.r.val).finish p latGraph (spread p (scalarTok s.cur.site 0))
      [s.cur.l, s.cur.r]

/-- R239: counters of the context. -/
def ctxCounter (i : Nat) : Bool := decide (i < 5) || i == 0x0E

/-- R239: a counter. -/
def State.counter (s : State) (site : Site) (i : Nat) : Nat :=
  if ctxCounter i then
    match s.ctx? site.ctx with
    | some c => Table.get c.regs.perf i
    | none => 0
  else Table.get (s.core site.core).regs.perf i

/-- PERF, R239. -/
def execPerf (p : Par) (ctr : BitVec 8) (s : State) : Host.Outcome State Fault Refusal :=
  s.firing p latGraph [s.cur.l] fun s =>
    s.finish p latGraph (spread p (scalarTok s.cur.site (BitVec.ofNat 64 (s.counter s.cur.site ctr.toNat)))) [s.cur.l]

/-! ## IFRD (R240, R366, R367) -/

/-- R366: word 0 of an entry or record. -/
def entryWord0 (tag opc cls : Nat) (site : Site) : Nat :=
  tag * 2 ^ 40 + opc * 2 ^ 31 + cls * 2 ^ 29 + site.cslot * 2 ^ 27 + site.block * 2 ^ 21 + site.node * 2 ^ 14 + site.frame * 2 ^ 2

/-- R366: the words of an IFR entry. DEDUCED (log 80). DEDUCED (log 81). -/
def State.ifrWord (s : State) (r : Req) (w : Nat) : Word :=
  match w with
  | 0 => BitVec.ofNat 64 (entryWord0 r.tag r.opc r.cls r.site)
  | 1 => BitVec.ofNat 64 (r.st * 2 ^ 61 + (if r.rpl then 2 ^ 60 else 0) + r.paddr % 2 ^ 56)
  | 2 => if r.st == 3 then r.value else if r.st == 4 then poisonVal s r.site r.status else r.opa
  | _ => r.opb

/-- R367: words 0 to 7 of an engine-command record, where the spec gives them. DEDUCED (log 80). DESIGN CHOICE (log 172). -/
def State.recWord (s : State) (e : Eng) (w : Nat) : Option Word :=
  match w with
  | 0 => some (BitVec.ofNat 64 (entryWord0 e.tag e.opc 3 e.site))
  | 1 => some (BitVec.ofNat 64 (e.st * 2 ^ 61 + e.fail * 2 ^ 48 + e.tagBase))
  | 2 => some e.l.val
  | 3 => some e.r.val
  | 4 => some e.c.val
  | 5 => some (match e.cword.map fun (p : Piece) => p.place with
    | some (Loc.mem pa _ _) => BitVec.ofNat 64 pa
    | _ => 0)
  | 6 => match e.kind with
    | .copy =>
      let p := s.patternOf e
      let c1 := p.counts.getD 0 0
      let c2 := p.counts.getD 1 0
      some (BitVec.ofNat 64 (e.pos % c1 + e.pos / c1 % c2 * 2 ^ 16 + e.pos / (c1 * c2) * 2 ^ 32))
    | .mma _ _ _ _ _ | .mmas _ _ _ | .adrain _ _ _ _ _ _ | .aclr => some (BitVec.ofNat 64 e.row)
    | .wld _ _ _ | .cload _ => some 0
    | .vrun _ _ _ | .vruns _ _ =>
      let p := e.stream.run.chains.headD {}
      some (BitVec.ofNat 64 (Config.runPosition p.row p.j))
    | _ => none
  | 7 => match e.kind with
    | .copy => some (BitVec.ofNat 64 ((e.moves.map fun m => 2 ^ ((m.tag + 2 ^ 24 - e.tagBase) % 2 ^ 24)).sum))
    | _ => none
  | _ => none

/-- R240: the word that a selector names, or its status; `none`: a word whose content the spec leaves to the engine. -/
def State.selected (s : State) (core : Nat) (v : Word) : Except Nat (Option Word) :=
  let n := v.toNat
  let eng := bf n 19 1 == 1
  let word := bf n 10 5
  let entry := bf n 0 10
  if n / 2 ^ 20 != 0 then .error stBadSpace
  else if (eng && (decide (15 < word) || decide (63 < entry))) || (!eng && decide (3 < word)) then .error stExtentBound
  else match s.ctxs.find? fun c => c.mode != .saved && c.seats.contains (core, bf n 15 4) with
    | none => .ok (some 0)
    | some c =>
      if eng then
        match (s.core core).eng.recs.find? fun e => e.idx == entry && e.site.ctx == c.id with
        | some e => .ok (s.recWord e word)
        | none => .ok (some 0)
      else match s.ms.reqs.find? fun r => r.site.core == core && r.site.ctx == c.id && !r.noEntry && r.idx == entry with
        | some r => .ok (some (s.ifrWord r word))
        | none => .ok (some 0)

/-- IFRD, R240. -/
def execIfrd (p : Par) (s : State) : Host.Outcome State Fault Refusal :=
  s.memFiring p [s.cur.l] [s.cur.l] fun s =>
    match s.selected s.cur.site.core s.cur.l.val with
    | .error st => s.failing p latGraph st [s.cur.l]
    | .ok (some w) => s.finish p latGraph (spread p (scalarTok s.cur.site w)) [s.cur.l]
    | .ok none =>
      let d := s.draw
      d.2.finish p latGraph (spread p (scalarTok s.cur.site (BitVec.ofNat 64 d.1))) [s.cur.l]

/-! ## SBIND and XTSET (R241) -/

/-- R241: binds, or with length 0 unbinds, a region to an object. DEDUCED (log 82). -/
def State.bindRegion (s : State) (site : Site) (obj base : Word) (len : Nat) : Except Nat State :=
  match s.resolve site { spaces := atomSpaces, read := false } obj 8 with
  | .error st => .error st
  | .ok t =>
    let o := s.absPa (firstPa t.parts)
    if len == 0 then .ok (s.modCtx site.ctx fun c => { c with binds := c.binds.filter fun b => b.1 != o })
    else match s.resolve site { spaces := atomSpaces, read := false } base (len * 65536) with
      | .error st => .error st
      | .ok r =>
        let n := match s.ctx? site.ctx with
          | some c => c.binds.length
          | none => 16
        if 16 ≤ n then .error stExtentBound
        else
          let ranges := r.parts.filterMap fun p => match p.1 with
            | .mem pa _ _ => some (s.absPa pa, s.absPa pa + p.2.1 - 1)
            | _ => none
          .ok (s.modCtx site.ctx fun c => { c with binds := c.binds ++ [(o, ranges)] })

/-- SBIND, R241. DEDUCED (log 82). -/
def execSbind (p : Par) (len : BitVec 16) (s : State) : Host.Outcome State Fault Refusal :=
  s.memFiring p [s.cur.l, s.cur.r] [s.cur.l, s.cur.r] fun s =>
    s.orFail p [s.cur.l, s.cur.r] (s.bindRegion s.cur.site s.cur.l.val s.cur.r.val len.toNat) fun t =>
      t.finish p latGraph (spread p (scalarTok s.cur.site 0)) [s.cur.l, s.cur.r]

/-- XTSET, R241, R292: the record names no ENC bit; whether the new extent is encrypted is drawn. -/
def execXtset (p : Par) (s : State) : Host.Outcome State Fault Refusal :=
  s.memFiring p [s.cur.l, s.cur.r] [s.cur.l, s.cur.r] fun s =>
    let ops := [s.cur.l, s.cur.r]
    let site := s.cur.site
    let i := s.cur.l.val.toNat
    if 16 ≤ i then s.failing p latGraph stBadSpace ops
    else if 12 ≤ i then s.failing p latGraph stPerm ops
    else s.orFail p ops (s.resolve site { spaces := [1, 2] } s.cur.r.val 576) fun t =>
      let r := s.readParts site.core t.parts
      if r.1 != 0 then r.2.2.failing p latGraph r.1 ops
      else match s.readExtent r.2.1 with
        | none => r.2.2.failing p latGraph stFormat ops
        | some x =>
          let d := r.2.2.draw
          (d.2.modCtx site.ctx fun c =>
            let full := c.extents ++ List.replicate (16 - c.extents.length) {}
            { c with extents := full.set i { x with enc := d.1 % 2 == 1 } }).finish p latGraph
              (spread p (scalarTok site 0)) ops

end Sys2Proof.Machine
end

