-- ==== Sys2Proof/Machine/Trust.lean ====
section
/-! DEFINITION. Tenants and what they own (R420 to R424), failed cores (R413), package tables (R415, R426, R438), TDISP
(R421) and the SPDM responder (R417 to R419). -/

namespace Sys2Proof.Machine

/-! ## Cores and banks (R280, R413, R423, R424) -/

/-- R423: nothing remains on a core. DEDUCED (log 131). -/
def State.idleCore (s : State) (core : Nat) : Bool :=
  let k := s.core core
  !(s.ctxs.any fun c => c.mode != .saved && c.seats.any fun x => x.1 == core) && !(s.regions.any fun g => g.cores.contains core) &&
    k.frm.frames.isEmpty && k.tile.tiles.isEmpty && k.eng.recs.isEmpty && k.tok.handlerQ.isEmpty && k.tok.fifo0.isEmpty &&
    k.tok.fifo1.isEmpty && k.tok.fifo2.isEmpty && k.tok.fifo3.isEmpty && k.tok.inq.isEmpty &&
    !(s.flight.any fun q => q.core == core) && !(s.ms.reqs.any fun r => r.site.core == core && !r.noEntry)

/-- R424: a core as its new owner finds it; what saved contexts hold reserved stays so. DEDUCED (log 131). -/
def Core.scrub (k : Core) (tenant : Option Nat) : Core :=
  { tenant := tenant, failed := k.failed
    frm := { reserved := k.frm.reserved }, tile := { gens := k.tile.gens, reserved := k.tile.reserved } }

/-- R424: a bank written with zeros. -/
def State.zeroRange (s : State) (a n : Nat) : State :=
  let out (x : Nat) : Bool := !(decide (a ≤ x) && decide (x < a + n))
  (s.dropStaged a n).modMs fun m =>
    { m with mem := m.mem.filter fun c => out c.1, keys := m.keys.filter fun e => out (e.1 * 32), errs := m.errs.filter fun e => out (e.1 * 32) }

/-- CORE_ASSIGNMENT, R280, R423, R424: an idle core, or a bank, is cleared and goes to a tenant (16: to none). -/
def execCoreAssignment (bank : Bool) (n : Nat) (tenant : Nat) (s : State) : Host.Outcome State Fault Refusal :=
  let owner := if tenant < 16 then some tenant else none
  if tenant < 16 && (s.tenant? tenant).isNone then .next s
  else if bank then
    let s := s.zeroRange (shmBase + n * 0x100000) 0x100000
    .next (s.modPlat fun p => { p with banks := (owner.map fun t => (n, t)).toList ++ p.banks.filter fun b => b.1 != n })
  else if Config.cores ≤ n || (s.core n).failed || !s.idleCore n then .next s
  else .next (s.modCore n fun k => k.scrub owner)

/-- CORE_MARK_FAILED, R413: the core goes to no tenant and the contexts seated on it are abandoned. DEDUCED (log 127). -/
def execCoreMarkFailed (core : Nat) (s : State) : Host.Outcome State Fault Refusal :=
  let seated := (s.ctxs.filter fun c => c.mode != .saved && c.seats.any fun k => k.1 == core).map fun c => c.id
  .next ((seated.foldl (fun s i => s.abandon i) s).modCore core fun k => { k with failed := true, tenant := none })

/-! ## Tenants (R420, R424) -/

/-- TENANT_CREATE, R420: two new memory keys. -/
def execTenantCreate (tenant : Nat) (root : Nat) (s : State) : Host.Outcome State Fault Refusal :=
  if (s.tenant? tenant).isSome || s.plat.boot != .ready then .next s
  else .next (s.modPlat fun p =>
    { p with keySeq := p.keySeq + 2
             tenants := p.tenants ++ [{ id := tenant, root := root, keyH := p.keySeq + 1, keyT := p.keySeq + 2 }] })

/-- R424: the frames that valid leaves of a table map with ENC clear, malformed ones of a known size too: address, bytes. A REMOTE leaf maps none
here: the walk of that package's own copy of the tables clears it (R288). DEDUCED (log 132). -/
def State.clearFrames (s : State) : Nat → Nat → List (Nat × Nat)
  | 0, _ => []
  | k + 1, table => (List.range 512).flatMap fun i =>
    let w := s.tableWord table i
    if bf w 63 1 == 0 then []
    else if leafSize w == 15 then (if nextOk k w then s.clearFrames k (nextTable w) else [])
    else if leafEnc w || leafHost w || leafRemote w || decide (3 < leafSize w) then []
    else [(leafAddr w, leafBytes (leafSize w))]

/-- TENANT_DESTROY, R420, R424. DEDUCED (log 132). -/
def execTenantDestroy (tenant : Nat) (s : State) : Host.Outcome State Fault Refusal :=
  match s.tenant? tenant with
  | none => .next s
  | some t =>
    let s := (s.clearFrames 4 t.root).foldl (fun s f => s.zeroRange f.1 f.2) s
    .next (s.modPlat fun p => { p with tenants := p.tenants.filter fun x => x.id != tenant })

/-! ## Tables of the package (R415, R426, R438) -/

/-- LOGICAL_TABLE_WRITE, R415: the write takes effect and is acknowledged. -/
def execLogicalTableWrite (logical : Nat) (physical : Option Nat) (s : State) : Host.Outcome State Fault Refusal :=
  .next (s.modPlat fun p =>
    { p with l2p := (physical.map fun x => (logical, x)).toList ++ p.l2p.filter fun e => e.1 != logical
             l2pPending := p.l2pPending - 1 })

/-- JOB_MEMBERSHIP_LIST, R426: a list whose signature verifies replaces the job's. -/
def execJobMembershipList (tenant : Nat) (job : Nat) (members : List Nat) (signed : Bool) (s : State) : Host.Outcome State Fault Refusal :=
  if signed then
    .next (s.modPlat fun p =>
      { p with members := { tenant := tenant, job := job, packages := members } ::
                 p.members.filter fun m => !(m.tenant == tenant && m.job == job) })
  else .next s

/-- CONNECTION_TABLE_WRITE, R438. -/
def execConnectionTableWrite (tenant : Nat) (qpi : Nat) (peer : Nat) (s : State) : Host.Outcome State Fault Refusal :=
  if 4096 ≤ qpi then .next s
  else
    let put (t : Tenant) : Tenant := { t with conns := (qpi, peer) :: t.conns.filter fun c => c.1 != qpi }
    .next (s.modPlat fun p => { p with tenants := p.tenants.map fun t => if t.id == tenant then put t else t })

/-! ## TDISP (R421) -/

/-- The moves among the states: lock, start, stop, and an error. DEDUCED (log 133). -/
def tdispStep (a : Tdisp) (b : Nat) : Option Tdisp :=
  match a, b with
  | _, 0 => some .unlocked
  | .unlocked, 1 => some .locked
  | .locked, 2 => some .run
  | .locked, 3 => some .error
  | .run, 3 => some .error
  | _, _ => none

/-- TDISP_STATE_CHANGE, R421. DEDUCED (log 133). -/
def execTdispStateChange (vf : Nat) (state : Nat) (s : State) : Host.Outcome State Fault Refusal :=
  if vf == 0 then .next s
  else .next (s.modPlat fun p =>
    { p with vfs := p.vfs.modify vf fun v => match tdispStep v.tdisp state with
        | some t => { v with tdisp := t }
        | none => v })

/-! ## SPDM (R417 to R419) -/

/-- Codes of DMTF SPDM. PRESUMED (log 128). -/
def rspVersion : Nat := 0x04
def rspCapabilities : Nat := 0x61
def rspAlgorithms : Nat := 0x63
def rspDigests : Nat := 0x01
def rspCertificate : Nat := 0x02
def rspChallengeAuth : Nat := 0x03
def rspMeasurements : Nat := 0x60
def rspKeyExchange : Nat := 0x64
def rspFinish : Nat := 0x65
def rspEndSession : Nat := 0x6C
/-- PRESUMED (log 128). -/
def rspError : Nat := 0x7F
def errUnexpected : Nat := 0x04
def errUnsupported : Nat := 0x07
def errInvalid : Nat := 0x01

/-- The connection of a peer. -/
def State.spdm (s : State) (peer : Nat) : Spdm := (s.plat.spdm.find? fun c => c.peer == peer).getD { peer := peer }

def State.putSpdm (s : State) (c : Spdm) : State :=
  s.modPlat fun p => { p with spdm := c :: p.spdm.filter fun x => x.peer != c.peer }

/-- What a request that needs so many earlier ones answers. -/
def State.spdmAfter (s : State) (peer phase : Nat) (k : Spdm → State) : State :=
  let c := s.spdm peer
  if c.phase < phase then s.send (.spdm peer rspError [errUnexpected]) else k c

/-- GET_VERSION, R419: versions 1.2 and 1.3; the connection starts over. -/
def execGetVersion (peer : Nat) (s : State) : Host.Outcome State Fault Refusal :=
  .next ((s.putSpdm { peer := peer, phase := 1 }).send (.spdm peer rspVersion [0x12, 0x13]))

/-- GET_CAPABILITIES, R419: certificates, challenge, measurements, key exchange. -/
def execGetCapabilities (peer : Nat) (s : State) : Host.Outcome State Fault Refusal :=
  .next (s.spdmAfter peer 1 fun c => (s.putSpdm { c with phase := max c.phase 2 }).send (.spdm peer rspCapabilities [2, 4, 16, 512]))

/-- NEGOTIATE_ALGORITHMS, R419: ECDSA P-384, SHA-384, AES-256-GCM. -/
def execNegotiateAlgorithms (peer : Nat) (s : State) : Host.Outcome State Fault Refusal :=
  .next (s.spdmAfter peer 2 fun c => (s.putSpdm { c with phase := max c.phase 3 }).send (.spdm peer rspAlgorithms [384, 384, 256]))

/-- A list of numbers as one number, to be digested. -/
def packNats (l : List Nat) : Nat := l.foldl (fun a x => a * 2 ^ 64 + x + 1) 1

/-- R418: the alias key comes of the identity key (2) and the digests of the accepted firmware. -/
def State.aliasKey (s : State) : Nat := packNats (2 :: s.plat.firmware)

/-- R418: what the certificate chain holds: root, identity key, alias key. -/
def State.chain (s : State) : List Nat :=
  [Config.certificate 0, Config.certificate 1, Config.certificate s.aliasKey]

/-- GET_DIGESTS, R419. -/
def execGetDigests (peer : Nat) (s : State) : Host.Outcome State Fault Refusal :=
  .next (s.spdmAfter peer 3 fun _ => s.send (.spdm peer rspDigests [Config.digest (packNats s.chain)]))

/-- GET_CERTIFICATE, R418, R419. -/
def execGetCertificate (peer : Nat) (s : State) : Host.Outcome State Fault Refusal :=
  .next (s.spdmAfter peer 3 fun _ => s.send (.spdm peer rspCertificate s.chain))

/-- CHALLENGE, R418, R419: signed with the alias key. -/
def execChallenge (peer : Nat) (nonce : Nat) (s : State) : Host.Outcome State Fault Refusal :=
  .next (s.spdmAfter peer 3 fun _ => s.send (.spdm peer rspChallengeAuth
    [Config.digest (packNats s.chain), nonce, Config.signature s.aliasKey (packNats (nonce :: s.chain))]))

/-- R419: peers 1 to 16 are the tenants' functions. -/
def Spdm.tenant (c : Spdm) : Option Nat := if c.session == 2 && 1 ≤ c.peer && c.peer ≤ 16 then some (c.peer - 1) else none

/-- R421, R427: the tenant has an established SPDM session. -/
def State.hasSession (s : State) (t : Nat) : Bool := s.plat.spdm.any fun c => c.tenant == some t

/-- R419: a tenant's assignment: its cores, banks, queues and save pool. -/
def State.assignment (s : State) (t : Nat) : List Nat :=
  let cores := (enumL s.cores).filterMap fun k => if k.2.tenant == some t then some k.1 else none
  let banks := s.plat.banks.filterMap fun b => if b.2 == t then some b.1 else none
  let queues := (enumL s.disp.queues).filterMap fun q => if q.2.tenant == t then some q.1 else none
  let pool := (s.disp.pools.filter fun p => p.1 == t).flatMap fun p => [p.2.1, p.2.2]
  packNats cores :: packNats banks :: packNats queues :: pool

/-- R419: what a measurement block digests; blocks 5 and 6 exist in a tenant's secured session only. -/
def State.measured (s : State) (c : Spdm) (i : Nat) : Option (List Nat) :=
  match i with
  | 1 => some (1 :: Config.certificate 0 :: s.plat.fuses)
  | 2 => some [2, s.plat.firmware.getD 0 0]
  | 3 => some [3, s.plat.firmware.getD 1 0]
  | 4 => some [4, s.plat.firmware.getD 2 0, s.plat.firmware.getD 3 0]
  | 5 => c.tenant.map fun t => 5 :: s.assignment t
  | 6 => c.tenant.map fun t => 6 :: ((s.tenant? t).map fun x => x.rights.flatMap fun r => [r.1, r.2]).getD []
  | _ => none

/-- The blocks that a request asks for: 0xFF all of them, else one. -/
def State.blocks (s : State) (c : Spdm) (index : Nat) : List Nat :=
  (if index == 0xFF then [1, 2, 3, 4, 5, 6] else [index]).filterMap fun i =>
    (s.measured c i).map fun m => Config.digest (packNats m)

/-- GET_MEASUREMENTS, R419: index 0 asks for their number. -/
def execGetMeasurements (peer : Nat) (index : Nat) (s : State) : Host.Outcome State Fault Refusal :=
  .next (s.spdmAfter peer 3 fun c =>
    if index == 0 then s.send (.spdm peer rspMeasurements [if c.tenant.isSome then 6 else 4])
    else match s.blocks c index with
      | [] => s.send (.spdm peer rspError [errInvalid])
      | bs => s.send (.spdm peer rspMeasurements (bs ++ [Config.signature s.aliasKey (packNats bs)])))

/-- KEY_EXCHANGE, R419. -/
def execKeyExchange (peer : Nat) (s : State) : Host.Outcome State Fault Refusal :=
  .next (s.spdmAfter peer 3 fun c =>
    let n := s.fresh
    ({ (s.putSpdm { c with session := 1, secret := n }) with fresh := n + 1 }).send
      (.spdm peer rspKeyExchange [Config.secret n, Config.signature s.aliasKey (packNats [Config.secret n])]))

/-- FINISH, R419: the session of the last key exchange is established. -/
def execFinish (peer : Nat) (s : State) : Host.Outcome State Fault Refusal :=
  let c := s.spdm peer
  if c.session == 1 then .next ((s.putSpdm { c with session := 2 }).send (.spdm peer rspFinish []))
  else .next (s.send (.spdm peer rspError [errUnexpected]))

/-- END_SESSION, R419. -/
def execEndSession (peer : Nat) (s : State) : Host.Outcome State Fault Refusal :=
  let c := s.spdm peer
  if c.session == 2 then .next ((s.putSpdm { c with session := 0, secret := 0 }).send (.spdm peer rspEndSession []))
  else .next (s.send (.spdm peer rspError [errUnexpected]))

/-- UNSUPPORTED_REQUEST, R419. -/
def execUnsupportedRequest (peer : Nat) (code : Nat) (s : State) : Host.Outcome State Fault Refusal :=
  .next (s.send (.spdm peer rspError [errUnsupported, code]))

end Sys2Proof.Machine
end

