-- ==== Sys2Proof/Machine/Cairn.lean ====
section
/-! DEFINITION. Debug commands (R386 to R392), the Cairn wave between packages (R381 to R385), resuming (R388), and the
rights of a job (R427, R428). A job is named by its tenant and its id. -/

namespace Sys2Proof.Machine

/-! ## Commands -/

def opHalt : Nat := 1
def opStep : Nat := 2
def opArm : Nat := 3
def opCancel : Nat := 4
def opSethen : Nat := 5
def opSetbrk : Nat := 6
def opRead : Nat := 7

/-- R390: the response to a command. -/
def State.respondTo (s : State) (op st : Nat) (words : List Word) : State := s.send (.response op st words)

/-- R390, R391: a command is judged in the order of the table: `reserved` FORMAT, `unknown` EXTENT_BOUND, the right, then
`invalid` in the present state. DEDUCED (log 109). -/
def State.judgeCmd (s : State) (key : Nat) (rights : List Nat) (reserved unknown : Bool) (valid : Job → Bool) : Except Nat Job :=
  if reserved then .error stFormat
  else if unknown then .error stExtentBound
  else match s.job? key with
    | none => .error stExtentBound
    | some j =>
      if !(rights.any fun b => bf j.rights b 1 == 1) then .error stPerm
      else if !valid j then .error stFormat
      else .ok j

/-- HALT, R384, R390. DEDUCED (log 109). -/
def execHalt (job : Nat) (s : State) : Host.Outcome State Fault Refusal :=
  match s.judgeCmd job [3] false false fun j => j.state == .running with
  | .error st => .next (s.respondTo opHalt st [])
  | .ok _ => .next (((s.beginHalt job (BitVec.ofNat 64 (s.plat.pkg * 2 ^ 52)) s.gtc true).stopJobs).respondTo opHalt 0 [])

/-- R379: HEN as SETHEN writes it. -/
def State.writeHen (s : State) (job hen : Nat) : State := s.modJob job fun j => { j with hen := hen &&& 0x2F }

/-- SETHEN, R379, R390. -/
def execSethen (job : Nat) (hen : BitVec 6) (s : State) : Host.Outcome State Fault Refusal :=
  match s.judgeCmd job [3] false false fun _ => true with
  | .error st => .next (s.respondTo opSethen st [])
  | .ok _ =>
    let s := s.writeHen job hen.toNat
    .next (((s.peers job).foldl (fun s p => s.send (.relay p job (.sethen hen.toNat))) s).respondTo opSethen 0 [])

/-- SETBRK, R392. -/
def execSetbrk (job : Nat) (core : Nat) (n : Nat) (tok : Word) (tmask : Word) (val : Word) (vmask : Word) (ctl : Word)
    (s : State) : Host.Outcome State Fault Refusal :=
  match s.judgeCmd job [3] (decide (8 ≤ n) || bf ctl.toNat 2 46 != 0) (decide (Config.cores ≤ core)) fun _ => true with
  | .error st => .next (s.respondTo opSetbrk st [])
  | .ok _ =>
    .next ((s.modCore core fun k =>
      { k with brk := k.brk.set n { tok := tok, tmask := tmask, val := val, vmask := vmask, ctl := ctl, job := job } }).respondTo opSetbrk 0 [])

/-- R379: a job debug word. -/
def jdbg (j : Job) : Word :=
  let st := match j.state with
    | .running => 0 | .halting => 1 | .halted => 2 | .stepping => 3 | .armed => 4
  BitVec.ofNat 64 (j.id * 2 ^ 48 + j.tenant * 2 ^ 44 + j.rights * 2 ^ 40 + j.hen * 2 ^ 8 + st)

/-- R390: words 1 to 6 of the response that holds entry i of a histogram store. -/
def histWords (hs : List Hist) (i : Nat) : List Word :=
  match hs.find? fun h => h.pos == i with
  | none => [0, 0, 0, 0, 0, 0]
  | some h =>
    let v := ((enumL h.counts).map fun c => c.2 % 2 ^ 24 * 2 ^ (24 * c.1)).sum
    [BitVec.ofNat 64 (h.cslot * 2 ^ 22 + h.block * 2 ^ 16 + h.node * 2 ^ 8 + 1), BitVec.ofNat 64 v,
     BitVec.ofNat 64 (v / 2 ^ 64), BitVec.ofNat 64 (v / 2 ^ 128), BitVec.ofNat 64 h.ctx, 0]

/-- READ, R390. -/
def execRead (job : Nat) (core : Nat) (what : Nat) (s : State) : Host.Outcome State Fault Refusal :=
  match s.judgeCmd job (if what < 3 then [0, 1, 2, 3] else [1]) false (decide (1026 < what) || decide (Config.cores ≤ core)) fun _ => true with
  | .error st => .next (s.respondTo opRead st [])
  | .ok j => .next (s.respondTo opRead 0 (match what with
    | 0 => [jdbg j]
    | 1 => [j.local0, j.local1]
    | 2 => [j.dom0, j.dom1]
    | i => histWords (s.core core).hist (i - 3)))

/-! ## Steps (R386, R387) -/

/-- A token that a step may select: the job's, held by no breakpoint, in no way of an occupied operand place. -/
def State.stepReady (s : State) (job core : Nat) (q : QTok) : Bool :=
  let w := s.targetWord core q
  let free := match s.frame? core q.frame with
    | some f => decide (w.ar ≤ 1) || (bf (f.slot w.slot).pres q.port 1 == 0 && !s.earlier core q)
    | none => true
  free && !s.passedOver core { q with step := true }
    && match s.ctx? (s.ctxOfTok core q) with
      | some c => c.jobKey == job && c.mode == .frozen
      | none => false

/-- The job's tokens of one queue of a core. -/
def State.jobToks (s : State) (job core cls : Nat) : List QTok :=
  ((s.core core).tok.fifo cls).filter fun q => match s.ctx? (s.ctxOfTok core q) with
    | some c => c.jobKey == job && c.mode == .frozen
    | none => false

/-- The first queue that gives a token. -/
def State.stepPick (s : State) (job core : Nat) (of : List QTok → Option QTok) : Option (Nat × QTok) :=
  ([4, 0, 1, 2, 3].filterMap fun cls => (of (s.jobToks job core cls)).map fun q => (cls, q)).head?

/-- STEP: the token is selected: the core's next selection, which follows at once, runs it with the step flag. With
nothing to select the command completes with EXTENT_BOUND. DEDUCED (log 115). -/
def State.stepRun (s : State) (job core : Nat) (pick : Option (Nat × QTok)) : Host.Outcome State Fault Refusal :=
  match s.judgeCmd job [2] false (decide (Config.cores ≤ core)) fun j => j.state == .halted with
  | .error st => .next (s.respondTo opStep st [])
  | .ok _ =>
    match pick with
    | none => .next (s.respondTo opStep stExtentBound [])
    | some (cls, q) =>
      let q' := { q with step := true }
      let s := s.modJob job fun j => { j with state := .stepping, step := true }
      let s := s.modTok core fun u => u.setFifo cls (swapTok q q' (u.fifo cls))
      .next { s with agenda := ({ act := .select core [] } : Turn) :: s.agenda }

/-- STEP of a named frame and node, R386. -/
def execStepNamed (job : Nat) (core : Nat) (frame : Nat) (node : Nat) (s : State) : Host.Outcome State Fault Refusal :=
  s.stepRun job core (s.stepPick job core fun l => l.find? fun q => q.frame == frame && q.instr == node && s.stepReady job core q)

/-- STEP of the next token that R325 would select, R386. -/
def execStepNext (job : Nat) (core : Nat) (s : State) : Host.Outcome State Fault Refusal :=
  s.stepRun job core (s.stepPick job core fun l => (l.take 8).find? fun q => s.stepReady job core q)

/-- R386, R387: a stepped command that still has work. DEDUCED (log 115). -/
def Eng.stepWork (e : Eng) : Bool :=
  e.stepped && !(e.stream.opened && e.stream.rows.isEmpty && e.stream.mrows.isEmpty) && e.watch.isNone

/-- R386: the token of a step has still to run, or operations of the step have not delivered their responses. -/
def State.stepWaits (s : State) (key : Nat) : Bool :=
  (s.cores.any fun k => [k.tok.handlerQ, k.tok.fifo0, k.tok.fifo1, k.tok.fifo2, k.tok.fifo3].any fun l => l.any fun q => q.step) ||
  let mine (id : Nat) : Bool := (s.jobCtxs key).any fun c => c.id == id
  (s.ms.reqs.any fun r => r.stepped && !r.watch && (r.st != 1 || r.needsTile) && mine r.site.ctx) ||
    s.cores.any fun k => k.eng.recs.any fun e => e.stepWork && mine e.site.ctx

/-- R386, R389, R432: a STEPPING or ARMED job is HALTED again, which raises vector 2. -/
def State.backToHalted (s : State) (job : Nat) : State :=
  (s.modJob job fun j => { j with state := .halted }).msix (job / 65536 + 1) 2

/-- STEP_END, R386: nothing of the step is outstanding but what a precise watch hit holds. -/
def execStepEnd (job : Nat) (s : State) : Host.Outcome State Fault Refusal :=
  match s.job? job with
  | none => .next s
  | some j =>
    if !j.step || s.stepWaits job then .next s
    else
      let mine (id : Nat) : Bool := (s.jobCtxs job).any fun c => c.id == id
      let s := s.modMs fun m => { m with reqs := m.reqs.map fun r => if mine r.site.ctx then { r with stepped := false } else r }
      let unstep (e : Eng) : Eng := if mine e.site.ctx then { e with stepped := false } else e
      let unstepOn (k : Core) : Core := { k with eng := { k.eng with recs := k.eng.recs.map unstep } }
      let s : State := { s with cores := s.cores.map unstepOn }
      let s := if j.state == .stepping then s.backToHalted job else s
      .next ((s.modJob job fun j => { j with step := false }).respondTo opStep 0 [])

/-! ## Resuming (R388, R389) -/

/-- R388: an ARM reaches this package: a HALTED one acknowledges it when it comes in time, and is ARMED. -/
def State.takeArm (s : State) (job t : Nat) : Bool × State :=
  match s.job? job with
  | none => (false, s)
  | some j =>
    if j.state == .halted && decide (s.gtc + 2000 ≤ t) then (true, s.modJob job fun j => { j with state := .armed, resumeAt := t })
    else (false, s)

/-- ARM, R388, R415: invalid while a table write has not been acknowledged. -/
def execArm (job : Nat) (t : Nat) (s : State) : Host.Outcome State Fault Refusal :=
  match s.judgeCmd job [3] false false fun j => j.state == .halted && s.plat.l2pPending == 0 with
  | .error st => .next (s.respondTo opArm st [])
  | .ok _ =>
    let a := s.takeArm job t
    let s := a.2.modJob job fun j => { j with arms := j.arms ++ [(t, if a.1 then [s.plat.pkg] else [])] }
    .next ((s.peers job).foldl (fun s p => s.send (.relay p job (.arm t))) s)

/-- R388, R426: another package of the job acknowledges the ARM of T that was given here. -/
def State.armAck (s : State) (job pkg t : Nat) : State :=
  if !(s.peers job).contains pkg then s.countDropped 9
  else s.modJob job fun j =>
    { j with arms := j.arms.map fun a => if a.1 == t && !a.2.contains pkg then (a.1, a.2 ++ [pkg]) else a }

/-- R389, R428: a CANCEL reaches this package: before T it returns an ARMED job to HALTED, unless its HALT right has been revoked. -/
def State.takeCancel (s : State) (job : Nat) : Bool × State :=
  match s.job? job with
  | none => (false, s)
  | some j =>
    if j.state == .armed && decide (s.gtc < j.resumeAt) && bf j.rights 3 1 == 1 then (true, s.backToHalted job)
    else (false, s)

/-- R389: the CANCELs that every package has answered complete. -/
def State.endCancels (s : State) (job : Nat) : State :=
  match s.job? job with
  | none => s
  | some j =>
    let ended := j.cancels.filter fun c => c.1.isEmpty
    ended.foldl (fun s c => s.respondTo opCancel 0 [BitVec.ofNat 64 c.2])
      (s.modJob job fun j => { j with cancels := j.cancels.filter fun c => !c.1.isEmpty })

/-- CANCEL, R389. -/
def execCancel (job : Nat) (s : State) : Host.Outcome State Fault Refusal :=
  match s.judgeCmd job [3] false false fun _ => true with
  | .error st => .next (s.respondTo opCancel st [])
  | .ok _ =>
    let a := s.takeCancel job
    let s := a.2.modJob job fun j => { j with cancels := j.cancels ++ [(s.peers job, if a.1 then 1 else 0)] }
    .next (((s.peers job).foldl (fun s p => s.send (.relay p job .cancel)) s).endCancels job)

/-- The answer of a package goes to the oldest CANCEL that waits for it. -/
def answerCancel (pkg : Nat) (back : Bool) : List (List Nat × Nat) → List (List Nat × Nat)
  | [] => []
  | c :: cs => if c.1.contains pkg then (c.1.erase pkg, c.2 + (if back then 1 else 0)) :: cs else c :: answerCancel pkg back cs

/-- R389, R426: another package answers a CANCEL. -/
def State.cancelBack (s : State) (job pkg : Nat) (back : Bool) : State :=
  if !(s.peers job).contains pkg then s.countDropped 9
  else (s.modJob job fun j => { j with cancels := answerCancel pkg back j.cancels }).endCancels job

/-- R386: the HALT bit of a trap's own comparator or watch unit. DEDUCED (log 112). -/
def State.ownHalt (s : State) (t : Trap) : Bool :=
  match t.cause with
  | 2 => bf ((s.core t.core).brk.getD t.code {}).ctl.toNat 1 1 == 1
  | 3 => ((s.ctx? t.site.ctx).map fun c => (c.regs.watch.getD t.code {}).halts).getD false
  | _ => false

/-- R386: the trap of a stepped firing enters a handler, or starts a new halt. -/
def State.undefer (s : State) (t : Trap) : State :=
  let halt := s.haltEnabled t.site.ctx t.cause (s.ownHalt t)
  let u := { t with item := t.item % 2 ^ 32 + (if halt then 2 ^ 32 else 0) }
  let s := s.modCtx t.site.ctx fun c => { c with traps := c.traps.map fun x => if x == t then u else x }
  match s.ctx? t.site.ctx with
  | none => s
  | some c => if halt then s.beginHalt c.jobKey (causeWord s t) t.raised true else s

/-- R382: the window of the entries that a halted job's contexts on other packages have here stood still. -/
def State.thawFar (s : State) (job since : Nat) : State :=
  s.modMs fun m => { m with log := m.log.map fun l =>
    if l.job == job && l.pkg != s.plat.pkg then { l with logged := l.logged + (s.wall - max l.logged since) } else l }

/-- R382, R388: times that a halt does not count; then the context goes on. -/
def State.thawCtx (s : State) (id : Nat) : State :=
  match s.ctx? id with
  | none => s
  | some c =>
    let thaw (x : Nat) : Nat := x + (s.wall - max x c.froze)
    let s := s.modMs fun m =>
      { m with reqs := m.reqs.map fun r => if r.site.ctx == id then { r with first := thaw r.first, last := thaw r.last } else r
               log := m.log.map fun l => if l.ctx == id && l.pkg == s.plat.pkg then { l with logged := thaw l.logged } else l }
    s.resumeCtx id

/-- R388: the ARM commands given here whose T has come complete: acknowledgements, and the lowest package without one. -/
def State.endArms (s : State) (job : Nat) : State :=
  match s.job? job with
  | none => s
  | some j =>
    let all := s.plat.pkg :: s.peers job
    (j.arms.filter fun a => decide (a.1 ≤ s.gtc)).foldl (fun s a =>
      let miss := all.filter fun p => !a.2.contains p
      s.respondTo opArm 0 [BitVec.ofNat 64 a.2.length, BitVec.ofNat 64 (miss.foldl min 0xFFF)])
      (s.modJob job fun j => { j with arms := j.arms.filter fun a => !decide (a.1 ≤ s.gtc) })

/-- R383, R384, R388 step 3: an ARMED job runs again. DEDUCED (log 114). -/
def State.resumeJob (s : State) (job : Nat) : State :=
  let cs := (s.jobCtxs job).filter fun c => c.mode == .frozen && (s.asked c.id actSave).isNone
  let s := s.modJob job fun j =>
    { j with state := .running, local0 := 0, local1 := 0, hasLocal := false, dom0 := 0, dom1 := 0, hasDom := false, reported := [] }
  let s := s.thawFar job (((s.job? job).map fun j => j.since).getD s.wall)
  let s := cs.foldl (fun s c => s.thawCtx c.id) s
  let placed := (s.jobCtxs job).filter fun c => c.mode != .saved && c.mode != .restoring
  let s := placed.foldl (fun s c => s.releaseHeld c.id) s
  let s := cs.foldl (fun s c => s.pumpCtx c.id) s
  let later := (s.jobCtxs job).flatMap fun c => c.traps.filter fun t => t.deferred
  (later.foldl (fun s t => s.undefer t) s).stopJobs

/-- RESUME_INSTANT, R388: T has come. DEDUCED (log 114). -/
def execResumeInstant (job : Nat) (s : State) : Host.Outcome State Fault Refusal :=
  match s.job? job with
  | none => .next s
  | some j =>
    let s := s.endArms job
    if j.state == .armed && decide (j.resumeAt ≤ s.gtc) then .next (s.resumeJob job) else .next s

/-! ## Messages between packages -/

/-- CAIRN_MESSAGE, R381, R384, R426: the halt reaches this package from a member; a second message for it is ignored. -/
def execCairnMessage (job : StopRelay) (s : State) : Host.Outcome State Fault Refusal :=
  match s.job? job.job with
  | none => .next s
  | some j =>
    if !(s.peers job.job).contains job.pkg then .next (s.countDropped 9)
    else if j.state == .running then .next (s.beginHalt job.job (BitVec.ofNat 64 (s.plat.pkg * 2 ^ 52 + 7)) s.gtc false).stopJobs
    else .next s

/-- CAUSE_REPORT, R385: a member's local cause; one that outruns the Cairn message begins the halt itself. DEDUCED (log 111). -/
def execCauseReport (job : Nat) (pkg : Nat) (w0 : Word) (w1 : Word) (s : State) : Host.Outcome State Fault Refusal :=
  match s.job? job with
  | none => .next s
  | some j =>
    if !(s.peers job).contains pkg then .next (s.countDropped 9)
    else
      let s := if j.state == .running then s.beginHalt job (BitVec.ofNat 64 (s.plat.pkg * 2 ^ 52 + 7)) s.gtc false else s
      .next (s.modJob job fun j =>
        { j.report w0 w1 with reported := if j.reported.contains pkg then j.reported else pkg :: j.reported }).stopJobs

/-- MEMBER_REPORT_TIMEOUT, R383: a member that has not reported within 10 µs is marked missing. -/
def execMemberReportTimeout (job : Nat) (pkg : Nat) (s : State) : Host.Outcome State Fault Refusal :=
  match s.job? job with
  | none => .next s
  | some j =>
    if j.state == .halting && (s.peers job).contains pkg && !j.reported.contains pkg && decide (j.since + 10000 ≤ s.wall) then
      .next (s.modJob job fun j => { j with reported := pkg :: j.reported }).stopJobs
    else .next s

/-! ## Rights (R391, R427, R428) -/

/-- R427, R428: a job's RIGHTS are set; revoking HALT clears HEN and the comparators' HALT bits and lets a halted job
resume. DEDUCED (log 112). -/
def State.setRights (s : State) (job rights : Nat) : State :=
  let tenant := job / 65536
  let s := s.modPlat fun p => { p with tenants := p.tenants.map fun t =>
    if t.id == tenant then { t with rights := (job % 65536, rights) :: t.rights.filter fun r => r.1 != job % 65536 } else t }
  match s.job? job with
  | none => s
  | some j =>
    let s := s.modJob job fun j => { j with rights := rights }
    if bf j.rights 3 1 == 0 || bf rights 3 1 == 1 then s
    else
      let mine (b : Brk) : Bool := b.job == job || (s.jobCtxs job).any fun c => c.id == bf b.ctl.toNat 48 16
      let clear (b : Brk) : Brk := if mine b then { b with ctl := b.ctl &&& ~~~(2 : Word) } else b
      let clearOn (k : Core) : Core := { k with brk := k.brk.map clear }
      let s : State := { s with cores := s.cores.map clearOn }
      s.modJob job fun (j : Job) =>
        if j.state == .halted || j.state == .stepping then { j with hen := 0, state := .armed, resumeAt := s.gtc + 100000 }
        else { j with hen := 0 }

/-- RIGHTS_MESSAGE, R427: a message that is signed, in the tenant's SPDM session, takes effect here and is relayed. -/
def execRightsMessage (tenant : Nat) (job : Nat) (rights : SignedRights) (s : State) : Host.Outcome State Fault Refusal :=
  let key := jobKey tenant (job % 65536)
  if !rights.signed || !s.hasSession tenant then .next s
  else
  let s := s.setRights key rights.rights.toNat
  .next ((s.peers key).foldl (fun s p => s.send (.relay p key (.rights rights.rights.toNat))) s)

/-! ## Commands as words (R390) -/

/-- What a command leaves; a command never stops. -/
def ranCommand (o : Host.Outcome State Fault Refusal) (s : State) : State :=
  match o with
  | .next t => t
  | _ => s

/-- R390: a command of eight words with an OP of the table is performed here. -/
def State.runCommand (s : State) (key op : Nat) (ws : List Word) : State :=
  let w0 := (ws.getD 0 0).toNat
  let arg := (ws.getD 1 0).toNat
  let data (i : Nat) : Word := ws.getD (2 + i) 0
  let core := bf w0 36 8
  ranCommand (match op with
    | 1 => execHalt key s
    | 2 => if bf w0 16 1 == 1 then execStepNext key core s else execStepNamed key core (bf w0 24 12) (bf w0 17 7) s
    | 3 => execArm key arg s
    | 4 => execCancel key s
    | 5 => execSethen key (BitVec.ofNat 6 (bf arg 8 6)) s
    | 6 => execSetbrk key core arg (data 0) (data 1) (data 2) (data 3) (data 4) s
    | _ => execRead key core arg s) s

/-- R390: a debugger's command: a reserved OP or a nonzero reserved field, then a package that is not of the job; one for another
package is relayed and answered there. DESIGN CHOICE (log 173). -/
def State.takeCommand (s : State) (tenant : Nat) (ws : List Word) : State :=
  let w0 := (ws.getD 0 0).toNat
  let op := bf w0 56 8
  let key := jobKey tenant (bf w0 0 16)
  let pkg := bf w0 44 12
  let aimed := op == 2 || op == 6 || op == 7
  if op == 0 || decide (7 < op) || ws.getD 7 0 != 0 || (op == 5 && bf (ws.getD 1 0).toNat 8 6 * 256 != (ws.getD 1 0).toNat) then
    s.respondTo op stFormat []
  else if aimed && pkg != s.plat.pkg then
    (if (s.peers key).contains pkg then s.send (.relay pkg key (.command ws)) else s.respondTo op stExtentBound [])
  else s.runCommand key op ws

/-- R388 to R390, R427: what another package of the job passes on takes effect here, and ARM and CANCEL are answered. DESIGN CHOICE (log 173). -/
def State.relayed (s : State) (pkg job : Nat) (r : Relay) : State :=
  match r with
  | .arm t =>
    let a := s.takeArm job t
    if a.1 then a.2.send (.acked pkg job t) else a.2
  | .cancel =>
    let a := s.takeCancel job
    a.2.send (.cancelled pkg job a.1)
  -- R428: a right revoked meanwhile leaves HEN clear
  | .sethen hen => if ((s.job? job).map fun j => bf j.rights 3 1 == 1).getD false then s.writeHen job hen else s
  | .rights r => s.setRights job r
  | .command ws => s.takeCommand (job / 65536) ws

end Sys2Proof.Machine
end

