-- ==== Sys2Proof/Machine/Dispatcher.lean ====
section
/-! DEFINITION. The Dispatcher: doorbells and reading (R303 to R306, R314, R315), checks (R316, R320, R322), dependences
and raises (R310, R317, R318), admission (R319, R320), extents (R289 to R291), placing and injection (R250, R321), and the
other packet types (R323). -/

namespace Sys2Proof.Machine

/-! ## Doorbells -/

/-- R421: the TDISP state of a tenant's function. DEDUCED (log 99). -/
def State.tdispOf (s : State) (tenant : Nat) : Tdisp := ((s.plat.vfs[tenant + 1]?).map fun v => v.tdisp).getD .unlocked

/-- R304, R430: a function may touch a queue's registers. -/
def State.ownsQueue (s : State) (vf queue : Nat) : Bool :=
  vf != 0 && s.plat.boot == .ready && (s.tenant? (vf - 1)).isSome &&
    ((s.disp.queues[queue]?).map fun q => q.tenant == vf - 1).getD false

/-- R342: the window writes of a function that are on their way. -/
def State.windowWrites (s : State) (vf : Nat) : List Nat := (s.ms.reqs.filter fun r => r.kind == .visit (.host vf true)).map fun r => r.id

/-- DOORBELL, R305, R342, R421, R444: a write of QTAIL by a host function; what it covers is read after the function's window
writes have performed. DEDUCED (log 93). -/
def execDoorbell (vf : Nat) (queue : BitVec 6) (value : BitVec 32) (s : State) : Host.Outcome State Fault Refusal :=
  let n := queue.toNat
  let v := value.toNat
  let q := s.disp.queues.getD n {}
  if !s.ownsQueue vf n || s.tdispOf (vf - 1) != .run then .next s
  else if q.en && decide ((v + 2 ^ 32 - q.tail) % 2 ^ 32 + q.used ≤ 2 ^ q.lsize) then
    -- R314: a doorbell that covers no packet orders none
    .next (s.modDisp fun d =>
      { d with bells := d.bells + 1
               queues := d.queues.modify n fun q =>
                 { q with tail := v, after := s.windowWrites vf, bell := if v == q.tail then q.bell else q.bell ++ [(v, d.bells)] } })
  else .next (s.qerr n stFormat v)

/-! ## Raises (R318) -/

/-- A launch record's queue and packet number. DEDUCED (log 100). -/
def depLaunch (w : Nat) : Option (Nat × Nat) := if bf w 62 2 == 2 then some (bf w 56 6, bf w 0 32) else none

/-- The launches that a packet in WAITING still waits for. -/
def Pkt.waitsOn (p : Pkt) : List (Nat × Nat) :=
  if p.state != .waiting then [] else
    ((if p.met0 then [] else (depLaunch (p.dep 0)).toList) ++ if p.met1 then [] else (depLaunch (p.dep 1)).toList)

/-- R318: raises the producer `l` to effective priority `e`, and what it waits for in turn. -/
def State.raiseTo (s : State) (e : Nat) : Nat → Nat × Nat → State
  | 0, _ => s
  | k + 1, l =>
    let s := s.ctxs.foldl (fun s c =>
      if c.queue == l.1 && c.seq == l.2 && e < c.regs.eff then
        s.setPrio c.id fun r => { r with raises := e :: r.raises }
      else s) s
    match s.disp.pkts.find? fun p => p.queue == l.1 && p.seq == l.2 with
    | none => s
    | some p =>
      if e < p.eff then
        let s := s.modPkt p.no fun p => { p with eff := e }
        p.waitsOn.foldl (fun s x => s.raiseTo e k x) s
      else s

/-- R318: the raises of a packet that enters WAITING. -/
def State.raiseFrom (s : State) (no : Nat) : State :=
  match s.pkt? no with
  | some p => p.waitsOn.foldl (fun s l => s.raiseTo p.eff 257 l) s
  | none => s

/-- R314, R318: the effective priority of a packet that is still queued. -/
def State.queuedEff (s : State) (queue seq prio : Nat) : Nat :=
  (s.disp.pkts.filter fun p => p.waitsOn.contains (queue, seq)).foldl (fun m p => min m p.eff) prio

/-! ## Reading (R314, R315) -/

/-- R315: packets in WAITING to PLACING, and those that may still enter WAITING. DEDUCED (log 160). -/
def State.pktsHeld (s : State) : Nat := (s.disp.pkts.filter fun p => p.state != .running).length

/-- R314: the members that follow a gang head. -/
def gangMembers (h : Nat) : Nat := if bf h 9 3 == typGang then bf h 1 3 else 0

/-- R314, R421: the enabled queues that hold a packet: number and queue. -/
def State.filled (s : State) : List (Nat × Queue) :=
  (enumL s.disp.queues).filter fun q => q.2.en && q.2.used != 0 && s.tdispOf q.2.tenant == .run

/-- R314: the filled queues whose next packet may be read: effective priority, doorbell order, queue. A packet that could not be
read counts as one of the lowest priority. DEDUCED (log 94). -/
def State.readable (s : State) : List (Nat × Nat × Nat) :=
  s.filled.filterMap fun q =>
    match q.2.front with
    | none => none
    | some (st, bs) =>
      if st == 0 && decide (q.2.used < gangMembers (leNat bs) + 1) then none
      else some (s.queuedEff q.1 q.2.head (if st == 0 then bf (leNat bs) 7 2 else 3), ((q.2.bell.head?).map fun b => b.2).getD 0, q.1)

/-- The least of three-part keys. -/
def leastKey (l : List (Nat × Nat × Nat)) : Option (Nat × Nat × Nat) :=
  l.foldl (fun b x => match b with
    | none => some x
    | some y => if x.1 < y.1 || (x.1 == y.1 && (decide (x.2.1 < y.2.1) || (x.2.1 == y.2.1 && decide (x.2.2 < y.2.2)))) then some x else b) none

/-- R305: the packet at HEAD of a queue has been read, or could not be; HEAD advances in every case. `r.gang` is the head of its
gang; its members are read with it (R314). DEDUCED (log 94). -/
def State.takePacket (s : State) (r : Reading) (st : Nat) : State :=
  let n := r.queue
  let q := s.disp.queues.getD n {}
  let parent := (q.puts.find? fun p => p.1 == q.head).map fun p => p.2
  let next := (q.head + 1) % 2 ^ 32
  let h := leNat (r.bytes.take 32)
  let left := if r.gang.isSome then r.left else if st == 0 then gangMembers h else 0
  let s := s.modDisp fun d => { d with
    reading := if left == 0 then none else some { queue := n, gang := some (r.gang.getD d.pktSeq), left := left - 1 }
    queues := d.queues.modify n fun q =>
      { q with head := next, front := none, puts := q.puts.filter fun p => p.1 != q.head
               bell := q.bell.filter fun b => decide (1 ≤ (b.1 + 2 ^ 32 - next) % 2 ^ 32) && decide ((b.1 + 2 ^ 32 - next) % 2 ^ 32 ≤ 2 ^ 31) } }
  if st != 0 then
    let s := s.qerr n st q.head
    let s := s.tellParent parent n q.head st
    -- R320: the gang that lacks a member is malformed
    match r.gang with
    | some g => s.modPkt g fun p => { p with status := stFormat }
    | none => s
  else
    let p : Pkt := { no := s.disp.pktSeq, queue := n, seq := q.head, bytes := r.bytes, tenant := q.tenant, parent := parent, gang := r.gang }
    let p := { p with eff := s.queuedEff n q.head p.prio, met0 := bf (p.dep 0) 62 2 == 0, met1 := bf (p.dep 1) 62 2 == 0 }
    let p := if p.typ == typGang && r.gang.isNone then { p with gang := some p.no } else p
    s.modDisp fun d => { d with pkts := d.pkts ++ [p], pktSeq := d.pktSeq + 1 }

/-- The read of 8 bytes of the packet at HEAD of a queue, under way or over. -/
def State.wordVisit (s : State) (n : Nat) : Option Req :=
  s.ms.reqs.find? fun r => r.kind == .visit .packet && (r.disp.map fun x => x.1) == some n

/-- R305, R342: the read of 8 bytes of the packet at HEAD sets out, once the window writes before its doorbell have performed. -/
def State.askWord (s : State) (n off : Nat) : State :=
  let q := s.disp.queues.getD n {}
  if q.after.any fun i => (s.req? i).isSome then s
  else s.visit q.tenant (.visit .packet) (some (n, q.head, off)) { va := q.slotVa q.head + off }

/-- R305: the next 8 bytes of the packet at HEAD are asked for, or have come. -/
def State.readWord (s : State) (r : Reading) : State :=
  if (s.disp.queues.getD r.queue {}).used == 0 then s
  else match s.wordVisit r.queue with
    | none => s.askWord r.queue r.bytes.length
    | some v =>
      if !v.done then s
      else
        let s := s.dropReq v.id
        let r := { r with bytes := r.bytes ++ Memory.getMany v.got 0 8 }
        if v.status != 0 then s.takePacket r v.status
        else if r.bytes.length < 256 then s.modDisp fun d => { d with reading := some r }
        else s.takePacket r 0

/-- R314: the first 8 bytes of the packet at HEAD of a queue, which hold its priority and its type, are asked for, or have
come. -/
def State.readFront (s : State) (n : Nat) : State :=
  match s.wordVisit n with
  | none => s.askWord n 0
  | some v =>
    if !v.done then s
    else (s.dropReq v.id).modDisp fun d => { d with queues := d.queues.modify n fun q => { q with front := some (v.status, Memory.getMany v.got 0 8) } }

/-- R314, R315: with the front of every filled queue read, the Dispatcher turns to the best packet, with room for its whole
gang. -/
def State.startRead (s : State) : State :=
  if 256 ≤ s.pktsHeld then s
  else if s.filled.any fun q => q.2.front.isNone then
    (s.filled.filter fun q => q.2.front.isNone).foldl (fun s q => s.readFront q.1) s
  else match leastKey s.readable with
    | none => s
    | some (_, _, n) =>
      let h := ((s.disp.queues.getD n {}).front).getD (0, [])
      if 256 < s.pktsHeld + (if h.1 == 0 then gangMembers (leNat h.2) else 0) + 1 then s
      else if h.1 != 0 then s.takePacket { queue := n } h.1
      else s.modDisp fun d => { d with reading := some { queue := n, bytes := h.2 } }

/-- PACKET_READ, R305, R314, R315: the best packet is chosen, or the next 8 bytes of the packet, or of the gang, that is being
read; with its last bytes it is CHECKED. DEDUCED (log 99). DEDUCED (log 160). -/
def execPacketRead (s : State) : Host.Outcome State Fault Refusal :=
  if s.plat.boot != .ready then .next s
  else match s.disp.reading with
    | some r => .next (s.readWord r)
    | none => .next s.startRead

/-! ## Checks in CHECKED (R316) -/

/-- R310: a dependence record's reserved fields. -/
def depOk (w : Nat) : Bool :=
  match bf w 62 2 with
  | 0 => w == 0
  | 1 => bf w 61 1 == 0
  | 2 => bf w 32 24 == 0
  | _ => false

/-- R307, R312, R322: a range descriptor, with all descriptors of its packet. DEDUCED (log 95). -/
def rangeOk (all : List Nat) (w : Nat) : Bool :=
  if !rangeV w then w == 0
  else
    let mem := decide (rangeKind w < 2)
    bf w 0 2 == 0 &&
      (if mem then bf (rangeAddr w) 48 16 == 0 && rangeLen w != 0 && rangePerm w != 0 else rangeLen w == 0 && rangePerm w == 0) &&
      (!rangeTrb w || rangeKind w == 0) && (rangeKind w == 2 || rangeQn w == 0) &&
      (rangeObj w == 0 || (rangeKind w == 0 && match all[rangeObj w - 1]? with
        | some o => rangeV o && rangeKind o == 3
        | none => false))

/-- R308, R309, R316: the first row for one packet, its gang's shape apart. DEDUCED (log 95). -/
def Pkt.rowOne (p : Pkt) : Bool :=
  let ranges := (List.range 12).map p.range
  let words := (List.range 8).map p.levelWord
  let deps := depOk (p.dep 0) && depOk (p.dep 1)
  let plain := words.all (· == 0) && ranges.all (· == 0)
  let h := p.hdr
  bf h 0 1 == 0 && deps && match p.typ with
    | 0 => bf h 1 3 == 0 && (words.drop p.levelCount).all (· == 0) && (words.take p.levelCount).all (fun w => bf w 0 11 == 0) &&
        ranges.all (rangeOk ranges) && decide ((ranges.filter rangeTrb).length ≤ 1)
    | 1 => (words.drop p.levelCount).all (· == 0) && (words.take p.levelCount).all (fun w => bf w 0 11 == 0) &&
        ranges.all (rangeOk ranges) && decide ((ranges.filter rangeTrb).length ≤ 1)
    | 2 => bf h 1 3 == 0 && bf h 6 1 == 0 && bf h 28 16 == 0 && plain
    | 3 => bf h 1 6 == 0 && bf h 12 32 == 0 && bf h 86 42 == 0 && plain
    | 4 => bf h 1 6 == 0 && bf h 12 32 == 0 && bf h 86 24 == 0 && p.action != 3 && plain
    | _ => false

/-- R247: the least scope of a kind in a region. -/
def leastScope (oneDie : Bool) (kind : Nat) : Nat :=
  match kind with
  | 0 => 0
  | 1 => if oneDie then 1 else 2
  | 2 => 1
  | 3 => 2
  | _ => 3

/-- R249: the unit of a scope in which a home lies. -/
def unitAt (scope : Nat) (home : Nat × Nat) : Nat × Nat :=
  match scope with
  | 0 => home
  | 1 => (home.1, dieOf home.2)
  | 2 => (home.1, 0)
  | _ => (0, 0)

/-- R249: the instances of every group of a level have their homes in one unit of its scope. -/
def groupsOk (pkgs cores : List Nat) (levels : List (Nat × Nat × Nat)) : Bool :=
  let homes := (List.range (instCount levels)).map fun i => homeOf pkgs cores levels (coordsOf levels i)
  (enumL levels).all fun l =>
    let size := max (instCount (levels.drop l.1)) 1
    (enumL homes).all fun h => unitAt l.2.2.2 h.2 == unitAt l.2.2.2 (homes.getD (h.1 / size * size) (0, 0))

/-- R247, R249, R311: the hierarchy of a launch. -/
def State.hierarchyOk (s : State) (p : Pkt) (job : Nat) (g : Region) : Bool :=
  let ls := p.levels
  let oneDie := decide ((g.cores.map dieOf).eraseDups.length ≤ 1)
  ls.all (fun l => decide (l.1 < 5) && l.2.1 != 0 && decide (leastScope oneDie l.1 ≤ l.2.2)) &&
    (ls.zip (ls.drop 1)).all (fun x => decide (x.2.1 ≤ x.1.1)) && decide (instCount ls ≤ 2 ^ 24) &&
    groupsOk (s.jobPkgs p.tenant job) g.cores ls

/-- R260, R316: the slot of a region in which a CID is armed; none is admitted to slot 3. -/
def Region.armedCid (g : Region) (cid : Nat) : Option Nat :=
  ((enumL (g.slots.take 3)).find? fun k => (k.2.state == .armed || k.2.state == .active) && k.2.cid == cid).map fun k => k.1

def Region.loadingCid (g : Region) (cid : Nat) : Bool := (g.slots.take 3).any fun k => k.state == .loading && k.cid == cid

/-- R316: the CID row. -/
def Region.cidRow (g : Region) (cid : Nat) : Nat := if (g.armedCid cid).isSome || g.loadingCid cid then 0 else stFormat

/-- R320: the gang of a packet, in packet order; a launch alone is its own. -/
def State.gangOf (s : State) (p : Pkt) : List Pkt :=
  match p.gang with
  | some g => s.disp.pkts.filter fun x => x.gang == some g
  | none => [p]

/-- R320: the job id of a gang is its head's. -/
def State.jobOf (s : State) (p : Pkt) : Nat := ((s.gangOf p).head?.map Pkt.job).getD p.job

/-- R316: every row that CHECKED makes of a launch or a gang member, in table order: the first failing status. -/
def State.checkLaunch (s : State) (p : Pkt) : Nat :=
  if !p.rowOne then stFormat
  else
    let g := s.regionAt p.rhome
    let cores := (g.map fun g => g.cores).getD [p.rhome]
    if cores.any fun c => (s.core c).tenant != some p.tenant then stPerm
    else match g with
      | none => stFormat
      | some g => if !s.hierarchyOk p (s.jobOf p) g then stFormat else g.cidRow p.cid

/-- R320: the shape of a gang. -/
def gangShape (ps : List Pkt) : Bool :=
  match ps with
  | [] => true
  | h :: ms => h.status == 0 && ms.all fun m => m.typ == typGang && m.gangLen == 0

/-- R316, R320: the first failing check of a launch or a gang. -/
def State.checkAll (s : State) (ps : List Pkt) : Nat :=
  if !gangShape ps then stFormat else firstNonzero (ps.map fun p => s.checkLaunch p)

/-- R310: the test of record `i` of a packet, a barrier record, goes to the home node of its word. -/
def State.sendTest (s : State) (p : Pkt) (i : Nat) : State :=
  let w := p.dep i
  s.visit p.tenant .barw (some (p.no, i, 0)) { va := bf w 16 45 * 8, op := .barw (bf w 0 16) }

/-- The test of a barrier record that the Dispatcher has sent. -/
def State.testOf (s : State) (p : Pkt) (i : Nat) : Option Req :=
  s.ms.reqs.find? fun r => r.site.ctx == dispCtx && r.kind == .barw && r.disp == some (p.no, i, 0)

/-- R310, R318: packets enter WAITING; the tests of their barrier records are sent. -/
def State.toWaiting (s : State) (ps : List Pkt) : State :=
  let s := ps.foldl (fun s p => s.modPkt p.no fun p => { p with state := .waiting }) s
  let s := ps.foldl (fun s p => [0, 1].foldl (fun s i => if bf (p.dep i) 62 2 == 1 then s.sendTest p i else s) s) s
  ps.foldl (fun s p => s.raiseFrom p.no) s

/-- R310, R319: packets whose dependences are all met enter the admission FIFOs. DEDUCED (log 98). -/
def State.toAdmitting (s : State) (ps : List Pkt) : State :=
  ps.foldl (fun s p =>
    (s.modPkt p.no fun p => { p with state := .admitting }).modRegion p.rhome fun g => { g with admitq := g.admitq ++ [p.no] }) s

def Pkt.met (p : Pkt) : Bool := p.met0 && p.met1

/-- R315: a launch or gang leaves CHECKED. -/
def State.judgeLaunch (s : State) (ps : List Pkt) : State :=
  let st := s.checkAll ps
  if st != 0 then ps.foldl (fun s p => s.endPacket p st) s
  else
    let s := s.toWaiting ps
    if ps.all Pkt.met then s.toAdmitting ps else s

/-- LAUNCH, R315, R316: a packet of TYPE 0, or of a reserved type, is checked. -/
def execLaunch (i : Nat) (s : State) : Host.Outcome State Fault Refusal :=
  match s.pkt? i with
  | none => .next s
  | some p => if p.state == .checked && (p.typ == typLaunch || decide (4 < p.typ)) && p.gang.isNone then .next (s.judgeLaunch [p]) else .next s

/-- GANG, R320: a gang is checked whole. -/
def execGang (i : Nat) (s : State) : Host.Outcome State Fault Refusal :=
  match s.pkt? i with
  | none => .next s
  | some p => if p.state == .checked && p.gang == some p.no then .next (s.judgeLaunch (s.gangOf p)) else .next s

/-! ## Dependences (R310) -/

/-- R310, R342: whether record `i` of a packet is met now: a barrier's test has performed; a producer has been read, is gone, and
its completion arrival has performed. DEDUCED (log 100). -/
def State.depMet (s : State) (p : Pkt) (i : Nat) : Bool :=
  let w := p.dep i
  match bf w 62 2 with
  | 0 => true
  | 1 => ((s.testOf p i).map fun r => r.done && r.status == 0).getD false
  | _ =>
    let q := bf w 56 6
    let seq := bf w 0 32
    let d := ((s.disp.queues.getD q {}).head + 2 ^ 32 - seq) % 2 ^ 32
    decide (1 ≤ d) && decide (d ≤ 2 ^ 31) && !(s.disp.pkts.any fun p => p.queue == q && p.seq == seq) &&
      !(s.ctxs.any fun c => c.queue == q && c.seq == seq && c.pkt != 0) &&
      !(s.ms.reqs.any fun r => r.site.ctx == dispCtx && r.kind.isArrive && (r.disp.map fun x => (x.1, x.2.1)) == some (q, seq))

/-- A record of a packet is met: its test is over; with the last record a launch or gang is ADMITTING (R315). -/
def State.meet (s : State) (p : Pkt) (i : Nat) : State :=
  let s := match s.testOf p i with
    | some r => s.dropReq r.id
    | none => s
  let s := s.modPkt p.no fun p => if i == 0 then { p with met0 := true } else { p with met1 := true }
  match s.pkt? p.no with
  | none => s
  | some p =>
    let ps := s.gangOf p
    if (p.typ == typLaunch || p.typ == typGang) && ps.all Pkt.met then s.toAdmitting ps else s

/-- R310: a barrier's test that could not be sent, or whose read failed, is made again. -/
def State.retest (s : State) (p : Pkt) (i : Nat) : State :=
  if bf (p.dep i) 62 2 != 1 then s
  else match s.testOf p i with
    | none => s.sendTest p i
    | some r => if r.done then (s.dropReq r.id).sendTest p i else s

/-- DEPENDENCE_MET, R310, R315: record i mod 2 of packet i / 2. -/
def execDependenceMet (i : Nat) (s : State) : Host.Outcome State Fault Refusal :=
  match s.pkt? (i / 2) with
  | none => .next s
  | some p =>
    if p.state != .waiting || (if i % 2 == 0 then p.met0 else p.met1) then .next s
    else if s.depMet p (i % 2) then .next (s.meet p (i % 2))
    else .next (s.retest p (i % 2))

/-! ## Admission (R319, R320, R379) -/

/-- R319: the head of a region's admission FIFO. DEDUCED (log 98). -/
def State.admitHead (s : State) (g : Region) : Option Pkt :=
  (g.admitq.filterMap s.pkt?).foldl (fun b p => match b with
    | none => some p
    | some x => if p.eff < x.eff || (p.eff == x.eff && decide (p.no < x.no)) then some p else b) none

/-- R244: the seats taken on a core. -/
def State.seatsOn (s : State) (core : Nat) : List Nat := s.ctxs.flatMap fun c => (c.seats.filter fun k => k.1 == core).map fun k => k.2

/-- R244: the lowest free seat of each core. -/
def State.newSeats (s : State) (cores : List Nat) : List (Nat × Nat) :=
  cores.filterMap fun c => ((List.range Config.seats).find? fun n => !(s.seatsOn c).contains n).map fun n => (c, n)

/-- R319: the lowest context id above the last one assigned that no context holds. -/
def State.newCtxId (s : State) : Nat :=
  ((List.range 65536).map fun i => (s.disp.lastCtx + 1 + i) % 65536).find? (fun n => (s.ctx? n).isNone) |>.getD 0

/-- R379, R391: a job's entry, with the rights its tenant has set. DEDUCED (log 101). -/
def State.newJob (s : State) (tenant job : Nat) : State :=
  if (s.job? (jobKey tenant job)).isSome then s
  else s.modPlat fun p => { p with jobs := p.jobs ++
    [{ id := job, tenant := tenant, rights := ((s.tenant? tenant).map fun t => Table.get t.rights job).getD 0 }] }

/-- R319: grants a packet its seats and a context. -/
def State.seatNow (s : State) (p : Pkt) (g : Region) (job : Nat) : State :=
  let id := s.newCtxId
  let c : Ctx :=
    { id := id, tenant := p.tenant, job := job, home := g.home, cslot := (g.armedCid p.cid).getD 0, cid := p.cid,
      order := s.disp.orders, seats := s.newSeats g.cores, levels := p.levels, parent := p.parent, queue := p.queue, seq := p.seq,
      pkt := p.no, cword := p.cword, mode := .building, tags := g.cores.map fun k => (k, 1),
      regs := { base := p.prio, raises := if p.eff < p.prio then [p.eff] else [] } }
  let s := (s.newJob p.tenant job).modDisp fun d => { d with lastCtx := id, orders := d.orders + 1 }
  let s := s.modPkt p.no fun p => { p with state := .translating, ctx := id }
  let s := s.modRegion g.home fun g => { g with admitq := g.admitq.filter fun n => n != p.no }
  { s with ctxs := s.ctxs ++ [c] }

/-- R426: this package has verified a membership list that names it for a job. DEDUCED (log 101). -/
def State.listed (s : State) (tenant job : Nat) : Bool :=
  s.plat.members.any fun m => m.tenant == tenant && m.job == job && m.packages.contains s.plat.pkg

/-- R316, R319, R320, R426: a launch or gang at the head of every FIFO: rejected, made to wait, or granted. -/
def State.grantPkts (s : State) (ps : List Pkt) : State :=
  let gs := ps.map fun p => s.regionAt p.rhome
  let atHead := (ps.zip gs).all fun x => match x.2 with
    | some g => ((s.admitHead g).map fun h => ps.any fun p => p.no == h.no).getD false
    | none => true
  if !atHead then s
  else
    let st := firstNonzero ((ps.zip gs).map fun x => (x.2.map fun g => g.cidRow x.1.cid).getD stFormat)
    if st != 0 then ps.foldl (fun s p => s.endPacket p st) s
    else
      let loading := (ps.zip gs).any fun x => (x.2.map fun g => (g.armedCid x.1.cid).isNone).getD false
      let cores := gs.flatMap fun g => (g.map fun g => g.cores).getD []
      let seats := cores.all fun c => decide ((s.seatsOn c).length + (cores.filter fun x => x == c).length ≤ Config.seats)
      let job := (ps.head?.map Pkt.job).getD 0
      let tenant := (ps.head?.map fun p => p.tenant).getD 0
      let entry := (s.job? (jobKey tenant job)).isSome || decide (s.plat.jobs.length < 64)
      if loading || !seats || !entry || !s.listed tenant job || s.tdispOf tenant == .unlocked || s.tdispOf tenant == .locked then s
      else (ps.zip gs).foldl (fun s x => match x.2 with
        | some g => s.seatNow x.1 g job
        | none => s) s

/-- R323, R334, R421: a resume request at the head: its context takes seats again. -/
def State.grantRestore (s : State) (p : Pkt) (g : Region) : State :=
  match s.ctx? p.tctx with
  | none => s.endPacket p stExtentBound
  | some c =>
    if (g.cores.any fun k => decide (Config.seats ≤ (s.seatsOn k).length)) || s.tdispOf p.tenant == .unlocked || s.tdispOf p.tenant == .locked then s
    else (s.modRegion g.home fun g => { g with admitq := g.admitq.filter fun n => n != p.no }).beginRestore c (s.newSeats g.cores)

/-- ADMISSION_GRANT, R319: the head of a region's FIFO. -/
def execAdmissionGrant (home : Nat) (s : State) : Host.Outcome State Fault Refusal :=
  match s.regionAt home with
  | none => .next s
  | some g => match s.admitHead g with
    | none => .next s
    | some p => if p.typ == typPreempt then .next (s.grantRestore p g) else .next (s.grantPkts (s.gangOf p))

/-! ## TRANSLATING (R289 to R291, R316, R322) -/

/-- R312, R316: a pipe or object address of a context: its local place, or the status. -/
def State.bankPlace (s : State) (c : Ctx) (n addr : Nat) : Except Nat Nat :=
  let a := BitVec.ofNat 64 addr
  if !spaceFields a then .error stBadSpace
  else if spaceOf a != 1 && spaceOf a != 2 then .error stFormat
  else match s.resolve { core := c.home, ctx := c.id } { spaces := [1, 2], read := false } a n with
    | .ok t => .ok (paLocal (firstPa t.parts))
    | .error st => .error st

/-- R289, R291: the ranges of a packet whose pages are walked: descriptors 0 to 11 of KIND 0 and, as 12, the argument block:
number, first and last byte. -/
def Pkt.walkRanges (p : Pkt) : List (Nat × Nat × Nat) :=
  ((enumL ((List.range 12).map p.range)).filterMap fun w =>
    if rangeV w.2 && rangeKind w.2 == 0 && decide (rangeAddr w.2 + rangeLen w.2 ≤ 2 ^ 48) then
      some (w.1, rangeAddr w.2, rangeAddr w.2 + rangeLen w.2 - 1) else none) ++ [(12, p.args, p.args + 127)]

/-- R291: the pages of a range as far as they have been walked, and the first address that has not. -/
def Pkt.pagesOf (p : Pkt) (i lo last : Nat) : List (Nat × WalkEnd) × Option Nat :=
  pagesBy (fun va => (p.walked.find? fun w => w.1 == i && w.2.1 == va).map fun w => w.2.2) last ((last - lo) / 4096 + 2) lo

/-- The next page of a packet to be walked: range and address. -/
def Pkt.toWalk (p : Pkt) : Option (Nat × Nat) :=
  p.walkRanges.findSome? fun r => (p.pagesOf r.1 r.2.1 r.2.2).2.map fun va => (r.1, va)

/-- R287, R291: the Dispatcher reads the next entry of a page's walk, as one event. -/
def State.walkPkt (s : State) (p : Pkt) (i va : Nat) : State :=
  let x := s.walkOn false p.tenant va ((p.walk.map fun w => w.2.2).getD {})
  match x.1 with
  | .inl pos => x.2.modPkt p.no fun p => { p with walk := some (i, va, pos) }
  | .inr e => x.2.modPkt p.no fun p => { p with walk := none, walked := p.walked ++ [(i, va, e)] }

/-- R316: the range row: descriptor `i`, with the extent it builds. -/
def State.rangeRow (s : State) (p : Pkt) (c : Ctx) (i w : Nat) : Except Nat (Option Extent) :=
  if !rangeV w then .ok none
  else match rangeKind w with
    | 0 => (s.buildExtent (p.pagesOf i (rangeAddr w) (rangeAddr w + rangeLen w - 1)).1 c.tenant (rangeAddr w) (rangeLen w) (rangePerm w) false).map some
    | 1 => (s.buildExtent [] c.tenant (rangeAddr w) (rangeLen w) (rangePerm w) true).map some
    | k => (s.bankPlace c (if k == 2 then 64 else 8) (rangeAddr w)).map fun _ => none

/-- The first failure of a list of checks, or what they answer. -/
def allOk {α : Type} : List (Except Nat α) → Except Nat (List α)
  | [] => .ok []
  | .error st :: _ => .error st
  | .ok x :: l => (allOk l).map fun ys => x :: ys

/-- R289, R321: e12: the argument block; one whose page is not mapped is refused too. DEDUCED (log 97). -/
def State.argsExtent (s : State) (p : Pkt) : Except Nat Extent :=
  let ps := (p.pagesOf 12 p.args (p.args + 127)).1
  match s.buildExtent ps p.tenant p.args 128 1 false with
  | .error st => .error st
  | .ok x => if ps.any fun q => q.2 == .absent then .error stPerm else .ok x

/-- R290: a system extent of the device. DEDUCED (log 97). -/
def systemExtent (base len : Nat) : Extent :=
  { v := true, kind := 0, perm := 3, len := len, enc := true,
    chunks := (List.range (len / 0x200000)).map fun i => ownPa (base + i * 0x200000) }

/-- R322, R345: the physical bytes of a range that a launch binds: those of a direct extent, or of a copy-only range's pages as
they were walked. DEDUCED (log 161). -/
def State.boundBytes (s : State) (p : Pkt) (i w : Nat) (x : Extent) : List (Nat × Nat) :=
  let ps : List (Loc × Nat) := if x.kind == 0 then (chunkParts x 0 (fun _ => 0) 65 0 (rangeLen w) 0).map fun y => (y.1, y.2.1)
    else
      let last := rangeAddr w + rangeLen w - 1
      (p.pagesOf i (rangeAddr w) last).1.filterMap fun y => match y.2 with
        | .leaf leaf size pkg => some (s.leafLoc p.tenant leaf size pkg y.1, pageSpan last y.1 y.2)
        | _ => none
  ps.filterMap fun y => match y.1 with
    | .mem pa _ _ => some (s.absPa pa, s.absPa pa + y.2 - 1)
    | _ => none

/-- R289 to R291, R316, R322: everything that TRANSLATING checks and builds for one packet. DEDUCED (log 161). -/
def State.translatePkt (s : State) (p : Pkt) (c : Ctx) (n : Nat) : Except Nat State :=
  let ws := (List.range 12).map p.range
  match allOk ((enumL ws).map fun w => s.rangeRow p c w.1 w.2), s.argsExtent p with
  | .error st, _ => .error st
  | .ok _, .error st => .error st
  | .ok xs, .ok args =>
    let place (n w : Nat) : Nat := match s.bankPlace c n (rangeAddr w) with
      | .ok a => a
      | .error _ => 0
    let pipes := (ws.filter fun w => rangeV w && rangeKind w == 2).map fun w => (rangeQn w, place 64 w)
    let objs := (enumL ws).filter fun w => rangeV w.2 && rangeKind w.2 == 0 && rangeObj w.2 != 0
    if pipes.any fun q => !pipeOk (s.pipeWord q.2) then .error stFormat
    else if 16 < objs.length then .error stExtentBound
    else match s.poolFind c.tenant (spillBytes n) [] with
      | none => .error stExtentBound
      | some a => match s.poolFind c.tenant (logBytes n) [(a, spillBytes n)] with
        | none => .error stExtentBound
        | some b =>
          let trace := (enumL ws).find? fun w => rangeV w.2 && rangeTrb w.2
          let e13 : Extent := match trace.bind fun w => (xs[w.1]?).bind id with
            | some x => { x with perm := 3 }
            | none => {}
          let exts := xs.map (fun x => x.getD {}) ++ [args, e13, systemExtent a (spillBytes n), systemExtent b (logBytes n)]
          let binds := objs.map fun w =>
            (s.absPa (ownPa (place 8 (ws.getD (rangeObj w.2 - 1) 0))), s.boundBytes p w.1 w.2 (exts.getD w.1 {}))
          .ok (s.modCtx c.id fun c =>
            { c with extents := exts, pipes := pipes, binds := binds
                     regs := { c.regs with hist := 0x0E00000000000000, trace := if trace.isSome then 0x0D00000000000000 else 0 } })

/-- R250: the blocks named by in-ports with FPOL 0, each with the instances whose home this package is. -/
def State.fixedBlocks (s : State) (c : Ctx) : List Nat :=
  match s.cslot? c.home c.cslot with
  | none => []
  | some k => (List.range 64).filter fun b => k.inports.any fun w => !bindNewFrame w && bindBlock w == b

/-- R247, R248: the instances that live on this package, ascending. -/
def State.instances (s : State) (c : Ctx) : List Nat :=
  (List.range (instCount c.levels)).filter fun i => (s.instHome c i).1 == s.plat.pkg

/-- R250: the core of an instance's fixed frame of a block. -/
def State.holderFor (s : State) (c : Ctx) (i block : Nat) : Option Nat :=
  let home := (s.instHome c i).2
  if s.holds home c.cslot block then some home
  else (((s.regionAt c.home).map fun g => g.cores).getD []).find? fun k => s.holds k c.cslot block

/-- R250: asks for the fixed frames of every instance, in ascending order. -/
def State.askFixed (s : State) (c : Ctx) : State :=
  let blocks := s.fixedBlocks c
  (s.instances c).foldl (fun s i => blocks.foldl (fun s b => match s.holderFor c i b with
    | none => s
    | some k => s.modFrm k fun u => { u with fifo := u.fifo ++
        [{ site := { core := k, ctx := c.id }, why := .admission c.pkt, ctx := c.id, cslot := c.cslot, block := b,
           inst := coordsOf c.levels i, node := i }] }) s) s

/-- R395: the header of every core's part of a context's spill area starts with no entry in use and none lost. -/
def State.clearHeads (s : State) (c : Ctx) : State :=
  (((s.regionAt c.home).map fun g => g.cores).getD []).foldl (fun s k => s.histClear { core := k, ctx := c.id } 0 0) s

/-- R315: a translated packet is PLACING; a context of a halted job begins frozen. -/
def State.startPlacing (s : State) (p : Pkt) (c : Ctx) : State :=
  let halted := ((s.job? c.jobKey).map fun j => j.state != .running).getD false
  let s := s.modPkt p.no fun p => { p with state := .placing }
  let s := s.modCtx c.id fun c =>
    { c with mode := if halted then .frozen else .running, settled := true, froze := s.wall
             frozenAt := if halted then c.seats.map fun k => (k.1, s.clk k.1) else [] }
  (s.clearHeads c).askFixed c

/-- R316: a context that was granted and is rejected leaves no trace. -/
def State.undo (s : State) (p : Pkt) (st : Nat) : State :=
  let c := (s.ctx? p.ctx).getD {}
  let s := { s with ctxs := s.ctxs.filter fun c => c.id != p.ctx }
  let s := if s.ctxs.any fun x => x.jobKey == c.jobKey then s
    else s.modPlat fun q => { q with jobs := q.jobs.filter fun j => j.key != c.jobKey }
  s.endPacket p st

/-- R316, R320: translates the members of a launch or gang in packet order, or answers the first failing status. -/
def State.translateAll (s : State) : List Pkt → Except Nat State
  | [] => .ok s
  | p :: ps =>
    match s.ctx? p.ctx with
    | none => s.translateAll ps
    | some c =>
      let n := ((s.regionAt c.home).map fun g => g.cores.length).getD 0
      match s.translatePkt p c n with
      | .error st => .error st
      | .ok s => s.translateAll ps

/-- EXTENT_BUILD, R287, R291, R315, R320: packet i, or the gang whose head it is: the next entry of a page's walk is read; with
every page walked, the extents are built. -/
def execExtentBuild (i : Nat) (s : State) : Host.Outcome State Fault Refusal :=
  match s.pkt? i with
  | none => .next s
  | some p =>
    if p.state != .translating || (p.gang.isSome && p.gang != some p.no) then .next s
    else
      let ps := s.gangOf p
      match ps.findSome? fun p => p.toWalk.map fun w => (p, w) with
      | some (q, i, va) => .next (s.walkPkt q i va)
      | none => match s.translateAll ps with
        | .error st => .next (ps.foldl (fun s p => s.undo p st) s)
        | .ok s => .next (ps.foldl (fun s p => match s.ctx? p.ctx with
          | some c => s.startPlacing p c
          | none => s) s)

/-! ## PLACING (R321) -/

/-- R321: the core at which an instance takes argument word 0; none where the graph does not. -/
def State.argCore (s : State) (c : Ctx) (i : Nat) : Option Nat :=
  match (s.cslot? c.home c.cslot).bind fun k => k.port? 0 with
  | none => none
  | some w => if bf w.toNat 31 1 == 0 then none else s.holderFor c i (bindBlock w)

/-- R321: the read of argument word 0 sets out: through e12, or through the tenant's tables where e12 is copy-only. -/
def State.askArg (s : State) (p : Pkt) (c : Ctx) : State :=
  let id := s.ms.reqSeq
  let s := s.visit c.tenant (.visit .arg) (some (p.no, 0, 0)) { va := ((c.extents[12]?).map fun (x : Extent) => x.vbase).getD 0 }
  match s.resolve { core := c.home, ctx := c.id } { device := true } 0x0C00000000000000 8 with
  | .error _ => s
  | .ok t =>
    let ps : List Piece := t.parts.map fun q => { place := q.1, len := q.2.1, off := q.2.2 }
    let s := s.modReq id fun r => { r with reach := none, pieces := ps, pieces0 := ps, paddr := firstPa t.parts }
    match s.req? id with
    | some r => s.sendOut r
    | none => s

/-- R321: argument word 0, or poison with the read's status and RHOME as origin, goes to an instance's core. -/
def State.injectArg (s : State) (c : Ctx) (i core : Nat) (r : Req) : State :=
  let site : Site := { core := c.home, ctx := c.id, prio := s.eff c.id }
  let t := if r.status == 0 then scalarTok site (BitVec.ofNat 64 (leNat (Memory.getMany r.got 0 8))) else poisonTok s site r.status
  s.push core { tok := t, core := core, epkg := s.plat.pkg, ecore := c.home, ectx := c.id, dst := .inject 0 c.id i }

/-- ARGUMENT_INJECTION, R315, R321: the next instance of packet i whose fixed frames are granted: its argument word is asked for,
then injected; with the last one the packet is RUNNING. -/
def execArgumentInjection (i : Nat) (s : State) : Host.Outcome State Fault Refusal :=
  match s.pkt? i with
  | none => .next s
  | some p =>
    match s.ctx? p.ctx with
    | none => .next s
    | some c =>
      if p.state != .placing || c.mode != .running then .next s
      else
        let insts := s.instances c
        let injected (s : State) : State := s.modPkt i fun p =>
          { p with injected := p.injected + 1, state := if p.injected + 1 == insts.length then .running else .placing }
        match insts[p.injected]? with
        | none => .next (s.modPkt i fun p => { p with state := .running })
        | some n =>
          if (s.fixedBlocks c).all fun b => c.fixed.any fun f => f.1 == b && f.2.1 == n then
            match s.argCore c n, s.visitOf .arg (some (i, 0, 0)) with
            | none, _ => .next (injected s)
            | some _, none => .next (s.askArg p c)
            | some core, some r => if r.done then .next (injected ((s.dropReq r.id).injectArg c n core r)) else .next s
          else .next s

/-! ## Other packet types (R323) -/

/-- R315, R316: a packet judged by the first row only, and a pre-emption request also against its target's tenant. -/
def State.checkOther (s : State) (p : Pkt) : Nat :=
  if !p.rowOne then stFormat
  else if p.typ == typPreempt && ((s.ctx? p.tctx).map fun c => c.tenant != p.tenant).getD false then stPerm
  else 0

/-- A packet that is no launch: CHECKED to WAITING or DONE; then, its dependences met, its action. -/
def State.otherPacket (s : State) (i : Nat) (mine : Pkt → Bool) (k : State → Pkt → State) : State :=
  match s.pkt? i with
  | none => s
  | some p =>
    if !mine p then s
    else if p.state == .checked then
      (let st := s.checkOther p
       if st == 0 then s.toWaiting [p] else s.endPacket p st)
    else if p.met then k s p else s

/-- R323: the end of a configuration load: the completion word goes to CWORD + 8; the arrival follows it. -/
def State.endLoad (s : State) (p : Pkt) (w : Word) : State :=
  (s.modPkt p.no fun p => { p with word := w }).visit p.tenant (.visit (.load 2)) (some (p.no, 0, 0))
    { va := p.cword + 8, need := 2, op := .write (leBytes 8 w.toNat) }

/-- R323: a configuration load asks for the first `n` bytes of its image: the header (stage 0), then all of it (stage 1). DEDUCED (log 96). -/
def State.askImage (s : State) (p : Pkt) (stage n : Nat) : State :=
  s.visit p.tenant (.visit (.load stage)) (some (p.no, 0, 0)) { va := p.args, len := n }

/-- R53, R323, R229: what a configuration load asked for has come: it reads on, judges its image and takes the slot, or ends. DEDUCED (log 96). -/
def State.loadOn (s : State) (p : Pkt) (stage : Nat) (r : Req) : State :=
  let s := s.dropReq r.id
  let h := leNat (Memory.getMany r.got 0 32)
  if stage == 2 then s.endPacket p (bf p.word.toNat 56 8)
  else if r.status != 0 then s.endLoad p (BitVec.ofNat 64 (r.status * 2 ^ 56))
  else if stage == 0 then (if headOk h p.slot then s.askImage p 1 (headLength h) else s.endLoad p (Bad.word { reason := .header }))
  else
    let ld : Load := { slot := p.slot, priv := false, tenant := p.tenant, rhome := some p.rhome }
    let bs := Memory.getMany r.got 0 (headLength h)
    match s.judge ld bs with
    | .good m bs => (s.claim p.tenant p.slot m).modPkt p.no fun p => { p with image := bs }
    | .bad w none => s.endLoad p w
    | .bad w (some m) => (s.claim p.tenant p.slot m).modPkt p.no fun p => { p with image := bs, word := w }
    | .unread st => s.endLoad p (BitVec.ofNat 64 (st * 2 ^ 56))

/-- The access of a configuration load that is under way or over, with its stage. -/
def State.loadVisit (s : State) (p : Pkt) : Option (Nat × Req) :=
  [0, 1, 2].findSome? fun k => (s.visitOf (.load k) (some (p.no, 0, 0))).map fun r => (k, r)

/-- CONFIGURATION_LOAD, R323. -/
def execConfigurationLoad (i : Nat) (s : State) : Host.Outcome State Fault Refusal :=
  .next (s.otherPacket i (fun p => p.typ == typLoad && p.gang.isNone) fun s p =>
    if p.state == .waiting then (s.modPkt p.no fun p => { p with state := .running }).askImage p 0 32
    else match s.loadVisit p with
    | some (k, r) => if r.done then s.loadOn p k r else s
    | none =>
      let m := imageOfBytes p.image
      -- R53: a failing load leaves its slot empty
      if p.word != 0 then (s.unclaim (m.region.headD 0) p.slot).endLoad p p.word
      else (s.armSlot (m.region.headD 0) p.slot m).endLoad p 0)

/-- BARRIER, R323. -/
def execBarrier (i : Nat) (s : State) : Host.Outcome State Fault Refusal :=
  .next (s.otherPacket i (fun p => p.typ == typBarrier && p.gang.isNone) fun s p => s.endPacket p 0)

/-- R323: the live or saved context that a request names. -/
def State.target (s : State) (p : Pkt) : Option Ctx := (s.ctx? p.tctx).filter fun c => c.tenant == p.tenant

/-- R323: a context that has been placed: its packet is RUNNING. -/
def State.placed (s : State) (c : Ctx) : Bool := s.disp.pkts.all fun p => p.no != c.pkt || p.ctx != c.id || p.state == .running

/-- PREEMPT_SAVE, R323, R362, R363: takes a save area; the freeze and the save follow. -/
def execPreemptSave (i : Nat) (s : State) : Host.Outcome State Fault Refusal :=
  .next (s.otherPacket i (fun p => p.typ == typPreempt && p.action == actSave && p.gang.isNone) fun s p =>
    match s.target p with
    | none => s.endPacket p stExtentBound
    | some c =>
      if p.state == .running then s
      else if c.mode == .saved then s.endPacket p 0
      else if c.mode == .building || c.mode == .restoring || !s.placed c || (s.asked c.id actSave).isSome then s
      else
        let size := Config.saveBytes c.seats.length
        match s.poolFind c.tenant size [] with
        | none => s.endPacket p stExtentBound
        | some a => (s.modCtx c.id fun c => { c with saved := { c.saved with base := a, size := size } }).modPkt p.no
            fun p => { p with state := .running })

/-- PREEMPT_RESUME, R323, R362: the saved context enters its region's admission FIFO. -/
def execPreemptResume (i : Nat) (s : State) : Host.Outcome State Fault Refusal :=
  .next (s.otherPacket i (fun p => p.typ == typPreempt && p.action == actRestore && p.gang.isNone) fun s p =>
    match s.target p with
    | none => s.endPacket p stExtentBound
    | some c =>
      if p.state == .running || c.mode == .restoring || (s.asked c.id actSave).isSome || (s.asked c.id actRestore).isSome then s
      else if c.mode != .saved then s.endPacket p 0
      else (s.modPkt p.no fun p => { p with state := .running }).modRegion c.home fun g => { g with admitq := g.admitq ++ [p.no] })

/-- PREEMPT_ABANDON, R323, R266, R372; it also rejects a request of the reserved action. -/
def execPreemptAbandon (i : Nat) (s : State) : Host.Outcome State Fault Refusal :=
  .next (s.otherPacket i (fun p => p.typ == typPreempt && decide (actAbort ≤ p.action) && p.gang.isNone) fun s p =>
    match s.target p with
    | none => s.endPacket p stExtentBound
    | some c => (s.abandon c.id).endPacket p 0)

end Sys2Proof.Machine
end

