-- ==== Sys2Proof/Machine/Translation.lean ====
section
/-! DEFINITION. The translation service: walks that answer TLB misses (R294, R295), the fault queue and its replies
(R433, R434), invalidations (R296) and page migration (R297). -/

namespace Sys2Proof.Machine

/-! ## Commands stalled on a page -/

/-- Changes the engine records of a core's number, running, frozen or saved. -/
def State.mapEngs (s : State) (f : Nat → Eng → Eng) : State :=
  let fixCtx (c : Ctx) : Ctx := { c with saved := { c.saved with engs := c.saved.engs.map fun x => (x.1, f x.1 x.2.1, x.2.2) } }
  { s with cores := (enumL s.cores).map (fun k => { k.2 with eng := { k.2.eng with recs := k.2.eng.recs.map (f k.1) } })
           ctxs := s.ctxs.map fixCtx }

/-- Changes the commands of a tenant that a die's cores have stalled on a page. -/
def State.onStalled (s : State) (die tenant page : Nat) (f : Eng → Eng) : State :=
  s.mapEngs fun core e => if dieOf core == die && e.stall == some page && s.tenantOf e.site.ctx == tenant then f e else e

/-- The copy engines of a die go on. -/
def State.pumpDie (s : State) (die : Nat) : State :=
  (List.range 32).foldl (fun s k =>
    if (s.core (die * 32 + k)).eng.recs.isEmpty then s else s.copyPump (die * 32 + k)) s

/-- R216, R295: the stalled commands fail. -/
def State.failStalled (s : State) (die tenant page st : Nat) : State :=
  (s.onStalled die tenant page fun e =>
    { e with fail := if e.fail == 0 then st else e.fail, todo := [], pos := e.total, stall := none, trans := [] }).pumpDie die

/-- The stalled commands form their runs again, with the translation that they waited for (R295). -/
def State.retryStalled (s : State) (die tenant page : Nat) (t : Tlb) : State :=
  s.onStalled die tenant page fun e => { e with stall := none, trans := e.trans ++ [t] }

/-! ## Fault queue (R433) -/

/-- R295: an absent entry: a record goes to the tenant's fault queue. -/
def State.fault (s : State) (w : Walk) : State :=
  let vf := w.tenant + 1
  let s := s.modVf vf fun v => { v with faults := v.faults ++ [{ va := w.va, access := w.access, die := w.die }] }
  s.writeFault vf

/-! ## Walks -/

/-- R294, R295: what a walk has found acts on every run that waits for it; other walks of the same page end with it. -/
def State.endWalk (s : State) (w : Walk) (x : WalkEnd) : State :=
  let drop (ws : List Walk) (s : State) : State := s.modMs fun m => { m with walks := m.walks.filter fun y => !ws.contains y }
  match x with
  | .leaf leaf size pkg =>
    let t : Tlb := { die := w.die, tenant := w.tenant, va := w.va / size * size, size := size, leaf := BitVec.ofNat 64 leaf, pkg := pkg }
    let ws := s.ms.walks.filter fun y => y == w || (!y.faulted && y.die == w.die && y.tenant == w.tenant && y.va / size * size == t.va)
    (ws.foldl (fun s y => s.retryStalled y.die y.tenant y.va t) ((drop ws s).fillTlb t)).pumpDie w.die
  | .malformed => (drop [w] s).failStalled w.die w.tenant w.va stPageFault
  | .failed st => (drop [w] s).failStalled w.die w.tenant w.va st
  | .absent =>
    (s.modMs fun m => { m with walks := m.walks.map fun y => if y == w then { y with faulted := true } else y }).fault w

/-- R287: a walk reads its next entry, as one event. -/
def State.stepWalk (s : State) (w : Walk) : State :=
  let x := s.walkOn false w.tenant w.va w.pos
  match x.1 with
  | .inl pos => x.2.modMs fun m => { m with walks := m.walks.map fun y => if y == w then { y with pos := pos } else y }
  | .inr e => x.2.endWalk w e

/-- R288: what goes back to a package that forwarded a walk: the final leaf, or none where the walk fails. -/
def servedLeaf (e : WalkEnd) : Option Nat :=
  match e with
  | .leaf w _ _ => some w
  | .absent => some 0
  | _ => none

/-- R287, R288: a walk forwarded here reads its next entry, as one event; a REMOTE leaf, or no tables, ends it in failure. -/
def State.stepFarWalk (s : State) (i : Nat) (w : FarWalk) : State :=
  let x := s.walkOn true w.tenant w.va w.pos
  let e := if (s.tenant? w.tenant).isNone then .inr .malformed else x.1
  match e with
  | .inl pos => x.2.modMs fun m => { m with farWalks := m.farWalks.set i { w with pos := pos } }
  | .inr e => (x.2.modMs fun m => { m with farWalks := m.farWalks.eraseIdx i }).send (.leaf w.pkg w.tenant w.va (servedLeaf e))

/-- TRANSLATION_WALK, R287, R288, R294, R295: the i-th of a service's walks, up to 16 at a time in arrival order, reads an entry;
after them stand the walks of other packages. DESIGN CHOICE (log 175). -/
def execTranslationWalk (i : Nat) (s : State) : Host.Outcome State Fault Refusal :=
  let ws := s.ms.walks.filter fun w => !w.faulted
  match ws[i]? with
  | none => match s.ms.farWalks[i - ws.length]? with
    | some w => .next (s.stepFarWalk (i - ws.length) w)
    | none => .next s
  | some w =>
    let ahead := ((ws.filter fun x => x.die == w.die).takeWhile fun x => x != w).length
    if 16 ≤ ahead then .next s else .next (s.stepWalk w)

/-- R434: the outstanding record that a reply names; it leaves the queue, with the walk that waits on it. DEDUCED (log 118). -/
def State.replied (s : State) (vf seq : Nat) : Option (Walk × State) :=
  if s.plat.boot != .ready || (s.vf vf).tdisp == .error then none
  else match (s.vf vf).faults.find? fun r => r.seq == some seq with
    | none => none
    | some r =>
      let s := s.modVf vf fun v => { v with faults := v.faults.erase r }
      (s.ms.walks.find? fun w => w.faulted && w.die == r.die && w.tenant + 1 == vf && w.va == r.va).map fun w => (w, s)

/-- FQREPLY RETRY, R295, R434: the service walks again. -/
def execFqreplyRetry (vf : Nat) (seq : BitVec 32) (s : State) : Host.Outcome State Fault Refusal :=
  match s.replied vf seq.toNat with
  | none => .next s
  | some (w, s) => .next (s.modMs fun m => { m with walks := (m.walks.erase w) ++ [{ w with faulted := false, pos := {} }] })

/-- FQREPLY ABORT, R295, R434: the stalled commands fail. -/
def execFqreplyAbort (vf : Nat) (seq : BitVec 32) (s : State) : Host.Outcome State Fault Refusal :=
  match s.replied vf seq.toNat with
  | none => .next s
  | some (w, s) => .next ((s.modMs fun m => { m with walks := m.walks.erase w }).failStalled w.die w.tenant w.va stPageFault)

/-! ## Invalidation (R296) -/

def overlap (a n b m : Nat) : Bool := decide (a < b + m) && decide (b < a + n)

/-- The runs of a tenant's commands that have been formed and not performed, by core: command and run. DEDUCED (log 116). -/
def State.openRuns (s : State) (tenant : Nat) : List (Nat × Eng × Nat) :=
  let live := (enumL s.cores).flatMap fun k => k.2.eng.recs.map fun e => (k.1, e)
  let kept := s.ctxs.flatMap fun c => c.saved.engs.map fun x => (x.1, x.2.1)
  ((live ++ kept).filter fun x => x.2.kind == .copy && s.tenantOf x.2.site.ctx == tenant).flatMap fun x =>
    ((x.2.moves ++ x.2.todo).map fun m => m.run).eraseDups.map fun r => (x.1, x.2, r)

/-- The runs that used a translation in a range. -/
def State.runsIn (s : State) (tenant va len : Nat) : List (Nat × Nat × Nat) :=
  ((s.openRuns tenant).filter fun r => (s.runVas r.2.1 r.2.2).any fun v => overlap v.1 v.2 va len).map fun r => (r.1, r.2.1.seq, r.2.2)

/-- R296: what the translation service and the runs that form hold of a range is dropped; walks of it start anew. -/
def State.dropRange (s : State) (tenant va len : Nat) : State :=
  let hit (t : Tlb) : Bool := t.tenant == tenant && overlap t.va t.size va len
  (s.mapEngs fun _ e => { e with trans := e.trans.filter fun t => !hit t }).modMs fun m =>
    { m with tlb := m.tlb.filter fun t => !hit t
             walks := m.walks.map fun w => if !w.faulted && w.tenant == tenant && overlap (w.va / 4096 * 4096) 4096 va len then
               { w with pos := {} } else w }

/-- TLB_INVALIDATE, R296: drops the entries of a range; once every run that used one has performed, a further turn of the
same invalidation completes it. DEDUCED (log 116). -/
def execTlbInvalidate (tenant : Nat) (va : Nat) (len : Nat) (s : State) : Host.Outcome State Fault Refusal :=
  let same (x : Inval) : Bool := x.tenant == tenant && x.va == va && x.len == len
  let left (runs : List (Nat × Nat × Nat)) : List (Nat × Nat × Nat) :=
    let now := (s.openRuns tenant).map fun r => (r.1, r.2.1.seq, r.2.2)
    runs.filter fun r => now.contains r
  let x : Inval := match s.ms.invals.find? same with
    | some x => { x with runs := left x.runs }
    | none => { tenant := tenant, va := va, len := len, runs := s.runsIn tenant va len }
  let s := if s.ms.invals.any same then s else s.dropRange tenant va len
  let s := s.modMs fun m =>
    { m with invals := if x.runs.isEmpty then m.invals.filter fun y => !same y else x :: m.invals.filter fun y => !same y }
  .next (if x.runs.isEmpty then s.send (.invalidated tenant va len) else s)

/-! ## Migration (R297) -/

/-- Where the leaf entry of a page lies in the tables. -/
def State.leafEntry (s : State) (va : Nat) : Nat → Nat → Option Nat
  | 0, _ => none
  | k + 1, table =>
    let i := va / 2 ^ (12 + 9 * k) % 512
    let w := s.tableWord table i
    if bf w 63 1 == 0 then none
    else if leafSize w == 15 then s.leafEntry va k (bf w 24 32 * 2 ^ 12)
    else some (table + 8 * i)

/-- Copies a sector to another frame, decrypted and encrypted anew (R422), with its tag and a standing error. DEDUCED (log 120). -/
def State.moveSector (s : State) (src dst kOld kNew : Nat) : State :=
  let bs := (List.range 32).map fun i => keyByte s (src + i) kOld
  let tag := Table.get s.ms.tags (src / 32)
  let e := Table.get s.ms.errs (src / 32)
  let s := (s.writePhys dst bs tag kNew).2
  s.modMs fun m => { m with errs := Table.set m.errs (dst / 32) e }

/-- R297 steps 3 to 5: content, leaf, TLB entries and pool. DEDUCED (log 120). -/
def State.migrate (s : State) (tenant va leaf entry dst : Nat) : State :=
  let src := leafAddr leaf
  let kOld := s.keyFor tenant src (leafEnc leaf)
  let kNew := s.keyFor tenant dst (leafEnc leaf)
  let s := (List.range 65536).foldl (fun s i => s.moveSector (src + 32 * i) (dst + 32 * i) kOld kNew) s
  let new := leaf - bf leaf 16 24 * 2 ^ 16 + dst / 2 ^ 20 * 2 ^ 16
  let s := (s.writePhys entry (leBytes 8 new) (Table.get s.ms.tags (entry / 32)) (Table.get s.ms.keys (entry / 32))).2
  (s.dropRange tenant (va / 2 ^ 21 * 2 ^ 21) (2 ^ 21)).modMs fun m => { m with freePages := m.freePages.erase dst ++ [src] }

/-- R297: a page that a chunk of a live extent names. -/
def State.pageNamed (s : State) (pa : Nat) : Bool :=
  s.ctxs.any fun c => c.extents.any fun x => x.v && x.kind == 0 && x.chunks.any fun w =>
    s.isLocal w && overlap (paLocal w) (if x.ps == 0 then 2 ^ 21 else 2 ^ 30) pa (2 ^ 21)

/-- R297 step 2: no translated access to a page is still to perform. -/
def State.pageQuiet (s : State) (pa : Nat) : Bool :=
  let hits (l : Loc) (n : Nat) : Bool := match l with
    | .mem a _ _ => s.isLocal a && overlap (paLocal a) n pa (2 ^ 21)
    | _ => false
  let engs := (s.cores.flatMap fun k => k.eng.recs) ++ s.ctxs.flatMap fun c => c.saved.engs.map fun x => x.2.1
  engs.all (fun e => (e.moves ++ e.todo).all fun m => !hits m.dst m.len && (m.src0 ++ m.src).all fun x => !hits x.1 x.2.1) &&
    s.ms.reqs.all fun r => (r.pieces.flatMap Piece.spans).all fun q => !hits q.1 q.2.1

/-- PAGE_MIGRATION, R297: moves a 2 MiB page between HBM and the second tier to a frame of the pool, once accesses already
translated have performed. -/
def execPageMigration (tenant : Nat) (va : Nat) (dst : Nat) (s : State) : Host.Outcome State Fault Refusal :=
  match s.walk tenant va, (s.tenant? tenant).bind fun t => s.leafEntry va 4 t.root with
  | .leaf leaf size pkg, some entry =>
    let src := leafAddr leaf
    let between := decide (src < hbmTop) != decide (dst < hbmTop) && (decide (src < hbmTop) || decide (tier2Base ≤ src)) &&
      (decide (dst < hbmTop) || decide (tier2Base ≤ dst)) && s.localOk dst && dst % 2 ^ 21 == 0
    if size == 2 ^ 21 && pkg == 0xFFF && !leafHost leaf && between && s.ms.freePages.contains dst && !s.pageNamed src && s.pageQuiet src then
      .next (s.migrate tenant va leaf entry dst)
    else .next s
  | _, _ => .next s

end Sys2Proof.Machine
end

