-- ==== Sys2Proof/Machine/HostPort.lean ====
section
/-! DEFINITION. The host port: register writes of the physical and virtual functions (R304, R410, R429 to R433), and
accesses through the window apertures (R431). -/

namespace Sys2Proof.Machine

/-! ## Physical function (R429, R410) -/

/-- R410: a write of a die's RAS block: a counter is cleared by a write of zero, CE_GUARD and PF_LIMIT are written, PFAIL
is cleared by ones. -/
def State.writeRas (s : State) (die off v : Nat) : State :=
  s.modDie die fun d => match off with
    | 0x00 => { d with ceNom := if v == 0 then 0 else d.ceNom }
    | 0x08 => { d with ceLow := if v == 0 then 0 else d.ceLow }
    | 0x10 => { d with ue := if v == 0 then 0 else d.ue }
    | 0x18 => { d with residue := if v == 0 then 0 else d.residue }
    | 0x20 => { d with route := if v == 0 then 0 else d.route }
    | 0x30 => { d with guard := v }
    | 0x38 => { d with pfLimit := v }
    | 0x40 => { d with pf := d.pf && v % 2 == 0 }
    | _ => d

/-- R429: PKG_LIMIT is clamped; the mailbox holds 512 words. -/
def State.writePf (s : State) (off : Nat) (v : Word) : State :=
  if off == 0x8 then s.modPlat fun p => { p with limit := min 3200 (max 1600 v.toNat) }
  else if 0x1000 ≤ off && off < 0x2000 then
    s.modPlat fun p => { p with mailbox := (p.mailbox ++ List.replicate (512 - p.mailbox.length) 0).set ((off - 0x1000) / 8) v }
  else if 0x10000 ≤ off && off < 0x10A00 then s.writeRas ((off - 0x10000) / 0x100) (off % 0x100) v.toNat
  else s

/-! ## Virtual functions (R304, R430 to R433) -/

/-- R304: a write of a queue register. -/
def Queue.write (q : Queue) (off : Nat) (v : Word) : Queue :=
  match off with
  | 0x00 => if q.en then q else { q with base := v &&& 0xFFFFFFFFFF00 }
  | 0x08 =>
    { q with en := bf v.toNat 63 1 == 1
             lsize := if q.en then q.lsize else if v.toNat % 16 == 0 then 1 else v.toNat % 16 }
  | 0x20 => { q with errStatus := q.errStatus &&& (255 - bf v.toNat 32 8) }
  | _ => q

/-- R431, R433: the function's own registers; FQHEAD keeps 32 bits. DEDUCED (log 16). DESIGN CHOICE (log 158). -/
def Vf.write (x : Vf) (off : Nat) (v : Word) : Vf :=
  if off == 0x1000 then { x with fqBase := v &&& 0xFFFFFFFFFFE0 }
  else if off == 0x1008 then { x with fqls := if v.toNat % 16 == 0 then 1 else v.toNat % 16 }
  else if off == 0x1010 then { x with fqHead := v.toNat % 2 ^ 32 }
  else if 0x1100 ≤ off && off < 0x1120 then { x with windows := x.windows.set ((off - 0x1100) / 8) (v &&& 0xE000FFFFC0000000) }
  else x

/-- R430: a write of the MSI-X table; a vector that is unmasked while pending sends its message. -/
def State.writeMsix (s : State) (vf off : Nat) (v : Word) : State :=
  if 128 ≤ off then s
  else
    let s := s.modVf vf fun x => { x with msix := x.msix.set (off / 8) v }
    let n := off / 16
    let x := s.vf vf
    if off / 8 % 2 == 1 && bf v.toNat 32 1 == 0 && bf x.pending n 1 == 1 then
      (s.modVf vf fun x => { x with pending := x.pending - 2 ^ n }).send (.msix vf n)
    else s

/-- A read of the front of a queue, whose registers change, is made again. -/
def State.dropFront (s : State) (q : Nat) : State :=
  if (s.disp.reading.map fun r => r.queue) == some q then s
  else s.modMs fun m => { m with reqs := m.reqs.filter fun r => !(r.kind == .visit .packet && (r.disp.map fun x => x.1) == some q) }

/-- R430: BAR2 of a function starts at 2^32 in `off`; below it lies BAR0. -/
def bar2 : Nat := 2 ^ 32

/-- HOST_REGISTER_WRITE, R304, R421, R429 to R433, R444: one write of an aligned 64-bit register; before READY only the mailbox
takes writes, and a function in ERROR takes none. QTAIL and FQREPLY have events of their own. DEDUCED (log 118). -/
def execHostRegisterWrite (fn : Nat) (off : Nat) (value : Word) (s : State) : Host.Outcome State Fault Refusal :=
  if off % 8 != 0 then .next s
  else if fn == 0 then .next (if s.plat.boot == .ready || (0x1000 ≤ off && off < 0x2000) then s.writePf off value else s)
  else if s.plat.boot != .ready || (s.vf fn).tdisp == .error then .next s
  else if bar2 ≤ off then .next (s.writeMsix fn (off - bar2) value)
  else if off < 0x1000 then
    let q := off / 0x40
    if ((s.disp.queues[q]?).map fun x => x.tenant == fn - 1).getD false && (s.tenant? (fn - 1)).isSome then
      .next ((s.dropFront q).modDisp fun d => { d with queues := d.queues.modify q fun x => { x.write (off % 0x40) value with front := none } })
    else .next s
  else
    let s := s.modVf fn fun x => x.write off value
    .next (s.writeFault fn)

/-! ## Reads (R4, R304, R410, R429 to R434, R441) -/

/-- R443: the code of a boot state. -/
def bootNum : Boot → Nat
  | .reset => 0 | .rom => 1 | .hbm => 2 | .repair => 3 | .ready => 4 | .fail => 7

/-- R410: a register of a die's RAS block. -/
def Die.ras (d : Die) (off : Nat) : Nat :=
  match off with
  | 0x00 => d.ceNom | 0x08 => d.ceLow | 0x10 => d.ue | 0x18 => d.residue | 0x20 => d.route
  | 0x28 => (if d.bar then 2 ^ 8 else 0) + d.step
  | 0x30 => d.guard | 0x38 => d.pfLimit | 0x40 => if d.pf then 1 else 0
  | _ => 0

/-- R441: WS_STAT of a die. -/
def Die.wsStat (d : Die) : Nat :=
  d.mhz % 2 ^ 16 * 2 ^ 48 + d.fireN % 2 ^ 8 * 2 ^ 32 + d.rowN % 2 ^ 8 * 2 ^ 24 + d.mw % 2 ^ 24

/-- R429, R437: a register of the physical function; the offset of GTCSTAT stands in two's complement. DEDUCED (log 159). -/
def Platform.reg (p : Platform) (off : Nat) : Nat :=
  if off == 0x0 then p.bootFail % 256 * 2 ^ 56 + bootNum p.boot
  else if off == 0x8 then p.limit
  else if off == 0x10 then (p.offset % 65536).toNat * 2 ^ 16 + if p.lock then 1 else 0
  else if 0x1000 ≤ off && off < 0x2000 then (p.mailbox.getD ((off - 0x1000) / 8) 0).toNat
  else if 0x10000 ≤ off && off < 0x10A00 then (p.dies.getD ((off - 0x10000) / 0x100) {}).ras (off % 0x100)
  else if 0x20000 ≤ off && off < 0x200A0 && off % 0x10 == 0 then (p.dies.getD ((off - 0x20000) / 0x10) {}).wsStat
  else 0

/-- R304: a queue register; QTAIL is write-only and reads zero (R4). -/
def Queue.reg (q : Queue) (off : Nat) : Nat :=
  match off with
  | 0x00 => q.base.toNat
  | 0x08 => (if q.en then 2 ^ 63 else 0) + q.tenant * 2 ^ 32 + q.lsize
  | 0x10 => q.head
  | 0x20 => q.errStatus * 2 ^ 32 + q.errSeq
  | _ => 0

/-- R430 to R434: a register of BAR0 that is the function's own; FQREPLY is write-only and reads zero (R4). -/
def Vf.reg (x : Vf) (off : Nat) : Nat :=
  if off == 0x1000 then x.fqBase.toNat
  else if off == 0x1008 then x.fqls
  else if off == 0x1010 then x.fqHead
  else if off == 0x1018 then x.fqTail
  else if 0x1100 ≤ off && off < 0x1120 then (x.windows.getD ((off - 0x1100) / 8) 0).toNat
  else 0

/-- R430: the MSI-X table of a function, with its pending bits at 0x1000. -/
def Vf.msixReg (x : Vf) (off : Nat) : Nat :=
  if off < 128 then (x.msix.getD (off / 8) 0).toNat else if off == 0x1000 then x.pending else 0

/-- R4, R304, R410, R429 to R434, R444: what a host read of an aligned 64-bit register returns: before READY a virtual function
reads zero, and a queue that the function does not own does too. -/
def State.readReg64 (s : State) (fn off : Nat) : Word :=
  let x := s.vf fn
  BitVec.ofNat 64 <|
    if off % 8 != 0 then 0
    else if fn == 0 then s.plat.reg off
    else if s.plat.boot != .ready then 0
    else if bar2 ≤ off then x.msixReg (off - bar2)
    else if off < 0x1000 then
      match s.disp.queues[off / 0x40]? with
      | some q => if q.tenant == fn - 1 && (s.tenant? (fn - 1)).isSome then q.reg (off % 0x40) else 0
      | none => 0
    else x.reg off

/-- R421, R430: a host read of a register is answered; one of a function in ERROR completes with Unsupported Request. -/
def State.hostReads (s : State) (fn off : Nat) : State :=
  if fn != 0 && s.plat.boot == .ready && (s.vf fn).tdisp == .error then s.send (.hostRead fn false 0)
  else s.send (.hostRead fn true (s.readReg64 fn off))

/-! ## Windows (R431) -/

/-- R421, R431: the virtual address that an aperture offset reaches, when the window lets the access in. -/
def Vf.window (v : Vf) (off len : Nat) (write : Bool) : Option Nat :=
  let w := (v.windows.getD (off / 2 ^ 30) 0).toNat
  let ok := decide (off < 2 ^ 32) && [1, 2, 4, 8].contains len && off % len == 0
  if v.tdisp == .run && ok && bf w 63 1 == 1 && bf w (if write then 62 else 61) 1 == 1 then
    some (bf w 30 18 * 2 ^ 30 + off % 2 ^ 30)
  else none

/-- A host access that fails: a read completes with Unsupported Request, a write is dropped. -/
def State.hostFail (s : State) (vf : Nat) (write : Bool) : State := if write then s else s.send (.hostRead vf false 0)

/-- HOST_WINDOW_ACCESS, R431, R444: one access of at most 8 aligned bytes sets out for its home node; before READY a read returns
zero and a write is dropped. -/
def execHostWindowAccess (vf : Nat) (off : Nat) (len : Nat) (write : Bool) (value : Word) (s : State) :
    Host.Outcome State Fault Refusal :=
  if vf == 0 then .next s
  else if s.plat.boot != .ready then .next (if write then s else s.send (.hostRead vf true 0))
  else match (s.vf vf).window off len write with
    | none => .next (s.hostFail vf write)
    | some va => .next (s.visit (vf - 1) (.visit (.host vf write)) none
        { va := va, len := len, need := if write then 2 else 1, op := if write then .write (leBytes len value.toNat) else .read, tlb := true })

end Sys2Proof.Machine
end

