-- ==== Sys2Proof/Machine/PowerClocks.lean ====
section
/-! DEFINITION. Power, clocks, margins and links: the Watershed (R440, R411), predictive failure (R412), Ridgeline links
(R425, R436), the GTC (R437), power removal, reset and bring-up (R442, R443). -/

namespace Sys2Proof.Machine

/-! ## The Watershed (R440, R441, R397) -/

/-- R397, R398: a clock-change record and the GTC record after it, in every trace buffer of a core. -/
def State.clockRecords (s : State) (core old new : Nat) : State :=
  (s.ctxs.filter fun c => c.regs.trace != 0 && c.seats.any fun k => k.1 == core).foldl (fun s c =>
    let site : Site := { core := core, ctx := c.id }
    let s := s.traceRec site 9 (BitVec.ofNat 64 (old * 2 ^ 16 + new)) (BitVec.ofNat 64 s.gtc) 0
    s.gtcRec core c.id) s

/-- R440: what Watershed gives a die: clock, FIRE_N, ROW_N, the power that it measured there (mW), its part of PKG_LIMIT (W). -/
abbrev Share := Nat × Nat × Nat × Nat × Nat

/-- R440: a share that Watershed may set: clock from 200 to 1,100 MHz in steps of 100, FIRE_N 1 to 16, ROW_N 0 to 16. DEDUCED (log 122). DESIGN CHOICE (log 138). -/
def shareOk (x : Share) : Bool :=
  x.1 % 100 == 0 && decide (200 ≤ x.1) && decide (x.1 ≤ 1100) && decide (1 ≤ x.2.1) && decide (x.2.1 ≤ 16) && decide (x.2.2.1 ≤ 16)

/-- R411, R440: one die's share; while BAR is 0 its margin may be lowered by a step. DEDUCED (log 122). -/
def State.giveShare (s : State) (die : Nat) (x : Share) : State :=
  if !shareOk x then s
  else
    let old := (s.plat.dies.getD die {}).mhz
    let d := s.draw
    let s := d.2.modDie die fun e =>
      { e.setStep s.wall (if e.bar then e.step else min 6 (e.step + d.1 % 2)) with
        mhz := x.1, fireN := x.2.1, rowN := x.2.2.1, mw := x.2.2.2.1 % 2 ^ 24, watts := x.2.2.2.2 }
    if old == x.1 || 8 ≤ die then s
    else (List.range 32).foldl (fun s k => s.clockRecords (die * 32 + k) old x.1) s

/-- WATERSHED_DIVISION, R440, R441: the dies in order take their shares, whose parts make up no more than PKG_LIMIT. -/
def execWatershedDivision (shares : List (Nat × Nat × Nat × Nat × Nat)) (s : State) : Host.Outcome State Fault Refusal :=
  if s.plat.limit < ((shares.take 10).map fun x => x.2.2.2.2).sum then .next s
  else .next ((enumL (shares.take 10)).foldl (fun s x => s.giveShare x.1 x.2) s)

/-! ## Margins (R411, R412) -/

/-- R411: the most corrected errors within any 1 ms that no back-off has answered. DEDUCED (log 123). -/
def Die.burst (d : Die) : Nat :=
  let open' := d.ces.filter fun e => !e.2.2
  open'.foldl (fun m e => max m (open'.filter fun x => decide (x.1 ≤ e.1) && decide (e.1 < x.1 + 1000000)).length) 0

/-- MARGIN_BACKOFF, R411. DEDUCED (log 123). -/
def execMarginBackoff (die : Nat) (s : State) : Host.Outcome State Fault Refusal :=
  let d := s.plat.dies.getD die {}
  if d.guard ≤ d.burst then
    .next (s.modDie die fun d =>
      let d := d.setStep s.wall (d.step - 1)
      { d with bar := true, barUntil := s.wall + 60000000000
               ces := d.ces.map fun e => (e.1, e.2.1, true) })
  else .next s

/-- MARGIN_BAR_EXPIRY, R411. -/
def execMarginBarExpiry (die : Nat) (s : State) : Host.Outcome State Fault Refusal :=
  .next (s.modDie die fun d => if d.bar && decide (d.barUntil ≤ s.wall) then { d with bar := false } else d)

/-- PREDICTIVE_FAILURE, R412: corrected errors at nominal margin within 10 s. -/
def execPredictiveFailure (die : Nat) (s : State) : Host.Outcome State Fault Refusal :=
  .next (s.modDie die fun d =>
    if d.pfLimit ≤ (d.ces.filter fun e => e.2.1 && decide (s.wall < e.1 + 10000000000)).length then { d with pf := true } else d)

/-! ## Links (R425, R436) -/

def State.modPort (s : State) (port : Nat) (f : RidgePort → RidgePort) : State :=
  s.modPlat fun p => { p with ports := p.ports.modify port f }

/-- FLIT_RETRY, R436: the oldest flit of the replay buffer is sent again; retries persist while each follows the last within 1 ms. DEDUCED (log 124). -/
def execFlitRetry (port : Nat) (s : State) : Host.Outcome State Fault Refusal :=
  let x := s.plat.ports.getD port {}
  if !x.up then .next s
  else
    .next ((s.modPort port fun x => { x with retries := match x.retries with
      | some (a, b) => if s.wall ≤ b + 1000000 then some (a, s.wall) else some (s.wall, s.wall)
      | none => some (s.wall, s.wall) }).send (.flit port x.acked))

/-- LINK_DOWN, R425: retries have persisted past 1 ms. DEDUCED (log 124). -/
def execLinkDown (port : Nat) (s : State) : Host.Outcome State Fault Refusal :=
  .next (s.modPort port fun x => match x.retries with
    | some (a, b) => if a + 1000000 < b || (a + 1000000 < s.wall && s.wall ≤ b + 1000000) then { x with up := false, retries := none } else x
    | none => x)

/-- KEY_RENEWAL, R425: once 2^32 flits have passed under the present key. -/
def execKeyRenewal (port : Nat) (s : State) : Host.Outcome State Fault Refusal :=
  .next (s.modPort port fun x =>
    if x.carries && decide (2 ^ 32 ≤ x.aged) then { x with key := x.key + 1, aged := x.aged - 2 ^ 32 } else x)

/-! ## GTC (R437) -/

/-- R398, R437: after a forward step each core writes a GTC record before its next record. DESIGN CHOICE (log 20). -/
def State.stepGtc (s : State) (master : Nat) : State :=
  { s with gtc := master % 2 ^ 64, cores := s.cores.map fun k => { k with traced := [] } }

/-- GTC_SYNC, R435, R437: the master's time arrives; of its copies on the planes the first is taken. DEDUCED (log 182). -/
def execGtcSync (master : Nat) (s : State) : Host.Outcome State Fault Refusal :=
  if s.plat.master || s.plat.gtcLast == some master then .next s
  else
    let off : Int := (master : Int) - (s.gtc : Int)
    let d := s.draw
    let s := d.2.modPlat fun p =>
      { p with gtcOn := true, gtcLast := some master, offset := off, lock := decide (off.natAbs ≤ 5)
               gtcHalf := if off < -1000 then 2000 * (off.natAbs - 1000) else 0
               slew := if off.natAbs ≤ 1000 then (if off < 0 then -((d.1 % 101 : Nat) : Int) else if off == 0 then 0 else ((d.1 % 101 : Nat) : Int)) else 0 }
    .next (if 1000 < off then s.stepGtc master else s)

/-! ## Power, reset and bring-up (R442, R443) -/

/-- What outlives a reset besides memory: the model's own inputs and outputs, the package id and the fuses, and the number
of the next memory key. DEDUCED (log 18). DESIGN CHOICE (log 135). -/
def State.afterReset (s : State) : State :=
  { State.reset with
    agenda := s.agenda, outbox := s.outbox, fresh := s.fresh
    plat := { State.reset.plat with pkg := s.plat.pkg, fuses := s.plat.fuses, keySeq := s.plat.keySeq } }

/-- POWER_REMOVAL, R442: all device state is lost. DEDUCED (log 19). -/
def execPowerRemoval (s : State) : Host.Outcome State Fault Refusal := .next s.afterReset

/-- PACKAGE_RESET, R443: BOOTSTAT is RESET; memory keeps its content until bring-up writes it. DEDUCED (log 18). DEDUCED (log 19). -/
def execPackageReset (s : State) : Host.Outcome State Fault Refusal :=
  .next { s.afterReset with
    wall := s.wall, wallPs := s.wallPs
    ms := { State.reset.ms with mem := s.ms.mem, tags := s.ms.tags, keys := s.ms.keys, errs := s.ms.errs } }

/-- R443: the failures of a state that are not decided by what it finds. -/
def bootFailures : Boot → List Nat
  | .hbm => [2] | .repair => [3] | _ => []

/-- R417: the images of the security engine, the management processor, the Dispatcher and the Watershed, each with its version, its
digest and whether its signature verifies: every one is signed, and none is older than its fuse counter. DEDUCED (log 130). -/
def Platform.accepts (p : Platform) (images : List (Nat × Nat × Bool)) : Bool :=
  images.length == 4 && (images.zip p.fuses).all fun x => x.1.2.2 && decide (x.2 ≤ x.1.1)

/-- R443: bring-up ends in FAIL. -/
def State.bootFails (s : State) (code : Nat) : State := s.modPlat fun p => { p with boot := .fail, bootFail := code }

/-- R443, state HBM: every stack is zero under its power-on code word. -/
def State.zeroHbm (s : State) : State :=
  s.modMs fun m =>
    { m with mem := m.mem.filter fun c => decide (hbmTop ≤ c.1), tags := m.tags.filter fun e => decide (hbmTop ≤ e.1 * 32)
             keys := m.keys.filter fun e => decide (hbmTop ≤ e.1 * 32), errs := m.errs.filter fun e => decide (hbmTop ≤ e.1 * 32) }

/-- BOOT_STATE_ADVANCE, R364, R417, R443: a stage ends; ROM accepts the images, or refuses them through the mailbox, and REPAIR brings
up the ports of the mask, which may be some only. DEDUCED (log 130). -/
def execBootStateAdvance (failure : StageEnd) (s : State) : Host.Outcome State Fault Refusal :=
  let b := s.plat.boot
  let go (s : State) (b : Boot) : State := s.modPlat fun p => { p with boot := b }
  if failure.failure != 0 then .next (if (bootFailures b).contains failure.failure then s.bootFails failure.failure else s)
  else match b with
    | .reset => .next (go s .rom)
    | .rom =>
      if s.plat.accepts failure.images then
        .next ((go s .hbm).modPlat fun p =>
          { p with fuses := (p.fuses.zip failure.images).map fun x => max x.1 x.2.1, firmware := failure.images.map fun x => x.2.1
                   version := (failure.images.getD 1 (0, 0, false)).1 })
      else .next ((s.bootFails 1).modPlat fun p => { p with mailbox := [1] })
    | .hbm => .next (go s.zeroHbm .repair)
    | .repair =>
      if failure.ports % 2 ^ 18 == 0 then .next (s.bootFails 4)
      else .next ((go s .ready).modPlat fun p => { p with ports := (enumL p.ports).map fun x => { x.2 with up := bf failure.ports x.1 1 == 1 } })
    | .ready => .next s
    | .fail => .next s

end Sys2Proof.Machine
end

