-- ==== Sys2Proof/Machine/ScalarFloat.lean ====
section
/-! DEFINITION. The scalar float instructions (R124 to R129). -/

namespace Sys2Proof.Machine

/-- R62: a read operand's bits in its format. -/
def fpBits (t : Ty) (v : Word) : Nat := v.toNat % 2 ^ tyBits t

/-- A scalar float firing: the result's bits with the flags that it raises (R77, R124). -/
def State.floatFiring (s : State) (p : Par) (reads ops : List Tok) (r : Nat × Nat) : Host.Outcome State Fault Refusal :=
  s.scalarFiring p reads ops true (.ok (scalarTok s.cur.site (BitVec.ofNat 64 r.1), r.2))

/-- A result that is a whole word, with flags. -/
def State.floatWord (s : State) (p : Par) (reads ops : List Tok) (v : Word) (fl : Nat) : Host.Outcome State Fault Refusal :=
  s.scalarFiring p reads ops true (.ok (scalarTok s.cur.site v, fl))

/-- R97: the float divide unit is busy for 4 clk. -/
def State.takeFloatDivide (s : State) (core : Nat) : State := s.modTok core fun u => { u with fdiv := s.clk core + 4 }

/-- FADD, R125. -/
def execFadd (p : Par) (mode : Mode) (s : State) : Host.Outcome State Fault Refusal :=
  s.floatFiring p [s.cur.l, s.cur.r] [s.cur.l, s.cur.r] (fpAdd p.ty mode (fpBits p.ty s.cur.l.val) (fpBits p.ty s.cur.r.val))

/-- FADD with an immediate R, R125. -/
def execFaddImm (p : Par) (mode : Mode) (imm : BitVec 32) (s : State) : Host.Outcome State Fault Refusal :=
  s.floatFiring p [s.cur.l] [s.cur.l] (fpAdd p.ty mode (fpBits p.ty s.cur.l.val) (fpBits p.ty (immTok p.ty imm).val))

/-- FSUB, R125. -/
def execFsub (p : Par) (mode : Mode) (s : State) : Host.Outcome State Fault Refusal :=
  s.floatFiring p [s.cur.l, s.cur.r] [s.cur.l, s.cur.r] (fpSub p.ty mode (fpBits p.ty s.cur.l.val) (fpBits p.ty s.cur.r.val))

/-- FSUB with an immediate R, R125. -/
def execFsubImm (p : Par) (mode : Mode) (imm : BitVec 32) (s : State) : Host.Outcome State Fault Refusal :=
  s.floatFiring p [s.cur.l] [s.cur.l] (fpSub p.ty mode (fpBits p.ty s.cur.l.val) (fpBits p.ty (immTok p.ty imm).val))

/-- FMUL, R125. -/
def execFmul (p : Par) (mode : Mode) (s : State) : Host.Outcome State Fault Refusal :=
  s.floatFiring p [s.cur.l, s.cur.r] [s.cur.l, s.cur.r] (fpMul p.ty mode (fpBits p.ty s.cur.l.val) (fpBits p.ty s.cur.r.val))

/-- FMUL with an immediate R, R125. -/
def execFmulImm (p : Par) (mode : Mode) (imm : BitVec 32) (s : State) : Host.Outcome State Fault Refusal :=
  s.floatFiring p [s.cur.l] [s.cur.l] (fpMul p.ty mode (fpBits p.ty s.cur.l.val) (fpBits p.ty (immTok p.ty imm).val))

/-- FFMA, R125. -/
def execFfma (p : Par) (mode : Mode) (s : State) : Host.Outcome State Fault Refusal :=
  s.floatFiring p [s.cur.l, s.cur.r, s.cur.c] [s.cur.l, s.cur.r, s.cur.c]
    (fpFma p.ty mode (fpBits p.ty s.cur.l.val) (fpBits p.ty s.cur.r.val) (fpBits p.ty s.cur.c.val))

/-- FFMA with an immediate C, R125. -/
def execFfmaImm (p : Par) (mode : Mode) (imm : BitVec 32) (s : State) : Host.Outcome State Fault Refusal :=
  s.floatFiring p [s.cur.l, s.cur.r] [s.cur.l, s.cur.r]
    (fpFma p.ty mode (fpBits p.ty s.cur.l.val) (fpBits p.ty s.cur.r.val) (fpBits p.ty (immTok p.ty imm).val))

/-- FDIV, R125, R126. -/
def execFdiv (p : Par) (mode : Mode) (s : State) : Host.Outcome State Fault Refusal :=
  (s.takeFloatDivide s.cur.site.core).floatFiring p [s.cur.l, s.cur.r] [s.cur.l, s.cur.r]
    (fpDiv p.ty mode (fpBits p.ty s.cur.l.val) (fpBits p.ty s.cur.r.val))

/-- FDIV with an immediate R, R125. -/
def execFdivImm (p : Par) (mode : Mode) (imm : BitVec 32) (s : State) : Host.Outcome State Fault Refusal :=
  (s.takeFloatDivide s.cur.site.core).floatFiring p [s.cur.l] [s.cur.l]
    (fpDiv p.ty mode (fpBits p.ty s.cur.l.val) (fpBits p.ty (immTok p.ty imm).val))

/-- FSQRT, R125, R126. -/
def execFsqrt (p : Par) (mode : Mode) (s : State) : Host.Outcome State Fault Refusal :=
  (s.takeFloatDivide s.cur.site.core).floatFiring p [s.cur.l] [s.cur.l] (fpSqrt p.ty mode (fpBits p.ty s.cur.l.val))

/-- FRCP, R125, R126. -/
def execFrcp (p : Par) (mode : Mode) (s : State) : Host.Outcome State Fault Refusal :=
  (s.takeFloatDivide s.cur.site.core).floatFiring p [s.cur.l] [s.cur.l] (fpRcp p.ty mode (fpBits p.ty s.cur.l.val))

/-- FRSQ, R125, R126. -/
def execFrsq (p : Par) (mode : Mode) (s : State) : Host.Outcome State Fault Refusal :=
  (s.takeFloatDivide s.cur.site.core).floatFiring p [s.cur.l] [s.cur.l] (fpRsq p.ty mode (fpBits p.ty s.cur.l.val))

/-- FMIN, R126. -/
def execFmin (p : Par) (s : State) : Host.Outcome State Fault Refusal :=
  s.floatFiring p [s.cur.l, s.cur.r] [s.cur.l, s.cur.r]
    (fpMinMax p.ty false (fpBits p.ty s.cur.l.val) (fpBits p.ty s.cur.r.val))

/-- FMIN with an immediate R, R126. -/
def execFminImm (p : Par) (imm : BitVec 32) (s : State) : Host.Outcome State Fault Refusal :=
  s.floatFiring p [s.cur.l] [s.cur.l] (fpMinMax p.ty false (fpBits p.ty s.cur.l.val) (fpBits p.ty (immTok p.ty imm).val))

/-- FMAX, R126. -/
def execFmax (p : Par) (s : State) : Host.Outcome State Fault Refusal :=
  s.floatFiring p [s.cur.l, s.cur.r] [s.cur.l, s.cur.r]
    (fpMinMax p.ty true (fpBits p.ty s.cur.l.val) (fpBits p.ty s.cur.r.val))

/-- FMAX with an immediate R, R126. -/
def execFmaxImm (p : Par) (imm : BitVec 32) (s : State) : Host.Outcome State Fault Refusal :=
  s.floatFiring p [s.cur.l] [s.cur.l] (fpMinMax p.ty true (fpBits p.ty s.cur.l.val) (fpBits p.ty (immTok p.ty imm).val))

/-- FABS, R61, R125: the sign bit cleared, no flags. -/
def execFabs (p : Par) (s : State) : Host.Outcome State Fault Refusal :=
  s.floatFiring p [s.cur.l] [s.cur.l] (fpBits p.ty s.cur.l.val % 2 ^ (tyBits p.ty - 1), 0)

/-- R61, R125: the sign bit inverted. -/
def flipSign (t : Ty) (x : Nat) : Nat := if x < 2 ^ (tyBits t - 1) then x + 2 ^ (tyBits t - 1) else x - 2 ^ (tyBits t - 1)

/-- FNEG, R61, R125. -/
def execFneg (p : Par) (s : State) : Host.Outcome State Fault Refusal :=
  s.floatFiring p [s.cur.l] [s.cur.l] (flipSign p.ty (fpBits p.ty s.cur.l.val), 0)

/-- FCMP, R127. -/
def execFcmp (p : Par) (cond : FltCond) (s : State) : Host.Outcome State Fault Refusal :=
  let r := fpCmp p.ty cond (fpBits p.ty s.cur.l.val) (fpBits p.ty s.cur.r.val)
  s.floatWord p [s.cur.l, s.cur.r] [s.cur.l, s.cur.r] (boolWord r.1) r.2

/-- FCMP with an immediate R, R127. -/
def execFcmpImm (p : Par) (cond : FltCond) (imm : BitVec 32) (s : State) : Host.Outcome State Fault Refusal :=
  let r := fpCmp p.ty cond (fpBits p.ty s.cur.l.val) (fpBits p.ty (immTok p.ty imm).val)
  s.floatWord p [s.cur.l] [s.cur.l] (boolWord r.1) r.2

/-- FCLASS, R127. -/
def execFclass (p : Par) (s : State) : Host.Outcome State Fault Refusal :=
  s.floatFiring p [s.cur.l] [s.cur.l] (fpClass p.ty (fpBits p.ty s.cur.l.val), 0)

/-- FCVT, R79, R128. -/
def execFcvt (p : Par) (mode : Mode) (sat : Bool) (dty : Ty) (s : State) : Host.Outcome State Fault Refusal :=
  s.floatFiring p [s.cur.l] [s.cur.l] (toFp dty mode sat (decFp p.ty (fpBits p.ty s.cur.l.val)))

/-- FTOI, R80, R128: an integer result, extended by R58. -/
def execFtoi (p : Par) (mode : Mode) (dty : Ty) (s : State) : Host.Outcome State Fault Refusal :=
  let r := fpToInt dty mode (decFp p.ty (fpBits p.ty s.cur.l.val))
  s.floatWord p [s.cur.l] [s.cur.l] (reduceInt dty r.1) r.2

/-- ITOF, R128. -/
def execItof (p : Par) (mode : Mode) (sat : Bool) (dty : Ty) (s : State) : Host.Outcome State Fault Refusal :=
  s.floatFiring p [s.cur.l] [s.cur.l] (intToFp dty mode sat (readInt p.ty s.cur.l.val))

/-- FRND, R128. -/
def execFrnd (p : Par) (mode : Mode) (s : State) : Host.Outcome State Fault Refusal :=
  s.floatFiring p [s.cur.l] [s.cur.l] (fpRnd p.ty mode (fpBits p.ty s.cur.l.val))

/-- FLDX, R128: n is R read as s64. -/
def execFldx (p : Par) (mode : Mode) (s : State) : Host.Outcome State Fault Refusal :=
  s.floatFiring p [s.cur.l, s.cur.r] [s.cur.l, s.cur.r] (fpLdx p.ty mode (fpBits p.ty s.cur.l.val) s.cur.r.val.toInt)

/-- FLDX with an immediate n, R128. -/
def execFldxImm (p : Par) (mode : Mode) (imm : BitVec 32) (s : State) : Host.Outcome State Fault Refusal :=
  s.floatFiring p [s.cur.l] [s.cur.l] (fpLdx p.ty mode (fpBits p.ty s.cur.l.val) (immTok p.ty imm).val.toInt)

/-- FGETX, R128: an s32 result. -/
def execFgetx (p : Par) (s : State) : Host.Outcome State Fault Refusal :=
  let r := fpGetx p.ty (fpBits p.ty s.cur.l.val)
  s.floatWord p [s.cur.l] [s.cur.l] (wordOf r.1) r.2

/-- FEXP2F, R128. -/
def execFexp2f (p : Par) (s : State) : Host.Outcome State Fault Refusal :=
  s.floatFiring p [s.cur.l] [s.cur.l] (fpExp2 p.ty (fpBits p.ty s.cur.l.val))

end Sys2Proof.Machine
end

