-- ==== Sys2Proof/Machine/Dispatch.lean ====
section
/-! DEFINITION. One arm per row of the opcode table: a direct call of the row's meaning. -/

namespace Sys2Proof.Machine

/-- DESIGN CHOICE (log 137). -/
def exec (i : Instr) (s : State) : Host.Outcome State Fault Refusal :=
  match i with
  | .pass p => Sys2Proof.Machine.execPass p s
  | .const p hi imm => Sys2Proof.Machine.execConst p hi imm s
  | .steer p inv => Sys2Proof.Machine.execSteer p inv s
  | .steerImm p inv imm => Sys2Proof.Machine.execSteerImm p inv imm s
  | .gate p => Sys2Proof.Machine.execGate p s
  | .gateImm p imm => Sys2Proof.Machine.execGateImm p imm s
  | .disp p tbl => Sys2Proof.Machine.execDisp p tbl s
  | .dispImm p tbl imm => Sys2Proof.Machine.execDispImm p tbl imm s
  | .join p selp => Sys2Proof.Machine.execJoin p selp s
  | .join3 p selp => Sys2Proof.Machine.execJoin3 p selp s
  | .joinImm p selp imm => Sys2Proof.Machine.execJoinImm p selp imm s
  | .join3Imm p selp imm => Sys2Proof.Machine.execJoin3Imm p selp imm s
  | .cntn p => Sys2Proof.Machine.execCntn p s
  | .fnew p place node port block => Sys2Proof.Machine.execFnew p place node port block s
  | .fnewNamed p place node port block => Sys2Proof.Machine.execFnewNamed p place node port block s
  | .fnewNamedImm p place node port block imm => Sys2Proof.Machine.execFnewNamedImm p place node port block imm s
  | .sendf p node port => Sys2Proof.Machine.execSendf p node port s
  | .mkcont p node port => Sys2Proof.Machine.execMkcont p node port s
  | .iter p next node port block => Sys2Proof.Machine.execIter p next node port block s
  | .iter2 p next node port block => Sys2Proof.Machine.execIter2 p next node port block s
  | .iter2Imm p next node port block imm => Sys2Proof.Machine.execIter2Imm p next node port block imm s
  | .exit p => Sys2Proof.Machine.execExit p s
  | .fset p var => Sys2Proof.Machine.execFset p var s
  | .fget p var => Sys2Proof.Machine.execFget p var s
  | .iseos p => Sys2Proof.Machine.execIseos p s
  | .mkeos p => Sys2Proof.Machine.execMkeos p s
  | .send p cid => Sys2Proof.Machine.execSend p cid s
  | .sendImm p cid imm => Sys2Proof.Machine.execSendImm p cid imm s
  | .phopen p ph => Sys2Proof.Machine.execPhopen p ph s
  | .phclose p ph => Sys2Proof.Machine.execPhclose p ph s
  | .self p what => Sys2Proof.Machine.execSelf p what s
  | .level p cnt lvl => Sys2Proof.Machine.execLevel p cnt lvl s
  | .add p => Sys2Proof.Machine.execAdd p s
  | .addImm p imm => Sys2Proof.Machine.execAddImm p imm s
  | .sub p => Sys2Proof.Machine.execSub p s
  | .subImm p imm => Sys2Proof.Machine.execSubImm p imm s
  | .mul p => Sys2Proof.Machine.execMul p s
  | .mulImm p imm => Sys2Proof.Machine.execMulImm p imm s
  | .mulh p => Sys2Proof.Machine.execMulh p s
  | .mulhImm p imm => Sys2Proof.Machine.execMulhImm p imm s
  | .div p => Sys2Proof.Machine.execDiv p s
  | .divImm p imm => Sys2Proof.Machine.execDivImm p imm s
  | .rem p => Sys2Proof.Machine.execRem p s
  | .remImm p imm => Sys2Proof.Machine.execRemImm p imm s
  | .and p => Sys2Proof.Machine.execAnd p s
  | .andImm p imm => Sys2Proof.Machine.execAndImm p imm s
  | .or p => Sys2Proof.Machine.execOr p s
  | .orImm p imm => Sys2Proof.Machine.execOrImm p imm s
  | .xor p => Sys2Proof.Machine.execXor p s
  | .xorImm p imm => Sys2Proof.Machine.execXorImm p imm s
  | .andn p => Sys2Proof.Machine.execAndn p s
  | .andnImm p imm => Sys2Proof.Machine.execAndnImm p imm s
  | .shl p => Sys2Proof.Machine.execShl p s
  | .shlImm p imm => Sys2Proof.Machine.execShlImm p imm s
  | .shr p => Sys2Proof.Machine.execShr p s
  | .shrImm p imm => Sys2Proof.Machine.execShrImm p imm s
  | .sar p => Sys2Proof.Machine.execSar p s
  | .sarImm p imm => Sys2Proof.Machine.execSarImm p imm s
  | .rol p => Sys2Proof.Machine.execRol p s
  | .rolImm p imm => Sys2Proof.Machine.execRolImm p imm s
  | .min p => Sys2Proof.Machine.execMin p s
  | .minImm p imm => Sys2Proof.Machine.execMinImm p imm s
  | .max p => Sys2Proof.Machine.execMax p s
  | .maxImm p imm => Sys2Proof.Machine.execMaxImm p imm s
  | .abs p => Sys2Proof.Machine.execAbs p s
  | .neg p => Sys2Proof.Machine.execNeg p s
  | .clz p => Sys2Proof.Machine.execClz p s
  | .ctz p => Sys2Proof.Machine.execCtz p s
  | .popc p => Sys2Proof.Machine.execPopc p s
  | .cmp p cond => Sys2Proof.Machine.execCmp p cond s
  | .cmpImm p cond imm => Sys2Proof.Machine.execCmpImm p cond imm s
  | .sel p => Sys2Proof.Machine.execSel p s
  | .selImm p imm => Sys2Proof.Machine.execSelImm p imm s
  | .ext p => Sys2Proof.Machine.execExt p s
  | .extImm p imm => Sys2Proof.Machine.execExtImm p imm s
  | .ins p => Sys2Proof.Machine.execIns p s
  | .insImm p imm => Sys2Proof.Machine.execInsImm p imm s
  | .mad p => Sys2Proof.Machine.execMad p s
  | .madImm p imm => Sys2Proof.Machine.execMadImm p imm s
  | .adds p => Sys2Proof.Machine.execAdds p s
  | .addsImm p imm => Sys2Proof.Machine.execAddsImm p imm s
  | .subs p => Sys2Proof.Machine.execSubs p s
  | .subsImm p imm => Sys2Proof.Machine.execSubsImm p imm s
  | .fadd p mode => Sys2Proof.Machine.execFadd p mode s
  | .faddImm p mode imm => Sys2Proof.Machine.execFaddImm p mode imm s
  | .fsub p mode => Sys2Proof.Machine.execFsub p mode s
  | .fsubImm p mode imm => Sys2Proof.Machine.execFsubImm p mode imm s
  | .fmul p mode => Sys2Proof.Machine.execFmul p mode s
  | .fmulImm p mode imm => Sys2Proof.Machine.execFmulImm p mode imm s
  | .ffma p mode => Sys2Proof.Machine.execFfma p mode s
  | .ffmaImm p mode imm => Sys2Proof.Machine.execFfmaImm p mode imm s
  | .fdiv p mode => Sys2Proof.Machine.execFdiv p mode s
  | .fdivImm p mode imm => Sys2Proof.Machine.execFdivImm p mode imm s
  | .fsqrt p mode => Sys2Proof.Machine.execFsqrt p mode s
  | .frcp p mode => Sys2Proof.Machine.execFrcp p mode s
  | .frsq p mode => Sys2Proof.Machine.execFrsq p mode s
  | .fmin p => Sys2Proof.Machine.execFmin p s
  | .fminImm p imm => Sys2Proof.Machine.execFminImm p imm s
  | .fmax p => Sys2Proof.Machine.execFmax p s
  | .fmaxImm p imm => Sys2Proof.Machine.execFmaxImm p imm s
  | .fabs p => Sys2Proof.Machine.execFabs p s
  | .fneg p => Sys2Proof.Machine.execFneg p s
  | .fcmp p cond => Sys2Proof.Machine.execFcmp p cond s
  | .fcmpImm p cond imm => Sys2Proof.Machine.execFcmpImm p cond imm s
  | .fclass p => Sys2Proof.Machine.execFclass p s
  | .fcvt p mode sat dty => Sys2Proof.Machine.execFcvt p mode sat dty s
  | .ftoi p mode dty => Sys2Proof.Machine.execFtoi p mode dty s
  | .itof p mode sat dty => Sys2Proof.Machine.execItof p mode sat dty s
  | .frnd p mode => Sys2Proof.Machine.execFrnd p mode s
  | .fldx p mode => Sys2Proof.Machine.execFldx p mode s
  | .fldxImm p mode imm => Sys2Proof.Machine.execFldxImm p mode imm s
  | .fgetx p => Sys2Proof.Machine.execFgetx p s
  | .fexp2f p => Sys2Proof.Machine.execFexp2f p s
  | .talloc p acc zero bg rows cols => Sys2Proof.Machine.execTalloc p acc zero bg rows cols s
  | .tref p => Sys2Proof.Machine.execTref p s
  | .tdrop p => Sys2Proof.Machine.execTdrop p s
  | .tview p => Sys2Proof.Machine.execTview p s
  | .tviewImm p imm => Sys2Proof.Machine.execTviewImm p imm s
  | .tinfo p what => Sys2Proof.Machine.execTinfo p what s
  | .tfill p => Sys2Proof.Machine.execTfill p s
  | .tfillImm p imm => Sys2Proof.Machine.execTfillImm p imm s
  | .tcopy p toacc => Sys2Proof.Machine.execTcopy p toacc s
  | .tcopyInto p => Sys2Proof.Machine.execTcopyInto p s
  | .ttran p => Sys2Proof.Machine.execTtran p s
  | .tget p part => Sys2Proof.Machine.execTget p part s
  | .tgetImm p part imm => Sys2Proof.Machine.execTgetImm p part imm s
  | .tset p part => Sys2Proof.Machine.execTset p part s
  | .tsetImm p part imm => Sys2Proof.Machine.execTsetImm p part imm s
  | .vrunA p cfg => Sys2Proof.Machine.execVrunA p cfg s
  | .vrunAb p cfg => Sys2Proof.Machine.execVrunAb p cfg s
  | .vrunAo p cfg => Sys2Proof.Machine.execVrunAo p cfg s
  | .vrunAbo p cfg => Sys2Proof.Machine.execVrunAbo p cfg s
  | .vruns p cfg => Sys2Proof.Machine.execVruns p cfg s
  | .vruns2 p cfg => Sys2Proof.Machine.execVruns2 p cfg s
  | .vstat p => Sys2Proof.Machine.execVstat p s
  | .wld p comp sx bg ws gen => Sys2Proof.Machine.execWld p comp sx bg ws gen s
  | .wfree p ws => Sys2Proof.Machine.execWfree p ws s
  | .mma p pan zacc acol ws arow koff hold => Sys2Proof.Machine.execMma p pan zacc acol ws arow koff hold s
  | .mmas p mode sat oty ws => Sys2Proof.Machine.execMmas p mode sat oty ws s
  | .mmasImm p mode sat oty ws imm => Sys2Proof.Machine.execMmasImm p mode sat oty ws imm s
  | .adrain p mode sat clr oty => Sys2Proof.Machine.execAdrain p mode sat clr oty s
  | .adrainImm p mode sat clr oty imm => Sys2Proof.Machine.execAdrainImm p mode sat clr oty imm s
  | .adrainSteer p mode sat clr tbl oty => Sys2Proof.Machine.execAdrainSteer p mode sat clr tbl oty s
  | .adrainSteerImm p mode sat clr tbl oty imm => Sys2Proof.Machine.execAdrainSteerImm p mode sat clr tbl oty imm s
  | .aclr p => Sys2Proof.Machine.execAclr p s
  | .winfo p ws => Sys2Proof.Machine.execWinfo p ws s
  | .mstat p what clr => Sys2Proof.Machine.execMstat p what clr s
  | .ld p => Sys2Proof.Machine.execLd p s
  | .st p => Sys2Proof.Machine.execSt p s
  | .stImm p imm => Sys2Proof.Machine.execStImm p imm s
  | .ldt p bg pitch rows cols => Sys2Proof.Machine.execLdt p bg pitch rows cols s
  | .ldtScaled p bg pitch rows cols => Sys2Proof.Machine.execLdtScaled p bg pitch rows cols s
  | .stt p pitch => Sys2Proof.Machine.execStt p pitch s
  | .sttScaled p pitch => Sys2Proof.Machine.execSttScaled p pitch s
  | .copy p scl recd => Sys2Proof.Machine.execCopy p scl recd s
  | .copyAddr p scl recd => Sys2Proof.Machine.execCopyAddr p scl recd s
  | .gath p recd => Sys2Proof.Machine.execGath p recd s
  | .scat p recd => Sys2Proof.Machine.execScat p recd s
  | .cred p rop recd => Sys2Proof.Machine.execCred p rop recd s
  | .drain p path => Sys2Proof.Machine.execDrain p path s
  | .pfh p count => Sys2Proof.Machine.execPfh p count s
  | .aop p op rtry => Sys2Proof.Machine.execAop p op rtry s
  | .aopImm p op rtry imm => Sys2Proof.Machine.execAopImm p op rtry imm s
  | .acas p rtry => Sys2Proof.Machine.execAcas p rtry s
  | .acasImm p rtry imm => Sys2Proof.Machine.execAcasImm p rtry imm s
  | .bupd p rop pitch => Sys2Proof.Machine.execBupd p rop pitch s
  | .baxpy p pitch => Sys2Proof.Machine.execBaxpy p pitch s
  | .baxpyImm p pitch imm => Sys2Proof.Machine.execBaxpyImm p pitch imm s
  | .bara p rtry => Sys2Proof.Machine.execBara p rtry s
  | .baraStatus p rtry => Sys2Proof.Machine.execBaraStatus p rtry s
  | .baraImm p rtry imm => Sys2Proof.Machine.execBaraImm p rtry imm s
  | .barw p => Sys2Proof.Machine.execBarw p s
  | .barwImm p imm => Sys2Proof.Machine.execBarwImm p imm s
  | .acq p sh rtry scope => Sys2Proof.Machine.execAcq p sh rtry scope s
  | .rel p sh rtry scope => Sys2Proof.Machine.execRel p sh rtry scope s
  | .pclm p pipe => Sys2Proof.Machine.execPclm p pipe s
  | .pclmImm p pipe imm => Sys2Proof.Machine.execPclmImm p pipe imm s
  | .pcmt p pipe => Sys2Proof.Machine.execPcmt p pipe s
  | .pcmtImm p pipe imm => Sys2Proof.Machine.execPcmtImm p pipe imm s
  | .pawt p pipe => Sys2Proof.Machine.execPawt p pipe s
  | .pawtImm p pipe imm => Sys2Proof.Machine.execPawtImm p pipe imm s
  | .pret p pipe => Sys2Proof.Machine.execPret p pipe s
  | .pretImm p pipe imm => Sys2Proof.Machine.execPretImm p pipe imm s
  | .pinfo p pipe => Sys2Proof.Machine.execPinfo p pipe s
  | .qput p queue => Sys2Proof.Machine.execQput p queue s
  | .qputArgs p queue => Sys2Proof.Machine.execQputArgs p queue s
  | .qwait p => Sys2Proof.Machine.execQwait p s
  | .cload p cs => Sys2Proof.Machine.execCload p cs s
  | .csel p => Sys2Proof.Machine.execCsel p s
  | .cswt p cs => Sys2Proof.Machine.execCswt p cs s
  | .cfree p cs => Sys2Proof.Machine.execCfree p cs s
  | .trap p code => Sys2Proof.Machine.execTrap p code s
  | .tret p => Sys2Proof.Machine.execTret p s
  | .getc p idx => Sys2Proof.Machine.execGetc p idx s
  | .setc p idx => Sys2Proof.Machine.execSetc p idx s
  | .setcFpflags p => Sys2Proof.Machine.execSetcFpflags p s
  | .setcWatch p idx => Sys2Proof.Machine.execSetcWatch p idx s
  | .setcTimerCmp p => Sys2Proof.Machine.execSetcTimerCmp p s
  | .setcRasInject p => Sys2Proof.Machine.execSetcRasInject p s
  | .time p => Sys2Proof.Machine.execTime p s
  | .trace p tag => Sys2Proof.Machine.execTrace p tag s
  | .trace2 p tag => Sys2Proof.Machine.execTrace2 p tag s
  | .perf p ctr => Sys2Proof.Machine.execPerf p ctr s
  | .ifrd p => Sys2Proof.Machine.execIfrd p s
  | .sbind p len => Sys2Proof.Machine.execSbind p len s
  | .xtset p => Sys2Proof.Machine.execXtset p s
  | .tokenAccept k => Sys2Proof.Machine.execTokenAccept k s
  | .quarantineReport k => Sys2Proof.Machine.execQuarantineReport k s
  | .sourcePortArrival k => Sys2Proof.Machine.execSourcePortArrival k s
  | .tileTransferReceive k => Sys2Proof.Machine.execTileTransferReceive k s
  | .frameGrant core => Sys2Proof.Machine.execFrameGrant core s
  | .tileAllocationGrant core acc => Sys2Proof.Machine.execTileAllocationGrant core acc s
  | .weightSlotGrant core => Sys2Proof.Machine.execWeightSlotGrant core s
  | .tokenPromotion core => Sys2Proof.Machine.execTokenPromotion core s
  | .memoryRequestPerform k => Sys2Proof.Machine.execMemoryRequestPerform k s
  | .memoryResponse k => Sys2Proof.Machine.execMemoryResponse k s
  | .remoteTimeout k => Sys2Proof.Machine.execRemoteTimeout k s
  | .barwRelease k => Sys2Proof.Machine.execBarwRelease k s
  | .acqGrant k => Sys2Proof.Machine.execAcqGrant k s
  | .pipeWaitGrant k => Sys2Proof.Machine.execPipeWaitGrant k s
  | .wldLoadComplete core slot => Sys2Proof.Machine.execWldLoadComplete core slot s
  | .engineArbitration core => Sys2Proof.Machine.execEngineArbitration core s
  | .mmaRowIssue core => Sys2Proof.Machine.execMmaRowIssue core s
  | .mmaRowCommit core => Sys2Proof.Machine.execMmaRowCommit core s
  | .panDeadline core => Sys2Proof.Machine.execPanDeadline core s
  | .vrunStart core => Sys2Proof.Machine.execVrunStart core s
  | .vrunComplete core recd => Sys2Proof.Machine.execVrunComplete core recd s
  | .engineCommandComplete core recd => Sys2Proof.Machine.execEngineCommandComplete core recd s
  | .copyComplete core recd => Sys2Proof.Machine.execCopyComplete core recd s
  | .cloadComplete core recd => Sys2Proof.Machine.execCloadComplete core recd s
  | .drainComplete k => Sys2Proof.Machine.execDrainComplete k s
  | .qwaitComplete k => Sys2Proof.Machine.execQwaitComplete k s
  | .regionSweep home => Sys2Proof.Machine.execRegionSweep home s
  | .phcloseReturn k => Sys2Proof.Machine.execPhcloseReturn k s
  | .cselSwitch home => Sys2Proof.Machine.execCselSwitch home s
  | .cswtInstant home => Sys2Proof.Machine.execCswtInstant home s
  | .cfreeComplete home => Sys2Proof.Machine.execCfreeComplete home s
  | .contextCompletion ctx => Sys2Proof.Machine.execContextCompletion ctx s
  | .handlerEntry ctx => Sys2Proof.Machine.execHandlerEntry ctx s
  | .orphan core ctx => Sys2Proof.Machine.execOrphan core ctx s
  | .timer core => Sys2Proof.Machine.execTimer core s
  | .freeze ids => Sys2Proof.Machine.execFreeze ids s
  | .freezeMark node => Sys2Proof.Machine.execFreezeMark node s
  | .drainMarker core node => Sys2Proof.Machine.execDrainMarker core node s
  | .fence core node => Sys2Proof.Machine.execFence core node s
  | .settleTimeout ctx => Sys2Proof.Machine.execSettleTimeout ctx s
  | .contextSave ctx => Sys2Proof.Machine.execContextSave ctx s
  | .contextRestore ctx => Sys2Proof.Machine.execContextRestore ctx s
  | .replayRequest k => Sys2Proof.Machine.execReplayRequest k s
  | .doorbell vf queue value => Sys2Proof.Machine.execDoorbell vf queue value s
  | .hostRegisterWrite fn off value => Sys2Proof.Machine.execHostRegisterWrite fn off value s
  | .packetRead => Sys2Proof.Machine.execPacketRead s
  | .launch k => Sys2Proof.Machine.execLaunch k s
  | .gang k => Sys2Proof.Machine.execGang k s
  | .configurationLoad k => Sys2Proof.Machine.execConfigurationLoad k s
  | .barrier k => Sys2Proof.Machine.execBarrier k s
  | .preemptSave k => Sys2Proof.Machine.execPreemptSave k s
  | .preemptResume k => Sys2Proof.Machine.execPreemptResume k s
  | .preemptAbandon k => Sys2Proof.Machine.execPreemptAbandon k s
  | .dependenceMet k => Sys2Proof.Machine.execDependenceMet k s
  | .admissionGrant home => Sys2Proof.Machine.execAdmissionGrant home s
  | .extentBuild k => Sys2Proof.Machine.execExtentBuild k s
  | .argumentInjection k => Sys2Proof.Machine.execArgumentInjection k s
  | .halt job => Sys2Proof.Machine.execHalt job s
  | .stepNamed job core frame node => Sys2Proof.Machine.execStepNamed job core frame node s
  | .stepNext job core => Sys2Proof.Machine.execStepNext job core s
  | .stepEnd job => Sys2Proof.Machine.execStepEnd job s
  | .arm job t => Sys2Proof.Machine.execArm job t s
  | .cancel job => Sys2Proof.Machine.execCancel job s
  | .sethen job hen => Sys2Proof.Machine.execSethen job hen s
  | .setbrk job core n tok tmask val vmask ctl => Sys2Proof.Machine.execSetbrk job core n tok tmask val vmask ctl s
  | .read job core what => Sys2Proof.Machine.execRead job core what s
  | .cairnMessage job => Sys2Proof.Machine.execCairnMessage job s
  | .causeReport job pkg w0 w1 => Sys2Proof.Machine.execCauseReport job pkg w0 w1 s
  | .memberReportTimeout job pkg => Sys2Proof.Machine.execMemberReportTimeout job pkg s
  | .resumeInstant job => Sys2Proof.Machine.execResumeInstant job s
  | .rightsMessage tenant job rights => Sys2Proof.Machine.execRightsMessage tenant job rights s
  | .translationWalk k => Sys2Proof.Machine.execTranslationWalk k s
  | .fqreplyRetry vf seq => Sys2Proof.Machine.execFqreplyRetry vf seq s
  | .fqreplyAbort vf seq => Sys2Proof.Machine.execFqreplyAbort vf seq s
  | .tlbInvalidate tenant va len => Sys2Proof.Machine.execTlbInvalidate tenant va len s
  | .pageMigration tenant va dst => Sys2Proof.Machine.execPageMigration tenant va dst s
  | .hostWindowAccess vf off len write value => Sys2Proof.Machine.execHostWindowAccess vf off len write value s
  | .watershedDivision shares => Sys2Proof.Machine.execWatershedDivision shares s
  | .marginBackoff die => Sys2Proof.Machine.execMarginBackoff die s
  | .marginBarExpiry die => Sys2Proof.Machine.execMarginBarExpiry die s
  | .predictiveFailure die => Sys2Proof.Machine.execPredictiveFailure die s
  | .flitRetry port => Sys2Proof.Machine.execFlitRetry port s
  | .linkDown port => Sys2Proof.Machine.execLinkDown port s
  | .keyRenewal port => Sys2Proof.Machine.execKeyRenewal port s
  | .gtcSync master => Sys2Proof.Machine.execGtcSync master s
  | .powerRemoval => Sys2Proof.Machine.execPowerRemoval s
  | .packageReset => Sys2Proof.Machine.execPackageReset s
  | .bootStateAdvance failure => Sys2Proof.Machine.execBootStateAdvance failure s
  | .coreAssignment bank n tenant => Sys2Proof.Machine.execCoreAssignment bank n tenant s
  | .tenantCreate tenant root => Sys2Proof.Machine.execTenantCreate tenant root s
  | .tenantDestroy tenant => Sys2Proof.Machine.execTenantDestroy tenant s
  | .coreMarkFailed core => Sys2Proof.Machine.execCoreMarkFailed core s
  | .logicalTableWrite logical physical => Sys2Proof.Machine.execLogicalTableWrite logical physical s
  | .getVersion peer => Sys2Proof.Machine.execGetVersion peer s
  | .getCapabilities peer => Sys2Proof.Machine.execGetCapabilities peer s
  | .negotiateAlgorithms peer => Sys2Proof.Machine.execNegotiateAlgorithms peer s
  | .getDigests peer => Sys2Proof.Machine.execGetDigests peer s
  | .getCertificate peer => Sys2Proof.Machine.execGetCertificate peer s
  | .challenge peer nonce => Sys2Proof.Machine.execChallenge peer nonce s
  | .getMeasurements peer index => Sys2Proof.Machine.execGetMeasurements peer index s
  | .keyExchange peer => Sys2Proof.Machine.execKeyExchange peer s
  | .finish peer => Sys2Proof.Machine.execFinish peer s
  | .endSession peer => Sys2Proof.Machine.execEndSession peer s
  | .unsupportedRequest peer code => Sys2Proof.Machine.execUnsupportedRequest peer code s
  | .retentionWindowExpiry k => Sys2Proof.Machine.execRetentionWindowExpiry k s
  | .tdispStateChange vf state => Sys2Proof.Machine.execTdispStateChange vf state s
  | .jobMembershipList tenant job members signed => Sys2Proof.Machine.execJobMembershipList tenant job members signed s
  | .connectionTableWrite tenant qpi peer => Sys2Proof.Machine.execConnectionTableWrite tenant qpi peer s
  | .transportError core recd => Sys2Proof.Machine.execTransportError core recd s

end Sys2Proof.Machine
end

