-- ==== Sys2Proof/Machine/Issue.lean ====
section
/-! DEFINITION. The token engine's selection (R325, R326), the firing of a selected token (R23, R31, R32, R394, R408)
and the time that a turn lets pass (R9, R358, R378, R437). -/

namespace Sys2Proof.Machine

/-- R31, R408: the operands of a match that the token completes: parked ones from their slots, the token itself. -/
def State.operands (s : State) (core : Nat) (q : QTok) (ar slot : Nat) : List (Nat × Tok) :=
  match s.frame? core q.frame with
  | none => []
  | some f =>
    let here : Site := { core := core, phase := q.tok.phase, prio := q.tok.prio }
    let parked := if ar ≤ 1 then [] else ([f.slot slot, f.slot (slot + 1)].take (ar - 1)).map fun x =>
      (x.vport, if x.ue then { poisonTok s here stDataUe with phase := x.tok.phase } else x.tok)
    (q.port, q.tok) :: parked

def operandAt (ops : List (Nat × Tok)) (p : Nat) : Tok :=
  match ops.find? fun o => o.1 == p with
  | some o => o.2
  | none => {}

/-- R31: clears the slots of a match. -/
def State.clearMatch (s : State) (core frame ar slot : Nat) : State :=
  if ar ≤ 1 then s else s.modFrame core frame fun f =>
    { f with slots := if ar == 3 then (f.slots.set slot {}).set (slot + 1) {} else f.slots.set slot {} }

/-- The code and descriptor words that a firing reads: its own with its block's descriptor and, for DISP, the table's descriptor
and the table word of its index, or every table word where its tokens go to every entry (R94, R103, R350, R408). DEDUCED (log 178). -/
def State.wordsRead (core : Core) (q : QTok) (w : Fields) (ops : List (Nat × Tok)) : List Nat :=
  let base := q.cslot * 8192
  let own := base + q.block * 128 + q.instr
  let desc (block : Nat) : Nat := 32768 + q.cslot * 64 + block
  if w.opc == 5 then
    let tbl := bf w.aux 0 6
    let n := descExits (core.descOf q.cslot tbl)
    let ty := tyOfCode w.ty
    let used := if w.immr == 1 then [operandAt ops 0] else [operandAt ops 0, operandAt ops 1]
    let r := if w.immr == 1 then immTok ty (BitVec.ofNat 32 w.imm) else operandAt ops 1
    let i := indexOf ty r.val
    if (badInput used).isSome || !isRead r then
      [own, desc q.block, desc tbl] ++ (List.range (ceilDiv n 8)).map fun j => base + tbl * 128 + j
    else if 0 ≤ i && i < n then [own, desc q.block, desc tbl, base + tbl * 128 + i.toNat / 8] else [own, desc q.block, desc tbl]
  else [own, desc q.block]

/-- R350, R357, R408: a firing whose code word has an uncorrectable error traps; in slot 3 its context is abandoned. -/
def State.codeError (s : State) (core : Nat) (q : QTok) (i : Nat) : State :=
  let s := s.countUe (dieOf core)
  let ctx := s.ctxOfTok core q
  if q.cslot == 3 then (s.record ctx stDataUe).abandon ctx
  else
    let site : Site := { core := core, ctx := ctx, frame := q.frame, cslot := q.cslot, block := q.block, node := q.instr }
    s.trap { cause := 6, core := core, site := site, a := { val := BitVec.ofNat 64 (i * 16), res := i * 16 % 255 },
             tok := some q } false

/-- The firing of an instruction by a token that completes its match (R23, R96): what the meaning will read. DEDUCED (log 31). -/
def State.startFiring (s : State) (core cls : Nat) (q : QTok) (w : Fields) : State :=
  match s.frame? core q.frame with
  | none => s
  | some f =>
    let ops := s.operands core q w.ar w.slot
    let l := operandAt ops 0
    let site : Site :=
      { core := core, ctx := f.ctx, frame := q.frame, cslot := q.cslot, block := q.block, node := q.instr,
        phase := l.phase, prio := l.prio, cls := cls, hnd := f.hnd, step := q.step }
    let bad := ((f.slots.drop w.slot).take (w.ar - 1)).filter fun x => x.ue
    let s := bad.foldl (fun s x => (s.countUe (dieOf core)).release core x.tok) s
    let s := s.countErrs (dieOf core) (((f.slots.drop w.slot).take (w.ar - 1)).filter fun x => x.ce && !x.ue).length 0
    let d := (s.core core).descOf q.cslot q.block
    let s := if w.hist == 1 && descHist d && decide (2 ≤ w.ar) then
      s.histCount site (q.accAt - (f.slot w.slot).since) else s
    let s := s.clearMatch core q.frame w.ar w.slot
    { s with cur := { site := site, l := l, r := operandAt ops 1, c := operandAt ops 2 } }

/-- One selected token: it parks, goes to the tail of its FIFO, or fires (R32, R325); one behind a token accepted before
it for its port goes to the tail too (R300). DEDUCED (log 142). -/
def State.runToken (s : State) (core cls : Nat) (q : QTok) : Host.Outcome State Fault Refusal :=
  let w := s.targetWord core q
  match s.frame? core q.frame with
  | none => .next ((s.modQueues core fun l => l.erase q).quarantine core q stRoute)
  | some f =>
    let pres := (f.slot w.slot).pres
    let u := s.modQueues core fun l => l.erase q
    if 2 ≤ w.ar && (bf pres q.port 1 == 1 || s.earlier core q) then .next (u.modTok core fun t => t.setFifo cls (t.fifo cls ++ [q]))
    else if 2 ≤ w.ar && !completes w.ar pres q.port then
      .next ((u.park core q w.slot).perfCtx f.ctx 0x01 1)
    else
      let read := State.wordsRead (s.core core) q w (s.operands core q w.ar w.slot)
      let u := u.countErrs (dieOf core) (read.filter fun i => (s.core core).codeCe.contains i && !(s.core core).codeUe.contains i).length 0
      match read.find? fun i => (s.core core).codeUe.contains i with
      | some i => .next (u.codeError core q i)
      | none =>
        match decodeWord ((s.core core).word q.cslot q.block q.instr) with
        | .ok i => exec i (u.startFiring core cls q w)
        | .error _ => .next s

/-- R325: the token engine of a core selects one token; with none eligible nothing happens. -/
def State.select (s : State) (core : Nat) (busy : List Nat) : Host.Outcome State Fault Refusal :=
  match s.pick core busy with
  | none => .next s
  | some (cls, q) => (s.countFired core).runToken core cls q

/-! ## Time -/

/-- R164, R358: a run that waits only for scratch units which open streams hold. -/
def State.waitsForStream (s : State) (core : Nat) (e : Eng) : Bool :=
  match s.runNeeds core e with
  | none => false
  | some (lp, sb) =>
    let taken := (s.core core).eng.taken
    (taken.all fun t => t.2.1 &&& lp == 0 && (t.2.1 == 0 || t.2.2 &&& sb == 0)) &&
      (taken.any fun t => t.2.1 == 0 && t.2.2 &&& sb != 0)

/-- R358: on a core, a context has a ready token, an IFR entry, a counted record, or a token on its way. -/
def State.busyOn (s : State) (core ctx : Nat) : Bool :=
  let u := (s.core core).tok
  let mine (q : QTok) : Bool := (s.frame? core q.frame).isSome && s.ctxOfTok core q == ctx
  let coming (q : QTok) : Bool := match q.dst with
    | .frame => mine q
    | .inject _ c _ => c == ctx
    | .inport _ _ _ => s.arrivalCtx q == some ctx
  let ready (q : QTok) : Bool := mine q && !q.held
  (u.handlerQ.any ready) || (u.fifo0.any ready) || (u.fifo1.any ready) || (u.fifo2.any ready) || (u.fifo3.any ready) ||
    (s.ms.reqs.any fun r => r.site.core == core && r.site.ctx == ctx && !r.noEntry) ||
    ((s.core core).eng.recs.any fun e => e.site.ctx == ctx &&
      !(e.stream.opened && e.stream.rows.isEmpty && e.stream.mrows.isEmpty) && !s.waitsForStream core e && !((s.core core).eng.wFifo.any fun a => a.isCmd (· == e.idx)) &&
      !(e.step == .waiting && e.out.isNone && ((s.core core).tile.fifo ++ (s.core core).tile.accFifo).any fun r =>
          r.why == 2 && r.owner == e.idx)) ||
    -- R134: a tile transfer that waits for its space is a waiting request
    (s.flight.any fun q => q.core == core && coming q && !(q.held && q.tile.isSome))

/-- R357, R358: a context has a parked operand or a waiting request on a core, its handler's apart. -/
def State.stuckOn (s : State) (core ctx : Nat) : Bool :=
  let k := s.core core
  (k.frm.frames.any fun f => f.ctx == ctx && !f.hnd && f.slots.any fun x => x.pres != 0) ||
    (k.frm.fifo.any fun r => r.ctx == ctx && !r.site.hnd) ||
    (k.frm.loops.any fun l => l.ctx == ctx && l.pend.any fun r => !r.site.hnd) ||
    ((k.tile.fifo ++ k.tile.accFifo).any fun r => r.site.ctx == ctx && !r.site.hnd) ||
    (k.eng.recs.any fun e => e.site.ctx == ctx && !e.site.hnd && k.eng.wFifo.any fun a => a.isCmd (· == e.idx))

/-- R358: the watchdog counters of one context, after `clks` clk of each core. -/
def State.tickDogs (s : State) (c : Ctx) (clks : Nat → Nat) : List (Nat × Nat × Bool) :=
  -- R376: the report of a HOME hit is a token in flight until the handler takes it
  let told := c.traps.any fun t => t.cause == 3 && bf t.b.toNat 61 3 == 3
  let quiet := !told && c.seats.all fun k => !s.busyOn k.1 c.id
  if c.mode != .running then c.wdogs else c.seats.map fun k =>
    let old := (c.wdogs.find? fun w => w.1 == k.1).getD (k.1, 0, false)
    if quiet && s.stuckOn k.1 c.id then (if old.2.2 then old else (k.1, old.2.1 + clks k.1, false))
    else (k.1, 0, false)

/-- R239, 0x03: a memory token of a context waits for an IFR entry on a core. -/
def State.waitsEntry (s : State) (core ctx : Nat) : Bool :=
  let u := (s.core core).tok
  (s.freeEntry core).isNone && ((u.handlerQ ++ u.fifo0 ++ u.fifo1 ++ u.fifo2 ++ u.fifo3).any fun q =>
    !q.held && s.ctxOfTok core q == ctx && needsEntry (s.targetWord core q).opc)

/-- R437: half picoseconds that the GTC gains in `ps`: half rate while `half` ps are still to pass, then slewing. DESIGN CHOICE (log 20). -/
def gtcGain (ps half : Nat) (slew : Int) : Nat :=
  let h := min ps half
  (((h + 2 * (ps - h) : Nat) : Int) + 2 * ps * slew / 1000000).toNat

/-- Lets `ps` picoseconds pass: wall clock, GTC (R437), core clocks (R9), watchdogs (R358) and PERF 0x03. DESIGN CHOICE (log 3). DEDUCED (log 17). DESIGN CHOICE (log 138). -/
def State.advance (s : State) (ps : Nat) : State :=
  if ps == 0 then s else
    let before (k : Nat) : Nat := s.clk k
    let wall := s.wallPs + ps
    let g := s.gtcPs + gtcGain ps s.plat.gtcHalf s.plat.slew
    let t : State := { s with wall := s.wall + wall / 1000, wallPs := wall % 1000,
                              gtc := if s.plat.gtcOn then (s.gtc + g / 2000) % 2 ^ 64 else s.gtc,
                              gtcPs := if s.plat.gtcOn then g % 2000 else s.gtcPs }
    let t := t.modPlat fun p =>
      { p with dies := p.dies.map fun d => { d with uclk := d.uclk + ps * d.mhz }
               gtcHalf := if p.gtcOn then p.gtcHalf - ps else p.gtcHalf }
    let clks (k : Nat) : Nat := t.clk k - before k
    { t with ctxs := t.ctxs.map fun c =>
      let waits := (c.seats.map fun k => if s.waitsEntry k.1 c.id then clks k.1 else 0).sum
      { c with wdogs := s.tickDogs c clks
               regs := { c.regs with perf := if waits == 0 then c.regs.perf else Table.add c.regs.perf 0x03 waits } } }

end Sys2Proof.Machine
end

