-- ==== Sys2Proof/Machine/Outside.lean ====
section
/-! DEFINITION. What comes in from outside the package without an event of the opcode table: traffic of other packages,
bit errors (R404 to R408), and what management firmware and system software supply. -/

namespace Sys2Proof.Machine

/-- R406: what the rows of a sector's standing errors add up to once a row's fault joins them. -/
def withError (e cls : Nat) : Nat :=
  e ||| (match cls with
    | 1 => 1 | 3 => 2 | _ => 4)

/-- R406, R408: an error appears in a store; `cls` is the row of R406 (1 address, 3 uncorrectable, 4 correctable). Accesses count
it. DESIGN CHOICE (log 125). DEDUCED (log 178). -/
def State.upset (s : State) (store core idx sub cls : Nat) : State :=
  let single := cls == 4
  let add (ls : List Nat × List Nat) (i : Nat) : List Nat × List Nat := if single then (ls.1, i :: ls.2) else (i :: ls.1, ls.2)
  let inCode (i : Nat) : State := s.modCore core fun k =>
    let ls := add (k.codeUe, k.codeCe) i
    { k with codeUe := ls.1, codeCe := ls.2 }
  match store with
  | 0 => s.modMs fun m => { m with errs := Table.set m.errs idx (withError (Table.get m.errs idx) cls) }
  | 1 => s.modTileIdx core idx fun t =>
    let ls := add (t.ue, t.ce) sub
    { t with ue := ls.1, ce := ls.2 }
  | 2 => s.modFrame core idx fun f =>
    { f with slots := f.slots.modify sub fun x => { x with ue := x.ue || !single, ce := x.ce || single } }
  | 3 => s.modEng core fun g => { g with pw := g.pw.modify idx fun w => { w with ue := w.ue || !single, ce := w.ce || single } }
  | 4 => inCode idx
  | 6 => inCode (32768 + idx)
  | _ => s.modEng core fun g =>
    let ls := add (g.scratchUe, g.scratchCe) idx
    { g with scratchUe := ls.1, scratchCe := ls.2 }

/-- R203, R282: the response of a package to its parts of a request of this package; `bytes` are those of its reads in order. -/
def State.remoteAnswer (s : State) (id pkg status : Nat) (result : Word) (bytes : List Byte) : State :=
  match s.req? id with
  | none => s
  | some r =>
    let far (p : Piece) : Bool := match p.place with
      | .mem pa _ _ => !s.isLocal pa && paPkg pa == pkg
      | _ => false
    if r.st == 2 && !r.done && !r.foreign && r.pieces.any far then
      let put (acc : List Host.Cell × List Byte) (x : Loc × Nat × Nat × PieceOp) : List Host.Cell × List Byte :=
        if x.2.2.2 == .read then (Memory.setMany acc.1 x.2.2.1 (acc.2.take x.2.1), acc.2.drop x.2.1) else acc
      let got := (((r.pieces.filter far).flatMap Piece.spans).foldl put (r.got, bytes)).1
      (s.modReq id fun r =>
        { r with status := if r.status == 0 then status else r.status, result := result, got := got
                 reach := if status == 0 then r.reach else none
                 pieces := r.pieces.filter fun p => !far p }).settleReq id
    else s

/-- R439: the transport's answer to an RDMA WRITE, or to an RDMA READ with its bytes; a transport error, or the exhaustion of its
retries, is LINK_TIMEOUT. -/
def State.netAnswer (s : State) (id : Nat) (ok : Bool) (bytes : List Byte) : State :=
  match s.req? id with
  | none => s
  | some r =>
    if r.overNet && !r.done then
      (s.modReq id fun r => { r with status := if ok then 0 else stLinkTimeout, got := Memory.setMany [] 0 bytes, pieces := [] }).settleReq id
    else s

/-- R359, R360: the drain marker of a core of another package: its held requests leave their queues, and the fence goes
back with the entries logged. DEDUCED (log 108). -/
def State.farFence (s : State) (pkg ctx core : Nat) : State :=
  let key := 2 ^ 16 * (pkg + 1) + ctx
  let mine (r : Req) : Bool := r.site.ctx == key && r.site.core == core
  if s.ms.reqs.any fun r => mine r && !r.waits then s
  else
    let es := s.ms.log.filter fun l => l.ctx == key && l.core == core
    (s.modMs fun m => { m with reqs := m.reqs.filter fun r => !mine r, farMarks := m.farMarks.filter fun k => k != key * 256 + core }).send
      (.fence pkg core ctx es)

/-- R422: a request of another package accesses encrypted sectors with the keys that its tenant has here. -/
def State.rekeyed (s : State) (tenant : Nat) (p : Piece) : Piece :=
  let own (l : Loc) : Loc := match l with
    | .mem pa tag key => .mem pa tag (s.keyFor tenant pa (key != 0))
    | l => l
  { p with place := own p.place, more := p.more.map fun q => (own q.1, q.2) }

/-- R370, R372, R373: a context of another package has ended: its entries, marks and watch units go. -/
def State.releaseFar (s : State) (pkg ctx : Nat) : State :=
  let key := 2 ^ 16 * (pkg + 1) + ctx
  s.modMs fun m =>
    { m with log := m.log.filter fun l => l.ctx != key
             farMarks := m.farMarks.filter fun k => k / 256 != key
             farWatch := m.farWatch.filter fun w => !(w.pkg == pkg && w.ctx == ctx) }

/-- R404, R405: a token on its way through a static circuit fails the route check at a switch of a die. -/
def State.misroute (s : State) (i die : Nat) : State :=
  match s.flight[i]? with
  | none => s
  | some q =>
    if q.route == 0 then s else
      let s := { s with flight := s.flight.eraseIdx i }
      -- R404, R405: the switch's die and, where it is another, the receiving core's
      let s := if die == dieOf q.core then s else s.countDropped die
      let s := s.countRoute q.core
      if q.epkg == s.plat.pkg then s.record q.ectx stRoute else s.send (.report q.epkg q.ecore q.ectx stRoute)

/-- R426: a token of another package is accepted for a job whose membership list names that package. -/
def State.tokenMember (s : State) (q : QTok) : Bool :=
  let ctx := match q.dst with
    | .frame => (s.frame? q.core q.frame).map fun (f : Frame) => f.ctx
    | .inject _ c _ => some c
    | .inport _ _ _ => match s.bindArrival q with
      | .bound c _ _ => some c
      | _ => none
  match ctx.bind s.ctx? with
  | some c => q.epkg == s.plat.pkg || (s.peers c.jobKey).contains q.epkg
  | none => true

/-- R97, R137: the order of the tokens of one circuit of another package; from the networks without circuits none. -/
def farStream (q : QTok) : Nat := if q.route == 0 then 0 else 2 ^ 60 + (q.epkg * 256 + q.ecore) * 1024 + q.route

/-- R136, R137: a granule of a departing tile leaves its core, in any order. DESIGN CHOICE (log 139). -/
def State.departed (s : State) (i k : Nat) : State :=
  match s.departing[i]? with
  | none => s
  | some d => match d.left[k]? with
    | some g => s.leaveGran d g
    | none => s

/-- R416: a spare takes in a context that was saved elsewhere: its area has been copied to where it names one, and with it the
suppression entries of the package that it replaces; its job is halted. DESIGN CHOICE (log 181). -/
def State.adopt (s : State) (c : Ctx) (seed : Nat) (log : List Logged) : State :=
  if (s.ctx? c.id).isSome then s
  else
    let c := { c with mode := .saved, seats := [] }
    let s := if (s.job? c.jobKey).isSome then s else s.modPlat fun p => { p with jobs := p.jobs ++
      [{ id := c.job, tenant := c.tenant, rights := ((s.tenant? c.tenant).map fun t => Table.get t.rights c.job).getD 0, state := .halted }] }
    let s := (s.modMs fun m => { m with log := m.log ++ log }).modDisp fun d => { d with shots := (seed, c) :: d.shots }
    { s with ctxs := s.ctxs ++ [c] }

/-- What comes in. DEDUCED (log 164). DESIGN CHOICE (log 180). -/
def State.fromOutside (s : State) (o : Outside) : State :=
  match o with
  | .token q =>
    if s.tokenMember q then { s with flight := s.flight ++ [{ q with due := 0, stream := farStream q }] } else s.countDropped (dieOf q.core)
  | .report core ctx st => { s with reports := s.reports ++ [(core, ctx, st)] }
  | .response id pkg st v bs => s.remoteAnswer id pkg st v bs
  | .rdma id ok bs => s.netAnswer id ok bs
  | .request r pkg job =>
    -- R426: a request that names a job is answered only when a membership list of the tenant names its package
    if s.plat.members.any fun m => m.tenant == r.tenant && m.job == job && m.packages.contains pkg then
      s.modMs fun m => { m with
        reqs := m.reqs ++ [{ r with id := m.reqSeq, far := r.id, noEntry := true, job := jobKey r.tenant job, st := 2, done := false, seen := false,
                                    pieces := r.pieces.map (s.rekeyed r.tenant), pieces0 := r.pieces.map (s.rekeyed r.tenant), reach := none,
                                    site := { r.site with ctx := 2 ^ 16 * (pkg + 1) + r.site.ctx % 2 ^ 16 } }]
        reqSeq := m.reqSeq + 1 }
    else s.send (.answer pkg r.id stPerm 0 [] (r.paddr / 256))
  | .upset store core idx sub cls => s.upset store core idx sub cls
  | .misroute i die => s.misroute i die
  | .departed i k => s.departed i k
  | .tier2 gib ports =>
    if ports == 1 || ports == 2 || ports == 4 then s.modPlat fun p => { p with tier2 := gib * 2 ^ 30, cxl := ports } else s
  | .hostRead fn off => s.hostReads fn off
  | .walk pkg tenant va => s.modMs fun m => { m with farWalks := m.farWalks ++ [{ pkg := pkg, tenant := tenant, va := va }] }
  | .rowFault core => { s with rowFaults := s.rowFaults ++ [core] }
  | .scalarFault core => { s with scalarFaults := s.scalarFaults ++ [core] }
  | .freePage pa => s.modMs fun m => { m with freePages := m.freePages ++ [pa] }
  | .savePool t base bytes => s.modDisp fun d => { d with pools := (t, base, bytes) :: d.pools.filter fun p => p.1 != t }
  | .queueOwner q t => s.modDisp fun d => { d with queues := d.queues.modify q fun x => { x with tenant := t } }
  | .l2pStart => s.modPlat fun p => { p with l2pPending := p.l2pPending + 1 }
  | .gtcMaster on => s.modPlat fun p => { p with master := on, lock := p.lock || on, gtcOn := p.gtcOn || on }
  | .l2pAck => s.modPlat fun p => { p with l2pPending := p.l2pPending - 1 }
  | .watchHit ctx n a b =>
    match s.ctx? ctx with
    | none => s
    | some c =>
      let w := c.regs.watch.getD n {}
      s.trap { cause := 3, core := w.core, site := { core := w.core, ctx := ctx }, code := n, a := scalarTok {} a, b := b } w.halts
  | .farMark pkg ctx core => s.modMs fun m => { m with farMarks := ((2 ^ 16 * (pkg + 1) + ctx) * 256 + core) :: m.farMarks }
  | .farMarker pkg ctx core => s.farFence pkg ctx core
  | .fence pkg ctx core es =>
    let n := nodeCount + pkg
    let s := s.modMs fun m => { m with log := m.log ++ es.map fun l => { l with node := n, num := l.node, pkg := s.plat.pkg, ctx := ctx, job := s.ctxJob ctx } }
    (s.modCtx ctx fun c => if c.fences.contains (core, n) then c.dropFence s.gtc (core, n) else c).stopJobs
  | .loadImage t bs => s.manageLoad t bs
  | .relay pkg job r => if (s.peers job).contains pkg then s.relayed pkg job r else s.countDropped 9
  | .armAck job pkg t => s.armAck job pkg t
  | .command tenant ws => s.takeCommand tenant ws
  | .release pkg ctx => s.releaseFar pkg ctx
  | .watchSet w no =>
    (s.modMs fun m =>
      { m with farWatch := (m.farWatch.filter fun x => !(x.pkg == w.pkg && x.ctx == w.ctx && x.at'.n == w.at'.n)) ++
                           (if w.at'.unit.checks atHome then [w] else []) }).send (.watchAck w.pkg w.ctx no)
  | .watchAck pkg ctx no =>
    (s.modCtx ctx fun c => { c with watchWaits := c.watchWaits.map fun w =>
      if w.count == no then { w with on := w.on.erase pkg } else w }).endWatchWaits ctx
  | .cancelled job pkg back => s.cancelBack job pkg back
  | .flits port sent acked => s.modPort port fun x =>
    { x with sent := x.sent + sent, aged := x.aged + sent, acked := min (x.acked + acked) (x.sent + sent) }
  | .flitIn port no => s.modPort port fun x => if no == x.got then { x with got := x.got + 1 } else x
  | .linkSession port secret => s.modPort port fun x => { x with session := secret, key := 0, aged := 0 }
  | .ideKey vf key => if s.hasSession (vf - 1) then s.modVf vf fun v => { v with ide := some key } else s
  | .adopt c seed log => s.adopt c seed log
  | .logicalId pkg => s.modPlat fun p => { p with pkg := pkg }

end Sys2Proof.Machine
end

