-- ==== Sys2Proof/Machine/Step.lean ====
section
/-! DEFINITION. One step of the package: the next turn of the agenda lets its time pass and then one thing happens:
a core selects a token, an event of the opcode table is performed, or something comes in from outside. With no turn
left only time passes. `withFetchWord` places one instruction word where the next step selects it. -/

namespace Sys2Proof.Machine

/-- Whether a constructor is an event, which a turn may name; token instructions run only by selection. -/
def isEvent (i : Instr) : Bool := (encode i).isNone

/-- What a turn does. DEDUCED (log 4). -/
def State.perform (s : State) (a : Act) : Host.Outcome State Fault Refusal :=
  match a with
  | .select core busy => s.select core busy
  | .event i => if isEvent i && i.wellFormed then exec i s else .next s
  | .outside o => .next (s.fromOutside o)
  | .idle => .next s

/-- The next turn. DESIGN CHOICE (log 2). -/
def State.turn (s : State) : Turn := s.agenda.headD { ps := 1000, act := .idle }

/-- One step. DESIGN CHOICE (log 137). -/
def step (s : State) : Host.Outcome State Fault Refusal :=
  ({ s with agenda := s.agenda.tail }.advance s.turn.ps).perform s.turn.act

/-- A context that runs in slot 0 of a region made of core 0. DESIGN CHOICE (log 5). -/
def bareCtx : Ctx := { id := 1, home := 0, cslot := 0, cid := 1, seats := [(0, 0)] }

/-- The operands and the token that let a word of `ar` operands fire: handles and addresses of nothing, value 0. -/
def bareTok (port : Nat) : QTok := { dst := .frame, port := port }

def bareFrame (ar slot : Nat) : Frame :=
  let f := newFrame 0 1 0 0 (2 ^ 27) []
  let slots := List.replicate 256 ({} : Slot)
  { f with slots :=
    if ar == 2 then slots.set slot { pres := 1, vport := 0 }
    else if ar == 3 then (slots.set slot { pres := 3, vport := 0 }).set (slot + 1) { vport := 1 } else slots }

/-- The state with a word stored as instruction 0 of block 0 of slot 0 on core 0, in a live frame of a context, its
operands present, and the turn that selects it next (the log says what this stands for). DESIGN CHOICE (log 5). -/
def State.withFetchWord (s : State) (nbits w : Nat) : State :=
  let v := w % 2 ^ nbits
  let ar := (Fields.ofNat v).ar
  let slot := (Fields.ofNat v).slot
  let s := s.modCore 0 fun k =>
    { k with
      desc := [(0, BitVec.ofNat 64 (255 * 2 ^ 56 + 127 * 2 ^ 49 + 2 ^ 27 + 2 ^ 24 + 2 ^ 20))]
      code := if v % 2 ^ 128 == 0 then [] else [(0, BitVec.ofNat 128 v)]
      tok := { k.tok with fifo0 := [bareTok (ar - 1)] }
      frm := { k.frm with frames := [bareFrame ar slot], free := k.frm.free.filter fun n => n != 0 } }
  { s with
    ctxs := [bareCtx]
    regions := [{ home := 0, cores := [0], slots := [{ state := .active, cid := 1, placed := [(0, 0)] }, {}, {}, {}] }]
    agenda := [{ act := .select 0 [] }] }

end Sys2Proof.Machine
end

