-- ==== Sys2Proof/Safety.lean ====
section
/-! DEFINITION. What counts as a safe run: the invariants that claims are stated in. -/

namespace Sys2Proof.Safety

open Sys2Proof.Machine

/-- The sparse memories of the machine are in canonical form. -/
def MemInv (s : State) : Prop := Memory.wf s.ms.mem = true

/-- A step that goes on. -/
def goesOn (o : Host.Outcome State Fault Refusal) : Bool :=
  match o with
  | .next _ => true
  | _ => false

end Sys2Proof.Safety
end

