-- ==== Sys2Proof/Certificates/Slice0/Obligations.lean ====
section
/-! DEFINITION. The statements about the model, with the few words they are written in. -/

namespace Sys2Proof.Claims

open Sys2Proof.Machine

/-- R93, R96: a token that a read position accepts, with the residue of its value. -/
def readable (t : Tok) : Prop := (t.kind = kScalar ∨ t.kind = kDecision) ∧ t.res = residue255 t.val

/-- Operands of a scalar firing on a core whose scalar unit has no fault of its own. -/
def scalars (s : State) (ops : List Tok) : Prop := (∀ t ∈ ops, readable t) ∧ s.cur.site.core ∉ s.scalarFaults

/-- R94: operands among which is neither poison nor EOS. -/
def clean (ops : List Tok) : Prop := ∀ t ∈ ops, t.kind ≠ kPoison ∧ t.kind ≠ kEos

/-- R93: clean operands of which some stand in read positions. -/
def reads (ops : List Tok) : Prop := ∀ t ∈ ops, t.kind = kScalar ∨ t.kind = kDecision

/-- The integer types of R27. -/
def isInteger (t : Ty) : Prop := t ∈ [Ty.s8, .s16, .s32, .s64, .z8, .z16, .z32, .z64]

def isSigned (t : Ty) : Bool := [Ty.s8, .s16, .s32, .s64].contains t

/-- The width of an integer type. -/
def width : Ty → Nat
  | .s8 | .z8 => 8
  | .s16 | .z16 => 16
  | .s32 | .z32 => 32
  | _ => 64

/-- R58: a 64-bit word reduced to the width of an integer type and extended again. -/
def fit : Ty → Word → Word
  | .s8, v => (v.setWidth 8).signExtend 64
  | .s16, v => (v.setWidth 16).signExtend 64
  | .s32, v => (v.setWidth 32).signExtend 64
  | .z8, v => (v.setWidth 8).setWidth 64
  | .z16, v => (v.setWidth 16).setWidth 64
  | .z32, v => (v.setWidth 32).setWidth 64
  | _, v => v

/-- R117: the number that an operand stands for. -/
def number (t : Ty) (v : Word) : Int := if isSigned t then (fit t v).toInt else (fit t v).toNat

/-- R58: a number reduced modulo 2^w and extended. -/
def reduced (t : Ty) (i : Int) : Word := fit t (BitVec.ofInt 64 i)

/-- R24: the operand that an immediate supplies. -/
def immediate (t : Ty) (imm : BitVec 32) : Word :=
  if isSigned t || [Ty.f32, .bf16, .f16, .e4m3, .e5m2, .e2m1].contains t then imm.signExtend 64 else imm.setWidth 64

/-- R97, R118: a scalar firing emits a scalar of value `v` to D0, D1 and D2 and consumes its operands. -/
def gives (s : State) (p : Par) (ops : List Tok) (v : Word) : Host.Outcome State Fault Refusal :=
  .next (s.finish p latScalar (spread p (scalarTok s.cur.site v)) ops)

/-- An instruction of one operand gives `v` of it. -/
def unary (f : Par → Instr) (v : Ty → Word → Word) : Prop :=
  ∀ (s : State) (p : Par), isInteger p.ty → scalars s [s.cur.l] →
    exec (f p) s = gives s p [s.cur.l] (v p.ty s.cur.l.val)

/-- An instruction of two operands, and its form with an immediate R, gives `v` of them. -/
def binary (f : Par → Instr) (g : Par → BitVec 32 → Instr) (v : Ty → Word → Word → Word) : Prop :=
  ∀ (s : State) (p : Par) (imm : BitVec 32), isInteger p.ty →
    (scalars s [s.cur.l, s.cur.r] →
      exec (f p) s = gives s p [s.cur.l, s.cur.r] (v p.ty s.cur.l.val s.cur.r.val)) ∧
    (scalars s [s.cur.l] →
      exec (g p imm) s = gives s p [s.cur.l] (v p.ty s.cur.l.val (immediate p.ty imm)))

/-- R139: a token that is the handle of a live tile of the firing's core. -/
def live (s : State) (t : Tok) (x : Tile) : Prop := t.kind = kTile ∧ s.tileOf? s.cur.site.core t.val = some x

/-- The operands of a memory instruction: clean, those in read positions readable. -/
def operands (ops rd : List Tok) : Prop := clean ops ∧ reads rd

/-- An instruction issues request `r` with emissions `ems`, consuming `used` (R203). -/
def issues (i : Instr) (s : State) (p : Par) (kind : Nat) (ems : List (Dest × Tok)) (used : List Tok) (r : Req) : Prop :=
  exec i s = .next (s.fireReq p kind ems used r)

/-- R203: the issue token, a scalar 0 on D1. -/
def issued (s : State) (p : Par) : List (Dest × Tok) := [(p.d1, scalarTok s.cur.site 0)]

end Sys2Proof.Claims

open Sys2Proof Sys2Proof.Machine Sys2Proof.Claims

/-! ## Graph instructions -/

/-- R100: PASS, GATE and JOIN complete and emit L, or the operand that SELP selects, unchanged but for phase and priority
(R96), to D0, D1 and D2, 2 clk later; every operand is consumed.
R101: CONST forms IMM zero-extended, or sign-extended for s64, at the width of TY, or IMM times 2^32 with MOD hi. R116:
SELF and LEVEL emit what the firing's own place names. R211 and R234 to R239: GETC, TIME and PERF read a register, the GTC
and a counter. All complete on any trigger. -/
def Obligations.OperandsAndConstantsAreEmitted : Prop :=
  (∀ (s : State) (p : Par) (imm : BitVec 32) (selp : Port),
    let i : Tok := { val := immediate p.ty imm, kind := kScalar, res := residue255 (immediate p.ty imm) }
    let out (t : Tok) : List (Dest × Tok) := [p.d0, p.d1, p.d2].map fun d => (d, { t with phase := s.cur.site.phase, prio := s.cur.site.prio })
    let pick (l r c : Tok) : Tok := match selp with
      | .l => l
      | .r => r
      | .c => c
    (clean [s.cur.l] →
      exec (.pass p) s = .next (s.finish p 2 (out s.cur.l) [s.cur.l]) ∧
      exec (.gateImm p imm) s = .next (s.finish p 2 (out s.cur.l) [s.cur.l]) ∧
      (selp ≠ .c → exec (.joinImm p selp imm) s = .next (s.finish p 2 (out (pick s.cur.l i {})) [s.cur.l]))) ∧
    (clean [s.cur.l, s.cur.r] →
      exec (.gate p) s = .next (s.finish p 2 (out s.cur.l) [s.cur.l, s.cur.r]) ∧
      (selp ≠ .c → exec (.join p selp) s = .next (s.finish p 2 (out (pick s.cur.l s.cur.r {})) [s.cur.l, s.cur.r])) ∧
      exec (.join3Imm p selp imm) s = .next (s.finish p 2 (out (pick s.cur.l s.cur.r i)) [s.cur.l, s.cur.r])) ∧
    (clean [s.cur.l, s.cur.r, s.cur.c] →
      exec (.join3 p selp) s =
        .next (s.finish p 2 (out (pick s.cur.l s.cur.r s.cur.c)) [s.cur.l, s.cur.r, s.cur.c]))) ∧
  (∀ (s : State) (p : Par) (imm : BitVec 32), clean [s.cur.l] →
    let site := s.cur.site
    let out (v : Word) : Host.Outcome State Fault Refusal :=
      .next (s.finish p latGraph (spread p (scalarTok site v)) [s.cur.l])
    exec (.const p true imm) s = out (imm.setWidth 64 <<< 32) ∧
    (isInteger p.ty → p.ty ≠ .s64 → exec (.const p false imm) s = out (fit p.ty (imm.setWidth 64))) ∧
    (p.ty = .s64 → exec (.const p false imm) s = out (imm.signExtend 64)) ∧
    (p.ty = .f32 ∨ p.ty = .none → exec (.const p false imm) s = out (imm.setWidth 64)) ∧
    (p.ty = .bf16 ∨ p.ty = .f16 → exec (.const p false imm) s = out ((imm.setWidth 16).setWidth 64)) ∧
    (p.ty = .e4m3 ∨ p.ty = .e5m2 → exec (.const p false imm) s = out ((imm.setWidth 8).setWidth 64)) ∧
    (p.ty = .e2m1 → exec (.const p false imm) s = out ((imm.setWidth 4).setWidth 64)) ∧
    exec (.self p .frame) s = out (BitVec.ofNat 64 site.frame) ∧
    exec (.self p .core) s = out (BitVec.ofNat 64 site.core) ∧
    exec (.self p .pkg) s = out (BitVec.ofNat 64 s.plat.pkg) ∧
    exec (.self p .ctx) s = out (BitVec.ofNat 64 site.ctx) ∧
    exec (.self p .blk) s = out (BitVec.ofNat 64 (site.cslot * 64 + site.block)) ∧
    (∀ f id, s.frame? site.core site.frame = some f → f.loop = some id → exec (.self p .iter) s = out (BitVec.ofNat 64 f.iter)) ∧
    (∀ k, s.cslot? site.core site.cslot = some k → exec (.self p .cid) s = out (BitVec.ofNat 64 k.cid)) ∧
    (∀ c f (lvl : BitVec 3), s.ctx? site.ctx = some c → s.frame? site.core site.frame = some f →
      c.levels.length = f.inst.length →
      exec (.level p false lvl) s = out (BitVec.ofNat 64 (f.inst.getD lvl.toNat 0)) ∧
      exec (.level p true lvl) s = out (BitVec.ofNat 64 ((c.levels.map fun l => l.2.1).getD lvl.toNat 1))) ∧
    exec (.time p) s = out (BitVec.ofNat 64 s.gtc) ∧
    (∀ idx : BitVec 12, exec (.getc p idx) s = out (s.readReg site idx.toNat)) ∧
    (∀ ctr : BitVec 8, exec (.perf p ctr) s = out (BitVec.ofNat 64 (s.counter site ctr.toNat))))

/-- R102: STEER completes and sends L to D0 where the w bits of its predicate are not 0, and to D1 where they are, and the
other way round with MOD inv; D2 and the branch not taken receive nothing, and poison or EOS goes to both. A predicate of another kind makes it FORMAT.
R103: DISP completes and sends L to the entry of the table that its index names, read as an integer of TY; an index
below 0 or past the last entry sends it to D0. -/
def Obligations.SteerAndDispatchChooseADestination : Prop :=
  (∀ (s : State) (p : Par) (inv : Bool) (imm : BitVec 32), (isInteger p.ty ∨ p.ty = .none) →
    let side (v : Word) : Dest := if (decide (fit p.ty v ≠ 0)) != inv then p.d0 else p.d1
    (clean [s.cur.l, s.cur.r] → reads [s.cur.r] → exec (.steer p inv) s =
      .next (s.finish p latGraph [(side s.cur.r.val, carryTok s.cur.site s.cur.l)] [s.cur.l, s.cur.r])) ∧
    (clean [s.cur.l] → exec (.steerImm p inv imm) s =
      .next (s.finish p latGraph [(side (immediate p.ty imm), carryTok s.cur.site s.cur.l)] [s.cur.l])) ∧
    (clean [s.cur.l, s.cur.r] → ¬ reads [s.cur.r] → exec (.steer p inv) s =
      .next (s.failing p latGraph stFormat [s.cur.l, s.cur.r])) ∧
    (∀ t, badInput [s.cur.l, s.cur.r] = some t → p.d2 = .none → exec (.steer p inv) s =
      .next (s.finish p latGraph [(p.d0, carryTok s.cur.site t), (p.d1, carryTok s.cur.site t), (.none, carryTok s.cur.site t)]
        [s.cur.l, s.cur.r]))) ∧
  (∀ (s : State) (p : Par) (tbl : BitVec 6) (imm : BitVec 32), (isInteger p.ty ∨ p.ty = .none) →
    let k := s.core s.cur.site.core
    let n := descExits (k.descOf s.cur.site.cslot tbl.toNat)
    let signed := isSigned p.ty || p.ty == .none
    let side (v : Word) : Dest :=
      let i : Int := if signed then (fit p.ty v).toInt else (fit p.ty v).toNat
      if 0 ≤ i ∧ i < n then k.tableEntry s.cur.site.cslot tbl.toNat i.toNat else p.d0
    (clean [s.cur.l, s.cur.r] → reads [s.cur.r] → exec (.disp p tbl) s =
      .next (s.finish p latGraph [(side s.cur.r.val, carryTok s.cur.site s.cur.l)] [s.cur.l, s.cur.r])) ∧
    (clean [s.cur.l] → exec (.dispImm p tbl imm) s =
      .next (s.finish p latGraph [(side (immediate p.ty imm), carryTok s.cur.site s.cur.l)] [s.cur.l])))

/-- R106, R107: MKCONT completes and emits the continuation of its own frame at the node and port it names. CNTN and SENDF
complete: L goes, with the reference that it holds, to the frame that R names, CNTN at R's own node and port and SENDF at
those of its word, and D0 receives the scalar 0; an R that is no continuation makes them FORMAT.
R104, R105: FNEW on a core of its region that holds the block completes by appending one request to that core's allocation FIFO; the
request carries L to the node and port of the word, and nothing is emitted before the frame is granted. On a core that
does not hold the block it emits poison ROUTE.
R110: ITER with NEXT 0 on a core that holds the block completes: it opens a loop with the block's k-bound, whose one
request carries the operands, and emits nothing yet; with NEXT 1 it appends its request to the loop of its own frame, and
outside a loop it emits poison ROUTE. -/
def Obligations.FramesLoopsAndContinuations : Prop :=
  (∀ (s : State) (p : Par) (node : BitVec 7) (port : Port),
    let site := s.cur.site
    let ops := [s.cur.l, s.cur.r]
    let sent (n q : Nat) : State :=
      (s.toCont site s.cur.r.val n q (carryTok site s.cur.l)).finish p latGraph [(p.d0, scalarTok site 0)] []
    (clean [s.cur.l] → exec (.mkcont p node port) s =
      .next (s.finish p latGraph (spread p (mkTok site kCont
        (contVal s.plat.pkg site.core site.frame site.cslot site.block node.toNat (portCode port)))) [s.cur.l])) ∧
    (clean ops → s.cur.r.kind = kCont →
      exec (.cntn p) s = .next (sent (s.cur.r.val.toNat / 2 ^ 17 % 128) (s.cur.r.val.toNat / 2 ^ 15 % 4)) ∧
      exec (.sendf p node port) s = .next (sent node.toNat (portCode port))) ∧
    (clean ops → s.cur.r.kind ≠ kCont →
      exec (.cntn p) s = .next (s.failing p latGraph stFormat ops) ∧
      exec (.sendf p node port) s = .next (s.failing p latGraph stFormat ops))) ∧
  (∀ (s : State) (p : Par) (node : BitVec 7) (port : Port) (block : BitVec 6) (imm : BitVec 32),
    let site := s.cur.site
    let req : FrameReq :=
      { site := site, d0 := p.d0, d1 := p.d1, d2 := p.d2, why := .fnew, ctx := site.ctx, cslot := site.cslot,
        block := block.toNat, inst := s.curFrame.inst, give := [(node.toNat, portCode port, carryTok site s.cur.l)],
        node := node.toNat, port := portCode port }
    let asked (s : State) (core : Nat) (used : List Tok) : Host.Outcome State Fault Refusal :=
      .next ((s.modFrm core fun u => { u with fifo := u.fifo ++ [req] }).finish p latGraph [] used)
    let named := s.cur.r.val.toNat % 256
    let namedImm := (immediate p.ty imm).toNat % 256
    (clean [s.cur.l] → s.holdsFor site site.core block.toNat = true →
      exec (.fnew p .loc node port block) s = asked s site.core []) ∧
    (∀ c, clean [s.cur.l] → s.leastCore site block.toNat (Config.choice s.fresh) = some c → s.holdsFor site c block.toNat = true →
      exec (.fnew p .least node port block) s = asked { s with fresh := s.fresh + 1 } c []) ∧
    (clean [s.cur.l, s.cur.r] → reads [s.cur.r] → s.holdsFor site named block.toNat = true →
      exec (.fnewNamed p .named node port block) s = asked s named [s.cur.r]) ∧
    (clean [s.cur.l] → s.holdsFor site namedImm block.toNat = true →
      exec (.fnewNamedImm p .named node port block imm) s = asked s namedImm []) ∧
    (clean [s.cur.l] → s.holdsFor site site.core block.toNat = false →
      exec (.fnew p .loc node port block) s = .next (s.failing p latGraph stRoute [s.cur.l]))) ∧
  (∀ (s : State) (p : Par) (node : BitVec 7) (port : Port) (block : BitVec 6) (imm : BitVec 32),
    let site := s.cur.site
    let i : Tok := { val := immediate p.ty imm, kind := kScalar, res := residue255 (immediate p.ty imm) }
    let one := [(portCode port, s.cur.l)]
    let two := [(0, s.cur.l), (1, s.cur.r)]
    let twoImm := [(0, s.cur.l), (1, i)]
    let req (id b : Nat) (give : List (Nat × Tok)) : FrameReq :=
      { site := site, d0 := p.d0, d1 := p.d1, d2 := p.d2, why := .iter id, ctx := site.ctx, cslot := site.cslot, block := b,
        inst := s.curFrame.inst, give := give.map fun g => (node.toNat, g.1, carryTok site g.2), node := node.toNat,
        port := portCode port }
    let put (u : FrameUnit) (id b : Nat) (give : List (Nat × Tok)) : FrameUnit :=
      FrameUnit.pump { u with loops := u.loops.map fun l => if l.id == id then { l with pend := l.pend ++ [req id b give] } else l } id
    let opened (u : FrameUnit) : FrameUnit :=
      { u with loopSeq := u.loopSeq + 1
               loops := u.loops ++ [{ id := (s.core site.core).frm.loopSeq, ctx := site.ctx, cslot := site.cslot, block := block.toNat,
                                      kb := descKb ((s.core site.core).descOf site.cslot block.toNat) }] }
    let first (give : List (Nat × Tok)) : Host.Outcome State Fault Refusal :=
      .next (((s.modFrm site.core opened).modFrm site.core fun u =>
        put u (s.core site.core).frm.loopSeq block.toNat give).finish p latGraph [] [])
    let again (give : List (Nat × Tok)) (id : Nat) : Host.Outcome State Fault Refusal :=
      .next ((s.modFrm site.core fun u => put u id s.curFrame.block give).finish p latGraph [] [])
    (clean [s.cur.l] → s.holds site.core site.cslot block.toNat = true →
      exec (.iter p false node port block) s = first one ∧ exec (.iter2Imm p false node port block imm) s = first twoImm) ∧
    (clean [s.cur.l, s.cur.r] → s.holds site.core site.cslot block.toNat = true →
      exec (.iter2 p false node port block) s = first two) ∧
    (∀ id, s.curFrame.loop = some id →
      (clean [s.cur.l] → exec (.iter p true node port block) s = again one id ∧
        exec (.iter2Imm p true node port block imm) s = again twoImm id) ∧
      (clean [s.cur.l, s.cur.r] → exec (.iter2 p true node port block) s = again two id)) ∧
    (clean [s.cur.l] → s.curFrame.loop = none →
      exec (.iter p true node port block) s = .next (s.failing p latGraph stRoute [s.cur.l])))

/-- R111: EXIT completes, poison and EOS alike: it emits L to D0, D1 and D2 and counts one exit of its activation; before the
last one the frame stays; at the last one the activation completes: what it still holds is released, its parked operands are
counted as orphans, its open streams close, and its frame returns to the tail of the free list (R253).
R112: FSET completes: it stores L in a variable slot of its frame and emits 0; FGET completes and emits the slot's
token, poison DATA_UE where the slot has an uncorrectable error, and a corrected one is counted (R408); what FSET displaces
is released. -/
def Obligations.ExitsAndFrameVariables : Prop :=
  (∀ (s : State) (p : Par) (f : Frame),
    let site := s.cur.site
    let emitted := s.finish p latGraph (spread p (carryTok site s.cur.l)) [s.cur.l]
    let u := emitted.modFrame site.core site.frame fun f => { f with exits := f.exits - 1 }
    let parked := if f.hnd then 0 else (f.slots.map fun x => if x.pres == 0 then 0 else bf x.pres 0 1 + bf x.pres 1 1 + bf x.pres 2 1).sum
    let v := ((f.slots.foldl (fun s x => s.release site.core x.tok) u).modRegs f.ctx fun r =>
      { r with orphans := min (r.orphans + parked) 65535 }).closeStreams site.core site.frame f.ctx
    let w := if descTrace ((v.core site.core).descOf f.cslot f.block) then
      v.traceRec { core := site.core, ctx := f.ctx } 2 (BitVec.ofNat 64 parked) 0 0 else v
    (emitted.frame? site.core site.frame = none → exec (.exit p) s = .next u) ∧
    (emitted.frame? site.core site.frame = some f →
      (2 ≤ f.exits → exec (.exit p) s = .next u) ∧
      (f.exits ≤ 1 → exec (.exit p) s = .next (w.modFrm site.core fun k =>
        let k : FrameUnit := { k with frames := k.frames.filter fun x => x.num != site.frame, free := k.free ++ [site.frame] }
        match f.loop with
        | some id => k.iterDone id
        | none => k)))) ∧
  (∀ (s : State) (p : Par) (var : BitVec 8), clean [s.cur.l] →
    (exec (.fset p var) s = .next ((s.modFrame s.cur.site.core s.cur.site.frame fun f =>
        { f with slots := f.slots.modify var.toNat fun x => { x with tok := { s.cur.l with prio := x.tok.prio }, ue := false, ce := false } }).finish
          p latGraph (spread p (scalarTok s.cur.site 0)) [(s.curFrame.slot var.toNat).tok])) ∧
    (let x := s.curFrame.slot var.toNat
     let die := dieOf s.cur.site.core
     let u := if x.ce then s.countCe die else s
     (x.ue = false → exec (.fget p var) s = .next (u.finish p latGraph (spread p (carryTok s.cur.site x.tok)) [s.cur.l])) ∧
     (x.ue = true → exec (.fget p var) s = .next ((u.countUe die).finish p latGraph
       (spread p (carryTok s.cur.site (poisonTok u { core := s.cur.site.core } stDataUe))) [s.cur.l]))))

/-- R114: ISEOS completes on every operand and tells EOS from the rest, poison passing; MKEOS completes and makes an EOS of
its operand's value. R108: SEND completes, delivers L, with the reference that it holds, to the in-port that the target word names, and
gives D0 the scalar 0. R115: PHOPEN completes and emits L in its phase; PHCLOSE completes by waiting on its region's list. -/
def Obligations.StreamsAndPhases : Prop :=
  ∀ (s : State) (p : Par) (cid : BitVec 8) (ph : BitVec 4) (imm : BitVec 32),
    let site := s.cur.site
    let sent (v : Word) : Host.Outcome State Fault Refusal :=
      .next ((s.toInport site 0 (carryTok site s.cur.l) (v.toNat / 2 ^ 52) (v.toNat / 2 ^ 44 % 256) (v.toNat % 64) cid.toNat 0
        0).finish p latGraph [(p.d0, scalarTok site 0)] [])
    exec (.iseos p) s = .next (s.finish p latGraph (spread p
      (if s.cur.l.kind = kPoison then carryTok site s.cur.l else scalarTok site (if s.cur.l.kind = kEos then 1 else 0))) [s.cur.l]) ∧
    (clean [s.cur.l] →
      exec (.mkeos p) s = .next (s.finish p latGraph (spread p (mkTok site kEos (if isRead s.cur.l then s.cur.l.val else 0))) [s.cur.l]) ∧
      exec (.phopen p ph) s =
        .next (s.finish p latGraph (spread p { s.cur.l with phase := ph.toNat, prio := site.prio }) [s.cur.l]) ∧
      (∀ g, s.region? site.core = some g → exec (.phclose p ph) s =
        .next ((s.modRegion g.home fun g => { g with closes := g.closes ++
          [{ ph := ph.toNat, tok := s.cur.l, site := site, d0 := p.d0, d1 := p.d1, d2 := p.d2 }] }).finish p latGraph [] []))) ∧
    (clean [s.cur.l, s.cur.r] → reads [s.cur.r] → s.cur.r.val.toNat / 64 % 2 ^ 38 = 0 →
      exec (.send p cid) s = sent s.cur.r.val) ∧
    (clean [s.cur.l] → (immediate p.ty imm).toNat / 64 % 2 ^ 38 = 0 →
      exec (.sendImm p cid imm) s = sent (immediate p.ty imm))

/-! ## Scalar integers -/

/-- R58, R98, R118, R123: ADD, SUB, MUL and MAD, and their forms with an immediate, complete and give the sum, the
difference, the product and the multiply-add modulo 2^w, extended by TY: the residues predicted from the operands'
RESIDUE fields never fail the check where no unit fails. -/
def Obligations.IntegerSumsAndProducts : Prop :=
  binary .add .addImm (fun t a b => fit t (a + b)) ∧
  binary .sub .subImm (fun t a b => fit t (a - b)) ∧
  binary .mul .mulImm (fun t a b => fit t (a * b)) ∧
  (∀ (s : State) (p : Par) (imm : BitVec 32), isInteger p.ty →
    (scalars s [s.cur.l, s.cur.r, s.cur.c] →
      exec (.mad p) s = gives s p [s.cur.l, s.cur.r, s.cur.c] (fit p.ty (s.cur.l.val * s.cur.r.val + s.cur.c.val))) ∧
    (scalars s [s.cur.l, s.cur.r] →
      exec (.madImm p imm) s =
        gives s p [s.cur.l, s.cur.r] (fit p.ty (s.cur.l.val * s.cur.r.val + immediate p.ty imm))))

/-- R119: DIV and REM complete, hold the integer divide unit for 4 clk (R97) and truncate toward zero; a divisor of 0 gives
all ones and L, and the signed minimum divided by -1 gives the minimum and 0. -/
def Obligations.IntegerDivision : Prop :=
  ∀ (s : State) (p : Par) (imm : BitVec 32) (b : Word), isInteger p.ty →
    let u := s.modTok s.cur.site.core fun x => { x with idiv := s.clk s.cur.site.core + 4 }
    let a := number p.ty s.cur.l.val
    let q : Word := if number p.ty b = 0 then fit p.ty (-1) else reduced p.ty (a.tdiv (number p.ty b))
    let r : Word := if number p.ty b = 0 then fit p.ty s.cur.l.val else reduced p.ty (a.tmod (number p.ty b))
    (scalars s [s.cur.l, s.cur.r] → b = s.cur.r.val →
      exec (.div p) s = gives u p [s.cur.l, s.cur.r] q ∧ exec (.rem p) s = gives u p [s.cur.l, s.cur.r] r) ∧
    (scalars s [s.cur.l] → b = immediate p.ty imm →
      exec (.divImm p imm) s = gives u p [s.cur.l] q ∧ exec (.remImm p imm) s = gives u p [s.cur.l] r) ∧
    (isSigned p.ty = true → a = -2 ^ (width p.ty - 1) → number p.ty b = -1 →
      number p.ty q = -2 ^ (width p.ty - 1) ∧ r = 0)

/-- R118, R120: AND, OR, XOR and ANDN act on each bit; SHL, SHR and SAR shift by R read as z64, and by w or more leave
0, 0 and copies of the sign; ROL rotates the w bits by R mod w. All complete. -/
def Obligations.IntegerLogicAndShifts : Prop :=
  binary .and .andImm (fun t a b => fit t (a &&& b)) ∧
  binary .or .orImm (fun t a b => fit t (a ||| b)) ∧
  binary .xor .xorImm (fun t a b => fit t (a ^^^ b)) ∧
  binary .andn .andnImm (fun t a b => fit t (a &&& ~~~b)) ∧
  binary .shl .shlImm (fun t a n => fit t (if n.toNat < width t then a <<< n.toNat else 0)) ∧
  binary .shr .shrImm (fun t a n => fit t (BitVec.ofNat 64 ((a.toNat % 2 ^ width t) >>> n.toNat))) ∧
  binary .sar .sarImm (fun t a n => fit t (((a <<< (64 - width t)).sshiftRight (64 - width t)).sshiftRight (min n.toNat 63))) ∧
  binary .rol .rolImm (fun t a n =>
    let w := width t
    let x := a.toNat % 2 ^ w
    fit t (BitVec.ofNat 64 (x <<< (n.toNat % w) ||| x >>> (w - n.toNat % w))))

/-- R117, R118: MULH, ADDS, SUBS, MIN, MAX, ABS and NEG complete and give what the table of R118 says of the numbers
that their operands stand for.
R118, R121, R122: CLZ, CTZ and POPC count in the w bits of L; CMP gives 1 where its condition holds and 0 elsewhere;
SEL moves R where the w bits of L are not 0, else C, unchanged; EXT and INS move the field that the control word names, and
a control word above 4,095 makes the firing emit poison BAD_SPACE. All complete. -/
def Obligations.IntegerOrderSaturationAndFields : Prop :=
  (binary .mulh .mulhImm (fun t a b => reduced t (number t a * number t b / 2 ^ width t)) ∧
  binary .adds .addsImm (fun t a b =>
    reduced t (max (if isSigned t then -2 ^ (width t - 1) else 0)
      (min (if isSigned t then 2 ^ (width t - 1) - 1 else 2 ^ width t - 1) (number t a + number t b)))) ∧
  binary .subs .subsImm (fun t a b =>
    reduced t (max (if isSigned t then -2 ^ (width t - 1) else 0)
      (min (if isSigned t then 2 ^ (width t - 1) - 1 else 2 ^ width t - 1) (number t a - number t b)))) ∧
  binary .min .minImm (fun t a b => reduced t (min (number t a) (number t b))) ∧
  binary .max .maxImm (fun t a b => reduced t (max (number t a) (number t b))) ∧
  unary .abs (fun t a => reduced t (number t a).natAbs) ∧
  unary .neg (fun t a => reduced t (-number t a))) ∧
  (unary .clz (fun t a => BitVec.ofNat 64 ((List.range (width t)).takeWhile fun i => !a.getLsbD (width t - 1 - i)).length) ∧
  unary .ctz (fun t a => BitVec.ofNat 64 ((List.range (width t)).takeWhile fun i => !a.getLsbD i).length) ∧
  unary .popc (fun t a => BitVec.ofNat 64 ((List.range (width t)).filter fun i => a.getLsbD i).length) ∧
  (∀ cond, binary (.cmp · cond) (.cmpImm · cond) (fun t a b =>
    if (match cond with
      | .eq => decide (number t a = number t b) | .ne => decide (number t a ≠ number t b)
      | .lt => decide (number t a < number t b) | .le => decide (number t a ≤ number t b)
      | .gt => decide (number t b < number t a) | .ge => decide (number t b ≤ number t a)
      | .tst => decide (fit t (a &&& b) ≠ 0)) then 1 else 0)) ∧
  (∀ (s : State) (p : Par) (imm : BitVec 32), isInteger p.ty → scalars s [s.cur.l] → clean [s.cur.r, s.cur.c] →
    exec (.sel p) s = .next (s.finish p latScalar
      (spread p (carryTok s.cur.site (if fit p.ty s.cur.l.val ≠ 0 then s.cur.r else s.cur.c))) [s.cur.l, s.cur.r, s.cur.c]) ∧
    exec (.selImm p imm) s = .next (s.finish p latScalar
      (spread p (carryTok s.cur.site (if fit p.ty s.cur.l.val ≠ 0 then s.cur.r else
        { val := immediate p.ty imm, kind := kScalar, res := residue255 (immediate p.ty imm) }))) [s.cur.l, s.cur.r])) ∧
  (∀ (s : State) (p : Par) (imm : BitVec 32) (k : Word),
    let pos := (k.extractLsb' 0 6).toNat
    let m := (k.extractLsb' 6 6).toNat + 1
    let f := s.cur.l.val.toNat / 2 ^ pos % 2 ^ m
    let ext : Word := if p.ty = .s64 then BitVec.ofInt 64 ((BitVec.ofNat m f).toInt) else BitVec.ofNat 64 f
    let mask : Word := BitVec.ofNat 64 ((2 ^ m - 1) * 2 ^ pos)
    (p.ty = .s64 ∨ p.ty = .z64) →
    (scalars s [s.cur.l, s.cur.r] → k = s.cur.r.val → exec (.ext p) s =
      if k.toNat < 4096 then gives s p [s.cur.l, s.cur.r] ext
      else .next (s.failing p latScalar stBadSpace [s.cur.l, s.cur.r])) ∧
    (scalars s [s.cur.l] → k = immediate p.ty imm → exec (.extImm p imm) s =
      if k.toNat < 4096 then gives s p [s.cur.l] ext else .next (s.failing p latScalar stBadSpace [s.cur.l])) ∧
    (scalars s [s.cur.l, s.cur.r, s.cur.c] → k = s.cur.c.val → exec (.ins p) s =
      if k.toNat < 4096 then gives s p [s.cur.l, s.cur.r, s.cur.c] ((s.cur.l.val &&& ~~~mask) ||| ((s.cur.r.val <<< pos) &&& mask))
      else .next (s.failing p latScalar stBadSpace [s.cur.l, s.cur.r, s.cur.c])) ∧
    (scalars s [s.cur.l, s.cur.r] → k = immediate p.ty imm → exec (.insImm p imm) s =
      if k.toNat < 4096 then gives s p [s.cur.l, s.cur.r] ((s.cur.l.val &&& ~~~mask) ||| ((s.cur.r.val <<< pos) &&& mask))
      else .next (s.failing p latScalar stBadSpace [s.cur.l, s.cur.r]))))

/-! ## Scalar floats -/

/-- R97, R124: a float firing raises `fl` and emits a scalar of the bits `v` to D0, D1 and D2. -/
def Sys2Proof.Claims.floats (s : State) (p : Par) (ops : List Tok) (r : Nat × Nat) : Host.Outcome State Fault Refusal :=
  .next ((s.raise s.cur.site.ctx r.2).finish p latScalar (spread p (scalarTok s.cur.site (BitVec.ofNat 64 r.1))) ops)

/-- The bits of an operand in its format, R62. -/
def Sys2Proof.Claims.bits (t : Ty) (v : Word) : Nat := v.toNat % 2 ^ tyBits t

/-- R124 to R128: every float instruction, in its register and its immediate form, completes on readable operands, raises
the flags and emits the bits that the arithmetic of R59 to R80 gives (the functions fp… of the model); FDIV, FSQRT, FRCP
and FRSQ also hold the float divide unit for 4 clk (R97). -/
def Obligations.FloatInstructionsComplete : Prop :=
  ∀ (s : State) (p : Par) (m : Mode) (c : FltCond) (sat : Bool) (d : Ty) (imm : BitVec 32),
    let u := s.modTok s.cur.site.core fun x => { x with fdiv := s.clk s.cur.site.core + 4 }
    let a := bits p.ty s.cur.l.val
    let i := bits p.ty (immediate p.ty imm)
    (scalars s [s.cur.l] →
      (let one (r : Nat × Nat) : Host.Outcome State Fault Refusal := floats s p [s.cur.l] r
       let slow (r : Nat × Nat) : Host.Outcome State Fault Refusal := floats u p [s.cur.l] r
       exec (.faddImm p m imm) s = one (fpAdd p.ty m a i) ∧
       exec (.fsubImm p m imm) s = one (fpSub p.ty m a i) ∧
       exec (.fmulImm p m imm) s = one (fpMul p.ty m a i) ∧
       exec (.fdivImm p m imm) s = slow (fpDiv p.ty m a i) ∧
       exec (.fsqrt p m) s = slow (fpSqrt p.ty m a) ∧
       exec (.frcp p m) s = slow (fpRcp p.ty m a) ∧
       exec (.frsq p m) s = slow (fpRsq p.ty m a) ∧
       exec (.fminImm p imm) s = one (fpMinMax p.ty false a i) ∧
       exec (.fmaxImm p imm) s = one (fpMinMax p.ty true a i) ∧
       exec (.fcmpImm p c imm) s = one (if (fpCmp p.ty c a i).1 then 1 else 0, (fpCmp p.ty c a i).2) ∧
       exec (.fclass p) s = one (fpClass p.ty a, 0) ∧
       exec (.fcvt p m sat d) s = one (toFp d m sat (decFp p.ty a)) ∧
       (isInteger d → exec (.ftoi p m d) s =
         one ((reduced d (fpToInt d m (decFp p.ty a)).1).toNat, (fpToInt d m (decFp p.ty a)).2)) ∧
       (isInteger p.ty → exec (.itof p m sat d) s = one (intToFp d m sat (number p.ty s.cur.l.val))) ∧
       exec (.frnd p m) s = one (fpRnd p.ty m a) ∧
       exec (.fldxImm p m imm) s = one (fpLdx p.ty m a (immediate p.ty imm).toInt) ∧
       exec (.fgetx p) s = one ((BitVec.ofInt 64 (fpGetx p.ty a).1).toNat, (fpGetx p.ty a).2) ∧
       exec (.fexp2f p) s = one (fpExp2 p.ty a))) ∧
    (scalars s [s.cur.l, s.cur.r] →
      (let b := bits p.ty s.cur.r.val
       let two (r : Nat × Nat) : Host.Outcome State Fault Refusal := floats s p [s.cur.l, s.cur.r] r
       exec (.fadd p m) s = two (fpAdd p.ty m a b) ∧
       exec (.fsub p m) s = two (fpSub p.ty m a b) ∧
       exec (.fmul p m) s = two (fpMul p.ty m a b) ∧
       exec (.ffmaImm p m imm) s = two (fpFma p.ty m a b i) ∧
       exec (.fdiv p m) s = floats u p [s.cur.l, s.cur.r] (fpDiv p.ty m a b) ∧
       exec (.fmin p) s = two (fpMinMax p.ty false a b) ∧
       exec (.fmax p) s = two (fpMinMax p.ty true a b) ∧
       exec (.fcmp p c) s = two (if (fpCmp p.ty c a b).1 then 1 else 0, (fpCmp p.ty c a b).2) ∧
       exec (.fldx p m) s = two (fpLdx p.ty m a s.cur.r.val.toInt))) ∧
    (scalars s [s.cur.l, s.cur.r, s.cur.c] →
      exec (.ffma p m) s = floats s p [s.cur.l, s.cur.r, s.cur.c]
        (fpFma p.ty m a (bits p.ty s.cur.r.val) (bits p.ty s.cur.c.val)))

/-- A NaN of a scalar float format, and whether it is signalling (R61). -/
def Sys2Proof.Claims.nanBits : Ty → Nat → Prop
  | .f32, x => 0x7F800000 < x % 2 ^ 31
  | .bf16, x => 0x7F80 < x % 2 ^ 15
  | .f16, x => 0x7C00 < x % 2 ^ 15
  | _, _ => False

def Sys2Proof.Claims.quietBit : Ty → Nat → Nat
  | .f32, x => x / 2 ^ 22 % 2
  | .bf16, x => x / 2 ^ 6 % 2
  | _, x => x / 2 ^ 9 % 2

def Sys2Proof.Claims.canonicalNan : Ty → Nat
  | .f32 => 0x7FC00000
  | .bf16 => 0x7FC0
  | _ => 0x7E00

/-- R61, R125: FABS and FNEG complete, clear and invert the sign bit of L in its format and raise no flag, whatever L is.
R61: FADD, FSUB, FMUL, FDIV, FMIN and FMAX of a NaN, on either side, complete with the canonical NaN of the format, and
raise NV exactly where an operand is a signalling NaN.
R60: the sixteen E2M1 codes have the values of the table: FCVT to FP32 completes and gives each of them exactly, in
every mode, without a flag. -/
def Obligations.FloatSignsNotANumberAndFourBitValues : Prop :=
  (∀ (s : State) (p : Par), scalars s [s.cur.l] →
    let v := s.cur.l.val
    (p.ty = .f32 →
      exec (.fabs p) s = gives s p [s.cur.l] (v &&& 0x7FFFFFFF) ∧
      exec (.fneg p) s = gives s p [s.cur.l] ((v &&& 0xFFFFFFFF) ^^^ 0x80000000)) ∧
    (p.ty = .bf16 ∨ p.ty = .f16 →
      exec (.fabs p) s = gives s p [s.cur.l] (v &&& 0x7FFF) ∧
      exec (.fneg p) s = gives s p [s.cur.l] ((v &&& 0xFFFF) ^^^ 0x8000))) ∧
  (∀ (s : State) (p : Par) (m : Mode), p.ty ∈ [Ty.f32, .bf16, .f16] → scalars s [s.cur.l, s.cur.r] →
    let a := bits p.ty s.cur.l.val
    let b := bits p.ty s.cur.r.val
    (nanBits p.ty a ∨ nanBits p.ty b) →
    ∃ fl, (fl = 0 ∨ fl = fNV) ∧ (fl = fNV ↔ (nanBits p.ty a ∧ quietBit p.ty a = 0) ∨ (nanBits p.ty b ∧ quietBit p.ty b = 0)) ∧
      (∀ i ∈ [Instr.fadd p m, .fsub p m, .fmul p m, .fmin p, .fmax p],
        exec i s = floats s p [s.cur.l, s.cur.r] (canonicalNan p.ty, fl)) ∧
      exec (.fdiv p m) s = floats (s.modTok s.cur.site.core fun x => { x with fdiv := s.clk s.cur.site.core + 4 }) p
        [s.cur.l, s.cur.r] (canonicalNan p.ty, fl)) ∧
  (∀ (s : State) (p : Par) (m : Mode) (sat : Bool) (code : Fin 16), p.ty = .e2m1 → scalars s [s.cur.l] →
    bits .e2m1 s.cur.l.val = code →
    exec (.fcvt p m sat .f32) s = gives s p [s.cur.l]
      ([0x00000000, 0x3F000000, 0x3F800000, 0x3FC00000, 0x40000000, 0x40400000, 0x40800000, 0x40C00000,
        0x80000000, 0xBF000000, 0xBF800000, 0xBFC00000, 0xC0000000, 0xC0400000, 0xC0800000, 0xC0C00000].getD code 0))

/-- R94: where an operand is poison or EOS, a graph or scalar firing computes nothing: it completes and sends the first
poison in the order L, R, C, or with none the first EOS, with its own phase and priority, to D0, D1 and D2. Named here:
PASS, CONST, GATE, JOIN, MKCONT, FGET, MKEOS, SELF, LEVEL, TIME, GETC, PERF, ADD, MAD, FADD and FFMA.
R98: where the scalar unit of the core fails its check, a scalar firing on clean readable operands completes with poison
RESIDUE, of this firing's origin, to D0, D1 and D2, and the failure is counted; named here: ADD, MULH, CMP and FMUL. -/
def Obligations.PoisonEosAndUnitFaults : Prop :=
  (∀ (s : State) (p : Par) (t : Tok),
    (badInput [s.cur.l] = some t →
      ∀ i ∈ [Instr.pass p, .const p false 0, .mkcont p 0 .l, .fget p 0, .mkeos p, .self p .core, .level p false 0, .time p,
          .getc p 0x010, .perf p 0],
        exec i s = .next (s.finish p latGraph (spread p (carryTok s.cur.site t)) [s.cur.l])) ∧
    (badInput [s.cur.l, s.cur.r] = some t →
      exec (.gate p) s = .next (s.finish p latGraph (spread p (carryTok s.cur.site t)) [s.cur.l, s.cur.r]) ∧
      exec (.join p .l) s = .next (s.finish p latGraph (spread p (carryTok s.cur.site t)) [s.cur.l, s.cur.r]) ∧
      exec (.add p) s = .next (s.finish p latScalar (spread p (carryTok s.cur.site t)) [s.cur.l, s.cur.r]) ∧
      exec (.fadd p .rne) s = .next (s.finish p latScalar (spread p (carryTok s.cur.site t)) [s.cur.l, s.cur.r])) ∧
    (badInput [s.cur.l, s.cur.r, s.cur.c] = some t →
      exec (.join3 p .c) s = .next (s.finish p latGraph (spread p (carryTok s.cur.site t)) [s.cur.l, s.cur.r, s.cur.c]) ∧
      exec (.mad p) s = .next (s.finish p latScalar (spread p (carryTok s.cur.site t)) [s.cur.l, s.cur.r, s.cur.c]) ∧
      exec (.ffma p .rne) s = .next (s.finish p latScalar (spread p (carryTok s.cur.site t)) [s.cur.l, s.cur.r, s.cur.c]))) ∧
  (∀ (s : State) (p : Par) (c : IntCond) (m : Mode), (∀ t ∈ [s.cur.l, s.cur.r], readable t) → s.cur.site.core ∈ s.scalarFaults →
    ∀ i ∈ [Instr.add p, .mulh p, .cmp p c, .fmul p m],
      exec i s = .next ((({ s with scalarFaults := s.scalarFaults.erase s.cur.site.core } : State).countResidue s.cur.site.core).failing
        p latScalar stResidue [s.cur.l, s.cur.r]))

/-! ## Tiles -/

/-- R134, R140: TALLOC of a shape that a core can hold completes: its request joins the allocation FIFO of its kind of tile,
and is granted at once where it is the next and fits; TILE_ALLOCATION_GRANT, where the first request that goes on is a
TALLOC's and fits, takes the lowest free index, removes the request and emits the new tile's handle to D0, D1 and D2.
R141 to R144: on a live handle TDROP gives 0 and releases it, TVIEW asks for a view of the window that its word names,
whose reference to the underlying tile is counted at once, or is L's own where L is that tile, TINFO gives what WHAT asks for and VSTAT (R167) the tile's vector status, with the
handle on D1; TREF makes a handle again of the tile-store address of a live tile of its own context. All complete. -/
def Obligations.TilesAndTheirHandles : Prop :=
  ((∀ (s : State) (p : Par) (acc zero : Bool) (bg : Geom) (rows cols : BitVec 13), clean [s.cur.l] →
    let sh : Shape := { ty := p.ty, bg := bg, rows := rows.toNat, cols := cols.toNat, acc := acc }
    let r : TileReq := { site := s.cur.site, d0 := p.d0, d1 := p.d1, d2 := p.d2, shape := sh, why := 0, zero := zero }
    let u := s.modTile s.cur.site.core fun u =>
      if acc then { u with accFifo := u.accFifo ++ [r] } else { u with fifo := u.fifo ++ [r] }
    (impossible sh = false →
      (u.nextTileAsk s.cur.site.core acc ≠ some r → exec (.talloc p acc zero bg rows cols) s =
        .next (u.finish p latTile [] [s.cur.l])) ∧
      (u.nextTileAsk s.cur.site.core acc = some r → exec (.talloc p acc zero bg rows cols) s =
        .next ((u.grantTile s.cur.site.core acc).finish p latTile [] [s.cur.l]))) ∧
    (impossible sh = true → exec (.talloc p acc zero bg rows cols) s = .next (s.failing p latTile stExtentBound [s.cur.l]))) ∧
  (∀ (s : State) (core : Nat) (acc : Bool) (r : TileReq) (i : Nat), s.nextTileAsk core acc = some r → r.why = 0 → r.zero = true →
    (s.core core).tile.fits r.shape r.view.isSome = true → (s.core core).tile.freeIdx = some i → core < s.cores.length →
    let new : Tile := { idx := i, ctx := r.site.ctx, shape := r.shape, view := r.view }
    ∃ u : State, exec (.tileAllocationGrant core acc) s = .next ((u.modTile core fun u =>
        if acc then { u with accFifo := u.accFifo.erase r } else { u with fifo := u.fifo.erase r }).emitHandle r.site r.d0 r.d1 r.d2 i) ∧
      (u.core core).tile.tiles = (s.core core).tile.tiles ++ [new] ∧ (u.core core).tile.fifo = (s.core core).tile.fifo ∧
      (u.core core).tile.accFifo = (s.core core).tile.accFifo ∧ (∀ k, k ≠ core → u.core k = s.core k) ∧ u.ctxs = s.ctxs ∧
      u.ms = s.ms ∧ u.flight = s.flight)) ∧
  (∀ (s : State) (p : Par) (t : Tile) (imm : BitVec 32) (row0 col0 rows cols : Nat),
    let site := s.cur.site
    let l := s.cur.l
    let base := t.baseIdx
    let view (r0 c0 vr vc : Nat) (ops : List Tok) : Host.Outcome State Fault Refusal :=
      let u := if t.view = none then s else s.changeRefs site.core base 1 0
      .next ((u.askTile site.core
        { site := site, d0 := p.d0, d1 := p.d1, d2 := p.d2, why := 1, shape := { t.shape with rows := vr, cols := vc },
          view := some { base := base, row0 := t.row0 + r0, col0 := t.col0 + c0 } }).finish p latTile []
            (if t.view = none then ops.drop 1 else ops))
    let told (w : InfoWhat) (v : Nat) : Prop := exec (.tinfo p w) s =
      .next (s.finish p latTile [(p.d0, scalarTok site (BitVec.ofNat 64 v)), (p.d1, carryTok site l)] [l])
    (l.kind = kTile → s.tileOf? site.core l.val = some t →
      exec (.tdrop p) s = .next (s.finish p latTile (spread p (scalarTok site 0)) [l]) ∧
      exec (.vstat p) s = .next (s.finish p latTile [(p.d0, scalarTok site t.status), (p.d1, carryTok site l)] [l]) ∧
      (t.view = none → told .pbytes (elemBytes t.shape) ∧ told .sbytes (scaleBytes t.shape)) ∧
      (t.view ≠ none → told .pbytes 0 ∧ told .sbytes 0) ∧
      told .window (t.col0 * 2 ^ 38 + t.row0 * 2 ^ 26 + t.shape.cols * 2 ^ 13 + t.shape.rows) ∧
      (clean [s.cur.r] → reads [s.cur.r] → windowOf t s.cur.r.val = .ok (row0, col0, rows, cols) →
        exec (.tview p) s = view row0 col0 rows cols [l, s.cur.r]) ∧
      (windowOf t (immediate p.ty imm) = .ok (row0, col0, rows, cols) →
        exec (.tviewImm p imm) s = view row0 col0 rows cols [l])) ∧
    (∀ i, reads [l] → s.trefIndex site l.val = .ok i →
      exec (.tref p) s = .next (s.finish p latTile (spread p (mkTok site kTile (s.handleOf site.core i))) [l])))

/-- R148: TGET completes and gives the element, scale or super scale that its index word names within the window, with the
handle on D1; TSET completes, writes it, and nothing else of any tile, and emits the handle. -/
def Obligations.TileElements : Prop :=
  ∀ (s : State) (p : Par) (t : Tile) (part : Part) (imm : BitVec 32) (row col : Nat),
    let site := s.cur.site
    let l := s.cur.l
    let r := s.cur.r
    let i : Tok := { val := immediate p.ty imm, kind := kScalar, res := residue255 (immediate p.ty imm) }
    let got (ops : List Tok) : Host.Outcome State Fault Refusal :=
      .next (s.finish p latTile [(p.d0, scalarTok site ((s.baseTile site.core t).item part row col)), (p.d1, carryTok site l)] ops)
    let put (v : Tok) (ops : List Tok) : Host.Outcome State Fault Refusal :=
      .next ((s.modTileIdx site.core t.baseIdx fun b => b.setItem part row col v.val).finish p latTile (spread p (carryTok site l)) ops)
    l.kind = kTile → s.tileOf? site.core l.val = some t →
      (s.readGrans site.core (s.baseTile site.core t) ((s.baseTile site.core t).itemGrans part row col) = (false, s) →
        (clean [r] → reads [r] → indexWord t part p.ty r.val = .ok (row, col) → exec (.tget p part) s = got [l, r]) ∧
        (indexWord t part p.ty i.val = .ok (row, col) → exec (.tgetImm p part imm) s = got [l])) ∧
      (clean [r] → reads [r] → indexWord t part p.ty r.val = .ok (row, col) →
        (clean [s.cur.c] → reads [s.cur.c] → exec (.tset p part) s = put s.cur.c [l, r, s.cur.c]) ∧
        exec (.tsetImm p part imm) s = put i [l, r])

/-- R138, R145 to R147: TFILL, TCOPY and TTRAN on live handles that agree complete by starting an engine command, which
waits for a new tile where the instruction makes one; nothing is emitted before the command completes. -/
def Obligations.TileCommandsStart : Prop :=
  ∀ (s : State) (p : Par) (t d : Tile) (imm : BitVec 32) (toacc : Bool),
    let site := s.cur.site
    let l := s.cur.l
    let r := s.cur.r
    let i : Tok := { val := immediate p.ty imm, kind := kScalar, res := residue255 (immediate p.ty imm) }
    let new (e : Eng) (sh : Shape) : Host.Outcome State Fault Refusal :=
      .next ((s.command p { e with step := .waiting }).askTile site.core
        { site := site, shape := sh, why := 2, owner := (s.freeRec site.core).getD 0 })
    l.kind = kTile → s.tileOf? site.core l.val = some t →
      (t.shape.bg = .g0 → (p.ty = .none ∨ p.ty = t.shape.ty) →
        (clean [r] → reads [r] → exec (.tfill p) s = .next (s.command p
          { opc := 0xC5, l := l, r := r, kind := .tfill (r.val.toNat % 2 ^ tyBits t.shape.ty), step := .queued })) ∧
        exec (.tfillImm p imm) s = .next (s.command p
          { opc := 0xC5, l := l, r := i, kind := .tfill (i.val.toNat % 2 ^ tyBits t.shape.ty), step := .queued })) ∧
      (toacc = false → impossible { t.shape with acc := false } = false →
        exec (.tcopy p toacc) s = new { opc := 0xC6, l := l, kind := .tcopy true } { t.shape with acc := false }) ∧
      (toacc = true → t.shape.ty = .f32 → t.shape.bg = .g0 → t.shape.rows ≤ 512 → t.shape.cols ≤ 256 →
        impossible { t.shape with acc := true } = false →
        exec (.tcopy p toacc) s = new { opc := 0xC6, l := l, kind := .tcopy true } { t.shape with acc := true }) ∧
      (r.kind = kTile → s.tileOf? site.core r.val = some d → sameForm t.shape d.shape = true →
        exec (.tcopyInto p) s = .next (s.command p { opc := 0xC6, l := l, r := r, kind := .tcopy false, step := .queued })) ∧
      (t.shape.bg = .g0 →
        impossible { ty := t.shape.ty, bg := .g0, rows := t.shape.cols, cols := t.shape.rows } = false →
        exec (.ttran p) s = new { opc := 0xC7, l := l, kind := .ttran }
          { ty := t.shape.ty, bg := .g0, rows := t.shape.cols, cols := t.shape.rows })

/-! ## Vector fabric -/

/-- R163, R164: VRUN in each of its four forms, on live handles whose shapes fit the configuration, completes by starting a
run, which waits for its output tile where it makes one; VRUNS opens its stream at its first row, with a record and a state
tile, and appends each row to the open stream.
R158 to R160, R163: VRUN_START, where the first waiting run that its pipelines and scratch units let start is a VRUN, takes
those units and starts it; VRUN_COMPLETE performs one event of a run, or ends one that has finished, and does nothing to one
that has not started. -/
def Obligations.VectorRunsStartAndRun : Prop :=
  (∀ (s : State) (p : Par) (cfg : BitVec 4) (a b o : Tile) (n : Nat),
    let site := s.cur.site
    let l := s.cur.l
    let r := s.cur.r
    let c := s.cur.c
    let v := s.vcfg site cfg.toNat
    let e (b out : Option Tok) : Eng := { opc := 0xCA, l := l, r := r, c := c, kind := .vrun cfg.toNat b out }
    let shape (tb : Option Shape) : Shape :=
      { ty := v.oty, bg := v.obg, rows := n,
        cols := v.sinkLen (pipeLengths a.shape.cols ((tb.map fun t => t.cols).getD a.shape.cols) v.pipes 0) }
    let runs (b : Option Tok) (tb : Option Shape) (ops : List Tok) : Host.Outcome State Fault Refusal :=
      .next (if v.oty = .none ∨ n = 0 then s.command p (e b none) else s.commandNew p (e b none) (shape tb) ops)
    let need (tb : Option Shape) : Option Shape := if v.oty = .none then none else some (shape tb)
    let opened (b : Option Tok) (tb : Option Shape) : Host.Outcome State Fault Refusal :=
      .next (((s.command p { opc := 0xCB, l := l, r := r, kind := .vruns cfg.toNat b.isSome, stream := { opened := true } }).askTile
        site.core { site := site, shape := { ty := .z8, rows := v.pipes.length, cols := 1664 }, why := 2,
                    owner := (s.freeRec site.core).getD 0 }).addRow site.core ((s.freeRec site.core).getD 0) site l b (need tb))
    let added (x : Eng) (b : Option Tok) (tb : Option Shape) : Host.Outcome State Fault Refusal :=
      .next ((s.finish p latTile [] []).addRow site.core x.idx site l b (need tb))
    live s l a →
      (v.shapeOk a.shape none false 0 = some n → exec (.vrunA p cfg) s = runs none none [l]) ∧
      (live s r b → v.shapeOk a.shape (some b.shape) false 0 = some n →
        exec (.vrunAb p cfg) s = runs (some r) (some b.shape) [l, r]) ∧
      (live s r o → v.shapeOk a.shape none false 0 = some n → sameForm o.shape (shape none) = true →
        exec (.vrunAo p cfg) s = .next (s.command p (e none (some r)))) ∧
      (live s r b → live s c o → v.shapeOk a.shape (some b.shape) false 0 = some n → sameForm o.shape (shape (some b.shape)) = true →
        exec (.vrunAbo p cfg) s = .next (s.command p (e (some r) (some c)))) ∧
      (v.shapeOk a.shape none true 0 = some n → (v.oty = .none ∨ impossible (shape none) = false) →
        (s.openStream site.core site.frame site.node = none → exec (.vruns p cfg) s = opened none none) ∧
        (∀ x, s.openStream site.core site.frame site.node = some x → exec (.vruns p cfg) s = added x none none)) ∧
      (live s r b → v.shapeOk a.shape (some b.shape) true 0 = some n → (v.oty = .none ∨ impossible (shape (some b.shape)) = false) →
        (s.openStream site.core site.frame site.node = none → exec (.vruns2 p cfg) s = opened (some r) (some b.shape)) ∧
        (∀ x, s.openStream site.core site.frame site.node = some x → exec (.vruns2 p cfg) s = added x (some r) (some b.shape)))) ∧
  (∀ (s : State) (core i cfg : Nat) (e : Eng) (b out : Option Tok), e.kind = .vrun cfg b out →
    (let taken := (s.core core).eng.taken
     firstFree (taken.foldl (fun m t => m ||| t.2.1) 0) (taken.foldl (fun m t => m ||| t.2.2) 0) (s.waitingRuns core) = some e →
      let u := s.engStart core e.idx
      let v := u.vcfg e.site cfg
      exec (.vrunStart core) s = .next ((u.modEng core fun g => { g with taken := g.taken ++ [(e.idx, v.lpmask, v.sbmask)] }).startRun
        core e false)) ∧
    (s.eng? core i = some e →
      (e.step = .finishing → s.engRuns e = true → exec (.vrunComplete core i) s = .next (s.endVrun core e cfg b out)) ∧
      (e.step = .running → s.engRuns e = true → exec (.vrunComplete core i) s = .next (s.runStep core e)) ∧
      (e.step ≠ .finishing → e.step ≠ .running → exec (.vrunComplete core i) s = .next s)))

/-! ## Matrix engine -/

/-- R180, R183, R184, R186: WLD with a good source completes by starting a load command, which unbinds the logical slot and
binds or waits; WFREE unbinds the slot and gives 0; WINFO gives the slot's state word. WEIGHT_SLOT_GRANT lets the command at
the head of the FIFO attach; WLD_LOAD_COMPLETE starts the load of a slot, leaves it while granules are still to be read, and
at its end makes the slot READY with the content read and finishes every WLD that waited for it, or, where a read has failed or
the content is bad, gives every one of them that status and makes the slot EMPTY. -/
def Obligations.WeightSlots : Prop :=
  (∀ (s : State) (p : Par) (comp : Comp) (sx : BitVec 4) (bg : Geom) (ws : BitVec 2) (gen : BitVec 16) (key : WKey) (scale : Option Word),
    clean [s.cur.l] →
    let site := s.cur.site
    let i := (s.freeRec site.core).getD 0
    let u := s.command p { opc := 0x100, l := s.cur.l, kind := .wld ws.toNat key scale }
    exec (.wfree p ws) s = .next ((s.unbind site.core site.ctx (some ws.toNat)).finish p latTile (spread p (scalarTok site 0)) [s.cur.l]) ∧
    exec (.winfo p ws) s = .next (s.finish p latTile
      (spread p (scalarTok site (BitVec.ofNat 64 (infoWord (s.core site.core).eng site.ctx ws.toNat)))) [s.cur.l]) ∧
    (s.wldSource site s.cur.l p.ty bg comp sx.toNat gen.toNat = .ok (key, scale) → site.core < s.cores.length →
      ∃ e, u.eng? site.core i = some e ∧ exec (.wld p comp sx bg ws gen) s = .next (u.startWld site.core e ws.toNat key))) ∧
  (∀ (s t : State) (core i ws : Nat) (rest : List WAsk) (e : Eng) (key : WKey) (scale : Option Word),
    (s.core core).eng.wFifo = .cmd i :: rest → s.eng? core i = some e → e.kind = .wld ws key scale → s.attachWld core e ws key true = some t →
    exec (.weightSlotGrant core) s = .next (t.modEng core fun g => { g with wFifo := rest })) ∧
  (∀ (s : State) (core slot ws : Nat) (w : WSlot) (e : Eng) (key : WKey) (scale : Option Word),
    (s.core core).eng.pw[slot]? = some w → w.state = .loading → s.eng? core w.loader = some e → s.engRuns e = true →
    e.kind = .wld ws key scale →
    (e.step = .waiting → exec (.wldLoadComplete core slot) s = .next (s.beginLoad core e key scale)) ∧
    (e.step ≠ .waiting → e.fail ≠ 0 → exec (.wldLoadComplete core slot) s = .next (s.loadFailed core slot e e.fail)) ∧
    (e.step ≠ .waiting → e.fail = 0 → e.allRead = false → exec (.wldLoadComplete core slot) s = .next s) ∧
    (e.step ≠ .waiting → e.fail = 0 → e.allRead = true →
      (∀ st, s.decodeWeights core e key (e.moves.headD {}).got = .error st →
        exec (.wldLoadComplete core slot) s = .next (s.loadFailed core slot e st)) ∧
      (∀ elems scales, s.decodeWeights core e key (e.moves.headD {}).got = .ok (elems, scales) → core < s.cores.length →
        ∃ u : State, exec (.wldLoadComplete core slot) s = .next (u.promote core) ∧
          (∃ x, (u.core core).eng.pw[slot]? = some x ∧ (x.state = .ready ∨ x.state = .idle) ∧ x.key = w.key ∧ x.elems = elems ∧
            x.scales = scales ∧ x.bound = w.bound) ∧
          (∀ x ∈ (u.core core).eng.recs, x.loads = true → ∀ y ∈ x.slots, y.1 ≠ slot) ∧ u.ms = s.ms ∧ u.ctxs = s.ctxs)))

/-- R187, R190, R191, R192, R196: MMA on operands that R187 lets pass completes by starting a command that holds the bound
physical slot and is offered to the Pan or to arbitration; ADRAIN of an accumulator starts a drain that waits for its
output; ACLR starts its command; MSTAT gives the summary or a word of row bits; MMAS opens its stream with its first row
and appends every later row. -/
def Obligations.MatrixCommandsStart : Prop :=
  ∀ (s : State) (p : Par) (pan zacc sat clr : Bool) (acol : BitVec 8) (ws : BitVec 2) (arow : BitVec 9) (koff : BitVec 5)
    (hold : BitVec 16) (mode : Mode) (oty : Ty) (tbl : BitVec 6) (imm : BitVec 32) (a acc : Tile) (i : Nat) (w : WSlot),
    let site := s.cur.site
    let l := s.cur.l
    let r := s.cur.r
    let c := s.cur.c
    let im : Tok := { val := immediate p.ty imm, kind := kScalar, res := residue255 (immediate p.ty imm) }
    let idx := (s.freeRec site.core).getD 0
    let drain (scale : Tok) (target : Dest) (ops : List Tok) : Host.Outcome State Fault Refusal :=
      .next (s.commandNew p
        { opc := 0x104, l := l, r := r, c := c, total := acc.shape.rows,
          kind := .adrain (tensorScale p.ty scale.val) mode sat clr oty target }
        { ty := oty, rows := acc.shape.rows, cols := acc.shape.cols } ops)
    (site.core < s.cores.length → live s l a → live s r acc → a.shape.acc = false → acc.shape.acc = true →
      (s.core site.core).eng.slotOf site.ctx ws.toNat = some (i, w) → w.state ≠ .empty →
      modeOk a.shape.ty a.shape.bg w.key.ty w.key.bg = true →
      arow.toNat + a.shape.rows ≤ acc.shape.rows → acol.toNat + slotN w.key.ty ≤ acc.shape.cols →
      let u := (s.command p
        { opc := 0x102, l := l, r := r, slots := [(i, w.key)], total := a.shape.rows,
          kind := .mma arow.toNat acol.toNat koff.toNat zacc (if pan && !site.step then some hold.toNat else none) }).modPw site.core i
        fun w => { w with holds := w.holds + 1 }
      ∃ e, u.eng? site.core idx = some e ∧ exec (.mma p pan zacc acol ws arow koff hold) s = .next (u.offer site.core e)) ∧
    (live s l acc → acc.shape.acc = true →
      exec (.aclr p) s = .next ((s.command p { opc := 0x105, l := l, total := acc.shape.rows, kind := .aclr }).enterArb site.core idx) ∧
      exec (.mstat p 0 false) s =
        .next (s.finish p latTile [(p.d0, scalarTok site (BitVec.ofNat 64 acc.mstat.summary)), (p.d1, carryTok site l)] [l]) ∧
      (clean [r] → reads [r] → exec (.adrain p mode sat clr oty) s = drain r p.d0 [l, r]) ∧
      exec (.adrainImm p mode sat clr oty imm) s = drain im p.d0 [l] ∧
      (clean [r, c] → reads [r, c] → exec (.adrainSteer p mode sat clr tbl oty) s = drain c (s.steerTarget p tbl) [l, r, c]) ∧
      (clean [r] → reads [r] → exec (.adrainSteerImm p mode sat clr tbl oty imm) s = drain im (s.steerTarget p tbl) [l, r])) ∧
    (∀ row : MmasRow,
      let u := (s.command p { opc := 0x103, l := l, r := r, kind := .mmas mode sat oty, stream := { opened := true } }).askTile site.core
        { site := site, shape := { ty := .f32, rows := 1, cols := 256, acc := true }, why := 2, owner := idx }
      let joins (u : State) (idx : Nat) : Host.Outcome State Fault Refusal :=
        let n := (u.core site.core).eng.seq
        .next (((row.slots.foldl (fun s y => s.modPw site.core y.1 fun w => { w with holds := w.holds + 1 }) u).modEng site.core
          fun g => { g with seq := n + 1 }).modEngRec site.core idx fun e =>
            { e with stepped := e.stepped || (u.cur.site.step && e.stream.mrows.isEmpty)
                     stream := { e.stream with mrows := e.stream.mrows ++ [{ row with seq := n }] } })
      let streams (i : Instr) : Prop :=
        (s.openStream site.core site.frame site.node = none → exec i s = joins u idx) ∧
        (∀ x, s.openStream site.core site.frame site.node = some x → exec i s = joins (s.finish p latTile [] []) x.idx)
      (clean [l, r] → s.mmasRow ws.toNat p.ty l r = .ok (row.slots, row.t) → row = { l := l, r := some r, slots := row.slots, t := row.t } →
        streams (.mmas p mode sat oty ws)) ∧
      (clean [l] → s.mmasRow ws.toNat p.ty l im = .ok (row.slots, row.t) → row = { l := l, r := none, slots := row.slots, t := row.t } →
        streams (.mmasImm p mode sat oty ws imm)))

/-- R188, R198, R328: ENGINE_ARBITRATION starts nothing while a command on the engine has rows left to issue; otherwise it
starts the most urgent of what may start, and of equals the first in firing order: a single command (an MMA outside the Pan
whose slots are READY, a stream's next row whose slots are, a drain that has its output, a clear), or all members of a closed
Pan group of which every member may start, which leaves the Pan. What it starts is what stands on the engine then, every
member of it running.
R188, R198, R401: PAN_DEADLINE completes in every state and leaves no open group whose deadline GTC has reached; on a busy
engine it closes the open groups whose deadline is reached and those that have a member of class 0, and leaves every other
group as it is; a closed group keeps its members and rows, and one that closes on an idle engine, every member of which may
start, starts at once. -/
def Obligations.EngineArbitrationAndPan : Prop :=
  let idle (u : State) (core : Nat) : Prop := ∀ i ∈ (u.core core).eng.matrix, ∀ e, u.eng? core i = some e → e.total ≤ e.row
  let busy (u : State) (core : Nat) : Prop := ∃ i ∈ (u.core core).eng.matrix, ∃ e, u.eng? core i = some e ∧ e.row < e.total
  let able (u : State) (core : Nat) (p : PanGroup) : Prop := ∀ i ∈ p.members, ∃ e, u.eng? core i = some e ∧
    (u.core core).eng.slotsReady e.slots = true ∧ u.engRuns e = true
  let starts (u : State) (core : Nat) (p : PanGroup) (o : Host.Outcome State Fault Refusal) : Prop := ∃ t, o = .next t ∧
    (t.core core).eng.matrix = p.members ∧ (t.core core).eng.pan = ((u.core core).eng.pan.filter fun q => q.id != p.id) ∧
    ∀ i ∈ p.members, ∀ e, u.eng? core i = some e → ∃ x, t.eng? core i = some x ∧ x.step = .running ∧ x.row = e.row ∧ x.kind = e.kind
  (∀ (s : State) (core : Nat),
    let u := ((s.regainSlots core).panRefresh core).promote core
    let g := (u.core core).eng
    let ready (e : Eng) (n : Nat) : Prop := match e.kind with
      | .mma _ _ _ _ _ => g.slotsReady e.slots = true ∧ n = e.seq
      | .mmas _ _ _ => ∃ r, u.nextRow core e = some r ∧ g.slotsReady r.slots = true ∧ n = r.seq
      | .adrain _ _ _ _ _ _ => e.out.isSome = true ∧ n = e.seq
      | .aclr => n = e.seq
      | _ => False
    let single (e : Eng) (n : Nat) : Prop := e ∈ g.recs ∧ e.step = .queued ∧ e.pan = none ∧ u.engRuns e = true ∧ ready e n
    let group (p : PanGroup) : Prop := p ∈ g.pan ∧ p.closed = true ∧ able u core p
    let before (c n d m : Nat) : Prop := c < d ∨ (c = d ∧ n < m)
    let cls (e : Eng) : Nat := u.classOfEng core e
    let gcls (p : PanGroup) : Nat := u.classOfGroup core p
    (busy u core → exec (.engineArbitration core) s = .next u) ∧
    (idle u core →
      ((∀ e n, ¬ single e n) → (∀ p, ¬ group p) → exec (.engineArbitration core) s = .next u) ∧
      (∀ e n, single e n → (∀ d m, single d m → d = e ∨ before (cls e) n (cls d) m) →
        (∀ p, group p → before (cls e) n (gcls p) p.arb) →
        exec (.engineArbitration core) s = .next ((u.engStart core e.idx).modEng core fun g =>
          { g with matrix := [e.idx]
                   recs := g.recs.map fun x => match x.kind with
                     | .mmas _ _ _ => if x.idx = e.idx then { x with total := x.row + 1 } else x
                     | _ => x })) ∧
      (∀ p, group p → (∀ q, group q → q = p ∨ before (gcls p) p.arb (gcls q) q.arb) →
        (∀ e n, single e n → before (gcls p) p.arb (cls e) n) →
        starts u core p (exec (.engineArbitration core) s)))) ∧
  (∀ (s : State) (core : Nat),
    (∃ t, exec (.panDeadline core) s = .next t ∧ t.gtc = s.gtc ∧
      (core < s.cores.length → ∀ p ∈ (t.core core).eng.pan, p.closed = true ∨ t.gtc < p.first + p.hold)) ∧
    (busy s core → ∃ t, exec (.panDeadline core) s = .next t ∧ t.ms = s.ms ∧ t.ctxs = s.ctxs ∧
      (core < s.cores.length → ((s.core core).eng.pan.map fun p => p.id).Nodup → ∀ p ∈ (s.core core).eng.pan,
        (p.closed = false → (p.first + p.hold ≤ s.gtc ∨ s.classOfGroup core p = 0) → ∃ n, { p with closed := true, arb := n } ∈ (t.core core).eng.pan) ∧
        (p.closed = true ∨ (s.gtc < p.first + p.hold ∧ s.classOfGroup core p ≠ 0) → p ∈ (t.core core).eng.pan))) ∧
    (∀ p, (s.core core).eng.pan = [p] → p.closed = false → (p.first + p.hold ≤ s.gtc ∨ s.classOfGroup core p = 0) →
      let c := s.modEng core fun g => { g with pan := [{ p with closed := true, arb := g.seq }], seq := g.seq + 1 }
      (idle s core → able s core p → starts c core p (exec (.panDeadline core) s)) ∧
      ((busy s core ∨ ¬ able s core p) → exec (.panDeadline core) s = .next c)))

/-- R187, R188, R191 to R193, R440: MMA_ROW_ISSUE does nothing where ROW_N rows have issued in the present 16 clk; else, of the first
command on the engine that runs and has rows left, it issues the next row alone: a pass enters the write buffer where that has a free entry of its 32, a clear writes zeros over its row, a drain
writes its row to the output; MMA_ROW_COMMIT takes the oldest row of the write buffer.
R138, R182 to R187, R191, R192: ENGINE_COMMAND_COMPLETE performs a tile command; it ends a weight load, an MMA, a drain
or a clear that has nothing left to do: its record becomes free and its tokens are emitted. -/
def Obligations.MatrixRowsAndEngineCommands : Prop :=
  (∀ (s : State) (core : Nat) (e : Eng),
    (s.rowThrottled core = true → exec (.mmaRowIssue core) s = .next s) ∧
    (let n := s.countRow core
     let g := (n.core core).eng
     s.rowThrottled core = false → (g.matrix.filterMap fun i => n.eng? core i).find? (fun e => decide (e.row < e.total) && n.engRuns e) = some e →
      (∀ (a c k : Nat) (z : Bool) (h : Option Nat), e.kind = .mma a c k z h →
        let issues (u : State) (mark : Nat) : Host.Outcome State Fault Refusal :=
          .next ((u.perfCore core 0x05 1).modEng core fun g =>
            { g with wbuf := g.wbuf ++ [e.idx]
                     recs := g.recs.map fun x => if x.idx == e.idx then
                       { x with inflight := x.inflight ++ [(x.row, mark)], row := x.row + 1 } else x })
        let held := (enumL e.slots).map fun x => g.held e.slots x.1
        let seen := n.countErrs (dieOf core) (held.filter fun w => w.ce).length 0
        let struck := seen.strikeRow core (n.rowChecked core e.l e.row k e.slots)
        (32 ≤ g.wbuf.length → exec (.mmaRowIssue core) s = .next n) ∧
        (g.wbuf.length < 32 → (∀ w ∈ held, w.ue = false ∧ w.state ≠ .failed) → exec (.mmaRowIssue core) s = issues struck.2 struck.1) ∧
        (g.wbuf.length < 32 → (∀ w ∈ held, w.ue = false) → (∃ w ∈ held, w.state = .failed) →
          exec (.mmaRowIssue core) s = issues struck.2 (if struck.1 = 0 then 2 else struck.1))) ∧
      (∀ t, e.kind = .aclr → n.tileOf? core e.l.val = some t →
        exec (.mmaRowIssue core) s = .next ((n.modTileIdx core t.baseIdx fun b =>
            (List.range t.shape.cols).foldl (fun b c => b.setElem (t.row0 + e.row) (t.col0 + c) 0)
              (if t.col0 = 0 ∧ t.shape.cols = b.shape.cols then b.mend (rowGrans b.shape (t.row0 + e.row) 0 b.shape.cols) else b)).modEngRec
          core e.idx fun x =>
          { x with row := x.row + 1, step := if x.row + 1 == x.total then .finishing else x.step })) ∧
      (∀ (t : Tile) (o x : Nat) (mode : Mode) (sat : Bool) (oty : Ty) (d : Dest), e.kind = .adrain x mode sat false oty d → e.out = some o →
        n.tileOf? core e.l.val = some t →
        let b := n.baseTile core t
        let read := n.readRow core b (t.row0 + e.row)
        (read.1 = false → exec (.mmaRowIssue core) s = .next ((read.2.modTileIdx core o fun d =>
            (List.range t.shape.cols).foldl (fun d c => d.setElem e.row c
              (drainElem x mode sat oty (b.elem (t.row0 + e.row) (t.col0 + c)))) (if e.row = 0 then d.wipe else d)).modEngRec
          core e.idx fun x => { x with row := x.row + 1, step := if x.row + 1 == x.total then .finishing else x.step })) ∧
        (read.1 = true → exec (.mmaRowIssue core) s = .next (read.2.modEngRec core e.idx fun x =>
          { x with fail := stDataUe, total := x.row, step := .finishing })))) ∧
    (let g := (s.core core).eng
     (∀ (i a c k : Nat) (rest : List Nat) (z : Bool) (h : Option Nat), g.wbuf = i :: rest →
      let u := s.modEng core fun g => { g with wbuf := rest }
      u.eng? core i = some e → e.kind = .mma a c k z h →
      let row := e.inflight.headD (0, 0)
      exec (.mmaRowCommit core) s = .next (u.commitMma core e row.1 row.2 a c k z)) ∧
     (g.wbuf = [] → exec (.mmaRowCommit core) s = .next s))) ∧
  (∀ (s : State) (core i : Nat) (e : Eng), s.eng? core i = some e → s.engRuns e = true →
    let ends (t : State) : Prop := exec (.engineCommandComplete core i) s = .next t
    (∀ v, e.kind = .tfill v → ends (s.runTileCommand core e)) ∧
    (∀ n, e.kind = .tcopy n → (n = true → e.out.isSome = true) → ends (s.runTileCommand core e)) ∧
    (e.kind = .ttran → e.out.isSome = true → ends (s.runTileCommand core e)) ∧
    (e.step = .finishing →
      (∀ ws k x, e.kind = .wld ws k x → e.fail = 0 → ends ((s.wldStatus core e.site.ctx ws 0).endCommand core e 0
        [(e.d0, scalarTok e.site 0), (e.d1, scalarTok e.site 0), (e.d2, scalarTok e.site 0)] [e.l])) ∧
      (∀ a c k z h, e.kind = .mma a c k z h → e.fail = 0 → ends ((s.dropHolds core e.slots).endCommand core e 0
        [(e.d0, carryTok e.site e.r), (e.d1, scalarTok e.site 0), (e.d2, scalarTok e.site 0)] [e.l, e.r])) ∧
      (∀ x m z c ty d o, e.kind = .adrain x m z c ty d → e.fail = 0 → e.out = some o →
        let output := mkTok e.site kTile (s.handleOf core o)
        ends (s.endCommand core e 0 [(d, output), (e.d1, carryTok e.site e.l)] [output, e.l, e.r, e.c])) ∧
      (∀ t, e.kind = .aclr → s.tileOf? core e.l.val = some t →
        ends ((s.modTileIdx core t.idx fun t => { t with mstat := {} }).endCommand core e 0
          [(e.d0, carryTok e.site e.l), (e.d1, carryTok e.site e.l), (e.d2, carryTok e.site e.l)] [e.l]))))

/-- R131, R148: an element written into a tile is read back, and every other element of the array reads as before; the
bytes listed stay in rising order. -/
def Obligations.TileElementsAreSeparate : Prop :=
  ∀ (t : Tile) (r c v i j : Nat), (t.bytes.map Prod.fst).Pairwise (· < ·) → t.shape.ty ≠ .none →
    c < t.shape.cols → j < t.shape.cols → (t.shape.acc = true → t.shape.ty = .f32 ∧ t.shape.cols ≤ 256) →
    let u := t.setElem r c v
    u.elem r c = v % 2 ^ tyBits t.shape.ty ∧ ((i, j) ≠ (r, c) → u.elem i j = t.elem i j) ∧
    (u.bytes.map Prod.fst).Pairwise (· < ·) ∧ { u with bytes := t.bytes } = t

/-! ## Loads, stores and atomics -/

/-- R206, R208: LD and ST, on readable operands and an address that passes its checks, complete by issuing one request of
aligned pieces in ascending order; a load's pieces read, a store's write the low bytes of its value, from R or IMM.
R209, R210, R341: LDT of a form the core can hold completes by issuing one request that reads every granule of memory once
and waits for a new tile; STT of a live tile completes by issuing one request that writes every granule of memory once with the
bytes of the tile as it fires, holding L;
PFH of any operand completes at once with a scalar 0 and only stages granules, those that a readable operand names
(R218). -/
def Obligations.LoadsAndStoresIssue : Prop :=
  (∀ (s : State) (p : Par) (imm : BitVec 32) (x : Ty × Target),
    let l := s.cur.l
    let r := s.cur.r
    let w := tyBits x.1 / 8
    let put (v : Word) : Req :=
      { opc := 0x141, cls := 2, paddr := firstPa x.2.parts, kind := .st, ordered := true, addr := l.val, opa := v
        pieces := scalarPieces l.val w x.2 fun o n => .write (((leBytes w v.toNat).drop o).take n) }
    (operands [l] [l] → s.scalarAccess s.cur.site {} l.val p.ty = .ok x → issues (.ld p) s p 1 [] [l]
      { opc := 0x140, cls := 1, paddr := firstPa x.2.parts, kind := .ld x.1, ordered := true, addr := l.val
        pieces := scalarPieces l.val w x.2 fun _ _ => .read }) ∧
    (s.scalarAccess s.cur.site { write := true, read := false } l.val p.ty = .ok x →
      (operands [l, r] [l, r] → issues (.st p) s p 2 (issued s p) [l, r] (put r.val)) ∧
      (operands [l] [l] → issues (.stImm p imm) s p 2 (issued s p) [l] (put (immediate p.ty imm))))) ∧
  (∀ (s : State) (p : Par) (bg g : Geom) (ty : Ty) (pitch : BitVec 16) (rows cols : BitVec 13) (t : Tile)
    (gs : List (Loc × Nat × Nat)),
    let site := s.cur.site
    let l := s.cur.l
    let r := s.cur.r
    let c := s.cur.c
    let sh : Shape := { ty := ty, bg := g, rows := rows.toNat, cols := cols.toNat }
    let img : Tile := { shape := { t.shape with acc := false }, bytes := planeBytes (s.readPlane site.core t) }
    let get (sa : Option Word) (ops : List Tok) : Host.Outcome State Fault Refusal :=
      .next ((s.fireReq p 1 [] ops
        { opc := 0x142, cls := 1, paddr := firstPa gs, kind := .ldt, addr := l.val, opa := sa.getD 0
          pieces := oneByGranule (gs.map fun g => { place := g.1, len := g.2.1, off := g.2.2, op := .read }) }).askTile site.core
        { site := site, shape := sh, why := 3, owner := s.ms.reqSeq })
    let put (sa : Option Word) (i : Instr) (used : List Tok) : Prop := issues i s p 2 (issued s p) used
      { opc := 0x143, cls := 2, paddr := firstPa gs, kind := .stt, addr := r.val, opa := r.val, opb := sa.getD 0, hold := [l]
        pieces := oneByGranule (gs.map fun g => { place := g.1, len := g.2.1, off := g.2.2, op := .write (img.getBytes g.2.2 g.2.1) }) }
    let store : Use := { spaces := tileSpaces, write := true, read := false }
    (impossible sh = false →
      (operands [l] [l] → s.loadForm site l.val p.ty bg false = .ok (ty, g) →
        s.tileAccess site { spaces := tileSpaces } sh pitch.toNat l.val none = .ok gs →
        exec (.ldt p bg pitch rows cols) s = get none [l]) ∧
      (operands [l, r] [l, r] → s.loadForm site l.val p.ty bg true = .ok (ty, g) →
        s.tileAccess site { spaces := tileSpaces } sh pitch.toNat l.val (some r.val) = .ok gs →
        exec (.ldtScaled p bg pitch rows cols) s = get (some r.val) [l, r])) ∧
    (live s l t → s.storeForm site r.val t.shape = .ok () → s.readRows site.core t 0 t.shape.rows = (false, s) →
      (operands [r] [r] → s.tileAccess site store t.shape pitch.toNat r.val none = .ok gs → put none (.stt p pitch) [r]) ∧
      (operands [r, c] [r, c] → s.tileAccess site store t.shape pitch.toNat r.val (some c.val) = .ok gs →
        put (some c.val) (.sttScaled p pitch) [r, c])) ∧
    (reads [l] → exec (.pfh p pitch) s = .next (((s.prefetchable site l.val (pitch.toNat + 1)).foldl
      (fun s g => s.stage site.core g) s).finish p latGraph (spread p (scalarTok site 0)) [l])) ∧
    (¬ reads [l] → exec (.pfh p pitch) s = .next (s.finish p latGraph (spread p (scalarTok site 0)) [l])))

/-- R219 to R221: AOP and ACAS complete by issuing one event on the aligned word, BUPD and BAXPY by issuing one update for
each element of the tile in R, whose values are those of its firing. -/
def Obligations.AtomicsIssue : Prop :=
  ∀ (s : State) (p : Par) (op : AtomOp) (rop : RedOp) (rtry : Bool) (pitch : BitVec 16) (imm : BitVec 32) (t : Target) (x : Tile)
    (rp : Nat) (rows : List (Nat × Target)),
    let site := s.cur.site
    let l := s.cur.l
    let r := s.cur.r
    let c := s.cur.c
    let i := immediate p.ty imm
    let low (v : Word) : Nat := v.toNat % 2 ^ tyBits p.ty
    let one (opc : Nat) (a b : Word) (o : PieceOp) : Req :=
      { opc := opc, cls := 3, paddr := firstPa t.parts, kind := .atomic p.ty, rtry := rtry, addr := l.val, opa := a, opb := b
        pieces := t.parts.take 1 |>.map fun p =>
          { place := p.1, len := p.2.1, off := 0, op := o, more := (t.parts.drop 1).map fun q => (q.1, q.2.1, q.2.2, o) } }
    let bank (opc : Nat) (b : Word) (o : Nat → PieceOp) : Req :=
      { opc := opc, cls := 3, paddr := firstPa ((rows.map fun r => r.2.parts).headD []), kind := .bank, addr := l.val, opa := r.val,
        opb := b, hold := [r]
        pieces := rows.flatMap fun q => (enumL ((s.readPlane site.core x).elems.getD q.1 [])).flatMap fun e =>
          (subParts q.2.parts (e.1 * (tyBits p.ty / 8)) (tyBits p.ty / 8)).map fun y =>
            { place := y.1, len := y.2.1, off := 0, op := o e.2 } }
    (s.atomAccess site l.val p.ty = .ok t →
      (operands [l, r] [l, r] → issues (.aop p op rtry) s p 4 (issued s p) [l, r]
        (one 0x14A r.val 0 (.update (atomOpCode op) p.ty (low r.val)))) ∧
      (operands [l] [l] → issues (.aopImm p op rtry imm) s p 4 (issued s p) [l] (one 0x14A i 0 (.update (atomOpCode op) p.ty (low i)))) ∧
      (operands [l, r, c] [l, r, c] → issues (.acas p rtry) s p 4 (issued s p) [l, r, c]
        (one 0x14B r.val c.val (.cas (tyBits p.ty) (low r.val) (low c.val)))) ∧
      (operands [l, r] [l, r] → issues (.acasImm p rtry imm) s p 4 (issued s p) [l, r]
        (one 0x14B r.val i (.cas (tyBits p.ty) (low r.val) (low i))))) ∧
    (live s r x → x.shape.bg = .g0 → x.shape.ty = p.ty → rowPitch x.shape pitch.toNat = .ok rp →
      s.rowParts site { spaces := [1, 2], write := true } l.val rp (packedRow x.shape) x.shape.rows 0 = .ok rows →
      s.readRows site.core x 0 x.shape.rows = (false, s) →
      (l.kind = kScalar → issues (.bupd p rop pitch) s p 4 (issued s p) [l] (bank 0x14C 0 fun e => .update (redUpdate rop) p.ty e)) ∧
      (l.kind = kScalar → c.kind = kScalar → issues (.baxpy p pitch) s p 4 (issued s p) [l, c]
        (bank 0x14D c.val fun e => .axpy p.ty (low c.val) e)) ∧
      (l.kind = kScalar → issues (.baxpyImm p pitch imm) s p 4 (issued s p) [l] (bank 0x14D i fun e => .axpy p.ty (low i) e)))

/-- R222: a BARA at its home node returns PHASE, keeps EXPECT and FLAGS, sets STATUS where it is 0, and counts one arrival,
the arrival that reaches EXPECT (0 acting as 1) clearing ARRIVED and advancing PHASE; a BARW of phase n is met exactly while
PHASE - n modulo 2^16 is below 2^15.
R223: what ACQ and REL do with the object word: an ACQ waits or takes its hold and returns SEQ; a REL without a holder
fails with PERM and writes nothing, otherwise it gives up a hold and counts SEQ modulo 2^48. -/
def Obligations.BarrierAndObjectWords : Prop :=
  (∀ (w : Word) (st n : Nat), st < 256 →
    let v := BitVec.ofNat 64 (baraWord w.toNat st)
    let arrived := (w.extractLsb' 16 16).toNat + 1
    let full := max (w.extractLsb' 32 16).toNat 1 ≤ arrived
    wordStep (.bara st) w.toNat = .done 0 (some v.toNat) ((w.extractLsb' 48 16).setWidth 64) ∧
    v.extractLsb' 48 16 = (if full then w.extractLsb' 48 16 + 1 else w.extractLsb' 48 16) ∧
    v.extractLsb' 32 16 = w.extractLsb' 32 16 ∧ v.extractLsb' 0 8 = w.extractLsb' 0 8 ∧
    v.extractLsb' 16 16 = (if full then 0 else BitVec.ofNat 16 arrived) ∧
    v.extractLsb' 8 8 = (if w.extractLsb' 8 8 = 0 then BitVec.ofNat 8 st else w.extractLsb' 8 8) ∧
    (wordStep (.barw n) w.toNat = .done 0 none w ↔ (w.extractLsb' 48 16 - BitVec.ofNat 16 n).toNat < 32768) ∧
    (wordStep (.barw n) w.toNat = .wait ↔ 32768 ≤ (w.extractLsb' 48 16 - BitVec.ofNat 16 n).toNat)) ∧
  (∀ (e : Bool) (n q : Nat), n < 32768 → q < 2 ^ 48 →
    let w (e : Bool) (n q : Nat) : Nat := (if e then 2 ^ 63 else 0) + n * 2 ^ 48 + q % 2 ^ 48
    wordStep (.acq false) (w e n q) = (if e = false ∧ n = 0 then .done 0 (some (w true 0 q)) (BitVec.ofNat 64 q) else .wait) ∧
    wordStep (.acq true) (w e n q) = (if e = false ∧ n < 32767 then .done 0 (some (w false (n + 1) q)) (BitVec.ofNat 64 q) else .wait) ∧
    wordStep (.rel false) (w e n q) = (if e then .done 0 (some (w false n (q + 1))) 0 else .done stPerm none 0) ∧
    wordStep (.rel true) (w e n q) = (if n = 0 then .done stPerm none 0 else .done 0 (some (w e (n - 1) (q + 1))) 0))

/-- R215, R220: the integer updates of a word of an element of 8, 16, 32 or 64 bits: sum modulo 2^w, the bitwise operations,
the lesser and the greater by the type's signedness, and exchange; a compare and swap writes exactly when the compared bits
agree; each returns the old word. -/
def Obligations.AtomicUpdates : Prop :=
  ∀ (t : Ty) (old x n : Word), isInteger t →
    let w := width t
    let o := old.toNat % 2 ^ w
    let y := x.toNat % 2 ^ w
    let done (v : Nat) : WordOut := .done 0 (some v) (BitVec.ofNat 64 o)
    wordStep (.update 0 t y) o = done ((o + y) % 2 ^ w) ∧
    wordStep (.update 1 t y) o = done ((old &&& x).toNat % 2 ^ w) ∧
    wordStep (.update 2 t y) o = done ((old ||| x).toNat % 2 ^ w) ∧
    wordStep (.update 3 t y) o = done ((old ^^^ x).toNat % 2 ^ w) ∧
    wordStep (.update 4 t y) o = done (if number t old ≤ number t x then o else y) ∧
    wordStep (.update 5 t y) o = done (if number t old ≤ number t x then y else o) ∧
    wordStep (.update 6 t y) o = done y ∧
    wordStep (.cas w y n.toNat) o = .done 0 (if o = y then some n.toNat else none) (BitVec.ofNat 64 o)

/-! ## Pipes and copies -/

/-- R222, R223: BARA and BARW on an aligned word, and ACQ and REL on an object within their scope, complete by issuing one
event on the word; a REL also names the context's writes that have to perform before it.
R225: PCLM, PCMT, PAWT and PRET, with the count in R or IMM, and PINFO complete on a bound pipe by issuing one operation on
the 64 bytes of its descriptor. -/
def Obligations.SynchronisationIssues : Prop :=
  (∀ (s : State) (p : Par) (sh rtry : Bool) (scope : Scope) (imm : BitVec 32) (t : Target),
    let site := s.cur.site
    let l := s.cur.l
    let r := s.cur.r
    let i := immediate p.ty imm
    let pa := firstPa t.parts
    let ev (o : PieceOp) : List Piece := t.parts.take 1 |>.map fun p =>
      { place := p.1, len := p.2.1, off := 0, op := o, more := (t.parts.drop 1).map fun q => (q.1, q.2.1, q.2.2, o) }
    let bara (st : Word) : Req :=
      { opc := 0x185, cls := 3, paddr := pa, kind := .bara, rtry := rtry, addr := l.val, opa := st, pieces := ev (.bara (st.toNat % 256)) }
    let barw (n : Word) : Req :=
      { opc := 0x186, cls := 1, paddr := pa, kind := .barw, addr := l.val, opa := n, pieces := ev (.barw (n.toNat % 65536)) }
    let rs := match s.ctx? site.ctx with
      | some c => c.boundTo (s.absPa pa)
      | none => []
    let before := s.ms.reqs.filter fun r => r.site.core == site.core && r.site.ctx == site.ctx && !r.noEntry &&
      r.kind.publishes && (r.pieces.flatMap Piece.spans).any fun q => s.writesInto rs q.1 q.2.1
    let engs := if rs = [] then [] else (s.core site.core).eng.recs.filter fun e => e.site.ctx == site.ctx && e.kind == .copy
    (s.wordAccess site l.val true = .ok t →
      (operands [l] [l] → issues (.bara p rtry) s p 4 (issued s p) [l] (bara 0)) ∧
      (operands [l, r] [l, r] → issues (.baraStatus p rtry) s p 4 (issued s p) [l, r] (bara r.val)) ∧
      (operands [l] [l] → issues (.baraImm p rtry imm) s p 4 (issued s p) [l] (bara i)) ∧
      (operands [l] [l] → s.inScope site.core scope pa = true →
        issues (.acq p sh rtry scope) s p 4 [] [l]
          { opc := 0x187, cls := 3, paddr := pa, kind := .acq, rtry := rtry, addr := l.val, pieces := ev (.acq sh) } ∧
        issues (.rel p sh rtry scope) s p 4 (issued s p) [l]
          { opc := 0x188, cls := 3, paddr := pa, kind := .rel, rtry := rtry, addr := l.val, ranges := rs,
            before := before.map fun r => r.id, beforeEng := engs.map fun e => e.seq, pieces := ev (.rel sh) })) ∧
    (s.wordAccess site l.val false = .ok t →
      (operands [l, r] [l, r] → issues (.barw p) s p 1 [] [l, r] (barw r.val)) ∧
      (operands [l] [l] → issues (.barwImm p imm) s p 1 [] [l] (barw i)))) ∧
  (∀ (s : State) (p : Par) (pipe : BitVec 4) (imm : BitVec 32) (c : Ctx) (x : Nat × Nat),
    let l := s.cur.l
    let r := s.cur.r
    let q := pipe.toNat
    let op (i : Instr) (k cls kind : Nat) (n : Word) (used : List Tok) : Prop := issues i s p kind [] used
      { opc := 0x180 + k, cls := cls, paddr := ownPa x.2, kind := .pipe k q, opa := n
        pieces := [{ place := .mem (ownPa x.2) 0 0, len := 64, op := .pipe k q n.toNat }] }
    let v := immediate p.ty imm
    s.ctx? s.cur.site.ctx = some c → c.pipes.find? (fun x => x.1 == q) = some x →
      (operands [l, r] [r] →
        op (.pclm p pipe) 0 3 4 r.val [l, r] ∧ op (.pcmt p pipe) 1 3 4 r.val [l, r] ∧
        op (.pawt p pipe) 2 3 4 r.val [l, r] ∧ op (.pret p pipe) 3 3 4 r.val [l, r]) ∧
      (clean [l] →
        op (.pclmImm p pipe imm) 0 3 4 v [l] ∧ op (.pcmtImm p pipe imm) 1 3 4 v [l] ∧
        op (.pawtImm p pipe imm) 2 3 4 v [l] ∧ op (.pretImm p pipe imm) 3 3 4 v [l] ∧ op (.pinfo p pipe) 4 1 1 0 [l]))

/-- R224: counters of a pipe as its operations keep them: RETIRED, TAKEN, COMMITTED and CLAIMED in that order within SIZE,
modulo 2^32, and a pending pad between TAKEN and CLAIMED. -/
def Sys2Proof.Claims.pipeOrdered (p : PipeDesc) : Prop :=
  let d (x : Nat) : Nat := sub32 x p.retired
  1 ≤ p.size ∧ p.size ≤ 2 ^ 20 ∧ p.claimed < 2 ^ 32 ∧ p.committed < 2 ^ 32 ∧ p.taken < 2 ^ 32 ∧ p.retired < 2 ^ 32 ∧
  p.padAt < 2 ^ 32 ∧ d p.taken ≤ d p.committed ∧ d p.committed ≤ d p.claimed ∧ d p.claimed ≤ p.size ∧
  (p.padP = true → 1 ≤ p.padLen ∧ d p.taken ≤ d p.padAt ∧ d p.padAt + p.padLen ≤ d p.claimed)

/-- R224, R225: every operation that a pipe answers keeps its counters in order; a claim that is granted takes n granules of
the free count without crossing the end of the ring, a take returns n published granules, a return frees n taken ones, and
an operation that fails or waits, like a count of 0, changes nothing. -/
def Obligations.PipeCountersStayOrdered : Prop :=
  ∀ (p : PipeDesc) (n : Nat), pipeOrdered p → n < 2 ^ 32 →
    (∀ op q r pad, op < 5 → pipeStep op n p = .done q r pad → pipeOrdered q ∧ q.size = p.size) ∧
    (∀ q r pad, 0 < n → p.claimed + 2 * p.size < 2 ^ 32 → pipeStep 0 n p = .done q r pad →
      r + n ≤ p.size ∧ p.claimed + n ≤ q.claimed ∧ r = (q.claimed - n) % p.size) ∧
    (∀ q r pad, 0 < n → pipeStep 2 n p = .done q r pad → r + n ≤ p.size ∧ (n : Int) ≤ p.available) ∧
    (∀ q r pad, pipeStep 3 n p = .done q r pad → sub32 q.retired p.retired = n ∧ n ≤ sub32 p.taken p.retired) ∧
    (pipeStep 0 0 p = .done p (p.claimed % p.size) none ∧ pipeStep 2 0 p = .done p (p.taken % p.size) none ∧
      pipeStep 1 0 p = .done p 0 none ∧ pipeStep 3 0 p = .done p 0 none)

/-- R211 to R216: COPY in both forms, GATH, SCAT and CRED complete by starting an engine command on their record, whose
number of runs and completion word are read at the firing; poison makes the command start as one that has failed with
POISON_IN where its record has a completion word.
R213, R216, R343: COPY_COMPLETE of a command with nothing left to move arrives at its completion word first, and emits
and frees its record when the arrival has performed, or at once where it has no completion word; it emits 0, or poison with
the first failing status, its own or else its arrival's (log 171). R217: DRAIN waits for the copy commands of its context present at its firing, and DRAIN_COMPLETE
emits 0 once their writes into its path are done. -/
def Obligations.CopiesStartAndComplete : Prop :=
  (∀ (s : State) (p : Par) (scl : Bool) (rop : RedOp) (recd : BitVec 10) (place : Option Piece) (t : Tile),
    let site := s.cur.site
    let l := s.cur.l
    let r := s.cur.r
    let pat := s.pattern site recd.toNat
    let starts (i : Instr) (opc st : Nat) : Prop :=
      let e : Eng := { site := site, opc := opc, l := l, r := r, kind := .copy, step := .queued, fail := st, cword := place }
      let total := if st = 0 then s.runCount e pat else 0
      exec i s = .next ((s.command p { e with total := total, tagN := s.writeCount e pat total }).copyPump site.core)
    s.cwordPlace site pat = .ok place →
      (clean [l] → starts (.copy p scl recd) 0x144 0) ∧
      (operands [l, r] [l, r] → starts (.copyAddr p scl recd) 0x144 0 ∧ starts (.cred p rop recd) 0x147 0) ∧
      (live s l t → operands [r] [r] → t.shape.bg = .g0 → t.shape.ty ∈ [Ty.s32, .z32, .s64, .z64] →
        pat.counts.getD 1 0 = 1 → pat.counts.getD 2 0 = 1 → starts (.gath p recd) 0x145 0 ∧ starts (.scat p recd) 0x146 0) ∧
      (pat.cwen = true → l.kind = kPoison → starts (.copy p scl recd) 0x144 stPoisonIn ∧ starts (.copyAddr p scl recd) 0x144 stPoisonIn ∧
        starts (.cred p rop recd) 0x147 stPoisonIn ∧ starts (.gath p recd) 0x145 stPoisonIn ∧ starts (.scat p recd) 0x146 stPoisonIn)) ∧
  ((∀ (s : State) (core i : Nat) (e : Eng) (l : Piece) (r : Req), s.eng? core i = some e → e.kind = .copy → s.engRuns e = true →
    e.moves = [] → e.todo = [] → e.pos = e.total → e.watch = none →
    let t := if e.fail = 0 then scalarTok e.site 0 else poisonTok s e.site e.fail
    (e.cword = none → (e.step = .running ∨ e.fail ≠ 0) → exec (.copyComplete core i) s =
      .next ((s.endCommand core e e.fail [(e.d0, t), (e.d1, t), (e.d2, t)] [e.l, e.r]).copyPump core)) ∧
    (e.cword = some l → e.step = .running → exec (.copyComplete core i) s =
      .next ((s.arriveAt e.site (s.tenantOf e.site.ctx) l e.fail e.tag 0).modEngRec core i fun e => { e with step := .finishing })) ∧
    (e.cword = some l → e.step = .finishing → s.arrivalOf core e = some r → r.done = true → exec (.copyComplete core i) s =
      .next (let u := s.dropReq r.id
        let st := if e.fail = 0 then r.status else e.fail
        let t := if st = 0 then scalarTok e.site 0 else poisonTok u e.site st
        (u.endCommand core e st [(e.d0, t), (e.d1, t), (e.d2, t)] [e.l, e.r]).copyPump core))) ∧
  (∀ (s : State) (p : Par) (path : BitVec 3), clean [s.cur.l] →
    let site := s.cur.site
    exec (.drain p path) s = .next ((s.modCtx site.ctx fun c => { c with drains := c.drains ++
      [{ site := site, d0 := p.d0, d1 := p.d1, d2 := p.d2, path := path.toNat,
         on := ((s.core site.core).eng.recs.filter fun e => e.site.ctx == site.ctx && e.kind == .copy).map fun e => e.seq }] }).finish p
      latGraph [] [s.cur.l])) ∧
  (∀ (s : State) (i id : Nat) (w : Wait), (s.ctxs.flatMap fun c => c.drains.map fun w => (c.id, w))[i]? = some (id, w) →
    (s.ctxRuns id = true → s.drained w = true → exec (.drainComplete i) s = .next
      ((s.modCtx id fun c => { c with drains := c.drains.erase w }).emitAll w.site latGraph 1
        [(w.d0, scalarTok w.site 0), (w.d1, scalarTok w.site 0), (w.d2, scalarTok w.site 0)])) ∧
    (s.drained w = false → exec (.drainComplete i) s = .next s)))

/-! ## What happens at memory -/

/-- R3, R63, R406: a write of bytes to local memory that every sector it touches lets happen reads back under its key, and
leaves every byte outside it as that key reads it; the memory stays in canonical form. -/
def Obligations.WritesReadBack : Prop :=
  ∀ (s : State) (a tag key : Nat) (bs : List Byte), Safety.MemInv s →
    let w := s.writePhys a bs tag key
    Safety.MemInv w.2 ∧
    (∀ x, x < a ∨ a + bs.length ≤ x → keyByte w.2 x key = keyByte s x key) ∧
    (w.1 = 0 → ∀ i b, bs[i]? = some b → keyByte w.2 (a + i) key = b) ∧
    (bs.length ≤ 32 → a / 32 = (a + bs.length - 1) / 32 → w.1 ≠ 0 → w.2.ms.mem = s.ms.mem)

/-- R208, R335: MEMORY_REQUEST_PERFORM of a piece of a store to local memory performs that piece alone as one write event at
the physical address the request holds: a handler's store or any other's, watched or not; every byte outside it reads as
before, and where the write event succeeds the piece's bytes stand at that address; one that fails in its only sector changes
no byte. -/
def Obligations.StoresWriteTheirBytes : Prop :=
  ∀ (s : State) (i id k pa tag key len off : Nat) (bs : List Byte) (r : Req),
    Safety.MemInv s → s.readyEvents[i]? = some (.piece id k) → s.req? id = some r → r.kind = .st →
    r.pieces[k]? = some { place := .mem pa tag key, len := len, off := off, op := .write bs } → s.isLocal pa = true →
    s.localOk (paLocal pa) = true →
    let event := s.writePhys (paLocal pa) bs tag key
    ∃ t, exec (.memoryRequestPerform i) s = .next t ∧ Safety.MemInv t ∧
      (∀ x, x < paLocal pa ∨ paLocal pa + bs.length ≤ x → keyByte t x key = keyByte s x key) ∧
      (event.1 = 0 → ∀ j b, bs[j]? = some b → keyByte t (paLocal pa + j) key = b) ∧
      (bs.length ≤ 32 → paLocal pa / 32 = (paLocal pa + bs.length - 1) / 32 → event.1 ≠ 0 → t.ms.mem = s.ms.mem)

/-- R203, R205, R222, R223, R225, R335, R369, R439: the events of requests and granules complete: a ready event performs; a
BARW whose condition held reads its word; the head ACQ, PCLM or PAWT of a queue is served; an answered request is delivered
to a running context and captured for another; a timeout, a logged entry's age, a transport error and a replay act on the
request, the entry or the granule that they name. -/
def Obligations.RequestEventsComplete : Prop :=
  (∀ (s t : State) (i id k core recd m : Nat) (r : Req) (e : Eng) (x : Move),
    let event (ev : Ready) (t : State) : Prop := s.readyEvents[i]? = some ev → exec (.memoryRequestPerform i) s = .next t
    (s.req? id = some r →
      (s.answerLogged r = none → event (.piece id k) (s.performPiece r k false)) ∧
      (s.answerLogged r = some t → event (.piece id k) t) ∧
      event (.qput id) (s.enqueue r)) ∧
    (s.eng? core recd = some e →
      (e.moves[m]? = some x → event (.read core recd m k) (s.moveRead core e m x k) ∧ event (.write core recd m) (s.moveWrite core e m x)) ∧
      (s.req? id = some r → event (.back core recd id) (s.moveBack core e r)))) ∧
  (∀ (s : State) (i : Nat) (r : Req) (q : Piece), (s.waiting fun r => r.kind == .barw && r.go && s.served r)[i]? = some r →
    r.pieces = [q] →
    let parts := q.spans.map fun x => (x.1, x.2.1, x.2.2.1, PieceOp.read)
    let a := s.spansEvent (if r.foreign then 256 else r.site.core) parts
    let seen := if r.site.hnd then (r.hits, a.2) else a.2.homeWatches (Req.doer s r) 1 parts r.hits
    let word := BitVec.ofNat 64 (leNat (a.1.bytes ++ a.1.parts.flatMap fun x => x.2))
    exec (.barwRelease i) s = .next ((seen.2.modReq r.id fun x =>
      { (x.take 0 0 { st := a.1.st, result := word } 0) with hits := seen.1 }).settleReq r.id)) ∧
  (∀ (s t : State) (i : Nat) (r : Req), (s.waiting fun r => r.kind == .acq && s.isHead r && s.served r)[i]? = some r →
    (s.answerLogged r = none → exec (.acqGrant i) s = .next (s.performPiece r 0 true)) ∧
    (s.answerLogged r = some t → exec (.acqGrant i) s = .next t)) ∧
  (∀ (s : State) (i : Nat) (r : Req), (s.waiting fun r => (match r.kind with
      | .pipe _ _ => true
      | _ => false) && s.isHead r && s.served r)[i]? = some r →
    exec (.pipeWaitGrant i) s = .next (s.performPiece r 0 true)) ∧
  (∀ (s : State) (i : Nat) (r : Req), (s.ms.reqs.filter Req.answered)[i]? = some r →
    ((s.ctxRuns r.site.ctx = true ∨ r.stepped = true) → exec (.memoryResponse i) s = .next (s.respond r)) ∧
    (s.ctxRuns r.site.ctx = false → r.stepped = false → exec (.memoryResponse i) s =
      .next (s.modReq r.id fun r => { r with st := if r.status == 0 then 3 else 4 }))) ∧
  (∀ (s : State) (i : Nat) (r : Req), (s.ms.reqs.filter s.outstandingFar)[i]? = some r → r.rtry = false →
    r.last + s.tmoOf r.site.ctx ≤ s.wall → exec (.remoteTimeout i) s =
      .next ((s.modReq r.id fun r => { r with pieces := [], reach := none, status := stLinkTimeout }).settleReq r.id)) ∧
  (∀ (s : State) (i : Nat) (l : Logged), s.ms.log[i]? = some l →
    (s.evictable l = true → exec (.retentionWindowExpiry i) s = .next (s.modMs fun m => { m with log := m.log.eraseIdx i })) ∧
    (s.wall < l.logged + 1000000 → exec (.retentionWindowExpiry i) s = .next s)) ∧
  (∀ (s : State) (core i m : Nat) (e : Eng) (x : Move), s.eng? core i = some e →
    (enumL e.moves).find? (fun m => isNet (m.2.src0 ++ [(m.2.dst, 0, 0)])) = some (m, x) →
    exec (.transportError core i) s = .next (s.failMove core i m stLinkTimeout)) ∧
  (∀ (s : State) (i : Nat) (r : Req), (s.ms.reqs.filter Req.replays)[i]? = some r →
    exec (.replayRequest i) s = .next (s.replayReq r)) ∧
  (∀ (s : State) (i core m : Nat) (e : Eng) (x : Move), (s.ms.reqs.filter Req.replays).length ≤ i →
    ((enumL s.cores).flatMap fun c => c.2.eng.recs.flatMap fun e => if s.engRuns e then
        (enumL e.moves).filterMap fun m => if m.2.rpl then some (c.1, e, m.1, m.2) else none
      else [])[i - (s.ms.reqs.filter Req.replays).length]? = some (core, e, m, x) →
    exec (.replayRequest i) s = .next (s.replayMove core e m x))

/-! ## Launches, code slots and registers -/

/-- R227: QPUT, with or without an argument address, on a readable packet address completes by issuing one request that
reads its 256 bytes; when they are read and its turn comes, the packet, with R's argument address in place of its own where R is
given (R308), goes to the slot at the queue's tail, or to none, PERM, where the queue is another tenant's; when it stands there
the tail advances, the launch is a child of the firing's context, and the result is the launch id: package, queue and sequence
number. R228: QWAIT of a context without children gives 0 at once, otherwise it waits for those it has; QWAIT_COMPLETE
gives the count of the children and the status of the first failure in completion order, or 0, once all are done, and until
then changes nothing. -/
def Obligations.LaunchesAndWaits : Prop :=
  (∀ (s : State) (p : Par) (queue : BitVec 6) (t : Target),
    let l := s.cur.l
    let r := s.cur.r
    let put (x y : Word) : Req :=
      { opc := 0x189, cls := 3, paddr := firstPa t.parts, kind := .qput queue.toNat [], addr := l.val, opa := x, opb := y
        pieces := (granulesIn t.parts).map fun g => { place := g.1, len := g.2.1, off := g.2.2, op := .read } }
    s.resolve s.cur.site { spaces := [0, 1, 2, 5] } l.val 256 = .ok t →
      (operands [l] [l] → issues (.qput p queue) s p 0 [] [l] (put 0 0)) ∧
      (operands [l, r] [l, r] → issues (.qputArgs p queue) s p 0 [] [l, r] (put r.val 1))) ∧
  (∀ (s : State) (p : Par) (c : Ctx), clean [s.cur.l] → s.ctx? s.cur.site.ctx = some c →
    (c.kids = [] → exec (.qwait p) s = .next (s.finish p latGraph (spread p (scalarTok s.cur.site 0)) [s.cur.l])) ∧
    (c.kids ≠ [] → exec (.qwait p) s = .next ((s.modCtx s.cur.site.ctx fun x => { x with qwaits := x.qwaits ++
      [{ site := s.cur.site, d0 := p.d0, d1 := p.d1, d2 := p.d2, count := c.kids.length }] }).finish p latGraph [] [s.cur.l]))) ∧
  (∀ (s : State) (i : Nat) (c : Ctx) (w : Wait), (s.ctxs.flatMap fun c => c.qwaits.map fun w => (c, w))[i]? = some (c, w) →
    let kids := c.kids.take w.count
    let gives (status : Nat) : Host.Outcome State Fault Refusal :=
      let v := scalarTok w.site (BitVec.ofNat 64 (kids.length * 2 ^ 32 + status))
      .next ((s.modCtx c.id fun c => { c with qwaits := c.qwaits.erase w }).emitAll w.site latGraph 0 [(w.d0, v), (w.d1, v), (w.d2, v)])
    (c.mode = .running → (∀ k ∈ kids, k.done = true) →
      ((∀ k ∈ kids, k.status = 0) → exec (.qwaitComplete i) s = gives 0) ∧
      (∀ first ∈ kids, first.status ≠ 0 → (∀ k ∈ kids, k.status ≠ 0 → k = first ∨ first.order < k.order) →
        exec (.qwaitComplete i) s = gives first.status)) ∧
    ((c.mode ≠ .running ∨ ∃ k ∈ kids, k.done = false) → exec (.qwaitComplete i) s = .next s)) ∧
  (∀ (s : State) (i id : Nat) (r : Req), s.readyEvents[i]? = some (.qput id) → s.req? id = some r → r.status = 0 →
    let n := r.queueOf
    let q := s.disp.queues.getD n {}
    let image := leNat (Memory.getMany r.got 0 256)
    let job := ((s.ctx? r.site.ctx).map fun c => c.job).getD 0
    let packet (v : Nat) : List Byte := leBytes 256 (v / 2 ^ 44 * 2 ^ 44 + job * 2 ^ 28 + v % 2 ^ 28)
    let goes (bs : List Byte) : Host.Outcome State Fault Refusal :=
      .next (s.visit q.tenant (.visit .slot) (some (n, id, r.site.ctx)) { va := q.slotVa q.tail, len := 256, need := 2, op := .write bs })
    (q.tenant ≠ r.tenant → exec (.memoryRequestPerform i) s = .next (s.endQput r stPerm 0)) ∧
    (q.tenant = r.tenant →
      (r.opb ≠ 1 → exec (.memoryRequestPerform i) s = goes (packet image)) ∧
      (r.opb = 1 → exec (.memoryRequestPerform i) s =
        goes (packet (image / 2 ^ 128 * 2 ^ 128 + bf r.opa.toNat 6 42 * 2 ^ 86 + image % 2 ^ 86))))) ∧
  (∀ (s : State) (n id : Nat) (r : Req), s.req? id = some r →
    let q := s.disp.queues.getD n {}
    let u := (s.modDisp fun d =>
        { d with bells := d.bells + 1
                 queues := d.queues.modify n fun q =>
                   { q with tail := (q.tail + 1) % 2 ^ 32, puts := q.puts ++ [(q.tail, r.site.ctx)],
                             bell := q.bell ++ [((q.tail + 1) % 2 ^ 32, d.bells)] } }).modCtx r.site.ctx fun c =>
      { c with kids := c.kids ++ [{ queue := n, seq := q.tail }], regs := { c.regs with kids := c.regs.kids + 1 } }
    u.qputMode r ≠ .marked → s.endSlot n id 0 = u.modReq r.id fun x =>
      { x with done := true, silent := false, status := 0, result := BitVec.ofNat 64 (s.plat.pkg * 2 ^ 52 + n * 2 ^ 46 + q.tail) })

/-- R229 to R233, R259: CLOAD starts a load command, whose completion arms its slot on every core; CSEL of a ready slot gives a
decision token at once and waits to be applied; CSWT at least 2 µs ahead waits for its instant; CFREE gives 0 for an empty
slot and else waits until the slot, marked freeing, holds nothing.
R229 to R232, R259, R329: a load that has read its image arms its slot on every core of the region; the oldest waiting CSEL
is applied once the old slot holds nothing; the earliest CSWT whose instant GTC has reached switches; a slot being freed that
holds nothing becomes empty; a PHCLOSE whose phase was quiet in two sweeps gives its token back outside the phase. -/
def Obligations.CodeSlots : Prop :=
  (∀ (s : State) (p : Par) (cs : BitVec 2) (g : Region),
    let site := s.cur.site
    let l := s.cur.l
    let new := l.val.toNat % 4
    let wait (w : Switch) : State := s.modRegion g.home fun g => { g with waits := g.waits ++ [w] }
    let sw (op slot at' : Nat) : Switch := { op := op, slot := slot, instant := at', site := site, d0 := p.d0, d1 := p.d1, d2 := p.d2 }
    (operands [l] [l] → site.core < s.cores.length →
      ∃ e, (s.command p { opc := 0x18B, l := l, kind := .cload cs.toNat }).eng? site.core ((s.freeRec site.core).getD 0) = some e ∧
        exec (.cload p cs) s = .next ((s.command p { opc := 0x18B, l := l, kind := .cload cs.toNat }).startLoad site.core e)) ∧
    (operands [l] [l] → s.region? site.core = some g →
      (new ≠ 3 → (g.slot new).ready = true →
        let old := g.target.getD new
        let n := g.switches + g.pending.length
        let held := s.modRegion g.home fun g => { g with waits := g.waits ++ [{ sw 0 new 0 with no := g.selSeq + 1 }], selSeq := g.selSeq + 1 }
        exec (.csel p) s = .next ((if old = new then s else held).finish p latGraph
          (spread p (mkTok site kDecision (decisionWord (if old = new then n else n + 1) (g.slot new).cid old new))) [l])) ∧
      (cs ≠ 3 → s.gtc + 2000 ≤ l.val.toNat → (g.slot cs.toNat).ready = true →
        exec (.cswt p cs) s = .next ((wait (sw 1 cs.toNat l.val.toNat)).finish p latGraph [] [l]))) ∧
    (clean [l] → s.region? site.core = some g →
      ((∀ w ∈ g.waits, 2 ≤ w.op ∨ w.slot ≠ cs.toNat) →
        ((g.slot cs.toNat).state = .empty → exec (.cfree p cs) s = .next (s.finish p latGraph (spread p (scalarTok site 0)) [l])) ∧
        (((g.slot cs.toNat).state = .armed ∨ (g.slot cs.toNat).state = .freeing) → exec (.cfree p cs) s =
          .next (((wait (sw 2 cs.toNat 0)).modSlot g.home cs.toNat fun k => { k with state := .freeing }).finish p latGraph [] [l]))))) ∧
  ((∀ (s : State) (core i slot : Nat) (e : Eng), s.eng? core i = some e → e.kind = .cload slot → s.engRuns e = true → e.step ≠ .waiting →
    e.fail = 0 → e.allRead = true → 2 ≤ e.pos → e.total ≠ 0 → exec (.cloadComplete core i) s =
      .next ((s.armSlot e.row slot (imageOfBytes (Memory.getMany e.buf 0 e.total))).endCommand core e (bf e.word.toNat 56 8)
        [(e.d0, scalarTok e.site e.word), (e.d1, scalarTok e.site e.word), (e.d2, scalarTok e.site e.word)] [e.l])) ∧
  (∀ (s : State) (home : Nat) (g : Region) (w : Switch), s.regionAt home = some g → g.pending.head? = some w →
    (∀ old, g.active = some old → old ≠ w.slot → s.slotBusy g old = false ∧ s.savedIn g old = false) →
    exec (.cselSwitch home) s = .next (s.modRegion home fun g => ({ g with waits := g.waits.erase w } : Region).activate w.slot)) ∧
  (∀ (s : State) (home : Nat) (g : Region) (w : Switch), s.regionAt home = some g →
    g.waits.filter (fun w => w.op == 1 && decide (w.instant ≤ s.gtc)) = [w] →
    exec (.cswtInstant home) s =
      .next ((s.modRegion home fun g => ({ g with waits := g.waits.erase w } : Region).activate w.slot).emitSwitch w)) ∧
  (∀ (s : State) (home i : Nat) (g : Region) (k : CSlot), s.regionAt home = some g →
    (enumL g.slots).find? (fun k => k.2.state == .freeing && !s.slotBusy g k.1 && !s.savedIn g k.1) = some (i, k) →
    exec (.cfreeComplete home) s = .next ((((g.waits.filter fun w => w.op == 2 && w.slot == i).foldl (fun s w => s.emitSwitch w) s).modRegion
      home fun g => { g with waits := g.waits.filter fun w => !(w.op == 2 && w.slot == i) }).emptySlot home i)) ∧
  (∀ (s : State) (home : Nat) (g : Region), s.regionAt home = some g → exec (.regionSweep home) s = .next (s.modRegion home fun g' =>
    { g' with closes := g'.closes.map fun w =>
                { w with quiet := if !(s.phasesHeld g).contains w.ph && Table.get g.gained w.ph == Table.get g.swept w.ph then w.quiet + 1 else 0 }
              swept := g'.gained, freeSeen := g'.cores.map fun c => (c, (s.freeNow c).1, (s.freeNow c).2) })) ∧
  (∀ (s : State) (i home : Nat) (w : PhWait), (s.regions.flatMap fun g => g.closes.map fun w => (g.home, w))[i]? = some (home, w) →
    2 ≤ w.quiet → s.ctxRuns w.site.ctx = true →
    let t : Tok := { w.tok with phase := 0, prio := w.site.prio }
    exec (.phcloseReturn i) s = .next ((s.modRegion home fun g => { g with closes := g.closes.erase w }).settle w.site latGraph 0
      [(w.d0, t), (w.d1, t), (w.d2, t)] [w.tok])))

/-- R236 to R238: SETC on a readable operand completes with a scalar 0 after writing its register, and the registers read back
what R237 gives: WDOG_LIMIT held within 2^10 to 2^40, REMOTE_TMO within 1,000 to 1,000,000, HIST_SPILL_BASE, TRACE_BUF and
PAN_HOLD as written, FPFLAGS its five bits, RAS_INJECT its fields unless TARGET is reserved, TIMER_CMP as written, which traps at
once where GTC has reached it. R374: a watch register that other packages check gives its scalar when they have answered. -/
def Obligations.ControlRegisterWrites : Prop :=
  ∀ (s : State) (p : Par) (idx : BitVec 12) (c : Ctx), operands [s.cur.l] [s.cur.l] →
    let site := s.cur.site
    let v := s.cur.l.val
    let sets (i : Instr) (t : State) : Prop := exec i s = .next (t.finish p latGraph (spread p (scalarTok site 0)) [s.cur.l])
    let armed := s.modCoreRegs site.core fun g => { g with timerCmp := v, timerArmed := true }
    let inject := s.modCoreRegs site.core fun g => { g with rasCount := v.toNat / 2 ^ 8 % 256, rasTarget := v.toNat % 16 }
    sets (.setc p idx) (s.writeReg site idx.toNat v) ∧
    sets (.setcFpflags p) (s.modRegs site.ctx fun r => { r with fpflags := v.toNat % 32 }) ∧
    (v.toNat ≤ s.gtc → sets (.setcTimerCmp p) (armed.raiseTimer site.core)) ∧
    (s.gtc < v.toNat → sets (.setcTimerCmp p) armed) ∧
    (v.toNat % 16 < 5 → sets (.setcRasInject p) inject) ∧ (5 ≤ v.toNat % 16 → sets (.setcRasInject p) s) ∧
    (∀ t, s.writeWatch site idx.toNat v = .ok t →
      let n := (idx.toNat - 0x040) / 4
      let old := s.watchPkgs site.ctx n
      let new := t.watchPkgs site.ctx n
      (old = [] → new = [] → sets (.setcWatch p idx) t) ∧
      (old ≠ [] → new = [] → sets (.setcWatch p idx) (t.tellWatch p n old new)) ∧
      (new ≠ [] → exec (.setcWatch p idx) s = .next ((t.tellWatch p n old new).finish p latGraph [] [s.cur.l]))) ∧
    (s.ctx? site.ctx = some c → site.core < s.cores.length →
      (s.writeReg site 0x021 v).readReg site 0x021 = BitVec.ofNat 64 (min (max v.toNat 1024) (2 ^ 40)) ∧
      (s.writeReg site 0x022 v).readReg site 0x022 = BitVec.ofNat 64 (min (max v.toNat 1000) 1000000) ∧
      (s.writeReg site 0x030 v).readReg site 0x030 = v ∧ (s.writeReg site 0x031 v).readReg site 0x031 = v ∧
      (s.writeReg site 0x070 v).readReg site 0x070 = v ∧
      (s.modRegs site.ctx fun r => { r with fpflags := v.toNat % 32 }).readReg site 0x003 = v &&& 31 ∧
      armed.readReg site 0x020 = v ∧
      (v.toNat % 16 < 5 → inject.readReg site 0x060 = v &&& 0xFF0F))

/-- R239 to R241: TRACE in both forms writes a record and gives 0; IFRD of a selector in range gives the word it names; SBIND
binds its region and gives 0; XTSET of a slot below 12 replaces that extent record by the one it reads and gives 0. -/
def Obligations.TraceSelectAndBind : Prop :=
  ∀ (s : State) (p : Par) (tag len : BitVec 16) (w : Word) (t : State) (x : Extent) (tg : Target) (bs : List Byte),
    let site := s.cur.site
    let l := s.cur.l
    let r := s.cur.r
    let zero := spread p (scalarTok site 0)
    (operands [l] [l] → exec (.trace p tag) s = .next ((s.traceRec site 4 (tag.setWidth 64) l.val 0).finish p latGraph zero [l])) ∧
    (operands [l, r] [l, r] →
      exec (.trace2 p tag) s = .next ((s.traceRec site 4 (tag.setWidth 64) l.val r.val).finish p latGraph zero [l, r])) ∧
    (operands [l] [l] → s.selected site.core l.val = .ok (some w) →
      exec (.ifrd p) s = .next (s.finish p latGraph (spread p (scalarTok site w)) [l])) ∧
    (operands [l, r] [l, r] → s.bindRegion site l.val r.val len.toNat = .ok t → t.cur = s.cur →
      exec (.sbind p len) s = .next (t.finish p latGraph zero [l, r])) ∧
    (operands [l, r] [l, r] → l.val.toNat < 12 → s.resolve site { spaces := [1, 2] } r.val 576 = .ok tg →
      s.readParts site.core tg.parts = (0, bs, s) → s.readExtent bs = some x →
      ∃ b, exec (.xtset p) s = .next (({ s with fresh := s.fresh + 1 }.modCtx site.ctx fun c =>
        { c with extents := (c.extents ++ List.replicate (16 - c.extents.length) ({} : Extent)).set l.val.toNat { x with enc := b } }).finish p latGraph
          zero [l, r]))

/-! ## Traps -/

/-- R235, R350, R351, R358: TRAP completes without emitting: its context gains a trap that carries L, its code and its
destinations; TIMER raises the timer trap of its core when GTC has reached an armed TIMER_CMP, and ORPHAN its own when a
watchdog has reached its limit, once.
R353 to R356: HANDLER_ENTRY of a running context without a live handler takes its oldest trap into a frame of block c - 1
of slot 3: the trap leaves the list and becomes the handler's, and the trap word goes to node 0, detail A to node 1, detail B to
node 2; with no handler for TRAP_SW its operand goes to the TRAP's destinations. TRET ends the handler; for TRAP_SW its operand
goes to the TRAP's destinations, otherwise its action settles the trap; outside a handler it is quarantined with PERM. -/
def Obligations.TrapsAndHandlers : Prop :=
  ((∀ (s : State) (p : Par) (code : BitVec 16), clean [s.cur.l] →
    exec (.trap p code) s = .next ((s.finish p latGraph [] []).trap
      { cause := 1, core := s.cur.site.core, site := s.cur.site, code := code.toNat, a := s.cur.l, d0 := p.d0, d1 := p.d1, d2 := p.d2 } false)) ∧
  (∀ (s : State) (t : Trap) (c : Ctx), s.ctx? t.site.ctx = some c → s.haltEnabled t.site.ctx t.cause false = false →
    (s.trap t false).ctx? t.site.ctx = some { c with traps := c.traps ++ [{ t with raised := s.gtc, order := s.trapSeq }] } ∧
    (s.trap t false).cores = s.cores ∧ (s.trap t false).ms = s.ms ∧ (s.trap t false).flight = s.flight) ∧
  (∀ (s : State) (core : Nat),
    let g := (s.core core).regs
    (g.timerArmed = true → g.timerCmp.toNat ≤ s.gtc → exec (.timer core) s = .next (s.raiseTimer core)) ∧
    (g.timerArmed = false ∨ s.gtc < g.timerCmp.toNat → exec (.timer core) s = .next s)) ∧
  (∀ (s : State) (core ctx n : Nat) (c : Ctx), s.ctx? ctx = some c → c.wdogs.find? (fun w => w.1 == core) = some (core, n, false) →
    c.mode = .running → c.regs.wdog ≤ n →
    let d := orphanDetails (s.parkedFrames core ctx)
    exec (.orphan core ctx) s = .next ((s.modCtx ctx fun c =>
        { c with wdogs := c.wdogs.map fun w => if w.1 == core then (w.1, w.2.1, true) else w }).trap
      { cause := 4, core := core, site := { core := core, ctx := ctx }, a := scalarTok {} d.1, b := d.2 } false))) ∧
  ((∀ (s : State) (id n : Nat) (c : Ctx) (t : Trap) (u : State), s.ctx? id = some c → c.mode = .running → c.handler = none →
    s.nextTrap c = some t → s.noHandler t = false → t.cause ≠ 5 → t.a.kind ≠ kTile →
    s.takeFrame t.core (fun n => { newFrame n id 3 (t.cause - 1) ((s.core t.core).descOf 3 (t.cause - 1)) [] with hnd := true }) = some (n, u) →
    let v := (u.takeTrap id t).modCtx id fun c => { c with handler := some t }
    let site : Site := { core := t.core, ctx := id, prio := v.eff id }
    let due := v.clk t.core
    let arrive (w : State) (node : Nat) (x : Tok) : State := w.deliver site t.core n 3 (t.cause - 1) node 0 due x
    exec (.handlerEntry id) s = .next ((arrive (arrive (arrive v 0 (scalarTok site (trapWord v t))) 1 (mkTok site t.a.kind t.a.val)) 2
      (scalarTok site t.b)).pumpCtx id)) ∧
  (∀ (s : State) (id : Nat) (c : Ctx) (t : Trap), s.ctx? id = some c → c.mode = .running → c.handler = none →
    s.nextTrap c = some t → s.noHandler t = true → t.cause = 1 →
    exec (.handlerEntry id) s = .next (((s.takeTrap id t).trapReturn t t.a [t.a]).pumpCtx id)) ∧
  (∀ (s : State) (p : Par) (c : Ctx) (t : Trap),
    let site := s.cur.site
    let u := s.finish p latGraph [] []
    (site.hnd = false → exec (.tret p) s = .next (((u.countRoute site.core).record site.ctx stPerm).release site.core s.cur.l)) ∧
    (site.hnd = true → u.ctx? site.ctx = some c → c.handler = some t →
      let v := (u.completeFrame t.core site.frame).modCtx site.ctx fun c => { c with handler := none }
      (t.cause = 1 → exec (.tret p) s = .next ((v.trapReturn t s.cur.l [s.cur.l]).pumpCtx site.ctx)) ∧
      (t.cause ≠ 1 → t.cause ≠ 5 → s.cur.l.kind = kScalar → s.cur.l.val.toNat ≤ 2 →
        exec (.tret p) s = .next (((v.release t.core s.cur.l).settleTrap t s.cur.l.val.toNat).pumpCtx site.ctx)))))

/-! ## Tokens on their way -/

/-- R17, R18, R327: TOKEN_ACCEPT of a token that may arrive for a frame: one that fails a check of R17 is taken from the network,
quarantined with status ROUTE and never fires; one whose residue is wrong is placed as poison RESIDUE of the accepting core; any
other is placed as it is, each with its place in the order of acceptance (R300). A full spill ring keeps it in flight; a handle
that enters a frame of another context on its own core stays in flight with a copy of its tile (R257). -/
def Obligations.TokensAreAccepted : Prop :=
  ∀ (s : State) (i : Nat) (q : QTok), s.arriving i = some q → q.dst = .frame → s.frameSaved q.core q.frame = false → q.tile = none →
    let ctx := s.ctxOfTok q.core q
    let u := s.dropFlight i
    let here : Site := { core := q.core, phase := q.tok.phase, prio := q.tok.prio }
    (s.tokenOk q.core q = false → exec (.tokenAccept i) s = .next ((u.quarantine q.core q stRoute).release q.core q.tok)) ∧
    (s.tokenOk q.core q = true → s.ringFull q.core ctx = true → exec (.tokenAccept i) s = .next s) ∧
    (s.tokenOk q.core q = true → s.ringFull q.core ctx = false → s.admits ctx q = false →
      exec (.tokenAccept i) s = .next (u.countDropped (dieOf q.core))) ∧
    (s.tokenOk q.core q = true → s.ringFull q.core ctx = false → s.admits ctx q = true → s.leavesCtx ctx q = true →
      let x := s.depart { core := q.core, ctx := ctx } q
      exec (.tokenAccept i) s = .next { x.2 with flight := x.2.flight.set i x.1 }) ∧
    (s.tokenOk q.core q = true → s.ringFull q.core ctx = false → s.admits ctx q = true → s.leavesCtx ctx q = false →
      tokenPort (u.targetWord q.core q) q.port = true →
      let places (w : State) (x : QTok) : Prop :=
        let y := { x with acc := (w.core q.core).tok.accSeq }
        let v := w.modTok q.core fun t => { t with accSeq := t.accSeq + 1 }
        v.brkHit q.core (v.ctxOfTok q.core y) y = none → exec (.tokenAccept i) s = .next (v.place q.core y)
      (q.tok.res = residue255 q.tok.val → places u q) ∧
      (q.tok.res ≠ residue255 q.tok.val →
        let v := (u.countResidue q.core).release q.core q.tok
        places v { q with tok := mkTok here kPoison (poisonVal v here stResidue) }))

/-- R17, R48, R137, R254, R255, R326: a quarantine report records its status where the emitting context lives; an arrival at an
in-port takes its slot at that instant, waits behind an earlier one of that in-port and otherwise enters it; a tile on its way asks for a new tile, or, where its
token's residue is wrong, is poison RESIDUE of the receiving core; the request
at the head of an allocation FIFO is granted when it fits and no handler waits for a frame there (R353), and holds all others
back when it does not; the first token that has
stood 2^20 clk in FIFO 1, 2 or 3 moves to the tail of the FIFO above.
R104, R110, R250, R252, R254: granting the request of an FNEW takes a free frame of its block for its context, with the exits
of the descriptor and every slot empty, delivers the operands it carries to their node and port, and emits the continuation of
the new frame to D0, D1 and D2. -/
def Obligations.TokensArriveAndAreGranted : Prop :=
  ((∀ (s : State) (i core ctx st : Nat), s.reports[i]? = some (core, ctx, st) → exec (.quarantineReport i) s =
    .next ({ s with reports := s.reports.eraseIdx i }.modRegs ctx fun r =>
      { r with status := if r.status = 0 then st else r.status, quar := min (r.quar + 1) 255 })) ∧
  (∀ (s : State) (i : Nat) (q : QTok), i < s.flight.length → s.arriving i = some q → q.dst ≠ .frame →
    let b := s.bindSlot q
    (portBlocked b (s.core q.core).tok.inq = true → exec (.sourcePortArrival i) s =
      .next ((s.dropFlight i).modTok q.core fun t => { t with inq := t.inq ++ [{ b with held := true }] })) ∧
    (portBlocked b (s.core q.core).tok.inq = false → exec (.sourcePortArrival i) s = .next ((s.dropFlight i).arrivePort b))) ∧
  (∀ (s : State) (i : Nat) (q : QTok) (m : TileImg), s.arriving i = some q → q.dst = .frame → q.tile = some m →
    s.frameSaved q.core q.frame = false → s.tokenOk q.core q = true → s.admits (s.ctxOfTok q.core q) q = true →
    (q.tok.res = residue255 q.tok.val →
      exec (.tileTransferReceive i) s = .next ({ s with flight := s.flight.set i { q with held := true } }.askTile q.core
        { site := { core := q.core, ctx := s.ctxOfTok q.core q, hnd := ((s.frame? q.core q.frame).map fun (f : Frame) => f.hnd).getD false },
          shape := { m.shape with acc := false }, why := 4, arrival := some { q with held := true } })) ∧
    (q.tok.res ≠ residue255 q.tok.val →
      let u := s.countResidue q.core
      let bad := poisonTok u { core := q.core, phase := q.tok.phase, prio := q.tok.prio } stResidue
      exec (.tileTransferReceive i) s = .next { u with flight := u.flight.set i { q with tok := bad, tile := none } })) ∧
  (∀ (s : State) (core : Nat) (r : FrameReq), s.nextAsk core = some r →
    (s.askFits core r = true → s.entryAsks core = false → exec (.frameGrant core) s = .next (s.grantFrame core r)) ∧
    (s.askFits core r = false ∨ s.entryAsks core = true → exec (.frameGrant core) s = .next s)) ∧
  (∀ (s : State) (core c : Nat) (q : QTok),
    ([1, 2, 3].filterMap fun c => (((s.core core).tok.fifo c).find? fun q => decide (q.since + 2 ^ 20 ≤ s.clk core)).map fun q => (c, q)).head? =
      some (c, q) → exec (.tokenPromotion core) s =
    .next ((s.modTok core fun u => u.setFifo c ((u.fifo c).erase q)).file core (c - 1) q))) ∧
  (∀ (s : State) (core n : Nat) (r : FrameReq), r.why = .fnew → (s.core core).frm.next = some n →
    let d := (s.core core).descOf r.cslot r.block
    (s.core core).frm.fits (descFsize d) = true → descTrace d = false → core < s.cores.length →
    let f : Frame := { num := n, ctx := r.ctx, cslot := r.cslot, block := r.block, exits := descExits d, inst := r.inst,
                       slots := List.replicate (descFsize d) {} }
    s.grantFrame core r = (s.modFrm core fun u =>
      { u with fifo := u.fifo.erase r, free := u.free.filter (fun x => x != n), frames := u.frames ++ [f] }).fillFrame core n r)

/-! ## Freezing, saving and completion -/

/-- R265: CONTEXT_COMPLETION ends a context that is at rest, with its recorded status, and leaves any other as it is. -/
def Obligations.ContextsComplete : Prop :=
  ∀ (s : State) (id : Nat) (c : Ctx), s.ctx? id = some c →
    (s.atRest c = true → exec (.contextCompletion id) s = .next (s.endContext id c.regs.status) ∧
      (s.endContext id c.regs.status).ctx? id = none) ∧
    (s.atRest c = false → exec (.contextCompletion id) s = .next s)

/-- R359 to R361: FREEZE stops those of the named contexts that run and are to be frozen, FREEZE_MARK reaches a node for every
frozen context that owes it a fence, a drain marker follows the mark on each core, FENCE settles a context with its last fence,
and SETTLE_TIMEOUT settles a frozen one after 3 µs, or 5 µs with an entry toward another package.
R334, R363, R364, R369: CONTEXT_SAVE of a settled context that a request saves writes it to its area and ends the request with
status 0; CONTEXT_RESTORE, once every request of the context has been granted and its area is sound, lets it go on and ends
the request; an area that is not sound abandons the context with DATA_UE. -/
def Obligations.ContextsFreezeSaveAndRestore : Prop :=
  ((∀ (s : State) (ids : List Nat), exec (.freeze ids) s =
    .next (s.freeze (ids.filter fun i => ((s.ctx? i).map s.freezeDue).getD false)).stopJobs) ∧
  (∀ (s : State) (id : Nat) (c : Ctx), s.ctx? id = some c → c.mode = .running →
    ∃ d, (s.freeze [id]).ctx? id = some d ∧ d.mode = .frozen ∧ d.froze = s.wall ∧ d.seats = c.seats ∧ d.traps = c.traps) ∧
  (∀ (s : State) (node : Nat), ∃ t, exec (.freezeMark node) s = .next t ∧ t.ms = s.ms ∧ t.cores = s.cores ∧
    ∀ c ∈ s.ctxs, c.mode = .frozen → (∃ f ∈ c.fences, f.2 = node) → ∃ d ∈ t.ctxs, d.id = c.id ∧ node ∈ d.marks) ∧
  (∀ (s : State) (core node : Nat), ∃ t, exec (.drainMarker core node) s = .next t ∧ t.ms.mem = s.ms.mem ∧ t.cores = s.cores ∧
    t.ctxs.length = s.ctxs.length) ∧
  (∀ (s : State) (core node id : Nat) (c : Ctx), s.ctxs = [c] → c.id = id → c.mode = .frozen → (core, node) ∈ c.markers →
    c.fences = [(core, node)] → (∀ r ∈ s.ms.reqs, r.answered = false) →
    exec (.fence core node) s = .next (({ s with ctxs := [{ c with fences := [], settled := true, saved := { c.saved with settle := s.gtc } }] } :
      State).stopJobs)) ∧
  (∀ (s : State) (id : Nat) (c : Ctx), s.ctx? id = some c → c.mode = .frozen → c.settled = false →
    (c.froze + 5000 ≤ s.wall → exec (.settleTimeout id) s = .next (s.unsettle c).stopJobs) ∧
    (s.wall < c.froze + 3000 → exec (.settleTimeout id) s = .next s))) ∧
  (∀ (s : State) (id : Nat) (c : Ctx) (p : Pkt), s.ctx? id = some c →
    (s.asked id actSave = some p → s.saveable c = true → exec (.contextSave id) s = .next ((s.saveCtx c).endPacket p 0)) ∧
    (s.asked id actRestore = some p → c.mode = .restoring →
      (s.areaOk c = true → s.granted c = true → s.fitsBack c = true →
        exec (.contextRestore id) s = .next ((s.finishRestore c).endPacket p 0)) ∧
      (s.areaOk c = false → exec (.contextRestore id) s = .next ((s.abandon id).endPacket p stDataUe))))

/-! ## The Dispatcher -/

/-- R304, R305, R314, R315: a doorbell on an enabled queue whose value stays within the ring sets TAIL, and any other sets QERR to
FORMAT; a queue register written by its tenant changes as R304 says; PACKET_READ asks for the front of every filled queue, chooses the
best queue where fewer than 256 packets are held with its gang, then reads the packet at HEAD, 8 bytes at a time, each once the
window writes before its doorbell have performed; with its last bytes the packet is held, CHECKED, HEAD one further; one that cannot
be read is passed, its status in QERR. -/
def Obligations.DoorbellsAndReads : Prop :=
  (∀ (s : State) (vf : Nat) (queue : BitVec 6) (value : BitVec 32) (q : Queue), s.disp.queues[queue.toNat]? = some q →
    s.ownsQueue vf queue.toNat = true → s.tdispOf (vf - 1) = .run →
    let n := queue.toNat
    let v := value.toNat
    let fits := q.en = true ∧ (v + 2 ^ 32 - q.tail) % 2 ^ 32 + (q.tail + 2 ^ 32 - q.head) % 2 ^ 32 ≤ 2 ^ q.lsize
    (fits → ∃ t, exec (.doorbell vf queue value) s = .next t ∧
      (∃ b, t.disp.queues[n]? = some { q with tail := v, bell := b, after := s.windowWrites vf }) ∧ t.ms = s.ms ∧ t.cores = s.cores ∧ t.ctxs = s.ctxs) ∧
    (¬ fits → ∃ t, exec (.doorbell vf queue value) s = .next t ∧
      t.disp.queues[n]? = some { q with errStatus := stFormat, errSeq := v } ∧ t.ms = s.ms ∧ t.cores = s.cores ∧ t.ctxs = s.ctxs)) ∧
  (∀ (s : State) (fn n off : Nat) (v : Word) (q : Queue), fn ≠ 0 → s.plat.boot = .ready → s.disp.queues[n]? = some q → n < 64 →
    (s.tenant? (fn - 1)).isSome = true → q.tenant = fn - 1 → (s.plat.vfs.getD fn {}).tdisp ≠ .error → off < 8 →
    exec (.hostRegisterWrite fn (n * 64 + off * 8) v) s =
      .next ((s.dropFront n).modDisp fun d => { d with queues := d.queues.modify n fun x => { x.write (off * 8) v with front := none } }) ∧
    (q.en = false → (q.write 0 v).base = v &&& 0xFFFFFFFFFF00) ∧ (q.en = true → (q.write 0 v).base = q.base) ∧
    (q.write 8 v).en = v.getLsbD 63 ∧ (q.write 0x18 v) = q) ∧
  (∀ (s : State) (n : Nat) (q : Queue), s.plat.boot = .ready → s.disp.reading = none → s.pktsHeld < 256 →
    s.disp.queues[n]? = some q → (s.filled.filter fun x => x.2.front.isNone) = [(n, q)] → s.wordVisit n = none →
    (∀ i ∈ q.after, s.req? i = none) →
    exec .packetRead s = .next (s.visit q.tenant (.visit .packet) (some (n, q.head, 0)) { va := q.slotVa q.head })) ∧
  (∀ (s : State) (n e b st : Nat) (bs : List Byte), s.plat.boot = .ready → s.disp.reading = none → (∀ x ∈ s.filled, x.2.front ≠ none) →
    leastKey s.readable = some (e, b, n) → (s.disp.queues.getD n {}).front = some (st, bs) →
    let held := s.pktsHeld + (if st = 0 then gangMembers (leNat bs) else 0)
    (held < 256 → st = 0 → exec .packetRead s = .next (s.modDisp fun d => { d with reading := some { queue := n, bytes := bs } })) ∧
    (held < 256 → st ≠ 0 → exec .packetRead s = .next (s.takePacket { queue := n } st)) ∧
    (256 ≤ held → exec .packetRead s = .next s)) ∧
  (∀ (s : State) (r : Reading) (q : Queue), s.plat.boot = .ready → s.disp.reading = some r →
    s.disp.queues[r.queue]? = some q → q.used ≠ 0 →
    (s.wordVisit r.queue = none →
      ((∃ i ∈ q.after, s.req? i ≠ none) → exec .packetRead s = .next s) ∧
      ((∀ i ∈ q.after, s.req? i = none) → exec .packetRead s =
        .next (s.visit q.tenant (.visit .packet) (some (r.queue, q.head, r.bytes.length)) { va := q.slotVa q.head + r.bytes.length }))) ∧
    (∀ v, s.wordVisit r.queue = some v →
      let got : Reading := { r with bytes := r.bytes ++ Memory.getMany v.got 0 8 }
      let u := s.dropReq v.id
      (v.done = false → exec .packetRead s = .next s) ∧
      (v.done = true → v.status = 0 → got.bytes.length < 256 → exec .packetRead s = .next (u.modDisp fun d => { d with reading := some got })) ∧
      (v.done = true → v.status = 0 → 256 ≤ got.bytes.length → exec .packetRead s = .next (u.takePacket got 0)) ∧
      (v.done = true → v.status ≠ 0 → exec .packetRead s = .next (u.takePacket got v.status)))) ∧
  (∀ (s : State) (r : Reading) (q : Queue) (st : Nat), s.disp.queues[r.queue]? = some q →
    let t := s.takePacket r st
    ((t.disp.queues[r.queue]?).map fun q => q.head) = some ((q.head + 1) % 2 ^ 32) ∧
    (st = 0 → ∃ p : Pkt, t.disp.pkts = s.disp.pkts ++ [p] ∧ p.queue = r.queue ∧ p.seq = q.head ∧ p.bytes = r.bytes ∧ p.tenant = q.tenant ∧
      p.state = .checked) ∧
    (st ≠ 0 → r.gang = none → t.disp.pkts = s.disp.pkts ∧
      ((t.disp.queues[r.queue]?).map fun q => (q.errStatus, q.errSeq)) = some (st, q.head)))

/-- R315 to R321: LAUNCH and GANG judge a packet in CHECKED: it ends with its failing status, or waits and with every dependence met
is admitting; the last dependence sends it to admission; the head of a region's FIFO is granted; EXTENT_BUILD places what it
translates, or undoes it with the failing status; ARGUMENT_INJECTION reads argument word 0 for the next instance that takes it and injects it, and with the last instance the packet
runs. -/
def Obligations.LaunchPacketsAdvance : Prop :=
  (∀ (s : State) (i : Nat) (p : Pkt), s.pkt? i = some p → p.state = .checked →
    let judged (ps : List Pkt) : State :=
      let st := s.checkAll ps
      let w := s.toWaiting ps
      if st ≠ 0 then ps.foldl (fun s p => s.endPacket p st) s else if ps.all Pkt.met then w.toAdmitting ps else w
    ((p.typ = 0 ∨ 5 ≤ p.typ) → p.gang = none → exec (.launch i) s = .next (judged [p])) ∧
    (p.gang = some p.no → exec (.gang i) s = .next (judged (s.gangOf p)))) ∧
  (∀ (s : State) (i : Nat) (p : Pkt), s.pkt? (i / 2) = some p → p.state = .waiting → s.depMet p (i % 2) = true →
    (if i % 2 = 0 then p.met0 else p.met1) = false →
    let u := (match s.testOf p (i % 2) with
      | some r => s.dropReq r.id
      | none => s).modPkt p.no fun p => if i % 2 = 0 then { p with met0 := true } else { p with met1 := true }
    ∀ q, u.pkt? p.no = some q →
      exec (.dependenceMet i) s = .next (if q.typ ≤ 1 ∧ (u.gangOf q).all Pkt.met = true then u.toAdmitting (u.gangOf q) else u)) ∧
  (∀ (s : State) (home : Nat) (g : Region) (p : Pkt), s.regionAt home = some g → s.admitHead g = some p →
    (p.typ = 4 → exec (.admissionGrant home) s = .next (s.grantRestore p g)) ∧
    (p.typ ≠ 4 → exec (.admissionGrant home) s = .next (s.grantPkts (s.gangOf p)))) ∧
  (∀ (s : State) (p : Pkt) (g : Region) (slot : Nat), s.regionAt p.rhome = some g → s.admitHead g = some p → p.gang = none →
    g.armedCid p.cid = some slot → g.cores.Nodup → (∀ k ∈ g.cores, (s.seatsOn k).length + 1 ≤ Config.seats) →
    (s.job? (jobKey p.tenant p.job)).isSome = true → s.tdispOf p.tenant = .run → s.listed p.tenant p.job = true →
    s.grantPkts [p] = s.seatNow p g p.job) ∧
  (∀ (s : State) (i : Nat) (p : Pkt), s.pkt? i = some p → p.state = .translating → (p.gang = none ∨ p.gang = some p.no) →
    let ps := s.gangOf p
    (∀ q k va, (ps.findSome? fun p => p.toWalk.map fun w => (p, w)) = some (q, k, va) →
      exec (.extentBuild i) s = .next (s.walkPkt q k va)) ∧
    ((∀ q ∈ ps, q.toWalk = none) →
    (∀ st, s.translateAll ps = .error st → exec (.extentBuild i) s = .next (ps.foldl (fun s p => s.undo p st) s)) ∧
    (∀ t : State, s.translateAll ps = .ok t → exec (.extentBuild i) s = .next (ps.foldl (fun s p => match s.ctx? p.ctx with
      | some c => s.startPlacing p c
      | none => s) t)))) ∧
  (∀ (s : State) (i n : Nat) (p : Pkt) (c : Ctx), s.pkt? i = some p → s.ctx? p.ctx = some c → p.state = .placing → c.mode = .running →
    (s.instances c)[p.injected]? = some n → (∀ b ∈ s.fixedBlocks c, ∃ f ∈ c.fixed, f.1 = b ∧ f.2.1 = n) →
    let injected (t : State) : State := t.modPkt i fun p =>
      { p with injected := p.injected + 1, state := if p.injected + 1 = (s.instances c).length then .running else .placing }
    (s.argCore c n = none → exec (.argumentInjection i) s = .next (injected s)) ∧
    (∀ core, s.argCore c n = some core →
      (s.visitOf .arg (some (i, 0, 0)) = none → exec (.argumentInjection i) s = .next (s.askArg p c)) ∧
      (∀ r, s.visitOf .arg (some (i, 0, 0)) = some r →
        (r.done = false → exec (.argumentInjection i) s = .next s) ∧
        (r.done = true → exec (.argumentInjection i) s = .next (injected ((s.dropReq r.id).injectArg c n core r))))))

/-- R315, R323: a configuration load, a barrier and a pre-emption request whose first row fails end with FORMAT, and pass to WAITING
where their checks pass; their dependences met, the load asks for the header of its image, then for the whole, and with its slot
taken arms it, or, its image bad, leaves it (R53); a barrier ends with OK, a save takes a save area, a resume joins the
region's FIFO, an abandon abandons its target, and a request whose TCTX names no context of the tenant ends with EXTENT_BOUND. -/
def Obligations.OtherPackets : Prop :=
  ∀ (s : State) (i : Nat) (p : Pkt), s.pkt? i = some p → p.gang = none →
    let does (x : Instr) (mine : Prop) (act : State → Prop) : Prop := mine →
      (p.state = .checked →
        (p.rowOne = false → exec x s = .next (s.endPacket p stFormat)) ∧
        (p.rowOne = true → (p.typ = 4 → ∀ c, s.ctx? p.tctx = some c → c.tenant = p.tenant) → exec x s = .next (s.toWaiting [p]))) ∧
      (p.state = .waiting → p.met0 = true → p.met1 = true → ∀ t, act t → exec x s = .next t)
    let target (c : Ctx) : Prop := s.ctx? p.tctx = some c ∧ c.tenant = p.tenant
    let noTarget (t : State) : Prop := (∀ c, s.ctx? p.tctx = some c → c.tenant ≠ p.tenant) ∧ t = s.endPacket p stExtentBound
    does (.configurationLoad i) (p.typ = 2) (fun t => t = (s.modPkt p.no fun p => { p with state := .running }).askImage p 0 32) ∧
    (p.typ = 2 → p.state = .running → p.met0 = true → p.met1 = true → ∀ k r, s.loadVisit p = some (k, r) →
      (r.done = false → exec (.configurationLoad i) s = .next s) ∧
      (r.done = true → exec (.configurationLoad i) s = .next (s.loadOn p k r))) ∧
    (p.typ = 2 → p.state = .running → p.met0 = true → p.met1 = true → s.loadVisit p = none →
      let m := imageOfBytes p.image
      (p.word = 0 → exec (.configurationLoad i) s = .next ((s.armSlot (m.region.headD 0) p.slot m).endLoad p 0)) ∧
      (p.word ≠ 0 → exec (.configurationLoad i) s = .next ((s.unclaim (m.region.headD 0) p.slot).endLoad p p.word))) ∧
    does (.barrier i) (p.typ = 3) (fun t => t = s.endPacket p 0) ∧
    does (.preemptSave i) (p.typ = 4 ∧ p.action = 0) (fun t => noTarget t ∨
      ∃ c, target c ∧ ((c.mode = .saved ∧ t = s.endPacket p 0) ∨
        (c.mode ≠ .saved ∧ c.mode ≠ .building ∧ c.mode ≠ .restoring ∧ s.placed c = true ∧ s.asked c.id 0 = none ∧
          (let size := Config.saveBytes c.seats.length
           (s.poolFind c.tenant size [] = none ∧ t = s.endPacket p stExtentBound) ∨
           (∃ a, s.poolFind c.tenant size [] = some a ∧
             t = (s.modCtx c.id fun c => { c with saved := { c.saved with base := a, size := size } }).modPkt p.no
               fun p => { p with state := .running }))))) ∧
    does (.preemptResume i) (p.typ = 4 ∧ p.action = 1) (fun t => noTarget t ∨
      ∃ c, target c ∧ s.asked c.id 0 = none ∧ s.asked c.id 1 = none ∧
        ((c.mode ≠ .saved ∧ c.mode ≠ .restoring ∧ t = s.endPacket p 0) ∨
         (c.mode = .saved ∧ t = (s.modPkt p.no fun p => { p with state := .running }).modRegion c.home
           fun g => { g with admitq := g.admitq ++ [p.no] }))) ∧
    does (.preemptAbandon i) (p.typ = 4 ∧ 2 ≤ p.action) (fun t => noTarget t ∨ ∃ c, target c ∧ t = (s.abandon c.id).endPacket p 0)

/-! ## Debug and the Cairn wave -/

/-- R379, R386 to R392: a debug command is judged in the order reserved value, unknown job or core, right, state, and completes with
FORMAT, EXTENT_BOUND, PERM or FORMAT and no effect. HALT begins a halt; SETHEN writes HEN; SETBRK writes a comparator; READ answers
words; STEP selects the named or next token of a halted job, or completes with EXTENT_BOUND where there is none. -/
def Obligations.DebugCommands : Prop :=
  (∀ (s : State) (job core n what frame node : Nat) (hen : BitVec 6) (tok tmask val vmask ctl : Word),
    let brk : Instr := .setbrk job core n tok tmask val vmask ctl
    let refuses (i : Instr) (op st : Nat) : Prop := exec i s = .next (s.respondTo op st [])
    (s.job? job = none → refuses (.halt job) 1 stExtentBound ∧ refuses (.sethen job hen) 5 stExtentBound ∧
      refuses (.stepNext job core) 2 stExtentBound ∧ refuses (.stepNamed job core frame node) 2 stExtentBound ∧
      refuses (.read job core what) 7 stExtentBound) ∧
    (8 ≤ n → refuses brk 6 stFormat) ∧ (n < 8 → bf ctl.toNat 2 46 = 0 → Config.cores ≤ core → refuses brk 6 stExtentBound) ∧
    (1026 < what → refuses (.read job core what) 7 stExtentBound) ∧
    (∀ j, s.job? job = some j →
      (bf j.rights 3 1 = 0 → refuses (.halt job) 1 stPerm ∧ refuses (.sethen job hen) 5 stPerm) ∧
      (bf j.rights 2 1 = 0 → core < Config.cores → refuses (.stepNext job core) 2 stPerm) ∧
      (bf j.rights 3 1 = 1 → j.state ≠ .running → refuses (.halt job) 1 stFormat) ∧
      (bf j.rights 2 1 = 1 → j.state ≠ .halted → core < Config.cores → refuses (.stepNext job core) 2 stFormat))) ∧
  (∀ (s : State) (job core n what frame node : Nat) (hen : BitVec 6) (tok tmask val vmask ctl : Word) (j : Job), s.job? job = some j →
    (bf j.rights 3 1 = 1 →
      (j.state = .running → exec (.halt job) s = .next
        (((s.beginHalt job (BitVec.ofNat 64 (s.plat.pkg * 2 ^ 52)) s.gtc true).stopJobs).respondTo 1 0 [])) ∧
      exec (.sethen job hen) s = .next (((s.peers job).foldl (fun s p => s.send (.relay p job (.sethen hen.toNat)))
        (s.modJob job fun j => { j with hen := hen.toNat &&& 0x2F })).respondTo 5 0 []) ∧
      (n < 8 → bf ctl.toNat 2 46 = 0 → core < Config.cores → exec (.setbrk job core n tok tmask val vmask ctl) s = .next
        ((s.modCore core fun k => { k with brk := k.brk.set n { tok := tok, tmask := tmask, val := val, vmask := vmask, ctl := ctl,
                                                                  job := job } }).respondTo
          6 0 []))) ∧
    (bf j.rights 1 1 = 1 → what ≤ 1026 → core < Config.cores → exec (.read job core what) s = .next (s.respondTo 7 0
      (match what with
        | 0 => [jdbg j]
        | 1 => [j.local0, j.local1]
        | 2 => [j.dom0, j.dom1]
        | i => histWords (s.core core).hist (i - 3)))) ∧
    (bf j.rights 2 1 = 1 → j.state = .halted → core < Config.cores →
      let named := s.stepPick job core fun l => l.find? fun q => q.frame == frame && q.instr == node && s.stepReady job core q
      let next := s.stepPick job core fun l => (l.take 8).find? fun q => s.stepReady job core q
      let run (i : Instr) (pick : Option (Nat × QTok)) : Prop :=
        (pick = none → exec i s = .next (s.respondTo 2 stExtentBound [])) ∧
        (∀ cls q, pick = some (cls, q) →
          let u := (s.modJob job fun j => { j with state := .stepping, step := true }).modTok core
            fun u => u.setFifo cls (swapTok q { q with step := true } (u.fifo cls))
          exec i s = .next { u with agenda := { act := .select core [] } :: s.agenda })
      run (.stepNamed job core frame node) named ∧ run (.stepNext job core) next)) ∧
  (∀ (s : State) (job : Nat) (j : Job), s.job? job = some j → j.step = false → exec (.stepEnd job) s = .next s) ∧
  (∀ (s : State) (job : Nat) (j : Job), s.job? job = some j → j.step = true → j.state = .stepping → s.stepWaits job = false →
    ∃ t, exec (.stepEnd job) s = .next t ∧ t.job? job = some { j with step := false, state := .halted } ∧
      t.outbox = (s.msix (job / 65536 + 1) 2).outbox ++ [{ msg := .response 2 0 [] }] ∧ t.ctxs = s.ctxs ∧ t.ms.mem = s.ms.mem ∧ t.flight = s.flight)

/-- R381 to R385, R388, R389, R427: ARM given at least 2 µs ahead arms a halted job, CANCEL before its instant returns it to HALTED,
and at the instant the job resumes; a member's Cairn message begins a halt of a running job and is otherwise ignored; a member's cause
report is taken in; what comes from any other package is dropped and counted; a member that has not reported in 10 µs is marked; a
signed rights message in its tenant's session sets the rights of a job, and any other is refused. -/
def Obligations.CairnMessages : Prop :=
  (∀ (s : State) (job t : Nat) (j : Job), s.job? job = some j → bf j.rights 3 1 = 1 →
    let sends (r : Relay) (u : State) : State := (s.peers job).foldl (fun s p => s.send (.relay p job r)) u
    let armed := s.modJob job fun j => { j with state := .armed, resumeAt := t }
    let back := (s.modJob job fun j => { j with state := .halted }).msix (job / 65536 + 1) 2
    (j.state = .halted → s.plat.l2pPending = 0 → s.gtc + 2000 ≤ t →
      exec (.arm job t) s = .next (sends (.arm t) (armed.modJob job fun j => { j with arms := j.arms ++ [(t, [s.plat.pkg])] }))) ∧
    (j.state = .halted → s.plat.l2pPending = 0 → t < s.gtc + 2000 →
      exec (.arm job t) s = .next (sends (.arm t) (s.modJob job fun j => { j with arms := j.arms ++ [(t, [])] }))) ∧
    (j.state ≠ .halted ∨ s.plat.l2pPending ≠ 0 → exec (.arm job t) s = .next (s.respondTo 3 stFormat [])) ∧
    (j.state = .armed → s.gtc < j.resumeAt → exec (.cancel job) s = .next ((sends .cancel (back.modJob job
      fun j => { j with cancels := j.cancels ++ [(s.peers job, 1)] })).endCancels job)) ∧
    (j.state ≠ .armed → exec (.cancel job) s = .next ((sends .cancel (s.modJob job
      fun j => { j with cancels := j.cancels ++ [(s.peers job, 0)] })).endCancels job))) ∧
  (∀ (s : State) (job pkg : Nat) (w0 w1 : Word) (j : Job), s.job? job = some j →
    let remote := (s.beginHalt job (BitVec.ofNat 64 (s.plat.pkg * 2 ^ 52 + 7)) s.gtc false)
    (j.state = .armed → j.resumeAt ≤ s.gtc → exec (.resumeInstant job) s = .next ((s.endArms job).resumeJob job)) ∧
    (j.state ≠ .armed → exec (.resumeInstant job) s = .next (s.endArms job)) ∧
    (pkg ∈ s.peers job → j.state = .running → exec (.cairnMessage ⟨job, pkg⟩) s = .next remote.stopJobs) ∧
    (pkg ∈ s.peers job → j.state ≠ .running → exec (.cairnMessage ⟨job, pkg⟩) s = .next s) ∧
    (pkg ∉ s.peers job → exec (.cairnMessage ⟨job, pkg⟩) s = .next (s.countDropped 9) ∧
      exec (.causeReport job pkg w0 w1) s = .next (s.countDropped 9)) ∧
    (pkg ∈ s.peers job → exec (.causeReport job pkg w0 w1) s = .next ((if j.state = .running then remote else s).modJob job fun j =>
      { j.report w0 w1 with reported := if j.reported.contains pkg then j.reported else pkg :: j.reported }).stopJobs) ∧
    (pkg ∈ s.peers job → j.state = .halting → pkg ∉ j.reported → j.since + 10000 ≤ s.wall →
      exec (.memberReportTimeout job pkg) s = .next (s.modJob job fun j => { j with reported := pkg :: j.reported }).stopJobs) ∧
    (s.wall < j.since + 10000 → exec (.memberReportTimeout job pkg) s = .next s)) ∧
  (∀ (s : State) (tenant job : Nat) (rights : BitVec 4),
    let key := jobKey tenant (job % 65536)
    (s.hasSession tenant = true → exec (.rightsMessage tenant job ⟨rights, true⟩) s = .next ((s.peers key).foldl
      (fun s p => s.send (.relay p key (.rights rights.toNat))) (s.setRights key rights.toNat))) ∧
    exec (.rightsMessage tenant job ⟨rights, false⟩) s = .next s ∧
    (s.hasSession tenant = false → exec (.rightsMessage tenant job ⟨rights, true⟩) s = .next s)) ∧
  (∀ (s : State) (key rights : Nat) (j : Job), s.job? key = some j → bf j.rights 3 1 = 1 → bf rights 3 1 = 0 →
    (∃ k, (s.setRights key rights).job? key = some k ∧ k.rights = rights ∧ k.hen = 0 ∧
      (j.state = .halted → k.state = .armed ∧ k.resumeAt = s.gtc + 100000) ∧ (j.state = .running → k.state = .running)))

/-- R385: of the causes reported for a job the domain's is the one of the earliest time, and at one time that of the lowest
package; its NMORE field is zero, whatever order the reports come in. -/
def Obligations.EarliestCauseWins : Prop :=
  ∀ (j : Job) (l : List (Word × Word)), j.hasDom = false → l ≠ [] →
    let all := l.map fun x => (x.1 &&& ~~~(0x1FF00 : Word), x.2)
    let k := l.foldl (fun j x => j.report x.1 x.2) j
    (k.dom0, k.dom1) ∈ all ∧
    (∀ x ∈ all, k.dom1.toNat < x.2.toNat ∨ (k.dom1 = x.2 ∧ (k.dom0.extractLsb' 52 12).toNat ≤ (x.1.extractLsb' 52 12).toNat)) ∧
    k.dom0.extractLsb' 8 9 = 0

/-! ## Translation service and host port -/

/-- R287, R294 to R297, R433, R434: a walk reads one entry at a time; one that finds a leaf fills its die's TLB and lets every run that
waits for that page retry, one that finds a malformed table fails them with PAGE_FAULT, one whose entry cannot be read fails them with
that read's status (the model's choice, log 175), one that finds an absent entry posts a fault;
FQREPLY takes its record and walks again from the root or fails the commands; an invalidation drops the range's entries, restarts its
walks and, no open run having used one, is complete; a page that is free to move is copied to its new frame. -/
def Obligations.TranslationService : Prop :=
  (∀ (s : State) (i : Nat) (w : Walk), (s.ms.walks.filter fun w => !w.faulted)[i]? = some w →
    ((s.ms.walks.filter fun x => !x.faulted && x.die == w.die).takeWhile fun x => x != w).length < 16 →
    let u : State := (s.walkOn false w.tenant w.va w.pos).2
    let without (ws : List Walk) : State := u.modMs fun m => { m with walks := m.walks.filter fun y => !ws.contains y }
    let here := (s.walkOn false w.tenant w.va w.pos).1
    (∀ pos, here = .inl pos → exec (.translationWalk i) s = .next (u.modMs fun m =>
      { m with walks := m.walks.map fun x => if x == w then { x with pos := pos } else x })) ∧
    (∀ leaf size pkg, here = .inr (.leaf leaf size pkg) →
      let t : Tlb := { die := w.die, tenant := w.tenant, va := w.va / size * size, size := size, leaf := BitVec.ofNat 64 leaf, pkg := pkg }
      let ws := s.ms.walks.filter fun y => y == w || (!y.faulted && y.die == w.die && y.tenant == w.tenant && y.va / size * size == t.va)
      exec (.translationWalk i) s =
        .next ((ws.foldl (fun s y => s.retryStalled y.die y.tenant y.va t) ((without ws).fillTlb t)).pumpDie w.die)) ∧
    (here = .inr .malformed → exec (.translationWalk i) s = .next ((without [w]).failStalled w.die w.tenant w.va stPageFault)) ∧
    (∀ st, here = .inr (.failed st) → exec (.translationWalk i) s = .next ((without [w]).failStalled w.die w.tenant w.va st)) ∧
    (here = .inr .absent → exec (.translationWalk i) s = .next ((u.modMs fun m =>
      { m with walks := m.walks.map fun x => if x == w then { x with faulted := true } else x }).fault w))) ∧
  (∀ (s : State) (vf : Nat) (seq : BitVec 32) (r : FaultRec) (w : Walk), s.plat.boot = .ready →
    (s.plat.vfs.getD vf {}).tdisp ≠ .error →
    ((s.plat.vfs.getD vf {}).faults.find? fun r => r.seq == some seq.toNat) = some r →
    (s.ms.walks.find? fun w => w.faulted && w.die == r.die && w.tenant + 1 == vf && w.va == r.va) = some w →
    let u := s.modVf vf fun v => { v with faults := v.faults.erase r }
    exec (.fqreplyRetry vf seq) s =
      .next (u.modMs fun m => { m with walks := m.walks.erase w ++ [{ w with faulted := false, pos := {} }] }) ∧
    exec (.fqreplyAbort vf seq) s =
      .next ((u.modMs fun m => { m with walks := m.walks.erase w }).failStalled w.die w.tenant w.va stPageFault)) ∧
  (∀ (s : State) (tenant va len : Nat), (∀ x ∈ s.ms.invals, ¬ (x.tenant = tenant ∧ x.va = va ∧ x.len = len)) →
    s.runsIn tenant va len = [] → ∃ t, exec (.tlbInvalidate tenant va len) s = .next t ∧
      (∀ e, e ∈ t.ms.tlb ↔ e ∈ s.ms.tlb ∧ ¬ (e.tenant = tenant ∧ e.va < va + len ∧ va < e.va + e.size)) ∧
      (∀ w ∈ t.ms.walks, w.faulted = false → w.tenant = tenant → w.va / 4096 * 4096 < va + len → va < w.va / 4096 * 4096 + 4096 → w.pos = {}) ∧
      t.ms.invals = s.ms.invals ∧ t.outbox = s.outbox ++ [{ msg := .invalidated tenant va len }] ∧ t.ms.mem = s.ms.mem ∧ t.ms.reqs = s.ms.reqs ∧
      (t.cores.map fun k => (k.frm, k.tile, k.tok)) = (s.cores.map fun k => (k.frm, k.tile, k.tok)) ∧
      (t.cores.map fun k => k.eng.recs.map fun e => (e.idx, e.moves, e.todo, e.pos, e.fail)) =
        (s.cores.map fun k => k.eng.recs.map fun e => (e.idx, e.moves, e.todo, e.pos, e.fail))) ∧
  (∀ (s : State) (tenant va dst leaf entry : Nat) (x : Tenant), s.walk tenant va = .leaf leaf (2 ^ 21) 0xFFF →
    s.tenant? tenant = some x → s.leafEntry va 4 x.root = some entry → leafHost leaf = false → dst % 2 ^ 21 = 0 → s.localOk dst = true →
    (let src := leafAddr leaf; (src < hbmTop ∧ tier2Base ≤ dst) ∨ (dst < hbmTop ∧ tier2Base ≤ src)) →
    dst ∈ s.ms.freePages → s.pageNamed (leafAddr leaf) = false → s.pageQuiet (leafAddr leaf) = true →
    exec (.pageMigration tenant va dst) s = .next (s.migrate tenant va leaf entry dst))

/-- R431: a host access through an open window of a function in RUN, of 1, 2, 4 or 8 aligned bytes, sets out for the bytes' home as one
access of the tenant, which asks read or write permission of the leaf; outside an open window a read answers Unsupported Request and
a write is dropped. What comes of the access is the host's answer: its bytes, or Unsupported Request; a write that fails is dropped. -/
def Obligations.HostWindowAccesses : Prop :=
  (∀ (s : State) (vf off len : Nat) (v : Word), vf ≠ 0 → s.plat.boot = .ready →
    let f := s.plat.vfs.getD vf {}
    let w := f.windows.getD (off / 2 ^ 30) 0
    let va := (w.extractLsb' 30 18).toNat * 2 ^ 30 + off % 2 ^ 30
    let lets (bit : Nat) : Prop := f.tdisp = .run ∧ len ∈ [1, 2, 4, 8] ∧ off % len = 0 ∧ off < 2 ^ 32 ∧ w.getLsbD 63 = true ∧
      w.getLsbD bit = true
    (¬ lets 61 → exec (.hostWindowAccess vf off len false v) s = .next (s.send (.hostRead vf false 0))) ∧
    (¬ lets 62 → exec (.hostWindowAccess vf off len true v) s = .next s) ∧
    (lets 61 → exec (.hostWindowAccess vf off len false v) s =
      .next (s.visit (vf - 1) (.visit (.host vf false)) none { va := va, len := len, need := 1, op := .read, tlb := true })) ∧
    (lets 62 → exec (.hostWindowAccess vf off len true v) s =
      .next (s.visit (vf - 1) (.visit (.host vf true)) none
        { va := va, len := len, need := 2, op := .write (leBytes len v.toNat), tlb := true }))) ∧
  (∀ (s : State) (vf : Nat) (r : Req),
    (r.status = 0 → s.endHost vf false r = s.send (.hostRead vf true (BitVec.ofNat 64 (leNat (Memory.getMany r.got 0 8))))) ∧
    (r.status ≠ 0 → s.endHost vf false r = s.send (.hostRead vf false 0)) ∧ s.endHost vf true r = s) ∧
  (∀ (s : State) (vf off len : Nat) (v : Word), vf ≠ 0 → s.plat.boot ≠ .ready →
    exec (.hostWindowAccess vf off len false v) s = .next (s.send (.hostRead vf true 0)) ∧
    exec (.hostWindowAccess vf off len true v) s = .next s)

/-! ## Platform -/

/-- R411, R412, R425, R435 to R437, R440, R441: a legal share within PKG_LIMIT gives a die its clock and budgets and any other changes
nothing; a burst of CE_GUARD corrected errors in any 1 ms lowers STEP and bars a rise for 60 s, and the bar then ends; PF_LIMIT errors in
10 s set PF; a retry of a link that is up sends the oldest flit that is not acknowledged again, retries past 1 ms take the link down, a
renewal after 2^32 flits counts the link's key; a forward step of more than 1 µs sets GTC to the master's, and a second copy of the same
time changes nothing. -/
def Obligations.PlatformEvents : Prop :=
  (∀ (s : State) (mhz fire row mw watts : Nat) (d : Die), s.plat.dies[0]? = some d →
    let legal := mhz % 100 = 0 ∧ 200 ≤ mhz ∧ mhz ≤ 1100 ∧ 1 ≤ fire ∧ fire ≤ 16 ∧ row ≤ 16
    let divides := exec (.watershedDivision [(mhz, fire, row, mw, watts)]) s
    (¬ legal ∨ s.plat.limit < watts → divides = .next s) ∧
    (legal → watts ≤ s.plat.limit → (mhz = d.mhz ∨ ∀ c ∈ s.ctxs, c.regs.trace = 0) → ∃ t k, divides = .next t ∧ t.plat.dies[0]? = some k ∧
      k.mhz = mhz ∧ k.fireN = fire ∧ k.rowN = row ∧ k.mw = mw % 2 ^ 24 ∧ k.watts = watts ∧ t.cores = s.cores ∧ t.ctxs = s.ctxs ∧ t.ms = s.ms)) ∧
  (∀ (s : State) (die : Nat) (d : Die), s.plat.dies[die]? = some d →
    let within (e : Nat × Bool × Bool) : Nat := (d.ces.filter fun x => !x.2.2 && decide (x.1 ≤ e.1) && decide (e.1 < x.1 + 1000000)).length
    let burst := ∃ e ∈ d.ces, e.2.2 = false ∧ d.guard ≤ within e
    let atNominal := (d.ces.filter fun e => e.2.1 && decide (s.wall < e.1 + 10000000000)).length
    (burst → ∃ t k, exec (.marginBackoff die) s = .next t ∧ t.plat.dies[die]? = some k ∧ k.step = d.step - 1 ∧ k.bar = true ∧
      k.barUntil = s.wall + 60000000000 ∧ (∀ e ∈ k.ces, e.2.2 = true) ∧ k.ces.length = d.ces.length ∧ t.cores = s.cores ∧ t.ms = s.ms ∧
      (¬ d.sameClk s.wall → k.ceNom = d.ceNom ∧ k.ceLow = d.ceLow)) ∧
    (¬ burst → d.guard ≠ 0 → exec (.marginBackoff die) s = .next s) ∧
    (∃ t k, exec (.marginBarExpiry die) s = .next t ∧ t.plat.dies[die]? = some k ∧ k.bar = (d.bar && decide (s.wall < d.barUntil)) ∧
      k.step = d.step ∧ t.cores = s.cores) ∧
    (∃ t k, exec (.predictiveFailure die) s = .next t ∧ t.plat.dies[die]? = some k ∧ k.pf = (d.pf || decide (d.pfLimit ≤ atNominal)) ∧
      k.step = d.step ∧ t.cores = s.cores)) ∧
  (∀ (s : State) (port : Nat) (x : RidgePort), s.plat.ports[port]? = some x →
    let becomes (i : Instr) (t : State) (y : RidgePort) : Prop := exec i s = .next t ∧ t.plat.ports[port]? = some y ∧ t.cores = s.cores ∧
      t.ms = s.ms
    (x.up = true → (∃ t, becomes (.flitRetry port) t { x with retries := match x.retries with
        | some (a, b) => if s.wall ≤ b + 1000000 then some (a, s.wall) else some (s.wall, s.wall)
        | none => some (s.wall, s.wall) } ∧ t.outbox = s.outbox ++ [{ msg := .flit port x.acked }])) ∧
    (x.up = true → x.session ≠ 0 → 2 ^ 32 ≤ x.aged → ∃ t, becomes (.keyRenewal port) t { x with key := x.key + 1, aged := x.aged - 2 ^ 32 }) ∧
    (x.aged < 2 ^ 32 → ∃ t, becomes (.keyRenewal port) t x) ∧
    (x.up = false → exec (.flitRetry port) s = .next s) ∧
    (∀ a b, x.retries = some (a, b) → a + 1000000 < b → ∃ t, becomes (.linkDown port) t { x with up := false, retries := none }) ∧
    (x.retries = none → ∃ t, becomes (.linkDown port) t x)) ∧
  (∀ (s : State) (master : Nat),
    (s.plat.master = true ∨ s.plat.gtcLast = some master → exec (.gtcSync master) s = .next s) ∧
    (s.plat.master = false → s.plat.gtcLast ≠ some master → ∃ t, exec (.gtcSync master) s = .next t ∧ t.ms = s.ms ∧ t.ctxs = s.ctxs ∧
      (s.gtc + 1000 < master → t.gtc = master % 2 ^ 64) ∧ (master ≤ s.gtc + 1000 → t.gtc = s.gtc) ∧
      (t.plat.lock = true ↔ master ≤ s.gtc + 5 ∧ s.gtc ≤ master + 5)))

/-- R417, R442, R443: bring-up goes from RESET by ROM, HBM and REPAIR to READY: ROM goes on where every image is signed and as new as its
fuse counter, which takes its version, and ends in FAIL else; HBM zeroes every stack; REPAIR brings up the ports that have trained, and
ends in FAIL where none has; a failure code of the present stage ends it in FAIL, any other does nothing; a reset returns to RESET and
leaves nothing of the contexts, cores and registers, but memory, which power removal loses too. -/
def Obligations.ResetAndBringUp : Prop :=
  (∀ (s : State) (b : Boot) (images : List (Nat × Nat × Bool)) (ports : Nat), s.plat.boot = b →
    let advance (code : Nat) := exec (.bootStateAdvance ⟨code, images, ports⟩) s
    let to' (c : Boot) : Prop := ∃ t, advance 0 = .next t ∧ t.plat.boot = c ∧ t.cores = s.cores
    let fails (code failure : Nat) : Prop := ∃ t, advance code = .next t ∧ t.plat.boot = .fail ∧ t.plat.bootFail = failure
    let sound := images.length = 4 ∧ ∀ x ∈ images.zip s.plat.fuses, x.1.2.2 = true ∧ x.2 ≤ x.1.1
    (b = .reset → to' .rom) ∧
    (b = .rom → sound → to' .hbm ∧ ∀ t, advance 0 = .next t →
      t.plat.fuses = (s.plat.fuses.zip images).map (fun x => max x.1 x.2.1) ∧ t.plat.firmware = images.map fun x => x.2.1) ∧
    (b = .rom → ¬ sound → fails 0 1 ∧ ∀ t, advance 0 = .next t → t.plat.mailbox = [1] ∧ t.plat.fuses = s.plat.fuses) ∧
    (b = .hbm → to' .repair ∧ ∀ t, advance 0 = .next t → t.ms.mem = s.ms.mem.filter fun c => decide (hbmTop ≤ c.1)) ∧
    (b = .repair → ports % 2 ^ 18 ≠ 0 → to' .ready ∧ ∀ t, advance 0 = .next t → ∀ (i : Nat) (x : RidgePort), s.plat.ports[i]? = some x →
      t.plat.ports[i]? = some { x with up := bf ports i 1 == 1 }) ∧
    (b = .repair → ports % 2 ^ 18 = 0 → fails 0 4) ∧
    (b = .ready ∨ b = .fail → advance 0 = .next s) ∧
    (∀ code, code ≠ 0 →
      let mine := (b = .hbm ∧ code = 2) ∨ (b = .repair ∧ code = 3)
      (mine → fails code code) ∧ (¬ mine → advance code = .next s))) ∧
  (∀ (s : State), ∃ t u, exec .packageReset s = .next t ∧ exec .powerRemoval s = .next u ∧
    t.plat.boot = .reset ∧ u.plat.boot = .reset ∧ t.cores = State.reset.cores ∧ u.cores = State.reset.cores ∧ t.ctxs = [] ∧ u.ctxs = [] ∧
    t.regions = [] ∧ u.regions = [] ∧ t.disp = State.reset.disp ∧ u.disp = State.reset.disp ∧ t.gtc = 0 ∧ u.gtc = 0 ∧
    t.plat.tenants = [] ∧ u.plat.tenants = [] ∧ t.plat.jobs = [] ∧ u.plat.jobs = [] ∧
    t.ms.mem = s.ms.mem ∧ u.ms.mem = [] ∧ t.plat.fuses = s.plat.fuses ∧ u.plat.fuses = s.plat.fuses)

/-! ## Tenants, tables and attestation -/

/-- R280, R413, R415, R420, R421, R423, R424, R426, R438: an idle core goes to a live tenant with nothing left on it, a bank goes to it
as zeros, a failed or busy core does not change; a tenant is created with two new keys and destroyed; a failed core belongs to nobody;
table and membership writes replace their entry; a function moves among its TDISP states. -/
def Obligations.TenantsAndTables : Prop :=
  (∀ (s : State) (n tenant : Nat), tenant < 16 → (s.tenant? tenant).isSome = true →
    (n < Config.cores → n < s.cores.length → (s.core n).failed = false → s.idleCore n = true →
      ∃ t, exec (.coreAssignment false n tenant) s = .next t ∧ (t.core n).tenant = some tenant ∧ (t.core n).code = [] ∧
        (t.core n).regs = {} ∧ (t.core n).hist = [] ∧ (t.core n).eng = {} ∧ (t.core n).tile.gens = (s.core n).tile.gens ∧
        (∀ m, m ≠ n → t.core m = s.core m) ∧ t.ms = s.ms) ∧
    ((s.core n).failed = true ∨ s.idleCore n = false → exec (.coreAssignment false n tenant) s = .next s) ∧
    (∃ t, exec (.coreAssignment true n tenant) s = .next t ∧ (n, tenant) ∈ t.plat.banks ∧ (∀ b ∈ t.plat.banks, b.1 = n → b.2 = tenant) ∧
      (∀ c ∈ t.ms.mem, c ∈ s.ms.mem ∧ ¬ (shmBase + n * 0x100000 ≤ c.1 ∧ c.1 < shmBase + (n + 1) * 0x100000)) ∧ t.cores = s.cores)) ∧
  (∀ (s : State) (tenant root : Nat),
    (s.tenant? tenant = none → s.plat.boot = .ready → exec (.tenantCreate tenant root) s = .next (s.modPlat fun p =>
      { p with keySeq := p.keySeq + 2
               tenants := p.tenants ++ [{ id := tenant, root := root, keyH := p.keySeq + 1, keyT := p.keySeq + 2 }] })) ∧
    ((s.tenant? tenant).isSome = true → exec (.tenantCreate tenant root) s = .next s ∧
      ∃ t, exec (.tenantDestroy tenant) s = .next t ∧ t.tenant? tenant = none) ∧
    (s.tenant? tenant = none → exec (.tenantDestroy tenant) s = .next s)) ∧
  (∀ (s : State) (core : Nat), (∀ c ∈ s.ctxs, ∀ k ∈ c.seats, k.1 ≠ core) →
    exec (.coreMarkFailed core) s = .next (s.modCore core fun k => { k with failed := true, tenant := none })) ∧
  (∀ (s : State) (a b tenant job qpi peer : Nat) (ps : List Nat) (x : Tenant), s.tenant? tenant = some x → qpi < 4096 →
    (∃ t, exec (.logicalTableWrite a (some b)) s = .next t ∧ (∀ e, e ∈ t.plat.l2p ↔ e = (a, b) ∨ (e ∈ s.plat.l2p ∧ e.1 ≠ a)) ∧
      t.plat.l2pPending = s.plat.l2pPending - 1 ∧ t.cores = s.cores ∧ t.ms = s.ms) ∧
    (∃ t, exec (.logicalTableWrite a none) s = .next t ∧ (∀ e, e ∈ t.plat.l2p ↔ e ∈ s.plat.l2p ∧ e.1 ≠ a)) ∧
    (∃ t, exec (.jobMembershipList tenant job ps true) s = .next t ∧
      (t.plat.members.find? fun m => m.tenant == tenant && m.job == job) = some { tenant := tenant, job := job, packages := ps } ∧
      ∀ a b, ¬ (a = tenant ∧ b = job) → (t.plat.members.find? fun m => m.tenant == a && m.job == b) =
        s.plat.members.find? fun m => m.tenant == a && m.job == b) ∧
    exec (.jobMembershipList tenant job ps false) s = .next s ∧
    (∃ t y, exec (.connectionTableWrite tenant qpi peer) s = .next t ∧ t.tenant? tenant = some y ∧
      (y.conns.find? fun c => c.1 == qpi) = some (qpi, peer) ∧
      ∀ q, q ≠ qpi → (y.conns.find? fun c => c.1 == q) = x.conns.find? fun c => c.1 == q)) ∧
  (∀ (s : State) (vf to' : Nat) (v : Vf), vf ≠ 0 → s.plat.vfs[vf]? = some v → ∃ t y, exec (.tdispStateChange vf to') s = .next t ∧
    t.plat.vfs[vf]? = some y ∧ t.ms = s.ms ∧ t.cores = s.cores ∧
    y.tdisp = (if to' = 0 then .unlocked else if to' = 1 ∧ v.tdisp = .unlocked then .locked
      else if to' = 2 ∧ v.tdisp = .locked then .run else if to' = 3 ∧ (v.tdisp = .locked ∨ v.tdisp = .run) then .error else v.tdisp))

/-- R417 to R419: the responder answers GET_VERSION by starting the connection over; capabilities, algorithms and the requests that follow
them need the earlier ones and are otherwise answered UnexpectedRequest; a session runs from KEY_EXCHANGE by FINISH to END_SESSION; any
other request is answered UnsupportedRequest. -/
def Obligations.AttestationRequests : Prop :=
  ∀ (s : State) (peer index nonce code : Nat),
    let c := s.spdm peer
    let answers (i : Instr) (u : State) (rsp : Nat) (body : List Nat) : Prop := exec i s = .next (u.send (.spdm peer rsp body))
    let early (i : Instr) : Prop := answers i s 0x7F [4]
    let digest := Config.digest (packNats s.chain)
    answers (.getVersion peer) (s.putSpdm { peer := peer, phase := 1 }) 0x04 [0x12, 0x13] ∧
    (c.phase < 1 → early (.getCapabilities peer)) ∧ (c.phase < 2 → early (.negotiateAlgorithms peer)) ∧
    (c.phase < 3 → early (.getDigests peer) ∧ early (.getCertificate peer) ∧ early (.challenge peer nonce) ∧
      early (.getMeasurements peer index) ∧ early (.keyExchange peer)) ∧
    (1 ≤ c.phase → answers (.getCapabilities peer) (s.putSpdm { c with phase := max c.phase 2 }) 0x61 [2, 4, 16, 512]) ∧
    (2 ≤ c.phase → answers (.negotiateAlgorithms peer) (s.putSpdm { c with phase := max c.phase 3 }) 0x63 [384, 384, 256]) ∧
    (3 ≤ c.phase →
      answers (.getDigests peer) s 0x01 [digest] ∧ answers (.getCertificate peer) s 0x02 s.chain ∧
      answers (.challenge peer nonce) s 0x03 [digest, nonce, Config.signature s.aliasKey (packNats (nonce :: s.chain))] ∧
      answers (.getMeasurements peer 0) s 0x60 [if c.tenant.isSome then 6 else 4] ∧
      (1 ≤ index → index ≤ 4 → ∃ d, answers (.getMeasurements peer index) s 0x60 [d, Config.signature s.aliasKey (packNats [d])]) ∧
      (c.tenant = none → 5 ≤ index → index ≠ 0xFF → answers (.getMeasurements peer index) s 0x7F [1]) ∧
      answers (.keyExchange peer) { s.putSpdm { c with session := 1, secret := s.fresh } with fresh := s.fresh + 1 } 0x64
        [Config.secret s.fresh, Config.signature s.aliasKey (packNats [Config.secret s.fresh])]) ∧
    (c.session = 1 → answers (.finish peer) (s.putSpdm { c with session := 2 }) 0x65 []) ∧
    (c.session ≠ 1 → early (.finish peer)) ∧
    (c.session = 2 → answers (.endSession peer) (s.putSpdm { c with session := 0, secret := 0 }) 0x6C []) ∧
    (c.session ≠ 2 → early (.endSession peer)) ∧
    answers (.unsupportedRequest peer code) s 0x7F [7, code]

/-! ## The whole machine -/

/-- R237, R246, R304, R377, R410, R429, R431, R437, R443: State.reset holds the reset values that the spec states: BOOTSTAT 0 and GTC 0
without lock, PKG_LIMIT 3,200, no tenant, job, context or region, every queue disabled with LSIZE 1, CE_GUARD 16, PF_LIMIT 64 and STEP 0
on every die, windows closed; on every core FRAMES_FREE 4,096, TILES_FREE 0x0000_1000_0001_8000, no token queued, TIMER_CMP all ones,
RAS_INJECT 0 and PAN_HOLD 1,000; and a new context's registers read 0 but for WDOG_LIMIT 0x100_0000 and REMOTE_TMO 100,000. -/
def Obligations.ResetState : Prop :=
  let s := State.reset
  s.plat.boot = .reset ∧ s.plat.bootFail = 0 ∧ s.gtc = 0 ∧ s.plat.lock = false ∧ s.plat.limit = 3200 ∧ s.plat.tenants = [] ∧
  s.plat.jobs = [] ∧ s.ctxs = [] ∧ s.regions = [] ∧ s.flight = [] ∧ s.cores.length = 256 ∧ s.disp.queues.length = 64 ∧
  (∀ q ∈ s.disp.queues, q.en = false ∧ q.base = 0 ∧ q.lsize = 1 ∧ q.head = 0 ∧ q.tail = 0 ∧ q.errStatus = 0) ∧
  (∀ d ∈ s.plat.dies, d.guard = 16 ∧ d.pfLimit = 64 ∧ d.step = 0 ∧ d.bar = false ∧ d.pf = false ∧ d.ceNom = 0 ∧ d.ceLow = 0 ∧ d.ue = 0) ∧
  (∀ v ∈ s.plat.vfs, v.tdisp = .unlocked ∧ v.windows = [0, 0, 0, 0]) ∧
  (∀ site : Site, site.core < 256 → s.readReg site 0x010 = 4096 ∧ s.readReg site 0x011 = 0x0000100000018000 ∧
    (∀ i, 0x012 ≤ i → i ≤ 0x015 → s.readReg site i = 0) ∧ s.readReg site 0x017 = 0 ∧ s.readReg site 0x020 = 0xFFFFFFFFFFFFFFFF ∧
    s.readReg site 0x060 = 0 ∧ s.readReg site 0x070 = 1000) ∧
  (∀ (t : State) (site : Site) (c : Ctx), t.ctx? site.ctx = some c → c.regs = {} →
    (∀ i ∈ [0x003, 0x005, 0x030, 0x031, 0x040, 0x041, 0x042, 0x044, 0x045, 0x046, 0x048, 0x049, 0x04A, 0x04C, 0x04D, 0x04E],
      t.readReg site i = 0) ∧ t.readReg site 0x021 = 0x1000000 ∧ t.readReg site 0x022 = 100000)

/-- R278, R443: the memory of State.reset is in canonical form (addresses rising, no listed byte equal to what an unlisted address reads
as): no step is needed to make it so. The form is the model's own. -/
def Obligations.ResetMemoryIsCanonical : Prop :=
  Safety.MemInv State.reset ∧ State.reset.ms.mem = []

/-- Every step keeps the canonical form of memory: whatever state it starts from with memory in that form, and whatever turn it
takes, a next state has memory in that form, so that equal memories stay equal data. The form is the model's own. -/
def Obligations.MemoryStaysCanonical : Prop :=
  ∀ s t : State, Safety.MemInv s → step s = .next t → Safety.MemInv t

/-- R9, R31, R325, R328, R408: a step lets its turn's time pass and then does what the turn says. An event of the table is performed by exec; a
core's selection takes the token that R325 picks: with its operand position occupied, or behind a token accepted before it for that
position (R300), it goes to the tail of its FIFO, with others of its match missing it parks, and with the
match complete, no code word that it reads being in error, the word at its node is decoded and exec runs that instruction, the operands
taken from the slots and the token. -/
def Obligations.StepRunsTheDecodedInstruction : Prop :=
  (∀ (s : State) (ps : Nat) (i : Instr) (rest : List Turn), s.agenda = { ps := ps, act := .event i } :: rest → (encode i).isNone = true →
    i.wellFormed = true → step s = exec i ({ s with agenda := rest }.advance ps)) ∧
  (∀ (s : State), s.agenda = [] → step s = .next (s.advance 1000)) ∧
  (∀ (s : State) (ps core : Nat) (busy : List Nat) (rest : List Turn), s.agenda = { ps := ps, act := .select core busy } :: rest →
    let u := { s with agenda := rest }.advance ps
    (u.pick core busy = none → step s = .next u) ∧
    (∀ cls q f, u.pick core busy = some (cls, q) → u.frame? core q.frame = some f →
      let n := u.countFired core
      let w := n.targetWord core q
      let pres := (f.slot w.slot).pres
      let v := n.modQueues core fun l => l.erase q
      let free := bf pres q.port 1 = 0 ∧ n.earlier core q = false
      (2 ≤ w.ar → ¬ free → step s = .next (v.modTok core fun t => t.setFifo cls (t.fifo cls ++ [q]))) ∧
      (2 ≤ w.ar → free → completes w.ar pres q.port = false →
        step s = .next ((v.park core q w.slot).perfCtx f.ctx 0x01 1)) ∧
      (let read := State.wordsRead (n.core core) q w (n.operands core q w.ar w.slot)
       let x := v.countErrs (dieOf core)
         (read.filter fun k => (n.core core).codeCe.contains k && !(n.core core).codeUe.contains k).length 0
       (w.ar ≤ 1 ∨ (free ∧ completes w.ar pres q.port = true)) → (∀ k ∈ read, k ∉ (n.core core).codeUe) →
        ∀ i, decodeWord ((n.core core).word q.cslot q.block q.instr) = .ok i →
          let t := x.startFiring core cls q w
          step s = exec i t ∧ t.cur.site.core = core ∧ t.cur.site.frame = q.frame ∧ t.cur.site.node = q.instr ∧
          t.cur.l = operandAt (x.operands core q w.ar w.slot) 0 ∧
          t.cur.r = operandAt (x.operands core q w.ar w.slot) 1 ∧
          t.cur.c = operandAt (x.operands core q w.ar w.slot) 2)))

/-- R3, R23: decoding the 16 little-endian bytes of any well-formed token instruction's word gives that instruction, with every operand
at every value that the encoding admits, and leaves the bytes that follow. -/
def Obligations.DecodeOfEncode : Prop :=
  ∀ (i : Instr) (w : BitVec 128) (rest : List Byte), i.wellFormed = true → encode i = some w →
    decode (leBytes 16 w.toNat ++ rest) = .ok (i, rest)

/-- R23, R51: a word that the decoder accepts has one meaning: encoding the instruction gives back every bit of that word, so no bit of a
word is ignored, and the instruction is well formed. -/
def Obligations.EveryWordHasOneMeaning : Prop :=
  ∀ (w : BitVec 128) (i : Instr), decodeWord w = .ok i → encode i = some w ∧ i.wellFormed = true

/-- The words that the spec writes out decode to what it says they are: ADD.s32 of two tokens to out-port 0, ADD.s32 with the
immediate 5 to nodes 2 and 3, ITER, PCLM, VRUN, MMA, TRET, BARW and AOP; a word with a bit of its zero field set and a word of an
unassigned opcode are refused with RESERVED and OPCODE. -/
def Obligations.WordsOfTheSpecDecode : Prop :=
  let par (ty : Ty) (d0 d1 : Dest) (slot : BitVec 8) : Par :=
    { slot := slot, ty := ty, d0 := d0, d1 := d1, d2 := .none, hist := false, trcf := false }
  let word (w : Nat) : Except Reason Instr := decodeWord (BitVec.ofNat 128 w)
  word 0x20400401000000000000000000000000 = .ok (.add (par .s32 (.out 0) .none 0)) ∧
  word 0x20200500821068000000000500000000 = .ok (.addImm (par .s32 (.node 2 .l) (.node 3 .r) 0) 5) ∧
  word 0x05A01E02000000000000000004800000 = .ok (.iter (par .none .none .none 0) true 2 .r 0) ∧
  word 0xC0201F00834000000000000400020000 = .ok (.pclmImm (par .none (.node 3 .r) .none 0) 2 4) ∧
  word 0x65201E00810000000000000000000000 = .ok (.vrunA (par .none (.node 1 .l) .none 0) 0) ∧
  word 0x81403E02831080000000019000010000 = .ok (.mma (par .none (.node 3 .l) (.node 4 .l) 1) true false 0 1 0 0 400) ∧
  word 0xE0A01E00000000000000000000000000 = .ok (.tret (par .none .none .none 0)) ∧
  word 0xC3401E00860000000000000000000000 = .ok (.barw (par .none (.node 6 .l) .none 0)) ∧
  word 0xA5200F00920000000000004000000000 = .ok (.aopImm (par .z64 (.node 18 .l) .none 0) .add false 64) ∧
  word 0x20400401000000000000000000000001 = .error .reserved ∧ word 0x30000401000000000000000000000000 = .error .opcUnassigned

/-- R94 to R98, R236, R239: an instruction whose effect is to emit a scalar changes, where its node is not traced, no memory, no request
and no Dispatcher or package state; on every core no frame, tile, engine, code word, queue or breakpoint and no register but the count
of RAS_INJECT; of the contexts only its own counter PERF 0x00; tokens in flight stay and its own are added behind them. -/
def Obligations.ScalarResultsChangeNothingElse : Prop :=
  ∀ (i : Instr) (s t : State) (p : Par) (lat : Nat) (v : Word) (ops : List Tok), (∀ x ∈ ops, x.kind ≠ kTile) →
    s.traced s.cur.site p.trcf = false →
    exec i s = .next (s.finish p lat (spread p (scalarTok s.cur.site v)) ops) → exec i s = .next t →
    t.ms = s.ms ∧ t.disp = s.disp ∧ t.plat = s.plat ∧ t.gtc = s.gtc ∧ t.cur = s.cur ∧ t.agenda = s.agenda ∧ t.reports = s.reports ∧
    (∀ k, { t.core k with regs := { (t.core k).regs with rasCount := 0 } } = { s.core k with regs := { (s.core k).regs with rasCount := 0 } }) ∧
    t.ctxs = s.ctxs.map (fun c => if c.id = s.cur.site.ctx then
      { c with regs := { c.regs with perf := Table.add c.regs.perf 0x00 1 } } else c) ∧
    (t.regions.map fun g => { g with gained := [] }) = (s.regions.map fun g => { g with gained := [] }) ∧
    (∃ l, t.flight = s.flight ++ l ∧ ∀ q ∈ l, q.ectx = s.cur.site.ctx ∧ q.ecore = s.cur.site.core ∧ q.epkg = s.plat.pkg)
end

