-- ==== Sys2Proof/Laws/Memory.lean ====
section
/-! SUPPORT. What the operations on sparse memory do: each keeps the canonical form; a byte written is read back and every
other byte stays. -/

namespace Sys2Proof.Machine

theorem Memory.wfFrom_of_le {lo lo' : Nat} {m : List Host.Cell} (h : lo' ≤ lo) (hm : Memory.wfFrom lo m = true) :
    Memory.wfFrom lo' m = true := by
  cases m with
  | nil => rfl
  | cons c cs =>
    simp only [Memory.wfFrom, Bool.and_eq_true, decide_eq_true_eq] at hm ⊢
    exact ⟨⟨by omega, hm.1.2⟩, hm.2⟩

theorem Memory.wfFrom_erase (m : List Host.Cell) (a lo : Nat) (hm : Memory.wfFrom lo m = true) :
    Memory.wfFrom lo (Memory.erase m a) = true := by
  induction m generalizing lo with
  | nil => rfl
  | cons c cs ih =>
    simp only [Memory.wfFrom, Bool.and_eq_true, decide_eq_true_eq] at hm
    unfold Memory.erase
    split
    · exact Memory.wfFrom_of_le (by omega) hm.2
    · simp only [Memory.wfFrom, Bool.and_eq_true, decide_eq_true_eq]
      exact ⟨hm.1, ih _ hm.2⟩

theorem Memory.wfFrom_insert (m : List Host.Cell) (a lo : Nat) (b : Byte) (hb : b ≠ blank) (ha : lo ≤ a)
    (hm : Memory.wfFrom lo m = true) : Memory.wfFrom lo (Memory.insert m a b) = true := by
  induction m generalizing lo with
  | nil => simp [Memory.insert, Memory.wfFrom, ha, hb]
  | cons c cs ih =>
    simp only [Memory.wfFrom, Bool.and_eq_true, decide_eq_true_eq] at hm
    unfold Memory.insert
    split
    · simp only [Memory.wfFrom, Bool.and_eq_true, decide_eq_true_eq, bne_iff_ne, ne_eq]
      exact ⟨⟨ha, hb⟩, ⟨by omega, by simpa using hm.1.2⟩, hm.2⟩
    · split
      · rename_i h
        simp only [beq_iff_eq] at h
        simp only [Memory.wfFrom, Bool.and_eq_true, decide_eq_true_eq, bne_iff_ne, ne_eq]
        exact ⟨⟨ha, hb⟩, h ▸ hm.2⟩
      · rename_i h1 h2
        simp only [beq_iff_eq] at h2
        simp only [Memory.wfFrom, Bool.and_eq_true, decide_eq_true_eq]
        exact ⟨hm.1, ih _ (by omega) hm.2⟩

/-- A byte write keeps the canonical form. -/
theorem Memory.wf_set (m : List Host.Cell) (a : Nat) (b : Byte) (hm : Memory.wf m = true) : Memory.wf (Memory.set m a b) = true := by
  unfold Memory.set
  split
  · exact Memory.wfFrom_erase m a 0 hm
  · rename_i h
    exact Memory.wfFrom_insert m a 0 b (by simpa using h) (Nat.zero_le _) hm

/-- A write of consecutive bytes keeps the canonical form. -/
theorem Memory.wf_setMany (bs : List Byte) (m : List Host.Cell) (a : Nat) (hm : Memory.wf m = true) :
    Memory.wf (Memory.setMany m a bs) = true := by
  induction bs generalizing m a with
  | nil => exact hm
  | cons b bs ih => exact ih _ _ (Memory.wf_set m a b hm)

theorem Memory.wfFrom_filter (m : List Host.Cell) (p : Host.Cell → Bool) (lo : Nat) (hm : Memory.wfFrom lo m = true) :
    Memory.wfFrom lo (m.filter p) = true := by
  induction m generalizing lo with
  | nil => rfl
  | cons c cs ih =>
    simp only [Memory.wfFrom, Bool.and_eq_true, decide_eq_true_eq] at hm
    rw [List.filter_cons]
    split
    · simp only [Memory.wfFrom, Bool.and_eq_true, decide_eq_true_eq]
      exact ⟨hm.1, ih _ hm.2⟩
    · exact Memory.wfFrom_of_le (by omega) (ih _ hm.2)

/-- Clearing a range (a filter) keeps the canonical form. -/
theorem Memory.wf_filter (m : List Host.Cell) (p : Host.Cell → Bool) (hm : Memory.wf m = true) : Memory.wf (m.filter p) = true :=
  Memory.wfFrom_filter m p 0 hm

theorem Memory.get_below (m : List Host.Cell) (a lo : Nat) (ha : a < lo) (hm : Memory.wfFrom lo m = true) :
    Memory.get m a = blank := by
  induction m generalizing lo with
  | nil => rfl
  | cons c cs ih =>
    simp only [Memory.wfFrom, Bool.and_eq_true, decide_eq_true_eq] at hm
    unfold Memory.get
    rw [if_neg (by simp; omega)]
    exact ih (c.1 + 1) (by omega) hm.2

theorem Memory.get_insert_same (m : List Host.Cell) (a : Nat) (b : Byte) : Memory.get (Memory.insert m a b) a = b := by
  induction m with
  | nil => simp [Memory.insert, Memory.get]
  | cons c cs ih =>
    unfold Memory.insert
    split
    · simp [Memory.get]
    · split
      · simp [Memory.get]
      · rename_i h
        simp only [Memory.get]
        rw [if_neg h, ih]

theorem Memory.get_insert_other (m : List Host.Cell) (a x : Nat) (b : Byte) (h : x ≠ a) :
    Memory.get (Memory.insert m a b) x = Memory.get m x := by
  induction m with
  | nil => simp [Memory.insert, Memory.get, Ne.symm h]
  | cons c cs ih =>
    unfold Memory.insert
    split
    · simp [Memory.get, Ne.symm h]
    · split
      · rename_i h2
        simp only [beq_iff_eq] at h2
        simp [Memory.get, Ne.symm h, h2]
      · simp only [Memory.get, ih]

theorem Memory.get_erase_same (m : List Host.Cell) (a lo : Nat) (hm : Memory.wfFrom lo m = true) :
    Memory.get (Memory.erase m a) a = blank := by
  induction m generalizing lo with
  | nil => rfl
  | cons c cs ih =>
    simp only [Memory.wfFrom, Bool.and_eq_true, decide_eq_true_eq] at hm
    unfold Memory.erase
    split
    · rename_i h
      simp only [beq_iff_eq] at h
      exact Memory.get_below cs a (c.1 + 1) (by omega) hm.2
    · rename_i h
      simp only [Memory.get]
      rw [if_neg h]
      exact ih _ hm.2

theorem Memory.get_erase_other (m : List Host.Cell) (a x : Nat) (h : x ≠ a) : Memory.get (Memory.erase m a) x = Memory.get m x := by
  induction m with
  | nil => rfl
  | cons c cs ih =>
    unfold Memory.erase
    split
    · rename_i h2
      simp only [beq_iff_eq] at h2
      simp only [Memory.get]
      rw [if_neg (by simp; omega)]
    · simp only [Memory.get, ih]

/-- A byte written is read back. -/
theorem Memory.get_set_same (m : List Host.Cell) (a : Nat) (b : Byte) (hm : Memory.wf m = true) :
    Memory.get (Memory.set m a b) a = b := by
  unfold Memory.set
  split
  · rename_i h
    simp only [beq_iff_eq] at h
    rw [Memory.get_erase_same m a 0 hm, h]
  · exact Memory.get_insert_same m a b

/-- A byte write leaves every other byte. -/
theorem Memory.get_set_other (m : List Host.Cell) (a x : Nat) (b : Byte) (h : x ≠ a) :
    Memory.get (Memory.set m a b) x = Memory.get m x := by
  unfold Memory.set
  split
  · exact Memory.get_erase_other m a x h
  · exact Memory.get_insert_other m a x b h

/-- A write of consecutive bytes leaves every byte outside them. -/
theorem Memory.get_setMany_outside (bs : List Byte) (m : List Host.Cell) (a x : Nat) (h : x < a ∨ a + bs.length ≤ x) :
    Memory.get (Memory.setMany m a bs) x = Memory.get m x := by
  induction bs generalizing m a with
  | nil => rfl
  | cons b bs ih =>
    simp only [List.length_cons] at h
    unfold Memory.setMany
    rw [ih _ _ (by omega), Memory.get_set_other m a x b (by omega)]

/-- A write of consecutive bytes puts each in its place. -/
theorem Memory.get_setMany_inside (bs : List Byte) (m : List Host.Cell) (a i : Nat) (hm : Memory.wf m = true) (h : i < bs.length) :
    Memory.get (Memory.setMany m a bs) (a + i) = bs[i] := by
  induction bs generalizing m a i with
  | nil => simp at h
  | cons b bs ih =>
    unfold Memory.setMany
    cases i with
    | zero =>
      have h0 : a + 0 < a + 1 := by omega
      rw [Memory.get_setMany_outside _ _ _ _ (Or.inl h0)]
      exact Memory.get_set_same m a b hm
    | succ i =>
      have := ih (Memory.set m a b) (a + 1) i (Memory.wf_set m a b hm) (by simpa using h)
      rw [show a + (i + 1) = a + 1 + i by omega, this]; rfl

/-- Reset memory lists nothing and is in canonical form. -/
theorem Memory.wf_nil : Memory.wf [] = true := rfl

end Sys2Proof.Machine
end

