-- ==== Sys2Proof/Laws/State.lean ====
section
/-! SUPPORT. Reading a field of the state after each of its updates: true by rfl, so that no proof unfolds an update. -/

namespace Sys2Proof.Machine

@[simp] theorem State.modCore_cores (s : State) (c : Nat) (f : Core → Core) : (s.modCore c f).cores = s.cores.modify c f := rfl
@[simp] theorem State.modCore_ctxs (s : State) (c : Nat) (f : Core → Core) : (s.modCore c f).ctxs = s.ctxs := rfl
@[simp] theorem State.modCore_regions (s : State) (c : Nat) (f : Core → Core) : (s.modCore c f).regions = s.regions := rfl
@[simp] theorem State.modCore_flight (s : State) (c : Nat) (f : Core → Core) : (s.modCore c f).flight = s.flight := rfl
@[simp] theorem State.modCore_departing (s : State) (c : Nat) (f : Core → Core) : (s.modCore c f).departing = s.departing := rfl
@[simp] theorem State.modCore_departSeq (s : State) (c : Nat) (f : Core → Core) : (s.modCore c f).departSeq = s.departSeq := rfl
@[simp] theorem State.modCore_reports (s : State) (c : Nat) (f : Core → Core) : (s.modCore c f).reports = s.reports := rfl
@[simp] theorem State.modCore_ms (s : State) (c : Nat) (f : Core → Core) : (s.modCore c f).ms = s.ms := rfl
@[simp] theorem State.modCore_disp (s : State) (c : Nat) (f : Core → Core) : (s.modCore c f).disp = s.disp := rfl
@[simp] theorem State.modCore_plat (s : State) (c : Nat) (f : Core → Core) : (s.modCore c f).plat = s.plat := rfl
@[simp] theorem State.modCore_gtc (s : State) (c : Nat) (f : Core → Core) : (s.modCore c f).gtc = s.gtc := rfl
@[simp] theorem State.modCore_gtcPs (s : State) (c : Nat) (f : Core → Core) : (s.modCore c f).gtcPs = s.gtcPs := rfl
@[simp] theorem State.modCore_wall (s : State) (c : Nat) (f : Core → Core) : (s.modCore c f).wall = s.wall := rfl
@[simp] theorem State.modCore_wallPs (s : State) (c : Nat) (f : Core → Core) : (s.modCore c f).wallPs = s.wallPs := rfl
@[simp] theorem State.modCore_cur (s : State) (c : Nat) (f : Core → Core) : (s.modCore c f).cur = s.cur := rfl
@[simp] theorem State.modCore_fresh (s : State) (c : Nat) (f : Core → Core) : (s.modCore c f).fresh = s.fresh := rfl
@[simp] theorem State.modCore_scalarFaults (s : State) (c : Nat) (f : Core → Core) : (s.modCore c f).scalarFaults = s.scalarFaults := rfl
@[simp] theorem State.modCore_rowFaults (s : State) (c : Nat) (f : Core → Core) : (s.modCore c f).rowFaults = s.rowFaults := rfl
@[simp] theorem State.modCore_trapSeq (s : State) (c : Nat) (f : Core → Core) : (s.modCore c f).trapSeq = s.trapSeq := rfl
@[simp] theorem State.modCore_outbox (s : State) (c : Nat) (f : Core → Core) : (s.modCore c f).outbox = s.outbox := rfl
@[simp] theorem State.modCore_agenda (s : State) (c : Nat) (f : Core → Core) : (s.modCore c f).agenda = s.agenda := rfl

@[simp] theorem State.modCtx_cores (s : State) (i : Nat) (f : Ctx → Ctx) : (s.modCtx i f).cores = s.cores := rfl
@[simp] theorem State.modCtx_ctxs (s : State) (i : Nat) (f : Ctx → Ctx) : (s.modCtx i f).ctxs = s.ctxs.map fun c => if c.id == i then f c else c := rfl
@[simp] theorem State.modCtx_regions (s : State) (i : Nat) (f : Ctx → Ctx) : (s.modCtx i f).regions = s.regions := rfl
@[simp] theorem State.modCtx_flight (s : State) (i : Nat) (f : Ctx → Ctx) : (s.modCtx i f).flight = s.flight := rfl
@[simp] theorem State.modCtx_departing (s : State) (i : Nat) (f : Ctx → Ctx) : (s.modCtx i f).departing = s.departing := rfl
@[simp] theorem State.modCtx_departSeq (s : State) (i : Nat) (f : Ctx → Ctx) : (s.modCtx i f).departSeq = s.departSeq := rfl
@[simp] theorem State.modCtx_reports (s : State) (i : Nat) (f : Ctx → Ctx) : (s.modCtx i f).reports = s.reports := rfl
@[simp] theorem State.modCtx_ms (s : State) (i : Nat) (f : Ctx → Ctx) : (s.modCtx i f).ms = s.ms := rfl
@[simp] theorem State.modCtx_disp (s : State) (i : Nat) (f : Ctx → Ctx) : (s.modCtx i f).disp = s.disp := rfl
@[simp] theorem State.modCtx_plat (s : State) (i : Nat) (f : Ctx → Ctx) : (s.modCtx i f).plat = s.plat := rfl
@[simp] theorem State.modCtx_gtc (s : State) (i : Nat) (f : Ctx → Ctx) : (s.modCtx i f).gtc = s.gtc := rfl
@[simp] theorem State.modCtx_gtcPs (s : State) (i : Nat) (f : Ctx → Ctx) : (s.modCtx i f).gtcPs = s.gtcPs := rfl
@[simp] theorem State.modCtx_wall (s : State) (i : Nat) (f : Ctx → Ctx) : (s.modCtx i f).wall = s.wall := rfl
@[simp] theorem State.modCtx_wallPs (s : State) (i : Nat) (f : Ctx → Ctx) : (s.modCtx i f).wallPs = s.wallPs := rfl
@[simp] theorem State.modCtx_cur (s : State) (i : Nat) (f : Ctx → Ctx) : (s.modCtx i f).cur = s.cur := rfl
@[simp] theorem State.modCtx_fresh (s : State) (i : Nat) (f : Ctx → Ctx) : (s.modCtx i f).fresh = s.fresh := rfl
@[simp] theorem State.modCtx_scalarFaults (s : State) (i : Nat) (f : Ctx → Ctx) : (s.modCtx i f).scalarFaults = s.scalarFaults := rfl
@[simp] theorem State.modCtx_rowFaults (s : State) (i : Nat) (f : Ctx → Ctx) : (s.modCtx i f).rowFaults = s.rowFaults := rfl
@[simp] theorem State.modCtx_trapSeq (s : State) (i : Nat) (f : Ctx → Ctx) : (s.modCtx i f).trapSeq = s.trapSeq := rfl
@[simp] theorem State.modCtx_outbox (s : State) (i : Nat) (f : Ctx → Ctx) : (s.modCtx i f).outbox = s.outbox := rfl
@[simp] theorem State.modCtx_agenda (s : State) (i : Nat) (f : Ctx → Ctx) : (s.modCtx i f).agenda = s.agenda := rfl

@[simp] theorem State.modMs_cores (s : State) (f : MemSys → MemSys) : (s.modMs f).cores = s.cores := rfl
@[simp] theorem State.modMs_ctxs (s : State) (f : MemSys → MemSys) : (s.modMs f).ctxs = s.ctxs := rfl
@[simp] theorem State.modMs_regions (s : State) (f : MemSys → MemSys) : (s.modMs f).regions = s.regions := rfl
@[simp] theorem State.modMs_flight (s : State) (f : MemSys → MemSys) : (s.modMs f).flight = s.flight := rfl
@[simp] theorem State.modMs_departing (s : State) (f : MemSys → MemSys) : (s.modMs f).departing = s.departing := rfl
@[simp] theorem State.modMs_departSeq (s : State) (f : MemSys → MemSys) : (s.modMs f).departSeq = s.departSeq := rfl
@[simp] theorem State.modMs_reports (s : State) (f : MemSys → MemSys) : (s.modMs f).reports = s.reports := rfl
@[simp] theorem State.modMs_ms (s : State) (f : MemSys → MemSys) : (s.modMs f).ms = f s.ms := rfl
@[simp] theorem State.modMs_disp (s : State) (f : MemSys → MemSys) : (s.modMs f).disp = s.disp := rfl
@[simp] theorem State.modMs_plat (s : State) (f : MemSys → MemSys) : (s.modMs f).plat = s.plat := rfl
@[simp] theorem State.modMs_gtc (s : State) (f : MemSys → MemSys) : (s.modMs f).gtc = s.gtc := rfl
@[simp] theorem State.modMs_gtcPs (s : State) (f : MemSys → MemSys) : (s.modMs f).gtcPs = s.gtcPs := rfl
@[simp] theorem State.modMs_wall (s : State) (f : MemSys → MemSys) : (s.modMs f).wall = s.wall := rfl
@[simp] theorem State.modMs_wallPs (s : State) (f : MemSys → MemSys) : (s.modMs f).wallPs = s.wallPs := rfl
@[simp] theorem State.modMs_cur (s : State) (f : MemSys → MemSys) : (s.modMs f).cur = s.cur := rfl
@[simp] theorem State.modMs_fresh (s : State) (f : MemSys → MemSys) : (s.modMs f).fresh = s.fresh := rfl
@[simp] theorem State.modMs_scalarFaults (s : State) (f : MemSys → MemSys) : (s.modMs f).scalarFaults = s.scalarFaults := rfl
@[simp] theorem State.modMs_rowFaults (s : State) (f : MemSys → MemSys) : (s.modMs f).rowFaults = s.rowFaults := rfl
@[simp] theorem State.modMs_trapSeq (s : State) (f : MemSys → MemSys) : (s.modMs f).trapSeq = s.trapSeq := rfl
@[simp] theorem State.modMs_outbox (s : State) (f : MemSys → MemSys) : (s.modMs f).outbox = s.outbox := rfl
@[simp] theorem State.modMs_agenda (s : State) (f : MemSys → MemSys) : (s.modMs f).agenda = s.agenda := rfl

@[simp] theorem State.modPlat_cores (s : State) (f : Platform → Platform) : (s.modPlat f).cores = s.cores := rfl
@[simp] theorem State.modPlat_ctxs (s : State) (f : Platform → Platform) : (s.modPlat f).ctxs = s.ctxs := rfl
@[simp] theorem State.modPlat_regions (s : State) (f : Platform → Platform) : (s.modPlat f).regions = s.regions := rfl
@[simp] theorem State.modPlat_flight (s : State) (f : Platform → Platform) : (s.modPlat f).flight = s.flight := rfl
@[simp] theorem State.modPlat_departing (s : State) (f : Platform → Platform) : (s.modPlat f).departing = s.departing := rfl
@[simp] theorem State.modPlat_departSeq (s : State) (f : Platform → Platform) : (s.modPlat f).departSeq = s.departSeq := rfl
@[simp] theorem State.modPlat_reports (s : State) (f : Platform → Platform) : (s.modPlat f).reports = s.reports := rfl
@[simp] theorem State.modPlat_ms (s : State) (f : Platform → Platform) : (s.modPlat f).ms = s.ms := rfl
@[simp] theorem State.modPlat_disp (s : State) (f : Platform → Platform) : (s.modPlat f).disp = s.disp := rfl
@[simp] theorem State.modPlat_plat (s : State) (f : Platform → Platform) : (s.modPlat f).plat = f s.plat := rfl
@[simp] theorem State.modPlat_gtc (s : State) (f : Platform → Platform) : (s.modPlat f).gtc = s.gtc := rfl
@[simp] theorem State.modPlat_gtcPs (s : State) (f : Platform → Platform) : (s.modPlat f).gtcPs = s.gtcPs := rfl
@[simp] theorem State.modPlat_wall (s : State) (f : Platform → Platform) : (s.modPlat f).wall = s.wall := rfl
@[simp] theorem State.modPlat_wallPs (s : State) (f : Platform → Platform) : (s.modPlat f).wallPs = s.wallPs := rfl
@[simp] theorem State.modPlat_cur (s : State) (f : Platform → Platform) : (s.modPlat f).cur = s.cur := rfl
@[simp] theorem State.modPlat_fresh (s : State) (f : Platform → Platform) : (s.modPlat f).fresh = s.fresh := rfl
@[simp] theorem State.modPlat_scalarFaults (s : State) (f : Platform → Platform) : (s.modPlat f).scalarFaults = s.scalarFaults := rfl
@[simp] theorem State.modPlat_rowFaults (s : State) (f : Platform → Platform) : (s.modPlat f).rowFaults = s.rowFaults := rfl
@[simp] theorem State.modPlat_trapSeq (s : State) (f : Platform → Platform) : (s.modPlat f).trapSeq = s.trapSeq := rfl
@[simp] theorem State.modPlat_outbox (s : State) (f : Platform → Platform) : (s.modPlat f).outbox = s.outbox := rfl
@[simp] theorem State.modPlat_agenda (s : State) (f : Platform → Platform) : (s.modPlat f).agenda = s.agenda := rfl

@[simp] theorem State.modDisp_cores (s : State) (f : Dispatcher → Dispatcher) : (s.modDisp f).cores = s.cores := rfl
@[simp] theorem State.modDisp_ctxs (s : State) (f : Dispatcher → Dispatcher) : (s.modDisp f).ctxs = s.ctxs := rfl
@[simp] theorem State.modDisp_regions (s : State) (f : Dispatcher → Dispatcher) : (s.modDisp f).regions = s.regions := rfl
@[simp] theorem State.modDisp_flight (s : State) (f : Dispatcher → Dispatcher) : (s.modDisp f).flight = s.flight := rfl
@[simp] theorem State.modDisp_departing (s : State) (f : Dispatcher → Dispatcher) : (s.modDisp f).departing = s.departing := rfl
@[simp] theorem State.modDisp_departSeq (s : State) (f : Dispatcher → Dispatcher) : (s.modDisp f).departSeq = s.departSeq := rfl
@[simp] theorem State.modDisp_reports (s : State) (f : Dispatcher → Dispatcher) : (s.modDisp f).reports = s.reports := rfl
@[simp] theorem State.modDisp_ms (s : State) (f : Dispatcher → Dispatcher) : (s.modDisp f).ms = s.ms := rfl
@[simp] theorem State.modDisp_disp (s : State) (f : Dispatcher → Dispatcher) : (s.modDisp f).disp = f s.disp := rfl
@[simp] theorem State.modDisp_plat (s : State) (f : Dispatcher → Dispatcher) : (s.modDisp f).plat = s.plat := rfl
@[simp] theorem State.modDisp_gtc (s : State) (f : Dispatcher → Dispatcher) : (s.modDisp f).gtc = s.gtc := rfl
@[simp] theorem State.modDisp_gtcPs (s : State) (f : Dispatcher → Dispatcher) : (s.modDisp f).gtcPs = s.gtcPs := rfl
@[simp] theorem State.modDisp_wall (s : State) (f : Dispatcher → Dispatcher) : (s.modDisp f).wall = s.wall := rfl
@[simp] theorem State.modDisp_wallPs (s : State) (f : Dispatcher → Dispatcher) : (s.modDisp f).wallPs = s.wallPs := rfl
@[simp] theorem State.modDisp_cur (s : State) (f : Dispatcher → Dispatcher) : (s.modDisp f).cur = s.cur := rfl
@[simp] theorem State.modDisp_fresh (s : State) (f : Dispatcher → Dispatcher) : (s.modDisp f).fresh = s.fresh := rfl
@[simp] theorem State.modDisp_scalarFaults (s : State) (f : Dispatcher → Dispatcher) : (s.modDisp f).scalarFaults = s.scalarFaults := rfl
@[simp] theorem State.modDisp_rowFaults (s : State) (f : Dispatcher → Dispatcher) : (s.modDisp f).rowFaults = s.rowFaults := rfl
@[simp] theorem State.modDisp_trapSeq (s : State) (f : Dispatcher → Dispatcher) : (s.modDisp f).trapSeq = s.trapSeq := rfl
@[simp] theorem State.modDisp_outbox (s : State) (f : Dispatcher → Dispatcher) : (s.modDisp f).outbox = s.outbox := rfl
@[simp] theorem State.modDisp_agenda (s : State) (f : Dispatcher → Dispatcher) : (s.modDisp f).agenda = s.agenda := rfl

@[simp] theorem State.modRegion_cores (s : State) (h : Nat) (f : Region → Region) : (s.modRegion h f).cores = s.cores := rfl
@[simp] theorem State.modRegion_ctxs (s : State) (h : Nat) (f : Region → Region) : (s.modRegion h f).ctxs = s.ctxs := rfl
@[simp] theorem State.modRegion_regions (s : State) (h : Nat) (f : Region → Region) : (s.modRegion h f).regions = s.regions.map fun r => if r.home == h then f r else r := rfl
@[simp] theorem State.modRegion_flight (s : State) (h : Nat) (f : Region → Region) : (s.modRegion h f).flight = s.flight := rfl
@[simp] theorem State.modRegion_departing (s : State) (h : Nat) (f : Region → Region) : (s.modRegion h f).departing = s.departing := rfl
@[simp] theorem State.modRegion_departSeq (s : State) (h : Nat) (f : Region → Region) : (s.modRegion h f).departSeq = s.departSeq := rfl
@[simp] theorem State.modRegion_reports (s : State) (h : Nat) (f : Region → Region) : (s.modRegion h f).reports = s.reports := rfl
@[simp] theorem State.modRegion_ms (s : State) (h : Nat) (f : Region → Region) : (s.modRegion h f).ms = s.ms := rfl
@[simp] theorem State.modRegion_disp (s : State) (h : Nat) (f : Region → Region) : (s.modRegion h f).disp = s.disp := rfl
@[simp] theorem State.modRegion_plat (s : State) (h : Nat) (f : Region → Region) : (s.modRegion h f).plat = s.plat := rfl
@[simp] theorem State.modRegion_gtc (s : State) (h : Nat) (f : Region → Region) : (s.modRegion h f).gtc = s.gtc := rfl
@[simp] theorem State.modRegion_gtcPs (s : State) (h : Nat) (f : Region → Region) : (s.modRegion h f).gtcPs = s.gtcPs := rfl
@[simp] theorem State.modRegion_wall (s : State) (h : Nat) (f : Region → Region) : (s.modRegion h f).wall = s.wall := rfl
@[simp] theorem State.modRegion_wallPs (s : State) (h : Nat) (f : Region → Region) : (s.modRegion h f).wallPs = s.wallPs := rfl
@[simp] theorem State.modRegion_cur (s : State) (h : Nat) (f : Region → Region) : (s.modRegion h f).cur = s.cur := rfl
@[simp] theorem State.modRegion_fresh (s : State) (h : Nat) (f : Region → Region) : (s.modRegion h f).fresh = s.fresh := rfl
@[simp] theorem State.modRegion_scalarFaults (s : State) (h : Nat) (f : Region → Region) : (s.modRegion h f).scalarFaults = s.scalarFaults := rfl
@[simp] theorem State.modRegion_rowFaults (s : State) (h : Nat) (f : Region → Region) : (s.modRegion h f).rowFaults = s.rowFaults := rfl
@[simp] theorem State.modRegion_trapSeq (s : State) (h : Nat) (f : Region → Region) : (s.modRegion h f).trapSeq = s.trapSeq := rfl
@[simp] theorem State.modRegion_outbox (s : State) (h : Nat) (f : Region → Region) : (s.modRegion h f).outbox = s.outbox := rfl
@[simp] theorem State.modRegion_agenda (s : State) (h : Nat) (f : Region → Region) : (s.modRegion h f).agenda = s.agenda := rfl

@[simp] theorem State.send_cores (s : State) (m : Sent) : (s.send m).cores = s.cores := rfl
@[simp] theorem State.send_ctxs (s : State) (m : Sent) : (s.send m).ctxs = s.ctxs := rfl
@[simp] theorem State.send_regions (s : State) (m : Sent) : (s.send m).regions = s.regions := rfl
@[simp] theorem State.send_flight (s : State) (m : Sent) : (s.send m).flight = s.flight := rfl
@[simp] theorem State.send_departing (s : State) (m : Sent) : (s.send m).departing = s.departing := rfl
@[simp] theorem State.send_departSeq (s : State) (m : Sent) : (s.send m).departSeq = s.departSeq := rfl
@[simp] theorem State.send_reports (s : State) (m : Sent) : (s.send m).reports = s.reports := rfl
@[simp] theorem State.send_ms (s : State) (m : Sent) : (s.send m).ms = s.ms := rfl
@[simp] theorem State.send_disp (s : State) (m : Sent) : (s.send m).disp = s.disp := rfl
@[simp] theorem State.send_plat (s : State) (m : Sent) : (s.send m).plat = s.plat := rfl
@[simp] theorem State.send_gtc (s : State) (m : Sent) : (s.send m).gtc = s.gtc := rfl
@[simp] theorem State.send_gtcPs (s : State) (m : Sent) : (s.send m).gtcPs = s.gtcPs := rfl
@[simp] theorem State.send_wall (s : State) (m : Sent) : (s.send m).wall = s.wall := rfl
@[simp] theorem State.send_wallPs (s : State) (m : Sent) : (s.send m).wallPs = s.wallPs := rfl
@[simp] theorem State.send_cur (s : State) (m : Sent) : (s.send m).cur = s.cur := rfl
@[simp] theorem State.send_fresh (s : State) (m : Sent) : (s.send m).fresh = s.fresh := rfl
@[simp] theorem State.send_scalarFaults (s : State) (m : Sent) : (s.send m).scalarFaults = s.scalarFaults := rfl
@[simp] theorem State.send_rowFaults (s : State) (m : Sent) : (s.send m).rowFaults = s.rowFaults := rfl
@[simp] theorem State.send_trapSeq (s : State) (m : Sent) : (s.send m).trapSeq = s.trapSeq := rfl
@[simp] theorem State.send_outbox (s : State) (m : Sent) : (s.send m).outbox = s.outbox ++ [s.stamp m] := rfl
@[simp] theorem State.send_agenda (s : State) (m : Sent) : (s.send m).agenda = s.agenda := rfl

@[simp] theorem State.modRegs_cores (s : State) (i : Nat) (f : CtxRegs → CtxRegs) : (s.modRegs i f).cores = s.cores := rfl
@[simp] theorem State.modRegs_regions (s : State) (i : Nat) (f : CtxRegs → CtxRegs) : (s.modRegs i f).regions = s.regions := rfl
@[simp] theorem State.modRegs_flight (s : State) (i : Nat) (f : CtxRegs → CtxRegs) : (s.modRegs i f).flight = s.flight := rfl
@[simp] theorem State.modRegs_departing (s : State) (i : Nat) (f : CtxRegs → CtxRegs) : (s.modRegs i f).departing = s.departing := rfl
@[simp] theorem State.modRegs_departSeq (s : State) (i : Nat) (f : CtxRegs → CtxRegs) : (s.modRegs i f).departSeq = s.departSeq := rfl
@[simp] theorem State.modRegs_reports (s : State) (i : Nat) (f : CtxRegs → CtxRegs) : (s.modRegs i f).reports = s.reports := rfl
@[simp] theorem State.modRegs_ms (s : State) (i : Nat) (f : CtxRegs → CtxRegs) : (s.modRegs i f).ms = s.ms := rfl
@[simp] theorem State.modRegs_disp (s : State) (i : Nat) (f : CtxRegs → CtxRegs) : (s.modRegs i f).disp = s.disp := rfl
@[simp] theorem State.modRegs_plat (s : State) (i : Nat) (f : CtxRegs → CtxRegs) : (s.modRegs i f).plat = s.plat := rfl
@[simp] theorem State.modRegs_gtc (s : State) (i : Nat) (f : CtxRegs → CtxRegs) : (s.modRegs i f).gtc = s.gtc := rfl
@[simp] theorem State.modRegs_gtcPs (s : State) (i : Nat) (f : CtxRegs → CtxRegs) : (s.modRegs i f).gtcPs = s.gtcPs := rfl
@[simp] theorem State.modRegs_wall (s : State) (i : Nat) (f : CtxRegs → CtxRegs) : (s.modRegs i f).wall = s.wall := rfl
@[simp] theorem State.modRegs_wallPs (s : State) (i : Nat) (f : CtxRegs → CtxRegs) : (s.modRegs i f).wallPs = s.wallPs := rfl
@[simp] theorem State.modRegs_cur (s : State) (i : Nat) (f : CtxRegs → CtxRegs) : (s.modRegs i f).cur = s.cur := rfl
@[simp] theorem State.modRegs_fresh (s : State) (i : Nat) (f : CtxRegs → CtxRegs) : (s.modRegs i f).fresh = s.fresh := rfl
@[simp] theorem State.modRegs_scalarFaults (s : State) (i : Nat) (f : CtxRegs → CtxRegs) : (s.modRegs i f).scalarFaults = s.scalarFaults := rfl
@[simp] theorem State.modRegs_rowFaults (s : State) (i : Nat) (f : CtxRegs → CtxRegs) : (s.modRegs i f).rowFaults = s.rowFaults := rfl
@[simp] theorem State.modRegs_trapSeq (s : State) (i : Nat) (f : CtxRegs → CtxRegs) : (s.modRegs i f).trapSeq = s.trapSeq := rfl
@[simp] theorem State.modRegs_outbox (s : State) (i : Nat) (f : CtxRegs → CtxRegs) : (s.modRegs i f).outbox = s.outbox := rfl
@[simp] theorem State.modRegs_agenda (s : State) (i : Nat) (f : CtxRegs → CtxRegs) : (s.modRegs i f).agenda = s.agenda := rfl

@[simp] theorem State.modCoreRegs_ctxs (s : State) (c : Nat) (f : CoreRegs → CoreRegs) : (s.modCoreRegs c f).ctxs = s.ctxs := rfl
@[simp] theorem State.modCoreRegs_regions (s : State) (c : Nat) (f : CoreRegs → CoreRegs) : (s.modCoreRegs c f).regions = s.regions := rfl
@[simp] theorem State.modCoreRegs_flight (s : State) (c : Nat) (f : CoreRegs → CoreRegs) : (s.modCoreRegs c f).flight = s.flight := rfl
@[simp] theorem State.modCoreRegs_departing (s : State) (c : Nat) (f : CoreRegs → CoreRegs) : (s.modCoreRegs c f).departing = s.departing := rfl
@[simp] theorem State.modCoreRegs_departSeq (s : State) (c : Nat) (f : CoreRegs → CoreRegs) : (s.modCoreRegs c f).departSeq = s.departSeq := rfl
@[simp] theorem State.modCoreRegs_reports (s : State) (c : Nat) (f : CoreRegs → CoreRegs) : (s.modCoreRegs c f).reports = s.reports := rfl
@[simp] theorem State.modCoreRegs_ms (s : State) (c : Nat) (f : CoreRegs → CoreRegs) : (s.modCoreRegs c f).ms = s.ms := rfl
@[simp] theorem State.modCoreRegs_disp (s : State) (c : Nat) (f : CoreRegs → CoreRegs) : (s.modCoreRegs c f).disp = s.disp := rfl
@[simp] theorem State.modCoreRegs_plat (s : State) (c : Nat) (f : CoreRegs → CoreRegs) : (s.modCoreRegs c f).plat = s.plat := rfl
@[simp] theorem State.modCoreRegs_gtc (s : State) (c : Nat) (f : CoreRegs → CoreRegs) : (s.modCoreRegs c f).gtc = s.gtc := rfl
@[simp] theorem State.modCoreRegs_gtcPs (s : State) (c : Nat) (f : CoreRegs → CoreRegs) : (s.modCoreRegs c f).gtcPs = s.gtcPs := rfl
@[simp] theorem State.modCoreRegs_wall (s : State) (c : Nat) (f : CoreRegs → CoreRegs) : (s.modCoreRegs c f).wall = s.wall := rfl
@[simp] theorem State.modCoreRegs_wallPs (s : State) (c : Nat) (f : CoreRegs → CoreRegs) : (s.modCoreRegs c f).wallPs = s.wallPs := rfl
@[simp] theorem State.modCoreRegs_cur (s : State) (c : Nat) (f : CoreRegs → CoreRegs) : (s.modCoreRegs c f).cur = s.cur := rfl
@[simp] theorem State.modCoreRegs_fresh (s : State) (c : Nat) (f : CoreRegs → CoreRegs) : (s.modCoreRegs c f).fresh = s.fresh := rfl
@[simp] theorem State.modCoreRegs_scalarFaults (s : State) (c : Nat) (f : CoreRegs → CoreRegs) : (s.modCoreRegs c f).scalarFaults = s.scalarFaults := rfl
@[simp] theorem State.modCoreRegs_rowFaults (s : State) (c : Nat) (f : CoreRegs → CoreRegs) : (s.modCoreRegs c f).rowFaults = s.rowFaults := rfl
@[simp] theorem State.modCoreRegs_trapSeq (s : State) (c : Nat) (f : CoreRegs → CoreRegs) : (s.modCoreRegs c f).trapSeq = s.trapSeq := rfl
@[simp] theorem State.modCoreRegs_outbox (s : State) (c : Nat) (f : CoreRegs → CoreRegs) : (s.modCoreRegs c f).outbox = s.outbox := rfl
@[simp] theorem State.modCoreRegs_agenda (s : State) (c : Nat) (f : CoreRegs → CoreRegs) : (s.modCoreRegs c f).agenda = s.agenda := rfl

@[simp] theorem State.modTok_ctxs (s : State) (c : Nat) (f : TokUnit → TokUnit) : (s.modTok c f).ctxs = s.ctxs := rfl
@[simp] theorem State.modTok_regions (s : State) (c : Nat) (f : TokUnit → TokUnit) : (s.modTok c f).regions = s.regions := rfl
@[simp] theorem State.modTok_flight (s : State) (c : Nat) (f : TokUnit → TokUnit) : (s.modTok c f).flight = s.flight := rfl
@[simp] theorem State.modTok_departing (s : State) (c : Nat) (f : TokUnit → TokUnit) : (s.modTok c f).departing = s.departing := rfl
@[simp] theorem State.modTok_departSeq (s : State) (c : Nat) (f : TokUnit → TokUnit) : (s.modTok c f).departSeq = s.departSeq := rfl
@[simp] theorem State.modTok_reports (s : State) (c : Nat) (f : TokUnit → TokUnit) : (s.modTok c f).reports = s.reports := rfl
@[simp] theorem State.modTok_ms (s : State) (c : Nat) (f : TokUnit → TokUnit) : (s.modTok c f).ms = s.ms := rfl
@[simp] theorem State.modTok_disp (s : State) (c : Nat) (f : TokUnit → TokUnit) : (s.modTok c f).disp = s.disp := rfl
@[simp] theorem State.modTok_plat (s : State) (c : Nat) (f : TokUnit → TokUnit) : (s.modTok c f).plat = s.plat := rfl
@[simp] theorem State.modTok_gtc (s : State) (c : Nat) (f : TokUnit → TokUnit) : (s.modTok c f).gtc = s.gtc := rfl
@[simp] theorem State.modTok_gtcPs (s : State) (c : Nat) (f : TokUnit → TokUnit) : (s.modTok c f).gtcPs = s.gtcPs := rfl
@[simp] theorem State.modTok_wall (s : State) (c : Nat) (f : TokUnit → TokUnit) : (s.modTok c f).wall = s.wall := rfl
@[simp] theorem State.modTok_wallPs (s : State) (c : Nat) (f : TokUnit → TokUnit) : (s.modTok c f).wallPs = s.wallPs := rfl
@[simp] theorem State.modTok_cur (s : State) (c : Nat) (f : TokUnit → TokUnit) : (s.modTok c f).cur = s.cur := rfl
@[simp] theorem State.modTok_fresh (s : State) (c : Nat) (f : TokUnit → TokUnit) : (s.modTok c f).fresh = s.fresh := rfl
@[simp] theorem State.modTok_scalarFaults (s : State) (c : Nat) (f : TokUnit → TokUnit) : (s.modTok c f).scalarFaults = s.scalarFaults := rfl
@[simp] theorem State.modTok_rowFaults (s : State) (c : Nat) (f : TokUnit → TokUnit) : (s.modTok c f).rowFaults = s.rowFaults := rfl
@[simp] theorem State.modTok_trapSeq (s : State) (c : Nat) (f : TokUnit → TokUnit) : (s.modTok c f).trapSeq = s.trapSeq := rfl
@[simp] theorem State.modTok_outbox (s : State) (c : Nat) (f : TokUnit → TokUnit) : (s.modTok c f).outbox = s.outbox := rfl
@[simp] theorem State.modTok_agenda (s : State) (c : Nat) (f : TokUnit → TokUnit) : (s.modTok c f).agenda = s.agenda := rfl

@[simp] theorem State.modFrm_ctxs (s : State) (c : Nat) (f : FrameUnit → FrameUnit) : (s.modFrm c f).ctxs = s.ctxs := rfl
@[simp] theorem State.modFrm_regions (s : State) (c : Nat) (f : FrameUnit → FrameUnit) : (s.modFrm c f).regions = s.regions := rfl
@[simp] theorem State.modFrm_flight (s : State) (c : Nat) (f : FrameUnit → FrameUnit) : (s.modFrm c f).flight = s.flight := rfl
@[simp] theorem State.modFrm_departing (s : State) (c : Nat) (f : FrameUnit → FrameUnit) : (s.modFrm c f).departing = s.departing := rfl
@[simp] theorem State.modFrm_departSeq (s : State) (c : Nat) (f : FrameUnit → FrameUnit) : (s.modFrm c f).departSeq = s.departSeq := rfl
@[simp] theorem State.modFrm_reports (s : State) (c : Nat) (f : FrameUnit → FrameUnit) : (s.modFrm c f).reports = s.reports := rfl
@[simp] theorem State.modFrm_ms (s : State) (c : Nat) (f : FrameUnit → FrameUnit) : (s.modFrm c f).ms = s.ms := rfl
@[simp] theorem State.modFrm_disp (s : State) (c : Nat) (f : FrameUnit → FrameUnit) : (s.modFrm c f).disp = s.disp := rfl
@[simp] theorem State.modFrm_plat (s : State) (c : Nat) (f : FrameUnit → FrameUnit) : (s.modFrm c f).plat = s.plat := rfl
@[simp] theorem State.modFrm_gtc (s : State) (c : Nat) (f : FrameUnit → FrameUnit) : (s.modFrm c f).gtc = s.gtc := rfl
@[simp] theorem State.modFrm_gtcPs (s : State) (c : Nat) (f : FrameUnit → FrameUnit) : (s.modFrm c f).gtcPs = s.gtcPs := rfl
@[simp] theorem State.modFrm_wall (s : State) (c : Nat) (f : FrameUnit → FrameUnit) : (s.modFrm c f).wall = s.wall := rfl
@[simp] theorem State.modFrm_wallPs (s : State) (c : Nat) (f : FrameUnit → FrameUnit) : (s.modFrm c f).wallPs = s.wallPs := rfl
@[simp] theorem State.modFrm_cur (s : State) (c : Nat) (f : FrameUnit → FrameUnit) : (s.modFrm c f).cur = s.cur := rfl
@[simp] theorem State.modFrm_fresh (s : State) (c : Nat) (f : FrameUnit → FrameUnit) : (s.modFrm c f).fresh = s.fresh := rfl
@[simp] theorem State.modFrm_scalarFaults (s : State) (c : Nat) (f : FrameUnit → FrameUnit) : (s.modFrm c f).scalarFaults = s.scalarFaults := rfl
@[simp] theorem State.modFrm_rowFaults (s : State) (c : Nat) (f : FrameUnit → FrameUnit) : (s.modFrm c f).rowFaults = s.rowFaults := rfl
@[simp] theorem State.modFrm_trapSeq (s : State) (c : Nat) (f : FrameUnit → FrameUnit) : (s.modFrm c f).trapSeq = s.trapSeq := rfl
@[simp] theorem State.modFrm_outbox (s : State) (c : Nat) (f : FrameUnit → FrameUnit) : (s.modFrm c f).outbox = s.outbox := rfl
@[simp] theorem State.modFrm_agenda (s : State) (c : Nat) (f : FrameUnit → FrameUnit) : (s.modFrm c f).agenda = s.agenda := rfl

@[simp] theorem State.modTile_ctxs (s : State) (c : Nat) (f : TileUnit → TileUnit) : (s.modTile c f).ctxs = s.ctxs := rfl
@[simp] theorem State.modTile_regions (s : State) (c : Nat) (f : TileUnit → TileUnit) : (s.modTile c f).regions = s.regions := rfl
@[simp] theorem State.modTile_flight (s : State) (c : Nat) (f : TileUnit → TileUnit) : (s.modTile c f).flight = s.flight := rfl
@[simp] theorem State.modTile_departing (s : State) (c : Nat) (f : TileUnit → TileUnit) : (s.modTile c f).departing = s.departing := rfl
@[simp] theorem State.modTile_departSeq (s : State) (c : Nat) (f : TileUnit → TileUnit) : (s.modTile c f).departSeq = s.departSeq := rfl
@[simp] theorem State.modTile_reports (s : State) (c : Nat) (f : TileUnit → TileUnit) : (s.modTile c f).reports = s.reports := rfl
@[simp] theorem State.modTile_ms (s : State) (c : Nat) (f : TileUnit → TileUnit) : (s.modTile c f).ms = s.ms := rfl
@[simp] theorem State.modTile_disp (s : State) (c : Nat) (f : TileUnit → TileUnit) : (s.modTile c f).disp = s.disp := rfl
@[simp] theorem State.modTile_plat (s : State) (c : Nat) (f : TileUnit → TileUnit) : (s.modTile c f).plat = s.plat := rfl
@[simp] theorem State.modTile_gtc (s : State) (c : Nat) (f : TileUnit → TileUnit) : (s.modTile c f).gtc = s.gtc := rfl
@[simp] theorem State.modTile_gtcPs (s : State) (c : Nat) (f : TileUnit → TileUnit) : (s.modTile c f).gtcPs = s.gtcPs := rfl
@[simp] theorem State.modTile_wall (s : State) (c : Nat) (f : TileUnit → TileUnit) : (s.modTile c f).wall = s.wall := rfl
@[simp] theorem State.modTile_wallPs (s : State) (c : Nat) (f : TileUnit → TileUnit) : (s.modTile c f).wallPs = s.wallPs := rfl
@[simp] theorem State.modTile_cur (s : State) (c : Nat) (f : TileUnit → TileUnit) : (s.modTile c f).cur = s.cur := rfl
@[simp] theorem State.modTile_fresh (s : State) (c : Nat) (f : TileUnit → TileUnit) : (s.modTile c f).fresh = s.fresh := rfl
@[simp] theorem State.modTile_scalarFaults (s : State) (c : Nat) (f : TileUnit → TileUnit) : (s.modTile c f).scalarFaults = s.scalarFaults := rfl
@[simp] theorem State.modTile_rowFaults (s : State) (c : Nat) (f : TileUnit → TileUnit) : (s.modTile c f).rowFaults = s.rowFaults := rfl
@[simp] theorem State.modTile_trapSeq (s : State) (c : Nat) (f : TileUnit → TileUnit) : (s.modTile c f).trapSeq = s.trapSeq := rfl
@[simp] theorem State.modTile_outbox (s : State) (c : Nat) (f : TileUnit → TileUnit) : (s.modTile c f).outbox = s.outbox := rfl
@[simp] theorem State.modTile_agenda (s : State) (c : Nat) (f : TileUnit → TileUnit) : (s.modTile c f).agenda = s.agenda := rfl

@[simp] theorem State.modEng_ctxs (s : State) (c : Nat) (f : Engines → Engines) : (s.modEng c f).ctxs = s.ctxs := rfl
@[simp] theorem State.modEng_regions (s : State) (c : Nat) (f : Engines → Engines) : (s.modEng c f).regions = s.regions := rfl
@[simp] theorem State.modEng_flight (s : State) (c : Nat) (f : Engines → Engines) : (s.modEng c f).flight = s.flight := rfl
@[simp] theorem State.modEng_departing (s : State) (c : Nat) (f : Engines → Engines) : (s.modEng c f).departing = s.departing := rfl
@[simp] theorem State.modEng_departSeq (s : State) (c : Nat) (f : Engines → Engines) : (s.modEng c f).departSeq = s.departSeq := rfl
@[simp] theorem State.modEng_reports (s : State) (c : Nat) (f : Engines → Engines) : (s.modEng c f).reports = s.reports := rfl
@[simp] theorem State.modEng_ms (s : State) (c : Nat) (f : Engines → Engines) : (s.modEng c f).ms = s.ms := rfl
@[simp] theorem State.modEng_disp (s : State) (c : Nat) (f : Engines → Engines) : (s.modEng c f).disp = s.disp := rfl
@[simp] theorem State.modEng_plat (s : State) (c : Nat) (f : Engines → Engines) : (s.modEng c f).plat = s.plat := rfl
@[simp] theorem State.modEng_gtc (s : State) (c : Nat) (f : Engines → Engines) : (s.modEng c f).gtc = s.gtc := rfl
@[simp] theorem State.modEng_gtcPs (s : State) (c : Nat) (f : Engines → Engines) : (s.modEng c f).gtcPs = s.gtcPs := rfl
@[simp] theorem State.modEng_wall (s : State) (c : Nat) (f : Engines → Engines) : (s.modEng c f).wall = s.wall := rfl
@[simp] theorem State.modEng_wallPs (s : State) (c : Nat) (f : Engines → Engines) : (s.modEng c f).wallPs = s.wallPs := rfl
@[simp] theorem State.modEng_cur (s : State) (c : Nat) (f : Engines → Engines) : (s.modEng c f).cur = s.cur := rfl
@[simp] theorem State.modEng_fresh (s : State) (c : Nat) (f : Engines → Engines) : (s.modEng c f).fresh = s.fresh := rfl
@[simp] theorem State.modEng_scalarFaults (s : State) (c : Nat) (f : Engines → Engines) : (s.modEng c f).scalarFaults = s.scalarFaults := rfl
@[simp] theorem State.modEng_rowFaults (s : State) (c : Nat) (f : Engines → Engines) : (s.modEng c f).rowFaults = s.rowFaults := rfl
@[simp] theorem State.modEng_trapSeq (s : State) (c : Nat) (f : Engines → Engines) : (s.modEng c f).trapSeq = s.trapSeq := rfl
@[simp] theorem State.modEng_outbox (s : State) (c : Nat) (f : Engines → Engines) : (s.modEng c f).outbox = s.outbox := rfl
@[simp] theorem State.modEng_agenda (s : State) (c : Nat) (f : Engines → Engines) : (s.modEng c f).agenda = s.agenda := rfl

@[simp] theorem State.modDie_cores (s : State) (d : Nat) (f : Die → Die) : (s.modDie d f).cores = s.cores := rfl
@[simp] theorem State.modDie_ctxs (s : State) (d : Nat) (f : Die → Die) : (s.modDie d f).ctxs = s.ctxs := rfl
@[simp] theorem State.modDie_regions (s : State) (d : Nat) (f : Die → Die) : (s.modDie d f).regions = s.regions := rfl
@[simp] theorem State.modDie_flight (s : State) (d : Nat) (f : Die → Die) : (s.modDie d f).flight = s.flight := rfl
@[simp] theorem State.modDie_departing (s : State) (d : Nat) (f : Die → Die) : (s.modDie d f).departing = s.departing := rfl
@[simp] theorem State.modDie_departSeq (s : State) (d : Nat) (f : Die → Die) : (s.modDie d f).departSeq = s.departSeq := rfl
@[simp] theorem State.modDie_reports (s : State) (d : Nat) (f : Die → Die) : (s.modDie d f).reports = s.reports := rfl
@[simp] theorem State.modDie_ms (s : State) (d : Nat) (f : Die → Die) : (s.modDie d f).ms = s.ms := rfl
@[simp] theorem State.modDie_disp (s : State) (d : Nat) (f : Die → Die) : (s.modDie d f).disp = s.disp := rfl
@[simp] theorem State.modDie_gtc (s : State) (d : Nat) (f : Die → Die) : (s.modDie d f).gtc = s.gtc := rfl
@[simp] theorem State.modDie_gtcPs (s : State) (d : Nat) (f : Die → Die) : (s.modDie d f).gtcPs = s.gtcPs := rfl
@[simp] theorem State.modDie_wall (s : State) (d : Nat) (f : Die → Die) : (s.modDie d f).wall = s.wall := rfl
@[simp] theorem State.modDie_wallPs (s : State) (d : Nat) (f : Die → Die) : (s.modDie d f).wallPs = s.wallPs := rfl
@[simp] theorem State.modDie_cur (s : State) (d : Nat) (f : Die → Die) : (s.modDie d f).cur = s.cur := rfl
@[simp] theorem State.modDie_fresh (s : State) (d : Nat) (f : Die → Die) : (s.modDie d f).fresh = s.fresh := rfl
@[simp] theorem State.modDie_scalarFaults (s : State) (d : Nat) (f : Die → Die) : (s.modDie d f).scalarFaults = s.scalarFaults := rfl
@[simp] theorem State.modDie_rowFaults (s : State) (d : Nat) (f : Die → Die) : (s.modDie d f).rowFaults = s.rowFaults := rfl
@[simp] theorem State.modDie_trapSeq (s : State) (d : Nat) (f : Die → Die) : (s.modDie d f).trapSeq = s.trapSeq := rfl
@[simp] theorem State.modDie_outbox (s : State) (d : Nat) (f : Die → Die) : (s.modDie d f).outbox = s.outbox := rfl
@[simp] theorem State.modDie_agenda (s : State) (d : Nat) (f : Die → Die) : (s.modDie d f).agenda = s.agenda := rfl

@[simp] theorem State.perfCtx_cores (s : State) (i k n : Nat) : (s.perfCtx i k n).cores = s.cores := rfl
@[simp] theorem State.perfCtx_regions (s : State) (i k n : Nat) : (s.perfCtx i k n).regions = s.regions := rfl
@[simp] theorem State.perfCtx_flight (s : State) (i k n : Nat) : (s.perfCtx i k n).flight = s.flight := rfl
@[simp] theorem State.perfCtx_departing (s : State) (i k n : Nat) : (s.perfCtx i k n).departing = s.departing := rfl
@[simp] theorem State.perfCtx_departSeq (s : State) (i k n : Nat) : (s.perfCtx i k n).departSeq = s.departSeq := rfl
@[simp] theorem State.perfCtx_reports (s : State) (i k n : Nat) : (s.perfCtx i k n).reports = s.reports := rfl
@[simp] theorem State.perfCtx_ms (s : State) (i k n : Nat) : (s.perfCtx i k n).ms = s.ms := rfl
@[simp] theorem State.perfCtx_disp (s : State) (i k n : Nat) : (s.perfCtx i k n).disp = s.disp := rfl
@[simp] theorem State.perfCtx_plat (s : State) (i k n : Nat) : (s.perfCtx i k n).plat = s.plat := rfl
@[simp] theorem State.perfCtx_gtc (s : State) (i k n : Nat) : (s.perfCtx i k n).gtc = s.gtc := rfl
@[simp] theorem State.perfCtx_gtcPs (s : State) (i k n : Nat) : (s.perfCtx i k n).gtcPs = s.gtcPs := rfl
@[simp] theorem State.perfCtx_wall (s : State) (i k n : Nat) : (s.perfCtx i k n).wall = s.wall := rfl
@[simp] theorem State.perfCtx_wallPs (s : State) (i k n : Nat) : (s.perfCtx i k n).wallPs = s.wallPs := rfl
@[simp] theorem State.perfCtx_cur (s : State) (i k n : Nat) : (s.perfCtx i k n).cur = s.cur := rfl
@[simp] theorem State.perfCtx_fresh (s : State) (i k n : Nat) : (s.perfCtx i k n).fresh = s.fresh := rfl
@[simp] theorem State.perfCtx_scalarFaults (s : State) (i k n : Nat) : (s.perfCtx i k n).scalarFaults = s.scalarFaults := rfl
@[simp] theorem State.perfCtx_rowFaults (s : State) (i k n : Nat) : (s.perfCtx i k n).rowFaults = s.rowFaults := rfl
@[simp] theorem State.perfCtx_trapSeq (s : State) (i k n : Nat) : (s.perfCtx i k n).trapSeq = s.trapSeq := rfl
@[simp] theorem State.perfCtx_outbox (s : State) (i k n : Nat) : (s.perfCtx i k n).outbox = s.outbox := rfl
@[simp] theorem State.perfCtx_agenda (s : State) (i k n : Nat) : (s.perfCtx i k n).agenda = s.agenda := rfl

@[simp] theorem State.perfCore_ctxs (s : State) (c k n : Nat) : (s.perfCore c k n).ctxs = s.ctxs := rfl
@[simp] theorem State.perfCore_regions (s : State) (c k n : Nat) : (s.perfCore c k n).regions = s.regions := rfl
@[simp] theorem State.perfCore_flight (s : State) (c k n : Nat) : (s.perfCore c k n).flight = s.flight := rfl
@[simp] theorem State.perfCore_departing (s : State) (c k n : Nat) : (s.perfCore c k n).departing = s.departing := rfl
@[simp] theorem State.perfCore_departSeq (s : State) (c k n : Nat) : (s.perfCore c k n).departSeq = s.departSeq := rfl
@[simp] theorem State.perfCore_reports (s : State) (c k n : Nat) : (s.perfCore c k n).reports = s.reports := rfl
@[simp] theorem State.perfCore_ms (s : State) (c k n : Nat) : (s.perfCore c k n).ms = s.ms := rfl
@[simp] theorem State.perfCore_disp (s : State) (c k n : Nat) : (s.perfCore c k n).disp = s.disp := rfl
@[simp] theorem State.perfCore_plat (s : State) (c k n : Nat) : (s.perfCore c k n).plat = s.plat := rfl
@[simp] theorem State.perfCore_gtc (s : State) (c k n : Nat) : (s.perfCore c k n).gtc = s.gtc := rfl
@[simp] theorem State.perfCore_gtcPs (s : State) (c k n : Nat) : (s.perfCore c k n).gtcPs = s.gtcPs := rfl
@[simp] theorem State.perfCore_wall (s : State) (c k n : Nat) : (s.perfCore c k n).wall = s.wall := rfl
@[simp] theorem State.perfCore_wallPs (s : State) (c k n : Nat) : (s.perfCore c k n).wallPs = s.wallPs := rfl
@[simp] theorem State.perfCore_cur (s : State) (c k n : Nat) : (s.perfCore c k n).cur = s.cur := rfl
@[simp] theorem State.perfCore_fresh (s : State) (c k n : Nat) : (s.perfCore c k n).fresh = s.fresh := rfl
@[simp] theorem State.perfCore_scalarFaults (s : State) (c k n : Nat) : (s.perfCore c k n).scalarFaults = s.scalarFaults := rfl
@[simp] theorem State.perfCore_rowFaults (s : State) (c k n : Nat) : (s.perfCore c k n).rowFaults = s.rowFaults := rfl
@[simp] theorem State.perfCore_trapSeq (s : State) (c k n : Nat) : (s.perfCore c k n).trapSeq = s.trapSeq := rfl
@[simp] theorem State.perfCore_outbox (s : State) (c k n : Nat) : (s.perfCore c k n).outbox = s.outbox := rfl
@[simp] theorem State.perfCore_agenda (s : State) (c k n : Nat) : (s.perfCore c k n).agenda = s.agenda := rfl

@[simp] theorem State.draw_cores (s : State) : s.draw.2.cores = s.cores := rfl
@[simp] theorem State.draw_ctxs (s : State) : s.draw.2.ctxs = s.ctxs := rfl
@[simp] theorem State.draw_regions (s : State) : s.draw.2.regions = s.regions := rfl
@[simp] theorem State.draw_flight (s : State) : s.draw.2.flight = s.flight := rfl
@[simp] theorem State.draw_departing (s : State) : s.draw.2.departing = s.departing := rfl
@[simp] theorem State.draw_departSeq (s : State) : s.draw.2.departSeq = s.departSeq := rfl
@[simp] theorem State.draw_reports (s : State) : s.draw.2.reports = s.reports := rfl
@[simp] theorem State.draw_ms (s : State) : s.draw.2.ms = s.ms := rfl
@[simp] theorem State.draw_disp (s : State) : s.draw.2.disp = s.disp := rfl
@[simp] theorem State.draw_plat (s : State) : s.draw.2.plat = s.plat := rfl
@[simp] theorem State.draw_gtc (s : State) : s.draw.2.gtc = s.gtc := rfl
@[simp] theorem State.draw_gtcPs (s : State) : s.draw.2.gtcPs = s.gtcPs := rfl
@[simp] theorem State.draw_wall (s : State) : s.draw.2.wall = s.wall := rfl
@[simp] theorem State.draw_wallPs (s : State) : s.draw.2.wallPs = s.wallPs := rfl
@[simp] theorem State.draw_cur (s : State) : s.draw.2.cur = s.cur := rfl
@[simp] theorem State.draw_scalarFaults (s : State) : s.draw.2.scalarFaults = s.scalarFaults := rfl
@[simp] theorem State.draw_rowFaults (s : State) : s.draw.2.rowFaults = s.rowFaults := rfl
@[simp] theorem State.draw_trapSeq (s : State) : s.draw.2.trapSeq = s.trapSeq := rfl
@[simp] theorem State.draw_outbox (s : State) : s.draw.2.outbox = s.outbox := rfl
@[simp] theorem State.draw_agenda (s : State) : s.draw.2.agenda = s.agenda := rfl
@[simp] theorem State.draw_fresh (s : State) : s.draw.2.fresh = s.fresh + 1 := rfl

@[simp] theorem State.modCore_ctx (s : State) (c : Nat) (f : Core → Core) (x : Nat) : (s.modCore c f).ctx? x = s.ctx? x := rfl
@[simp] theorem State.modCore_region (s : State) (c : Nat) (f : Core → Core) (x : Nat) : (s.modCore c f).region? x = s.region? x := rfl
@[simp] theorem State.modCtx_core (s : State) (i : Nat) (f : Ctx → Ctx) (x : Nat) : (s.modCtx i f).core x = s.core x := rfl
@[simp] theorem State.modCtx_region (s : State) (i : Nat) (f : Ctx → Ctx) (x : Nat) : (s.modCtx i f).region? x = s.region? x := rfl
@[simp] theorem State.modMs_core (s : State) (f : MemSys → MemSys) (x : Nat) : (s.modMs f).core x = s.core x := rfl
@[simp] theorem State.modMs_ctx (s : State) (f : MemSys → MemSys) (x : Nat) : (s.modMs f).ctx? x = s.ctx? x := rfl
@[simp] theorem State.modMs_region (s : State) (f : MemSys → MemSys) (x : Nat) : (s.modMs f).region? x = s.region? x := rfl
@[simp] theorem State.modPlat_core (s : State) (f : Platform → Platform) (x : Nat) : (s.modPlat f).core x = s.core x := rfl
@[simp] theorem State.modPlat_ctx (s : State) (f : Platform → Platform) (x : Nat) : (s.modPlat f).ctx? x = s.ctx? x := rfl
@[simp] theorem State.modPlat_region (s : State) (f : Platform → Platform) (x : Nat) : (s.modPlat f).region? x = s.region? x := rfl
@[simp] theorem State.modDisp_core (s : State) (f : Dispatcher → Dispatcher) (x : Nat) : (s.modDisp f).core x = s.core x := rfl
@[simp] theorem State.modDisp_ctx (s : State) (f : Dispatcher → Dispatcher) (x : Nat) : (s.modDisp f).ctx? x = s.ctx? x := rfl
@[simp] theorem State.modDisp_region (s : State) (f : Dispatcher → Dispatcher) (x : Nat) : (s.modDisp f).region? x = s.region? x := rfl
@[simp] theorem State.modRegion_core (s : State) (h : Nat) (f : Region → Region) (x : Nat) : (s.modRegion h f).core x = s.core x := rfl
@[simp] theorem State.modRegion_ctx (s : State) (h : Nat) (f : Region → Region) (x : Nat) : (s.modRegion h f).ctx? x = s.ctx? x := rfl
@[simp] theorem State.send_core (s : State) (m : Sent) (x : Nat) : (s.send m).core x = s.core x := rfl
@[simp] theorem State.send_ctx (s : State) (m : Sent) (x : Nat) : (s.send m).ctx? x = s.ctx? x := rfl
@[simp] theorem State.send_region (s : State) (m : Sent) (x : Nat) : (s.send m).region? x = s.region? x := rfl
@[simp] theorem State.modRegs_core (s : State) (i : Nat) (f : CtxRegs → CtxRegs) (x : Nat) : (s.modRegs i f).core x = s.core x := rfl
@[simp] theorem State.modRegs_region (s : State) (i : Nat) (f : CtxRegs → CtxRegs) (x : Nat) : (s.modRegs i f).region? x = s.region? x := rfl
@[simp] theorem State.modCoreRegs_ctx (s : State) (c : Nat) (f : CoreRegs → CoreRegs) (x : Nat) : (s.modCoreRegs c f).ctx? x = s.ctx? x := rfl
@[simp] theorem State.modCoreRegs_region (s : State) (c : Nat) (f : CoreRegs → CoreRegs) (x : Nat) : (s.modCoreRegs c f).region? x = s.region? x := rfl
@[simp] theorem State.modTok_ctx (s : State) (c : Nat) (f : TokUnit → TokUnit) (x : Nat) : (s.modTok c f).ctx? x = s.ctx? x := rfl
@[simp] theorem State.modTok_region (s : State) (c : Nat) (f : TokUnit → TokUnit) (x : Nat) : (s.modTok c f).region? x = s.region? x := rfl
@[simp] theorem State.modFrm_ctx (s : State) (c : Nat) (f : FrameUnit → FrameUnit) (x : Nat) : (s.modFrm c f).ctx? x = s.ctx? x := rfl
@[simp] theorem State.modFrm_region (s : State) (c : Nat) (f : FrameUnit → FrameUnit) (x : Nat) : (s.modFrm c f).region? x = s.region? x := rfl
@[simp] theorem State.modTile_ctx (s : State) (c : Nat) (f : TileUnit → TileUnit) (x : Nat) : (s.modTile c f).ctx? x = s.ctx? x := rfl
@[simp] theorem State.modTile_region (s : State) (c : Nat) (f : TileUnit → TileUnit) (x : Nat) : (s.modTile c f).region? x = s.region? x := rfl
@[simp] theorem State.modEng_ctx (s : State) (c : Nat) (f : Engines → Engines) (x : Nat) : (s.modEng c f).ctx? x = s.ctx? x := rfl
@[simp] theorem State.modEng_region (s : State) (c : Nat) (f : Engines → Engines) (x : Nat) : (s.modEng c f).region? x = s.region? x := rfl
@[simp] theorem State.modDie_core (s : State) (d : Nat) (f : Die → Die) (x : Nat) : (s.modDie d f).core x = s.core x := rfl
@[simp] theorem State.modDie_ctx (s : State) (d : Nat) (f : Die → Die) (x : Nat) : (s.modDie d f).ctx? x = s.ctx? x := rfl
@[simp] theorem State.modDie_region (s : State) (d : Nat) (f : Die → Die) (x : Nat) : (s.modDie d f).region? x = s.region? x := rfl
@[simp] theorem State.perfCtx_core (s : State) (i k n : Nat) (x : Nat) : (s.perfCtx i k n).core x = s.core x := rfl
@[simp] theorem State.perfCtx_region (s : State) (i k n : Nat) (x : Nat) : (s.perfCtx i k n).region? x = s.region? x := rfl
@[simp] theorem State.perfCore_ctx (s : State) (c k n : Nat) (x : Nat) : (s.perfCore c k n).ctx? x = s.ctx? x := rfl
@[simp] theorem State.perfCore_region (s : State) (c k n : Nat) (x : Nat) : (s.perfCore c k n).region? x = s.region? x := rfl

/-- An update of a core is read back on that core and on no other. -/
theorem State.core_modCore_same (s : State) (c : Nat) (f : Core → Core) (h : c < s.cores.length) : (s.modCore c f).core c = f (s.core c) := by
  simp [State.core, State.modCore, h]

theorem State.core_modCore_other (s : State) (c k : Nat) (f : Core → Core) (h : k ≠ c) : (s.modCore c f).core k = s.core k := by
  simp [State.core, State.modCore, Ne.symm h]

/-- An update of a context that keeps its id is read back, and leaves every other context. -/
theorem State.ctx_modCtx_other (s : State) (i k : Nat) (f : Ctx → Ctx) (hf : ∀ c, (f c).id = c.id) (h : k ≠ i) :
    (s.modCtx i f).ctx? k = s.ctx? k := by
  unfold State.ctx? State.modCtx
  simp only [List.find?_map]
  have e : ((fun c : Ctx => c.id == k) ∘ fun c => if c.id == i then f c else c) = fun c => c.id == k := by
    funext c; simp only [Function.comp]; split <;> simp [hf]
  rw [e]
  cases hc : s.ctxs.find? fun c => c.id == k with
  | none => rfl
  | some c =>
    have := List.find?_some hc
    simp only [beq_iff_eq] at this
    simp [this, h]

theorem State.ctx_modCtx_same (s : State) (i : Nat) (f : Ctx → Ctx) (hf : ∀ c, (f c).id = c.id) :
    (s.modCtx i f).ctx? i = (s.ctx? i).map f := by
  unfold State.ctx? State.modCtx
  simp only [List.find?_map]
  have e : ((fun c : Ctx => c.id == i) ∘ fun c => if c.id == i then f c else c) = fun c => c.id == i := by
    funext c; simp only [Function.comp]; split <;> simp [hf]
  rw [e]
  cases hc : s.ctxs.find? fun c => c.id == i with
  | none => rfl
  | some c =>
    have := List.find?_some hc
    simp only [beq_iff_eq] at this
    simp [this]

end Sys2Proof.Machine
end

