-- ==== Sys2Proof/Laws/Ops.lean ====
section
/-! SUPPORT. What the shared operations do and what they leave alone, said once each: emission and release of tokens, records,
reads and writes of physical memory, trace records, requests and engine commands. -/

namespace Sys2Proof.Machine

/-! ## Operations on tokens and tiles leave memory and the Dispatcher alone -/

/-- What an operation on tokens, tiles, contexts and cores does not touch. -/
structure State.Quiet (s t : State) : Prop where
  ms : t.ms = s.ms
  disp : t.disp = s.disp
  gtc : t.gtc = s.gtc
  wall : t.wall = s.wall
  cur : t.cur = s.cur
  fresh : t.fresh = s.fresh
  agenda : t.agenda = s.agenda
  reports : t.reports = s.reports

theorem State.Quiet.rfl' {s : State} : State.Quiet s s := ⟨rfl, rfl, rfl, rfl, rfl, rfl, rfl, rfl⟩

theorem State.Quiet.trans {s t u : State} (h : State.Quiet s t) (k : State.Quiet t u) : State.Quiet s u :=
  ⟨k.ms.trans h.ms, k.disp.trans h.disp, k.gtc.trans h.gtc, k.wall.trans h.wall, k.cur.trans h.cur,
    k.fresh.trans h.fresh, k.agenda.trans h.agenda, k.reports.trans h.reports⟩

theorem State.Quiet.foldl {α : Type} (f : State → α → State) (h : ∀ s x, State.Quiet s (f s x)) (l : List α) (s : State) :
    State.Quiet s (l.foldl f s) := by
  induction l generalizing s with
  | nil => exact .rfl'
  | cons x l ih => exact (h s x).trans (ih (f s x))

theorem State.quiet_modCore (s : State) (c : Nat) (f : Core → Core) : State.Quiet s (s.modCore c f) := ⟨rfl, rfl, rfl, rfl, rfl, rfl, rfl, rfl⟩
theorem State.quiet_modCtx (s : State) (i : Nat) (f : Ctx → Ctx) : State.Quiet s (s.modCtx i f) := ⟨rfl, rfl, rfl, rfl, rfl, rfl, rfl, rfl⟩
theorem State.quiet_modRegs (s : State) (i : Nat) (f : CtxRegs → CtxRegs) : State.Quiet s (s.modRegs i f) := ⟨rfl, rfl, rfl, rfl, rfl, rfl, rfl, rfl⟩
theorem State.quiet_modCoreRegs (s : State) (c : Nat) (f : CoreRegs → CoreRegs) : State.Quiet s (s.modCoreRegs c f) := ⟨rfl, rfl, rfl, rfl, rfl, rfl, rfl, rfl⟩
theorem State.quiet_modTile (s : State) (c : Nat) (f : TileUnit → TileUnit) : State.Quiet s (s.modTile c f) := ⟨rfl, rfl, rfl, rfl, rfl, rfl, rfl, rfl⟩
theorem State.quiet_modFrm (s : State) (c : Nat) (f : FrameUnit → FrameUnit) : State.Quiet s (s.modFrm c f) := ⟨rfl, rfl, rfl, rfl, rfl, rfl, rfl, rfl⟩
theorem State.quiet_modTok (s : State) (c : Nat) (f : TokUnit → TokUnit) : State.Quiet s (s.modTok c f) := ⟨rfl, rfl, rfl, rfl, rfl, rfl, rfl, rfl⟩
theorem State.quiet_modEng (s : State) (c : Nat) (f : Engines → Engines) : State.Quiet s (s.modEng c f) := ⟨rfl, rfl, rfl, rfl, rfl, rfl, rfl, rfl⟩
theorem State.quiet_modRegion (s : State) (h : Nat) (f : Region → Region) : State.Quiet s (s.modRegion h f) := ⟨rfl, rfl, rfl, rfl, rfl, rfl, rfl, rfl⟩
theorem State.quiet_perfCtx (s : State) (i k n : Nat) : State.Quiet s (s.perfCtx i k n) := ⟨rfl, rfl, rfl, rfl, rfl, rfl, rfl, rfl⟩
theorem State.quiet_perfCore (s : State) (c k n : Nat) : State.Quiet s (s.perfCore c k n) := ⟨rfl, rfl, rfl, rfl, rfl, rfl, rfl, rfl⟩
theorem State.quiet_send (s : State) (m : Sent) : State.Quiet s (s.send m) := ⟨rfl, rfl, rfl, rfl, rfl, rfl, rfl, rfl⟩
theorem State.quiet_modTileIdx (s : State) (c i : Nat) (f : Tile → Tile) : State.Quiet s (s.modTileIdx c i f) := ⟨rfl, rfl, rfl, rfl, rfl, rfl, rfl, rfl⟩
theorem State.quiet_freeIdx (s : State) (c i : Nat) : State.Quiet s (s.freeIdx c i) := ⟨rfl, rfl, rfl, rfl, rfl, rfl, rfl, rfl⟩
theorem State.quiet_modFrame (s : State) (c n : Nat) (f : Frame → Frame) : State.Quiet s (s.modFrame c n f) := ⟨rfl, rfl, rfl, rfl, rfl, rfl, rfl, rfl⟩
theorem State.quiet_record (s : State) (c st : Nat) : State.Quiet s (s.record c st) := ⟨rfl, rfl, rfl, rfl, rfl, rfl, rfl, rfl⟩
theorem State.quiet_modEngRec (s : State) (c i : Nat) (f : Eng → Eng) : State.Quiet s (s.modEngRec c i f) := ⟨rfl, rfl, rfl, rfl, rfl, rfl, rfl, rfl⟩
theorem State.quiet_dropEng (s : State) (c i : Nat) : State.Quiet s (s.dropEng c i) := ⟨rfl, rfl, rfl, rfl, rfl, rfl, rfl, rfl⟩

theorem State.quiet_raise (s : State) (c f : Nat) : State.Quiet s (s.raise c f) := by
  unfold State.raise
  split
  · exact .rfl'
  · exact quiet_modRegs ..

theorem State.quiet_modDie (s : State) (d : Nat) (f : Die → Die) : State.Quiet s (s.modDie d f) := ⟨rfl, rfl, rfl, rfl, rfl, rfl, rfl, rfl⟩

theorem State.quiet_changeRefs (s : State) (c i up down : Nat) : State.Quiet s (s.changeRefs c i up down) := by
  unfold State.changeRefs
  split
  · exact .rfl'
  · dsimp only
    split
    · exact (quiet_modTileIdx ..).trans (quiet_modRegs ..)
    · exact quiet_modTileIdx ..

theorem State.quiet_addRefs (s : State) (c : Nat) (h : Word) (up down : Nat) : State.Quiet s (s.addRefs c h up down) := by
  unfold State.addRefs
  split
  · exact .rfl'
  · exact quiet_changeRefs ..

theorem State.quiet_sweepIdx (s : State) (c i : Nat) : State.Quiet s (s.sweepIdx c i) := by
  unfold State.sweepIdx
  split
  · exact .rfl'
  · split
    · dsimp only
      split
      · exact quiet_freeIdx ..
      · split
        · split
          · exact ((quiet_freeIdx ..).trans (quiet_changeRefs ..)).trans (quiet_freeIdx ..)
          · exact (quiet_freeIdx ..).trans (quiet_changeRefs ..)
        · exact (quiet_freeIdx ..).trans (quiet_changeRefs ..)
    · exact .rfl'

theorem State.quiet_sweepTile (s : State) (c : Nat) (h : Word) : State.Quiet s (s.sweepTile c h) := by
  unfold State.sweepTile
  split
  · exact quiet_sweepIdx ..
  · exact .rfl'

/-- R95: releasing an operand changes reference counts and what they free. -/
theorem State.quiet_release (s : State) (c : Nat) (t : Tok) : State.Quiet s (s.release c t) := by
  unfold State.release
  split
  · exact (quiet_addRefs ..).trans (quiet_sweepTile ..)
  · exact .rfl'

/-- A scalar operand has no reference to release. -/
theorem State.release_scalar (s : State) (c : Nat) (t : Tok) (h : t.kind ≠ kTile) : s.release c t = s := by
  simp [State.release, h]

theorem State.releases_scalar (l : List Tok) (s : State) (c : Nat) (h : ∀ x ∈ l, x.kind ≠ kTile) :
    l.foldl (fun s t => s.release c t) s = s := by
  induction l with
  | nil => rfl
  | cons x l ih =>
    rw [List.foldl_cons, State.release_scalar s c x (h x (by simp))]
    exact ih fun y hy => h y (by simp [hy])

/-- R238: of the rest of the machine RAS_INJECT changes only its own count. -/
theorem State.inject2_spec (s : State) (c : Nat) (q : QTok) : State.Quiet s (s.inject2 c q).2 ∧ (s.inject2 c q).2.ctxs = s.ctxs ∧
    (s.inject2 c q).2.outbox = s.outbox ∧ (s.inject2 c q).2.flight = s.flight ∧ (s.inject2 c q).2.plat = s.plat ∧
    { (s.inject2 c q).1 with tok := q.tok } = q := by
  unfold State.inject2
  dsimp only
  split
  · exact ⟨⟨rfl, rfl, rfl, rfl, rfl, rfl, rfl, rfl⟩, rfl, rfl, rfl, rfl, rfl⟩
  · exact ⟨.rfl', rfl, rfl, rfl, rfl, rfl⟩

/-- R97: a token sent stands behind those in flight; of the rest only a phase count, or the count of RAS_INJECT, changes. -/
theorem State.push_spec (s : State) (c : Nat) (q : QTok) : State.Quiet s (s.push c q) ∧ (s.push c q).ctxs = s.ctxs ∧
    (s.push c q).outbox = s.outbox ∧ (s.push c q).plat = s.plat ∧
    ∃ q', (s.push c q).flight = s.flight ++ [q'] ∧ { q' with tok := q.tok } = q := by
  obtain ⟨h1, h2, h3, h4, h5, h6⟩ := State.inject2_spec s c q
  have key : ∀ u : State, State.Quiet s u → u.ctxs = s.ctxs → u.outbox = s.outbox → u.flight = s.flight → u.plat = s.plat →
      let v : State := { u with flight := u.flight ++ [(s.inject2 c q).1] }
      State.Quiet s v ∧ v.ctxs = s.ctxs ∧ v.outbox = s.outbox ∧ v.plat = s.plat ∧
        ∃ q', v.flight = s.flight ++ [q'] ∧ { q' with tok := q.tok } = q := by
    intro u a b d e g
    exact ⟨a.trans ⟨rfl, rfl, rfl, rfl, rfl, rfl, rfl, rfl⟩, b, d, g, _, by rw [← e], h6⟩
  unfold State.push
  dsimp only
  split
  · split
    · exact key _ h1 h2 h3 h4 h5
    · exact key _ (h1.trans (quiet_modRegion ..)) h2 h3 h4 h5
  · exact key _ h1 h2 h3 h4 h5

theorem State.quiet_push (s : State) (c : Nat) (q : QTok) : State.Quiet s (s.push c q) := (State.push_spec s c q).1

theorem State.quiet_pushOut (s : State) (c : Nat) (q : QTok) (pkg : Nat) : State.Quiet s (s.pushOut c q pkg) := by
  unfold State.pushOut
  dsimp only
  split
  · exact (State.inject2_spec s c q).1.trans ⟨rfl, rfl, rfl, rfl, rfl, rfl, rfl, rfl⟩
  · exact (State.inject2_spec s c q).1.trans (quiet_send ..)

theorem State.quiet_countUe (s : State) (d : Nat) : State.Quiet s (s.countUe d) := quiet_modDie ..

theorem State.quiet_countErrs (s : State) (d ces ues : Nat) : State.Quiet s (s.countErrs d ces ues) :=
  (State.Quiet.foldl _ (fun _ _ => quiet_modDie ..) _ s).trans (State.Quiet.foldl _ (fun s _ => quiet_countUe s _) _ _)

/-- R408: reading granules counts what it finds, and nothing else changes but the count of RAS_INJECT. -/
theorem State.quiet_readGrans (s : State) (c : Nat) (b : Tile) (gs : List Nat) : State.Quiet s (s.readGrans c b gs).2 := by
  have take : ∀ k : Nat, State.Quiet s (if k == 0 then s else s.modCoreRegs c fun x => { x with rasCount := x.rasCount - k }) := by
    intro k
    split
    · exact .rfl'
    · exact quiet_modCoreRegs ..
  exact (take _).trans (quiet_countErrs ..)

theorem State.quiet_readRows (s : State) (c : Nat) (t : Tile) (r n : Nat) : State.Quiet s (s.readRows c t r n).2 := quiet_readGrans ..

/-- R137: the departure of a tile is noted, and what its reading finds is counted. -/
theorem State.quiet_depart (s : State) (site : Site) (q : QTok) : State.Quiet s (s.depart site q).2 := by
  unfold State.depart
  split
  · exact .rfl'
  · split
    · exact ⟨rfl, rfl, rfl, rfl, rfl, rfl, rfl, rfl⟩
    · exact .rfl'

/-- A token that is no handle leaves alone. -/
theorem State.depart_scalar (s : State) (site : Site) (q : QTok) (h : q.tok.kind ≠ kTile) : s.depart site q = (q, s) := by
  simp [State.depart, h]

theorem State.quiet_toInport (s : State) (site : Site) (lat : Nat) (t : Tok) (pkg core iport cid route stream : Nat) :
    State.Quiet s (s.toInport site lat t pkg core iport cid route stream) := by
  unfold State.toInport
  dsimp only
  split
  · exact quiet_push ..
  · split
    · exact (quiet_depart ..).trans (quiet_push ..)
    · exact (quiet_depart ..).trans (quiet_pushOut ..)

/-- R25, R49: an emission puts tokens in flight, or sends them to other packages. -/
theorem State.quiet_emitAs (s : State) (site : Site) (lat stream : Nat) (d : Dest) (t : Tok) :
    State.Quiet s (s.emitAs site lat stream d t) := by
  unfold State.emitAs
  split
  · exact .rfl'
  · exact quiet_push ..
  · exact State.Quiet.foldl _ (fun _ _ => quiet_toInport ..) _ s

theorem State.emitAs_none (s : State) (site : Site) (lat stream : Nat) (t : Tok) : s.emitAs site lat stream .none t = s := rfl

/-- R95: what a firing emits and the change of the references of the tiles that it names. -/
theorem State.quiet_settle (s : State) (site : Site) (lat stream : Nat) (ems : List (Dest × Tok)) (used : List Tok) :
    State.Quiet s (s.settle site lat stream ems used) := by
  unfold State.settle
  dsimp only
  refine State.Quiet.trans (State.Quiet.foldl _ (fun s (x : Dest × Tok) => quiet_emitAs s site lat stream x.1 x.2) ems s) ?_
  refine State.Quiet.trans ?_ (State.Quiet.foldl _ (fun s h => quiet_sweepTile s site.core h) _ _)
  exact State.Quiet.foldl _ (fun s h => quiet_addRefs s site.core h _ _) _ _

theorem State.quiet_emitAll (s : State) (site : Site) (lat stream : Nat) (ems : List (Dest × Tok)) :
    State.Quiet s (s.emitAll site lat stream ems) := quiet_settle ..

/-- R95: where a firing neither emits nor consumes a handle, its emissions are all that it does. -/
theorem State.settle_scalar (s : State) (site : Site) (lat stream : Nat) (ems : List (Dest × Tok)) (used : List Tok)
    (h : ∀ e ∈ ems, e.2.kind ≠ kTile) (k : ∀ t ∈ used, t.kind ≠ kTile) :
    s.settle site lat stream ems used = ems.foldl (fun s e => s.emitAs site lat stream e.1 e.2) s := by
  have a : ems.filter (fun e => e.2.kind == kTile) = [] := List.filter_eq_nil_iff.mpr (by simpa using h)
  have b : used.filter (fun t => t.kind == kTile) = [] := List.filter_eq_nil_iff.mpr (by simpa using k)
  simp only [State.settle, a, b]
  rfl

/-- R26, R95, R239: a firing that finishes at a node that is not traced. -/
theorem State.quiet_finish (s : State) (p : Par) (lat : Nat) (ems : List (Dest × Tok)) (used : List Tok)
    (h : ((s.settle s.cur.site lat (s.resultStream s.cur.site) ems used).perfCtx s.cur.site.ctx 0x00 1).traced s.cur.site p.trcf = false) :
    State.Quiet s (s.finish p lat ems used) := by
  unfold State.finish
  rw [if_neg (by rw [h]; decide)]
  exact (quiet_settle ..).trans (quiet_perfCtx ..)

/-- R94: what a firing answers is that of its effect, or of forwarding the first poison or EOS. -/
theorem State.firing_next {s t : State} {p : Par} {lat : Nat} {ops : List Tok} {k : State → State}
    (h : s.firing p lat ops k = .next t) :
    (badInput ops = none ∧ t = k s) ∨ ∃ x, badInput ops = some x ∧ t = s.finish p lat (spread p (carryTok s.cur.site x)) ops := by
  unfold State.firing at h
  split at h
  · exact .inr ⟨_, by assumption, (Host.Outcome.next.inj h).symm⟩
  · exact .inl ⟨by assumption, (Host.Outcome.next.inj h).symm⟩

theorem State.firing_clean {s : State} {p : Par} {lat : Nat} {ops : List Tok} {k : State → State} (h : badInput ops = none) :
    s.firing p lat ops k = .next (k s) := by
  simp [State.firing, h]

/-! ## Tags and records -/

theorem State.quiet_nextTag (s : State) (ctx core n : Nat) : State.Quiet s (s.nextTag ctx core n).2 := by
  unfold State.nextTag
  split
  · exact .rfl'
  · exact quiet_modCtx ..

theorem State.quiet_sendOut (s : State) (r : Req) : State.Quiet s (s.sendOut r) :=
  State.Quiet.foldl _ (fun s _ => quiet_send s _) _ s

/-- R204, R366: issuing a request adds one entry behind the others and touches nothing else of the memory system. -/
theorem State.issue_ms (s : State) (r : Req) : ∃ r', (s.issue r).ms = { s.ms with reqs := s.ms.reqs ++ [r'], reqSeq := s.ms.reqSeq + 1 } ∧
    r'.pieces = r.pieces ∧ r'.kind = r.kind ∧ r'.site = r.site := by
  have q : ∀ (c : Prop) [Decidable c] (x : State) (y : Req), (if c then x.sendOut y else x).ms = x.ms := by
    intro c _ x y
    split
    · exact (quiet_sendOut ..).ms
    · rfl
  have h := (quiet_nextTag s r.site.ctx r.site.core 0).ms
  unfold State.issue
  rw [q]
  simp only [State.perfCtx_ms, State.modMs_ms, h]
  exact ⟨_, rfl, rfl, rfl, rfl⟩

/-! ## Physical memory keeps its canonical form -/

theorem State.memInv_foldl {α : Type} (f : State → α → State) (h : ∀ s x, Safety.MemInv s → Safety.MemInv (f s x)) (l : List α)
    (s : State) (hs : Safety.MemInv s) : Safety.MemInv (l.foldl f s) := by
  induction l generalizing s with
  | nil => exact hs
  | cons x l ih => exact ih (f s x) (h s x hs)

theorem State.Quiet.memInv {s t : State} (q : State.Quiet s t) (h : Safety.MemInv s) : Safety.MemInv t := by
  unfold Safety.MemInv at *
  rw [q.ms]
  exact h

theorem State.sectorRead_mem (s : State) (sec tag : Nat) : (s.sectorRead sec tag).ms.mem = s.ms.mem := by
  unfold State.sectorRead
  dsimp only
  repeat' split
  all_goals rfl

theorem State.sectorReads_mem (l : List Nat) (tag : Nat) (s : State) :
    (l.foldl (fun s x => s.sectorRead x tag) s).ms.mem = s.ms.mem := by
  induction l generalizing s with
  | nil => rfl
  | cons x l ih => rw [List.foldl_cons, ih, State.sectorRead_mem]

theorem State.useStaged_mem (s : State) (a n : Nat) : (s.useStaged a n).ms.mem = s.ms.mem := by
  have key : ∀ (l : List (Nat × Bool × Nat)) (s : State), (l.foldl (fun s g =>
      let d := s.draw
      d.2.perfCore g.2.2 (if d.1 % 2 == 0 then 0x09 else 0x0A) 1) s).ms.mem = s.ms.mem := by
    intro l
    induction l with
    | nil => intro s; rfl
    | cons g l ih => intro s; rw [List.foldl_cons, ih]; rfl
  exact key _ s

/-- R335, R406: a read event changes no byte. -/
theorem State.readPhys_mem (s : State) (a n tag key : Nat) : (s.readPhys a n tag key).2.2.ms.mem = s.ms.mem := by
  unfold State.readPhys
  dsimp only
  rw [State.useStaged_mem, State.sectorReads_mem]

theorem State.dropStaged_mem (s : State) (a n : Nat) : (s.dropStaged a n).ms.mem = s.ms.mem := by
  have key : ∀ (l : List (Nat × Bool × Nat)) (s : State),
      (l.foldl (fun s g => if g.2.1 then s else s.perfCore g.2.2 0x0B 1) s).ms.mem = s.ms.mem := by
    intro l
    induction l with
    | nil => intro s; rfl
    | cons g l ih =>
      intro s
      rw [List.foldl_cons, ih]
      split <;> rfl
  exact key _ s

theorem State.memInv_writeSector (s : State) (sec a : Nat) (bs : List Byte) (tag key : Nat) (h : Safety.MemInv s) :
    Safety.MemInv (s.writeSector sec a bs tag key).2 := by
  unfold State.writeSector Safety.MemInv at *
  dsimp only
  split
  · exact Memory.wf_setMany _ _ _ h
  · split
    · rw [State.sectorRead_mem]
      exact h
    · simp only [State.modMs_ms, State.sectorRead_mem]
      split
      · exact Memory.wf_setMany _ _ _ (Memory.wf_setMany _ _ _ h)
      · exact Memory.wf_setMany _ _ _ h

/-- A write event keeps the canonical form, whether it succeeds or fails. -/
theorem State.memInv_writePhys (s : State) (a : Nat) (bs : List Byte) (tag key : Nat) (h : Safety.MemInv s) :
    Safety.MemInv (s.writePhys a bs tag key).2 := by
  have key' : ∀ (l : List Nat) (r : Nat × State), Safety.MemInv r.2 → Safety.MemInv (l.foldl (fun r sec =>
      let lo := max a (sec * 32)
      let hi := min (a + bs.length) (sec * 32 + 32)
      let w := r.2.writeSector sec lo ((bs.drop (lo - a)).take (hi - lo)) tag key
      (if r.1 == 0 then w.1 else r.1, w.2)) r).2 := by
    intro l
    induction l with
    | nil => intro r hr; exact hr
    | cons x l ih => intro r hr; exact ih _ (State.memInv_writeSector _ _ _ _ _ _ hr)
  have h0 : Safety.MemInv (s.dropStaged a bs.length) := by
    unfold Safety.MemInv at *
    rw [State.dropStaged_mem]
    exact h
  exact key' _ (0, s.dropStaged a bs.length) h0

theorem State.quiet_devSend (s : State) (site : Site) (p : Piece) (pa : Nat) : (s.devSend site p pa).ms.mem = s.ms.mem := rfl

theorem State.memInv_devSend (s : State) (site : Site) (p : Piece) (pa : Nat) (h : Safety.MemInv s) :
    Safety.MemInv (s.devSend site p pa) := by
  unfold Safety.MemInv at *
  rw [State.quiet_devSend]
  exact h

/-- R396: the device's own write at an address operand. -/
theorem State.memInv_devPut (s : State) (site : Site) (a : Word) (bs : List Byte) (h : Safety.MemInv s) :
    Safety.MemInv (s.devPut site a bs) := by
  unfold State.devPut
  split
  · refine State.memInv_foldl _ (fun s p hs => ?_) _ s h
    dsimp only
    split
    · split
      · exact State.memInv_writePhys _ _ _ _ _ hs
      · exact State.memInv_devSend _ _ _ _ hs
    · exact hs
  · exact h

theorem State.memInv_devAdd (s : State) (site : Site) (a : Word) (n w : Nat) (h : Safety.MemInv s) :
    Safety.MemInv (s.devAdd site a n w) := by
  unfold State.devAdd
  split
  · split
    · split
      · exact State.memInv_writePhys _ _ _ _ _ h
      · exact State.memInv_devSend _ _ _ _ h
    · exact h
  · exact h

theorem State.memInv_devGet (s : State) (site : Site) (a : Word) (h : Safety.MemInv s) : Safety.MemInv (s.devGet site a).2 := by
  unfold State.devGet
  split
  · split
    · split
      · exact h
      · exact h
    · exact h
  · exact h

theorem State.memInv_traceWrite (s : State) (site : Site) (typ delta : Nat) (w1 w2 w3 : Word) (h : Safety.MemInv s) :
    Safety.MemInv (s.traceWrite site typ delta w1 w2 w3).2 := by
  unfold State.traceWrite
  split
  · exact h
  · dsimp only
    have k (a b c : Word) := State.memInv_devGet _ site c (State.memInv_devGet _ site b (State.memInv_devGet s site a h))
    split
    · exact (State.quiet_perfCtx ..).memInv (State.memInv_devAdd _ _ _ _ _ (k ..))
    · exact State.memInv_devPut _ _ _ _ (State.memInv_devAdd _ _ _ _ _ (k ..))

theorem State.memInv_gtcRec (s : State) (core ctx : Nat) (h : Safety.MemInv s) : Safety.MemInv (s.gtcRec core ctx) := by
  unfold State.gtcRec
  dsimp only
  split
  · exact (State.quiet_modCore ..).memInv (State.memInv_traceWrite _ _ _ _ _ _ _ h)
  · exact State.memInv_traceWrite _ _ _ _ _ _ _ h

theorem State.memInv_traceRec (s : State) (site : Site) (typ : Nat) (w1 w2 w3 : Word) (h : Safety.MemInv s) :
    Safety.MemInv (s.traceRec site typ w1 w2 w3) := by
  unfold State.traceRec
  split
  · exact h
  · split
    · split
      · exact (State.quiet_perfCtx ..).memInv h
      · exact h
    · have k : Safety.MemInv (if s.gtcDue site.core site.ctx = true then s.gtcRec site.core site.ctx else s) := by
        split
        · exact State.memInv_gtcRec _ _ _ h
        · exact h
      revert k
      generalize (if s.gtcDue site.core site.ctx = true then s.gtcRec site.core site.ctx else s) = u
      intro k
      dsimp only
      split
      · exact (State.quiet_perfCtx ..).memInv (State.memInv_devAdd _ _ _ _ _ k)
      · split
        · exact (State.quiet_modCore ..).memInv (State.memInv_traceWrite _ _ _ _ _ _ _ k)
        · exact State.memInv_traceWrite _ _ _ _ _ _ _ k

theorem State.memInv_finish (s : State) (p : Par) (lat : Nat) (ems : List (Dest × Tok)) (used : List Tok) (h : Safety.MemInv s) :
    Safety.MemInv (s.finish p lat ems used) := by
  unfold State.finish
  dsimp only
  have k := ((State.quiet_settle s s.cur.site lat (s.resultStream s.cur.site) ems used).trans (State.quiet_perfCtx _ s.cur.site.ctx 0x00 1)).memInv h
  split
  · exact State.memInv_traceRec _ _ _ _ _ _ k
  · exact k

theorem State.memInv_failing (s : State) (p : Par) (lat st : Nat) (ops : List Tok) (h : Safety.MemInv s) :
    Safety.MemInv (s.failing p lat st ops) := State.memInv_finish _ _ _ _ _ h

theorem State.memInv_issue (s : State) (r : Req) (h : Safety.MemInv s) : Safety.MemInv (s.issue r) := by
  obtain ⟨r', hr, -⟩ := State.issue_ms s r
  unfold Safety.MemInv at *
  rw [hr]
  exact h

theorem State.memInv_command (s : State) (p : Par) (e : Eng) (h : Safety.MemInv s) : Safety.MemInv (s.command p e) := by
  unfold State.command
  dsimp only
  have k := (((State.quiet_nextTag s s.cur.site.ctx s.cur.site.core e.tagN).memInv h))
  split
  · exact State.memInv_traceRec _ _ _ _ _ _ k
  · exact k

theorem State.memInv_engStart (s : State) (core idx : Nat) (h : Safety.MemInv s) : Safety.MemInv (s.engStart core idx) := by
  unfold State.engStart
  split
  · exact h
  · dsimp only
    split
    · exact State.memInv_traceRec _ _ _ _ _ _ h
    · exact h

theorem State.memInv_engEnd (s : State) (core idx st : Nat) (h : Safety.MemInv s) : Safety.MemInv (s.engEnd core idx st) := by
  unfold State.engEnd
  split
  · exact h
  · dsimp only
    refine (State.quiet_dropEng ..).memInv ?_
    split
    · exact State.memInv_traceRec _ _ _ _ _ _ h
    · exact h

theorem State.memInv_histPut (s : State) (site : Site) (off v : Nat) (h : Safety.MemInv s) : Safety.MemInv (s.histPut site off v) := by
  unfold State.histPut
  split
  · exact State.memInv_devPut _ _ _ _ h
  · exact h

theorem State.memInv_histAdd (s : State) (site : Site) (off n : Nat) (h : Safety.MemInv s) : Safety.MemInv (s.histAdd site off n) := by
  unfold State.histAdd
  split
  · exact State.memInv_devAdd _ _ _ _ _ h
  · exact h

end Sys2Proof.Machine
end

