-- ==== Sys2Proof/Laws/PerInstr.lean ====
section
/-! SUPPORT. One lemma per constructor of Instr: the fields its encoder writes fit the word of R23, and the decoder reads that
instruction from them. The events are no token instructions and have no word. -/

set_option linter.unusedSimpArgs false
set_option linter.unusedVariables false

namespace Sys2Proof

/-- The codes of the fields read back (R28, R30). -/
theorem tyOfCode_tyCode (t : Ty) : tyOfCode (tyCode t) = t := by cases t <;> rfl
theorem portOfCode_portCode (x : Port) : portOfCode (portCode x) = some x := by cases x <;> rfl
theorem modeOfCode_modeCode (x : Mode) : modeOfCode (modeCode x) = some x := by cases x <;> rfl
theorem portCode_lt (x : Port) : portCode x < 3 := by cases x <;> decide
theorem modeCode_lt (x : Mode) : modeCode x < 4 := by cases x <;> decide
theorem tyCode_lt (t : Ty) : tyCode t < 16 := by cases t <;> decide

/-- A destination field reads back as the destination it was written from (R24). -/
theorem destOfCode_destCode (d : Dest) : destOfCode (destCode d) = some d := by
  cases d with
  | none => rfl
  | node n p =>
    have hn : n.toNat < 128 := n.isLt
    have hp := portCode_lt p
    have h1 : (512 + n.toNat * 4 + portCode p) / 512 = 1 := by omega
    have h2 : (512 + n.toNat * 4 + portCode p) % 4 = portCode p := by omega
    have h3 : (512 + n.toNat * 4 + portCode p) / 4 % 128 = n.toNat := by omega
    simp only [destOfCode, destCode, h1, h2, h3, portOfCode_portCode, Option.map_some, BitVec.ofNat_toNat]
    simp
  | out n =>
    have hn : n.toNat < 64 := n.isLt
    have h1 : (1024 + n.toNat * 8) / 512 = 2 := by omega
    have h2 : (1024 + n.toNat * 8) % 8 = 0 := by omega
    have h3 : (1024 + n.toNat * 8) / 8 % 64 = n.toNat := by omega
    simp only [destOfCode, destCode, h1, h2, h3, if_true]
    simp
theorem destCode_lt (d : Dest) : destCode d < 2048 := by
  cases d with
  | none => decide
  | node n p => have hn : n.toNat < 128 := n.isLt; have hp := portCode_lt p; simp only [destCode]; omega
  | out n => have hn : n.toNat < 64 := n.isLt; simp only [destCode]; omega

theorem placeOfCode_placeCode (x : Place) : placeOfCode (placeCode x) = some x := by cases x <;> rfl
theorem placeCode_lt (x : Place) : placeCode x < 3 := by cases x <;> decide
theorem selfWhatOfCode_selfWhatCode (x : SelfWhat) : selfWhatOfCode (selfWhatCode x) = some x := by cases x <;> rfl
theorem selfWhatCode_lt (x : SelfWhat) : selfWhatCode x < 7 := by cases x <;> decide
theorem intCondOfCode_intCondCode (x : IntCond) : intCondOfCode (intCondCode x) = some x := by cases x <;> rfl
theorem intCondCode_lt (x : IntCond) : intCondCode x < 7 := by cases x <;> decide
theorem fltCondOfCode_fltCondCode (x : FltCond) : fltCondOfCode (fltCondCode x) = some x := by cases x <;> rfl
theorem fltCondCode_lt (x : FltCond) : fltCondCode x < 8 := by cases x <;> decide
theorem infoWhatOfCode_infoWhatCode (x : InfoWhat) : infoWhatOfCode (infoWhatCode x) = some x := by cases x <;> rfl
theorem infoWhatCode_lt (x : InfoWhat) : infoWhatCode x < 5 := by cases x <;> decide
theorem partOfCode_partCode (x : Part) : partOfCode (partCode x) = some x := by cases x <;> rfl
theorem partCode_lt (x : Part) : partCode x < 3 := by cases x <;> decide
theorem compOfCode_compCode (x : Comp) : compOfCode (compCode x) = some x := by cases x <;> rfl
theorem compCode_lt (x : Comp) : compCode x < 3 := by cases x <;> decide
theorem redOpOfCode_redOpCode (x : RedOp) : redOpOfCode (redOpCode x) = some x := by cases x <;> rfl
theorem redOpCode_lt (x : RedOp) : redOpCode x < 3 := by cases x <;> decide
theorem atomOpOfCode_atomOpCode (x : AtomOp) : atomOpOfCode (atomOpCode x) = some x := by cases x <;> rfl
theorem atomOpCode_lt (x : AtomOp) : atomOpCode x < 7 := by cases x <;> decide
theorem scopeOfCode_scopeCode (x : Scope) : scopeOfCode (scopeCode x) = some x := by cases x <;> rfl
theorem scopeCode_lt (x : Scope) : scopeCode x < 4 := by cases x <;> decide
theorem geomOfCode_geomCode (x : Geom) : geomOfCode (geomCode x) = some x := by cases x <;> rfl
theorem geomCode_lt (x : Geom) : geomCode x < 6 := by cases x <;> decide
/-- Fields that the word of R23 can hold. -/
def Fields.fits (f : Fields) : Prop :=
  f.opc < 2 ^ 9 ∧ f.ar < 2 ^ 2 ∧ f.slot < 2 ^ 8 ∧ f.ty < 2 ^ 4 ∧ f.immr < 2 ^ 1 ∧ f.mod < 2 ^ 7 ∧ f.d0 < 2 ^ 11 ∧ f.d1 < 2 ^ 11 ∧
  f.d2 < 2 ^ 11 ∧ f.imm < 2 ^ 32 ∧ f.aux < 2 ^ 16 ∧ f.hist < 2 ∧ f.trcf < 2 ∧ f.zero = 0

/-- Fields that fit make a 128-bit word (R23). -/
theorem Fields.toNat_lt (f : Fields) (h : f.fits) : f.toNat < 2 ^ 128 := by
  obtain ⟨opc, ar, slot, ty, immr, mod, d0, d1, d2, imm, aux, hist, trcf, zero⟩ := f
  simp only [Fields.fits] at h
  simp only [Fields.toNat]
  omega

/-- Fields that fit are read back from their word (R23). -/
theorem Fields.ofNat_toNat (f : Fields) (h : f.fits) : Fields.ofNat f.toNat = f := by
  obtain ⟨opc, ar, slot, ty, immr, mod, d0, d1, d2, imm, aux, hist, trcf, zero⟩ := f
  simp only [Fields.fits] at h
  simp only [Fields.toNat, Fields.ofNat, bf, Fields.mk.injEq]
  refine ⟨?_, ?_, ?_, ?_, ?_, ?_, ?_, ?_, ?_, ?_, ?_, ?_, ?_, ?_⟩ <;> omega

/-- The common fields of a well-formed instruction pass the common checks (R23, R25). -/
theorem decPar_fields (p : Par) (opc ar immr mod imm aux : Nat) (zeros arOne : Bool) (tys : List Ty) (rule : DestRule) (typ : Bool)
    (k : Par → Except Reason Instr) (h : p.ok arOne tys rule = true) (hz : zeros = true) (ht : typ = true) :
    decPar (p.fields opc ar immr mod imm aux) zeros arOne tys rule typ k = k p := by
  obtain ⟨slot, ty, d0, d1, d2, hist, trcf⟩ := p
  simp only [Par.ok, Bool.and_eq_true] at h
  have hs : (!arOne || slot.toNat == 0) = true := by
    have := h.1.1
    cases arOne
    · rfl
    · simp only [Bool.not_true, Bool.false_or, beq_iff_eq] at this ⊢; simp [this]
  simp only [decPar, Par.fields, need, get, destOfCode_destCode, tyOfCode_tyCode, hz, ht, h.1.2, h.2, hs, beq_self_eq_true, Bool.and_self, if_true,
    BitVec.ofNat_toNat, BitVec.setWidth_eq]
  cases hist <;> cases trcf <;> rfl

/-- A one-operand form holds SLOT zero (R25). -/
theorem ok_slot (p : Par) (tys : List Ty) (rule : DestRule) (h : p.ok true tys rule = true) : p.slot.toNat = 0 := by
  simp only [Par.ok, Bool.and_eq_true, Bool.not_true, Bool.false_or, beq_iff_eq] at h
  simp [h.1.1]

/-- A one-bit field. -/
theorem bit_le (b : Bool) : (if b = true then 1 else 0) ≤ 1 := by cases b <;> decide
theorem bit_eq (b : Bool) : ((if b = true then 1 else 0) == 1) = b := by cases b <;> rfl
section
variable (p : Par) (opc ar immr mod imm aux : Nat)
@[simp] theorem Par.fields_mod : (p.fields opc ar immr mod imm aux).mod = mod := rfl
@[simp] theorem Par.fields_imm : (p.fields opc ar immr mod imm aux).imm = imm := rfl
@[simp] theorem Par.fields_aux : (p.fields opc ar immr mod imm aux).aux = aux := rfl
@[simp] theorem Par.fields_slot : (p.fields opc ar immr mod imm aux).slot = p.slot.toNat := rfl
@[simp] theorem Par.fields_ty : (p.fields opc ar immr mod imm aux).ty = tyCode p.ty := rfl
@[simp] theorem Par.fields_zero : (p.fields opc ar immr mod imm aux).zero = 0 := rfl
@[simp] theorem Par.fields_opc : (p.fields opc ar immr mod imm aux).opc = opc := rfl
/-- The class of OPC selects the table (R26). -/
theorem decFields_class0 (h : opc / 64 = 0) : decFields (p.fields opc ar immr mod imm aux) = decClass0 (p.fields opc ar immr mod imm aux) := by
  simp only [decFields, Par.fields_opc, h]
theorem decFields_class1 (h : opc / 64 = 1) : decFields (p.fields opc ar immr mod imm aux) = decClass1 (p.fields opc ar immr mod imm aux) := by
  simp only [decFields, Par.fields_opc, h]
theorem decFields_class2 (h : opc / 64 = 2) : decFields (p.fields opc ar immr mod imm aux) = decClass2 (p.fields opc ar immr mod imm aux) := by
  simp only [decFields, Par.fields_opc, h]
theorem decFields_class3 (h : opc / 64 = 3) : decFields (p.fields opc ar immr mod imm aux) = decClass3 (p.fields opc ar immr mod imm aux) := by
  simp only [decFields, Par.fields_opc, h]
theorem decFields_class4 (h : opc / 64 = 4) : decFields (p.fields opc ar immr mod imm aux) = decClass4 (p.fields opc ar immr mod imm aux) := by
  simp only [decFields, Par.fields_opc, h]
theorem decFields_class5 (h : opc / 64 = 5) : decFields (p.fields opc ar immr mod imm aux) = decClass5 (p.fields opc ar immr mod imm aux) := by
  simp only [decFields, Par.fields_opc, h]
theorem decFields_class6 (h : opc / 64 = 6) : decFields (p.fields opc ar immr mod imm aux) = decClass6 (p.fields opc ar immr mod imm aux) := by
  simp only [decFields, Par.fields_opc, h]
theorem decFields_class7 (h : opc / 64 = 7) : decFields (p.fields opc ar immr mod imm aux) = decClass7 (p.fields opc ar immr mod imm aux) := by
  simp only [decFields, Par.fields_opc, h]
@[simp] theorem Par.fields_ar : (p.fields opc ar immr mod imm aux).ar = ar := rfl
@[simp] theorem Par.fields_immr : (p.fields opc ar immr mod imm aux).immr = immr := rfl
/-- The fields an encoder writes fit their places when the operation's own fields do. -/
theorem Par.fields_fits (ho : opc < 512) (ha : ar < 4) (hr : immr < 2) (hm : mod < 128) (hi : imm < 4294967296) (hx : aux < 65536) :
    (p.fields opc ar immr mod imm aux).fits := by
  refine ⟨ho, ha, p.slot.isLt, tyCode_lt _, hr, hm, destCode_lt _, destCode_lt _, destCode_lt _, hi, hx, ?_, ?_, rfl⟩
  · simp only [Par.fields]; split <;> decide
  · simp only [Par.fields]; split <;> decide
end

namespace Laws

/-- A well-formed instruction's fields fit their places in the word (R23) and decode to that instruction. -/
def Encoding.Statement (i : Instr) : Prop :=
  i.wellFormed = true → ∀ f, i.fields = some f → f.fits ∧ decFields f = .ok i

theorem Encoding.pass (p : Par) : Encoding.Statement (.pass p) := by
  intro h f hf
  obtain rfl := Option.some.inj hf
  change (p.ok true tyNone .any) = true at h
  refine ⟨Par.fields_fits p _ _ _ _ _ _ (by decide) (by decide) (by decide) (by omega) (by omega) (by omega), ?_⟩
  refine (decFields_class0 p _ _ _ _ _ _ (by decide)).trans ?_
  refine (show decClass0 (p.fields 0x1 1 0 (0) (0) (0)) = decPass (p.fields 0x1 1 0 (0) (0) (0)) by with_unfolding_all rfl).trans ?_
  simp_all [decPass, need, get, decPar_fields]

theorem Encoding.const (p : Par) (hi : Bool) (imm : BitVec 32) : Encoding.Statement (.const p hi imm) := by
  intro h f hf
  obtain rfl := Option.some.inj hf
  change (p.ok true tyConst .any && ((!hi) || [Ty.s64, Ty.z64, Ty.none].contains p.ty)) = true at h
  simp only [Bool.and_eq_true] at h
  have l_hi := bit_le hi
  have l_imm := imm.isLt
  have e1 : bf ((if hi then 1 else 0)) 0 1 = (if hi then 1 else 0) := by simp only [bf]; omega
  have e2 : bf ((if hi then 1 else 0)) 1 6 = 0 := by simp only [bf]; omega
  refine ⟨Par.fields_fits p _ _ _ _ _ _ (by decide) (by decide) (by decide) (by omega) (by omega) (by omega), ?_⟩
  refine (decFields_class0 p _ _ _ _ _ _ (by decide)).trans ?_
  refine (show decClass0 (p.fields 0x2 1 0 ((if hi then 1 else 0)) (imm.toNat) (0)) = decConst (p.fields 0x2 1 0 ((if hi then 1 else 0)) (imm.toNat) (0)) by with_unfolding_all rfl).trans ?_
  clear l_hi l_imm
  simp_all [decConst, need, get, decPar_fields, e1, e2, tyOfCode_tyCode, bit_eq]

theorem Encoding.steer (p : Par) (inv : Bool) : Encoding.Statement (.steer p inv) := by
  intro h f hf
  obtain rfl := Option.some.inj hf
  change (p.ok false tyIntOrNone .d2none) = true at h
  have l_inv := bit_le inv
  have e1 : bf ((if inv then 1 else 0)) 0 1 = (if inv then 1 else 0) := by simp only [bf]; omega
  have e2 : bf ((if inv then 1 else 0)) 1 6 = 0 := by simp only [bf]; omega
  refine ⟨Par.fields_fits p _ _ _ _ _ _ (by decide) (by decide) (by decide) (by omega) (by omega) (by omega), ?_⟩
  refine (decFields_class0 p _ _ _ _ _ _ (by decide)).trans ?_
  refine (show decClass0 (p.fields 0x3 2 0 ((if inv then 1 else 0)) (0) (0)) = decSteer (p.fields 0x3 2 0 ((if inv then 1 else 0)) (0) (0)) by with_unfolding_all rfl).trans ?_
  clear l_inv
  simp_all [decSteer, need, get, decPar_fields, e1, e2, bit_eq]

theorem Encoding.steerImm (p : Par) (inv : Bool) (imm : BitVec 32) : Encoding.Statement (.steerImm p inv imm) := by
  intro h f hf
  obtain rfl := Option.some.inj hf
  change (p.ok true tyIntOrNone .d2none) = true at h
  have l_inv := bit_le inv
  have l_imm := imm.isLt
  have e1 : bf ((if inv then 1 else 0)) 0 1 = (if inv then 1 else 0) := by simp only [bf]; omega
  have e2 : bf ((if inv then 1 else 0)) 1 6 = 0 := by simp only [bf]; omega
  refine ⟨Par.fields_fits p _ _ _ _ _ _ (by decide) (by decide) (by decide) (by omega) (by omega) (by omega), ?_⟩
  refine (decFields_class0 p _ _ _ _ _ _ (by decide)).trans ?_
  refine (show decClass0 (p.fields 0x3 1 1 ((if inv then 1 else 0)) (imm.toNat) (0)) = decSteerImm (p.fields 0x3 1 1 ((if inv then 1 else 0)) (imm.toNat) (0)) by with_unfolding_all rfl).trans ?_
  clear l_inv l_imm
  simp_all [decSteerImm, need, get, decPar_fields, e1, e2, bit_eq]

theorem Encoding.gate (p : Par) : Encoding.Statement (.gate p) := by
  intro h f hf
  obtain rfl := Option.some.inj hf
  change (p.ok false tyNone .any) = true at h
  refine ⟨Par.fields_fits p _ _ _ _ _ _ (by decide) (by decide) (by decide) (by omega) (by omega) (by omega), ?_⟩
  refine (decFields_class0 p _ _ _ _ _ _ (by decide)).trans ?_
  refine (show decClass0 (p.fields 0x4 2 0 (0) (0) (0)) = decGate (p.fields 0x4 2 0 (0) (0) (0)) by with_unfolding_all rfl).trans ?_
  simp_all [decGate, need, get, decPar_fields]

theorem Encoding.gateImm (p : Par) (imm : BitVec 32) : Encoding.Statement (.gateImm p imm) := by
  intro h f hf
  obtain rfl := Option.some.inj hf
  change (p.ok true tyNone .any) = true at h
  have l_imm := imm.isLt
  refine ⟨Par.fields_fits p _ _ _ _ _ _ (by decide) (by decide) (by decide) (by omega) (by omega) (by omega), ?_⟩
  refine (decFields_class0 p _ _ _ _ _ _ (by decide)).trans ?_
  refine (show decClass0 (p.fields 0x4 1 1 (0) (imm.toNat) (0)) = decGateImm (p.fields 0x4 1 1 (0) (imm.toNat) (0)) by with_unfolding_all rfl).trans ?_
  clear l_imm
  simp_all [decGateImm, need, get, decPar_fields]

theorem Encoding.disp (p : Par) (tbl : BitVec 6) : Encoding.Statement (.disp p tbl) := by
  intro h f hf
  obtain rfl := Option.some.inj hf
  change (p.ok false tyIntOrNone .d12none) = true at h
  have l_tbl := tbl.isLt
  have e1 : bf (tbl.toNat) 0 6 = tbl.toNat := by simp only [bf]; omega
  have e2 : bf (tbl.toNat) 6 10 = 0 := by simp only [bf]; omega
  refine ⟨Par.fields_fits p _ _ _ _ _ _ (by decide) (by decide) (by decide) (by omega) (by omega) (by omega), ?_⟩
  refine (decFields_class0 p _ _ _ _ _ _ (by decide)).trans ?_
  refine (show decClass0 (p.fields 0x5 2 0 (0) (0) (tbl.toNat)) = decDisp (p.fields 0x5 2 0 (0) (0) (tbl.toNat)) by with_unfolding_all rfl).trans ?_
  clear l_tbl
  simp_all [decDisp, need, get, decPar_fields, e1, e2]

theorem Encoding.dispImm (p : Par) (tbl : BitVec 6) (imm : BitVec 32) : Encoding.Statement (.dispImm p tbl imm) := by
  intro h f hf
  obtain rfl := Option.some.inj hf
  change (p.ok true tyIntOrNone .d12none) = true at h
  have l_tbl := tbl.isLt
  have l_imm := imm.isLt
  have e1 : bf (tbl.toNat) 0 6 = tbl.toNat := by simp only [bf]; omega
  have e2 : bf (tbl.toNat) 6 10 = 0 := by simp only [bf]; omega
  refine ⟨Par.fields_fits p _ _ _ _ _ _ (by decide) (by decide) (by decide) (by omega) (by omega) (by omega), ?_⟩
  refine (decFields_class0 p _ _ _ _ _ _ (by decide)).trans ?_
  refine (show decClass0 (p.fields 0x5 1 1 (0) (imm.toNat) (tbl.toNat)) = decDispImm (p.fields 0x5 1 1 (0) (imm.toNat) (tbl.toNat)) by with_unfolding_all rfl).trans ?_
  clear l_tbl l_imm
  simp_all [decDispImm, need, get, decPar_fields, e1, e2]

theorem Encoding.join (p : Par) (selp : Port) : Encoding.Statement (.join p selp) := by
  intro h f hf
  obtain rfl := Option.some.inj hf
  change (p.ok false tyNone .any && (selp != .c)) = true at h
  simp only [Bool.and_eq_true] at h
  have l_selp := portCode_lt selp
  have e1 : bf (portCode selp) 0 2 = portCode selp := by simp only [bf]; omega
  have e2 : bf (portCode selp) 2 5 = 0 := by simp only [bf]; omega
  refine ⟨Par.fields_fits p _ _ _ _ _ _ (by decide) (by decide) (by decide) (by omega) (by omega) (by omega), ?_⟩
  refine (decFields_class0 p _ _ _ _ _ _ (by decide)).trans ?_
  refine (show decClass0 (p.fields 0x6 2 0 (portCode selp) (0) (0)) = decJoin (p.fields 0x6 2 0 (portCode selp) (0) (0)) by with_unfolding_all rfl).trans ?_
  clear l_selp
  simp_all [decJoin, need, get, decPar_fields, e1, e2, portOfCode_portCode]

theorem Encoding.join3 (p : Par) (selp : Port) : Encoding.Statement (.join3 p selp) := by
  intro h f hf
  obtain rfl := Option.some.inj hf
  change (p.ok false tyNone .any) = true at h
  have l_selp := portCode_lt selp
  have e1 : bf (portCode selp) 0 2 = portCode selp := by simp only [bf]; omega
  have e2 : bf (portCode selp) 2 5 = 0 := by simp only [bf]; omega
  refine ⟨Par.fields_fits p _ _ _ _ _ _ (by decide) (by decide) (by decide) (by omega) (by omega) (by omega), ?_⟩
  refine (decFields_class0 p _ _ _ _ _ _ (by decide)).trans ?_
  refine (show decClass0 (p.fields 0x6 3 0 (portCode selp) (0) (0)) = decJoin3 (p.fields 0x6 3 0 (portCode selp) (0) (0)) by with_unfolding_all rfl).trans ?_
  clear l_selp
  simp_all [decJoin3, need, get, decPar_fields, e1, e2, portOfCode_portCode]

theorem Encoding.joinImm (p : Par) (selp : Port) (imm : BitVec 32) : Encoding.Statement (.joinImm p selp imm) := by
  intro h f hf
  obtain rfl := Option.some.inj hf
  change (p.ok true tyNone .any && (selp != .c)) = true at h
  simp only [Bool.and_eq_true] at h
  have l_selp := portCode_lt selp
  have l_imm := imm.isLt
  have e1 : bf (portCode selp) 0 2 = portCode selp := by simp only [bf]; omega
  have e2 : bf (portCode selp) 2 5 = 0 := by simp only [bf]; omega
  refine ⟨Par.fields_fits p _ _ _ _ _ _ (by decide) (by decide) (by decide) (by omega) (by omega) (by omega), ?_⟩
  refine (decFields_class0 p _ _ _ _ _ _ (by decide)).trans ?_
  refine (show decClass0 (p.fields 0x6 1 1 (portCode selp) (imm.toNat) (0)) = decJoinImm (p.fields 0x6 1 1 (portCode selp) (imm.toNat) (0)) by with_unfolding_all rfl).trans ?_
  clear l_selp l_imm
  simp_all [decJoinImm, need, get, decPar_fields, e1, e2, portOfCode_portCode]

theorem Encoding.join3Imm (p : Par) (selp : Port) (imm : BitVec 32) : Encoding.Statement (.join3Imm p selp imm) := by
  intro h f hf
  obtain rfl := Option.some.inj hf
  change (p.ok false tyNone .any) = true at h
  have l_selp := portCode_lt selp
  have l_imm := imm.isLt
  have e1 : bf (portCode selp) 0 2 = portCode selp := by simp only [bf]; omega
  have e2 : bf (portCode selp) 2 5 = 0 := by simp only [bf]; omega
  refine ⟨Par.fields_fits p _ _ _ _ _ _ (by decide) (by decide) (by decide) (by omega) (by omega) (by omega), ?_⟩
  refine (decFields_class0 p _ _ _ _ _ _ (by decide)).trans ?_
  refine (show decClass0 (p.fields 0x6 2 1 (portCode selp) (imm.toNat) (0)) = decJoin3Imm (p.fields 0x6 2 1 (portCode selp) (imm.toNat) (0)) by with_unfolding_all rfl).trans ?_
  clear l_selp l_imm
  simp_all [decJoin3Imm, need, get, decPar_fields, e1, e2, portOfCode_portCode]

theorem Encoding.cntn (p : Par) : Encoding.Statement (.cntn p) := by
  intro h f hf
  obtain rfl := Option.some.inj hf
  change (p.ok false tyNone .d12none) = true at h
  refine ⟨Par.fields_fits p _ _ _ _ _ _ (by decide) (by decide) (by decide) (by omega) (by omega) (by omega), ?_⟩
  refine (decFields_class0 p _ _ _ _ _ _ (by decide)).trans ?_
  refine (show decClass0 (p.fields 0x7 2 0 (0) (0) (0)) = decCntn (p.fields 0x7 2 0 (0) (0) (0)) by with_unfolding_all rfl).trans ?_
  simp_all [decCntn, need, get, decPar_fields]

theorem Encoding.fnew (p : Par) (place : Place) (node : BitVec 7) (port : Port) (block : BitVec 6) : Encoding.Statement (.fnew p place node port block) := by
  intro h f hf
  obtain rfl := Option.some.inj hf
  change (p.ok true tyNone .any && (place != .named)) = true at h
  simp only [Bool.and_eq_true] at h
  have l_place := placeCode_lt place
  have l_node := node.isLt
  have l_port := portCode_lt port
  have l_block := block.isLt
  have e1 : bf (node.toNat * 2 ^ 9 + portCode port * 2 ^ 7 + block.toNat) 9 7 = node.toNat := by simp only [bf]; omega
  have e2 : bf (node.toNat * 2 ^ 9 + portCode port * 2 ^ 7 + block.toNat) 0 6 = block.toNat := by simp only [bf]; omega
  have e3 : bf (placeCode place) 0 2 = placeCode place := by simp only [bf]; omega
  have e4 : bf (node.toNat * 2 ^ 9 + portCode port * 2 ^ 7 + block.toNat) 7 2 = portCode port := by simp only [bf]; omega
  have e5 : bf (placeCode place) 2 5 = 0 := by simp only [bf]; omega
  have e6 : bf (node.toNat * 2 ^ 9 + portCode port * 2 ^ 7 + block.toNat) 6 1 = 0 := by simp only [bf]; omega
  refine ⟨Par.fields_fits p _ _ _ _ _ _ (by decide) (by decide) (by decide) (by omega) (by omega) (by omega), ?_⟩
  refine (decFields_class0 p _ _ _ _ _ _ (by decide)).trans ?_
  refine (show decClass0 (p.fields 0x8 1 0 (placeCode place) (0) (node.toNat * 2 ^ 9 + portCode port * 2 ^ 7 + block.toNat)) = decFnew (p.fields 0x8 1 0 (placeCode place) (0) (node.toNat * 2 ^ 9 + portCode port * 2 ^ 7 + block.toNat)) by with_unfolding_all rfl).trans ?_
  have np : placeCode place ≠ 1 := by revert h; cases place <;> simp [placeCode]
  clear l_place l_node l_port l_block
  simp_all [decFnew, need, get, decPar_fields, e1, e2, e3, e4, e5, e6, placeOfCode_placeCode, portOfCode_portCode]

theorem Encoding.fnewNamed (p : Par) (place : Place) (node : BitVec 7) (port : Port) (block : BitVec 6) : Encoding.Statement (.fnewNamed p place node port block) := by
  intro h f hf
  obtain rfl := Option.some.inj hf
  change (p.ok false tyNone .any && (place == .named)) = true at h
  simp only [Bool.and_eq_true] at h
  have l_place := placeCode_lt place
  have l_node := node.isLt
  have l_port := portCode_lt port
  have l_block := block.isLt
  have e1 : bf (node.toNat * 2 ^ 9 + portCode port * 2 ^ 7 + block.toNat) 9 7 = node.toNat := by simp only [bf]; omega
  have e2 : bf (node.toNat * 2 ^ 9 + portCode port * 2 ^ 7 + block.toNat) 0 6 = block.toNat := by simp only [bf]; omega
  have e3 : bf (placeCode place) 0 2 = placeCode place := by simp only [bf]; omega
  have e4 : bf (node.toNat * 2 ^ 9 + portCode port * 2 ^ 7 + block.toNat) 7 2 = portCode port := by simp only [bf]; omega
  have e5 : bf (placeCode place) 2 5 = 0 := by simp only [bf]; omega
  have e6 : bf (node.toNat * 2 ^ 9 + portCode port * 2 ^ 7 + block.toNat) 6 1 = 0 := by simp only [bf]; omega
  refine ⟨Par.fields_fits p _ _ _ _ _ _ (by decide) (by decide) (by decide) (by omega) (by omega) (by omega), ?_⟩
  refine (decFields_class0 p _ _ _ _ _ _ (by decide)).trans ?_
  refine (show decClass0 (p.fields 0x8 2 0 (placeCode place) (0) (node.toNat * 2 ^ 9 + portCode port * 2 ^ 7 + block.toNat)) = decFnewNamed (p.fields 0x8 2 0 (placeCode place) (0) (node.toNat * 2 ^ 9 + portCode port * 2 ^ 7 + block.toNat)) by with_unfolding_all rfl).trans ?_
  have np : placeCode place = 1 := by rw [eq_of_beq h.2]; rfl
  have nq : placeOfCode 1 = some .named := rfl
  clear l_place l_node l_port l_block
  simp_all [decFnewNamed, need, get, decPar_fields, e1, e2, e3, e4, e5, e6, placeOfCode_placeCode, portOfCode_portCode]

theorem Encoding.fnewNamedImm (p : Par) (place : Place) (node : BitVec 7) (port : Port) (block : BitVec 6) (imm : BitVec 32) : Encoding.Statement (.fnewNamedImm p place node port block imm) := by
  intro h f hf
  obtain rfl := Option.some.inj hf
  change (p.ok true tyNone .any && (place == .named)) = true at h
  simp only [Bool.and_eq_true] at h
  have l_place := placeCode_lt place
  have l_node := node.isLt
  have l_port := portCode_lt port
  have l_block := block.isLt
  have l_imm := imm.isLt
  have e1 : bf (node.toNat * 2 ^ 9 + portCode port * 2 ^ 7 + block.toNat) 9 7 = node.toNat := by simp only [bf]; omega
  have e2 : bf (node.toNat * 2 ^ 9 + portCode port * 2 ^ 7 + block.toNat) 0 6 = block.toNat := by simp only [bf]; omega
  have e3 : bf (placeCode place) 0 2 = placeCode place := by simp only [bf]; omega
  have e4 : bf (node.toNat * 2 ^ 9 + portCode port * 2 ^ 7 + block.toNat) 7 2 = portCode port := by simp only [bf]; omega
  have e5 : bf (placeCode place) 2 5 = 0 := by simp only [bf]; omega
  have e6 : bf (node.toNat * 2 ^ 9 + portCode port * 2 ^ 7 + block.toNat) 6 1 = 0 := by simp only [bf]; omega
  refine ⟨Par.fields_fits p _ _ _ _ _ _ (by decide) (by decide) (by decide) (by omega) (by omega) (by omega), ?_⟩
  refine (decFields_class0 p _ _ _ _ _ _ (by decide)).trans ?_
  refine (show decClass0 (p.fields 0x8 1 1 (placeCode place) (imm.toNat) (node.toNat * 2 ^ 9 + portCode port * 2 ^ 7 + block.toNat)) = decFnewNamedImm (p.fields 0x8 1 1 (placeCode place) (imm.toNat) (node.toNat * 2 ^ 9 + portCode port * 2 ^ 7 + block.toNat)) by with_unfolding_all rfl).trans ?_
  have np : placeCode place = 1 := by rw [eq_of_beq h.2]; rfl
  have nq : placeOfCode 1 = some .named := rfl
  clear l_place l_node l_port l_block l_imm
  simp_all [decFnewNamedImm, need, get, decPar_fields, e1, e2, e3, e4, e5, e6, placeOfCode_placeCode, portOfCode_portCode]

theorem Encoding.sendf (p : Par) (node : BitVec 7) (port : Port) : Encoding.Statement (.sendf p node port) := by
  intro h f hf
  obtain rfl := Option.some.inj hf
  change (p.ok false tyNone .d12none) = true at h
  have l_node := node.isLt
  have l_port := portCode_lt port
  have e1 : bf (node.toNat * 2 ^ 9 + portCode port * 2 ^ 7) 9 7 = node.toNat := by simp only [bf]; omega
  have e2 : bf (node.toNat * 2 ^ 9 + portCode port * 2 ^ 7) 7 2 = portCode port := by simp only [bf]; omega
  have e3 : bf (node.toNat * 2 ^ 9 + portCode port * 2 ^ 7) 0 7 = 0 := by simp only [bf]; omega
  refine ⟨Par.fields_fits p _ _ _ _ _ _ (by decide) (by decide) (by decide) (by omega) (by omega) (by omega), ?_⟩
  refine (decFields_class0 p _ _ _ _ _ _ (by decide)).trans ?_
  refine (show decClass0 (p.fields 0x9 2 0 (0) (0) (node.toNat * 2 ^ 9 + portCode port * 2 ^ 7)) = decSendf (p.fields 0x9 2 0 (0) (0) (node.toNat * 2 ^ 9 + portCode port * 2 ^ 7)) by with_unfolding_all rfl).trans ?_
  clear l_node l_port
  simp_all [decSendf, need, get, decPar_fields, e1, e2, e3, portOfCode_portCode]

theorem Encoding.mkcont (p : Par) (node : BitVec 7) (port : Port) : Encoding.Statement (.mkcont p node port) := by
  intro h f hf
  obtain rfl := Option.some.inj hf
  change (p.ok true tyNone .any) = true at h
  have l_node := node.isLt
  have l_port := portCode_lt port
  have e1 : bf (node.toNat * 2 ^ 9 + portCode port * 2 ^ 7) 9 7 = node.toNat := by simp only [bf]; omega
  have e2 : bf (node.toNat * 2 ^ 9 + portCode port * 2 ^ 7) 7 2 = portCode port := by simp only [bf]; omega
  have e3 : bf (node.toNat * 2 ^ 9 + portCode port * 2 ^ 7) 0 7 = 0 := by simp only [bf]; omega
  refine ⟨Par.fields_fits p _ _ _ _ _ _ (by decide) (by decide) (by decide) (by omega) (by omega) (by omega), ?_⟩
  refine (decFields_class0 p _ _ _ _ _ _ (by decide)).trans ?_
  refine (show decClass0 (p.fields 0xa 1 0 (0) (0) (node.toNat * 2 ^ 9 + portCode port * 2 ^ 7)) = decMkcont (p.fields 0xa 1 0 (0) (0) (node.toNat * 2 ^ 9 + portCode port * 2 ^ 7)) by with_unfolding_all rfl).trans ?_
  clear l_node l_port
  simp_all [decMkcont, need, get, decPar_fields, e1, e2, e3, portOfCode_portCode]

theorem Encoding.iter (p : Par) (next : Bool) (node : BitVec 7) (port : Port) (block : BitVec 6) : Encoding.Statement (.iter p next node port block) := by
  intro h f hf
  obtain rfl := Option.some.inj hf
  change (p.ok true tyNone .any && ((!next) || block == 0)) = true at h
  simp only [Bool.and_eq_true] at h
  have l_next := bit_le next
  have l_node := node.isLt
  have l_port := portCode_lt port
  have l_block := block.isLt
  have e1 : bf (node.toNat * 2 ^ 9 + portCode port * 2 ^ 7 + block.toNat) 9 7 = node.toNat := by simp only [bf]; omega
  have e2 : bf (node.toNat * 2 ^ 9 + portCode port * 2 ^ 7 + block.toNat) 0 6 = block.toNat := by simp only [bf]; omega
  have e3 : bf ((if next then 1 else 0)) 0 1 = (if next then 1 else 0) := by simp only [bf]; omega
  have e4 : bf (node.toNat * 2 ^ 9 + portCode port * 2 ^ 7 + block.toNat) 7 2 = portCode port := by simp only [bf]; omega
  have e5 : bf ((if next then 1 else 0)) 1 6 = 0 := by simp only [bf]; omega
  have e6 : bf (node.toNat * 2 ^ 9 + portCode port * 2 ^ 7 + block.toNat) 6 1 = 0 := by simp only [bf]; omega
  refine ⟨Par.fields_fits p _ _ _ _ _ _ (by decide) (by decide) (by decide) (by omega) (by omega) (by omega), ?_⟩
  refine (decFields_class0 p _ _ _ _ _ _ (by decide)).trans ?_
  refine (show decClass0 (p.fields 0xb 1 0 ((if next then 1 else 0)) (0) (node.toNat * 2 ^ 9 + portCode port * 2 ^ 7 + block.toNat)) = decIter (p.fields 0xb 1 0 ((if next then 1 else 0)) (0) (node.toNat * 2 ^ 9 + portCode port * 2 ^ 7 + block.toNat)) by with_unfolding_all rfl).trans ?_
  clear l_next l_node l_port l_block
  simp_all [decIter, need, get, decPar_fields, e1, e2, e3, e4, e5, e6, portOfCode_portCode, bit_eq]

theorem Encoding.iter2 (p : Par) (next : Bool) (node : BitVec 7) (port : Port) (block : BitVec 6) : Encoding.Statement (.iter2 p next node port block) := by
  intro h f hf
  obtain rfl := Option.some.inj hf
  change (p.ok false tyNone .any && ((!next) || block == 0) && (port == .l)) = true at h
  simp only [Bool.and_eq_true] at h
  have l_next := bit_le next
  have l_node := node.isLt
  have l_port := portCode_lt port
  have l_block := block.isLt
  have e1 : bf (node.toNat * 2 ^ 9 + portCode port * 2 ^ 7 + block.toNat) 9 7 = node.toNat := by simp only [bf]; omega
  have e2 : bf (node.toNat * 2 ^ 9 + portCode port * 2 ^ 7 + block.toNat) 0 6 = block.toNat := by simp only [bf]; omega
  have e3 : bf ((if next then 1 else 0)) 0 1 = (if next then 1 else 0) := by simp only [bf]; omega
  have e4 : bf (node.toNat * 2 ^ 9 + portCode port * 2 ^ 7 + block.toNat) 7 2 = portCode port := by simp only [bf]; omega
  have e5 : bf ((if next then 1 else 0)) 1 6 = 0 := by simp only [bf]; omega
  have e6 : bf (node.toNat * 2 ^ 9 + portCode port * 2 ^ 7 + block.toNat) 6 1 = 0 := by simp only [bf]; omega
  refine ⟨Par.fields_fits p _ _ _ _ _ _ (by decide) (by decide) (by decide) (by omega) (by omega) (by omega), ?_⟩
  refine (decFields_class0 p _ _ _ _ _ _ (by decide)).trans ?_
  refine (show decClass0 (p.fields 0xb 2 0 ((if next then 1 else 0)) (0) (node.toNat * 2 ^ 9 + portCode port * 2 ^ 7 + block.toNat)) = decIter2 (p.fields 0xb 2 0 ((if next then 1 else 0)) (0) (node.toNat * 2 ^ 9 + portCode port * 2 ^ 7 + block.toNat)) by with_unfolding_all rfl).trans ?_
  clear l_next l_node l_port l_block
  simp_all [decIter2, need, get, decPar_fields, e1, e2, e3, e4, e5, e6, portOfCode_portCode, bit_eq]

theorem Encoding.iter2Imm (p : Par) (next : Bool) (node : BitVec 7) (port : Port) (block : BitVec 6) (imm : BitVec 32) : Encoding.Statement (.iter2Imm p next node port block imm) := by
  intro h f hf
  obtain rfl := Option.some.inj hf
  change (p.ok true tyNone .any && ((!next) || block == 0) && (port == .l)) = true at h
  simp only [Bool.and_eq_true] at h
  have l_next := bit_le next
  have l_node := node.isLt
  have l_port := portCode_lt port
  have l_block := block.isLt
  have l_imm := imm.isLt
  have e1 : bf (node.toNat * 2 ^ 9 + portCode port * 2 ^ 7 + block.toNat) 9 7 = node.toNat := by simp only [bf]; omega
  have e2 : bf (node.toNat * 2 ^ 9 + portCode port * 2 ^ 7 + block.toNat) 0 6 = block.toNat := by simp only [bf]; omega
  have e3 : bf ((if next then 1 else 0)) 0 1 = (if next then 1 else 0) := by simp only [bf]; omega
  have e4 : bf (node.toNat * 2 ^ 9 + portCode port * 2 ^ 7 + block.toNat) 7 2 = portCode port := by simp only [bf]; omega
  have e5 : bf ((if next then 1 else 0)) 1 6 = 0 := by simp only [bf]; omega
  have e6 : bf (node.toNat * 2 ^ 9 + portCode port * 2 ^ 7 + block.toNat) 6 1 = 0 := by simp only [bf]; omega
  refine ⟨Par.fields_fits p _ _ _ _ _ _ (by decide) (by decide) (by decide) (by omega) (by omega) (by omega), ?_⟩
  refine (decFields_class0 p _ _ _ _ _ _ (by decide)).trans ?_
  refine (show decClass0 (p.fields 0xb 1 1 ((if next then 1 else 0)) (imm.toNat) (node.toNat * 2 ^ 9 + portCode port * 2 ^ 7 + block.toNat)) = decIter2Imm (p.fields 0xb 1 1 ((if next then 1 else 0)) (imm.toNat) (node.toNat * 2 ^ 9 + portCode port * 2 ^ 7 + block.toNat)) by with_unfolding_all rfl).trans ?_
  clear l_next l_node l_port l_block l_imm
  simp_all [decIter2Imm, need, get, decPar_fields, e1, e2, e3, e4, e5, e6, portOfCode_portCode, bit_eq]

theorem Encoding.exit (p : Par) : Encoding.Statement (.exit p) := by
  intro h f hf
  obtain rfl := Option.some.inj hf
  change (p.ok true tyNone .outOnly) = true at h
  refine ⟨Par.fields_fits p _ _ _ _ _ _ (by decide) (by decide) (by decide) (by omega) (by omega) (by omega), ?_⟩
  refine (decFields_class0 p _ _ _ _ _ _ (by decide)).trans ?_
  refine (show decClass0 (p.fields 0xc 1 0 (0) (0) (0)) = decExit (p.fields 0xc 1 0 (0) (0) (0)) by with_unfolding_all rfl).trans ?_
  simp_all [decExit, need, get, decPar_fields]

theorem Encoding.fset (p : Par) (var : BitVec 8) : Encoding.Statement (.fset p var) := by
  intro h f hf
  obtain rfl := Option.some.inj hf
  change (p.ok true tyNone .any) = true at h
  have l_var := var.isLt
  have e1 : bf (var.toNat) 0 8 = var.toNat := by simp only [bf]; omega
  have e2 : bf (var.toNat) 8 8 = 0 := by simp only [bf]; omega
  refine ⟨Par.fields_fits p _ _ _ _ _ _ (by decide) (by decide) (by decide) (by omega) (by omega) (by omega), ?_⟩
  refine (decFields_class0 p _ _ _ _ _ _ (by decide)).trans ?_
  refine (show decClass0 (p.fields 0xd 1 0 (0) (0) (var.toNat)) = decFset (p.fields 0xd 1 0 (0) (0) (var.toNat)) by with_unfolding_all rfl).trans ?_
  clear l_var
  simp_all [decFset, need, get, decPar_fields, e1, e2]

theorem Encoding.fget (p : Par) (var : BitVec 8) : Encoding.Statement (.fget p var) := by
  intro h f hf
  obtain rfl := Option.some.inj hf
  change (p.ok true tyNone .any) = true at h
  have l_var := var.isLt
  have e1 : bf (var.toNat) 0 8 = var.toNat := by simp only [bf]; omega
  have e2 : bf (var.toNat) 8 8 = 0 := by simp only [bf]; omega
  refine ⟨Par.fields_fits p _ _ _ _ _ _ (by decide) (by decide) (by decide) (by omega) (by omega) (by omega), ?_⟩
  refine (decFields_class0 p _ _ _ _ _ _ (by decide)).trans ?_
  refine (show decClass0 (p.fields 0xe 1 0 (0) (0) (var.toNat)) = decFget (p.fields 0xe 1 0 (0) (0) (var.toNat)) by with_unfolding_all rfl).trans ?_
  clear l_var
  simp_all [decFget, need, get, decPar_fields, e1, e2]

theorem Encoding.iseos (p : Par) : Encoding.Statement (.iseos p) := by
  intro h f hf
  obtain rfl := Option.some.inj hf
  change (p.ok true tyNone .any) = true at h
  refine ⟨Par.fields_fits p _ _ _ _ _ _ (by decide) (by decide) (by decide) (by omega) (by omega) (by omega), ?_⟩
  refine (decFields_class0 p _ _ _ _ _ _ (by decide)).trans ?_
  refine (show decClass0 (p.fields 0xf 1 0 (0) (0) (0)) = decIseos (p.fields 0xf 1 0 (0) (0) (0)) by with_unfolding_all rfl).trans ?_
  simp_all [decIseos, need, get, decPar_fields]

theorem Encoding.mkeos (p : Par) : Encoding.Statement (.mkeos p) := by
  intro h f hf
  obtain rfl := Option.some.inj hf
  change (p.ok true tyNone .any) = true at h
  refine ⟨Par.fields_fits p _ _ _ _ _ _ (by decide) (by decide) (by decide) (by omega) (by omega) (by omega), ?_⟩
  refine (decFields_class0 p _ _ _ _ _ _ (by decide)).trans ?_
  refine (show decClass0 (p.fields 0x10 1 0 (0) (0) (0)) = decMkeos (p.fields 0x10 1 0 (0) (0) (0)) by with_unfolding_all rfl).trans ?_
  simp_all [decMkeos, need, get, decPar_fields]

theorem Encoding.send (p : Par) (cid : BitVec 8) : Encoding.Statement (.send p cid) := by
  intro h f hf
  obtain rfl := Option.some.inj hf
  change (p.ok false tyNone .d12none && (cid != 0)) = true at h
  simp only [Bool.and_eq_true] at h
  have l_cid := cid.isLt
  have e1 : bf (cid.toNat) 0 8 = cid.toNat := by simp only [bf]; omega
  have e2 : bf (cid.toNat) 8 8 = 0 := by simp only [bf]; omega
  refine ⟨Par.fields_fits p _ _ _ _ _ _ (by decide) (by decide) (by decide) (by omega) (by omega) (by omega), ?_⟩
  refine (decFields_class0 p _ _ _ _ _ _ (by decide)).trans ?_
  refine (show decClass0 (p.fields 0x11 2 0 (0) (0) (cid.toNat)) = decSend (p.fields 0x11 2 0 (0) (0) (cid.toNat)) by with_unfolding_all rfl).trans ?_
  clear l_cid
  simp_all [decSend, need, get, decPar_fields, e1, e2]

theorem Encoding.sendImm (p : Par) (cid : BitVec 8) (imm : BitVec 32) : Encoding.Statement (.sendImm p cid imm) := by
  intro h f hf
  obtain rfl := Option.some.inj hf
  change (p.ok true tyNone .d12none && (cid != 0)) = true at h
  simp only [Bool.and_eq_true] at h
  have l_cid := cid.isLt
  have l_imm := imm.isLt
  have e1 : bf (cid.toNat) 0 8 = cid.toNat := by simp only [bf]; omega
  have e2 : bf (cid.toNat) 8 8 = 0 := by simp only [bf]; omega
  refine ⟨Par.fields_fits p _ _ _ _ _ _ (by decide) (by decide) (by decide) (by omega) (by omega) (by omega), ?_⟩
  refine (decFields_class0 p _ _ _ _ _ _ (by decide)).trans ?_
  refine (show decClass0 (p.fields 0x11 1 1 (0) (imm.toNat) (cid.toNat)) = decSendImm (p.fields 0x11 1 1 (0) (imm.toNat) (cid.toNat)) by with_unfolding_all rfl).trans ?_
  clear l_cid l_imm
  simp_all [decSendImm, need, get, decPar_fields, e1, e2]

theorem Encoding.phopen (p : Par) (ph : BitVec 4) : Encoding.Statement (.phopen p ph) := by
  intro h f hf
  obtain rfl := Option.some.inj hf
  change (p.ok true tyNone .any && (ph != 0)) = true at h
  simp only [Bool.and_eq_true] at h
  have l_ph := ph.isLt
  have e1 : bf (ph.toNat) 0 4 = ph.toNat := by simp only [bf]; omega
  have e2 : bf (ph.toNat) 4 12 = 0 := by simp only [bf]; omega
  refine ⟨Par.fields_fits p _ _ _ _ _ _ (by decide) (by decide) (by decide) (by omega) (by omega) (by omega), ?_⟩
  refine (decFields_class0 p _ _ _ _ _ _ (by decide)).trans ?_
  refine (show decClass0 (p.fields 0x12 1 0 (0) (0) (ph.toNat)) = decPhopen (p.fields 0x12 1 0 (0) (0) (ph.toNat)) by with_unfolding_all rfl).trans ?_
  clear l_ph
  simp_all [decPhopen, need, get, decPar_fields, e1, e2]

theorem Encoding.phclose (p : Par) (ph : BitVec 4) : Encoding.Statement (.phclose p ph) := by
  intro h f hf
  obtain rfl := Option.some.inj hf
  change (p.ok true tyNone .any && (ph != 0)) = true at h
  simp only [Bool.and_eq_true] at h
  have l_ph := ph.isLt
  have e1 : bf (ph.toNat) 0 4 = ph.toNat := by simp only [bf]; omega
  have e2 : bf (ph.toNat) 4 12 = 0 := by simp only [bf]; omega
  refine ⟨Par.fields_fits p _ _ _ _ _ _ (by decide) (by decide) (by decide) (by omega) (by omega) (by omega), ?_⟩
  refine (decFields_class0 p _ _ _ _ _ _ (by decide)).trans ?_
  refine (show decClass0 (p.fields 0x13 1 0 (0) (0) (ph.toNat)) = decPhclose (p.fields 0x13 1 0 (0) (0) (ph.toNat)) by with_unfolding_all rfl).trans ?_
  clear l_ph
  simp_all [decPhclose, need, get, decPar_fields, e1, e2]

theorem Encoding.self (p : Par) (what : SelfWhat) : Encoding.Statement (.self p what) := by
  intro h f hf
  obtain rfl := Option.some.inj hf
  change (p.ok true tyNone .any) = true at h
  have l_what := selfWhatCode_lt what
  have e1 : bf (selfWhatCode what) 0 3 = selfWhatCode what := by simp only [bf]; omega
  have e2 : bf (selfWhatCode what) 3 4 = 0 := by simp only [bf]; omega
  refine ⟨Par.fields_fits p _ _ _ _ _ _ (by decide) (by decide) (by decide) (by omega) (by omega) (by omega), ?_⟩
  refine (decFields_class0 p _ _ _ _ _ _ (by decide)).trans ?_
  refine (show decClass0 (p.fields 0x14 1 0 (selfWhatCode what) (0) (0)) = decSelf (p.fields 0x14 1 0 (selfWhatCode what) (0) (0)) by with_unfolding_all rfl).trans ?_
  clear l_what
  simp_all [decSelf, need, get, decPar_fields, e1, e2, selfWhatOfCode_selfWhatCode]

theorem Encoding.level (p : Par) (cnt : Bool) (lvl : BitVec 3) : Encoding.Statement (.level p cnt lvl) := by
  intro h f hf
  obtain rfl := Option.some.inj hf
  change (p.ok true tyNone .any) = true at h
  have l_cnt := bit_le cnt
  have l_lvl := lvl.isLt
  have e1 : bf (lvl.toNat) 0 3 = lvl.toNat := by simp only [bf]; omega
  have e2 : bf ((if cnt then 1 else 0)) 0 1 = (if cnt then 1 else 0) := by simp only [bf]; omega
  have e3 : bf ((if cnt then 1 else 0)) 1 6 = 0 := by simp only [bf]; omega
  have e4 : bf (lvl.toNat) 3 13 = 0 := by simp only [bf]; omega
  refine ⟨Par.fields_fits p _ _ _ _ _ _ (by decide) (by decide) (by decide) (by omega) (by omega) (by omega), ?_⟩
  refine (decFields_class0 p _ _ _ _ _ _ (by decide)).trans ?_
  refine (show decClass0 (p.fields 0x15 1 0 ((if cnt then 1 else 0)) (0) (lvl.toNat)) = decLevel (p.fields 0x15 1 0 ((if cnt then 1 else 0)) (0) (lvl.toNat)) by with_unfolding_all rfl).trans ?_
  clear l_cnt l_lvl
  simp_all [decLevel, need, get, decPar_fields, e1, e2, e3, e4, bit_eq]

theorem Encoding.add (p : Par) : Encoding.Statement (.add p) := by
  intro h f hf
  obtain rfl := Option.some.inj hf
  change (p.ok false tyInt .any) = true at h
  refine ⟨Par.fields_fits p _ _ _ _ _ _ (by decide) (by decide) (by decide) (by omega) (by omega) (by omega), ?_⟩
  refine (decFields_class1 p _ _ _ _ _ _ (by decide)).trans ?_
  refine (show decClass1 (p.fields 0x40 2 0 (0) (0) (0)) = decAdd (p.fields 0x40 2 0 (0) (0) (0)) by with_unfolding_all rfl).trans ?_
  simp_all [decAdd, need, get, decPar_fields]

theorem Encoding.addImm (p : Par) (imm : BitVec 32) : Encoding.Statement (.addImm p imm) := by
  intro h f hf
  obtain rfl := Option.some.inj hf
  change (p.ok true tyInt .any) = true at h
  have l_imm := imm.isLt
  refine ⟨Par.fields_fits p _ _ _ _ _ _ (by decide) (by decide) (by decide) (by omega) (by omega) (by omega), ?_⟩
  refine (decFields_class1 p _ _ _ _ _ _ (by decide)).trans ?_
  refine (show decClass1 (p.fields 0x40 1 1 (0) (imm.toNat) (0)) = decAddImm (p.fields 0x40 1 1 (0) (imm.toNat) (0)) by with_unfolding_all rfl).trans ?_
  clear l_imm
  simp_all [decAddImm, need, get, decPar_fields]

theorem Encoding.sub (p : Par) : Encoding.Statement (.sub p) := by
  intro h f hf
  obtain rfl := Option.some.inj hf
  change (p.ok false tyInt .any) = true at h
  refine ⟨Par.fields_fits p _ _ _ _ _ _ (by decide) (by decide) (by decide) (by omega) (by omega) (by omega), ?_⟩
  refine (decFields_class1 p _ _ _ _ _ _ (by decide)).trans ?_
  refine (show decClass1 (p.fields 0x41 2 0 (0) (0) (0)) = decSub (p.fields 0x41 2 0 (0) (0) (0)) by with_unfolding_all rfl).trans ?_
  simp_all [decSub, need, get, decPar_fields]

theorem Encoding.subImm (p : Par) (imm : BitVec 32) : Encoding.Statement (.subImm p imm) := by
  intro h f hf
  obtain rfl := Option.some.inj hf
  change (p.ok true tyInt .any) = true at h
  have l_imm := imm.isLt
  refine ⟨Par.fields_fits p _ _ _ _ _ _ (by decide) (by decide) (by decide) (by omega) (by omega) (by omega), ?_⟩
  refine (decFields_class1 p _ _ _ _ _ _ (by decide)).trans ?_
  refine (show decClass1 (p.fields 0x41 1 1 (0) (imm.toNat) (0)) = decSubImm (p.fields 0x41 1 1 (0) (imm.toNat) (0)) by with_unfolding_all rfl).trans ?_
  clear l_imm
  simp_all [decSubImm, need, get, decPar_fields]

theorem Encoding.mul (p : Par) : Encoding.Statement (.mul p) := by
  intro h f hf
  obtain rfl := Option.some.inj hf
  change (p.ok false tyInt .any) = true at h
  refine ⟨Par.fields_fits p _ _ _ _ _ _ (by decide) (by decide) (by decide) (by omega) (by omega) (by omega), ?_⟩
  refine (decFields_class1 p _ _ _ _ _ _ (by decide)).trans ?_
  refine (show decClass1 (p.fields 0x42 2 0 (0) (0) (0)) = decMul (p.fields 0x42 2 0 (0) (0) (0)) by with_unfolding_all rfl).trans ?_
  simp_all [decMul, need, get, decPar_fields]

theorem Encoding.mulImm (p : Par) (imm : BitVec 32) : Encoding.Statement (.mulImm p imm) := by
  intro h f hf
  obtain rfl := Option.some.inj hf
  change (p.ok true tyInt .any) = true at h
  have l_imm := imm.isLt
  refine ⟨Par.fields_fits p _ _ _ _ _ _ (by decide) (by decide) (by decide) (by omega) (by omega) (by omega), ?_⟩
  refine (decFields_class1 p _ _ _ _ _ _ (by decide)).trans ?_
  refine (show decClass1 (p.fields 0x42 1 1 (0) (imm.toNat) (0)) = decMulImm (p.fields 0x42 1 1 (0) (imm.toNat) (0)) by with_unfolding_all rfl).trans ?_
  clear l_imm
  simp_all [decMulImm, need, get, decPar_fields]

theorem Encoding.mulh (p : Par) : Encoding.Statement (.mulh p) := by
  intro h f hf
  obtain rfl := Option.some.inj hf
  change (p.ok false tyInt .any) = true at h
  refine ⟨Par.fields_fits p _ _ _ _ _ _ (by decide) (by decide) (by decide) (by omega) (by omega) (by omega), ?_⟩
  refine (decFields_class1 p _ _ _ _ _ _ (by decide)).trans ?_
  refine (show decClass1 (p.fields 0x43 2 0 (0) (0) (0)) = decMulh (p.fields 0x43 2 0 (0) (0) (0)) by with_unfolding_all rfl).trans ?_
  simp_all [decMulh, need, get, decPar_fields]

theorem Encoding.mulhImm (p : Par) (imm : BitVec 32) : Encoding.Statement (.mulhImm p imm) := by
  intro h f hf
  obtain rfl := Option.some.inj hf
  change (p.ok true tyInt .any) = true at h
  have l_imm := imm.isLt
  refine ⟨Par.fields_fits p _ _ _ _ _ _ (by decide) (by decide) (by decide) (by omega) (by omega) (by omega), ?_⟩
  refine (decFields_class1 p _ _ _ _ _ _ (by decide)).trans ?_
  refine (show decClass1 (p.fields 0x43 1 1 (0) (imm.toNat) (0)) = decMulhImm (p.fields 0x43 1 1 (0) (imm.toNat) (0)) by with_unfolding_all rfl).trans ?_
  clear l_imm
  simp_all [decMulhImm, need, get, decPar_fields]

theorem Encoding.div (p : Par) : Encoding.Statement (.div p) := by
  intro h f hf
  obtain rfl := Option.some.inj hf
  change (p.ok false tyInt .any) = true at h
  refine ⟨Par.fields_fits p _ _ _ _ _ _ (by decide) (by decide) (by decide) (by omega) (by omega) (by omega), ?_⟩
  refine (decFields_class1 p _ _ _ _ _ _ (by decide)).trans ?_
  refine (show decClass1 (p.fields 0x44 2 0 (0) (0) (0)) = decDiv (p.fields 0x44 2 0 (0) (0) (0)) by with_unfolding_all rfl).trans ?_
  simp_all [decDiv, need, get, decPar_fields]

theorem Encoding.divImm (p : Par) (imm : BitVec 32) : Encoding.Statement (.divImm p imm) := by
  intro h f hf
  obtain rfl := Option.some.inj hf
  change (p.ok true tyInt .any) = true at h
  have l_imm := imm.isLt
  refine ⟨Par.fields_fits p _ _ _ _ _ _ (by decide) (by decide) (by decide) (by omega) (by omega) (by omega), ?_⟩
  refine (decFields_class1 p _ _ _ _ _ _ (by decide)).trans ?_
  refine (show decClass1 (p.fields 0x44 1 1 (0) (imm.toNat) (0)) = decDivImm (p.fields 0x44 1 1 (0) (imm.toNat) (0)) by with_unfolding_all rfl).trans ?_
  clear l_imm
  simp_all [decDivImm, need, get, decPar_fields]

theorem Encoding.rem (p : Par) : Encoding.Statement (.rem p) := by
  intro h f hf
  obtain rfl := Option.some.inj hf
  change (p.ok false tyInt .any) = true at h
  refine ⟨Par.fields_fits p _ _ _ _ _ _ (by decide) (by decide) (by decide) (by omega) (by omega) (by omega), ?_⟩
  refine (decFields_class1 p _ _ _ _ _ _ (by decide)).trans ?_
  refine (show decClass1 (p.fields 0x45 2 0 (0) (0) (0)) = decRem (p.fields 0x45 2 0 (0) (0) (0)) by with_unfolding_all rfl).trans ?_
  simp_all [decRem, need, get, decPar_fields]

theorem Encoding.remImm (p : Par) (imm : BitVec 32) : Encoding.Statement (.remImm p imm) := by
  intro h f hf
  obtain rfl := Option.some.inj hf
  change (p.ok true tyInt .any) = true at h
  have l_imm := imm.isLt
  refine ⟨Par.fields_fits p _ _ _ _ _ _ (by decide) (by decide) (by decide) (by omega) (by omega) (by omega), ?_⟩
  refine (decFields_class1 p _ _ _ _ _ _ (by decide)).trans ?_
  refine (show decClass1 (p.fields 0x45 1 1 (0) (imm.toNat) (0)) = decRemImm (p.fields 0x45 1 1 (0) (imm.toNat) (0)) by with_unfolding_all rfl).trans ?_
  clear l_imm
  simp_all [decRemImm, need, get, decPar_fields]

theorem Encoding.and (p : Par) : Encoding.Statement (.and p) := by
  intro h f hf
  obtain rfl := Option.some.inj hf
  change (p.ok false tyInt .any) = true at h
  refine ⟨Par.fields_fits p _ _ _ _ _ _ (by decide) (by decide) (by decide) (by omega) (by omega) (by omega), ?_⟩
  refine (decFields_class1 p _ _ _ _ _ _ (by decide)).trans ?_
  refine (show decClass1 (p.fields 0x46 2 0 (0) (0) (0)) = decAnd (p.fields 0x46 2 0 (0) (0) (0)) by with_unfolding_all rfl).trans ?_
  simp_all [decAnd, need, get, decPar_fields]

theorem Encoding.andImm (p : Par) (imm : BitVec 32) : Encoding.Statement (.andImm p imm) := by
  intro h f hf
  obtain rfl := Option.some.inj hf
  change (p.ok true tyInt .any) = true at h
  have l_imm := imm.isLt
  refine ⟨Par.fields_fits p _ _ _ _ _ _ (by decide) (by decide) (by decide) (by omega) (by omega) (by omega), ?_⟩
  refine (decFields_class1 p _ _ _ _ _ _ (by decide)).trans ?_
  refine (show decClass1 (p.fields 0x46 1 1 (0) (imm.toNat) (0)) = decAndImm (p.fields 0x46 1 1 (0) (imm.toNat) (0)) by with_unfolding_all rfl).trans ?_
  clear l_imm
  simp_all [decAndImm, need, get, decPar_fields]

theorem Encoding.or (p : Par) : Encoding.Statement (.or p) := by
  intro h f hf
  obtain rfl := Option.some.inj hf
  change (p.ok false tyInt .any) = true at h
  refine ⟨Par.fields_fits p _ _ _ _ _ _ (by decide) (by decide) (by decide) (by omega) (by omega) (by omega), ?_⟩
  refine (decFields_class1 p _ _ _ _ _ _ (by decide)).trans ?_
  refine (show decClass1 (p.fields 0x47 2 0 (0) (0) (0)) = decOr (p.fields 0x47 2 0 (0) (0) (0)) by with_unfolding_all rfl).trans ?_
  simp_all [decOr, need, get, decPar_fields]

theorem Encoding.orImm (p : Par) (imm : BitVec 32) : Encoding.Statement (.orImm p imm) := by
  intro h f hf
  obtain rfl := Option.some.inj hf
  change (p.ok true tyInt .any) = true at h
  have l_imm := imm.isLt
  refine ⟨Par.fields_fits p _ _ _ _ _ _ (by decide) (by decide) (by decide) (by omega) (by omega) (by omega), ?_⟩
  refine (decFields_class1 p _ _ _ _ _ _ (by decide)).trans ?_
  refine (show decClass1 (p.fields 0x47 1 1 (0) (imm.toNat) (0)) = decOrImm (p.fields 0x47 1 1 (0) (imm.toNat) (0)) by with_unfolding_all rfl).trans ?_
  clear l_imm
  simp_all [decOrImm, need, get, decPar_fields]

theorem Encoding.xor (p : Par) : Encoding.Statement (.xor p) := by
  intro h f hf
  obtain rfl := Option.some.inj hf
  change (p.ok false tyInt .any) = true at h
  refine ⟨Par.fields_fits p _ _ _ _ _ _ (by decide) (by decide) (by decide) (by omega) (by omega) (by omega), ?_⟩
  refine (decFields_class1 p _ _ _ _ _ _ (by decide)).trans ?_
  refine (show decClass1 (p.fields 0x48 2 0 (0) (0) (0)) = decXor (p.fields 0x48 2 0 (0) (0) (0)) by with_unfolding_all rfl).trans ?_
  simp_all [decXor, need, get, decPar_fields]

theorem Encoding.xorImm (p : Par) (imm : BitVec 32) : Encoding.Statement (.xorImm p imm) := by
  intro h f hf
  obtain rfl := Option.some.inj hf
  change (p.ok true tyInt .any) = true at h
  have l_imm := imm.isLt
  refine ⟨Par.fields_fits p _ _ _ _ _ _ (by decide) (by decide) (by decide) (by omega) (by omega) (by omega), ?_⟩
  refine (decFields_class1 p _ _ _ _ _ _ (by decide)).trans ?_
  refine (show decClass1 (p.fields 0x48 1 1 (0) (imm.toNat) (0)) = decXorImm (p.fields 0x48 1 1 (0) (imm.toNat) (0)) by with_unfolding_all rfl).trans ?_
  clear l_imm
  simp_all [decXorImm, need, get, decPar_fields]

theorem Encoding.andn (p : Par) : Encoding.Statement (.andn p) := by
  intro h f hf
  obtain rfl := Option.some.inj hf
  change (p.ok false tyInt .any) = true at h
  refine ⟨Par.fields_fits p _ _ _ _ _ _ (by decide) (by decide) (by decide) (by omega) (by omega) (by omega), ?_⟩
  refine (decFields_class1 p _ _ _ _ _ _ (by decide)).trans ?_
  refine (show decClass1 (p.fields 0x49 2 0 (0) (0) (0)) = decAndn (p.fields 0x49 2 0 (0) (0) (0)) by with_unfolding_all rfl).trans ?_
  simp_all [decAndn, need, get, decPar_fields]

theorem Encoding.andnImm (p : Par) (imm : BitVec 32) : Encoding.Statement (.andnImm p imm) := by
  intro h f hf
  obtain rfl := Option.some.inj hf
  change (p.ok true tyInt .any) = true at h
  have l_imm := imm.isLt
  refine ⟨Par.fields_fits p _ _ _ _ _ _ (by decide) (by decide) (by decide) (by omega) (by omega) (by omega), ?_⟩
  refine (decFields_class1 p _ _ _ _ _ _ (by decide)).trans ?_
  refine (show decClass1 (p.fields 0x49 1 1 (0) (imm.toNat) (0)) = decAndnImm (p.fields 0x49 1 1 (0) (imm.toNat) (0)) by with_unfolding_all rfl).trans ?_
  clear l_imm
  simp_all [decAndnImm, need, get, decPar_fields]

theorem Encoding.shl (p : Par) : Encoding.Statement (.shl p) := by
  intro h f hf
  obtain rfl := Option.some.inj hf
  change (p.ok false tyInt .any) = true at h
  refine ⟨Par.fields_fits p _ _ _ _ _ _ (by decide) (by decide) (by decide) (by omega) (by omega) (by omega), ?_⟩
  refine (decFields_class1 p _ _ _ _ _ _ (by decide)).trans ?_
  refine (show decClass1 (p.fields 0x4a 2 0 (0) (0) (0)) = decShl (p.fields 0x4a 2 0 (0) (0) (0)) by with_unfolding_all rfl).trans ?_
  simp_all [decShl, need, get, decPar_fields]

theorem Encoding.shlImm (p : Par) (imm : BitVec 32) : Encoding.Statement (.shlImm p imm) := by
  intro h f hf
  obtain rfl := Option.some.inj hf
  change (p.ok true tyInt .any) = true at h
  have l_imm := imm.isLt
  refine ⟨Par.fields_fits p _ _ _ _ _ _ (by decide) (by decide) (by decide) (by omega) (by omega) (by omega), ?_⟩
  refine (decFields_class1 p _ _ _ _ _ _ (by decide)).trans ?_
  refine (show decClass1 (p.fields 0x4a 1 1 (0) (imm.toNat) (0)) = decShlImm (p.fields 0x4a 1 1 (0) (imm.toNat) (0)) by with_unfolding_all rfl).trans ?_
  clear l_imm
  simp_all [decShlImm, need, get, decPar_fields]

theorem Encoding.shr (p : Par) : Encoding.Statement (.shr p) := by
  intro h f hf
  obtain rfl := Option.some.inj hf
  change (p.ok false tyInt .any) = true at h
  refine ⟨Par.fields_fits p _ _ _ _ _ _ (by decide) (by decide) (by decide) (by omega) (by omega) (by omega), ?_⟩
  refine (decFields_class1 p _ _ _ _ _ _ (by decide)).trans ?_
  refine (show decClass1 (p.fields 0x4b 2 0 (0) (0) (0)) = decShr (p.fields 0x4b 2 0 (0) (0) (0)) by with_unfolding_all rfl).trans ?_
  simp_all [decShr, need, get, decPar_fields]

theorem Encoding.shrImm (p : Par) (imm : BitVec 32) : Encoding.Statement (.shrImm p imm) := by
  intro h f hf
  obtain rfl := Option.some.inj hf
  change (p.ok true tyInt .any) = true at h
  have l_imm := imm.isLt
  refine ⟨Par.fields_fits p _ _ _ _ _ _ (by decide) (by decide) (by decide) (by omega) (by omega) (by omega), ?_⟩
  refine (decFields_class1 p _ _ _ _ _ _ (by decide)).trans ?_
  refine (show decClass1 (p.fields 0x4b 1 1 (0) (imm.toNat) (0)) = decShrImm (p.fields 0x4b 1 1 (0) (imm.toNat) (0)) by with_unfolding_all rfl).trans ?_
  clear l_imm
  simp_all [decShrImm, need, get, decPar_fields]

theorem Encoding.sar (p : Par) : Encoding.Statement (.sar p) := by
  intro h f hf
  obtain rfl := Option.some.inj hf
  change (p.ok false tyInt .any) = true at h
  refine ⟨Par.fields_fits p _ _ _ _ _ _ (by decide) (by decide) (by decide) (by omega) (by omega) (by omega), ?_⟩
  refine (decFields_class1 p _ _ _ _ _ _ (by decide)).trans ?_
  refine (show decClass1 (p.fields 0x4c 2 0 (0) (0) (0)) = decSar (p.fields 0x4c 2 0 (0) (0) (0)) by with_unfolding_all rfl).trans ?_
  simp_all [decSar, need, get, decPar_fields]

theorem Encoding.sarImm (p : Par) (imm : BitVec 32) : Encoding.Statement (.sarImm p imm) := by
  intro h f hf
  obtain rfl := Option.some.inj hf
  change (p.ok true tyInt .any) = true at h
  have l_imm := imm.isLt
  refine ⟨Par.fields_fits p _ _ _ _ _ _ (by decide) (by decide) (by decide) (by omega) (by omega) (by omega), ?_⟩
  refine (decFields_class1 p _ _ _ _ _ _ (by decide)).trans ?_
  refine (show decClass1 (p.fields 0x4c 1 1 (0) (imm.toNat) (0)) = decSarImm (p.fields 0x4c 1 1 (0) (imm.toNat) (0)) by with_unfolding_all rfl).trans ?_
  clear l_imm
  simp_all [decSarImm, need, get, decPar_fields]

theorem Encoding.rol (p : Par) : Encoding.Statement (.rol p) := by
  intro h f hf
  obtain rfl := Option.some.inj hf
  change (p.ok false tyInt .any) = true at h
  refine ⟨Par.fields_fits p _ _ _ _ _ _ (by decide) (by decide) (by decide) (by omega) (by omega) (by omega), ?_⟩
  refine (decFields_class1 p _ _ _ _ _ _ (by decide)).trans ?_
  refine (show decClass1 (p.fields 0x4d 2 0 (0) (0) (0)) = decRol (p.fields 0x4d 2 0 (0) (0) (0)) by with_unfolding_all rfl).trans ?_
  simp_all [decRol, need, get, decPar_fields]

theorem Encoding.rolImm (p : Par) (imm : BitVec 32) : Encoding.Statement (.rolImm p imm) := by
  intro h f hf
  obtain rfl := Option.some.inj hf
  change (p.ok true tyInt .any) = true at h
  have l_imm := imm.isLt
  refine ⟨Par.fields_fits p _ _ _ _ _ _ (by decide) (by decide) (by decide) (by omega) (by omega) (by omega), ?_⟩
  refine (decFields_class1 p _ _ _ _ _ _ (by decide)).trans ?_
  refine (show decClass1 (p.fields 0x4d 1 1 (0) (imm.toNat) (0)) = decRolImm (p.fields 0x4d 1 1 (0) (imm.toNat) (0)) by with_unfolding_all rfl).trans ?_
  clear l_imm
  simp_all [decRolImm, need, get, decPar_fields]

theorem Encoding.min (p : Par) : Encoding.Statement (.min p) := by
  intro h f hf
  obtain rfl := Option.some.inj hf
  change (p.ok false tyInt .any) = true at h
  refine ⟨Par.fields_fits p _ _ _ _ _ _ (by decide) (by decide) (by decide) (by omega) (by omega) (by omega), ?_⟩
  refine (decFields_class1 p _ _ _ _ _ _ (by decide)).trans ?_
  refine (show decClass1 (p.fields 0x4e 2 0 (0) (0) (0)) = decMin (p.fields 0x4e 2 0 (0) (0) (0)) by with_unfolding_all rfl).trans ?_
  simp_all [decMin, need, get, decPar_fields]

theorem Encoding.minImm (p : Par) (imm : BitVec 32) : Encoding.Statement (.minImm p imm) := by
  intro h f hf
  obtain rfl := Option.some.inj hf
  change (p.ok true tyInt .any) = true at h
  have l_imm := imm.isLt
  refine ⟨Par.fields_fits p _ _ _ _ _ _ (by decide) (by decide) (by decide) (by omega) (by omega) (by omega), ?_⟩
  refine (decFields_class1 p _ _ _ _ _ _ (by decide)).trans ?_
  refine (show decClass1 (p.fields 0x4e 1 1 (0) (imm.toNat) (0)) = decMinImm (p.fields 0x4e 1 1 (0) (imm.toNat) (0)) by with_unfolding_all rfl).trans ?_
  clear l_imm
  simp_all [decMinImm, need, get, decPar_fields]

theorem Encoding.max (p : Par) : Encoding.Statement (.max p) := by
  intro h f hf
  obtain rfl := Option.some.inj hf
  change (p.ok false tyInt .any) = true at h
  refine ⟨Par.fields_fits p _ _ _ _ _ _ (by decide) (by decide) (by decide) (by omega) (by omega) (by omega), ?_⟩
  refine (decFields_class1 p _ _ _ _ _ _ (by decide)).trans ?_
  refine (show decClass1 (p.fields 0x4f 2 0 (0) (0) (0)) = decMax (p.fields 0x4f 2 0 (0) (0) (0)) by with_unfolding_all rfl).trans ?_
  simp_all [decMax, need, get, decPar_fields]

theorem Encoding.maxImm (p : Par) (imm : BitVec 32) : Encoding.Statement (.maxImm p imm) := by
  intro h f hf
  obtain rfl := Option.some.inj hf
  change (p.ok true tyInt .any) = true at h
  have l_imm := imm.isLt
  refine ⟨Par.fields_fits p _ _ _ _ _ _ (by decide) (by decide) (by decide) (by omega) (by omega) (by omega), ?_⟩
  refine (decFields_class1 p _ _ _ _ _ _ (by decide)).trans ?_
  refine (show decClass1 (p.fields 0x4f 1 1 (0) (imm.toNat) (0)) = decMaxImm (p.fields 0x4f 1 1 (0) (imm.toNat) (0)) by with_unfolding_all rfl).trans ?_
  clear l_imm
  simp_all [decMaxImm, need, get, decPar_fields]

theorem Encoding.abs (p : Par) : Encoding.Statement (.abs p) := by
  intro h f hf
  obtain rfl := Option.some.inj hf
  change (p.ok true tyInt .any) = true at h
  refine ⟨Par.fields_fits p _ _ _ _ _ _ (by decide) (by decide) (by decide) (by omega) (by omega) (by omega), ?_⟩
  refine (decFields_class1 p _ _ _ _ _ _ (by decide)).trans ?_
  refine (show decClass1 (p.fields 0x50 1 0 (0) (0) (0)) = decAbs (p.fields 0x50 1 0 (0) (0) (0)) by with_unfolding_all rfl).trans ?_
  simp_all [decAbs, need, get, decPar_fields]

theorem Encoding.neg (p : Par) : Encoding.Statement (.neg p) := by
  intro h f hf
  obtain rfl := Option.some.inj hf
  change (p.ok true tyInt .any) = true at h
  refine ⟨Par.fields_fits p _ _ _ _ _ _ (by decide) (by decide) (by decide) (by omega) (by omega) (by omega), ?_⟩
  refine (decFields_class1 p _ _ _ _ _ _ (by decide)).trans ?_
  refine (show decClass1 (p.fields 0x51 1 0 (0) (0) (0)) = decNeg (p.fields 0x51 1 0 (0) (0) (0)) by with_unfolding_all rfl).trans ?_
  simp_all [decNeg, need, get, decPar_fields]

theorem Encoding.clz (p : Par) : Encoding.Statement (.clz p) := by
  intro h f hf
  obtain rfl := Option.some.inj hf
  change (p.ok true tyInt .any) = true at h
  refine ⟨Par.fields_fits p _ _ _ _ _ _ (by decide) (by decide) (by decide) (by omega) (by omega) (by omega), ?_⟩
  refine (decFields_class1 p _ _ _ _ _ _ (by decide)).trans ?_
  refine (show decClass1 (p.fields 0x52 1 0 (0) (0) (0)) = decClz (p.fields 0x52 1 0 (0) (0) (0)) by with_unfolding_all rfl).trans ?_
  simp_all [decClz, need, get, decPar_fields]

theorem Encoding.ctz (p : Par) : Encoding.Statement (.ctz p) := by
  intro h f hf
  obtain rfl := Option.some.inj hf
  change (p.ok true tyInt .any) = true at h
  refine ⟨Par.fields_fits p _ _ _ _ _ _ (by decide) (by decide) (by decide) (by omega) (by omega) (by omega), ?_⟩
  refine (decFields_class1 p _ _ _ _ _ _ (by decide)).trans ?_
  refine (show decClass1 (p.fields 0x53 1 0 (0) (0) (0)) = decCtz (p.fields 0x53 1 0 (0) (0) (0)) by with_unfolding_all rfl).trans ?_
  simp_all [decCtz, need, get, decPar_fields]

theorem Encoding.popc (p : Par) : Encoding.Statement (.popc p) := by
  intro h f hf
  obtain rfl := Option.some.inj hf
  change (p.ok true tyInt .any) = true at h
  refine ⟨Par.fields_fits p _ _ _ _ _ _ (by decide) (by decide) (by decide) (by omega) (by omega) (by omega), ?_⟩
  refine (decFields_class1 p _ _ _ _ _ _ (by decide)).trans ?_
  refine (show decClass1 (p.fields 0x54 1 0 (0) (0) (0)) = decPopc (p.fields 0x54 1 0 (0) (0) (0)) by with_unfolding_all rfl).trans ?_
  simp_all [decPopc, need, get, decPar_fields]

theorem Encoding.cmp (p : Par) (cond : IntCond) : Encoding.Statement (.cmp p cond) := by
  intro h f hf
  obtain rfl := Option.some.inj hf
  change (p.ok false tyInt .any) = true at h
  have l_cond := intCondCode_lt cond
  have e1 : bf (intCondCode cond) 0 3 = intCondCode cond := by simp only [bf]; omega
  have e2 : bf (intCondCode cond) 3 4 = 0 := by simp only [bf]; omega
  refine ⟨Par.fields_fits p _ _ _ _ _ _ (by decide) (by decide) (by decide) (by omega) (by omega) (by omega), ?_⟩
  refine (decFields_class1 p _ _ _ _ _ _ (by decide)).trans ?_
  refine (show decClass1 (p.fields 0x55 2 0 (intCondCode cond) (0) (0)) = decCmp (p.fields 0x55 2 0 (intCondCode cond) (0) (0)) by with_unfolding_all rfl).trans ?_
  clear l_cond
  simp_all [decCmp, need, get, decPar_fields, e1, e2, intCondOfCode_intCondCode]

theorem Encoding.cmpImm (p : Par) (cond : IntCond) (imm : BitVec 32) : Encoding.Statement (.cmpImm p cond imm) := by
  intro h f hf
  obtain rfl := Option.some.inj hf
  change (p.ok true tyInt .any) = true at h
  have l_cond := intCondCode_lt cond
  have l_imm := imm.isLt
  have e1 : bf (intCondCode cond) 0 3 = intCondCode cond := by simp only [bf]; omega
  have e2 : bf (intCondCode cond) 3 4 = 0 := by simp only [bf]; omega
  refine ⟨Par.fields_fits p _ _ _ _ _ _ (by decide) (by decide) (by decide) (by omega) (by omega) (by omega), ?_⟩
  refine (decFields_class1 p _ _ _ _ _ _ (by decide)).trans ?_
  refine (show decClass1 (p.fields 0x55 1 1 (intCondCode cond) (imm.toNat) (0)) = decCmpImm (p.fields 0x55 1 1 (intCondCode cond) (imm.toNat) (0)) by with_unfolding_all rfl).trans ?_
  clear l_cond l_imm
  simp_all [decCmpImm, need, get, decPar_fields, e1, e2, intCondOfCode_intCondCode]

theorem Encoding.sel (p : Par) : Encoding.Statement (.sel p) := by
  intro h f hf
  obtain rfl := Option.some.inj hf
  change (p.ok false tyInt .any) = true at h
  refine ⟨Par.fields_fits p _ _ _ _ _ _ (by decide) (by decide) (by decide) (by omega) (by omega) (by omega), ?_⟩
  refine (decFields_class1 p _ _ _ _ _ _ (by decide)).trans ?_
  refine (show decClass1 (p.fields 0x56 3 0 (0) (0) (0)) = decSel (p.fields 0x56 3 0 (0) (0) (0)) by with_unfolding_all rfl).trans ?_
  simp_all [decSel, need, get, decPar_fields]

theorem Encoding.selImm (p : Par) (imm : BitVec 32) : Encoding.Statement (.selImm p imm) := by
  intro h f hf
  obtain rfl := Option.some.inj hf
  change (p.ok false tyInt .any) = true at h
  have l_imm := imm.isLt
  refine ⟨Par.fields_fits p _ _ _ _ _ _ (by decide) (by decide) (by decide) (by omega) (by omega) (by omega), ?_⟩
  refine (decFields_class1 p _ _ _ _ _ _ (by decide)).trans ?_
  refine (show decClass1 (p.fields 0x56 2 1 (0) (imm.toNat) (0)) = decSelImm (p.fields 0x56 2 1 (0) (imm.toNat) (0)) by with_unfolding_all rfl).trans ?_
  clear l_imm
  simp_all [decSelImm, need, get, decPar_fields]

theorem Encoding.ext (p : Par) : Encoding.Statement (.ext p) := by
  intro h f hf
  obtain rfl := Option.some.inj hf
  change (p.ok false tyInt64 .any) = true at h
  refine ⟨Par.fields_fits p _ _ _ _ _ _ (by decide) (by decide) (by decide) (by omega) (by omega) (by omega), ?_⟩
  refine (decFields_class1 p _ _ _ _ _ _ (by decide)).trans ?_
  refine (show decClass1 (p.fields 0x57 2 0 (0) (0) (0)) = decExt (p.fields 0x57 2 0 (0) (0) (0)) by with_unfolding_all rfl).trans ?_
  simp_all [decExt, need, get, decPar_fields]

theorem Encoding.extImm (p : Par) (imm : BitVec 32) : Encoding.Statement (.extImm p imm) := by
  intro h f hf
  obtain rfl := Option.some.inj hf
  change (p.ok true tyInt64 .any) = true at h
  have l_imm := imm.isLt
  refine ⟨Par.fields_fits p _ _ _ _ _ _ (by decide) (by decide) (by decide) (by omega) (by omega) (by omega), ?_⟩
  refine (decFields_class1 p _ _ _ _ _ _ (by decide)).trans ?_
  refine (show decClass1 (p.fields 0x57 1 1 (0) (imm.toNat) (0)) = decExtImm (p.fields 0x57 1 1 (0) (imm.toNat) (0)) by with_unfolding_all rfl).trans ?_
  clear l_imm
  simp_all [decExtImm, need, get, decPar_fields]

theorem Encoding.ins (p : Par) : Encoding.Statement (.ins p) := by
  intro h f hf
  obtain rfl := Option.some.inj hf
  change (p.ok false tyInt64 .any) = true at h
  refine ⟨Par.fields_fits p _ _ _ _ _ _ (by decide) (by decide) (by decide) (by omega) (by omega) (by omega), ?_⟩
  refine (decFields_class1 p _ _ _ _ _ _ (by decide)).trans ?_
  refine (show decClass1 (p.fields 0x58 3 0 (0) (0) (0)) = decIns (p.fields 0x58 3 0 (0) (0) (0)) by with_unfolding_all rfl).trans ?_
  simp_all [decIns, need, get, decPar_fields]

theorem Encoding.insImm (p : Par) (imm : BitVec 32) : Encoding.Statement (.insImm p imm) := by
  intro h f hf
  obtain rfl := Option.some.inj hf
  change (p.ok false tyInt64 .any) = true at h
  have l_imm := imm.isLt
  refine ⟨Par.fields_fits p _ _ _ _ _ _ (by decide) (by decide) (by decide) (by omega) (by omega) (by omega), ?_⟩
  refine (decFields_class1 p _ _ _ _ _ _ (by decide)).trans ?_
  refine (show decClass1 (p.fields 0x58 2 1 (0) (imm.toNat) (0)) = decInsImm (p.fields 0x58 2 1 (0) (imm.toNat) (0)) by with_unfolding_all rfl).trans ?_
  clear l_imm
  simp_all [decInsImm, need, get, decPar_fields]

theorem Encoding.mad (p : Par) : Encoding.Statement (.mad p) := by
  intro h f hf
  obtain rfl := Option.some.inj hf
  change (p.ok false tyInt .any) = true at h
  refine ⟨Par.fields_fits p _ _ _ _ _ _ (by decide) (by decide) (by decide) (by omega) (by omega) (by omega), ?_⟩
  refine (decFields_class1 p _ _ _ _ _ _ (by decide)).trans ?_
  refine (show decClass1 (p.fields 0x59 3 0 (0) (0) (0)) = decMad (p.fields 0x59 3 0 (0) (0) (0)) by with_unfolding_all rfl).trans ?_
  simp_all [decMad, need, get, decPar_fields]

theorem Encoding.madImm (p : Par) (imm : BitVec 32) : Encoding.Statement (.madImm p imm) := by
  intro h f hf
  obtain rfl := Option.some.inj hf
  change (p.ok false tyInt .any) = true at h
  have l_imm := imm.isLt
  refine ⟨Par.fields_fits p _ _ _ _ _ _ (by decide) (by decide) (by decide) (by omega) (by omega) (by omega), ?_⟩
  refine (decFields_class1 p _ _ _ _ _ _ (by decide)).trans ?_
  refine (show decClass1 (p.fields 0x59 2 1 (0) (imm.toNat) (0)) = decMadImm (p.fields 0x59 2 1 (0) (imm.toNat) (0)) by with_unfolding_all rfl).trans ?_
  clear l_imm
  simp_all [decMadImm, need, get, decPar_fields]

theorem Encoding.adds (p : Par) : Encoding.Statement (.adds p) := by
  intro h f hf
  obtain rfl := Option.some.inj hf
  change (p.ok false tyInt .any) = true at h
  refine ⟨Par.fields_fits p _ _ _ _ _ _ (by decide) (by decide) (by decide) (by omega) (by omega) (by omega), ?_⟩
  refine (decFields_class1 p _ _ _ _ _ _ (by decide)).trans ?_
  refine (show decClass1 (p.fields 0x5a 2 0 (0) (0) (0)) = decAdds (p.fields 0x5a 2 0 (0) (0) (0)) by with_unfolding_all rfl).trans ?_
  simp_all [decAdds, need, get, decPar_fields]

theorem Encoding.addsImm (p : Par) (imm : BitVec 32) : Encoding.Statement (.addsImm p imm) := by
  intro h f hf
  obtain rfl := Option.some.inj hf
  change (p.ok true tyInt .any) = true at h
  have l_imm := imm.isLt
  refine ⟨Par.fields_fits p _ _ _ _ _ _ (by decide) (by decide) (by decide) (by omega) (by omega) (by omega), ?_⟩
  refine (decFields_class1 p _ _ _ _ _ _ (by decide)).trans ?_
  refine (show decClass1 (p.fields 0x5a 1 1 (0) (imm.toNat) (0)) = decAddsImm (p.fields 0x5a 1 1 (0) (imm.toNat) (0)) by with_unfolding_all rfl).trans ?_
  clear l_imm
  simp_all [decAddsImm, need, get, decPar_fields]

theorem Encoding.subs (p : Par) : Encoding.Statement (.subs p) := by
  intro h f hf
  obtain rfl := Option.some.inj hf
  change (p.ok false tyInt .any) = true at h
  refine ⟨Par.fields_fits p _ _ _ _ _ _ (by decide) (by decide) (by decide) (by omega) (by omega) (by omega), ?_⟩
  refine (decFields_class1 p _ _ _ _ _ _ (by decide)).trans ?_
  refine (show decClass1 (p.fields 0x5b 2 0 (0) (0) (0)) = decSubs (p.fields 0x5b 2 0 (0) (0) (0)) by with_unfolding_all rfl).trans ?_
  simp_all [decSubs, need, get, decPar_fields]

theorem Encoding.subsImm (p : Par) (imm : BitVec 32) : Encoding.Statement (.subsImm p imm) := by
  intro h f hf
  obtain rfl := Option.some.inj hf
  change (p.ok true tyInt .any) = true at h
  have l_imm := imm.isLt
  refine ⟨Par.fields_fits p _ _ _ _ _ _ (by decide) (by decide) (by decide) (by omega) (by omega) (by omega), ?_⟩
  refine (decFields_class1 p _ _ _ _ _ _ (by decide)).trans ?_
  refine (show decClass1 (p.fields 0x5b 1 1 (0) (imm.toNat) (0)) = decSubsImm (p.fields 0x5b 1 1 (0) (imm.toNat) (0)) by with_unfolding_all rfl).trans ?_
  clear l_imm
  simp_all [decSubsImm, need, get, decPar_fields]

theorem Encoding.fadd (p : Par) (mode : Mode) : Encoding.Statement (.fadd p mode) := by
  intro h f hf
  obtain rfl := Option.some.inj hf
  change (p.ok false tyFlt .any) = true at h
  have l_mode := modeCode_lt mode
  have e1 : bf (modeCode mode) 0 2 = modeCode mode := by simp only [bf]; omega
  have e2 : bf (modeCode mode) 2 5 = 0 := by simp only [bf]; omega
  refine ⟨Par.fields_fits p _ _ _ _ _ _ (by decide) (by decide) (by decide) (by omega) (by omega) (by omega), ?_⟩
  refine (decFields_class2 p _ _ _ _ _ _ (by decide)).trans ?_
  refine (show decClass2 (p.fields 0x80 2 0 (modeCode mode) (0) (0)) = decFadd (p.fields 0x80 2 0 (modeCode mode) (0) (0)) by with_unfolding_all rfl).trans ?_
  clear l_mode
  simp_all [decFadd, need, get, decPar_fields, e1, e2, modeOfCode_modeCode]

theorem Encoding.faddImm (p : Par) (mode : Mode) (imm : BitVec 32) : Encoding.Statement (.faddImm p mode imm) := by
  intro h f hf
  obtain rfl := Option.some.inj hf
  change (p.ok true tyFlt .any) = true at h
  have l_mode := modeCode_lt mode
  have l_imm := imm.isLt
  have e1 : bf (modeCode mode) 0 2 = modeCode mode := by simp only [bf]; omega
  have e2 : bf (modeCode mode) 2 5 = 0 := by simp only [bf]; omega
  refine ⟨Par.fields_fits p _ _ _ _ _ _ (by decide) (by decide) (by decide) (by omega) (by omega) (by omega), ?_⟩
  refine (decFields_class2 p _ _ _ _ _ _ (by decide)).trans ?_
  refine (show decClass2 (p.fields 0x80 1 1 (modeCode mode) (imm.toNat) (0)) = decFaddImm (p.fields 0x80 1 1 (modeCode mode) (imm.toNat) (0)) by with_unfolding_all rfl).trans ?_
  clear l_mode l_imm
  simp_all [decFaddImm, need, get, decPar_fields, e1, e2, modeOfCode_modeCode]

theorem Encoding.fsub (p : Par) (mode : Mode) : Encoding.Statement (.fsub p mode) := by
  intro h f hf
  obtain rfl := Option.some.inj hf
  change (p.ok false tyFlt .any) = true at h
  have l_mode := modeCode_lt mode
  have e1 : bf (modeCode mode) 0 2 = modeCode mode := by simp only [bf]; omega
  have e2 : bf (modeCode mode) 2 5 = 0 := by simp only [bf]; omega
  refine ⟨Par.fields_fits p _ _ _ _ _ _ (by decide) (by decide) (by decide) (by omega) (by omega) (by omega), ?_⟩
  refine (decFields_class2 p _ _ _ _ _ _ (by decide)).trans ?_
  refine (show decClass2 (p.fields 0x81 2 0 (modeCode mode) (0) (0)) = decFsub (p.fields 0x81 2 0 (modeCode mode) (0) (0)) by with_unfolding_all rfl).trans ?_
  clear l_mode
  simp_all [decFsub, need, get, decPar_fields, e1, e2, modeOfCode_modeCode]

theorem Encoding.fsubImm (p : Par) (mode : Mode) (imm : BitVec 32) : Encoding.Statement (.fsubImm p mode imm) := by
  intro h f hf
  obtain rfl := Option.some.inj hf
  change (p.ok true tyFlt .any) = true at h
  have l_mode := modeCode_lt mode
  have l_imm := imm.isLt
  have e1 : bf (modeCode mode) 0 2 = modeCode mode := by simp only [bf]; omega
  have e2 : bf (modeCode mode) 2 5 = 0 := by simp only [bf]; omega
  refine ⟨Par.fields_fits p _ _ _ _ _ _ (by decide) (by decide) (by decide) (by omega) (by omega) (by omega), ?_⟩
  refine (decFields_class2 p _ _ _ _ _ _ (by decide)).trans ?_
  refine (show decClass2 (p.fields 0x81 1 1 (modeCode mode) (imm.toNat) (0)) = decFsubImm (p.fields 0x81 1 1 (modeCode mode) (imm.toNat) (0)) by with_unfolding_all rfl).trans ?_
  clear l_mode l_imm
  simp_all [decFsubImm, need, get, decPar_fields, e1, e2, modeOfCode_modeCode]

theorem Encoding.fmul (p : Par) (mode : Mode) : Encoding.Statement (.fmul p mode) := by
  intro h f hf
  obtain rfl := Option.some.inj hf
  change (p.ok false tyFlt .any) = true at h
  have l_mode := modeCode_lt mode
  have e1 : bf (modeCode mode) 0 2 = modeCode mode := by simp only [bf]; omega
  have e2 : bf (modeCode mode) 2 5 = 0 := by simp only [bf]; omega
  refine ⟨Par.fields_fits p _ _ _ _ _ _ (by decide) (by decide) (by decide) (by omega) (by omega) (by omega), ?_⟩
  refine (decFields_class2 p _ _ _ _ _ _ (by decide)).trans ?_
  refine (show decClass2 (p.fields 0x82 2 0 (modeCode mode) (0) (0)) = decFmul (p.fields 0x82 2 0 (modeCode mode) (0) (0)) by with_unfolding_all rfl).trans ?_
  clear l_mode
  simp_all [decFmul, need, get, decPar_fields, e1, e2, modeOfCode_modeCode]

theorem Encoding.fmulImm (p : Par) (mode : Mode) (imm : BitVec 32) : Encoding.Statement (.fmulImm p mode imm) := by
  intro h f hf
  obtain rfl := Option.some.inj hf
  change (p.ok true tyFlt .any) = true at h
  have l_mode := modeCode_lt mode
  have l_imm := imm.isLt
  have e1 : bf (modeCode mode) 0 2 = modeCode mode := by simp only [bf]; omega
  have e2 : bf (modeCode mode) 2 5 = 0 := by simp only [bf]; omega
  refine ⟨Par.fields_fits p _ _ _ _ _ _ (by decide) (by decide) (by decide) (by omega) (by omega) (by omega), ?_⟩
  refine (decFields_class2 p _ _ _ _ _ _ (by decide)).trans ?_
  refine (show decClass2 (p.fields 0x82 1 1 (modeCode mode) (imm.toNat) (0)) = decFmulImm (p.fields 0x82 1 1 (modeCode mode) (imm.toNat) (0)) by with_unfolding_all rfl).trans ?_
  clear l_mode l_imm
  simp_all [decFmulImm, need, get, decPar_fields, e1, e2, modeOfCode_modeCode]

theorem Encoding.ffma (p : Par) (mode : Mode) : Encoding.Statement (.ffma p mode) := by
  intro h f hf
  obtain rfl := Option.some.inj hf
  change (p.ok false tyFlt .any) = true at h
  have l_mode := modeCode_lt mode
  have e1 : bf (modeCode mode) 0 2 = modeCode mode := by simp only [bf]; omega
  have e2 : bf (modeCode mode) 2 5 = 0 := by simp only [bf]; omega
  refine ⟨Par.fields_fits p _ _ _ _ _ _ (by decide) (by decide) (by decide) (by omega) (by omega) (by omega), ?_⟩
  refine (decFields_class2 p _ _ _ _ _ _ (by decide)).trans ?_
  refine (show decClass2 (p.fields 0x83 3 0 (modeCode mode) (0) (0)) = decFfma (p.fields 0x83 3 0 (modeCode mode) (0) (0)) by with_unfolding_all rfl).trans ?_
  clear l_mode
  simp_all [decFfma, need, get, decPar_fields, e1, e2, modeOfCode_modeCode]

theorem Encoding.ffmaImm (p : Par) (mode : Mode) (imm : BitVec 32) : Encoding.Statement (.ffmaImm p mode imm) := by
  intro h f hf
  obtain rfl := Option.some.inj hf
  change (p.ok false tyFlt .any) = true at h
  have l_mode := modeCode_lt mode
  have l_imm := imm.isLt
  have e1 : bf (modeCode mode) 0 2 = modeCode mode := by simp only [bf]; omega
  have e2 : bf (modeCode mode) 2 5 = 0 := by simp only [bf]; omega
  refine ⟨Par.fields_fits p _ _ _ _ _ _ (by decide) (by decide) (by decide) (by omega) (by omega) (by omega), ?_⟩
  refine (decFields_class2 p _ _ _ _ _ _ (by decide)).trans ?_
  refine (show decClass2 (p.fields 0x83 2 1 (modeCode mode) (imm.toNat) (0)) = decFfmaImm (p.fields 0x83 2 1 (modeCode mode) (imm.toNat) (0)) by with_unfolding_all rfl).trans ?_
  clear l_mode l_imm
  simp_all [decFfmaImm, need, get, decPar_fields, e1, e2, modeOfCode_modeCode]

theorem Encoding.fdiv (p : Par) (mode : Mode) : Encoding.Statement (.fdiv p mode) := by
  intro h f hf
  obtain rfl := Option.some.inj hf
  change (p.ok false tyFlt .any) = true at h
  have l_mode := modeCode_lt mode
  have e1 : bf (modeCode mode) 0 2 = modeCode mode := by simp only [bf]; omega
  have e2 : bf (modeCode mode) 2 5 = 0 := by simp only [bf]; omega
  refine ⟨Par.fields_fits p _ _ _ _ _ _ (by decide) (by decide) (by decide) (by omega) (by omega) (by omega), ?_⟩
  refine (decFields_class2 p _ _ _ _ _ _ (by decide)).trans ?_
  refine (show decClass2 (p.fields 0x84 2 0 (modeCode mode) (0) (0)) = decFdiv (p.fields 0x84 2 0 (modeCode mode) (0) (0)) by with_unfolding_all rfl).trans ?_
  clear l_mode
  simp_all [decFdiv, need, get, decPar_fields, e1, e2, modeOfCode_modeCode]

theorem Encoding.fdivImm (p : Par) (mode : Mode) (imm : BitVec 32) : Encoding.Statement (.fdivImm p mode imm) := by
  intro h f hf
  obtain rfl := Option.some.inj hf
  change (p.ok true tyFlt .any) = true at h
  have l_mode := modeCode_lt mode
  have l_imm := imm.isLt
  have e1 : bf (modeCode mode) 0 2 = modeCode mode := by simp only [bf]; omega
  have e2 : bf (modeCode mode) 2 5 = 0 := by simp only [bf]; omega
  refine ⟨Par.fields_fits p _ _ _ _ _ _ (by decide) (by decide) (by decide) (by omega) (by omega) (by omega), ?_⟩
  refine (decFields_class2 p _ _ _ _ _ _ (by decide)).trans ?_
  refine (show decClass2 (p.fields 0x84 1 1 (modeCode mode) (imm.toNat) (0)) = decFdivImm (p.fields 0x84 1 1 (modeCode mode) (imm.toNat) (0)) by with_unfolding_all rfl).trans ?_
  clear l_mode l_imm
  simp_all [decFdivImm, need, get, decPar_fields, e1, e2, modeOfCode_modeCode]

theorem Encoding.fsqrt (p : Par) (mode : Mode) : Encoding.Statement (.fsqrt p mode) := by
  intro h f hf
  obtain rfl := Option.some.inj hf
  change (p.ok true tyFlt .any) = true at h
  have l_mode := modeCode_lt mode
  have e1 : bf (modeCode mode) 0 2 = modeCode mode := by simp only [bf]; omega
  have e2 : bf (modeCode mode) 2 5 = 0 := by simp only [bf]; omega
  refine ⟨Par.fields_fits p _ _ _ _ _ _ (by decide) (by decide) (by decide) (by omega) (by omega) (by omega), ?_⟩
  refine (decFields_class2 p _ _ _ _ _ _ (by decide)).trans ?_
  refine (show decClass2 (p.fields 0x85 1 0 (modeCode mode) (0) (0)) = decFsqrt (p.fields 0x85 1 0 (modeCode mode) (0) (0)) by with_unfolding_all rfl).trans ?_
  clear l_mode
  simp_all [decFsqrt, need, get, decPar_fields, e1, e2, modeOfCode_modeCode]

theorem Encoding.frcp (p : Par) (mode : Mode) : Encoding.Statement (.frcp p mode) := by
  intro h f hf
  obtain rfl := Option.some.inj hf
  change (p.ok true tyFlt .any) = true at h
  have l_mode := modeCode_lt mode
  have e1 : bf (modeCode mode) 0 2 = modeCode mode := by simp only [bf]; omega
  have e2 : bf (modeCode mode) 2 5 = 0 := by simp only [bf]; omega
  refine ⟨Par.fields_fits p _ _ _ _ _ _ (by decide) (by decide) (by decide) (by omega) (by omega) (by omega), ?_⟩
  refine (decFields_class2 p _ _ _ _ _ _ (by decide)).trans ?_
  refine (show decClass2 (p.fields 0x86 1 0 (modeCode mode) (0) (0)) = decFrcp (p.fields 0x86 1 0 (modeCode mode) (0) (0)) by with_unfolding_all rfl).trans ?_
  clear l_mode
  simp_all [decFrcp, need, get, decPar_fields, e1, e2, modeOfCode_modeCode]

theorem Encoding.frsq (p : Par) (mode : Mode) : Encoding.Statement (.frsq p mode) := by
  intro h f hf
  obtain rfl := Option.some.inj hf
  change (p.ok true tyFlt .any) = true at h
  have l_mode := modeCode_lt mode
  have e1 : bf (modeCode mode) 0 2 = modeCode mode := by simp only [bf]; omega
  have e2 : bf (modeCode mode) 2 5 = 0 := by simp only [bf]; omega
  refine ⟨Par.fields_fits p _ _ _ _ _ _ (by decide) (by decide) (by decide) (by omega) (by omega) (by omega), ?_⟩
  refine (decFields_class2 p _ _ _ _ _ _ (by decide)).trans ?_
  refine (show decClass2 (p.fields 0x87 1 0 (modeCode mode) (0) (0)) = decFrsq (p.fields 0x87 1 0 (modeCode mode) (0) (0)) by with_unfolding_all rfl).trans ?_
  clear l_mode
  simp_all [decFrsq, need, get, decPar_fields, e1, e2, modeOfCode_modeCode]

theorem Encoding.fmin (p : Par) : Encoding.Statement (.fmin p) := by
  intro h f hf
  obtain rfl := Option.some.inj hf
  change (p.ok false tyFlt .any) = true at h
  refine ⟨Par.fields_fits p _ _ _ _ _ _ (by decide) (by decide) (by decide) (by omega) (by omega) (by omega), ?_⟩
  refine (decFields_class2 p _ _ _ _ _ _ (by decide)).trans ?_
  refine (show decClass2 (p.fields 0x88 2 0 (0) (0) (0)) = decFmin (p.fields 0x88 2 0 (0) (0) (0)) by with_unfolding_all rfl).trans ?_
  simp_all [decFmin, need, get, decPar_fields]

theorem Encoding.fminImm (p : Par) (imm : BitVec 32) : Encoding.Statement (.fminImm p imm) := by
  intro h f hf
  obtain rfl := Option.some.inj hf
  change (p.ok true tyFlt .any) = true at h
  have l_imm := imm.isLt
  refine ⟨Par.fields_fits p _ _ _ _ _ _ (by decide) (by decide) (by decide) (by omega) (by omega) (by omega), ?_⟩
  refine (decFields_class2 p _ _ _ _ _ _ (by decide)).trans ?_
  refine (show decClass2 (p.fields 0x88 1 1 (0) (imm.toNat) (0)) = decFminImm (p.fields 0x88 1 1 (0) (imm.toNat) (0)) by with_unfolding_all rfl).trans ?_
  clear l_imm
  simp_all [decFminImm, need, get, decPar_fields]

theorem Encoding.fmax (p : Par) : Encoding.Statement (.fmax p) := by
  intro h f hf
  obtain rfl := Option.some.inj hf
  change (p.ok false tyFlt .any) = true at h
  refine ⟨Par.fields_fits p _ _ _ _ _ _ (by decide) (by decide) (by decide) (by omega) (by omega) (by omega), ?_⟩
  refine (decFields_class2 p _ _ _ _ _ _ (by decide)).trans ?_
  refine (show decClass2 (p.fields 0x89 2 0 (0) (0) (0)) = decFmax (p.fields 0x89 2 0 (0) (0) (0)) by with_unfolding_all rfl).trans ?_
  simp_all [decFmax, need, get, decPar_fields]

theorem Encoding.fmaxImm (p : Par) (imm : BitVec 32) : Encoding.Statement (.fmaxImm p imm) := by
  intro h f hf
  obtain rfl := Option.some.inj hf
  change (p.ok true tyFlt .any) = true at h
  have l_imm := imm.isLt
  refine ⟨Par.fields_fits p _ _ _ _ _ _ (by decide) (by decide) (by decide) (by omega) (by omega) (by omega), ?_⟩
  refine (decFields_class2 p _ _ _ _ _ _ (by decide)).trans ?_
  refine (show decClass2 (p.fields 0x89 1 1 (0) (imm.toNat) (0)) = decFmaxImm (p.fields 0x89 1 1 (0) (imm.toNat) (0)) by with_unfolding_all rfl).trans ?_
  clear l_imm
  simp_all [decFmaxImm, need, get, decPar_fields]

theorem Encoding.fabs (p : Par) : Encoding.Statement (.fabs p) := by
  intro h f hf
  obtain rfl := Option.some.inj hf
  change (p.ok true tyFlt .any) = true at h
  refine ⟨Par.fields_fits p _ _ _ _ _ _ (by decide) (by decide) (by decide) (by omega) (by omega) (by omega), ?_⟩
  refine (decFields_class2 p _ _ _ _ _ _ (by decide)).trans ?_
  refine (show decClass2 (p.fields 0x8a 1 0 (0) (0) (0)) = decFabs (p.fields 0x8a 1 0 (0) (0) (0)) by with_unfolding_all rfl).trans ?_
  simp_all [decFabs, need, get, decPar_fields]

theorem Encoding.fneg (p : Par) : Encoding.Statement (.fneg p) := by
  intro h f hf
  obtain rfl := Option.some.inj hf
  change (p.ok true tyFlt .any) = true at h
  refine ⟨Par.fields_fits p _ _ _ _ _ _ (by decide) (by decide) (by decide) (by omega) (by omega) (by omega), ?_⟩
  refine (decFields_class2 p _ _ _ _ _ _ (by decide)).trans ?_
  refine (show decClass2 (p.fields 0x8b 1 0 (0) (0) (0)) = decFneg (p.fields 0x8b 1 0 (0) (0) (0)) by with_unfolding_all rfl).trans ?_
  simp_all [decFneg, need, get, decPar_fields]

theorem Encoding.fcmp (p : Par) (cond : FltCond) : Encoding.Statement (.fcmp p cond) := by
  intro h f hf
  obtain rfl := Option.some.inj hf
  change (p.ok false tyFlt .any) = true at h
  have l_cond := fltCondCode_lt cond
  have e1 : bf (fltCondCode cond) 0 3 = fltCondCode cond := by simp only [bf]; omega
  have e2 : bf (fltCondCode cond) 3 4 = 0 := by simp only [bf]; omega
  refine ⟨Par.fields_fits p _ _ _ _ _ _ (by decide) (by decide) (by decide) (by omega) (by omega) (by omega), ?_⟩
  refine (decFields_class2 p _ _ _ _ _ _ (by decide)).trans ?_
  refine (show decClass2 (p.fields 0x8c 2 0 (fltCondCode cond) (0) (0)) = decFcmp (p.fields 0x8c 2 0 (fltCondCode cond) (0) (0)) by with_unfolding_all rfl).trans ?_
  clear l_cond
  simp_all [decFcmp, need, get, decPar_fields, e1, e2, fltCondOfCode_fltCondCode]

theorem Encoding.fcmpImm (p : Par) (cond : FltCond) (imm : BitVec 32) : Encoding.Statement (.fcmpImm p cond imm) := by
  intro h f hf
  obtain rfl := Option.some.inj hf
  change (p.ok true tyFlt .any) = true at h
  have l_cond := fltCondCode_lt cond
  have l_imm := imm.isLt
  have e1 : bf (fltCondCode cond) 0 3 = fltCondCode cond := by simp only [bf]; omega
  have e2 : bf (fltCondCode cond) 3 4 = 0 := by simp only [bf]; omega
  refine ⟨Par.fields_fits p _ _ _ _ _ _ (by decide) (by decide) (by decide) (by omega) (by omega) (by omega), ?_⟩
  refine (decFields_class2 p _ _ _ _ _ _ (by decide)).trans ?_
  refine (show decClass2 (p.fields 0x8c 1 1 (fltCondCode cond) (imm.toNat) (0)) = decFcmpImm (p.fields 0x8c 1 1 (fltCondCode cond) (imm.toNat) (0)) by with_unfolding_all rfl).trans ?_
  clear l_cond l_imm
  simp_all [decFcmpImm, need, get, decPar_fields, e1, e2, fltCondOfCode_fltCondCode]

theorem Encoding.fclass (p : Par) : Encoding.Statement (.fclass p) := by
  intro h f hf
  obtain rfl := Option.some.inj hf
  change (p.ok true tyFlt .any) = true at h
  refine ⟨Par.fields_fits p _ _ _ _ _ _ (by decide) (by decide) (by decide) (by omega) (by omega) (by omega), ?_⟩
  refine (decFields_class2 p _ _ _ _ _ _ (by decide)).trans ?_
  refine (show decClass2 (p.fields 0x8d 1 0 (0) (0) (0)) = decFclass (p.fields 0x8d 1 0 (0) (0) (0)) by with_unfolding_all rfl).trans ?_
  simp_all [decFclass, need, get, decPar_fields]

theorem Encoding.fcvt (p : Par) (mode : Mode) (sat : Bool) (dty : Ty) : Encoding.Statement (.fcvt p mode sat dty) := by
  intro h f hf
  obtain rfl := Option.some.inj hf
  change (p.ok true tyCvt .any && (tyCvt.contains dty && dty != p.ty)) = true at h
  simp only [Bool.and_eq_true] at h
  have l_mode := modeCode_lt mode
  have l_sat := bit_le sat
  have l_dty := tyCode_lt dty
  have e1 : bf (modeCode mode + (if sat then 1 else 0) * 2 ^ 2) 2 1 = (if sat then 1 else 0) := by simp only [bf]; omega
  have e2 : bf (tyCode dty) 0 4 = tyCode dty := by simp only [bf]; omega
  have e3 : bf (modeCode mode + (if sat then 1 else 0) * 2 ^ 2) 0 2 = modeCode mode := by simp only [bf]; omega
  have e4 : bf (modeCode mode + (if sat then 1 else 0) * 2 ^ 2) 3 4 = 0 := by simp only [bf]; omega
  have e5 : bf (tyCode dty) 4 12 = 0 := by simp only [bf]; omega
  refine ⟨Par.fields_fits p _ _ _ _ _ _ (by decide) (by decide) (by decide) (by omega) (by omega) (by omega), ?_⟩
  refine (decFields_class2 p _ _ _ _ _ _ (by decide)).trans ?_
  refine (show decClass2 (p.fields 0x8e 1 0 (modeCode mode + (if sat then 1 else 0) * 2 ^ 2) (0) (tyCode dty)) = decFcvt (p.fields 0x8e 1 0 (modeCode mode + (if sat then 1 else 0) * 2 ^ 2) (0) (tyCode dty)) by with_unfolding_all rfl).trans ?_
  clear l_mode l_sat l_dty
  simp_all [decFcvt, need, get, decPar_fields, e1, e2, e3, e4, e5, modeOfCode_modeCode, tyOfCode_tyCode, bit_eq]

theorem Encoding.ftoi (p : Par) (mode : Mode) (dty : Ty) : Encoding.Statement (.ftoi p mode dty) := by
  intro h f hf
  obtain rfl := Option.some.inj hf
  change (p.ok true tyCvt .any && (tyInt.contains dty)) = true at h
  simp only [Bool.and_eq_true] at h
  have l_mode := modeCode_lt mode
  have l_dty := tyCode_lt dty
  have e1 : bf (tyCode dty) 0 4 = tyCode dty := by simp only [bf]; omega
  have e2 : bf (modeCode mode) 0 2 = modeCode mode := by simp only [bf]; omega
  have e3 : bf (modeCode mode) 2 5 = 0 := by simp only [bf]; omega
  have e4 : bf (tyCode dty) 4 12 = 0 := by simp only [bf]; omega
  refine ⟨Par.fields_fits p _ _ _ _ _ _ (by decide) (by decide) (by decide) (by omega) (by omega) (by omega), ?_⟩
  refine (decFields_class2 p _ _ _ _ _ _ (by decide)).trans ?_
  refine (show decClass2 (p.fields 0x8f 1 0 (modeCode mode) (0) (tyCode dty)) = decFtoi (p.fields 0x8f 1 0 (modeCode mode) (0) (tyCode dty)) by with_unfolding_all rfl).trans ?_
  clear l_mode l_dty
  simp_all [decFtoi, need, get, decPar_fields, e1, e2, e3, e4, modeOfCode_modeCode, tyOfCode_tyCode]

theorem Encoding.itof (p : Par) (mode : Mode) (sat : Bool) (dty : Ty) : Encoding.Statement (.itof p mode sat dty) := by
  intro h f hf
  obtain rfl := Option.some.inj hf
  change (p.ok true tyInt .any && (tyCvt.contains dty)) = true at h
  simp only [Bool.and_eq_true] at h
  have l_mode := modeCode_lt mode
  have l_sat := bit_le sat
  have l_dty := tyCode_lt dty
  have e1 : bf (modeCode mode + (if sat then 1 else 0) * 2 ^ 2) 2 1 = (if sat then 1 else 0) := by simp only [bf]; omega
  have e2 : bf (tyCode dty) 0 4 = tyCode dty := by simp only [bf]; omega
  have e3 : bf (modeCode mode + (if sat then 1 else 0) * 2 ^ 2) 0 2 = modeCode mode := by simp only [bf]; omega
  have e4 : bf (modeCode mode + (if sat then 1 else 0) * 2 ^ 2) 3 4 = 0 := by simp only [bf]; omega
  have e5 : bf (tyCode dty) 4 12 = 0 := by simp only [bf]; omega
  refine ⟨Par.fields_fits p _ _ _ _ _ _ (by decide) (by decide) (by decide) (by omega) (by omega) (by omega), ?_⟩
  refine (decFields_class2 p _ _ _ _ _ _ (by decide)).trans ?_
  refine (show decClass2 (p.fields 0x90 1 0 (modeCode mode + (if sat then 1 else 0) * 2 ^ 2) (0) (tyCode dty)) = decItof (p.fields 0x90 1 0 (modeCode mode + (if sat then 1 else 0) * 2 ^ 2) (0) (tyCode dty)) by with_unfolding_all rfl).trans ?_
  clear l_mode l_sat l_dty
  simp_all [decItof, need, get, decPar_fields, e1, e2, e3, e4, e5, modeOfCode_modeCode, tyOfCode_tyCode, bit_eq]

theorem Encoding.frnd (p : Par) (mode : Mode) : Encoding.Statement (.frnd p mode) := by
  intro h f hf
  obtain rfl := Option.some.inj hf
  change (p.ok true tyFlt .any) = true at h
  have l_mode := modeCode_lt mode
  have e1 : bf (modeCode mode) 0 2 = modeCode mode := by simp only [bf]; omega
  have e2 : bf (modeCode mode) 2 5 = 0 := by simp only [bf]; omega
  refine ⟨Par.fields_fits p _ _ _ _ _ _ (by decide) (by decide) (by decide) (by omega) (by omega) (by omega), ?_⟩
  refine (decFields_class2 p _ _ _ _ _ _ (by decide)).trans ?_
  refine (show decClass2 (p.fields 0x91 1 0 (modeCode mode) (0) (0)) = decFrnd (p.fields 0x91 1 0 (modeCode mode) (0) (0)) by with_unfolding_all rfl).trans ?_
  clear l_mode
  simp_all [decFrnd, need, get, decPar_fields, e1, e2, modeOfCode_modeCode]

theorem Encoding.fldx (p : Par) (mode : Mode) : Encoding.Statement (.fldx p mode) := by
  intro h f hf
  obtain rfl := Option.some.inj hf
  change (p.ok false tyFlt .any) = true at h
  have l_mode := modeCode_lt mode
  have e1 : bf (modeCode mode) 0 2 = modeCode mode := by simp only [bf]; omega
  have e2 : bf (modeCode mode) 2 5 = 0 := by simp only [bf]; omega
  refine ⟨Par.fields_fits p _ _ _ _ _ _ (by decide) (by decide) (by decide) (by omega) (by omega) (by omega), ?_⟩
  refine (decFields_class2 p _ _ _ _ _ _ (by decide)).trans ?_
  refine (show decClass2 (p.fields 0x92 2 0 (modeCode mode) (0) (0)) = decFldx (p.fields 0x92 2 0 (modeCode mode) (0) (0)) by with_unfolding_all rfl).trans ?_
  clear l_mode
  simp_all [decFldx, need, get, decPar_fields, e1, e2, modeOfCode_modeCode]

theorem Encoding.fldxImm (p : Par) (mode : Mode) (imm : BitVec 32) : Encoding.Statement (.fldxImm p mode imm) := by
  intro h f hf
  obtain rfl := Option.some.inj hf
  change (p.ok true tyFlt .any) = true at h
  have l_mode := modeCode_lt mode
  have l_imm := imm.isLt
  have e1 : bf (modeCode mode) 0 2 = modeCode mode := by simp only [bf]; omega
  have e2 : bf (modeCode mode) 2 5 = 0 := by simp only [bf]; omega
  refine ⟨Par.fields_fits p _ _ _ _ _ _ (by decide) (by decide) (by decide) (by omega) (by omega) (by omega), ?_⟩
  refine (decFields_class2 p _ _ _ _ _ _ (by decide)).trans ?_
  refine (show decClass2 (p.fields 0x92 1 1 (modeCode mode) (imm.toNat) (0)) = decFldxImm (p.fields 0x92 1 1 (modeCode mode) (imm.toNat) (0)) by with_unfolding_all rfl).trans ?_
  clear l_mode l_imm
  simp_all [decFldxImm, need, get, decPar_fields, e1, e2, modeOfCode_modeCode]

theorem Encoding.fgetx (p : Par) : Encoding.Statement (.fgetx p) := by
  intro h f hf
  obtain rfl := Option.some.inj hf
  change (p.ok true tyFlt .any) = true at h
  refine ⟨Par.fields_fits p _ _ _ _ _ _ (by decide) (by decide) (by decide) (by omega) (by omega) (by omega), ?_⟩
  refine (decFields_class2 p _ _ _ _ _ _ (by decide)).trans ?_
  refine (show decClass2 (p.fields 0x93 1 0 (0) (0) (0)) = decFgetx (p.fields 0x93 1 0 (0) (0) (0)) by with_unfolding_all rfl).trans ?_
  simp_all [decFgetx, need, get, decPar_fields]

theorem Encoding.fexp2f (p : Par) : Encoding.Statement (.fexp2f p) := by
  intro h f hf
  obtain rfl := Option.some.inj hf
  change (p.ok true tyFlt .any) = true at h
  refine ⟨Par.fields_fits p _ _ _ _ _ _ (by decide) (by decide) (by decide) (by omega) (by omega) (by omega), ?_⟩
  refine (decFields_class2 p _ _ _ _ _ _ (by decide)).trans ?_
  refine (show decClass2 (p.fields 0x94 1 0 (0) (0) (0)) = decFexp2f (p.fields 0x94 1 0 (0) (0) (0)) by with_unfolding_all rfl).trans ?_
  simp_all [decFexp2f, need, get, decPar_fields]

theorem Encoding.talloc (p : Par) (acc : Bool) (zero : Bool) (bg : Geom) (rows : BitVec 13) (cols : BitVec 13) : Encoding.Statement (.talloc p acc zero bg rows cols) := by
  intro h f hf
  obtain rfl := Option.some.inj hf
  change (p.ok true tyElem .any && (dimOk rows && dimOk cols) && (pairOk p.ty bg) && ((!acc) || (p.ty == .f32 && bg == .g0 && decide (rows.toNat ≤ 512) && decide (cols.toNat ≤ 256)))) = true at h
  simp only [Bool.and_eq_true] at h
  have l_acc := bit_le acc
  have l_zero := bit_le zero
  have l_bg := geomCode_lt bg
  have l_rows := rows.isLt
  have l_cols := cols.isLt
  have e1 : bf (rows.toNat + cols.toNat * 2 ^ 13) 0 13 = rows.toNat := by simp only [bf]; omega
  have e2 : bf (rows.toNat + cols.toNat * 2 ^ 13) 13 13 = cols.toNat := by simp only [bf]; omega
  have e3 : bf ((if acc then 1 else 0) + (if zero then 1 else 0) * 2 ^ 1) 0 1 = (if acc then 1 else 0) := by simp only [bf]; omega
  have e4 : bf ((if acc then 1 else 0) + (if zero then 1 else 0) * 2 ^ 1) 1 1 = (if zero then 1 else 0) := by simp only [bf]; omega
  have e5 : bf (geomCode bg) 0 4 = geomCode bg := by simp only [bf]; omega
  have e6 : bf ((if acc then 1 else 0) + (if zero then 1 else 0) * 2 ^ 1) 2 5 = 0 := by simp only [bf]; omega
  have e7 : bf (geomCode bg) 4 12 = 0 := by simp only [bf]; omega
  have e8 : bf (rows.toNat + cols.toNat * 2 ^ 13) 26 6 = 0 := by simp only [bf]; omega
  refine ⟨Par.fields_fits p _ _ _ _ _ _ (by decide) (by decide) (by decide) (by omega) (by omega) (by omega), ?_⟩
  refine (decFields_class3 p _ _ _ _ _ _ (by decide)).trans ?_
  refine (show decClass3 (p.fields 0xc0 1 0 ((if acc then 1 else 0) + (if zero then 1 else 0) * 2 ^ 1) (rows.toNat + cols.toNat * 2 ^ 13) (geomCode bg)) = decTalloc (p.fields 0xc0 1 0 ((if acc then 1 else 0) + (if zero then 1 else 0) * 2 ^ 1) (rows.toNat + cols.toNat * 2 ^ 13) (geomCode bg)) by with_unfolding_all rfl).trans ?_
  have z : p.slot.toNat = 0 := ok_slot p tyElem .any (by simp only [h])
  clear l_acc l_zero l_bg l_rows l_cols
  simp_all [decTalloc, need, get, decPar_fields, e1, e2, e3, e4, e5, e6, e7, e8, geomOfCode_geomCode, tyOfCode_tyCode, bit_eq]

theorem Encoding.tref (p : Par) : Encoding.Statement (.tref p) := by
  intro h f hf
  obtain rfl := Option.some.inj hf
  change (p.ok true tyNone .any) = true at h
  refine ⟨Par.fields_fits p _ _ _ _ _ _ (by decide) (by decide) (by decide) (by omega) (by omega) (by omega), ?_⟩
  refine (decFields_class3 p _ _ _ _ _ _ (by decide)).trans ?_
  refine (show decClass3 (p.fields 0xc1 1 0 (0) (0) (0)) = decTref (p.fields 0xc1 1 0 (0) (0) (0)) by with_unfolding_all rfl).trans ?_
  simp_all [decTref, need, get, decPar_fields]

theorem Encoding.tdrop (p : Par) : Encoding.Statement (.tdrop p) := by
  intro h f hf
  obtain rfl := Option.some.inj hf
  change (p.ok true tyNone .any) = true at h
  refine ⟨Par.fields_fits p _ _ _ _ _ _ (by decide) (by decide) (by decide) (by omega) (by omega) (by omega), ?_⟩
  refine (decFields_class3 p _ _ _ _ _ _ (by decide)).trans ?_
  refine (show decClass3 (p.fields 0xc2 1 0 (0) (0) (0)) = decTdrop (p.fields 0xc2 1 0 (0) (0) (0)) by with_unfolding_all rfl).trans ?_
  simp_all [decTdrop, need, get, decPar_fields]

theorem Encoding.tview (p : Par) : Encoding.Statement (.tview p) := by
  intro h f hf
  obtain rfl := Option.some.inj hf
  change (p.ok false tyNone .any) = true at h
  refine ⟨Par.fields_fits p _ _ _ _ _ _ (by decide) (by decide) (by decide) (by omega) (by omega) (by omega), ?_⟩
  refine (decFields_class3 p _ _ _ _ _ _ (by decide)).trans ?_
  refine (show decClass3 (p.fields 0xc3 2 0 (0) (0) (0)) = decTview (p.fields 0xc3 2 0 (0) (0) (0)) by with_unfolding_all rfl).trans ?_
  simp_all [decTview, need, get, decPar_fields]

theorem Encoding.tviewImm (p : Par) (imm : BitVec 32) : Encoding.Statement (.tviewImm p imm) := by
  intro h f hf
  obtain rfl := Option.some.inj hf
  change (p.ok true tyNone .any) = true at h
  have l_imm := imm.isLt
  refine ⟨Par.fields_fits p _ _ _ _ _ _ (by decide) (by decide) (by decide) (by omega) (by omega) (by omega), ?_⟩
  refine (decFields_class3 p _ _ _ _ _ _ (by decide)).trans ?_
  refine (show decClass3 (p.fields 0xc3 1 1 (0) (imm.toNat) (0)) = decTviewImm (p.fields 0xc3 1 1 (0) (imm.toNat) (0)) by with_unfolding_all rfl).trans ?_
  clear l_imm
  simp_all [decTviewImm, need, get, decPar_fields]

theorem Encoding.tinfo (p : Par) (what : InfoWhat) : Encoding.Statement (.tinfo p what) := by
  intro h f hf
  obtain rfl := Option.some.inj hf
  change (p.ok true tyNone .d2none) = true at h
  have l_what := infoWhatCode_lt what
  have e1 : bf (infoWhatCode what) 0 3 = infoWhatCode what := by simp only [bf]; omega
  have e2 : bf (infoWhatCode what) 3 4 = 0 := by simp only [bf]; omega
  refine ⟨Par.fields_fits p _ _ _ _ _ _ (by decide) (by decide) (by decide) (by omega) (by omega) (by omega), ?_⟩
  refine (decFields_class3 p _ _ _ _ _ _ (by decide)).trans ?_
  refine (show decClass3 (p.fields 0xc4 1 0 (infoWhatCode what) (0) (0)) = decTinfo (p.fields 0xc4 1 0 (infoWhatCode what) (0) (0)) by with_unfolding_all rfl).trans ?_
  clear l_what
  simp_all [decTinfo, need, get, decPar_fields, e1, e2, infoWhatOfCode_infoWhatCode]

theorem Encoding.tfill (p : Par) : Encoding.Statement (.tfill p) := by
  intro h f hf
  obtain rfl := Option.some.inj hf
  change (p.ok false tyAny .any) = true at h
  refine ⟨Par.fields_fits p _ _ _ _ _ _ (by decide) (by decide) (by decide) (by omega) (by omega) (by omega), ?_⟩
  refine (decFields_class3 p _ _ _ _ _ _ (by decide)).trans ?_
  refine (show decClass3 (p.fields 0xc5 2 0 (0) (0) (0)) = decTfill (p.fields 0xc5 2 0 (0) (0) (0)) by with_unfolding_all rfl).trans ?_
  simp_all [decTfill, need, get, decPar_fields]

theorem Encoding.tfillImm (p : Par) (imm : BitVec 32) : Encoding.Statement (.tfillImm p imm) := by
  intro h f hf
  obtain rfl := Option.some.inj hf
  change (p.ok true tyAny .any) = true at h
  have l_imm := imm.isLt
  refine ⟨Par.fields_fits p _ _ _ _ _ _ (by decide) (by decide) (by decide) (by omega) (by omega) (by omega), ?_⟩
  refine (decFields_class3 p _ _ _ _ _ _ (by decide)).trans ?_
  refine (show decClass3 (p.fields 0xc5 1 1 (0) (imm.toNat) (0)) = decTfillImm (p.fields 0xc5 1 1 (0) (imm.toNat) (0)) by with_unfolding_all rfl).trans ?_
  clear l_imm
  simp_all [decTfillImm, need, get, decPar_fields]

theorem Encoding.tcopy (p : Par) (toacc : Bool) : Encoding.Statement (.tcopy p toacc) := by
  intro h f hf
  obtain rfl := Option.some.inj hf
  change (p.ok true tyNone .any) = true at h
  have l_toacc := bit_le toacc
  have e1 : bf ((if toacc then 1 else 0)) 0 1 = (if toacc then 1 else 0) := by simp only [bf]; omega
  have e2 : bf ((if toacc then 1 else 0)) 1 6 = 0 := by simp only [bf]; omega
  refine ⟨Par.fields_fits p _ _ _ _ _ _ (by decide) (by decide) (by decide) (by omega) (by omega) (by omega), ?_⟩
  refine (decFields_class3 p _ _ _ _ _ _ (by decide)).trans ?_
  refine (show decClass3 (p.fields 0xc6 1 0 ((if toacc then 1 else 0)) (0) (0)) = decTcopy (p.fields 0xc6 1 0 ((if toacc then 1 else 0)) (0) (0)) by with_unfolding_all rfl).trans ?_
  clear l_toacc
  simp_all [decTcopy, need, get, decPar_fields, e1, e2, bit_eq]

theorem Encoding.tcopyInto (p : Par) : Encoding.Statement (.tcopyInto p) := by
  intro h f hf
  obtain rfl := Option.some.inj hf
  change (p.ok false tyNone .any) = true at h
  refine ⟨Par.fields_fits p _ _ _ _ _ _ (by decide) (by decide) (by decide) (by omega) (by omega) (by omega), ?_⟩
  refine (decFields_class3 p _ _ _ _ _ _ (by decide)).trans ?_
  refine (show decClass3 (p.fields 0xc6 2 0 (0) (0) (0)) = decTcopyInto (p.fields 0xc6 2 0 (0) (0) (0)) by with_unfolding_all rfl).trans ?_
  simp_all [decTcopyInto, need, get, decPar_fields]

theorem Encoding.ttran (p : Par) : Encoding.Statement (.ttran p) := by
  intro h f hf
  obtain rfl := Option.some.inj hf
  change (p.ok true tyNone .any) = true at h
  refine ⟨Par.fields_fits p _ _ _ _ _ _ (by decide) (by decide) (by decide) (by omega) (by omega) (by omega), ?_⟩
  refine (decFields_class3 p _ _ _ _ _ _ (by decide)).trans ?_
  refine (show decClass3 (p.fields 0xc7 1 0 (0) (0) (0)) = decTtran (p.fields 0xc7 1 0 (0) (0) (0)) by with_unfolding_all rfl).trans ?_
  simp_all [decTtran, need, get, decPar_fields]

theorem Encoding.tget (p : Par) (part : Part) : Encoding.Statement (.tget p part) := by
  intro h f hf
  obtain rfl := Option.some.inj hf
  change (p.ok false tyAny .d2none && (part == .elem || p.ty == .none)) = true at h
  simp only [Bool.and_eq_true] at h
  have l_part := partCode_lt part
  have e1 : bf (partCode part) 0 2 = partCode part := by simp only [bf]; omega
  have e2 : bf (partCode part) 2 5 = 0 := by simp only [bf]; omega
  refine ⟨Par.fields_fits p _ _ _ _ _ _ (by decide) (by decide) (by decide) (by omega) (by omega) (by omega), ?_⟩
  refine (decFields_class3 p _ _ _ _ _ _ (by decide)).trans ?_
  refine (show decClass3 (p.fields 0xc8 2 0 (partCode part) (0) (0)) = decTget (p.fields 0xc8 2 0 (partCode part) (0) (0)) by with_unfolding_all rfl).trans ?_
  clear l_part
  simp_all [decTget, need, get, decPar_fields, e1, e2, partOfCode_partCode, tyOfCode_tyCode]

theorem Encoding.tgetImm (p : Par) (part : Part) (imm : BitVec 32) : Encoding.Statement (.tgetImm p part imm) := by
  intro h f hf
  obtain rfl := Option.some.inj hf
  change (p.ok true tyAny .d2none && (part == .elem || p.ty == .none)) = true at h
  simp only [Bool.and_eq_true] at h
  have l_part := partCode_lt part
  have l_imm := imm.isLt
  have e1 : bf (partCode part) 0 2 = partCode part := by simp only [bf]; omega
  have e2 : bf (partCode part) 2 5 = 0 := by simp only [bf]; omega
  refine ⟨Par.fields_fits p _ _ _ _ _ _ (by decide) (by decide) (by decide) (by omega) (by omega) (by omega), ?_⟩
  refine (decFields_class3 p _ _ _ _ _ _ (by decide)).trans ?_
  refine (show decClass3 (p.fields 0xc8 1 1 (partCode part) (imm.toNat) (0)) = decTgetImm (p.fields 0xc8 1 1 (partCode part) (imm.toNat) (0)) by with_unfolding_all rfl).trans ?_
  clear l_part l_imm
  simp_all [decTgetImm, need, get, decPar_fields, e1, e2, partOfCode_partCode, tyOfCode_tyCode]

theorem Encoding.tset (p : Par) (part : Part) : Encoding.Statement (.tset p part) := by
  intro h f hf
  obtain rfl := Option.some.inj hf
  change (p.ok false tyAny .any && (part == .elem || p.ty == .none)) = true at h
  simp only [Bool.and_eq_true] at h
  have l_part := partCode_lt part
  have e1 : bf (partCode part) 0 2 = partCode part := by simp only [bf]; omega
  have e2 : bf (partCode part) 2 5 = 0 := by simp only [bf]; omega
  refine ⟨Par.fields_fits p _ _ _ _ _ _ (by decide) (by decide) (by decide) (by omega) (by omega) (by omega), ?_⟩
  refine (decFields_class3 p _ _ _ _ _ _ (by decide)).trans ?_
  refine (show decClass3 (p.fields 0xc9 3 0 (partCode part) (0) (0)) = decTset (p.fields 0xc9 3 0 (partCode part) (0) (0)) by with_unfolding_all rfl).trans ?_
  clear l_part
  simp_all [decTset, need, get, decPar_fields, e1, e2, partOfCode_partCode, tyOfCode_tyCode]

theorem Encoding.tsetImm (p : Par) (part : Part) (imm : BitVec 32) : Encoding.Statement (.tsetImm p part imm) := by
  intro h f hf
  obtain rfl := Option.some.inj hf
  change (p.ok false tyAny .any && (part == .elem || p.ty == .none)) = true at h
  simp only [Bool.and_eq_true] at h
  have l_part := partCode_lt part
  have l_imm := imm.isLt
  have e1 : bf (partCode part) 0 2 = partCode part := by simp only [bf]; omega
  have e2 : bf (partCode part) 2 5 = 0 := by simp only [bf]; omega
  refine ⟨Par.fields_fits p _ _ _ _ _ _ (by decide) (by decide) (by decide) (by omega) (by omega) (by omega), ?_⟩
  refine (decFields_class3 p _ _ _ _ _ _ (by decide)).trans ?_
  refine (show decClass3 (p.fields 0xc9 2 1 (partCode part) (imm.toNat) (0)) = decTsetImm (p.fields 0xc9 2 1 (partCode part) (imm.toNat) (0)) by with_unfolding_all rfl).trans ?_
  clear l_part l_imm
  simp_all [decTsetImm, need, get, decPar_fields, e1, e2, partOfCode_partCode, tyOfCode_tyCode]

theorem Encoding.vrunA (p : Par) (cfg : BitVec 4) : Encoding.Statement (.vrunA p cfg) := by
  intro h f hf
  obtain rfl := Option.some.inj hf
  change (p.ok true tyNone .any) = true at h
  have l_cfg := cfg.isLt
  have e1 : bf (cfg.toNat) 0 4 = cfg.toNat := by simp only [bf]; omega
  have e2 : (bf (0) 2 5 == 0) = true := rfl
  have e3 : bf (cfg.toNat) 4 12 = 0 := by simp only [bf]; omega
  refine ⟨Par.fields_fits p _ _ _ _ _ _ (by decide) (by decide) (by decide) (by omega) (by omega) (by omega), ?_⟩
  have q : bf (0) 0 2 = 0 := rfl
  have c : decFields (p.fields 0xca 1 0 (0) (0) (cfg.toNat)) = decVrunA (p.fields 0xca 1 0 (0) (0) (cfg.toNat)) := by
    rw [decFields_class3 _ _ _ _ _ _ _ (by decide)]
    simp [decClass3, need, q]
  rw [c]
  clear l_cfg
  simp_all [decVrunA, need, get, decPar_fields, e1, e2, e3]

theorem Encoding.vrunAb (p : Par) (cfg : BitVec 4) : Encoding.Statement (.vrunAb p cfg) := by
  intro h f hf
  obtain rfl := Option.some.inj hf
  change (p.ok false tyNone .any) = true at h
  have l_cfg := cfg.isLt
  have e1 : bf (cfg.toNat) 0 4 = cfg.toNat := by simp only [bf]; omega
  have e2 : (bf (1) 2 5 == 0) = true := rfl
  have e3 : bf (cfg.toNat) 4 12 = 0 := by simp only [bf]; omega
  refine ⟨Par.fields_fits p _ _ _ _ _ _ (by decide) (by decide) (by decide) (by omega) (by omega) (by omega), ?_⟩
  have q : bf (1) 0 2 = 1 := rfl
  have c : decFields (p.fields 0xca 2 0 (1) (0) (cfg.toNat)) = decVrunAb (p.fields 0xca 2 0 (1) (0) (cfg.toNat)) := by
    rw [decFields_class3 _ _ _ _ _ _ _ (by decide)]
    simp [decClass3, need, q]
  rw [c]
  clear l_cfg
  simp_all [decVrunAb, need, get, decPar_fields, e1, e2, e3]

theorem Encoding.vrunAo (p : Par) (cfg : BitVec 4) : Encoding.Statement (.vrunAo p cfg) := by
  intro h f hf
  obtain rfl := Option.some.inj hf
  change (p.ok false tyNone .any) = true at h
  have l_cfg := cfg.isLt
  have e1 : bf (cfg.toNat) 0 4 = cfg.toNat := by simp only [bf]; omega
  have e2 : (bf (2) 2 5 == 0) = true := rfl
  have e3 : bf (cfg.toNat) 4 12 = 0 := by simp only [bf]; omega
  refine ⟨Par.fields_fits p _ _ _ _ _ _ (by decide) (by decide) (by decide) (by omega) (by omega) (by omega), ?_⟩
  have q : bf (2) 0 2 = 2 := rfl
  have c : decFields (p.fields 0xca 2 0 (2) (0) (cfg.toNat)) = decVrunAo (p.fields 0xca 2 0 (2) (0) (cfg.toNat)) := by
    rw [decFields_class3 _ _ _ _ _ _ _ (by decide)]
    simp [decClass3, need, q]
  rw [c]
  clear l_cfg
  simp_all [decVrunAo, need, get, decPar_fields, e1, e2, e3]

theorem Encoding.vrunAbo (p : Par) (cfg : BitVec 4) : Encoding.Statement (.vrunAbo p cfg) := by
  intro h f hf
  obtain rfl := Option.some.inj hf
  change (p.ok false tyNone .any) = true at h
  have l_cfg := cfg.isLt
  have e1 : bf (cfg.toNat) 0 4 = cfg.toNat := by simp only [bf]; omega
  have e2 : (bf (3) 2 5 == 0) = true := rfl
  have e3 : bf (cfg.toNat) 4 12 = 0 := by simp only [bf]; omega
  refine ⟨Par.fields_fits p _ _ _ _ _ _ (by decide) (by decide) (by decide) (by omega) (by omega) (by omega), ?_⟩
  have q : bf (3) 0 2 = 3 := rfl
  have c : decFields (p.fields 0xca 3 0 (3) (0) (cfg.toNat)) = decVrunAbo (p.fields 0xca 3 0 (3) (0) (cfg.toNat)) := by
    rw [decFields_class3 _ _ _ _ _ _ _ (by decide)]
    simp [decClass3, need, q]
  rw [c]
  clear l_cfg
  simp_all [decVrunAbo, need, get, decPar_fields, e1, e2, e3]

theorem Encoding.vruns (p : Par) (cfg : BitVec 4) : Encoding.Statement (.vruns p cfg) := by
  intro h f hf
  obtain rfl := Option.some.inj hf
  change (p.ok true tyNone .any) = true at h
  have l_cfg := cfg.isLt
  have e1 : bf (cfg.toNat) 0 4 = cfg.toNat := by simp only [bf]; omega
  have e2 : bf (cfg.toNat) 4 12 = 0 := by simp only [bf]; omega
  refine ⟨Par.fields_fits p _ _ _ _ _ _ (by decide) (by decide) (by decide) (by omega) (by omega) (by omega), ?_⟩
  refine (decFields_class3 p _ _ _ _ _ _ (by decide)).trans ?_
  refine (show decClass3 (p.fields 0xcb 1 0 (0) (0) (cfg.toNat)) = decVruns (p.fields 0xcb 1 0 (0) (0) (cfg.toNat)) by with_unfolding_all rfl).trans ?_
  clear l_cfg
  simp_all [decVruns, need, get, decPar_fields, e1, e2]

theorem Encoding.vruns2 (p : Par) (cfg : BitVec 4) : Encoding.Statement (.vruns2 p cfg) := by
  intro h f hf
  obtain rfl := Option.some.inj hf
  change (p.ok false tyNone .any) = true at h
  have l_cfg := cfg.isLt
  have e1 : bf (cfg.toNat) 0 4 = cfg.toNat := by simp only [bf]; omega
  have e2 : bf (cfg.toNat) 4 12 = 0 := by simp only [bf]; omega
  refine ⟨Par.fields_fits p _ _ _ _ _ _ (by decide) (by decide) (by decide) (by omega) (by omega) (by omega), ?_⟩
  refine (decFields_class3 p _ _ _ _ _ _ (by decide)).trans ?_
  refine (show decClass3 (p.fields 0xcb 2 0 (0) (0) (cfg.toNat)) = decVruns2 (p.fields 0xcb 2 0 (0) (0) (cfg.toNat)) by with_unfolding_all rfl).trans ?_
  clear l_cfg
  simp_all [decVruns2, need, get, decPar_fields, e1, e2]

theorem Encoding.vstat (p : Par) : Encoding.Statement (.vstat p) := by
  intro h f hf
  obtain rfl := Option.some.inj hf
  change (p.ok true tyNone .d2none) = true at h
  refine ⟨Par.fields_fits p _ _ _ _ _ _ (by decide) (by decide) (by decide) (by omega) (by omega) (by omega), ?_⟩
  refine (decFields_class3 p _ _ _ _ _ _ (by decide)).trans ?_
  refine (show decClass3 (p.fields 0xcc 1 0 (0) (0) (0)) = decVstat (p.fields 0xcc 1 0 (0) (0) (0)) by with_unfolding_all rfl).trans ?_
  simp_all [decVstat, need, get, decPar_fields]

theorem Encoding.wld (p : Par) (comp : Comp) (sx : BitVec 4) (bg : Geom) (ws : BitVec 2) (gen : BitVec 16) : Encoding.Statement (.wld p comp sx bg ws gen) := by
  intro h f hf
  obtain rfl := Option.some.inj hf
  change (p.ok true tyWld .any && (p.ty != .none || (bg == .g0 && sx == 0)) && (wldCmpOk p.ty bg comp) && (p.ty == .none || pairOk p.ty bg)) = true at h
  simp only [Bool.and_eq_true] at h
  have l_comp := compCode_lt comp
  have l_sx := sx.isLt
  have l_bg := geomCode_lt bg
  have l_ws := ws.isLt
  have l_gen := gen.isLt
  have e1 : bf (sx.toNat * 2 ^ 12 + geomCode bg * 2 ^ 4 + ws.toNat) 12 4 = sx.toNat := by simp only [bf]; omega
  have e2 : bf (sx.toNat * 2 ^ 12 + geomCode bg * 2 ^ 4 + ws.toNat) 0 2 = ws.toNat := by simp only [bf]; omega
  have e3 : bf (gen.toNat) 0 16 = gen.toNat := by simp only [bf]; omega
  have e4 : bf (compCode comp) 0 2 = compCode comp := by simp only [bf]; omega
  have e5 : bf (sx.toNat * 2 ^ 12 + geomCode bg * 2 ^ 4 + ws.toNat) 4 4 = geomCode bg := by simp only [bf]; omega
  have e6 : bf (compCode comp) 2 5 = 0 := by simp only [bf]; omega
  have e7 : bf (sx.toNat * 2 ^ 12 + geomCode bg * 2 ^ 4 + ws.toNat) 2 2 = 0 := by simp only [bf]; omega
  have e8 : bf (sx.toNat * 2 ^ 12 + geomCode bg * 2 ^ 4 + ws.toNat) 8 4 = 0 := by simp only [bf]; omega
  have e9 : bf (gen.toNat) 16 16 = 0 := by simp only [bf]; omega
  refine ⟨Par.fields_fits p _ _ _ _ _ _ (by decide) (by decide) (by decide) (by omega) (by omega) (by omega), ?_⟩
  refine (decFields_class4 p _ _ _ _ _ _ (by decide)).trans ?_
  refine (show decClass4 (p.fields 0x100 1 0 (compCode comp) (gen.toNat) (sx.toNat * 2 ^ 12 + geomCode bg * 2 ^ 4 + ws.toNat)) = decWld (p.fields 0x100 1 0 (compCode comp) (gen.toNat) (sx.toNat * 2 ^ 12 + geomCode bg * 2 ^ 4 + ws.toNat)) by with_unfolding_all rfl).trans ?_
  have z : p.slot.toNat = 0 := ok_slot p tyWld .any (by simp only [h])
  have gz : (geomCode bg == 0) = (bg == .g0) := by cases bg <;> rfl
  clear l_comp l_sx l_bg l_ws l_gen
  simp_all [decWld, need, get, decPar_fields, e1, e2, e3, e4, e5, e6, e7, e8, e9, compOfCode_compCode, geomOfCode_geomCode, tyOfCode_tyCode]

theorem Encoding.wfree (p : Par) (ws : BitVec 2) : Encoding.Statement (.wfree p ws) := by
  intro h f hf
  obtain rfl := Option.some.inj hf
  change (p.ok true tyNone .any) = true at h
  have l_ws := ws.isLt
  have e1 : bf (ws.toNat) 0 2 = ws.toNat := by simp only [bf]; omega
  have e2 : bf (ws.toNat) 2 14 = 0 := by simp only [bf]; omega
  refine ⟨Par.fields_fits p _ _ _ _ _ _ (by decide) (by decide) (by decide) (by omega) (by omega) (by omega), ?_⟩
  refine (decFields_class4 p _ _ _ _ _ _ (by decide)).trans ?_
  refine (show decClass4 (p.fields 0x101 1 0 (0) (0) (ws.toNat)) = decWfree (p.fields 0x101 1 0 (0) (0) (ws.toNat)) by with_unfolding_all rfl).trans ?_
  clear l_ws
  simp_all [decWfree, need, get, decPar_fields, e1, e2]

theorem Encoding.mma (p : Par) (pan : Bool) (zacc : Bool) (acol : BitVec 8) (ws : BitVec 2) (arow : BitVec 9) (koff : BitVec 5) (hold : BitVec 16) : Encoding.Statement (.mma p pan zacc acol ws arow koff hold) := by
  intro h f hf
  obtain rfl := Option.some.inj hf
  change (p.ok false tyNone .any) = true at h
  have l_pan := bit_le pan
  have l_zacc := bit_le zacc
  have l_acol := acol.isLt
  have l_ws := ws.isLt
  have l_arow := arow.isLt
  have l_koff := koff.isLt
  have l_hold := hold.isLt
  have e1 : bf (acol.toNat * 2 ^ 8 + ws.toNat) 8 8 = acol.toNat := by simp only [bf]; omega
  have e2 : bf (acol.toNat * 2 ^ 8 + ws.toNat) 0 2 = ws.toNat := by simp only [bf]; omega
  have e3 : bf (arow.toNat * 2 ^ 21 + koff.toNat * 2 ^ 16 + hold.toNat) 21 9 = arow.toNat := by simp only [bf]; omega
  have e4 : bf (arow.toNat * 2 ^ 21 + koff.toNat * 2 ^ 16 + hold.toNat) 16 5 = koff.toNat := by simp only [bf]; omega
  have e5 : bf (arow.toNat * 2 ^ 21 + koff.toNat * 2 ^ 16 + hold.toNat) 0 16 = hold.toNat := by simp only [bf]; omega
  have e6 : bf ((if pan then 1 else 0) + (if zacc then 1 else 0) * 2 ^ 1) 0 1 = (if pan then 1 else 0) := by simp only [bf]; omega
  have e7 : bf ((if pan then 1 else 0) + (if zacc then 1 else 0) * 2 ^ 1) 1 1 = (if zacc then 1 else 0) := by simp only [bf]; omega
  have e8 : bf ((if pan then 1 else 0) + (if zacc then 1 else 0) * 2 ^ 1) 2 5 = 0 := by simp only [bf]; omega
  have e9 : bf (acol.toNat * 2 ^ 8 + ws.toNat) 2 6 = 0 := by simp only [bf]; omega
  have e10 : bf (arow.toNat * 2 ^ 21 + koff.toNat * 2 ^ 16 + hold.toNat) 30 2 = 0 := by simp only [bf]; omega
  refine ⟨Par.fields_fits p _ _ _ _ _ _ (by decide) (by decide) (by decide) (by omega) (by omega) (by omega), ?_⟩
  refine (decFields_class4 p _ _ _ _ _ _ (by decide)).trans ?_
  refine (show decClass4 (p.fields 0x102 2 0 ((if pan then 1 else 0) + (if zacc then 1 else 0) * 2 ^ 1) (arow.toNat * 2 ^ 21 + koff.toNat * 2 ^ 16 + hold.toNat) (acol.toNat * 2 ^ 8 + ws.toNat)) = decMma (p.fields 0x102 2 0 ((if pan then 1 else 0) + (if zacc then 1 else 0) * 2 ^ 1) (arow.toNat * 2 ^ 21 + koff.toNat * 2 ^ 16 + hold.toNat) (acol.toNat * 2 ^ 8 + ws.toNat)) by with_unfolding_all rfl).trans ?_
  clear l_pan l_zacc l_acol l_ws l_arow l_koff l_hold
  simp_all [decMma, need, get, decPar_fields, e1, e2, e3, e4, e5, e6, e7, e8, e9, e10, bit_eq]

theorem Encoding.mmas (p : Par) (mode : Mode) (sat : Bool) (oty : Ty) (ws : BitVec 2) : Encoding.Statement (.mmas p mode sat oty ws) := by
  intro h f hf
  obtain rfl := Option.some.inj hf
  change (p.ok false tyScale .any && (tyDrain.contains oty)) = true at h
  simp only [Bool.and_eq_true] at h
  have l_mode := modeCode_lt mode
  have l_sat := bit_le sat
  have l_oty := tyCode_lt oty
  have l_ws := ws.isLt
  have e1 : bf (tyCode oty * 2 ^ 4 + ws.toNat) 0 2 = ws.toNat := by simp only [bf]; omega
  have e2 : bf (modeCode mode + (if sat then 1 else 0) * 2 ^ 2) 2 1 = (if sat then 1 else 0) := by simp only [bf]; omega
  have e3 : bf (tyCode oty * 2 ^ 4 + ws.toNat) 4 4 = tyCode oty := by simp only [bf]; omega
  have e4 : bf (modeCode mode + (if sat then 1 else 0) * 2 ^ 2) 0 2 = modeCode mode := by simp only [bf]; omega
  have e5 : bf (modeCode mode + (if sat then 1 else 0) * 2 ^ 2) 3 4 = 0 := by simp only [bf]; omega
  have e6 : bf (tyCode oty * 2 ^ 4 + ws.toNat) 2 2 = 0 := by simp only [bf]; omega
  have e7 : bf (tyCode oty * 2 ^ 4 + ws.toNat) 8 8 = 0 := by simp only [bf]; omega
  refine ⟨Par.fields_fits p _ _ _ _ _ _ (by decide) (by decide) (by decide) (by omega) (by omega) (by omega), ?_⟩
  refine (decFields_class4 p _ _ _ _ _ _ (by decide)).trans ?_
  refine (show decClass4 (p.fields 0x103 2 0 (modeCode mode + (if sat then 1 else 0) * 2 ^ 2) (0) (tyCode oty * 2 ^ 4 + ws.toNat)) = decMmas (p.fields 0x103 2 0 (modeCode mode + (if sat then 1 else 0) * 2 ^ 2) (0) (tyCode oty * 2 ^ 4 + ws.toNat)) by with_unfolding_all rfl).trans ?_
  clear l_mode l_sat l_oty l_ws
  simp_all [decMmas, need, get, decPar_fields, e1, e2, e3, e4, e5, e6, e7, modeOfCode_modeCode, tyOfCode_tyCode, bit_eq]

theorem Encoding.mmasImm (p : Par) (mode : Mode) (sat : Bool) (oty : Ty) (ws : BitVec 2) (imm : BitVec 32) : Encoding.Statement (.mmasImm p mode sat oty ws imm) := by
  intro h f hf
  obtain rfl := Option.some.inj hf
  change (p.ok true tyScale .any && (tyDrain.contains oty)) = true at h
  simp only [Bool.and_eq_true] at h
  have l_mode := modeCode_lt mode
  have l_sat := bit_le sat
  have l_oty := tyCode_lt oty
  have l_ws := ws.isLt
  have l_imm := imm.isLt
  have e1 : bf (tyCode oty * 2 ^ 4 + ws.toNat) 0 2 = ws.toNat := by simp only [bf]; omega
  have e2 : bf (modeCode mode + (if sat then 1 else 0) * 2 ^ 2) 2 1 = (if sat then 1 else 0) := by simp only [bf]; omega
  have e3 : bf (tyCode oty * 2 ^ 4 + ws.toNat) 4 4 = tyCode oty := by simp only [bf]; omega
  have e4 : bf (modeCode mode + (if sat then 1 else 0) * 2 ^ 2) 0 2 = modeCode mode := by simp only [bf]; omega
  have e5 : bf (modeCode mode + (if sat then 1 else 0) * 2 ^ 2) 3 4 = 0 := by simp only [bf]; omega
  have e6 : bf (tyCode oty * 2 ^ 4 + ws.toNat) 2 2 = 0 := by simp only [bf]; omega
  have e7 : bf (tyCode oty * 2 ^ 4 + ws.toNat) 8 8 = 0 := by simp only [bf]; omega
  refine ⟨Par.fields_fits p _ _ _ _ _ _ (by decide) (by decide) (by decide) (by omega) (by omega) (by omega), ?_⟩
  refine (decFields_class4 p _ _ _ _ _ _ (by decide)).trans ?_
  refine (show decClass4 (p.fields 0x103 1 1 (modeCode mode + (if sat then 1 else 0) * 2 ^ 2) (imm.toNat) (tyCode oty * 2 ^ 4 + ws.toNat)) = decMmasImm (p.fields 0x103 1 1 (modeCode mode + (if sat then 1 else 0) * 2 ^ 2) (imm.toNat) (tyCode oty * 2 ^ 4 + ws.toNat)) by with_unfolding_all rfl).trans ?_
  clear l_mode l_sat l_oty l_ws l_imm
  simp_all [decMmasImm, need, get, decPar_fields, e1, e2, e3, e4, e5, e6, e7, modeOfCode_modeCode, tyOfCode_tyCode, bit_eq]

theorem Encoding.adrain (p : Par) (mode : Mode) (sat : Bool) (clr : Bool) (oty : Ty) : Encoding.Statement (.adrain p mode sat clr oty) := by
  intro h f hf
  obtain rfl := Option.some.inj hf
  change (p.ok false tyScale .d2none && (tyDrain.contains oty)) = true at h
  simp only [Bool.and_eq_true] at h
  have l_mode := modeCode_lt mode
  have l_sat := bit_le sat
  have l_clr := bit_le clr
  have l_oty := tyCode_lt oty
  have e1 : bf (modeCode mode * 2 ^ 1 + (if sat then 1 else 0) * 2 ^ 3 + (if clr then 1 else 0) * 2 ^ 4) 3 1 = (if sat then 1 else 0) := by simp only [bf]; omega
  have e2 : bf (modeCode mode * 2 ^ 1 + (if sat then 1 else 0) * 2 ^ 3 + (if clr then 1 else 0) * 2 ^ 4) 4 1 = (if clr then 1 else 0) := by simp only [bf]; omega
  have e3 : bf (tyCode oty) 0 4 = tyCode oty := by simp only [bf]; omega
  have e4 : bf (modeCode mode * 2 ^ 1 + (if sat then 1 else 0) * 2 ^ 3 + (if clr then 1 else 0) * 2 ^ 4) 1 2 = modeCode mode := by simp only [bf]; omega
  have e5 : bf (modeCode mode * 2 ^ 1 + (if sat then 1 else 0) * 2 ^ 3 + (if clr then 1 else 0) * 2 ^ 4) 5 2 = 0 := by simp only [bf]; omega
  have e6 : bf (tyCode oty) 4 12 = 0 := by simp only [bf]; omega
  refine ⟨Par.fields_fits p _ _ _ _ _ _ (by decide) (by decide) (by decide) (by omega) (by omega) (by omega), ?_⟩
  have q : bf (modeCode mode * 2 ^ 1 + (if sat then 1 else 0) * 2 ^ 3 + (if clr then 1 else 0) * 2 ^ 4) 0 1 = 0 := by simp only [bf]; omega
  have c : decFields (p.fields 0x104 2 0 (modeCode mode * 2 ^ 1 + (if sat then 1 else 0) * 2 ^ 3 + (if clr then 1 else 0) * 2 ^ 4) (0) (tyCode oty)) = decAdrain (p.fields 0x104 2 0 (modeCode mode * 2 ^ 1 + (if sat then 1 else 0) * 2 ^ 3 + (if clr then 1 else 0) * 2 ^ 4) (0) (tyCode oty)) := by
    rw [decFields_class4 _ _ _ _ _ _ _ (by decide)]
    revert q
    generalize modeCode mode * 2 ^ 1 + (if sat then 1 else 0) * 2 ^ 3 + (if clr then 1 else 0) * 2 ^ 4 = m
    intro q
    simp [decClass4, need, q]
  rw [c]
  clear l_mode l_sat l_clr l_oty
  simp_all [decAdrain, need, get, decPar_fields, e1, e2, e3, e4, e5, e6, modeOfCode_modeCode, tyOfCode_tyCode, bit_eq]

theorem Encoding.adrainImm (p : Par) (mode : Mode) (sat : Bool) (clr : Bool) (oty : Ty) (imm : BitVec 32) : Encoding.Statement (.adrainImm p mode sat clr oty imm) := by
  intro h f hf
  obtain rfl := Option.some.inj hf
  change (p.ok true tyScale .d2none && (tyDrain.contains oty)) = true at h
  simp only [Bool.and_eq_true] at h
  have l_mode := modeCode_lt mode
  have l_sat := bit_le sat
  have l_clr := bit_le clr
  have l_oty := tyCode_lt oty
  have l_imm := imm.isLt
  have e1 : bf (modeCode mode * 2 ^ 1 + (if sat then 1 else 0) * 2 ^ 3 + (if clr then 1 else 0) * 2 ^ 4) 3 1 = (if sat then 1 else 0) := by simp only [bf]; omega
  have e2 : bf (modeCode mode * 2 ^ 1 + (if sat then 1 else 0) * 2 ^ 3 + (if clr then 1 else 0) * 2 ^ 4) 4 1 = (if clr then 1 else 0) := by simp only [bf]; omega
  have e3 : bf (tyCode oty) 0 4 = tyCode oty := by simp only [bf]; omega
  have e4 : bf (modeCode mode * 2 ^ 1 + (if sat then 1 else 0) * 2 ^ 3 + (if clr then 1 else 0) * 2 ^ 4) 1 2 = modeCode mode := by simp only [bf]; omega
  have e5 : bf (modeCode mode * 2 ^ 1 + (if sat then 1 else 0) * 2 ^ 3 + (if clr then 1 else 0) * 2 ^ 4) 5 2 = 0 := by simp only [bf]; omega
  have e6 : bf (tyCode oty) 4 12 = 0 := by simp only [bf]; omega
  refine ⟨Par.fields_fits p _ _ _ _ _ _ (by decide) (by decide) (by decide) (by omega) (by omega) (by omega), ?_⟩
  have q : bf (modeCode mode * 2 ^ 1 + (if sat then 1 else 0) * 2 ^ 3 + (if clr then 1 else 0) * 2 ^ 4) 0 1 = 0 := by simp only [bf]; omega
  have c : decFields (p.fields 0x104 1 1 (modeCode mode * 2 ^ 1 + (if sat then 1 else 0) * 2 ^ 3 + (if clr then 1 else 0) * 2 ^ 4) (imm.toNat) (tyCode oty)) = decAdrainImm (p.fields 0x104 1 1 (modeCode mode * 2 ^ 1 + (if sat then 1 else 0) * 2 ^ 3 + (if clr then 1 else 0) * 2 ^ 4) (imm.toNat) (tyCode oty)) := by
    rw [decFields_class4 _ _ _ _ _ _ _ (by decide)]
    revert q
    generalize modeCode mode * 2 ^ 1 + (if sat then 1 else 0) * 2 ^ 3 + (if clr then 1 else 0) * 2 ^ 4 = m
    intro q
    simp [decClass4, need, q]
  rw [c]
  clear l_mode l_sat l_clr l_oty l_imm
  simp_all [decAdrainImm, need, get, decPar_fields, e1, e2, e3, e4, e5, e6, modeOfCode_modeCode, tyOfCode_tyCode, bit_eq]

theorem Encoding.adrainSteer (p : Par) (mode : Mode) (sat : Bool) (clr : Bool) (tbl : BitVec 6) (oty : Ty) : Encoding.Statement (.adrainSteer p mode sat clr tbl oty) := by
  intro h f hf
  obtain rfl := Option.some.inj hf
  change (p.ok false tyScale .d2none && (tyDrain.contains oty)) = true at h
  simp only [Bool.and_eq_true] at h
  have l_mode := modeCode_lt mode
  have l_sat := bit_le sat
  have l_clr := bit_le clr
  have l_tbl := tbl.isLt
  have l_oty := tyCode_lt oty
  have e1 : bf (tbl.toNat * 2 ^ 4 + tyCode oty) 4 6 = tbl.toNat := by simp only [bf]; omega
  have e2 : bf (modeCode mode * 2 ^ 1 + (if sat then 1 else 0) * 2 ^ 3 + (if clr then 1 else 0) * 2 ^ 4 + 1) 3 1 = (if sat then 1 else 0) := by simp only [bf]; omega
  have e3 : bf (modeCode mode * 2 ^ 1 + (if sat then 1 else 0) * 2 ^ 3 + (if clr then 1 else 0) * 2 ^ 4 + 1) 4 1 = (if clr then 1 else 0) := by simp only [bf]; omega
  have e4 : bf (tbl.toNat * 2 ^ 4 + tyCode oty) 0 4 = tyCode oty := by simp only [bf]; omega
  have e5 : bf (modeCode mode * 2 ^ 1 + (if sat then 1 else 0) * 2 ^ 3 + (if clr then 1 else 0) * 2 ^ 4 + 1) 1 2 = modeCode mode := by simp only [bf]; omega
  have e6 : bf (modeCode mode * 2 ^ 1 + (if sat then 1 else 0) * 2 ^ 3 + (if clr then 1 else 0) * 2 ^ 4 + 1) 5 2 = 0 := by simp only [bf]; omega
  have e7 : bf (tbl.toNat * 2 ^ 4 + tyCode oty) 10 6 = 0 := by simp only [bf]; omega
  refine ⟨Par.fields_fits p _ _ _ _ _ _ (by decide) (by decide) (by decide) (by omega) (by omega) (by omega), ?_⟩
  have q : bf (modeCode mode * 2 ^ 1 + (if sat then 1 else 0) * 2 ^ 3 + (if clr then 1 else 0) * 2 ^ 4 + 1) 0 1 = 1 := by simp only [bf]; omega
  have c : decFields (p.fields 0x104 3 0 (modeCode mode * 2 ^ 1 + (if sat then 1 else 0) * 2 ^ 3 + (if clr then 1 else 0) * 2 ^ 4 + 1) (0) (tbl.toNat * 2 ^ 4 + tyCode oty)) = decAdrainSteer (p.fields 0x104 3 0 (modeCode mode * 2 ^ 1 + (if sat then 1 else 0) * 2 ^ 3 + (if clr then 1 else 0) * 2 ^ 4 + 1) (0) (tbl.toNat * 2 ^ 4 + tyCode oty)) := by
    rw [decFields_class4 _ _ _ _ _ _ _ (by decide)]
    revert q
    generalize modeCode mode * 2 ^ 1 + (if sat then 1 else 0) * 2 ^ 3 + (if clr then 1 else 0) * 2 ^ 4 + 1 = m
    intro q
    simp [decClass4, need, q]
  rw [c]
  clear l_mode l_sat l_clr l_tbl l_oty
  simp_all [decAdrainSteer, need, get, decPar_fields, e1, e2, e3, e4, e5, e6, e7, modeOfCode_modeCode, tyOfCode_tyCode, bit_eq]

theorem Encoding.adrainSteerImm (p : Par) (mode : Mode) (sat : Bool) (clr : Bool) (tbl : BitVec 6) (oty : Ty) (imm : BitVec 32) : Encoding.Statement (.adrainSteerImm p mode sat clr tbl oty imm) := by
  intro h f hf
  obtain rfl := Option.some.inj hf
  change (p.ok false tyScale .d2none && (tyDrain.contains oty)) = true at h
  simp only [Bool.and_eq_true] at h
  have l_mode := modeCode_lt mode
  have l_sat := bit_le sat
  have l_clr := bit_le clr
  have l_tbl := tbl.isLt
  have l_oty := tyCode_lt oty
  have l_imm := imm.isLt
  have e1 : bf (tbl.toNat * 2 ^ 4 + tyCode oty) 4 6 = tbl.toNat := by simp only [bf]; omega
  have e2 : bf (modeCode mode * 2 ^ 1 + (if sat then 1 else 0) * 2 ^ 3 + (if clr then 1 else 0) * 2 ^ 4 + 1) 3 1 = (if sat then 1 else 0) := by simp only [bf]; omega
  have e3 : bf (modeCode mode * 2 ^ 1 + (if sat then 1 else 0) * 2 ^ 3 + (if clr then 1 else 0) * 2 ^ 4 + 1) 4 1 = (if clr then 1 else 0) := by simp only [bf]; omega
  have e4 : bf (tbl.toNat * 2 ^ 4 + tyCode oty) 0 4 = tyCode oty := by simp only [bf]; omega
  have e5 : bf (modeCode mode * 2 ^ 1 + (if sat then 1 else 0) * 2 ^ 3 + (if clr then 1 else 0) * 2 ^ 4 + 1) 1 2 = modeCode mode := by simp only [bf]; omega
  have e6 : bf (modeCode mode * 2 ^ 1 + (if sat then 1 else 0) * 2 ^ 3 + (if clr then 1 else 0) * 2 ^ 4 + 1) 5 2 = 0 := by simp only [bf]; omega
  have e7 : bf (tbl.toNat * 2 ^ 4 + tyCode oty) 10 6 = 0 := by simp only [bf]; omega
  refine ⟨Par.fields_fits p _ _ _ _ _ _ (by decide) (by decide) (by decide) (by omega) (by omega) (by omega), ?_⟩
  have q : bf (modeCode mode * 2 ^ 1 + (if sat then 1 else 0) * 2 ^ 3 + (if clr then 1 else 0) * 2 ^ 4 + 1) 0 1 = 1 := by simp only [bf]; omega
  have c : decFields (p.fields 0x104 2 1 (modeCode mode * 2 ^ 1 + (if sat then 1 else 0) * 2 ^ 3 + (if clr then 1 else 0) * 2 ^ 4 + 1) (imm.toNat) (tbl.toNat * 2 ^ 4 + tyCode oty)) = decAdrainSteerImm (p.fields 0x104 2 1 (modeCode mode * 2 ^ 1 + (if sat then 1 else 0) * 2 ^ 3 + (if clr then 1 else 0) * 2 ^ 4 + 1) (imm.toNat) (tbl.toNat * 2 ^ 4 + tyCode oty)) := by
    rw [decFields_class4 _ _ _ _ _ _ _ (by decide)]
    revert q
    generalize modeCode mode * 2 ^ 1 + (if sat then 1 else 0) * 2 ^ 3 + (if clr then 1 else 0) * 2 ^ 4 + 1 = m
    intro q
    simp [decClass4, need, q]
  rw [c]
  clear l_mode l_sat l_clr l_tbl l_oty l_imm
  simp_all [decAdrainSteerImm, need, get, decPar_fields, e1, e2, e3, e4, e5, e6, e7, modeOfCode_modeCode, tyOfCode_tyCode, bit_eq]

theorem Encoding.aclr (p : Par) : Encoding.Statement (.aclr p) := by
  intro h f hf
  obtain rfl := Option.some.inj hf
  change (p.ok true tyNone .any) = true at h
  refine ⟨Par.fields_fits p _ _ _ _ _ _ (by decide) (by decide) (by decide) (by omega) (by omega) (by omega), ?_⟩
  refine (decFields_class4 p _ _ _ _ _ _ (by decide)).trans ?_
  refine (show decClass4 (p.fields 0x105 1 0 (0) (0) (0)) = decAclr (p.fields 0x105 1 0 (0) (0) (0)) by with_unfolding_all rfl).trans ?_
  simp_all [decAclr, need, get, decPar_fields]

theorem Encoding.winfo (p : Par) (ws : BitVec 2) : Encoding.Statement (.winfo p ws) := by
  intro h f hf
  obtain rfl := Option.some.inj hf
  change (p.ok true tyNone .any) = true at h
  have l_ws := ws.isLt
  have e1 : bf (ws.toNat) 0 2 = ws.toNat := by simp only [bf]; omega
  have e2 : bf (ws.toNat) 2 14 = 0 := by simp only [bf]; omega
  refine ⟨Par.fields_fits p _ _ _ _ _ _ (by decide) (by decide) (by decide) (by omega) (by omega) (by omega), ?_⟩
  refine (decFields_class4 p _ _ _ _ _ _ (by decide)).trans ?_
  refine (show decClass4 (p.fields 0x106 1 0 (0) (0) (ws.toNat)) = decWinfo (p.fields 0x106 1 0 (0) (0) (ws.toNat)) by with_unfolding_all rfl).trans ?_
  clear l_ws
  simp_all [decWinfo, need, get, decPar_fields, e1, e2]

theorem Encoding.mstat (p : Par) (what : BitVec 4) (clr : Bool) : Encoding.Statement (.mstat p what clr) := by
  intro h f hf
  obtain rfl := Option.some.inj hf
  change (p.ok true tyNone .d2none && (decide (what.toNat ≤ 8))) = true at h
  simp only [Bool.and_eq_true] at h
  have l_what := what.isLt
  have l_clr := bit_le clr
  have e1 : bf (what.toNat + (if clr then 1 else 0) * 2 ^ 4) 0 4 = what.toNat := by simp only [bf]; omega
  have e2 : bf (what.toNat + (if clr then 1 else 0) * 2 ^ 4) 4 1 = (if clr then 1 else 0) := by simp only [bf]; omega
  have e3 : bf (what.toNat + (if clr then 1 else 0) * 2 ^ 4) 5 2 = 0 := by simp only [bf]; omega
  refine ⟨Par.fields_fits p _ _ _ _ _ _ (by decide) (by decide) (by decide) (by omega) (by omega) (by omega), ?_⟩
  refine (decFields_class4 p _ _ _ _ _ _ (by decide)).trans ?_
  refine (show decClass4 (p.fields 0x107 1 0 (what.toNat + (if clr then 1 else 0) * 2 ^ 4) (0) (0)) = decMstat (p.fields 0x107 1 0 (what.toNat + (if clr then 1 else 0) * 2 ^ 4) (0) (0)) by with_unfolding_all rfl).trans ?_
  clear l_what l_clr
  simp_all [decMstat, need, get, decPar_fields, e1, e2, e3, bit_eq]

theorem Encoding.ld (p : Par) : Encoding.Statement (.ld p) := by
  intro h f hf
  obtain rfl := Option.some.inj hf
  change (p.ok true tyLd .any) = true at h
  refine ⟨Par.fields_fits p _ _ _ _ _ _ (by decide) (by decide) (by decide) (by omega) (by omega) (by omega), ?_⟩
  refine (decFields_class5 p _ _ _ _ _ _ (by decide)).trans ?_
  refine (show decClass5 (p.fields 0x140 1 0 (0) (0) (0)) = decLd (p.fields 0x140 1 0 (0) (0) (0)) by with_unfolding_all rfl).trans ?_
  simp_all [decLd, need, get, decPar_fields]

theorem Encoding.st (p : Par) : Encoding.Statement (.st p) := by
  intro h f hf
  obtain rfl := Option.some.inj hf
  change (p.ok false tyLd .any) = true at h
  refine ⟨Par.fields_fits p _ _ _ _ _ _ (by decide) (by decide) (by decide) (by omega) (by omega) (by omega), ?_⟩
  refine (decFields_class5 p _ _ _ _ _ _ (by decide)).trans ?_
  refine (show decClass5 (p.fields 0x141 2 0 (0) (0) (0)) = decSt (p.fields 0x141 2 0 (0) (0) (0)) by with_unfolding_all rfl).trans ?_
  simp_all [decSt, need, get, decPar_fields]

theorem Encoding.stImm (p : Par) (imm : BitVec 32) : Encoding.Statement (.stImm p imm) := by
  intro h f hf
  obtain rfl := Option.some.inj hf
  change (p.ok true tyLd .any) = true at h
  have l_imm := imm.isLt
  refine ⟨Par.fields_fits p _ _ _ _ _ _ (by decide) (by decide) (by decide) (by omega) (by omega) (by omega), ?_⟩
  refine (decFields_class5 p _ _ _ _ _ _ (by decide)).trans ?_
  refine (show decClass5 (p.fields 0x141 1 1 (0) (imm.toNat) (0)) = decStImm (p.fields 0x141 1 1 (0) (imm.toNat) (0)) by with_unfolding_all rfl).trans ?_
  clear l_imm
  simp_all [decStImm, need, get, decPar_fields]

theorem Encoding.ldt (p : Par) (bg : Geom) (pitch : BitVec 16) (rows : BitVec 13) (cols : BitVec 13) : Encoding.Statement (.ldt p bg pitch rows cols) := by
  intro h f hf
  obtain rfl := Option.some.inj hf
  change (p.ok true tyAny .any && (!(bg.scaled)) && (dimOk rows && dimOk cols) && (p.ty != .none || bg == .g0) && (p.ty == .none || pairOk p.ty bg)) = true at h
  simp only [Bool.and_eq_true] at h
  have l_bg := geomCode_lt bg
  have l_pitch := pitch.isLt
  have l_rows := rows.isLt
  have l_cols := cols.isLt
  have e1 : bf (rows.toNat + cols.toNat * 2 ^ 13) 0 13 = rows.toNat := by simp only [bf]; omega
  have e2 : bf (rows.toNat + cols.toNat * 2 ^ 13) 13 13 = cols.toNat := by simp only [bf]; omega
  have e3 : bf (geomCode bg) 0 4 = geomCode bg := by simp only [bf]; omega
  have e4 : bf (geomCode bg) 4 3 = 0 := by simp only [bf]; omega
  have e5 : bf (rows.toNat + cols.toNat * 2 ^ 13) 26 6 = 0 := by simp only [bf]; omega
  refine ⟨Par.fields_fits p _ _ _ _ _ _ (by decide) (by decide) (by decide) (by omega) (by omega) (by omega), ?_⟩
  refine (decFields_class5 p _ _ _ _ _ _ (by decide)).trans ?_
  refine (show decClass5 (p.fields 0x142 1 0 (geomCode bg) (rows.toNat + cols.toNat * 2 ^ 13) (pitch.toNat)) = decLdt (p.fields 0x142 1 0 (geomCode bg) (rows.toNat + cols.toNat * 2 ^ 13) (pitch.toNat)) by with_unfolding_all rfl).trans ?_
  have z : p.slot.toNat = 0 := ok_slot p tyAny .any (by simp only [h])
  have g : ¬geomCode bg = 0 → 4 < geomCode bg := by revert h; cases bg <;> simp [Geom.scaled, geomCode]
  have gz : (geomCode bg == 0) = (bg == .g0) := by cases bg <;> rfl
  clear l_bg l_pitch l_rows l_cols
  have gg : geomOfCode 0 = some .g0 := rfl
  by_cases g0 : bg = .g0 <;> by_cases t0 : p.ty = .none
  all_goals simp_all [decLdt, need, get, decPar_fields, e1, e2, e3, e4, e5, geomOfCode_geomCode, tyOfCode_tyCode]

theorem Encoding.ldtScaled (p : Par) (bg : Geom) (pitch : BitVec 16) (rows : BitVec 13) (cols : BitVec 13) : Encoding.Statement (.ldtScaled p bg pitch rows cols) := by
  intro h f hf
  obtain rfl := Option.some.inj hf
  change (p.ok false tyAny .any && (bg != .g0) && (dimOk rows && dimOk cols) && (p.ty != .none || bg == .g0) && (p.ty == .none || pairOk p.ty bg)) = true at h
  simp only [Bool.and_eq_true] at h
  have l_bg := geomCode_lt bg
  have l_pitch := pitch.isLt
  have l_rows := rows.isLt
  have l_cols := cols.isLt
  have e1 : bf (rows.toNat + cols.toNat * 2 ^ 13) 0 13 = rows.toNat := by simp only [bf]; omega
  have e2 : bf (rows.toNat + cols.toNat * 2 ^ 13) 13 13 = cols.toNat := by simp only [bf]; omega
  have e3 : bf (geomCode bg) 0 4 = geomCode bg := by simp only [bf]; omega
  have e4 : bf (geomCode bg) 4 3 = 0 := by simp only [bf]; omega
  have e5 : bf (rows.toNat + cols.toNat * 2 ^ 13) 26 6 = 0 := by simp only [bf]; omega
  refine ⟨Par.fields_fits p _ _ _ _ _ _ (by decide) (by decide) (by decide) (by omega) (by omega) (by omega), ?_⟩
  refine (decFields_class5 p _ _ _ _ _ _ (by decide)).trans ?_
  refine (show decClass5 (p.fields 0x142 2 0 (geomCode bg) (rows.toNat + cols.toNat * 2 ^ 13) (pitch.toNat)) = decLdtScaled (p.fields 0x142 2 0 (geomCode bg) (rows.toNat + cols.toNat * 2 ^ 13) (pitch.toNat)) by with_unfolding_all rfl).trans ?_
  have g : ¬geomCode bg = 0 := by revert h; cases bg <;> simp [geomCode]
  have gz : (geomCode bg == 0) = (bg == .g0) := by cases bg <;> rfl
  clear l_bg l_pitch l_rows l_cols
  by_cases t0 : p.ty = .none
  all_goals simp_all [decLdtScaled, need, get, decPar_fields, e1, e2, e3, e4, e5, geomOfCode_geomCode, tyOfCode_tyCode]

theorem Encoding.stt (p : Par) (pitch : BitVec 16) : Encoding.Statement (.stt p pitch) := by
  intro h f hf
  obtain rfl := Option.some.inj hf
  change (p.ok false tyNone .any) = true at h
  have l_pitch := pitch.isLt
  refine ⟨Par.fields_fits p _ _ _ _ _ _ (by decide) (by decide) (by decide) (by omega) (by omega) (by omega), ?_⟩
  refine (decFields_class5 p _ _ _ _ _ _ (by decide)).trans ?_
  refine (show decClass5 (p.fields 0x143 2 0 (0) (0) (pitch.toNat)) = decStt (p.fields 0x143 2 0 (0) (0) (pitch.toNat)) by with_unfolding_all rfl).trans ?_
  clear l_pitch
  simp_all [decStt, need, get, decPar_fields]

theorem Encoding.sttScaled (p : Par) (pitch : BitVec 16) : Encoding.Statement (.sttScaled p pitch) := by
  intro h f hf
  obtain rfl := Option.some.inj hf
  change (p.ok false tyNone .any) = true at h
  have l_pitch := pitch.isLt
  refine ⟨Par.fields_fits p _ _ _ _ _ _ (by decide) (by decide) (by decide) (by omega) (by omega) (by omega), ?_⟩
  refine (decFields_class5 p _ _ _ _ _ _ (by decide)).trans ?_
  refine (show decClass5 (p.fields 0x143 3 0 (0) (0) (pitch.toNat)) = decSttScaled (p.fields 0x143 3 0 (0) (0) (pitch.toNat)) by with_unfolding_all rfl).trans ?_
  clear l_pitch
  simp_all [decSttScaled, need, get, decPar_fields]

theorem Encoding.copy (p : Par) (scl : Bool) (recd : BitVec 10) : Encoding.Statement (.copy p scl recd) := by
  intro h f hf
  obtain rfl := Option.some.inj hf
  change (p.ok true tyAny .any) = true at h
  have l_scl := bit_le scl
  have l_recd := recd.isLt
  have e1 : bf (recd.toNat) 0 10 = recd.toNat := by simp only [bf]; omega
  have e2 : bf ((if scl then 1 else 0)) 0 1 = (if scl then 1 else 0) := by simp only [bf]; omega
  have e3 : bf ((if scl then 1 else 0)) 1 6 = 0 := by simp only [bf]; omega
  have e4 : bf (recd.toNat) 10 6 = 0 := by simp only [bf]; omega
  refine ⟨Par.fields_fits p _ _ _ _ _ _ (by decide) (by decide) (by decide) (by omega) (by omega) (by omega), ?_⟩
  refine (decFields_class5 p _ _ _ _ _ _ (by decide)).trans ?_
  refine (show decClass5 (p.fields 0x144 1 0 ((if scl then 1 else 0)) (0) (recd.toNat)) = decCopy (p.fields 0x144 1 0 ((if scl then 1 else 0)) (0) (recd.toNat)) by with_unfolding_all rfl).trans ?_
  clear l_scl l_recd
  simp_all [decCopy, need, get, decPar_fields, e1, e2, e3, e4, bit_eq]

theorem Encoding.copyAddr (p : Par) (scl : Bool) (recd : BitVec 10) : Encoding.Statement (.copyAddr p scl recd) := by
  intro h f hf
  obtain rfl := Option.some.inj hf
  change (p.ok false tyAny .any) = true at h
  have l_scl := bit_le scl
  have l_recd := recd.isLt
  have e1 : bf (recd.toNat) 0 10 = recd.toNat := by simp only [bf]; omega
  have e2 : bf ((if scl then 1 else 0)) 0 1 = (if scl then 1 else 0) := by simp only [bf]; omega
  have e3 : bf ((if scl then 1 else 0)) 1 6 = 0 := by simp only [bf]; omega
  have e4 : bf (recd.toNat) 10 6 = 0 := by simp only [bf]; omega
  refine ⟨Par.fields_fits p _ _ _ _ _ _ (by decide) (by decide) (by decide) (by omega) (by omega) (by omega), ?_⟩
  refine (decFields_class5 p _ _ _ _ _ _ (by decide)).trans ?_
  refine (show decClass5 (p.fields 0x144 2 0 ((if scl then 1 else 0)) (0) (recd.toNat)) = decCopyAddr (p.fields 0x144 2 0 ((if scl then 1 else 0)) (0) (recd.toNat)) by with_unfolding_all rfl).trans ?_
  clear l_scl l_recd
  simp_all [decCopyAddr, need, get, decPar_fields, e1, e2, e3, e4, bit_eq]

theorem Encoding.gath (p : Par) (recd : BitVec 10) : Encoding.Statement (.gath p recd) := by
  intro h f hf
  obtain rfl := Option.some.inj hf
  change (p.ok false tyNone .any) = true at h
  have l_recd := recd.isLt
  have e1 : bf (recd.toNat) 0 10 = recd.toNat := by simp only [bf]; omega
  have e2 : bf (recd.toNat) 10 6 = 0 := by simp only [bf]; omega
  refine ⟨Par.fields_fits p _ _ _ _ _ _ (by decide) (by decide) (by decide) (by omega) (by omega) (by omega), ?_⟩
  refine (decFields_class5 p _ _ _ _ _ _ (by decide)).trans ?_
  refine (show decClass5 (p.fields 0x145 2 0 (0) (0) (recd.toNat)) = decGath (p.fields 0x145 2 0 (0) (0) (recd.toNat)) by with_unfolding_all rfl).trans ?_
  clear l_recd
  simp_all [decGath, need, get, decPar_fields, e1, e2]

theorem Encoding.scat (p : Par) (recd : BitVec 10) : Encoding.Statement (.scat p recd) := by
  intro h f hf
  obtain rfl := Option.some.inj hf
  change (p.ok false tyNone .any) = true at h
  have l_recd := recd.isLt
  have e1 : bf (recd.toNat) 0 10 = recd.toNat := by simp only [bf]; omega
  have e2 : bf (recd.toNat) 10 6 = 0 := by simp only [bf]; omega
  refine ⟨Par.fields_fits p _ _ _ _ _ _ (by decide) (by decide) (by decide) (by omega) (by omega) (by omega), ?_⟩
  refine (decFields_class5 p _ _ _ _ _ _ (by decide)).trans ?_
  refine (show decClass5 (p.fields 0x146 2 0 (0) (0) (recd.toNat)) = decScat (p.fields 0x146 2 0 (0) (0) (recd.toNat)) by with_unfolding_all rfl).trans ?_
  clear l_recd
  simp_all [decScat, need, get, decPar_fields, e1, e2]

theorem Encoding.cred (p : Par) (rop : RedOp) (recd : BitVec 10) : Encoding.Statement (.cred p rop recd) := by
  intro h f hf
  obtain rfl := Option.some.inj hf
  change (p.ok false tyRed .any) = true at h
  have l_rop := redOpCode_lt rop
  have l_recd := recd.isLt
  have e1 : bf (recd.toNat) 0 10 = recd.toNat := by simp only [bf]; omega
  have e2 : bf (redOpCode rop) 0 2 = redOpCode rop := by simp only [bf]; omega
  have e3 : bf (redOpCode rop) 2 5 = 0 := by simp only [bf]; omega
  have e4 : bf (recd.toNat) 10 6 = 0 := by simp only [bf]; omega
  refine ⟨Par.fields_fits p _ _ _ _ _ _ (by decide) (by decide) (by decide) (by omega) (by omega) (by omega), ?_⟩
  refine (decFields_class5 p _ _ _ _ _ _ (by decide)).trans ?_
  refine (show decClass5 (p.fields 0x147 2 0 (redOpCode rop) (0) (recd.toNat)) = decCred (p.fields 0x147 2 0 (redOpCode rop) (0) (recd.toNat)) by with_unfolding_all rfl).trans ?_
  clear l_rop l_recd
  simp_all [decCred, need, get, decPar_fields, e1, e2, e3, e4, redOpOfCode_redOpCode]

theorem Encoding.drain (p : Par) (path : BitVec 3) : Encoding.Statement (.drain p path) := by
  intro h f hf
  obtain rfl := Option.some.inj hf
  change (p.ok true tyNone .any) = true at h
  have l_path := path.isLt
  have e1 : bf (path.toNat) 0 3 = path.toNat := by simp only [bf]; omega
  have e2 : bf (path.toNat) 3 13 = 0 := by simp only [bf]; omega
  refine ⟨Par.fields_fits p _ _ _ _ _ _ (by decide) (by decide) (by decide) (by omega) (by omega) (by omega), ?_⟩
  refine (decFields_class5 p _ _ _ _ _ _ (by decide)).trans ?_
  refine (show decClass5 (p.fields 0x148 1 0 (0) (0) (path.toNat)) = decDrain (p.fields 0x148 1 0 (0) (0) (path.toNat)) by with_unfolding_all rfl).trans ?_
  clear l_path
  simp_all [decDrain, need, get, decPar_fields, e1, e2]

theorem Encoding.pfh (p : Par) (count : BitVec 16) : Encoding.Statement (.pfh p count) := by
  intro h f hf
  obtain rfl := Option.some.inj hf
  change (p.ok true tyNone .any) = true at h
  have l_count := count.isLt
  refine ⟨Par.fields_fits p _ _ _ _ _ _ (by decide) (by decide) (by decide) (by omega) (by omega) (by omega), ?_⟩
  refine (decFields_class5 p _ _ _ _ _ _ (by decide)).trans ?_
  refine (show decClass5 (p.fields 0x149 1 0 (0) (0) (count.toNat)) = decPfh (p.fields 0x149 1 0 (0) (0) (count.toNat)) by with_unfolding_all rfl).trans ?_
  clear l_count
  simp_all [decPfh, need, get, decPar_fields]

theorem Encoding.aop (p : Par) (op : AtomOp) (rtry : Bool) : Encoding.Statement (.aop p op rtry) := by
  intro h f hf
  obtain rfl := Option.some.inj hf
  change (p.ok false tyAtom .any && (!(tyFlt.contains p.ty) || !(op.bitwise))) = true at h
  simp only [Bool.and_eq_true] at h
  have l_op := atomOpCode_lt op
  have l_rtry := bit_le rtry
  have e1 : bf (atomOpCode op + (if rtry then 1 else 0) * 2 ^ 4) 4 1 = (if rtry then 1 else 0) := by simp only [bf]; omega
  have e2 : bf (atomOpCode op + (if rtry then 1 else 0) * 2 ^ 4) 0 3 = atomOpCode op := by simp only [bf]; omega
  have e3 : bf (atomOpCode op + (if rtry then 1 else 0) * 2 ^ 4) 3 1 = 0 := by simp only [bf]; omega
  have e4 : bf (atomOpCode op + (if rtry then 1 else 0) * 2 ^ 4) 5 2 = 0 := by simp only [bf]; omega
  refine ⟨Par.fields_fits p _ _ _ _ _ _ (by decide) (by decide) (by decide) (by omega) (by omega) (by omega), ?_⟩
  refine (decFields_class5 p _ _ _ _ _ _ (by decide)).trans ?_
  refine (show decClass5 (p.fields 0x14a 2 0 (atomOpCode op + (if rtry then 1 else 0) * 2 ^ 4) (0) (0)) = decAop (p.fields 0x14a 2 0 (atomOpCode op + (if rtry then 1 else 0) * 2 ^ 4) (0) (0)) by with_unfolding_all rfl).trans ?_
  clear l_op l_rtry
  simp_all [decAop, need, get, decPar_fields, e1, e2, e3, e4, atomOpOfCode_atomOpCode, tyOfCode_tyCode, bit_eq]

theorem Encoding.aopImm (p : Par) (op : AtomOp) (rtry : Bool) (imm : BitVec 32) : Encoding.Statement (.aopImm p op rtry imm) := by
  intro h f hf
  obtain rfl := Option.some.inj hf
  change (p.ok true tyAtom .any && (!(tyFlt.contains p.ty) || !(op.bitwise))) = true at h
  simp only [Bool.and_eq_true] at h
  have l_op := atomOpCode_lt op
  have l_rtry := bit_le rtry
  have l_imm := imm.isLt
  have e1 : bf (atomOpCode op + (if rtry then 1 else 0) * 2 ^ 4) 4 1 = (if rtry then 1 else 0) := by simp only [bf]; omega
  have e2 : bf (atomOpCode op + (if rtry then 1 else 0) * 2 ^ 4) 0 3 = atomOpCode op := by simp only [bf]; omega
  have e3 : bf (atomOpCode op + (if rtry then 1 else 0) * 2 ^ 4) 3 1 = 0 := by simp only [bf]; omega
  have e4 : bf (atomOpCode op + (if rtry then 1 else 0) * 2 ^ 4) 5 2 = 0 := by simp only [bf]; omega
  refine ⟨Par.fields_fits p _ _ _ _ _ _ (by decide) (by decide) (by decide) (by omega) (by omega) (by omega), ?_⟩
  refine (decFields_class5 p _ _ _ _ _ _ (by decide)).trans ?_
  refine (show decClass5 (p.fields 0x14a 1 1 (atomOpCode op + (if rtry then 1 else 0) * 2 ^ 4) (imm.toNat) (0)) = decAopImm (p.fields 0x14a 1 1 (atomOpCode op + (if rtry then 1 else 0) * 2 ^ 4) (imm.toNat) (0)) by with_unfolding_all rfl).trans ?_
  clear l_op l_rtry l_imm
  simp_all [decAopImm, need, get, decPar_fields, e1, e2, e3, e4, atomOpOfCode_atomOpCode, tyOfCode_tyCode, bit_eq]

theorem Encoding.acas (p : Par) (rtry : Bool) : Encoding.Statement (.acas p rtry) := by
  intro h f hf
  obtain rfl := Option.some.inj hf
  change (p.ok false tyCas .any) = true at h
  have l_rtry := bit_le rtry
  have e1 : bf ((if rtry then 1 else 0) * 2 ^ 4) 4 1 = (if rtry then 1 else 0) := by simp only [bf]; omega
  have e2 : bf ((if rtry then 1 else 0) * 2 ^ 4) 0 4 = 0 := by simp only [bf]; omega
  have e3 : bf ((if rtry then 1 else 0) * 2 ^ 4) 5 2 = 0 := by simp only [bf]; omega
  refine ⟨Par.fields_fits p _ _ _ _ _ _ (by decide) (by decide) (by decide) (by omega) (by omega) (by omega), ?_⟩
  refine (decFields_class5 p _ _ _ _ _ _ (by decide)).trans ?_
  refine (show decClass5 (p.fields 0x14b 3 0 ((if rtry then 1 else 0) * 2 ^ 4) (0) (0)) = decAcas (p.fields 0x14b 3 0 ((if rtry then 1 else 0) * 2 ^ 4) (0) (0)) by with_unfolding_all rfl).trans ?_
  clear l_rtry
  simp_all [decAcas, need, get, decPar_fields, e1, e2, e3, bit_eq]

theorem Encoding.acasImm (p : Par) (rtry : Bool) (imm : BitVec 32) : Encoding.Statement (.acasImm p rtry imm) := by
  intro h f hf
  obtain rfl := Option.some.inj hf
  change (p.ok false tyCas .any) = true at h
  have l_rtry := bit_le rtry
  have l_imm := imm.isLt
  have e1 : bf ((if rtry then 1 else 0) * 2 ^ 4) 4 1 = (if rtry then 1 else 0) := by simp only [bf]; omega
  have e2 : bf ((if rtry then 1 else 0) * 2 ^ 4) 0 4 = 0 := by simp only [bf]; omega
  have e3 : bf ((if rtry then 1 else 0) * 2 ^ 4) 5 2 = 0 := by simp only [bf]; omega
  refine ⟨Par.fields_fits p _ _ _ _ _ _ (by decide) (by decide) (by decide) (by omega) (by omega) (by omega), ?_⟩
  refine (decFields_class5 p _ _ _ _ _ _ (by decide)).trans ?_
  refine (show decClass5 (p.fields 0x14b 2 1 ((if rtry then 1 else 0) * 2 ^ 4) (imm.toNat) (0)) = decAcasImm (p.fields 0x14b 2 1 ((if rtry then 1 else 0) * 2 ^ 4) (imm.toNat) (0)) by with_unfolding_all rfl).trans ?_
  clear l_rtry l_imm
  simp_all [decAcasImm, need, get, decPar_fields, e1, e2, e3, bit_eq]

theorem Encoding.bupd (p : Par) (rop : RedOp) (pitch : BitVec 16) : Encoding.Statement (.bupd p rop pitch) := by
  intro h f hf
  obtain rfl := Option.some.inj hf
  change (p.ok false tyRed .any) = true at h
  have l_rop := redOpCode_lt rop
  have l_pitch := pitch.isLt
  have e1 : bf (redOpCode rop) 0 2 = redOpCode rop := by simp only [bf]; omega
  have e2 : bf (redOpCode rop) 2 5 = 0 := by simp only [bf]; omega
  refine ⟨Par.fields_fits p _ _ _ _ _ _ (by decide) (by decide) (by decide) (by omega) (by omega) (by omega), ?_⟩
  refine (decFields_class5 p _ _ _ _ _ _ (by decide)).trans ?_
  refine (show decClass5 (p.fields 0x14c 2 0 (redOpCode rop) (0) (pitch.toNat)) = decBupd (p.fields 0x14c 2 0 (redOpCode rop) (0) (pitch.toNat)) by with_unfolding_all rfl).trans ?_
  clear l_rop l_pitch
  simp_all [decBupd, need, get, decPar_fields, e1, e2, redOpOfCode_redOpCode]

theorem Encoding.baxpy (p : Par) (pitch : BitVec 16) : Encoding.Statement (.baxpy p pitch) := by
  intro h f hf
  obtain rfl := Option.some.inj hf
  change (p.ok false tyFlt .any) = true at h
  have l_pitch := pitch.isLt
  refine ⟨Par.fields_fits p _ _ _ _ _ _ (by decide) (by decide) (by decide) (by omega) (by omega) (by omega), ?_⟩
  refine (decFields_class5 p _ _ _ _ _ _ (by decide)).trans ?_
  refine (show decClass5 (p.fields 0x14d 3 0 (0) (0) (pitch.toNat)) = decBaxpy (p.fields 0x14d 3 0 (0) (0) (pitch.toNat)) by with_unfolding_all rfl).trans ?_
  clear l_pitch
  simp_all [decBaxpy, need, get, decPar_fields]

theorem Encoding.baxpyImm (p : Par) (pitch : BitVec 16) (imm : BitVec 32) : Encoding.Statement (.baxpyImm p pitch imm) := by
  intro h f hf
  obtain rfl := Option.some.inj hf
  change (p.ok false tyFlt .any) = true at h
  have l_pitch := pitch.isLt
  have l_imm := imm.isLt
  refine ⟨Par.fields_fits p _ _ _ _ _ _ (by decide) (by decide) (by decide) (by omega) (by omega) (by omega), ?_⟩
  refine (decFields_class5 p _ _ _ _ _ _ (by decide)).trans ?_
  refine (show decClass5 (p.fields 0x14d 2 1 (0) (imm.toNat) (pitch.toNat)) = decBaxpyImm (p.fields 0x14d 2 1 (0) (imm.toNat) (pitch.toNat)) by with_unfolding_all rfl).trans ?_
  clear l_pitch l_imm
  simp_all [decBaxpyImm, need, get, decPar_fields]

theorem Encoding.bara (p : Par) (rtry : Bool) : Encoding.Statement (.bara p rtry) := by
  intro h f hf
  obtain rfl := Option.some.inj hf
  change (p.ok true tyNone .any) = true at h
  have l_rtry := bit_le rtry
  have e1 : bf ((if rtry then 1 else 0) * 2 ^ 4) 4 1 = (if rtry then 1 else 0) := by simp only [bf]; omega
  have e2 : bf ((if rtry then 1 else 0) * 2 ^ 4) 0 4 = 0 := by simp only [bf]; omega
  have e3 : bf ((if rtry then 1 else 0) * 2 ^ 4) 5 2 = 0 := by simp only [bf]; omega
  refine ⟨Par.fields_fits p _ _ _ _ _ _ (by decide) (by decide) (by decide) (by omega) (by omega) (by omega), ?_⟩
  refine (decFields_class6 p _ _ _ _ _ _ (by decide)).trans ?_
  refine (show decClass6 (p.fields 0x185 1 0 ((if rtry then 1 else 0) * 2 ^ 4) (0) (0)) = decBara (p.fields 0x185 1 0 ((if rtry then 1 else 0) * 2 ^ 4) (0) (0)) by with_unfolding_all rfl).trans ?_
  clear l_rtry
  simp_all [decBara, need, get, decPar_fields, e1, e2, e3, bit_eq]

theorem Encoding.baraStatus (p : Par) (rtry : Bool) : Encoding.Statement (.baraStatus p rtry) := by
  intro h f hf
  obtain rfl := Option.some.inj hf
  change (p.ok false tyNone .any) = true at h
  have l_rtry := bit_le rtry
  have e1 : bf ((if rtry then 1 else 0) * 2 ^ 4) 4 1 = (if rtry then 1 else 0) := by simp only [bf]; omega
  have e2 : bf ((if rtry then 1 else 0) * 2 ^ 4) 0 4 = 0 := by simp only [bf]; omega
  have e3 : bf ((if rtry then 1 else 0) * 2 ^ 4) 5 2 = 0 := by simp only [bf]; omega
  refine ⟨Par.fields_fits p _ _ _ _ _ _ (by decide) (by decide) (by decide) (by omega) (by omega) (by omega), ?_⟩
  refine (decFields_class6 p _ _ _ _ _ _ (by decide)).trans ?_
  refine (show decClass6 (p.fields 0x185 2 0 ((if rtry then 1 else 0) * 2 ^ 4) (0) (0)) = decBaraStatus (p.fields 0x185 2 0 ((if rtry then 1 else 0) * 2 ^ 4) (0) (0)) by with_unfolding_all rfl).trans ?_
  clear l_rtry
  simp_all [decBaraStatus, need, get, decPar_fields, e1, e2, e3, bit_eq]

theorem Encoding.baraImm (p : Par) (rtry : Bool) (imm : BitVec 32) : Encoding.Statement (.baraImm p rtry imm) := by
  intro h f hf
  obtain rfl := Option.some.inj hf
  change (p.ok true tyNone .any) = true at h
  have l_rtry := bit_le rtry
  have l_imm := imm.isLt
  have e1 : bf ((if rtry then 1 else 0) * 2 ^ 4) 4 1 = (if rtry then 1 else 0) := by simp only [bf]; omega
  have e2 : bf ((if rtry then 1 else 0) * 2 ^ 4) 0 4 = 0 := by simp only [bf]; omega
  have e3 : bf ((if rtry then 1 else 0) * 2 ^ 4) 5 2 = 0 := by simp only [bf]; omega
  refine ⟨Par.fields_fits p _ _ _ _ _ _ (by decide) (by decide) (by decide) (by omega) (by omega) (by omega), ?_⟩
  refine (decFields_class6 p _ _ _ _ _ _ (by decide)).trans ?_
  refine (show decClass6 (p.fields 0x185 1 1 ((if rtry then 1 else 0) * 2 ^ 4) (imm.toNat) (0)) = decBaraImm (p.fields 0x185 1 1 ((if rtry then 1 else 0) * 2 ^ 4) (imm.toNat) (0)) by with_unfolding_all rfl).trans ?_
  clear l_rtry l_imm
  simp_all [decBaraImm, need, get, decPar_fields, e1, e2, e3, bit_eq]

theorem Encoding.barw (p : Par) : Encoding.Statement (.barw p) := by
  intro h f hf
  obtain rfl := Option.some.inj hf
  change (p.ok false tyNone .any) = true at h
  refine ⟨Par.fields_fits p _ _ _ _ _ _ (by decide) (by decide) (by decide) (by omega) (by omega) (by omega), ?_⟩
  refine (decFields_class6 p _ _ _ _ _ _ (by decide)).trans ?_
  refine (show decClass6 (p.fields 0x186 2 0 (0) (0) (0)) = decBarw (p.fields 0x186 2 0 (0) (0) (0)) by with_unfolding_all rfl).trans ?_
  simp_all [decBarw, need, get, decPar_fields]

theorem Encoding.barwImm (p : Par) (imm : BitVec 32) : Encoding.Statement (.barwImm p imm) := by
  intro h f hf
  obtain rfl := Option.some.inj hf
  change (p.ok true tyNone .any) = true at h
  have l_imm := imm.isLt
  refine ⟨Par.fields_fits p _ _ _ _ _ _ (by decide) (by decide) (by decide) (by omega) (by omega) (by omega), ?_⟩
  refine (decFields_class6 p _ _ _ _ _ _ (by decide)).trans ?_
  refine (show decClass6 (p.fields 0x186 1 1 (0) (imm.toNat) (0)) = decBarwImm (p.fields 0x186 1 1 (0) (imm.toNat) (0)) by with_unfolding_all rfl).trans ?_
  clear l_imm
  simp_all [decBarwImm, need, get, decPar_fields]

theorem Encoding.acq (p : Par) (sh : Bool) (rtry : Bool) (scope : Scope) : Encoding.Statement (.acq p sh rtry scope) := by
  intro h f hf
  obtain rfl := Option.some.inj hf
  change (p.ok true tyNone .any) = true at h
  have l_sh := bit_le sh
  have l_rtry := bit_le rtry
  have l_scope := scopeCode_lt scope
  have e1 : bf ((if sh then 1 else 0) + (if rtry then 1 else 0) * 2 ^ 4) 0 1 = (if sh then 1 else 0) := by simp only [bf]; omega
  have e2 : bf ((if sh then 1 else 0) + (if rtry then 1 else 0) * 2 ^ 4) 4 1 = (if rtry then 1 else 0) := by simp only [bf]; omega
  have e3 : bf (scopeCode scope) 0 2 = scopeCode scope := by simp only [bf]; omega
  have e4 : bf ((if sh then 1 else 0) + (if rtry then 1 else 0) * 2 ^ 4) 1 3 = 0 := by simp only [bf]; omega
  have e5 : bf ((if sh then 1 else 0) + (if rtry then 1 else 0) * 2 ^ 4) 5 2 = 0 := by simp only [bf]; omega
  have e6 : bf (scopeCode scope) 2 14 = 0 := by simp only [bf]; omega
  refine ⟨Par.fields_fits p _ _ _ _ _ _ (by decide) (by decide) (by decide) (by omega) (by omega) (by omega), ?_⟩
  refine (decFields_class6 p _ _ _ _ _ _ (by decide)).trans ?_
  refine (show decClass6 (p.fields 0x187 1 0 ((if sh then 1 else 0) + (if rtry then 1 else 0) * 2 ^ 4) (0) (scopeCode scope)) = decAcq (p.fields 0x187 1 0 ((if sh then 1 else 0) + (if rtry then 1 else 0) * 2 ^ 4) (0) (scopeCode scope)) by with_unfolding_all rfl).trans ?_
  clear l_sh l_rtry l_scope
  simp_all [decAcq, need, get, decPar_fields, e1, e2, e3, e4, e5, e6, scopeOfCode_scopeCode, bit_eq]

theorem Encoding.rel (p : Par) (sh : Bool) (rtry : Bool) (scope : Scope) : Encoding.Statement (.rel p sh rtry scope) := by
  intro h f hf
  obtain rfl := Option.some.inj hf
  change (p.ok true tyNone .any) = true at h
  have l_sh := bit_le sh
  have l_rtry := bit_le rtry
  have l_scope := scopeCode_lt scope
  have e1 : bf ((if sh then 1 else 0) + (if rtry then 1 else 0) * 2 ^ 4) 0 1 = (if sh then 1 else 0) := by simp only [bf]; omega
  have e2 : bf ((if sh then 1 else 0) + (if rtry then 1 else 0) * 2 ^ 4) 4 1 = (if rtry then 1 else 0) := by simp only [bf]; omega
  have e3 : bf (scopeCode scope) 0 2 = scopeCode scope := by simp only [bf]; omega
  have e4 : bf ((if sh then 1 else 0) + (if rtry then 1 else 0) * 2 ^ 4) 1 3 = 0 := by simp only [bf]; omega
  have e5 : bf ((if sh then 1 else 0) + (if rtry then 1 else 0) * 2 ^ 4) 5 2 = 0 := by simp only [bf]; omega
  have e6 : bf (scopeCode scope) 2 14 = 0 := by simp only [bf]; omega
  refine ⟨Par.fields_fits p _ _ _ _ _ _ (by decide) (by decide) (by decide) (by omega) (by omega) (by omega), ?_⟩
  refine (decFields_class6 p _ _ _ _ _ _ (by decide)).trans ?_
  refine (show decClass6 (p.fields 0x188 1 0 ((if sh then 1 else 0) + (if rtry then 1 else 0) * 2 ^ 4) (0) (scopeCode scope)) = decRel (p.fields 0x188 1 0 ((if sh then 1 else 0) + (if rtry then 1 else 0) * 2 ^ 4) (0) (scopeCode scope)) by with_unfolding_all rfl).trans ?_
  clear l_sh l_rtry l_scope
  simp_all [decRel, need, get, decPar_fields, e1, e2, e3, e4, e5, e6, scopeOfCode_scopeCode, bit_eq]

theorem Encoding.pclm (p : Par) (pipe : BitVec 4) : Encoding.Statement (.pclm p pipe) := by
  intro h f hf
  obtain rfl := Option.some.inj hf
  change (p.ok false tyNone .any) = true at h
  have l_pipe := pipe.isLt
  have e1 : bf (pipe.toNat) 0 4 = pipe.toNat := by simp only [bf]; omega
  have e2 : bf (pipe.toNat) 4 12 = 0 := by simp only [bf]; omega
  refine ⟨Par.fields_fits p _ _ _ _ _ _ (by decide) (by decide) (by decide) (by omega) (by omega) (by omega), ?_⟩
  refine (decFields_class6 p _ _ _ _ _ _ (by decide)).trans ?_
  refine (show decClass6 (p.fields 0x180 2 0 (0) (0) (pipe.toNat)) = decPclm (p.fields 0x180 2 0 (0) (0) (pipe.toNat)) by with_unfolding_all rfl).trans ?_
  clear l_pipe
  simp_all [decPclm, need, get, decPar_fields, e1, e2]

theorem Encoding.pclmImm (p : Par) (pipe : BitVec 4) (imm : BitVec 32) : Encoding.Statement (.pclmImm p pipe imm) := by
  intro h f hf
  obtain rfl := Option.some.inj hf
  change (p.ok true tyNone .any) = true at h
  have l_pipe := pipe.isLt
  have l_imm := imm.isLt
  have e1 : bf (pipe.toNat) 0 4 = pipe.toNat := by simp only [bf]; omega
  have e2 : bf (pipe.toNat) 4 12 = 0 := by simp only [bf]; omega
  refine ⟨Par.fields_fits p _ _ _ _ _ _ (by decide) (by decide) (by decide) (by omega) (by omega) (by omega), ?_⟩
  refine (decFields_class6 p _ _ _ _ _ _ (by decide)).trans ?_
  refine (show decClass6 (p.fields 0x180 1 1 (0) (imm.toNat) (pipe.toNat)) = decPclmImm (p.fields 0x180 1 1 (0) (imm.toNat) (pipe.toNat)) by with_unfolding_all rfl).trans ?_
  clear l_pipe l_imm
  simp_all [decPclmImm, need, get, decPar_fields, e1, e2]

theorem Encoding.pcmt (p : Par) (pipe : BitVec 4) : Encoding.Statement (.pcmt p pipe) := by
  intro h f hf
  obtain rfl := Option.some.inj hf
  change (p.ok false tyNone .any) = true at h
  have l_pipe := pipe.isLt
  have e1 : bf (pipe.toNat) 0 4 = pipe.toNat := by simp only [bf]; omega
  have e2 : bf (pipe.toNat) 4 12 = 0 := by simp only [bf]; omega
  refine ⟨Par.fields_fits p _ _ _ _ _ _ (by decide) (by decide) (by decide) (by omega) (by omega) (by omega), ?_⟩
  refine (decFields_class6 p _ _ _ _ _ _ (by decide)).trans ?_
  refine (show decClass6 (p.fields 0x181 2 0 (0) (0) (pipe.toNat)) = decPcmt (p.fields 0x181 2 0 (0) (0) (pipe.toNat)) by with_unfolding_all rfl).trans ?_
  clear l_pipe
  simp_all [decPcmt, need, get, decPar_fields, e1, e2]

theorem Encoding.pcmtImm (p : Par) (pipe : BitVec 4) (imm : BitVec 32) : Encoding.Statement (.pcmtImm p pipe imm) := by
  intro h f hf
  obtain rfl := Option.some.inj hf
  change (p.ok true tyNone .any) = true at h
  have l_pipe := pipe.isLt
  have l_imm := imm.isLt
  have e1 : bf (pipe.toNat) 0 4 = pipe.toNat := by simp only [bf]; omega
  have e2 : bf (pipe.toNat) 4 12 = 0 := by simp only [bf]; omega
  refine ⟨Par.fields_fits p _ _ _ _ _ _ (by decide) (by decide) (by decide) (by omega) (by omega) (by omega), ?_⟩
  refine (decFields_class6 p _ _ _ _ _ _ (by decide)).trans ?_
  refine (show decClass6 (p.fields 0x181 1 1 (0) (imm.toNat) (pipe.toNat)) = decPcmtImm (p.fields 0x181 1 1 (0) (imm.toNat) (pipe.toNat)) by with_unfolding_all rfl).trans ?_
  clear l_pipe l_imm
  simp_all [decPcmtImm, need, get, decPar_fields, e1, e2]

theorem Encoding.pawt (p : Par) (pipe : BitVec 4) : Encoding.Statement (.pawt p pipe) := by
  intro h f hf
  obtain rfl := Option.some.inj hf
  change (p.ok false tyNone .any) = true at h
  have l_pipe := pipe.isLt
  have e1 : bf (pipe.toNat) 0 4 = pipe.toNat := by simp only [bf]; omega
  have e2 : bf (pipe.toNat) 4 12 = 0 := by simp only [bf]; omega
  refine ⟨Par.fields_fits p _ _ _ _ _ _ (by decide) (by decide) (by decide) (by omega) (by omega) (by omega), ?_⟩
  refine (decFields_class6 p _ _ _ _ _ _ (by decide)).trans ?_
  refine (show decClass6 (p.fields 0x182 2 0 (0) (0) (pipe.toNat)) = decPawt (p.fields 0x182 2 0 (0) (0) (pipe.toNat)) by with_unfolding_all rfl).trans ?_
  clear l_pipe
  simp_all [decPawt, need, get, decPar_fields, e1, e2]

theorem Encoding.pawtImm (p : Par) (pipe : BitVec 4) (imm : BitVec 32) : Encoding.Statement (.pawtImm p pipe imm) := by
  intro h f hf
  obtain rfl := Option.some.inj hf
  change (p.ok true tyNone .any) = true at h
  have l_pipe := pipe.isLt
  have l_imm := imm.isLt
  have e1 : bf (pipe.toNat) 0 4 = pipe.toNat := by simp only [bf]; omega
  have e2 : bf (pipe.toNat) 4 12 = 0 := by simp only [bf]; omega
  refine ⟨Par.fields_fits p _ _ _ _ _ _ (by decide) (by decide) (by decide) (by omega) (by omega) (by omega), ?_⟩
  refine (decFields_class6 p _ _ _ _ _ _ (by decide)).trans ?_
  refine (show decClass6 (p.fields 0x182 1 1 (0) (imm.toNat) (pipe.toNat)) = decPawtImm (p.fields 0x182 1 1 (0) (imm.toNat) (pipe.toNat)) by with_unfolding_all rfl).trans ?_
  clear l_pipe l_imm
  simp_all [decPawtImm, need, get, decPar_fields, e1, e2]

theorem Encoding.pret (p : Par) (pipe : BitVec 4) : Encoding.Statement (.pret p pipe) := by
  intro h f hf
  obtain rfl := Option.some.inj hf
  change (p.ok false tyNone .any) = true at h
  have l_pipe := pipe.isLt
  have e1 : bf (pipe.toNat) 0 4 = pipe.toNat := by simp only [bf]; omega
  have e2 : bf (pipe.toNat) 4 12 = 0 := by simp only [bf]; omega
  refine ⟨Par.fields_fits p _ _ _ _ _ _ (by decide) (by decide) (by decide) (by omega) (by omega) (by omega), ?_⟩
  refine (decFields_class6 p _ _ _ _ _ _ (by decide)).trans ?_
  refine (show decClass6 (p.fields 0x183 2 0 (0) (0) (pipe.toNat)) = decPret (p.fields 0x183 2 0 (0) (0) (pipe.toNat)) by with_unfolding_all rfl).trans ?_
  clear l_pipe
  simp_all [decPret, need, get, decPar_fields, e1, e2]

theorem Encoding.pretImm (p : Par) (pipe : BitVec 4) (imm : BitVec 32) : Encoding.Statement (.pretImm p pipe imm) := by
  intro h f hf
  obtain rfl := Option.some.inj hf
  change (p.ok true tyNone .any) = true at h
  have l_pipe := pipe.isLt
  have l_imm := imm.isLt
  have e1 : bf (pipe.toNat) 0 4 = pipe.toNat := by simp only [bf]; omega
  have e2 : bf (pipe.toNat) 4 12 = 0 := by simp only [bf]; omega
  refine ⟨Par.fields_fits p _ _ _ _ _ _ (by decide) (by decide) (by decide) (by omega) (by omega) (by omega), ?_⟩
  refine (decFields_class6 p _ _ _ _ _ _ (by decide)).trans ?_
  refine (show decClass6 (p.fields 0x183 1 1 (0) (imm.toNat) (pipe.toNat)) = decPretImm (p.fields 0x183 1 1 (0) (imm.toNat) (pipe.toNat)) by with_unfolding_all rfl).trans ?_
  clear l_pipe l_imm
  simp_all [decPretImm, need, get, decPar_fields, e1, e2]

theorem Encoding.pinfo (p : Par) (pipe : BitVec 4) : Encoding.Statement (.pinfo p pipe) := by
  intro h f hf
  obtain rfl := Option.some.inj hf
  change (p.ok true tyNone .any) = true at h
  have l_pipe := pipe.isLt
  have e1 : bf (pipe.toNat) 0 4 = pipe.toNat := by simp only [bf]; omega
  have e2 : bf (pipe.toNat) 4 12 = 0 := by simp only [bf]; omega
  refine ⟨Par.fields_fits p _ _ _ _ _ _ (by decide) (by decide) (by decide) (by omega) (by omega) (by omega), ?_⟩
  refine (decFields_class6 p _ _ _ _ _ _ (by decide)).trans ?_
  refine (show decClass6 (p.fields 0x184 1 0 (0) (0) (pipe.toNat)) = decPinfo (p.fields 0x184 1 0 (0) (0) (pipe.toNat)) by with_unfolding_all rfl).trans ?_
  clear l_pipe
  simp_all [decPinfo, need, get, decPar_fields, e1, e2]

theorem Encoding.qput (p : Par) (queue : BitVec 6) : Encoding.Statement (.qput p queue) := by
  intro h f hf
  obtain rfl := Option.some.inj hf
  change (p.ok true tyNone .any) = true at h
  have l_queue := queue.isLt
  have e1 : bf (queue.toNat) 0 6 = queue.toNat := by simp only [bf]; omega
  have e2 : bf (queue.toNat) 6 10 = 0 := by simp only [bf]; omega
  refine ⟨Par.fields_fits p _ _ _ _ _ _ (by decide) (by decide) (by decide) (by omega) (by omega) (by omega), ?_⟩
  refine (decFields_class6 p _ _ _ _ _ _ (by decide)).trans ?_
  refine (show decClass6 (p.fields 0x189 1 0 (0) (0) (queue.toNat)) = decQput (p.fields 0x189 1 0 (0) (0) (queue.toNat)) by with_unfolding_all rfl).trans ?_
  clear l_queue
  simp_all [decQput, need, get, decPar_fields, e1, e2]

theorem Encoding.qputArgs (p : Par) (queue : BitVec 6) : Encoding.Statement (.qputArgs p queue) := by
  intro h f hf
  obtain rfl := Option.some.inj hf
  change (p.ok false tyNone .any) = true at h
  have l_queue := queue.isLt
  have e1 : bf (queue.toNat) 0 6 = queue.toNat := by simp only [bf]; omega
  have e2 : bf (queue.toNat) 6 10 = 0 := by simp only [bf]; omega
  refine ⟨Par.fields_fits p _ _ _ _ _ _ (by decide) (by decide) (by decide) (by omega) (by omega) (by omega), ?_⟩
  refine (decFields_class6 p _ _ _ _ _ _ (by decide)).trans ?_
  refine (show decClass6 (p.fields 0x189 2 0 (0) (0) (queue.toNat)) = decQputArgs (p.fields 0x189 2 0 (0) (0) (queue.toNat)) by with_unfolding_all rfl).trans ?_
  clear l_queue
  simp_all [decQputArgs, need, get, decPar_fields, e1, e2]

theorem Encoding.qwait (p : Par) : Encoding.Statement (.qwait p) := by
  intro h f hf
  obtain rfl := Option.some.inj hf
  change (p.ok true tyNone .any) = true at h
  refine ⟨Par.fields_fits p _ _ _ _ _ _ (by decide) (by decide) (by decide) (by omega) (by omega) (by omega), ?_⟩
  refine (decFields_class6 p _ _ _ _ _ _ (by decide)).trans ?_
  refine (show decClass6 (p.fields 0x18a 1 0 (0) (0) (0)) = decQwait (p.fields 0x18a 1 0 (0) (0) (0)) by with_unfolding_all rfl).trans ?_
  simp_all [decQwait, need, get, decPar_fields]

theorem Encoding.cload (p : Par) (cs : BitVec 2) : Encoding.Statement (.cload p cs) := by
  intro h f hf
  obtain rfl := Option.some.inj hf
  change (p.ok true tyNone .any) = true at h
  have l_cs := cs.isLt
  have e1 : bf (cs.toNat) 0 2 = cs.toNat := by simp only [bf]; omega
  have e2 : bf (cs.toNat) 2 14 = 0 := by simp only [bf]; omega
  refine ⟨Par.fields_fits p _ _ _ _ _ _ (by decide) (by decide) (by decide) (by omega) (by omega) (by omega), ?_⟩
  refine (decFields_class6 p _ _ _ _ _ _ (by decide)).trans ?_
  refine (show decClass6 (p.fields 0x18b 1 0 (0) (0) (cs.toNat)) = decCload (p.fields 0x18b 1 0 (0) (0) (cs.toNat)) by with_unfolding_all rfl).trans ?_
  clear l_cs
  simp_all [decCload, need, get, decPar_fields, e1, e2]

theorem Encoding.csel (p : Par) : Encoding.Statement (.csel p) := by
  intro h f hf
  obtain rfl := Option.some.inj hf
  change (p.ok true tyNone .any) = true at h
  refine ⟨Par.fields_fits p _ _ _ _ _ _ (by decide) (by decide) (by decide) (by omega) (by omega) (by omega), ?_⟩
  refine (decFields_class6 p _ _ _ _ _ _ (by decide)).trans ?_
  refine (show decClass6 (p.fields 0x18c 1 0 (0) (0) (0)) = decCsel (p.fields 0x18c 1 0 (0) (0) (0)) by with_unfolding_all rfl).trans ?_
  simp_all [decCsel, need, get, decPar_fields]

theorem Encoding.cswt (p : Par) (cs : BitVec 2) : Encoding.Statement (.cswt p cs) := by
  intro h f hf
  obtain rfl := Option.some.inj hf
  change (p.ok true tyNone .any) = true at h
  have l_cs := cs.isLt
  have e1 : bf (cs.toNat) 0 2 = cs.toNat := by simp only [bf]; omega
  have e2 : bf (cs.toNat) 2 14 = 0 := by simp only [bf]; omega
  refine ⟨Par.fields_fits p _ _ _ _ _ _ (by decide) (by decide) (by decide) (by omega) (by omega) (by omega), ?_⟩
  refine (decFields_class6 p _ _ _ _ _ _ (by decide)).trans ?_
  refine (show decClass6 (p.fields 0x18d 1 0 (0) (0) (cs.toNat)) = decCswt (p.fields 0x18d 1 0 (0) (0) (cs.toNat)) by with_unfolding_all rfl).trans ?_
  clear l_cs
  simp_all [decCswt, need, get, decPar_fields, e1, e2]

theorem Encoding.cfree (p : Par) (cs : BitVec 2) : Encoding.Statement (.cfree p cs) := by
  intro h f hf
  obtain rfl := Option.some.inj hf
  change (p.ok true tyNone .any) = true at h
  have l_cs := cs.isLt
  have e1 : bf (cs.toNat) 0 2 = cs.toNat := by simp only [bf]; omega
  have e2 : bf (cs.toNat) 2 14 = 0 := by simp only [bf]; omega
  refine ⟨Par.fields_fits p _ _ _ _ _ _ (by decide) (by decide) (by decide) (by omega) (by omega) (by omega), ?_⟩
  refine (decFields_class6 p _ _ _ _ _ _ (by decide)).trans ?_
  refine (show decClass6 (p.fields 0x18e 1 0 (0) (0) (cs.toNat)) = decCfree (p.fields 0x18e 1 0 (0) (0) (cs.toNat)) by with_unfolding_all rfl).trans ?_
  clear l_cs
  simp_all [decCfree, need, get, decPar_fields, e1, e2]

theorem Encoding.trap (p : Par) (code : BitVec 16) : Encoding.Statement (.trap p code) := by
  intro h f hf
  obtain rfl := Option.some.inj hf
  change (p.ok true tyNone .any) = true at h
  have l_code := code.isLt
  have e1 : bf (code.toNat) 0 16 = code.toNat := by simp only [bf]; omega
  have e2 : bf (code.toNat) 16 16 = 0 := by simp only [bf]; omega
  refine ⟨Par.fields_fits p _ _ _ _ _ _ (by decide) (by decide) (by decide) (by omega) (by omega) (by omega), ?_⟩
  refine (decFields_class7 p _ _ _ _ _ _ (by decide)).trans ?_
  refine (show decClass7 (p.fields 0x1c0 1 0 (0) (code.toNat) (0)) = decTrap (p.fields 0x1c0 1 0 (0) (code.toNat) (0)) by with_unfolding_all rfl).trans ?_
  clear l_code
  simp_all [decTrap, need, get, decPar_fields, e1, e2]

theorem Encoding.tret (p : Par) : Encoding.Statement (.tret p) := by
  intro h f hf
  obtain rfl := Option.some.inj hf
  change (p.ok true tyNone .noDest) = true at h
  refine ⟨Par.fields_fits p _ _ _ _ _ _ (by decide) (by decide) (by decide) (by omega) (by omega) (by omega), ?_⟩
  refine (decFields_class7 p _ _ _ _ _ _ (by decide)).trans ?_
  refine (show decClass7 (p.fields 0x1c1 1 0 (0) (0) (0)) = decTret (p.fields 0x1c1 1 0 (0) (0) (0)) by with_unfolding_all rfl).trans ?_
  simp_all [decTret, need, get, decPar_fields]

theorem Encoding.getc (p : Par) (idx : BitVec 12) : Encoding.Statement (.getc p idx) := by
  intro h f hf
  obtain rfl := Option.some.inj hf
  change (p.ok true tyNone .any && (regAssigned idx.toNat)) = true at h
  simp only [Bool.and_eq_true] at h
  have l_idx := idx.isLt
  have e1 : bf (idx.toNat) 0 12 = idx.toNat := by simp only [bf]; omega
  have e2 : bf (idx.toNat) 12 4 = 0 := by simp only [bf]; omega
  refine ⟨Par.fields_fits p _ _ _ _ _ _ (by decide) (by decide) (by decide) (by omega) (by omega) (by omega), ?_⟩
  refine (decFields_class7 p _ _ _ _ _ _ (by decide)).trans ?_
  refine (show decClass7 (p.fields 0x1c2 1 0 (0) (0) (idx.toNat)) = decGetc (p.fields 0x1c2 1 0 (0) (0) (idx.toNat)) by with_unfolding_all rfl).trans ?_
  clear l_idx
  simp_all [decGetc, need, get, decPar_fields, e1, e2]

theorem Encoding.setc (p : Par) (idx : BitVec 12) : Encoding.Statement (.setc p idx) := by
  intro h f hf
  obtain rfl := Option.some.inj hf
  change (p.ok true tyNone .any && (regWritable idx.toNat && setcPlain idx.toNat)) = true at h
  simp only [Bool.and_eq_true] at h
  have l_idx := idx.isLt
  have e1 : bf (idx.toNat) 0 12 = idx.toNat := by simp only [bf]; omega
  have e2 : bf (idx.toNat) 12 4 = 0 := by simp only [bf]; omega
  refine ⟨Par.fields_fits p _ _ _ _ _ _ (by decide) (by decide) (by decide) (by omega) (by omega) (by omega), ?_⟩
  have q : bf idx.toNat 0 12 = idx.toNat := by simp only [bf]; omega
  have w := h.2
  simp only [setcPlain, Bool.and_eq_true, Bool.not_eq_true', bne_iff_ne] at w
  refine (decFields_class7 p _ _ _ _ _ _ (by decide)).trans ?_
  have c : decClass7 (p.fields 0x1c3 1 0 (0) (0) (idx.toNat)) = decSetc (p.fields 0x1c3 1 0 (0) (0) (idx.toNat)) := by simp [decClass7, need, q, w]
  rw [c]
  clear l_idx
  simp_all [decSetc, need, get, decPar_fields, e1, e2]

theorem Encoding.setcFpflags (p : Par) : Encoding.Statement (.setcFpflags p) := by
  intro h f hf
  obtain rfl := Option.some.inj hf
  change (p.ok true tyNone .any) = true at h
  have e1 : (bf (0x3) 12 4 == 0) = true := rfl
  refine ⟨Par.fields_fits p _ _ _ _ _ _ (by decide) (by decide) (by decide) (by omega) (by omega) (by omega), ?_⟩
  refine (decFields_class7 p _ _ _ _ _ _ (by decide)).trans ?_
  have c : decClass7 (p.fields 0x1c3 1 0 (0) (0) (0x3)) = decSetcFpflags (p.fields 0x1c3 1 0 (0) (0) (0x3)) := by simp [decClass7, need, bf]
  rw [c]
  simp_all [decSetcFpflags, need, get, decPar_fields, e1]

theorem Encoding.setcWatch (p : Par) (idx : BitVec 12) : Encoding.Statement (.setcWatch p idx) := by
  intro h f hf
  obtain rfl := Option.some.inj hf
  change (p.ok true tyNone .any && (regIsWatch idx.toNat)) = true at h
  simp only [Bool.and_eq_true] at h
  have l_idx := idx.isLt
  have e1 : bf (idx.toNat) 0 12 = idx.toNat := by simp only [bf]; omega
  have e2 : bf (idx.toNat) 12 4 = 0 := by simp only [bf]; omega
  refine ⟨Par.fields_fits p _ _ _ _ _ _ (by decide) (by decide) (by decide) (by omega) (by omega) (by omega), ?_⟩
  have q : bf idx.toNat 0 12 = idx.toNat := by simp only [bf]; omega
  have w := h.2
  simp only [regIsWatch, Bool.and_eq_true, decide_eq_true_eq, bne_iff_ne] at w
  have w1 : (idx.toNat == 3) = false := by simp only [beq_eq_false_iff_ne]; omega
  have w2 : (idx.toNat == 32) = false := by simp only [beq_eq_false_iff_ne]; omega
  have w3 : (idx.toNat == 96) = false := by simp only [beq_eq_false_iff_ne]; omega
  refine (decFields_class7 p _ _ _ _ _ _ (by decide)).trans ?_
  have c : decClass7 (p.fields 0x1c3 1 0 (0) (0) (idx.toNat)) = decSetcWatch (p.fields 0x1c3 1 0 (0) (0) (idx.toNat)) := by simp [decClass7, need, q, w1, w2, w3, h]
  rw [c]
  clear l_idx
  simp_all [decSetcWatch, need, get, decPar_fields, e1, e2]

theorem Encoding.setcTimerCmp (p : Par) : Encoding.Statement (.setcTimerCmp p) := by
  intro h f hf
  obtain rfl := Option.some.inj hf
  change (p.ok true tyNone .any) = true at h
  have e1 : (bf (0x20) 12 4 == 0) = true := rfl
  refine ⟨Par.fields_fits p _ _ _ _ _ _ (by decide) (by decide) (by decide) (by omega) (by omega) (by omega), ?_⟩
  refine (decFields_class7 p _ _ _ _ _ _ (by decide)).trans ?_
  have c : decClass7 (p.fields 0x1c3 1 0 (0) (0) (0x20)) = decSetcTimerCmp (p.fields 0x1c3 1 0 (0) (0) (0x20)) := by simp [decClass7, need, bf]
  rw [c]
  simp_all [decSetcTimerCmp, need, get, decPar_fields, e1]

theorem Encoding.setcRasInject (p : Par) : Encoding.Statement (.setcRasInject p) := by
  intro h f hf
  obtain rfl := Option.some.inj hf
  change (p.ok true tyNone .any) = true at h
  have e1 : (bf (0x60) 12 4 == 0) = true := rfl
  refine ⟨Par.fields_fits p _ _ _ _ _ _ (by decide) (by decide) (by decide) (by omega) (by omega) (by omega), ?_⟩
  refine (decFields_class7 p _ _ _ _ _ _ (by decide)).trans ?_
  have c : decClass7 (p.fields 0x1c3 1 0 (0) (0) (0x60)) = decSetcRasInject (p.fields 0x1c3 1 0 (0) (0) (0x60)) := by simp [decClass7, need, bf]
  rw [c]
  simp_all [decSetcRasInject, need, get, decPar_fields, e1]

theorem Encoding.time (p : Par) : Encoding.Statement (.time p) := by
  intro h f hf
  obtain rfl := Option.some.inj hf
  change (p.ok true tyNone .any) = true at h
  refine ⟨Par.fields_fits p _ _ _ _ _ _ (by decide) (by decide) (by decide) (by omega) (by omega) (by omega), ?_⟩
  refine (decFields_class7 p _ _ _ _ _ _ (by decide)).trans ?_
  refine (show decClass7 (p.fields 0x1c4 1 0 (0) (0) (0)) = decTime (p.fields 0x1c4 1 0 (0) (0) (0)) by with_unfolding_all rfl).trans ?_
  simp_all [decTime, need, get, decPar_fields]

theorem Encoding.trace (p : Par) (tag : BitVec 16) : Encoding.Statement (.trace p tag) := by
  intro h f hf
  obtain rfl := Option.some.inj hf
  change (p.ok true tyNone .any) = true at h
  have l_tag := tag.isLt
  refine ⟨Par.fields_fits p _ _ _ _ _ _ (by decide) (by decide) (by decide) (by omega) (by omega) (by omega), ?_⟩
  refine (decFields_class7 p _ _ _ _ _ _ (by decide)).trans ?_
  refine (show decClass7 (p.fields 0x1c5 1 0 (0) (0) (tag.toNat)) = decTrace (p.fields 0x1c5 1 0 (0) (0) (tag.toNat)) by with_unfolding_all rfl).trans ?_
  clear l_tag
  simp_all [decTrace, need, get, decPar_fields]

theorem Encoding.trace2 (p : Par) (tag : BitVec 16) : Encoding.Statement (.trace2 p tag) := by
  intro h f hf
  obtain rfl := Option.some.inj hf
  change (p.ok false tyNone .any) = true at h
  have l_tag := tag.isLt
  refine ⟨Par.fields_fits p _ _ _ _ _ _ (by decide) (by decide) (by decide) (by omega) (by omega) (by omega), ?_⟩
  refine (decFields_class7 p _ _ _ _ _ _ (by decide)).trans ?_
  refine (show decClass7 (p.fields 0x1c5 2 0 (0) (0) (tag.toNat)) = decTrace2 (p.fields 0x1c5 2 0 (0) (0) (tag.toNat)) by with_unfolding_all rfl).trans ?_
  clear l_tag
  simp_all [decTrace2, need, get, decPar_fields]

theorem Encoding.perf (p : Par) (ctr : BitVec 8) : Encoding.Statement (.perf p ctr) := by
  intro h f hf
  obtain rfl := Option.some.inj hf
  change (p.ok true tyNone .any && (decide (ctr.toNat ≤ 14))) = true at h
  simp only [Bool.and_eq_true] at h
  have l_ctr := ctr.isLt
  have e1 : bf (ctr.toNat) 0 8 = ctr.toNat := by simp only [bf]; omega
  have e2 : bf (ctr.toNat) 8 8 = 0 := by simp only [bf]; omega
  refine ⟨Par.fields_fits p _ _ _ _ _ _ (by decide) (by decide) (by decide) (by omega) (by omega) (by omega), ?_⟩
  refine (decFields_class7 p _ _ _ _ _ _ (by decide)).trans ?_
  refine (show decClass7 (p.fields 0x1c6 1 0 (0) (0) (ctr.toNat)) = decPerf (p.fields 0x1c6 1 0 (0) (0) (ctr.toNat)) by with_unfolding_all rfl).trans ?_
  clear l_ctr
  simp_all [decPerf, need, get, decPar_fields, e1, e2]

theorem Encoding.ifrd (p : Par) : Encoding.Statement (.ifrd p) := by
  intro h f hf
  obtain rfl := Option.some.inj hf
  change (p.ok true tyNone .any) = true at h
  refine ⟨Par.fields_fits p _ _ _ _ _ _ (by decide) (by decide) (by decide) (by omega) (by omega) (by omega), ?_⟩
  refine (decFields_class7 p _ _ _ _ _ _ (by decide)).trans ?_
  refine (show decClass7 (p.fields 0x1c7 1 0 (0) (0) (0)) = decIfrd (p.fields 0x1c7 1 0 (0) (0) (0)) by with_unfolding_all rfl).trans ?_
  simp_all [decIfrd, need, get, decPar_fields]

theorem Encoding.sbind (p : Par) (len : BitVec 16) : Encoding.Statement (.sbind p len) := by
  intro h f hf
  obtain rfl := Option.some.inj hf
  change (p.ok false tyNone .any) = true at h
  have l_len := len.isLt
  refine ⟨Par.fields_fits p _ _ _ _ _ _ (by decide) (by decide) (by decide) (by omega) (by omega) (by omega), ?_⟩
  refine (decFields_class7 p _ _ _ _ _ _ (by decide)).trans ?_
  refine (show decClass7 (p.fields 0x1c8 2 0 (0) (0) (len.toNat)) = decSbind (p.fields 0x1c8 2 0 (0) (0) (len.toNat)) by with_unfolding_all rfl).trans ?_
  clear l_len
  simp_all [decSbind, need, get, decPar_fields]

theorem Encoding.xtset (p : Par) : Encoding.Statement (.xtset p) := by
  intro h f hf
  obtain rfl := Option.some.inj hf
  change (p.ok false tyNone .any) = true at h
  refine ⟨Par.fields_fits p _ _ _ _ _ _ (by decide) (by decide) (by decide) (by omega) (by omega) (by omega), ?_⟩
  refine (decFields_class7 p _ _ _ _ _ _ (by decide)).trans ?_
  refine (show decClass7 (p.fields 0x1c9 2 0 (0) (0) (0)) = decXtset (p.fields 0x1c9 2 0 (0) (0) (0)) by with_unfolding_all rfl).trans ?_
  simp_all [decXtset, need, get, decPar_fields]

theorem Encoding.tokenAccept (i : Nat) : Encoding.Statement (.tokenAccept i) :=
  fun _ _ h => nomatch h

theorem Encoding.quarantineReport (i : Nat) : Encoding.Statement (.quarantineReport i) :=
  fun _ _ h => nomatch h

theorem Encoding.sourcePortArrival (i : Nat) : Encoding.Statement (.sourcePortArrival i) :=
  fun _ _ h => nomatch h

theorem Encoding.tileTransferReceive (i : Nat) : Encoding.Statement (.tileTransferReceive i) :=
  fun _ _ h => nomatch h

theorem Encoding.frameGrant (core : Nat) : Encoding.Statement (.frameGrant core) :=
  fun _ _ h => nomatch h

theorem Encoding.tileAllocationGrant (core : Nat) (acc : Bool) : Encoding.Statement (.tileAllocationGrant core acc) :=
  fun _ _ h => nomatch h

theorem Encoding.weightSlotGrant (core : Nat) : Encoding.Statement (.weightSlotGrant core) :=
  fun _ _ h => nomatch h

theorem Encoding.tokenPromotion (core : Nat) : Encoding.Statement (.tokenPromotion core) :=
  fun _ _ h => nomatch h

theorem Encoding.memoryRequestPerform (i : Nat) : Encoding.Statement (.memoryRequestPerform i) :=
  fun _ _ h => nomatch h

theorem Encoding.memoryResponse (i : Nat) : Encoding.Statement (.memoryResponse i) :=
  fun _ _ h => nomatch h

theorem Encoding.remoteTimeout (i : Nat) : Encoding.Statement (.remoteTimeout i) :=
  fun _ _ h => nomatch h

theorem Encoding.barwRelease (i : Nat) : Encoding.Statement (.barwRelease i) :=
  fun _ _ h => nomatch h

theorem Encoding.acqGrant (i : Nat) : Encoding.Statement (.acqGrant i) :=
  fun _ _ h => nomatch h

theorem Encoding.pipeWaitGrant (i : Nat) : Encoding.Statement (.pipeWaitGrant i) :=
  fun _ _ h => nomatch h

theorem Encoding.wldLoadComplete (core : Nat) (slot : Nat) : Encoding.Statement (.wldLoadComplete core slot) :=
  fun _ _ h => nomatch h

theorem Encoding.engineArbitration (core : Nat) : Encoding.Statement (.engineArbitration core) :=
  fun _ _ h => nomatch h

theorem Encoding.mmaRowIssue (core : Nat) : Encoding.Statement (.mmaRowIssue core) :=
  fun _ _ h => nomatch h

theorem Encoding.mmaRowCommit (core : Nat) : Encoding.Statement (.mmaRowCommit core) :=
  fun _ _ h => nomatch h

theorem Encoding.panDeadline (core : Nat) : Encoding.Statement (.panDeadline core) :=
  fun _ _ h => nomatch h

theorem Encoding.vrunStart (core : Nat) : Encoding.Statement (.vrunStart core) :=
  fun _ _ h => nomatch h

theorem Encoding.vrunComplete (core : Nat) (recd : Nat) : Encoding.Statement (.vrunComplete core recd) :=
  fun _ _ h => nomatch h

theorem Encoding.engineCommandComplete (core : Nat) (recd : Nat) : Encoding.Statement (.engineCommandComplete core recd) :=
  fun _ _ h => nomatch h

theorem Encoding.copyComplete (core : Nat) (recd : Nat) : Encoding.Statement (.copyComplete core recd) :=
  fun _ _ h => nomatch h

theorem Encoding.cloadComplete (core : Nat) (recd : Nat) : Encoding.Statement (.cloadComplete core recd) :=
  fun _ _ h => nomatch h

theorem Encoding.drainComplete (i : Nat) : Encoding.Statement (.drainComplete i) :=
  fun _ _ h => nomatch h

theorem Encoding.qwaitComplete (i : Nat) : Encoding.Statement (.qwaitComplete i) :=
  fun _ _ h => nomatch h

theorem Encoding.regionSweep (home : Nat) : Encoding.Statement (.regionSweep home) :=
  fun _ _ h => nomatch h

theorem Encoding.phcloseReturn (i : Nat) : Encoding.Statement (.phcloseReturn i) :=
  fun _ _ h => nomatch h

theorem Encoding.cselSwitch (home : Nat) : Encoding.Statement (.cselSwitch home) :=
  fun _ _ h => nomatch h

theorem Encoding.cswtInstant (home : Nat) : Encoding.Statement (.cswtInstant home) :=
  fun _ _ h => nomatch h

theorem Encoding.cfreeComplete (home : Nat) : Encoding.Statement (.cfreeComplete home) :=
  fun _ _ h => nomatch h

theorem Encoding.contextCompletion (ctx : Nat) : Encoding.Statement (.contextCompletion ctx) :=
  fun _ _ h => nomatch h

theorem Encoding.handlerEntry (ctx : Nat) : Encoding.Statement (.handlerEntry ctx) :=
  fun _ _ h => nomatch h

theorem Encoding.orphan (core : Nat) (ctx : Nat) : Encoding.Statement (.orphan core ctx) :=
  fun _ _ h => nomatch h

theorem Encoding.timer (core : Nat) : Encoding.Statement (.timer core) :=
  fun _ _ h => nomatch h

theorem Encoding.freeze (ids : List Nat) : Encoding.Statement (.freeze ids) :=
  fun _ _ h => nomatch h

theorem Encoding.freezeMark (node : Nat) : Encoding.Statement (.freezeMark node) :=
  fun _ _ h => nomatch h

theorem Encoding.drainMarker (core : Nat) (node : Nat) : Encoding.Statement (.drainMarker core node) :=
  fun _ _ h => nomatch h

theorem Encoding.fence (core : Nat) (node : Nat) : Encoding.Statement (.fence core node) :=
  fun _ _ h => nomatch h

theorem Encoding.settleTimeout (ctx : Nat) : Encoding.Statement (.settleTimeout ctx) :=
  fun _ _ h => nomatch h

theorem Encoding.contextSave (ctx : Nat) : Encoding.Statement (.contextSave ctx) :=
  fun _ _ h => nomatch h

theorem Encoding.contextRestore (ctx : Nat) : Encoding.Statement (.contextRestore ctx) :=
  fun _ _ h => nomatch h

theorem Encoding.replayRequest (i : Nat) : Encoding.Statement (.replayRequest i) :=
  fun _ _ h => nomatch h

theorem Encoding.doorbell (vf : Nat) (queue : BitVec 6) (value : BitVec 32) : Encoding.Statement (.doorbell vf queue value) :=
  fun _ _ h => nomatch h

theorem Encoding.hostRegisterWrite (fn : Nat) (off : Nat) (value : Word) : Encoding.Statement (.hostRegisterWrite fn off value) :=
  fun _ _ h => nomatch h

theorem Encoding.packetRead : Encoding.Statement (.packetRead) :=
  fun _ _ h => nomatch h

theorem Encoding.launch (i : Nat) : Encoding.Statement (.launch i) :=
  fun _ _ h => nomatch h

theorem Encoding.gang (i : Nat) : Encoding.Statement (.gang i) :=
  fun _ _ h => nomatch h

theorem Encoding.configurationLoad (i : Nat) : Encoding.Statement (.configurationLoad i) :=
  fun _ _ h => nomatch h

theorem Encoding.barrier (i : Nat) : Encoding.Statement (.barrier i) :=
  fun _ _ h => nomatch h

theorem Encoding.preemptSave (i : Nat) : Encoding.Statement (.preemptSave i) :=
  fun _ _ h => nomatch h

theorem Encoding.preemptResume (i : Nat) : Encoding.Statement (.preemptResume i) :=
  fun _ _ h => nomatch h

theorem Encoding.preemptAbandon (i : Nat) : Encoding.Statement (.preemptAbandon i) :=
  fun _ _ h => nomatch h

theorem Encoding.dependenceMet (i : Nat) : Encoding.Statement (.dependenceMet i) :=
  fun _ _ h => nomatch h

theorem Encoding.admissionGrant (home : Nat) : Encoding.Statement (.admissionGrant home) :=
  fun _ _ h => nomatch h

theorem Encoding.extentBuild (i : Nat) : Encoding.Statement (.extentBuild i) :=
  fun _ _ h => nomatch h

theorem Encoding.argumentInjection (i : Nat) : Encoding.Statement (.argumentInjection i) :=
  fun _ _ h => nomatch h

theorem Encoding.halt (job : Nat) : Encoding.Statement (.halt job) :=
  fun _ _ h => nomatch h

theorem Encoding.stepNamed (job : Nat) (core : Nat) (frame : Nat) (node : Nat) : Encoding.Statement (.stepNamed job core frame node) :=
  fun _ _ h => nomatch h

theorem Encoding.stepNext (job : Nat) (core : Nat) : Encoding.Statement (.stepNext job core) :=
  fun _ _ h => nomatch h

theorem Encoding.stepEnd (job : Nat) : Encoding.Statement (.stepEnd job) :=
  fun _ _ h => nomatch h

theorem Encoding.arm (job : Nat) (t : Nat) : Encoding.Statement (.arm job t) :=
  fun _ _ h => nomatch h

theorem Encoding.cancel (job : Nat) : Encoding.Statement (.cancel job) :=
  fun _ _ h => nomatch h

theorem Encoding.sethen (job : Nat) (hen : BitVec 6) : Encoding.Statement (.sethen job hen) :=
  fun _ _ h => nomatch h

theorem Encoding.setbrk (job : Nat) (core : Nat) (n : Nat) (tok : Word) (tmask : Word) (val : Word) (vmask : Word) (ctl : Word) : Encoding.Statement (.setbrk job core n tok tmask val vmask ctl) :=
  fun _ _ h => nomatch h

theorem Encoding.read (job : Nat) (core : Nat) (what : Nat) : Encoding.Statement (.read job core what) :=
  fun _ _ h => nomatch h

theorem Encoding.cairnMessage (job : StopRelay) : Encoding.Statement (.cairnMessage job) :=
  fun _ _ h => nomatch h

theorem Encoding.causeReport (job : Nat) (pkg : Nat) (w0 : Word) (w1 : Word) : Encoding.Statement (.causeReport job pkg w0 w1) :=
  fun _ _ h => nomatch h

theorem Encoding.memberReportTimeout (job : Nat) (pkg : Nat) : Encoding.Statement (.memberReportTimeout job pkg) :=
  fun _ _ h => nomatch h

theorem Encoding.resumeInstant (job : Nat) : Encoding.Statement (.resumeInstant job) :=
  fun _ _ h => nomatch h

theorem Encoding.rightsMessage (tenant : Nat) (job : Nat) (rights : SignedRights) : Encoding.Statement (.rightsMessage tenant job rights) :=
  fun _ _ h => nomatch h

theorem Encoding.translationWalk (i : Nat) : Encoding.Statement (.translationWalk i) :=
  fun _ _ h => nomatch h

theorem Encoding.fqreplyRetry (vf : Nat) (seq : BitVec 32) : Encoding.Statement (.fqreplyRetry vf seq) :=
  fun _ _ h => nomatch h

theorem Encoding.fqreplyAbort (vf : Nat) (seq : BitVec 32) : Encoding.Statement (.fqreplyAbort vf seq) :=
  fun _ _ h => nomatch h

theorem Encoding.tlbInvalidate (tenant : Nat) (va : Nat) (len : Nat) : Encoding.Statement (.tlbInvalidate tenant va len) :=
  fun _ _ h => nomatch h

theorem Encoding.pageMigration (tenant : Nat) (va : Nat) (dst : Nat) : Encoding.Statement (.pageMigration tenant va dst) :=
  fun _ _ h => nomatch h

theorem Encoding.hostWindowAccess (vf : Nat) (off : Nat) (len : Nat) (write : Bool) (value : Word) : Encoding.Statement (.hostWindowAccess vf off len write value) :=
  fun _ _ h => nomatch h

theorem Encoding.watershedDivision (shares : List (Nat × Nat × Nat × Nat × Nat)) : Encoding.Statement (.watershedDivision shares) :=
  fun _ _ h => nomatch h

theorem Encoding.marginBackoff (die : Nat) : Encoding.Statement (.marginBackoff die) :=
  fun _ _ h => nomatch h

theorem Encoding.marginBarExpiry (die : Nat) : Encoding.Statement (.marginBarExpiry die) :=
  fun _ _ h => nomatch h

theorem Encoding.predictiveFailure (die : Nat) : Encoding.Statement (.predictiveFailure die) :=
  fun _ _ h => nomatch h

theorem Encoding.flitRetry (port : Nat) : Encoding.Statement (.flitRetry port) :=
  fun _ _ h => nomatch h

theorem Encoding.linkDown (port : Nat) : Encoding.Statement (.linkDown port) :=
  fun _ _ h => nomatch h

theorem Encoding.keyRenewal (port : Nat) : Encoding.Statement (.keyRenewal port) :=
  fun _ _ h => nomatch h

theorem Encoding.gtcSync (master : Nat) : Encoding.Statement (.gtcSync master) :=
  fun _ _ h => nomatch h

theorem Encoding.powerRemoval : Encoding.Statement (.powerRemoval) :=
  fun _ _ h => nomatch h

theorem Encoding.packageReset : Encoding.Statement (.packageReset) :=
  fun _ _ h => nomatch h

theorem Encoding.bootStateAdvance (failure : StageEnd) : Encoding.Statement (.bootStateAdvance failure) :=
  fun _ _ h => nomatch h

theorem Encoding.coreAssignment (bank : Bool) (n : Nat) (tenant : Nat) : Encoding.Statement (.coreAssignment bank n tenant) :=
  fun _ _ h => nomatch h

theorem Encoding.tenantCreate (tenant : Nat) (root : Nat) : Encoding.Statement (.tenantCreate tenant root) :=
  fun _ _ h => nomatch h

theorem Encoding.tenantDestroy (tenant : Nat) : Encoding.Statement (.tenantDestroy tenant) :=
  fun _ _ h => nomatch h

theorem Encoding.coreMarkFailed (core : Nat) : Encoding.Statement (.coreMarkFailed core) :=
  fun _ _ h => nomatch h

theorem Encoding.logicalTableWrite (logical : Nat) (physical : Option Nat) : Encoding.Statement (.logicalTableWrite logical physical) :=
  fun _ _ h => nomatch h

theorem Encoding.getVersion (peer : Nat) : Encoding.Statement (.getVersion peer) :=
  fun _ _ h => nomatch h

theorem Encoding.getCapabilities (peer : Nat) : Encoding.Statement (.getCapabilities peer) :=
  fun _ _ h => nomatch h

theorem Encoding.negotiateAlgorithms (peer : Nat) : Encoding.Statement (.negotiateAlgorithms peer) :=
  fun _ _ h => nomatch h

theorem Encoding.getDigests (peer : Nat) : Encoding.Statement (.getDigests peer) :=
  fun _ _ h => nomatch h

theorem Encoding.getCertificate (peer : Nat) : Encoding.Statement (.getCertificate peer) :=
  fun _ _ h => nomatch h

theorem Encoding.challenge (peer : Nat) (nonce : Nat) : Encoding.Statement (.challenge peer nonce) :=
  fun _ _ h => nomatch h

theorem Encoding.getMeasurements (peer : Nat) (index : Nat) : Encoding.Statement (.getMeasurements peer index) :=
  fun _ _ h => nomatch h

theorem Encoding.keyExchange (peer : Nat) : Encoding.Statement (.keyExchange peer) :=
  fun _ _ h => nomatch h

theorem Encoding.finish (peer : Nat) : Encoding.Statement (.finish peer) :=
  fun _ _ h => nomatch h

theorem Encoding.endSession (peer : Nat) : Encoding.Statement (.endSession peer) :=
  fun _ _ h => nomatch h

theorem Encoding.unsupportedRequest (peer : Nat) (code : Nat) : Encoding.Statement (.unsupportedRequest peer code) :=
  fun _ _ h => nomatch h

theorem Encoding.retentionWindowExpiry (i : Nat) : Encoding.Statement (.retentionWindowExpiry i) :=
  fun _ _ h => nomatch h

theorem Encoding.tdispStateChange (vf : Nat) (state : Nat) : Encoding.Statement (.tdispStateChange vf state) :=
  fun _ _ h => nomatch h

theorem Encoding.jobMembershipList (tenant : Nat) (job : Nat) (members : List Nat) (signed : Bool) : Encoding.Statement (.jobMembershipList tenant job members signed) :=
  fun _ _ h => nomatch h

theorem Encoding.connectionTableWrite (tenant : Nat) (qpi : Nat) (peer : Nat) : Encoding.Statement (.connectionTableWrite tenant qpi peer) :=
  fun _ _ h => nomatch h

theorem Encoding.transportError (core : Nat) (recd : Nat) : Encoding.Statement (.transportError core recd) :=
  fun _ _ h => nomatch h

end Laws

end Sys2Proof
end

