-- ==== Sys2Proof/Tests/Slice0.lean ====
section
/-! SUPPORT. Small tests of the model, and for every statement with hypotheses a state that meets them. -/

set_option Elab.async false

namespace Sys2Proof.Tests

open Sys2Proof.Machine Sys2Proof.Claims

/-! ## A small machine -/

/-- A scalar token. -/
def num (n : Word) : Tok := { val := n, kind := kScalar, res := residue255 n }

/-- A frame of context 1, in a loop, with two slots. -/
def frame0 : Frame := { num := 3, ctx := 1, exits := 2, inst := [5], loop := some 0, iter := 4, slots := [{}, {}] }

/-- Context 1 on core 0, with one level of 8 instances. -/
def ctx0 : Ctx := { id := 1, seats := [(0, 0)], levels := [(0, 8, 0)] }

/-- Slot 0 of the region of core 0: active, with block 0 placed on that core. -/
def slot0 : CSlot := { state := .active, cid := 9, placed := [(0, 0)] }

def region0 : Region := { home := 0, cores := [0], slots := [slot0, {}, {}, {}] }

def core0 : Core := { tenant := some 0, frm := { frames := [frame0], loops := [{ id := 0, ctx := 1, kb := 4 }] } }

/-- A firing on core 0 with operands L, R and C. -/
def firing (l r c : Tok) : State :=
  { cores := [core0], ctxs := [ctx0], regions := [region0],
    cur := { site := { core := 0, ctx := 1, frame := 3 }, l := l, r := r, c := c } }

def par (ty : Ty) : Par :=
  { slot := 0, ty := ty, d0 := .node 1 .l, d1 := .none, d2 := .none, hist := false, trcf := false }

/-- An answer, as a condition that can be decided. -/
def got {α : Type} [DecidableEq α] (e : Except Nat α) (x : α) : Bool :=
  match e with
  | .ok y => y == x
  | .error _ => false

theorem got_ok {α : Type} [DecidableEq α] {e : Except Nat α} {x : α} (h : got e x = true) : e = .ok x := by
  cases e with
  | ok y => simp only [got, beq_iff_eq] at h; rw [h]
  | error _ => cases h

theorem exists_ok {α : Type} {e : Except Nat α} (h : e.toBool = true) : ∃ x, e = .ok x := by
  cases e with
  | ok y => exact ⟨y, rfl⟩
  | error _ => cases h

theorem exists_ok_and {α : Type} {e : Except Nat α} {P : α → Prop} [DecidablePred P]
    (h : (match e with
      | .ok x => decide (P x)
      | .error _ => false) = true) : ∃ x, e = .ok x ∧ P x := by
  cases e with
  | ok y => exact ⟨y, rfl, of_decide_eq_true h⟩
  | error _ => cases h

theorem exists_error {α : Type} {e : Except Nat α} (h : e.toBool = false) : ∃ st, e = .error st := by
  cases e with
  | ok _ => cases h
  | error st => exact ⟨st, rfl⟩

/-! ## Witnesses: graph and scalar instructions -/

theorem witness_OperandsAndConstantsAreEmitted :
    let s := firing (num 7) (num 5) (num 2)
    clean [s.cur.l] ∧ clean [s.cur.l, s.cur.r] ∧ clean [s.cur.l, s.cur.r, s.cur.c] ∧ Port.l ≠ .c ∧
    s.frame? s.cur.site.core s.cur.site.frame = some frame0 ∧ frame0.loop = some 0 ∧
    s.cslot? s.cur.site.core s.cur.site.cslot = some slot0 ∧ s.ctx? s.cur.site.ctx = some ctx0 ∧
    ctx0.levels.length = frame0.inst.length ∧ isInteger Ty.z8 ∧ Ty.z8 ≠ Ty.s64 := by
  simp only [clean, isInteger]; decide +kernel

theorem witness_SteerAndDispatchChooseADestination :
    let s := firing (num 7) (num 5) (num 2)
    let t := firing (num 7) { val := 0, kind := kTile } (num 2)
    let u := firing (num 7) { kind := kPoison } (num 2)
    isInteger Ty.s8 ∧ clean [s.cur.l, s.cur.r] ∧ reads [s.cur.r] ∧ clean [s.cur.l] ∧
    clean [t.cur.l, t.cur.r] ∧ ¬ reads [t.cur.r] ∧ badInput [u.cur.l, u.cur.r] = some u.cur.r ∧ (par .s8).d2 = .none := by
  simp only [isInteger, clean, reads]; decide +kernel

theorem witness_FramesLoopsAndContinuations :
    let s := firing (num 7) { kind := kCont } (num 2)
    let t := firing (num 7) (num 0) (num 2)
    clean [s.cur.l] ∧ clean [s.cur.l, s.cur.r] ∧ s.cur.r.kind = kCont ∧ clean [t.cur.l, t.cur.r] ∧ t.cur.r.kind ≠ kCont ∧
    s.holds s.cur.site.core s.cur.site.cslot (0 : BitVec 6).toNat = true ∧
    s.holds s.cur.site.core s.cur.site.cslot (63 : BitVec 6).toNat = false ∧
    reads [t.cur.r] ∧ t.holds (t.cur.r.val.toNat % 256) t.cur.site.cslot (0 : BitVec 6).toNat = true ∧
    t.holds ((immediate .none 0).toNat % 256) t.cur.site.cslot (0 : BitVec 6).toNat = true ∧
    s.curFrame.loop = some 0 := by
  simp only [clean, reads]; decide +kernel

theorem witness_FramesLoopsAndContinuations_least (k : Nat) :
    let s := firing (num 7) (num 5) (num 2)
    s.leastCore s.cur.site (0 : BitVec 6).toNat k = some 0 ∧ s.holds 0 s.cur.site.cslot (0 : BitVec 6).toNat = true := by
  exact ⟨by with_unfolding_all rfl, by decide +kernel⟩

theorem witness_FramesLoopsAndContinuations_outside :
    let s := { firing (num 7) (num 5) (num 2) with cores := [{ core0 with frm := { frames := [{ frame0 with loop := none }] } }] }
    clean [s.cur.l] ∧ s.curFrame.loop = none := by
  simp only [clean]; decide +kernel

theorem witness_ExitsAndFrameVariables :
    let s := firing (num 7) (num 5) (num 2)
    let t := { s with cores := [{ core0 with frm := { frames := [{ frame0 with exits := 1 }] } }] }
    let bad := { s with cores := [{ core0 with frm := { frames := [{ frame0 with slots := [{ ue := true }] }] } }] }
    let after (s : State) : State :=
      s.finish (par .none) latGraph (spread (par .none) (carryTok s.cur.site s.cur.l)) [s.cur.l]
    clean [s.cur.l] ∧ (s.curFrame.slot (0 : BitVec 8).toNat).ue = false ∧ (bad.curFrame.slot (0 : BitVec 8).toNat).ue = true ∧
    ((after s).frame? 0 3).map (fun f => f.exits) = some 2 ∧ ((after t).frame? 0 3).map (fun f => f.exits) = some 1 ∧
    (after { s with cores := [] }).frame? 0 3 = none := by
  simp only [clean]; decide +kernel

theorem witness_StreamsAndPhases :
    let s := firing (num 7) (num 63) (num 2)
    clean [s.cur.l] ∧ s.region? s.cur.site.core = some region0 ∧ clean [s.cur.l, s.cur.r] ∧ reads [s.cur.r] ∧
    s.cur.r.val.toNat / 64 % 2 ^ 38 = 0 ∧ (immediate .none 63).toNat / 64 % 2 ^ 38 = 0 := by
  simp only [clean, reads]; decide +kernel

/-- Integer firings of one, two and three operands. -/
theorem witness_scalars :
    let s := firing (num 7) (num 5) (num 2)
    isInteger Ty.s32 ∧ scalars s [s.cur.l] ∧ scalars s [s.cur.l, s.cur.r] ∧ scalars s [s.cur.l, s.cur.r, s.cur.c] := by
  simp only [isInteger, scalars, readable]; decide +kernel

theorem witness_IntegerSumsAndProducts :
    let s := firing (num 7) (num 5) (num 2)
    isInteger Ty.s32 ∧ scalars s [s.cur.l] ∧ scalars s [s.cur.l, s.cur.r] ∧ scalars s [s.cur.l, s.cur.r, s.cur.c] := witness_scalars

theorem witness_IntegerDivision :
    let s := firing (num 0xFFFFFFFF80000000) (num 0xFFFFFFFFFFFFFFFF) (num 0)
    let b := s.cur.r.val
    isInteger (par .s32).ty ∧ scalars s [s.cur.l, s.cur.r] ∧ b = s.cur.r.val ∧ scalars s [s.cur.l] ∧ b = immediate .s32 0xFFFFFFFF ∧
    isSigned (par .s32).ty = true ∧ number .s32 s.cur.l.val = -2 ^ (width .s32 - 1) ∧ number .s32 b = -1 := by
  simp only [isInteger, scalars, readable]; decide +kernel

theorem witness_IntegerLogicAndShifts :
    let s := firing (num 7) (num 5) (num 2)
    isInteger Ty.s32 ∧ scalars s [s.cur.l] ∧ scalars s [s.cur.l, s.cur.r] ∧ scalars s [s.cur.l, s.cur.r, s.cur.c] := witness_scalars

theorem witness_IntegerOrderSaturationAndFields :
    let s := firing (num 7) (num 4095) (num 4096)
    isInteger Ty.s64 ∧ scalars s [s.cur.l] ∧ clean [s.cur.r, s.cur.c] ∧ scalars s [s.cur.l, s.cur.r] ∧
    scalars s [s.cur.l, s.cur.r, s.cur.c] ∧ s.cur.r.val.toNat < 4096 ∧ ¬ s.cur.c.val.toNat < 4096 ∧
    s.cur.r.val = immediate .s64 4095 := by
  simp only [isInteger, scalars, readable, clean]; decide +kernel

theorem witness_FloatInstructionsComplete :
    let s := firing (num 0x3F800000) (num 0x40000000) (num 0)
    scalars s [s.cur.l] ∧ scalars s [s.cur.l, s.cur.r] ∧ scalars s [s.cur.l, s.cur.r, s.cur.c] ∧ isInteger Ty.s16 := by
  simp only [isInteger, scalars, readable]; decide +kernel

theorem witness_FloatSignsNotANumberAndFourBitValues :
    let s := firing (num 0x7F800001) (num 0x40000000) (num 0)
    let t := firing (num 0xF) (num 0) (num 0)
    scalars s [s.cur.l] ∧ (par .f32).ty = .f32 ∧ Ty.f32 ∈ [Ty.f32, .bf16, .f16] ∧ scalars s [s.cur.l, s.cur.r] ∧
    nanBits .f32 (bits .f32 s.cur.l.val) ∧ quietBit .f32 (bits .f32 s.cur.l.val) = 0 ∧
    scalars t [t.cur.l] ∧ bits .e2m1 t.cur.l.val = (15 : Fin 16) := by
  simp only [scalars, readable, nanBits]; decide +kernel

theorem witness_PoisonEosAndUnitFaults :
    let s := firing { kind := kPoison } (num 5) (num 2)
    let t := { firing (num 7) (num 5) (num 2) with scalarFaults := [0] }
    badInput [s.cur.l] = some s.cur.l ∧ badInput [s.cur.l, s.cur.r] = some s.cur.l ∧
    badInput [s.cur.l, s.cur.r, s.cur.c] = some s.cur.l ∧ (∀ x ∈ [t.cur.l, t.cur.r], readable x) ∧
    t.cur.site.core ∈ t.scalarFaults := by
  simp only [readable]; decide +kernel

/-! ## Witnesses: tiles and engines -/

/-- A tile of core 0's context 1, and the handle token of a tile of index `i` in generation 0. -/
def tile1 : Tile := { idx := 1, ctx := 1, shape := { ty := .f32, rows := 4, cols := 4 }, refs := 1 }

/-- An accumulator. -/
def tile2 : Tile := { idx := 2, ctx := 1, shape := { ty := .f32, rows := 512, cols := 256, acc := true }, refs := 1 }

/-- An FP8 activation tile, a weight tile of a row's length, and a tile of one row. -/
def tile3 : Tile := { idx := 3, ctx := 1, shape := { ty := .e4m3, rows := 400, cols := 128 }, refs := 1 }

def tile4 : Tile := { idx := 4, ctx := 1, shape := { ty := .e4m3, rows := 256, cols := 128 }, refs := 1 }

def tile5 : Tile := { idx := 5, ctx := 1, shape := { ty := .e4m3, rows := 1, cols := 512 }, refs := 1 }

/-- A view of tile 1. -/
def tile6 : Tile := { idx := 6, ctx := 1, shape := { ty := .f32, rows := 2, cols := 2 }, view := some { base := 1, row0 := 2, col0 := 2 }, refs := 1 }

def tiles : TileUnit := { tiles := [tile1, tile2, tile3, tile4, tile5, tile6] }

def handle (t : Tile) : Tok := let h := handleWord t 0; { val := h, kind := kTile, res := residue255 h }

/-- A weight slot ready under FP8, bound to the logical slots 0 to 3 of context 1. -/
def weight (ws : Nat) : WSlot :=
  { state := .ready, key := { ty := .e4m3, src := ws }, bound := [(1, ws)] }

/-- A vector configuration: one pipeline from tile A to an FP32 tile. -/
def vconfig (hdr : Nat) (src : Nat) : List Byte := leBytes 16 hdr ++ leBytes 24 0 ++ leBytes 8 src ++ leBytes 128 0

/-- Configuration 0 reads A, 1 A and B, 2 gives no tile. -/
def vcfgs : List (Nat × List Byte) :=
  [(0, vconfig (2 ^ 52 + 0x8 * 2 ^ 32) 0), (1, vconfig (2 ^ 60 + 2 ^ 52 + 0x8 * 2 ^ 32) 4), (2, vconfig (2 * 2 ^ 60 + 2 ^ 52 + 0xF * 2 ^ 32) 0x30)]

/-- A firing on a core with tiles, weight slots and vector configurations. -/
def tileFiring (l r c : Tok) : State :=
  { firing l r c with
    cores := [{ core0 with tile := tiles, eng := { pw := [weight 0, weight 1, weight 2, weight 3] } }],
    regions := [{ region0 with slots := [{ slot0 with vcfg := vcfgs }, {}, {}, {}] }] }

theorem witness_TilesAndTheirHandles_talloc :
    let s := firing (num 7) (num 5) (num 2)
    clean [s.cur.l] ∧ impossible { ty := .f32, rows := (4 : BitVec 13).toNat, cols := (4 : BitVec 13).toNat } = false ∧
    impossible { ty := .f32, rows := (4096 : BitVec 13).toNat, cols := (4096 : BitVec 13).toNat } = true := by
  simp only [clean]; decide +kernel

theorem witness_TilesAndTheirHandles_grant :
    let r : TileReq := { site := { ctx := 1 }, shape := { ty := .f32, rows := 4, cols := 4 }, zero := true }
    let s := { firing (num 7) (num 5) (num 2) with cores := [{ core0 with tile := { tiles with fifo := [r] } }] }
    s.nextTileAsk 0 false = some r ∧ r.why = 0 ∧ r.zero = true ∧ (s.core 0).tile.fits r.shape r.view.isSome = true ∧
    (s.core 0).tile.freeIdx = some 0 := by
  decide +kernel

theorem witness_TilesAndTheirHandles :
    let s := tileFiring (handle tile1) (num (2 ^ 13 * 4 + 4)) (num 2)
    let t := tileFiring (handle tile6) (num 0) (num 2)
    let u := tileFiring (num (5 * 2 ^ 60 + 1 * 2 ^ 32)) (num 0) (num 0)
    s.cur.l.kind = kTile ∧ s.tileOf? s.cur.site.core s.cur.l.val = some tile1 ∧ tile1.view = none ∧
    t.cur.l.kind = kTile ∧ t.tileOf? t.cur.site.core t.cur.l.val = some tile6 ∧ tile6.view ≠ none ∧
    clean [s.cur.r] ∧ reads [s.cur.r] ∧ windowOf tile1 s.cur.r.val = .ok (0, 0, 4, 4) ∧
    windowOf tile1 (immediate .none (2 ^ 13 * 4 + 4)) = .ok (0, 0, 4, 4) ∧
    reads [u.cur.l] ∧ u.trefIndex u.cur.site u.cur.l.val = .ok 1 := by
  simp only [clean, reads]; and_intros <;> first | decide +kernel | (apply got_ok; decide +kernel) | with_unfolding_all rfl

theorem witness_TileElements :
    let s := tileFiring (handle tile1) (num (3 * 2 ^ 16 + 3)) (num 2)
    s.cur.l.kind = kTile ∧ s.tileOf? s.cur.site.core s.cur.l.val = some tile1 ∧
    s.readRows s.cur.site.core tile1 (3 - tile1.row0) 1 = (false, s) ∧ clean [s.cur.r] ∧ reads [s.cur.r] ∧
    indexWord tile1 .elem .f32 s.cur.r.val = .ok (3, 3) ∧ indexWord tile1 .elem .f32 (immediate .f32 (3 * 2 ^ 16 + 3)) = .ok (3, 3) ∧
    clean [s.cur.c] ∧ reads [s.cur.c] := by
  simp only [clean, reads]; and_intros <;> first | decide +kernel | (apply got_ok; decide +kernel) | with_unfolding_all rfl

theorem witness_TileCommandsStart :
    let s := tileFiring (handle tile1) (num 1) (num 2)
    let t := tileFiring (handle tile1) (handle tile1) (num 2)
    s.cur.l.kind = kTile ∧ s.tileOf? s.cur.site.core s.cur.l.val = some tile1 ∧ tile1.shape.bg = .g0 ∧ (par .f32).ty = tile1.shape.ty ∧
    clean [s.cur.r] ∧ reads [s.cur.r] ∧ impossible { tile1.shape with acc := false } = false ∧ tile1.shape.ty = .f32 ∧
    tile1.shape.rows ≤ 512 ∧ tile1.shape.cols ≤ 256 ∧ impossible { tile1.shape with acc := true } = false ∧
    t.cur.l.kind = kTile ∧ t.tileOf? t.cur.site.core t.cur.l.val = some tile1 ∧ t.cur.r.kind = kTile ∧
    t.tileOf? t.cur.site.core t.cur.r.val = some tile1 ∧ sameForm tile1.shape tile1.shape = true ∧
    impossible { ty := tile1.shape.ty, bg := .g0, rows := tile1.shape.cols, cols := tile1.shape.rows } = false := by
  simp only [clean, reads]; decide +kernel

theorem witness_VectorRunsStartAndRun_start :
    let s := tileFiring (handle tile1) (handle tile1) (handle tile1)
    let v (i : Nat) : VCfg := s.vcfg s.cur.site i
    let out (v : VCfg) (b : Nat) : Shape :=
      { ty := v.oty, bg := v.obg, rows := 4, cols := v.sinkLen (pipeLengths tile1.shape.cols b v.pipes 0) }
    live s s.cur.l tile1 ∧ live s s.cur.r tile1 ∧ live s s.cur.c tile1 ∧
    (v 0).shapeOk tile1.shape none false 0 = some 4 ∧ (v 1).shapeOk tile1.shape (some tile1.shape) false 0 = some 4 ∧
    sameForm tile1.shape (out (v 0) 4) = true ∧ sameForm tile1.shape (out (v 1) 4) = true ∧
    (v 0).shapeOk tile1.shape none true 0 = some 4 ∧ (v 1).shapeOk tile1.shape (some tile1.shape) true 0 = some 4 ∧
    impossible (out (v 0) 4) = false ∧ impossible (out (v 1) 4) = false ∧ (v 2).oty = .none ∧
    s.openStream s.cur.site.core s.cur.site.frame s.cur.site.node = none := by
  simp only [live]; decide +kernel

/-- A core with one engine command. -/
def withEng (s : State) (e : Eng) : State := s.modEng 0 fun g => { g with recs := [e] }

theorem witness_VectorRunsStartAndRun_open :
    let s := tileFiring (handle tile1) (handle tile1) (num 0)
    let e : Eng := { site := s.cur.site, kind := .vruns 0 false, stream := { opened := true } }
    let t := withEng s e
    live t t.cur.l tile1 ∧ live t t.cur.r tile1 ∧ t.openStream t.cur.site.core t.cur.site.frame t.cur.site.node = some e := by
  simp only [live]; decide +kernel

theorem witness_VectorRunsStartAndRun_run :
    let s := tileFiring (handle tile1) (num 0) (num 0)
    let e : Eng := { site := s.cur.site, kind := .vrun 0 none (some (handle tile1)), l := handle tile1, step := .waiting }
    let f : Eng := { e with step := .finishing }
    let g : Eng := { e with step := .running }
    let t := withEng s e
    let u := withEng s f
    let taken := (t.core 0).eng.taken
    e.kind = .vrun 0 none (some (handle tile1)) ∧
    firstFree (taken.foldl (fun m t => m ||| t.2.1) 0) (taken.foldl (fun m t => m ||| t.2.2) 0) (t.waitingRuns 0) = some e ∧
    u.eng? 0 0 = some f ∧ f.step = .finishing ∧ u.engRuns f = true ∧
    (withEng s g).eng? 0 0 = some g ∧ g.step = .running ∧ (withEng s g).engRuns g = true ∧
    t.eng? 0 0 = some e ∧ e.step ≠ .finishing ∧ e.step ≠ .running := by
  decide +kernel

theorem witness_WeightSlots_start :
    let s := tileFiring (handle tile4) (num 0) (num 0)
    clean [s.cur.l] ∧ s.cur.site.core < s.cores.length ∧
    s.wldSource s.cur.site s.cur.l .none .g0 .dense 0 0 = .ok ({ fromTile := true, ty := .e4m3, src := 4 }, none) := by
  simp only [clean]; and_intros <;> first | decide +kernel | (apply got_ok; decide +kernel) | with_unfolding_all rfl

theorem witness_WeightSlots_grant :
    let s := tileFiring (num 0) (num 0) (num 0)
    let e : Eng := { site := s.cur.site, kind := .wld 0 {} none }
    let t := { s with cores := [{ core0 with eng := { recs := [e], wFifo := [.cmd 0] } }] }
    (t.core 0).eng.wFifo = [.cmd 0] ∧ t.eng? 0 0 = some e ∧ e.kind = .wld 0 {} none ∧ (t.attachWld 0 e 0 {} true).isSome = true := by
  decide +kernel

theorem witness_WeightSlots_load :
    let s := tileFiring (num 0) (num 0) (num 0)
    let key : WKey := { fromTile := true, ty := .e4m3, src := 4 }
    let e : Eng := { site := s.cur.site, kind := .wld 0 key none, l := handle tile4, step := .running, slots := [(0, key)] }
    let w : WSlot := { state := .loading, key := key, bound := [(1, 0)] }
    let of' (e : Eng) : State := { s with cores := [{ core0 with tile := tiles, eng := { recs := [e], pw := [w, {}, {}, {}] } }] }
    let waits := { e with step := .waiting }
    let failed := { e with fail := stDataUe }
    let reads := { e with moves := [{ src := [(.tile 0 4 0, 64, 0)] }] }
    let bad := { e with l := num 4 }
    let t := of' e
    (t.core 0).eng.pw[0]? = some w ∧ w.state = .loading ∧ t.eng? 0 w.loader = some e ∧ t.engRuns e = true ∧ e.step ≠ .waiting ∧
    (of' waits).eng? 0 w.loader = some waits ∧ (of' waits).engRuns waits = true ∧ waits.step = .waiting ∧
    (of' failed).eng? 0 w.loader = some failed ∧ failed.fail ≠ 0 ∧ (of' reads).eng? 0 w.loader = some reads ∧ reads.allRead = false ∧
    e.fail = 0 ∧ e.allRead = true ∧ (of' bad).eng? 0 w.loader = some bad ∧ bad.allRead = true ∧
    (∃ st, (of' bad).decodeWeights 0 bad key (bad.moves.headD {}).got = .error st) ∧
    (∃ x, t.decodeWeights 0 e key (e.moves.headD {}).got = .ok x) ∧ 0 < t.cores.length := by
  dsimp only
  and_intros <;> first | decide +kernel | (apply exists_ok; decide +kernel) | (apply exists_error; decide +kernel)

theorem witness_MatrixCommandsStart :
    let s := tileFiring (handle tile3) (handle tile2) (num 0)
    let t := tileFiring (handle tile2) (num 0x3F800000) (num 0x3F800000)
    s.cur.site.core < s.cores.length ∧ live s s.cur.l tile3 ∧ live s s.cur.r tile2 ∧ tile3.shape.acc = false ∧
    tile2.shape.acc = true ∧ (s.core s.cur.site.core).eng.slotOf s.cur.site.ctx (0 : BitVec 2).toNat = some (0, weight 0) ∧
    (weight 0).state ≠ .empty ∧ modeOk tile3.shape.ty tile3.shape.bg (weight 0).key.ty (weight 0).key.bg = true ∧
    (112 : BitVec 9).toNat + tile3.shape.rows ≤ tile2.shape.rows ∧ (0 : BitVec 8).toNat + slotN (weight 0).key.ty ≤ tile2.shape.cols ∧
    live t t.cur.l tile2 ∧ clean [t.cur.r, t.cur.c] ∧ reads [t.cur.r, t.cur.c] := by
  simp only [clean, reads, live]; decide +kernel

theorem witness_MatrixCommandsStart_stream :
    let s := tileFiring (handle tile5) (num 0x3F800000) (num 0)
    let x : Eng := { site := s.cur.site, kind := .mmas .rne false .bf16, stream := { opened := true } }
    clean [s.cur.l, s.cur.r] ∧ s.openStream s.cur.site.core s.cur.site.frame s.cur.site.node = none ∧
    (s.mmasRow 0 .f32 s.cur.l s.cur.r).toBool = true ∧ (s.mmasRow 0 .f32 s.cur.l (num (immediate .f32 0x3F800000))).toBool = true ∧
    (withEng s x).openStream 0 3 0 = some x := by
  simp only [clean]; decide +kernel

/-- R188: what ENGINE_ARBITRATION finds on core 0. -/
def arbitrated (s : State) : State := ((s.regainSlots 0).panRefresh 0).promote 0

theorem witness_EngineArbitrationAndPan :
    let s := tileFiring (num 0) (num 0) (num 0)
    let e : Eng := { site := s.cur.site, kind := .aclr, l := handle tile2, total := 512, step := .queued }
    let of' (e : Eng) (m : List Nat) : State := { s with cores := [{ core0 with tile := tiles, eng := { recs := [e], matrix := m } }] }
    let u := arbitrated (of' { e with step := .running } [0])
    let v := arbitrated (of' e [])
    let w := arbitrated (of' { e with step := .waiting } [])
    (∃ i ∈ (u.core 0).eng.matrix, (u.eng? 0 i).any fun e => decide (e.row < e.total)) ∧
    (v.core 0).eng.matrix = [] ∧ (v.core 0).eng.recs = [e] ∧ (v.core 0).eng.pan = [] ∧ v.engRuns e = true ∧ e.pan = none ∧
    (w.core 0).eng.matrix = [] ∧ (w.core 0).eng.recs = [{ e with step := .waiting }] ∧ (w.core 0).eng.pan = [] := by
  decide +kernel

theorem witness_EngineArbitrationAndPan_group :
    let s := tileFiring (num 0) (num 0) (num 0)
    let e : Eng := { site := s.cur.site, kind := .mma 0 0 0 false (some 1000), l := handle tile3, r := handle tile2, total := 400,
                     step := .queued, pan := some 7, slots := [(0, { ty := .e4m3, src := 0 })] }
    let p : PanGroup := { id := 7, members := [0], rows := 400, first := 50, hold := 1000, closed := true, arb := 3 }
    let q : PanGroup := { p with id := 8, closed := false, members := [] }
    let of' (base gtc : Nat) (w : WState) (m : List Nat) (ps : List PanGroup) : State :=
      { s with gtc := gtc, ctxs := [{ ctx0 with regs := { base := base } }],
               cores := [{ core0 with tile := tiles, eng := { recs := [e], matrix := m, pan := ps, pw := [{ weight 0 with state := w }] } }] }
    let able (u : State) : Bool := (u.eng? 0 0).any fun e => (u.core 0).eng.slotsReady e.slots && u.engRuns e
    let u := arbitrated (of' 0 0 .ready [] [p])
    let o := { p with closed := false }
    let b := of' 2 1050 .ready [0] [o, q]
    (u.core 0).eng.matrix = [] ∧ (u.core 0).eng.pan = [p] ∧ (u.core 0).eng.recs = [e] ∧ e.pan ≠ none ∧ able u = true ∧ p.closed = true ∧
    ((b.core 0).eng.pan.map fun p => p.id).Nodup ∧ o ∈ (b.core 0).eng.pan ∧ b.matrixBusy 0 = true ∧ o.closed = false ∧
    o.first + o.hold ≤ b.gtc ∧ (of' 0 0 .ready [0] [o]).classOfGroup 0 o = 0 ∧ 0 < b.cores.length ∧
    (of' 2 1049 .ready [0] [o]).gtc < o.first + o.hold ∧ (of' 2 1049 .ready [0] [o]).classOfGroup 0 o ≠ 0 ∧
    ((of' 2 1050 .ready [] [o]).core 0).eng.pan = [o] ∧ able (of' 2 1050 .ready [] [o]) = true ∧
    able (of' 2 1050 .loading [] [o]) = false := by
  decide +kernel

theorem witness_MatrixRowsAndEngineCommands_rows :
    let s := tileFiring (num 0) (num 0) (num 0)
    let of' (e : Eng) : State := { s with cores := [{ core0 with tile := tiles, eng := { recs := [e], matrix := [0] } }] }
    let issues' (e : Eng) : Prop := let n := (of' e).countRow 0
      ((n.core 0).eng.matrix.filterMap fun i => n.eng? 0 i).find? (fun x => decide (x.row < x.total) && n.engRuns x) = some e
    let mma : Eng := { site := s.cur.site, kind := .mma 0 0 0 false none, l := handle tile3, r := handle tile2, total := 400, step := .running }
    let holds : Eng := { mma with slots := [(0, { ty := .e4m3 })] }
    let with' (ws : WSlot) (n : Nat) : State := (of' holds).modEng 0 fun g => { g with pw := [ws], wbuf := List.replicate n 0 }
    let held (s : State) : List WSlot := (enumL holds.slots).map fun x => (s.core 0).eng.held holds.slots x.1
    let failed : WSlot := { weight 0 with state := .failed }
    let first (t : State) : Option Eng := let s := t.countRow 0; ((s.core 0).eng.matrix.filterMap fun i => s.eng? 0 i).find? fun x => decide (x.row < x.total) && s.engRuns x
    let aclr : Eng := { mma with kind := .aclr, l := handle tile2 }
    let adrain : Eng := { mma with kind := .adrain 0x3F800000 .rne false false .f32 .none, l := handle tile2, out := some 1 }
    issues' mma ∧ ((of' mma).core 0).eng.wbuf.length < 32 ∧ first (with' (weight 0) 31) = some holds ∧
    held (with' (weight 0) 31) = [weight 0] ∧ (weight 0).ue = false ∧ (weight 0).state ≠ .failed ∧
    ((with' (weight 0) 31).core 0).eng.wbuf.length < 32 ∧ first (with' failed 0) = some holds ∧ held (with' failed 0) = [failed] ∧
    failed.ue = false ∧ failed.state = .failed ∧ first (with' (weight 0) 32) = some holds ∧
    32 ≤ ((with' (weight 0) 32).core 0).eng.wbuf.length ∧ issues' aclr ∧ (of' aclr).tileOf? 0 aclr.l.val = some tile2 ∧
    issues' adrain ∧ adrain.out = some 1 ∧ (of' adrain).tileOf? 0 adrain.l.val = some tile2 ∧
    ((of' adrain).readRow 0 ((of' adrain).baseTile 0 tile2) (tile2.row0 + adrain.row)).1 = false ∧
    ((of' adrain).readRow 0 { (of' adrain).baseTile 0 tile2 with ue := [0] } 0).1 = true ∧ (of' mma).rowThrottled 0 = false ∧
    { of' mma with plat := { dies := [{ mhz := 1100 }] } }.rowThrottled 0 = true := by
  decide +kernel

theorem witness_MatrixRowsAndEngineCommands_commit :
    let s := tileFiring (num 0) (num 0) (num 0)
    let e : Eng := { site := s.cur.site, kind := .mma 0 0 0 false none, inflight := [(0, 0)], total := 400, step := .running }
    let t := { s with cores := [{ core0 with eng := { recs := [e], wbuf := [0] } }] }
    (t.core 0).eng.wbuf = 0 :: [] ∧ (t.modEng 0 fun g => { g with wbuf := [] }).eng? 0 0 = some e ∧
    (s.core 0).eng.wbuf = [] := by
  decide +kernel

theorem witness_MatrixRowsAndEngineCommands_complete :
    let s := tileFiring (num 0) (num 0) (num 0)
    let e (k : EngKind) : Eng := { site := s.cur.site, kind := k, l := handle tile2, out := some 1, step := .finishing }
    (withEng s (e (.tfill 0))).eng? 0 0 = some (e (.tfill 0)) ∧ (withEng s (e (.tfill 0))).engRuns (e (.tfill 0)) = true ∧
    (e (.tcopy true)).out.isSome = true ∧ (e .ttran).out.isSome = true ∧ (e (.wld 0 {} none)).step = .finishing ∧
    (e (.wld 0 {} none)).fail = 0 ∧ (e (.mma 0 0 0 false none)).fail = 0 ∧ (e (.adrain 0 .rne false false .f32 .none)).out = some 1 ∧
    (withEng s (e .aclr)).tileOf? 0 (e .aclr).l.val = some tile2 := by
  decide +kernel

theorem witness_TileElementsAreSeparate :
    let t : Tile := { tile1 with bytes := [(0, 1), (7, 2)] }
    (t.bytes.map Prod.fst).Pairwise (· < ·) ∧ t.shape.ty ≠ .none ∧ 3 < t.shape.cols ∧ 0 < t.shape.cols ∧ t.shape.acc ≠ true ∧
    tile2.shape.acc = true ∧ tile2.shape.ty = .f32 ∧ tile2.shape.cols ≤ 256 := by
  decide +kernel

/-! ## Witnesses: memory, synchronisation and copies -/

/-- An address of the die's shared memory, and a second one 64 KiB on. -/
def at1 : Word := 0x1000000000000100

def at2 : Word := 0x1000000000010000

/-- The same in the address space of the package. -/
def pa1 : Nat := ownPa (shmBase + 0x100)

/-- A tile in scaled form. -/
def tile7 : Tile := { idx := 7, ctx := 1, shape := { ty := .e4m3, bg := .g1, rows := 4, cols := 32 }, refs := 1 }

/-- A tile of integers. -/
def tile8 : Tile := { idx := 8, ctx := 1, shape := { ty := .s32, rows := 2, cols := 4 }, refs := 1 }

/-- A pattern record whose completion word is `cword`. -/
def pattern (cword : Word) (cwen : Nat) : List Byte :=
  leBytes 64 (cwen + 64 * 2 ^ 32 + 2 ^ 208 + 2 ^ 224 + 2 ^ 240 + cword.toNat * 2 ^ 320 + at2.toNat * 2 ^ 384 + at1.toNat * 2 ^ 448)

/-- A firing in a context whose tenant owns the first bank of shared memory. -/
def memFiring (l r c : Tok) : State :=
  { firing l r c with
    cores := [{ core0 with tile := { tiles := [tile1, tile7, tile8] } }],
    ctxs := [{ ctx0 with pipes := [(2, shmBase + 0x200)] }],
    regions := [{ region0 with slots := [{ slot0 with pats := [pattern 0 0, pattern at1 1] }, {}, {}, {}] }],
    plat := { banks := [(0, 0)], boot := .ready } }

theorem witness_LoadsAndStoresIssue_scalar :
    let s := memFiring (num at1) (num 5) (num 2)
    operands [s.cur.l] [s.cur.l] ∧ (∃ x, s.scalarAccess s.cur.site {} s.cur.l.val .s64 = .ok x) ∧
    (∃ x, s.scalarAccess s.cur.site { write := true, read := false } s.cur.l.val .s64 = .ok x) ∧
    operands [s.cur.l, s.cur.r] [s.cur.l, s.cur.r] := by
  simp only [operands, clean, reads]; and_intros <;> first | decide +kernel | (apply exists_ok; decide +kernel)

theorem witness_LoadsAndStoresIssue_tile :
    let s := memFiring (num at1) (num at2) (num 0)
    let sh : Shape := { ty := .f32, bg := .g0, rows := (4 : BitVec 13).toNat, cols := (4 : BitVec 13).toNat }
    let sc : Shape := { ty := .e4m3, bg := .g1, rows := (4 : BitVec 13).toNat, cols := (32 : BitVec 13).toNat }
    impossible sh = false ∧ operands [s.cur.l] [s.cur.l] ∧ s.loadForm s.cur.site s.cur.l.val .f32 .g0 false = .ok (.f32, .g0) ∧
    (∃ gs, s.tileAccess s.cur.site { spaces := tileSpaces } sh (0 : BitVec 16).toNat s.cur.l.val none = .ok gs) ∧
    impossible sc = false ∧ operands [s.cur.l, s.cur.r] [s.cur.l, s.cur.r] ∧
    s.loadForm s.cur.site s.cur.l.val .e4m3 .g1 true = .ok (.e4m3, .g1) ∧
    (∃ gs, s.tileAccess s.cur.site { spaces := tileSpaces } sc (0 : BitVec 16).toNat s.cur.l.val (some s.cur.r.val) = .ok gs) := by
  simp only [operands, clean, reads]
  and_intros <;> first | decide +kernel | (apply got_ok; decide +kernel) | (apply exists_ok; decide +kernel)

theorem witness_LoadsAndStoresIssue_store :
    let s := memFiring (handle tile1) (num at1) (num 0)
    let t := memFiring (handle tile7) (num at1) (num at2)
    let store : Use := { spaces := tileSpaces, write := true, read := false }
    live s s.cur.l tile1 ∧ s.storeForm s.cur.site s.cur.r.val tile1.shape = .ok () ∧
    s.readRows s.cur.site.core tile1 0 tile1.shape.rows = (false, s) ∧ operands [s.cur.r] [s.cur.r] ∧
    (∃ gs, s.tileAccess s.cur.site store tile1.shape (0 : BitVec 16).toNat s.cur.r.val none = .ok gs) ∧
    live t t.cur.l tile7 ∧ t.storeForm t.cur.site t.cur.r.val tile7.shape = .ok () ∧
    t.readRows t.cur.site.core tile7 0 tile7.shape.rows = (false, t) ∧ operands [t.cur.r, t.cur.c] [t.cur.r, t.cur.c] ∧
    (∃ gs, t.tileAccess t.cur.site store tile7.shape (0 : BitVec 16).toNat t.cur.r.val (some t.cur.c.val) = .ok gs) ∧
    reads [t.cur.r] ∧ ¬ reads [t.cur.l] := by
  simp only [operands, clean, reads, live]
  and_intros <;> first | decide +kernel | (apply got_ok; decide +kernel) | (apply exists_ok; decide +kernel) | with_unfolding_all rfl

theorem witness_AtomicsIssue :
    let s := memFiring (num at1) (num 1) (num 2)
    let t := memFiring (num at1) (handle tile8) (num 2)
    (∃ x, s.atomAccess s.cur.site s.cur.l.val .s32 = .ok x) ∧ operands [s.cur.l, s.cur.r, s.cur.c] [s.cur.l, s.cur.r, s.cur.c] ∧
    operands [s.cur.l, s.cur.r] [s.cur.l, s.cur.r] ∧ operands [s.cur.l] [s.cur.l] ∧
    live t t.cur.r tile8 ∧ tile8.shape.bg = .g0 ∧ tile8.shape.ty = (par .s32).ty ∧ rowPitch tile8.shape (0 : BitVec 16).toNat = .ok 16 ∧
    (∃ rows, t.rowParts t.cur.site { spaces := [1, 2], write := true } t.cur.l.val 16 (packedRow tile8.shape) tile8.shape.rows 0 = .ok rows) ∧
    t.readRows t.cur.site.core tile8 0 tile8.shape.rows = (false, t) ∧ t.cur.l.kind = kScalar ∧ t.cur.c.kind = kScalar := by
  simp only [operands, clean, reads, live]
  and_intros <;> first | decide +kernel | (apply got_ok; decide +kernel) | (apply exists_ok; decide +kernel) | with_unfolding_all rfl

/-- The last arrival of a barrier that expects one, and the largest holder count and sequence of an object. -/
theorem witness_BarrierAndObjectWords : 255 < 256 ∧ 32767 < 32768 ∧ 2 ^ 48 - 1 < 2 ^ 48 := by decide

theorem witness_AtomicUpdates : isInteger Ty.z16 := by
  simp only [isInteger]; decide

theorem witness_SynchronisationIssues :
    let s := memFiring (num at1) (num 1) (num 2)
    (∃ t, s.wordAccess s.cur.site s.cur.l.val true = .ok t ∧ s.inScope s.cur.site.core .core (firstPa t.parts) = true) ∧
    (∃ t, s.wordAccess s.cur.site s.cur.l.val false = .ok t) ∧ operands [s.cur.l] [s.cur.l] ∧
    operands [s.cur.l, s.cur.r] [s.cur.l, s.cur.r] := by
  simp only [operands, clean, reads]
  refine ⟨⟨{ parts := [(.mem pa1 0 0, 8, 0)], path := 1 }, ?_, ?_⟩, ?_⟩
  · apply got_ok; decide +kernel
  · decide +kernel
  · and_intros <;> first | decide +kernel | (apply exists_ok; decide +kernel)

theorem witness_SynchronisationIssues_pipe :
    let s := memFiring (num 0) (num 4) (num 2)
    let c : Ctx := { ctx0 with pipes := [(2, shmBase + 0x200)] }
    s.ctx? s.cur.site.ctx = some c ∧ c.pipes.find? (fun x => x.1 == (2 : BitVec 4).toNat) = some (2, shmBase + 0x200) ∧
    operands [s.cur.l, s.cur.r] [s.cur.r] ∧ clean [s.cur.l] := by
  simp only [operands, clean, reads]; decide +kernel

/-- A pipe of 8 granules with a pad, at its largest count of claims below the wrap; a claim, a take and a return of it. -/
theorem witness_PipeCountersStayOrdered :
    let p : PipeDesc := { size := 8, claimed := 8, committed := 8, taken := 2, retired := 1, padAt := 6, padLen := 2, padP := true }
    let q : PipeDesc := { size := 8, claimed := 2, committed := 2, taken := 2, retired := 2 }
    let done (o : PipeOut) : Bool := match o with
      | .done _ _ _ => true
      | _ => false
    pipeOrdered p ∧ pipeOrdered q ∧ 6 < 2 ^ 32 ∧ done (pipeStep 0 6 q) = true ∧ q.claimed + 2 * q.size < 2 ^ 32 ∧
    done (pipeStep 2 4 p) = true ∧ done (pipeStep 3 1 p) = true ∧ done (pipeStep 1 0 p) = true ∧ done (pipeStep 4 0 p) = true := by
  simp only [pipeOrdered]; decide +kernel

theorem witness_CopiesStartAndComplete_start :
    let s := memFiring (num at1) (num at2) (num 2)
    let t := memFiring (handle tile8) (num 1) (num 2)
    let u := memFiring { kind := kPoison } (num 1) (num 2)
    let pat := s.pattern s.cur.site (0 : BitVec 10).toNat
    let one := u.pattern u.cur.site (1 : BitVec 10).toNat
    s.cwordPlace s.cur.site pat = .ok none ∧ clean [s.cur.l] ∧ operands [s.cur.l, s.cur.r] [s.cur.l, s.cur.r] ∧
    live t t.cur.l tile8 ∧ operands [t.cur.r] [t.cur.r] ∧ tile8.shape.bg = .g0 ∧ tile8.shape.ty ∈ [Ty.s32, .z32, .s64, .z64] ∧
    pat.counts.getD 1 0 = 1 ∧ pat.counts.getD 2 0 = 1 ∧
    u.cwordPlace u.cur.site one = .ok (some { place := .mem pa1 0 0, len := 8 }) ∧ one.cwen = true ∧ u.cur.l.kind = kPoison := by
  simp only [operands, clean, reads, live]
  and_intros <;> first | decide +kernel | (apply got_ok; decide +kernel)

theorem witness_CopiesStartAndComplete_complete :
    let s := memFiring (num at1) (num at2) (num 2)
    let e : Eng := { site := s.cur.site, kind := .copy, step := .running, tag := 5 }
    let f : Eng := { e with cword := some { place := .mem pa1 0 0, len := 8 }, step := .finishing }
    let r : Req := { id := 1, site := s.cur.site, noEntry := true, tag := 5, kind := .arrive 0, done := true }
    let t := withEng s e
    let u := withEng { s with ms := { reqs := [r], reqSeq := 2 } } f
    t.eng? 0 0 = some e ∧ e.kind = .copy ∧ t.engRuns e = true ∧ e.moves = [] ∧ e.todo = [] ∧ e.pos = e.total ∧ e.cword = none ∧
    e.watch = none ∧ f.watch = none ∧ e.step = .running ∧ (withEng s { f with step := .running }).eng? 0 0 = some { f with step := .running } ∧
    u.eng? 0 0 = some f ∧ f.cword = some { place := .mem pa1 0 0, len := 8 } ∧ f.step = .finishing ∧ u.arrivalOf 0 f = some r ∧ r.done = true := by
  decide +kernel

theorem witness_CopiesStartAndComplete_drain :
    let s := memFiring (num at1) (num at2) (num 2)
    let w : Wait := { site := s.cur.site, d0 := .node 1 .l, path := 1, on := [4] }
    let e : Eng := { seq := 4, site := s.cur.site, kind := .copy, step := .running, moves := [{ path := 1 }] }
    let t := { s with ctxs := [{ ctx0 with drains := [w] }] }
    clean [s.cur.l] ∧ (t.ctxs.flatMap fun c => c.drains.map fun w => (c.id, w))[0]? = some (1, w) ∧ t.ctxRuns 1 = true ∧
    t.drained w = true ∧ (withEng t e).drained w = false := by
  simp only [clean]; decide +kernel

theorem witness_WritesReadBack :
    let s := memFiring (num 0) (num 0) (num 0)
    Safety.MemInv s ∧ (s.writePhys 31 [1, 2, 3] 0 0).1 = 0 ∧ [(1 : Byte), 2, 3][2]? = some 3 ∧
    ({ s with ms := { tags := [(0, 5)] } }.writePhys 4 [1, 2] 3 0).1 ≠ 0 ∧ [(1 : Byte), 2].length ≤ 32 ∧ 4 / 32 = (4 + 2 - 1) / 32 := by
  simp only [Safety.MemInv]; decide +kernel

theorem witness_StoresWriteTheirBytes :
    let s := memFiring (num 0) (num 0) (num 0)
    let q : Piece := { place := .mem pa1 0 0, len := 2, off := 0, op := .write [1, 2] }
    let r : Req := { id := 1, site := s.cur.site, kind := .st, pieces := [q], st := 2 }
    let t := { s with ms := { reqs := [r], reqSeq := 2 } }
    let hbm : Piece := { q with place := .mem (ownPa 4) 3 0 }
    let bad : State := { s with ms := { reqs := [{ r with pieces := [hbm] }], reqSeq := 2, tags := [(0, 5)] } }
    Safety.MemInv t ∧ t.readyEvents[0]? = some (.piece 1 0) ∧ t.req? 1 = some r ∧ r.kind = .st ∧
    (t.writePhys (paLocal pa1) [1, 2] 0 0).1 = 0 ∧ (bad.writePhys (paLocal (ownPa 4)) [1, 2] 3 0).1 ≠ 0 ∧
    Safety.MemInv bad ∧ bad.isLocal (ownPa 4) = true ∧ bad.localOk (paLocal (ownPa 4)) = true ∧
    bad.readyEvents[0]? = some (.piece 1 0) ∧ ([1, 2] : List Byte).length ≤ 32 ∧
    paLocal (ownPa 4) / 32 = (paLocal (ownPa 4) + ([1, 2] : List Byte).length - 1) / 32 ∧
    r.pieces[0]? = some q ∧ t.isLocal pa1 = true ∧ t.localOk (paLocal pa1) = true := by
  simp only [Safety.MemInv]; decide +kernel

theorem witness_RequestEventsComplete :
    let s := memFiring (num 0) (num 0) (num 0)
    let q (op : PieceOp) : Piece := { place := .mem pa1 0 0, len := 8, off := 0, op := op }
    let r : Req := { id := 1, site := s.cur.site, kind := .ld .s64, pieces := [q .read], st := 2 }
    let b : Req := { r with kind := .barw, pieces := [q (.barw 0)], waits := true, go := true }
    let a : Req := { r with kind := .acq, pieces := [q (.acq false)], waits := true }
    let p : Req := { r with kind := .pipe 0 2, pieces := [q (.pipe 0 2 1)], waits := true }
    let d : Req := { r with done := true, pieces := [] }
    let of' (r : Req) : State := { s with ms := { reqs := [r], reqSeq := 2 } }
    (of' r).readyEvents[0]? = some (.piece 1 0) ∧ (of' r).req? 1 = some r ∧ ((of' r).answerLogged r).isNone = true ∧
    ((of' b).waiting fun r => r.kind == .barw && r.go && (of' b).served r)[0]? = some b ∧ b.pieces = [q (.barw 0)] ∧
    ((of' a).waiting fun r => r.kind == .acq && (of' a).isHead r && (of' a).served r)[0]? = some a ∧
    ((of' p).waiting fun r => (match r.kind with
      | .pipe _ _ => true
      | _ => false) && (of' p).isHead r && (of' p).served r)[0]? = some p ∧
    ((of' d).ms.reqs.filter Req.answered)[0]? = some d ∧ (of' d).ctxRuns d.site.ctx = true ∧
    ({ of' d with ctxs := [{ ctx0 with mode := .frozen }] } : State).ctxRuns d.site.ctx = false ∧ d.stepped = false := by
  decide +kernel

theorem witness_RequestEventsComplete_ready :
    let s := memFiring (num 0) (num 0) (num 0)
    let site := s.cur.site
    let far : Loc := .mem (5 * 2 ^ 44) 0 0
    let a : Req := { id := 1, site := { site with ctx := 2 ^ 16 * 4 + 7 }, kind := .acq, tag := 3, st := 2,
                     pieces := [{ place := .mem pa1 0 0, len := 8, op := .acq false }] }
    let l : Logged := { node := 3, pkg := 3, ctx := a.site.ctx, tag := 3 }
    let logged (r : Req) : State := { s with ms := { reqs := [r], reqSeq := 2, log := [l] } }
    let w := { a with waits := true }
    let q : Req := { id := 1, site := site, kind := .qput 0 [], st := 2 }
    let t := { s with ms := { reqs := [q], reqSeq := 2 },
                      disp := { queues := [{ en := true, lsize := 2 }] } }
    let x : Move := { src := [(.mem pa1 0 0, 64, 0)], dst := .mem pa1 0 0, len := 64 }
    let y : Move := { x with src := [] }
    let z : Move := { y with asked := [(1, 0, 64, 0)] }
    let c (m : Move) : Eng := { site := site, kind := .copy, step := .running, moves := [m], total := 1, pos := 1 }
    let p : Req := { id := 1, site := site, kind := .part, noEntry := true, done := true, pieces0 := [{ place := far, len := 64 }] }
    let back := { withEng s (c z) with ms := { reqs := [p], reqSeq := 2 } }
    let r := { x with rpl := true }
    let again := withEng s (c r)
    (logged a).readyEvents[0]? = some (.piece 1 0) ∧ (logged a).req? 1 = some a ∧ ((logged a).answerLogged a).isSome = true ∧
    ((logged w).waiting fun r => r.kind == .acq && (logged w).isHead r && (logged w).served r)[0]? = some w ∧
    ((logged w).answerLogged w).isSome = true ∧
    t.readyEvents[0]? = some (.qput 1) ∧ t.req? 1 = some q ∧
    (withEng s (c x)).readyEvents[0]? = some (.read 0 0 0 0) ∧ (withEng s (c x)).eng? 0 0 = some (c x) ∧ (c x).moves[0]? = some x ∧
    (withEng s (c y)).readyEvents[0]? = some (.write 0 0 0) ∧ (c y).moves[0]? = some y ∧
    back.readyEvents[0]? = some (.back 0 0 1) ∧ back.req? 1 = some p ∧ back.eng? 0 0 = some (c z) ∧
    (again.ms.reqs.filter Req.replays).length = 0 ∧
    ((enumL again.cores).flatMap fun c => c.2.eng.recs.flatMap fun e => if again.engRuns e then
        (enumL e.moves).filterMap fun m => if m.2.rpl then some (c.1, e, m.1, m.2) else none
      else [])[0]? = some (0, c r, 0, r) := by
  decide +kernel

theorem witness_RequestEventsComplete_far :
    let s := memFiring (num 0) (num 0) (num 0)
    let far : Loc := .mem (5 * 2 ^ 44) 0 0
    let r : Req := { id := 1, site := s.cur.site, kind := .ld .s64, pieces := [{ place := far, len := 8 }], st := 2 }
    let t := { s with ms := { reqs := [r], reqSeq := 2 }, wall := 100000 }
    let l : Logged := { node := 3, pkg := 9, core := 0, ctx := 7, tag := 1 }
    let u := { s with ms := { log := [l] }, wall := 1000000 }
    let m : Move := { src0 := [(.net 0 1 0, 64, 0)], len := 64 }
    let e : Eng := { site := s.cur.site, kind := .copy, moves := [m] }
    let y : Req := { r with rpl := true }
    (t.ms.reqs.filter t.outstandingFar)[0]? = some r ∧ r.rtry = false ∧ r.last + t.tmoOf r.site.ctx ≤ t.wall ∧
    u.ms.log[0]? = some l ∧ u.evictable l = true ∧ { u with wall := 999999 }.wall < l.logged + 1000000 ∧
    (withEng s e).eng? 0 0 = some e ∧ (enumL e.moves).find? (fun m => isNet (m.2.src0 ++ [(m.2.dst, 0, 0)])) = some (0, m) ∧
    ([y].filter Req.replays)[0]? = some y := by
  decide +kernel

/-! ## Witnesses: launches, slots, registers, traps, tokens and contexts -/

theorem witness_LaunchesAndWaits :
    let s := memFiring (num at1) (num at2) (num 0)
    let k : Child := { queue := 1, seq := 2, done := true, status := 7 }
    let c : Ctx := { ctx0 with kids := [k] }
    let w : Wait := { site := s.cur.site, d0 := .node 1 .l, count := 1 }
    let d : Ctx := { c with qwaits := [w] }
    let t := { s with ctxs := [c] }
    (∃ x, s.resolve s.cur.site { spaces := [0, 1, 2, 5] } s.cur.l.val 256 = .ok x) ∧ operands [s.cur.l] [s.cur.l] ∧
    operands [s.cur.l, s.cur.r] [s.cur.l, s.cur.r] ∧ clean [s.cur.l] ∧ (firing (num 0) (num 0) (num 0)).ctx? 1 = some ctx0 ∧
    ctx0.kids = [] ∧ t.ctx? t.cur.site.ctx = some c ∧ c.kids ≠ [] ∧
    ([d].flatMap fun c => c.qwaits.map fun w => (c, w))[0]? = some (d, w) ∧ d.mode = .running ∧
    (∀ k ∈ d.kids.take w.count, k.done = true) ∧ k ∈ d.kids.take w.count ∧ k.status ≠ 0 ∧
    (∀ x ∈ d.kids.take w.count, x.status ≠ 0 → x = k ∨ k.order < x.order) := by
  simp only [operands, clean, reads]
  and_intros <;> first | decide +kernel | (apply exists_ok; decide +kernel)

theorem witness_LaunchesAndWaits_wait :
    let k : Child := { queue := 1, seq := 2, done := true }
    let w : Wait := { site := { ctx := 1 }, count := 1 }
    let of' (k : Child) (m : CtxMode) : Ctx := { ctx0 with kids := [k], qwaits := [w], mode := m }
    let at' (d : Ctx) : Prop := ([d].flatMap fun c => c.qwaits.map fun w => (c, w))[0]? = some (d, w)
    at' (of' k .running) ∧ (∀ x ∈ [k].take w.count, x.done = true ∧ x.status = 0) ∧ at' (of' { k with done := false } .running) ∧
    (∃ x ∈ [{ k with done := false }].take w.count, x.done = false) ∧ at' (of' k .frozen) ∧ CtxMode.frozen ≠ .running := by
  decide +kernel

theorem witness_LaunchesAndWaits_packet :
    let s := memFiring (num 0) (num 0) (num 0)
    let q (opb : Word) (tenant : Nat) : Req := { id := 1, site := s.cur.site, kind := .qput 0 [], st := 2, opb := opb, tenant := tenant }
    let at' (r : Req) : State := { s with ms := { reqs := [r], reqSeq := 2 }, disp := { queues := [{ en := true, lsize := 2 }] } }
    let able (r : Req) : Prop := (at' r).readyEvents[0]? = some (.qput 1) ∧ (at' r).req? 1 = some r ∧ r.status = 0
    able (q 0 0) ∧ able (q 1 0) ∧ able (q 0 3) ∧ (q 0 0).opb ≠ 1 ∧ (q 1 0).opb = 1 ∧
    ((at' (q 0 0)).disp.queues.getD 0 {}).tenant = (q 0 0).tenant ∧ ((at' (q 0 3)).disp.queues.getD 0 {}).tenant ≠ (q 0 3).tenant ∧
    (at' (q 0 0)).qputMode (q 0 0) ≠ .marked := by
  decide +kernel

/-- A region whose slot 0 is active, slot 1 armed, slot 2 empty and slot 3 being freed. -/
def region1 : Region := { region0 with slots := [{ slot0 with state := .active }, { state := .armed, cid := 4 }, {}, { state := .freeing }] }

def slots (l : Tok) (g : Region) : State := { firing l (num 0) (num 0) with regions := [g], gtc := 1000, cores := [{}] }

theorem witness_CodeSlots_fire :
    let s := slots (num 3000) region1
    let t := slots (num 1) region1
    operands [s.cur.l] [s.cur.l] ∧ s.cur.site.core < s.cores.length ∧ s.region? s.cur.site.core = some region1 ∧
    s.cur.l.val.toNat % 4 ≠ 3 ∧ (region1.slot (s.cur.l.val.toNat % 4)).ready = true ∧
    region1.target.getD (s.cur.l.val.toNat % 4) = s.cur.l.val.toNat % 4 ∧
    operands [t.cur.l] [t.cur.l] ∧ (region1.slot (t.cur.l.val.toNat % 4)).ready = true ∧
    region1.target.getD (t.cur.l.val.toNat % 4) ≠ t.cur.l.val.toNat % 4 ∧
    (1 : BitVec 2) ≠ 3 ∧ s.gtc + 2000 ≤ s.cur.l.val.toNat ∧ (region1.slot (1 : BitVec 2).toNat).ready = true ∧ clean [s.cur.l] ∧
    (∀ w ∈ region1.waits, 2 ≤ w.op ∨ w.slot ≠ (1 : BitVec 2).toNat) ∧ (region1.slot (2 : BitVec 2).toNat).state = .empty ∧
    (region1.slot (1 : BitVec 2).toNat).state = .armed ∧ (region1.slot (3 : BitVec 2).toNat).state = .freeing := by
  simp only [operands, clean, reads]; decide +kernel

theorem witness_CodeSlots_events :
    let sel : Switch := { op := 0, slot := 1, site := { ctx := 1 } }
    let swt : Switch := { op := 1, slot := 1, instant := 1000, site := { ctx := 1 } }
    let e : Eng := { site := { ctx := 1 }, kind := .cload 1, step := .running, total := 64, pos := 2 }
    let g : Region := { region1 with waits := [sel] }
    let h : Region := { region1 with waits := [swt], closes := [{ ph := 3, site := { ctx := 1 }, quiet := 2 }] }
    let s := slots (num 0) g
    let t := slots (num 0) h
    (withEng s e).eng? 0 0 = some e ∧ e.kind = .cload 1 ∧ s.engRuns e = true ∧ e.step ≠ .waiting ∧ e.fail = 0 ∧ e.total ≠ 0 ∧
    e.allRead = true ∧ 2 ≤ e.pos ∧ s.regionAt 0 = some g ∧ g.pending.head? = some sel ∧
    (∀ old, g.active = some old → old ≠ sel.slot → s.slotBusy g old = false ∧ s.savedIn g old = false) ∧
    t.regionAt 0 = some h ∧ h.waits.filter (fun w => w.op == 1 && decide (w.instant ≤ t.gtc)) = [swt] ∧
    (enumL g.slots).find? (fun k => k.2.state == .freeing && !s.slotBusy g k.1 && !s.savedIn g k.1) = some (3, { state := .freeing }) ∧
    (t.regions.flatMap fun g => g.closes.map fun w => (g.home, w))[0]? = some (0, { ph := 3, site := { ctx := 1 }, quiet := 2 }) ∧
    t.ctxRuns 1 = true := by
  dsimp only
  and_intros <;> first | decide +kernel | (intro old h1 h2; cases h1; decide +kernel)

theorem witness_ControlRegisterWrites :
    let s := { firing (num 0x104) (num 0) (num 0) with gtc := 0x103 }
    let t := { s with gtc := 0x104 }
    let u := firing (num 5) (num 0) (num 0)
    operands [s.cur.l] [s.cur.l] ∧ s.gtc < s.cur.l.val.toNat ∧ t.cur.l.val.toNat ≤ t.gtc ∧ s.cur.l.val.toNat % 16 < 5 ∧
    5 ≤ u.cur.l.val.toNat % 16 ∧ (∃ x, s.writeWatch s.cur.site 0x041 s.cur.l.val = .ok x) ∧ s.ctx? s.cur.site.ctx = some ctx0 ∧
    s.cur.site.core < s.cores.length := by
  simp only [operands, clean, reads]
  and_intros <;> first | decide +kernel | (apply exists_ok; decide +kernel)

/-- A watch unit at HOME whose range moves between another package and shared memory. -/
theorem witness_ControlRegisterWrites_watch :
    let far : Extent := { v := true, perm := 3, len := 64, chunks := [5 * 2 ^ 44] }
    let on (base : Word) : Watch := { base := base, ctl := 1 + BitVec.ofNat 64 (2 ^ atHome) }
    let s (base v : Word) : State :=
      { firing (num v) (num 0) (num 0) with
        ctxs := [{ ctx0 with extents := [far], regs := { watch := [on base, {}, {}, {}] } }], plat := { ({} : Platform) with l2p := [(5, 5)] } }
    let pkgs (a b : Word) : List Nat × List Nat :=
      ((s a b).watchPkgs 1 0, match (s a b).writeWatch (s a b).cur.site 0x040 b with
        | .ok t => t.watchPkgs 1 0
        | .error _ => [])
    pkgs 0 (2 ^ 60) = ([5], []) ∧ pkgs (2 ^ 60) 0 = ([], [5]) ∧ pkgs (2 ^ 60) (2 ^ 60 + 16) = ([], []) ∧
    (∃ x, (s 0 (2 ^ 60)).writeWatch (s 0 (2 ^ 60)).cur.site 0x040 (2 ^ 60) = .ok x) ∧
    (∃ x, (s (2 ^ 60) 0).writeWatch (s (2 ^ 60) 0).cur.site 0x040 0 = .ok x) ∧
    operands [(s 0 0).cur.l] [(s 0 0).cur.l] := by
  simp only [operands, clean, reads]
  and_intros <;> first | decide +kernel | (apply exists_ok; decide +kernel)

/-- An extent record of 2 MiB at local address 0, as its bytes stand in memory (R292). -/
def recordMem : List Host.Cell := [(shmBase + 0x10A, 0x20)]

/-- Memory in which no error stands is read without a trace. -/
theorem sectorReads_clean (s : State) (h : s.ms.errs = []) (tag : Nat) (l : List Nat) :
    l.foldl (fun s x => s.sectorRead x tag) s = s := by
  induction l with
  | nil => rfl
  | cons x l ih =>
    have e : s.sectorRead x tag = s := by
      simp [State.sectorRead, Table.get, h]
    rw [List.foldl_cons, e]; exact ih

theorem recordMem_read :
    let s := { memFiring (num 0) (num at1) (num 0) with ms := { mem := recordMem } }
    (s.readParts s.cur.site.core [(.mem pa1 0 0, 576, 0)]).2.2 = s := by
  simp only [State.readParts, List.foldl_cons, List.foldl_nil, State.readPart, State.readPhys]
  rw [sectorReads_clean _ rfl]
  with_unfolding_all rfl

theorem witness_TraceSelectAndBind :
    let s := { memFiring (num 0) (num at1) (num 0) with ms := { mem := recordMem } }
    let t := memFiring (num at1) (num at2) (num 0)
    let place : Target := { parts := [(.mem pa1 0 0, 576, 0)], path := 1 }
    operands [s.cur.l] [s.cur.l] ∧ operands [s.cur.l, s.cur.r] [s.cur.l, s.cur.r] ∧ s.selected s.cur.site.core s.cur.l.val = .ok (some 0) ∧
    operands [t.cur.l, t.cur.r] [t.cur.l, t.cur.r] ∧ (∃ u, t.bindRegion t.cur.site t.cur.l.val t.cur.r.val 0 = .ok u ∧ u.cur = t.cur) ∧
    s.cur.l.val.toNat < 12 ∧ s.resolve s.cur.site { spaces := [1, 2] } s.cur.r.val 576 = .ok place ∧
    (s.readParts s.cur.site.core place.parts).1 = 0 ∧ (s.readParts s.cur.site.core place.parts).2.2 = s ∧
    (s.readExtent (s.readParts s.cur.site.core place.parts).2.1).isSome = true := by
  simp only [operands, clean, reads]
  and_intros <;> first | decide +kernel | (apply got_ok; decide +kernel) | (apply exists_ok_and; decide +kernel) | exact recordMem_read

/-- A block of one node that takes two operands, and a handler's block for cause 3. -/
def desc (fsize exits : Nat) : Word := BitVec.ofNat 64 ((fsize - 1) * 2 ^ 56 + 7 * 2 ^ 49 + exits * 2 ^ 27 + 2 ^ 20)

def core1 : Core :=
  { core0 with desc := [(0, desc 2 2), (3 * 64 + 2, desc 3 1)], code := [(1, 0x20400401000000000000000000000000)] }

def region2 : Region := { region0 with slots := [slot0, {}, {}, { state := .armed }] }

def traps (c : Ctx) : State := { firing (num 0) (num 0) (num 0) with cores := [core1], ctxs := [c], regions := [region2] }

theorem witness_TrapsAndHandlers_raise :
    let s := firing (num 7) (num 0) (num 0)
    let t : Trap := { cause := 3, site := { ctx := 1 } }
    let c : Ctx := { ctx0 with wdogs := [(0, 0x1000000, false)] }
    let u : State := { s with ctxs := [c], gtc := 50, cores := [{ core0 with regs := { timerCmp := 50, timerArmed := true } }] }
    clean [s.cur.l] ∧ s.ctx? t.site.ctx = some ctx0 ∧ s.haltEnabled t.site.ctx t.cause false = false ∧
    (u.core 0).regs.timerArmed = true ∧ (u.core 0).regs.timerCmp.toNat ≤ u.gtc ∧
    (s.core 0).regs.timerArmed = false ∧ { u with gtc := 49 }.gtc < (u.core 0).regs.timerCmp.toNat ∧
    u.ctx? 1 = some c ∧ c.wdogs.find? (fun w => w.1 == 0) = some (0, 0x1000000, false) ∧ c.mode = .running ∧ c.regs.wdog ≤ 0x1000000 := by
  simp only [clean]; decide +kernel

theorem witness_TrapsAndHandlers_handle :
    let t : Trap := { cause := 3, site := { ctx := 1 }, a := num 9 }
    let c : Ctx := { ctx0 with traps := [t] }
    let s := traps c
    let w : Trap := { t with cause := 1 }
    let d : Ctx := { ctx0 with traps := [w] }
    let h : Ctx := { ctx0 with handler := some t }
    let u : State := { traps h with cur := { site := { ctx := 1, frame := 3, hnd := true }, l := num 2 } }
    s.ctx? 1 = some c ∧ c.mode = .running ∧ c.handler = none ∧ s.nextTrap c = some t ∧ s.noHandler t = false ∧
    t.cause ≠ 5 ∧ t.a.kind ≠ kTile ∧ (s.takeFrame t.core (fun n =>
      { newFrame n 1 3 (t.cause - 1) ((s.core t.core).descOf 3 (t.cause - 1)) [] with hnd := true })).isSome = true ∧
    (traps d).ctx? 1 = some d ∧ (traps d).nextTrap d = some w ∧ (traps d).noHandler w = true ∧ w.cause = 1 ∧
    (firing (num 0) (num 0) (num 0)).cur.site.hnd = false ∧ u.cur.site.hnd = true ∧ t.cause ≠ 1 ∧ u.cur.l.kind = kScalar ∧
    u.cur.l.val.toNat ≤ 2 ∧ ((u.perfCtx u.cur.site.ctx 0x00 1).ctx? u.cur.site.ctx).map (fun c => c.handler) = some (some t) := by
  decide +kernel

/-- A token for the right port of node 1 of the frame of context 1. -/
def arrival : QTok := { tok := num 5, frame := 3, instr := 1, port := 1, ectx := 1 }

theorem witness_TokensAreAccepted :
    let s := { traps ctx0 with flight := [arrival] }
    let bad := { arrival with instr := 8 }
    let t := { traps ctx0 with flight := [bad] }
    let far := { arrival with epkg := 6 }
    let u := { traps ctx0 with flight := [far] }
    let wrong := { arrival with tok := { arrival.tok with res := 254 } }
    let sent := { arrival with tok := handle tile1, ectx := 2 }
    let w := { traps ctx0 with flight := [sent] }
    let placed (w : State) (x : QTok) : Option Nat :=
      let y := { x with acc := (w.core 0).tok.accSeq }
      let v := w.modTok 0 fun t => { t with accSeq := t.accSeq + 1 }
      (v.brkHit 0 (v.ctxOfTok 0 y) y).map fun _ => 0
    let v := (({ traps ctx0 with flight := [wrong] }.dropFlight 0).countResidue 0).release 0 wrong.tok
    s.arriving 0 = some arrival ∧ arrival.dst = .frame ∧ s.frameSaved 0 3 = false ∧ arrival.tile = none ∧
    t.arriving 0 = some bad ∧ t.tokenOk 0 bad = false ∧ s.tokenOk 0 arrival = true ∧ s.ringFull 0 (s.ctxOfTok 0 arrival) = false ∧
    u.tokenOk 0 far = true ∧ u.admits (u.ctxOfTok 0 far) far = false ∧ s.admits (s.ctxOfTok 0 arrival) arrival = true ∧
    tokenPort ((s.dropFlight 0).targetWord 0 arrival) arrival.port = true ∧ arrival.tok.res = residue255 arrival.tok.val ∧
    s.leavesCtx (s.ctxOfTok 0 arrival) arrival = false ∧ placed (s.dropFlight 0) arrival = none ∧
    w.arriving 0 = some sent ∧ w.tokenOk 0 sent = true ∧ w.ringFull 0 (w.ctxOfTok 0 sent) = false ∧
    w.admits (w.ctxOfTok 0 sent) sent = true ∧ w.leavesCtx (w.ctxOfTok 0 sent) sent = true ∧
    wrong.tok.res ≠ residue255 wrong.tok.val ∧
    placed v { wrong with tok := mkTok { core := 0 } kPoison (poisonVal v { core := 0 } stResidue) } = none := by
  decide +kernel


theorem witness_TokensArriveAndAreGranted :
    let q : QTok := { arrival with dst := .inport 0 9 false }
    let m : QTok := { arrival with tile := some { shape := { ty := .f32, rows := 2, cols := 2 } } }
    let old : QTok := { arrival with since := 0 }
    let r : FrameReq := { site := { ctx := 1 }, ctx := 1 }
    let s := { traps ctx0 with flight := [q, m], reports := [(0, 1, stRoute)] }
    let t := { traps ctx0 with cores := [{ core1 with tok := { fifo2 := [old], inq := [q] }, frm := { core1.frm with fifo := [r] } }] }
    let full := { traps ctx0 with cores := [{ core1 with frm := { fifo := [r], free := [] } }] }
    let asks := { t with ctxs := [{ ctx0 with traps := [{ cause := 3, site := { ctx := 1 }, a := num 9 }] }] }
    s.reports[0]? = some (0, 1, stRoute) ∧ 0 < s.flight.length ∧ s.arriving 0 = some q ∧ q.dst ≠ .frame ∧
    portBlocked (s.bindSlot q) (s.core 0).tok.inq = false ∧ portBlocked (t.bindSlot q) (t.core 0).tok.inq = true ∧
    s.arriving 1 = some m ∧ m.dst = .frame ∧ m.tile.isSome = true ∧ s.frameSaved m.core m.frame = false ∧ s.tokenOk m.core m = true ∧
    s.admits (s.ctxOfTok m.core m) m = true ∧ t.nextAsk 0 = some r ∧ t.askFits 0 r = true ∧ t.entryAsks 0 = false ∧
    asks.nextAsk 0 = some r ∧ asks.entryAsks 0 = true ∧ full.nextAsk 0 = some r ∧ full.askFits 0 r = false ∧ r.why = .fnew ∧ (t.core 0).frm.next = some 0 ∧
    (t.core 0).frm.fits (descFsize ((t.core 0).descOf r.cslot r.block)) = true ∧ descTrace ((t.core 0).descOf r.cslot r.block) = false ∧
    0 < t.cores.length := by
  decide +kernel

theorem witness_TokensArriveAndAreGranted_promotion :
    let s := { traps ctx0 with
      cores := [{ core1 with tok := { fifo2 := [arrival] } }], plat := { dies := [{ uclk := 2 ^ 20 * 1000000 }] } }
    ([1, 2, 3].filterMap fun c => (((s.core 0).tok.fifo c).find? fun q => decide (q.since + 2 ^ 20 ≤ s.clk 0)).map fun q => (c, q)).head? =
      some (2, arrival) := by
  decide +kernel

theorem witness_ContextsComplete :
    let s := { traps ctx0 with cores := [{}] }
    let t := traps ctx0
    s.ctx? 1 = some ctx0 ∧ s.atRest ctx0 = true ∧ t.atRest ctx0 = false := by
  decide +kernel

theorem witness_ContextsFreezeSaveAndRestore_freeze :
    let c : Ctx := { ctx0 with mode := .frozen, settled := false, fences := [(0, 3)], markers := [(0, 3)], froze := 1000 }
    let s := { traps c with wall := 6000 }
    (traps ctx0).ctx? 1 = some ctx0 ∧ ctx0.mode = .running ∧ (∃ c ∈ s.ctxs, c.mode = .frozen ∧ ∃ f ∈ c.fences, f.2 = 3) ∧
    s.ctxs = [c] ∧ c.id = 1 ∧ (0, 3) ∈ c.markers ∧ c.fences = [(0, 3)] ∧ (∀ r ∈ s.ms.reqs, r.answered = false) ∧
    c.settled = false ∧ c.froze + 5000 ≤ s.wall ∧ { s with wall := 3999 }.wall < c.froze + 3000 := by
  decide +kernel

/-- A pre-emption request of an action for context 1, at work. -/
def request (act : Nat) : Pkt := { no := 4, state := .running, bytes := leBytes 32 (4 * 2 ^ 9 + act * 2 ^ 110 + 2 ^ 112) }

theorem witness_ContextsFreezeSaveAndRestore_save :
    let c : Ctx := { ctx0 with mode := .frozen }
    let d : Ctx := { ctx0 with mode := .restoring, saved := { base := 0x200000, size := 32 } }
    let s := { traps c with disp := { pkts := [request 0] } }
    let t := { traps d with disp := { pkts := [request 1] } }
    let bad := { t with ms := { errs := [(0x200000 / 32, 2)] } }
    let wrong := { t with ms := { mem := [(0x20000C, 1)] } }
    s.ctx? 1 = some c ∧ s.asked 1 actSave = some (request 0) ∧ s.saveable c = true ∧ t.ctx? 1 = some d ∧
    t.asked 1 actRestore = some (request 1) ∧ d.mode = .restoring ∧ t.areaOk d = true ∧ t.granted d = true ∧
    t.fitsBack d = true ∧ bad.areaOk d = false ∧ wrong.areaOk d = false := by
  decide +kernel

/-- A ring at its bound: 65,536 tokens of the ring and all 8,192 entries of the FIFOs (R327). -/
theorem witness_TokensAreAccepted_full (n : Nat) (hn : n = 73728) :
    let s := { traps ctx0 with cores := [{ core1 with tok := { fifo1 := List.replicate n arrival } }] }
    s.tokenOk 0 arrival = true ∧ s.ringFull 0 1 = true := by
  have h : ({ traps ctx0 with cores := [{ core1 with tok := { fifo1 := List.replicate n arrival } }] } : State).ctxOfTok 0 arrival = 1 := by
    with_unfolding_all rfl
  have f : (({ traps ctx0 with cores := [{ core1 with tok := { fifo1 := List.replicate n arrival } }] } : State).core 0).tok =
    { fifo1 := List.replicate n arrival } := rfl
  refine ⟨(show (traps ctx0).tokenOk 0 arrival = true by decide +kernel), ?_⟩
  simp only [State.ringFull, f, List.nil_append, List.append_nil, List.filter_replicate, h, beq_self_eq_true, if_true, List.length_replicate,
    decide_eq_true_eq]
  omega

/-! ## Witnesses: Dispatcher, debug, translation and platform -/

/-- Tables of a tenant whose root lies at 0x10000: one leaf of 1 GiB, at local address 0, for virtual address 0. -/
def tables : List Host.Cell :=
  [(0x10001, 0xF0), (0x10003, 0x11), (0x10007, 0x80), (0x11001, 0x30), (0x11007, 0xE0)]

def tenant0 : Tenant := { id := 0, root := 0x10000 }

def queue0 : Queue := { en := true, tail := 1, lsize := 1, bell := [(1, 0)] }

/-- A package in READY with tenant 0, whose function runs and which owns queue 0. -/
def platform : Platform :=
  { boot := .ready, tenants := [tenant0], vfs := [{}, { tdisp := .run }], banks := [(0, 0)] }

def ready : State :=
  { firing (num 0) (num 0) (num 0) with plat := platform, ms := { mem := tables }, disp := { queues := [queue0] } }

theorem witness_DoorbellsAndReads :
    let fits (q : Queue) (v : Nat) : Prop :=
      q.en = true ∧ (v + 2 ^ 32 - q.tail) % 2 ^ 32 + (q.tail + 2 ^ 32 - q.head) % 2 ^ 32 ≤ 2 ^ q.lsize
    let fronts (n st : Nat) : State :=
      { ready with disp := { queues := [{ queue0 with front := some (st, [0]) }], pkts := List.replicate n {} } }
    ready.disp.queues[(0 : BitVec 6).toNat]? = some queue0 ∧ ready.ownsQueue 1 (0 : BitVec 6).toNat = true ∧ ready.tdispOf (1 - 1) = .run ∧
    fits queue0 2 ∧ ¬ fits queue0 3 ∧ 1 ≠ 0 ∧ ready.plat.boot = .ready ∧ (ready.tenant? (1 - 1)).isSome = true ∧ queue0.tenant = 1 - 1 ∧
    (ready.plat.vfs.getD 1 {}).tdisp ≠ .error ∧ queue0.en = true ∧ { queue0 with en := false }.en = false ∧ ready.disp.reading = none ∧
    ready.pktsHeld < 256 ∧ (ready.filled.filter fun x => x.2.front.isNone) = [(0, queue0)] ∧ ready.wordVisit 0 = none ∧
    (∀ i ∈ queue0.after, ready.req? i = none) ∧ (∀ x ∈ (fronts 0 0).filled, x.2.front ≠ none) ∧
    leastKey (fronts 0 0).readable = some (0, 0, 0) ∧ leastKey (fronts 0 5).readable = some (3, 0, 0) ∧
    leastKey (fronts 256 0).readable = some (0, 0, 0) ∧ ((fronts 0 5).disp.queues.getD 0 {}).front = some (5, [0]) ∧
    (fronts 0 0).pktsHeld + gangMembers (leNat [0]) < 256 ∧ 256 ≤ (fronts 256 0).pktsHeld + gangMembers (leNat [0]) := by
  decide +kernel

theorem witness_DoorbellsAndReads_take :
    let v : Req := { id := 7, kind := .visit .packet, disp := some (0, 0, 0) }
    let s (n : Nat) (q : Queue) (rs : List Req) : State :=
      { ready with disp := { queues := [q], reading := some { bytes := List.replicate n 0 } }, ms := { reqs := rs } }
    let bytes (n : Nat) : Nat := (List.replicate n (0 : Byte) ++ Memory.getMany v.got 0 8).length
    (s 240 queue0 []).plat.boot = .ready ∧ (s 240 queue0 []).disp.queues[0]? = some queue0 ∧ queue0.used ≠ 0 ∧
    (s 240 queue0 []).wordVisit 0 = none ∧ (∀ i ∈ queue0.after, (s 240 queue0 []).req? i = none) ∧
    (∃ i ∈ { queue0 with after := [7] }.after, (s 0 queue0 [{ v with disp := some (1, 0, 0) }]).req? i ≠ none) ∧
    (s 0 queue0 [{ v with disp := some (1, 0, 0) }]).wordVisit 0 = none ∧
    (s 240 queue0 [v]).wordVisit 0 = some v ∧ v.done = false ∧ { v with done := true }.done = true ∧ v.status = 0 ∧ bytes 240 < 256 ∧
    256 ≤ bytes 248 ∧ { v with done := true, status := 5 }.status ≠ 0 := by
  decide +kernel

/-- A packet of a type. -/
def packet (typ : Nat) (st : PktState) (fields : Nat) : Pkt :=
  { no := 4, state := st, bytes := leBytes 32 (typ * 2 ^ 9 + fields) }

def held (p : Pkt) : State := { ready with disp := { queues := [queue0], pkts := [p] } }

theorem witness_LaunchPacketsAdvance_judge :
    let p := packet 0 .checked 0
    let g := { packet 1 .checked 0 with gang := some 4 }
    let d := packet 0 .waiting 0
    (held p).pkt? 4 = some p ∧ p.state = .checked ∧ p.typ = 0 ∧ p.gang = none ∧
    (held g).pkt? 4 = some g ∧ g.state = .checked ∧ g.gang = some g.no ∧
    (held d).pkt? (9 / 2) = some d ∧ d.state = .waiting ∧ (held d).depMet d (9 % 2) = true ∧ d.met1 = false ∧
    ((held d).modPkt 4 fun p => if 9 % 2 = 0 then { p with met0 := true } else { p with met1 := true }).pkt? 4 = some { d with met1 := true } := by
  decide +kernel

theorem witness_LaunchPacketsAdvance_admit :
    let p := packet 0 .admitting (9 * 2 ^ 20 + 5 * 2 ^ 28)
    let r := packet 4 .admitting 0
    let g : Region := { region0 with admitq := [4] }
    let j : Job := { id := 5 }
    let of' (p : Pkt) : State :=
      { held p with regions := [g], plat := { platform with jobs := [j], members := [{ job := 5, packages := [0, 6] }] } }
    (of' p).regionAt 0 = some g ∧ (of' p).admitHead g = some p ∧ p.typ ≠ 4 ∧ (of' r).admitHead g = some r ∧ r.typ = 4 ∧
    (of' p).regionAt p.rhome = some g ∧ p.gang = none ∧ g.armedCid p.cid = some 0 ∧ g.cores.Nodup ∧
    (∀ k ∈ g.cores, ((of' p).seatsOn k).length + 1 ≤ Config.seats) ∧ ((of' p).job? (jobKey p.tenant p.job)).isSome = true ∧
    (of' p).tdispOf p.tenant = .run ∧ (of' p).listed p.tenant p.job = true := by
  decide +kernel

theorem witness_LaunchPacketsAdvance_build :
    let r := { packet 0 .translating 0 with ctx := 1 }
    let p := { r with walked := [(12, 0, .leaf 0xE000000000003000 (2 ^ 30) 0xFFF)] }
    let q := { p with gang := some 4 }
    let pool (s : State) : State := { s with disp := { s.disp with pools := [(0, 0x40000000, 0x40000000)] } }
    (held r).pkt? 4 = some r ∧ r.state = .translating ∧ r.gang = none ∧ r.toWalk = some (12, 0) ∧
    (held p).pkt? 4 = some p ∧ p.state = .translating ∧ p.gang = none ∧ p.toWalk = none ∧ (held q).pkt? 4 = some q ∧ q.gang = some q.no ∧
    (∃ t, (pool (held p)).translateAll [p] = .ok t) ∧ (∃ st, (held p).translateAll [p] = .error st) := by
  dsimp only
  and_intros <;> first | decide +kernel | (apply exists_ok; decide +kernel) | (apply exists_error; decide +kernel)

theorem witness_LaunchPacketsAdvance_inject :
    let p := { packet 0 .placing 0 with ctx := 1 }
    let s := held p
    s.pkt? 4 = some p ∧ s.ctx? p.ctx = some ctx0 ∧ p.state = .placing ∧ ctx0.mode = .running ∧ (s.instances ctx0)[p.injected]? = some 0 ∧
    (∀ b ∈ s.fixedBlocks ctx0, ∃ f ∈ ctx0.fixed, f.1 = b ∧ f.2.1 = 0) ∧ s.argCore ctx0 0 = none := by
  decide +kernel

/-- A graph whose in-port 0 takes a new frame of block 0: an instance takes argument word 0. -/
theorem witness_LaunchPacketsAdvance_argument :
    let p := { packet 0 .placing 0 with ctx := 1 }
    let g : Region := { region0 with slots := [{ slot0 with inports := [0x40080000000] }, {}, {}, {}] }
    let v : Req := { kind := .visit .arg, disp := some (4, 0, 0) }
    let s (rs : List Req) : State := { held p with regions := [g], ms := { reqs := rs } }
    (s []).pkt? 4 = some p ∧ (s []).ctx? p.ctx = some ctx0 ∧ ((s []).instances ctx0)[p.injected]? = some 0 ∧
    (∀ b ∈ (s []).fixedBlocks ctx0, ∃ f ∈ ctx0.fixed, f.1 = b ∧ f.2.1 = 0) ∧ (s []).argCore ctx0 0 = some 0 ∧
    (s []).visitOf .arg (some (4, 0, 0)) = none ∧ (s [v]).visitOf .arg (some (4, 0, 0)) = some v ∧ v.done = false ∧
    (s [{ v with done := true }]).visitOf .arg (some (4, 0, 0)) = some { v with done := true } := by
  decide +kernel

theorem witness_OtherPackets :
    let z (p : Pkt) : Pkt := { p with bytes := p.bytes ++ List.replicate 224 0 }
    let bad := z (packet 3 .checked 2)
    let ok (t x : Nat) : Pkt := z (packet t .checked x)
    let met (t x : Nat) : Pkt := { z (packet t .waiting x) with met0 := true, met1 := true }
    let to' (act ctx : Nat) : Nat := act * 2 ^ 110 + ctx * 2 ^ 112
    let load := { met 2 0 with state := .running }
    let visit : Req := { kind := .visit (.load 1), disp := some (4, 0, 0) }
    let saved : Ctx := { ctx0 with mode := .saved }
    let s := { held (met 4 (to' 0 1)) with ctxs := [saved] }
    (held bad).pkt? 4 = some bad ∧ bad.gang = none ∧ bad.typ = 3 ∧ bad.state = .checked ∧ bad.rowOne = false ∧
    (ok 2 0).rowOne = true ∧ (ok 3 0).rowOne = true ∧ (ok 4 (to' 0 1)).rowOne = true ∧ (ok 4 (to' 1 1)).rowOne = true ∧
    (ok 4 (to' 2 1)).rowOne = true ∧ (held (ok 4 (to' 0 1))).ctx? (ok 4 (to' 0 1)).tctx = some ctx0 ∧
    (met 2 0).state = .waiting ∧ (met 2 0).met0 = true ∧ (met 2 0).met1 = true ∧ load.typ = 2 ∧ load.state = .running ∧
    load.word = 0 ∧ { load with word := 5 }.word ≠ 0 ∧ (held load).loadVisit load = none ∧
    { held load with ms := { reqs := [visit] } }.loadVisit load = some (1, visit) ∧ visit.done = false ∧
    { held load with ms := { reqs := [{ visit with done := true }] } }.loadVisit load = some (1, { visit with done := true }) ∧
    (met 4 (to' 0 1)).action = 0 ∧ (met 4 (to' 1 1)).action = 1 ∧ (met 4 (to' 2 1)).action = 2 ∧
    s.ctx? (met 4 (to' 0 1)).tctx = some saved ∧ saved.mode = .saved ∧ (held (met 4 (to' 0 1))).placed ctx0 = true ∧
    (held (met 4 (to' 0 1))).asked ctx0.id 0 = none ∧ (held (met 4 (to' 1 1))).asked ctx0.id 1 = none ∧
    (held (met 4 (to' 0 1))).poolFind ctx0.tenant 4096 [] = none ∧ (held (met 4 (to' 0 9))).ctx? (met 4 (to' 0 9)).tctx = none := by
  decide +kernel

/-- A save pool of just the bytes of one area. -/
theorem pool_fresh (s : State) (t n : Nat) (h : s.disp.pools.find? (fun p => p.1 == t) = some (t, 0, n))
    (u : (s.ctxs.filter fun c => c.tenant == t).flatMap Ctx.held = []) : s.poolFind t n [] = some 0 := by
  have e : ceilDiv 0 0x200000 * 0x200000 = 0 := by decide
  simp only [State.poolFind, h, u, e, List.append_nil, List.map_nil, List.all_nil, Bool.and_true, Nat.zero_add, Nat.le_refl, decide_true,
    List.filter_cons_of_pos, List.filter_nil, List.foldl_nil]

theorem witness_OtherPackets_pool :
    let s : State := { ready with disp := { pools := [(0, 0, Config.saveBytes 1)] } }
    s.poolFind ctx0.tenant (Config.saveBytes ctx0.seats.length) [] = some 0 :=
  pool_fresh _ _ _ rfl rfl

/-- A job of tenant 0 with every right. -/
def job (st : JobState) : Job := { id := 0, rights := 15, state := st }

def jobs (j : Job) (c : Ctx) : State := { traps c with plat := { platform with jobs := [j] } }

theorem witness_DebugCommands :
    let s := jobs (job .running) ctx0
    let t := jobs { job .running with rights := 0 } ctx0
    let u := jobs (job .halted) ctx0
    s.job? 1 = none ∧ 8 ≤ 8 ∧ 7 < 8 ∧ bf (3 : Word).toNat 2 46 = 0 ∧ Config.cores ≤ 256 ∧ 1026 < 1027 ∧ 1026 ≤ 1026 ∧
    s.job? 0 = some (job .running) ∧ bf (job .running).rights 3 1 = 1 ∧ bf (job .running).rights 2 1 = 1 ∧ bf (job .running).rights 1 1 = 1 ∧
    255 < Config.cores ∧ t.job? 0 = some { job .running with rights := 0 } ∧ bf { job .running with rights := 0 }.rights 3 1 = 0 ∧
    bf { job .running with rights := 0 }.rights 2 1 = 0 ∧ (job .running).state ≠ .halted ∧ u.job? 0 = some (job .halted) ∧
    (job .halted).state ≠ .running ∧ (job .halted).state = .halted := by
  decide +kernel

theorem witness_DebugCommands_step :
    let q := { arrival with held := false }
    let c : Ctx := { ctx0 with mode := .frozen }
    let s := (jobs (job .halted) c).modTok 0 fun u => { u with fifo1 := [q] }
    let j := { job .stepping with step := true }
    let t := jobs j c
    s.job? 0 = some (job .halted) ∧
    s.stepPick 0 0 (fun l => l.find? fun q => q.frame == 3 && q.instr == 1 && s.stepReady 0 0 q) = some (1, q) ∧
    s.stepPick 0 0 (fun l => (l.take 8).find? fun q => s.stepReady 0 0 q) = some (1, q) ∧
    (jobs (job .halted) c).stepPick 0 0 (fun l => (l.take 8).find? fun q => s.stepReady 0 0 q) = none ∧
    (job .halted).step = false ∧ t.job? 0 = some j ∧ j.step = true ∧ j.state = .stepping ∧ t.stepWaits 0 = false := by
  decide +kernel

theorem witness_CairnMessages :
    let s (st : JobState) : State := { jobs (job st) ctx0 with gtc := 1000 }
    let m (j : Job) : State := { jobs j ctx0 with
      wall := 12000, plat := { platform with jobs := [j], members := [{ packages := [0, 6] }] } }
    let armed := { job .armed with resumeAt := 1000 }
    let halting := { job .halting with since := 2000 }
    (s .halted).job? 0 = some (job .halted) ∧ bf (job .halted).rights 3 1 = 1 ∧ (job .halted).state = .halted ∧ (s .halted).plat.l2pPending = 0 ∧
    (s .halted).gtc + 2000 ≤ 3000 ∧ 2999 < (s .halted).gtc + 2000 ∧ (job .running).state ≠ .halted ∧
    { s .halted with plat := { platform with l2pPending := 1 } }.plat.l2pPending ≠ 0 ∧
    armed.state = .armed ∧ { s .armed with gtc := 999 }.gtc < armed.resumeAt ∧ (job .halted).state ≠ .armed ∧
    armed.resumeAt ≤ (s .armed).gtc ∧ (job .running).state = .running ∧ (m halting).hasSession 0 = false ∧
    { m halting with plat := { platform with spdm := [{ peer := 1, session := 2 }] } }.hasSession 0 = true ∧ (m halting).job? 0 = some halting ∧ 6 ∈ (m halting).peers 0 ∧
    7 ∉ (m halting).peers 0 ∧ halting.state = .halting ∧ 6 ∉ halting.reported ∧ halting.since + 10000 ≤ (m halting).wall ∧
    { m halting with wall := 11999 }.wall < halting.since + 10000 ∧ bf 7 3 1 = 0 := by
  decide +kernel

theorem witness_EarliestCauseWins :
    (job .running).hasDom = false ∧ ([((0 : Word), (5 : Word)), (2 ^ 52, 5), (3 * 2 ^ 52, 4)] : List (Word × Word)) ≠ [] := by
  decide +kernel

theorem witness_TranslationService :
    let w (va : Nat) : Walk := { die := 0, tenant := 0, va := va }
    let s (va : Nat) : State := { ready with ms := { mem := tables, walks := [w va] } }
    let bad : State := { ready with ms := { mem := (0x10002, 1) :: tables, walks := [w 0] } }
    let f : FaultRec := { seq := some 2, va := 0x1000, die := 0 }
    let x := { w 0x1000 with faulted := true }
    let t : State := { ready with ms := { mem := tables, walks := [x] }, plat := { platform with vfs := [{}, { tdisp := .run, faults := [f] }] } }
    ((s 0).ms.walks.filter fun w => !w.faulted)[0]? = some (w 0) ∧
    (((s 0).ms.walks.filter fun x => !x.faulted && x.die == (w 0).die).takeWhile fun x => x != w 0).length < 16 ∧
    ((s 0).walkOn false 0 0 (w 0).pos).1 = .inl { left := 3, table := some 0x11000 } ∧
    ((s 0).walkOn false 0 0 { left := 3, table := some 0x11000 }).1 = .inr (.leaf 0xE000000000003000 (2 ^ 30) 0xFFF) ∧
    ((s 0x8000000000).walkOn false 0 0x8000000000 (w 0x8000000000).pos).1 = .inr .absent ∧
    ({ s 0 with ms := { (s 0).ms with errs := [(0x10000 / 32, 2)] } }.walkOn false 0 0 (w 0).pos).1 = .inr (.failed stDataUe) ∧
    t.plat.boot = .ready ∧ (t.plat.vfs.getD 1 {}).tdisp ≠ .error ∧ ((t.plat.vfs.getD 1 {}).faults.find? fun r => r.seq == some (2 : BitVec 32).toNat) = some f ∧
    (t.ms.walks.find? fun w => w.faulted && w.die == f.die && w.tenant + 1 == 1 && w.va == f.va) = some x ∧
    (∀ x ∈ (s 0).ms.invals, ¬ (x.tenant = 0 ∧ x.va = 0 ∧ x.len = 4096)) ∧ (s 0).runsIn 0 0 4096 = [] ∧
    ({ bad with ms := { bad.ms with mem := (0x10000, 1) :: tables } }.walkOn false 0 0 (w 0).pos).1 = .inr .malformed := by
  decide +kernel

/-- Tables with one leaf of 2 MiB, at local address 0x200000, for virtual address 0. -/
def small : List Host.Cell :=
  [(0x10001, 0xF0), (0x10003, 0x11), (0x10007, 0x80), (0x11001, 0xF0), (0x11003, 0x12), (0x11007, 0x80), (0x12001, 0x20), (0x12002, 0x02),
    (0x12007, 0xE0)]

theorem witness_TranslationService_migrate :
    let s : State := { ready with ms := { mem := small, freePages := [0x80000000000] } }
    let leaf := 0xE000000000022000
    s.walk 0 0 = .leaf leaf (2 ^ 21) 0xFFF ∧ s.tenant? 0 = some tenant0 ∧ s.leafEntry 0 4 tenant0.root = some 0x12000 ∧ leafHost leaf = false ∧
    0x80000000000 % 2 ^ 21 = 0 ∧ s.localOk 0x80000000000 = true ∧ leafAddr leaf < hbmTop ∧ tier2Base ≤ 0x80000000000 ∧
    0x80000000000 ∈ s.ms.freePages ∧ s.pageNamed (leafAddr leaf) = false ∧ s.pageQuiet (leafAddr leaf) = true := by
  decide +kernel

theorem witness_HostWindowAccesses :
    let open' : Word := 0xE000000000000000
    let s : State := { ready with plat := { platform with vfs := [{}, { tdisp := .run, windows := [open', open', 0, 0] }] } }
    let f := s.plat.vfs.getD 1 {}
    let w := f.windows.getD (0 / 2 ^ 30) 0
    let bad : Req := { status := 5 }
    1 ≠ 0 ∧ s.plat.boot = .ready ∧ f.tdisp = .run ∧ 8 ∈ [1, 2, 4, 8] ∧ 0x40 % 8 = 0 ∧ 0x40 < 2 ^ 32 ∧ w.getLsbD 63 = true ∧
    w.getLsbD 61 = true ∧ w.getLsbD 62 = true ∧ (f.windows.getD (3 * 2 ^ 30 / 2 ^ 30) 0).getLsbD 63 = false ∧
    ({} : Req).status = 0 ∧ bad.status ≠ 0 ∧ State.reset.plat.boot ≠ .ready := by
  decide +kernel

theorem witness_PlatformEvents :
    let d : Die := { ces := List.replicate 16 (0, true, false) }
    let old : Die := { ces := [(1000000, true, false)] ++ List.replicate 15 (0, true, false) }
    let s : State := { ready with plat := { platform with dies := [d] }, wall := 999999 }
    let legal (mhz fire row : Nat) : Prop := mhz % 100 = 0 ∧ 200 ≤ mhz ∧ mhz ≤ 1100 ∧ 1 ≤ fire ∧ fire ≤ 16 ∧ row ≤ 16
    let p : RidgePort := { up := true, session := 1, aged := 2 ^ 32, retries := some (0, 1000001) }
    s.plat.dies[0]? = some d ∧ legal 1100 16 16 ∧ legal 200 1 0 ∧ ¬ legal 1200 16 16 ∧ ¬ legal 1100 17 16 ∧ (∀ c ∈ s.ctxs, c.regs.trace = 0) ∧
    (∃ e ∈ d.ces, e.2.2 = false ∧ d.guard ≤ (d.ces.filter fun x => !x.2.2 && decide (x.1 ≤ e.1) && decide (e.1 < x.1 + 1000000)).length) ∧
    (¬ ∃ e ∈ old.ces, e.2.2 = false ∧
      old.guard ≤ (old.ces.filter fun x => !x.2.2 && decide (x.1 ≤ e.1) && decide (e.1 < x.1 + 1000000)).length) ∧ old.guard ≠ 0 ∧
    3200 ≤ s.plat.limit ∧ s.plat.limit < 3201 ∧ d.sameClk 1000 = false ∧ p.session ≠ 0 ∧ 2 ^ 32 ≤ p.aged ∧ ({} : RidgePort).aged < 2 ^ 32 ∧
    s.plat.gtcLast ≠ some 1001 ∧ { platform with gtcLast := some 1001 }.gtcLast = some 1001 ∧
    ready.plat.ports[17]? = some { up := false } ∧ ({ up := false } : RidgePort).up = false ∧ ({ up := false } : RidgePort).retries = none ∧ p.up = true ∧
    p.retries = some (0, 1000001) ∧ 0 + 1000000 < 1000001 ∧ s.plat.master = false ∧ { platform with master := true }.master = true ∧
    s.gtc + 1000 < 1001 ∧ 1000 ≤ s.gtc + 1000 := by
  decide +kernel

theorem witness_ResetAndBringUp :
    let images : List (Nat × Nat × Bool) := [(1, 5, true), (0, 6, true), (0, 7, true), (0, 8, true)]
    State.reset.plat.boot = .reset ∧ { platform with boot := .rom }.boot = .rom ∧ { platform with boot := .hbm }.boot = .hbm ∧
    { platform with boot := .repair }.boot = .repair ∧ ready.plat.boot = .ready ∧ { platform with boot := .fail }.boot = .fail ∧
    images.length = 4 ∧ (∀ x ∈ images.zip platform.fuses, x.1.2.2 = true ∧ x.2 ≤ x.1.1) ∧
    (¬ ∀ x ∈ images.zip [2, 0, 0, 0], x.1.2.2 = true ∧ x.2 ≤ x.1.1) ∧ 4 % 2 ^ 18 ≠ 0 ∧ 2 ^ 18 % 2 ^ 18 = 0 ∧
    platform.ports[17]? = some { up := false } := by
  decide +kernel

theorem witness_TenantsAndTables :
    let s : State := { cores := [{}, { failed := true }], plat := platform }
    15 < 16 ∧ (s.tenant? 0).isSome = true ∧ 0 < Config.cores ∧ 0 < s.cores.length ∧ (s.core 0).failed = false ∧ s.idleCore 0 = true ∧
    (s.core 1).failed = true ∧ s.tenant? 15 = none ∧ s.plat.boot = .ready ∧ (∀ c ∈ s.ctxs, ∀ k ∈ c.seats, k.1 ≠ 0) ∧
    s.tenant? 0 = some tenant0 ∧ 4095 < 4096 ∧ 1 ≠ 0 ∧ s.plat.vfs[1]? = some { tdisp := .run } := by
  decide +kernel

theorem witness_AttestationRequests :
    let s (c : Spdm) : State := { ready with plat := { platform with spdm := [c] } }
    (ready.spdm 0).phase < 1 ∧ ((s { phase := 1 }).spdm 0).phase < 2 ∧ 1 ≤ ((s { phase := 1 }).spdm 0).phase ∧
    ((s { phase := 2 }).spdm 0).phase < 3 ∧ 2 ≤ ((s { phase := 2 }).spdm 0).phase ∧ 3 ≤ ((s { phase := 3 }).spdm 0).phase ∧
    ((s { phase := 3 }).spdm 0).tenant = none ∧ ((s { session := 1 }).spdm 0).session = 1 ∧ ((s { session := 2 }).spdm 0).session = 2 := by
  decide +kernel

theorem witness_ResetState :
    let site : Site := { core := 255, ctx := 1 }
    site.core < 256 ∧ (traps ctx0).ctx? site.ctx = some ctx0 ∧ ctx0.regs = {} := by
  decide +kernel

/-- Memory in canonical form with a byte written: an idle turn answers a next state. -/
theorem witness_MemoryStaysCanonical :
    Safety.MemInv ready ∧ step ready = .next (ready.advance 1000) := by
  refine ⟨by simp only [Safety.MemInv]; decide +kernel, rfl⟩

/-- A core whose one queued token completes the match at node 1, one whose token finds its slot taken, and one whose token parks. -/
theorem witness_StepRunsTheDecodedInstruction :
    let q := { arrival with port := 0 }
    let f (pres : Nat) : Frame := { frame0 with slots := [{ tok := num 3, pres := pres }, {}] }
    let s (pres : Nat) : State :=
      { traps ctx0 with cores := [{ core1 with tok := { fifo1 := [q] }, frm := { frames := [f pres] } }], agenda := [{ act := .select 0 [] }] }
    let u (pres : Nat) : State := { s pres with agenda := [] }.advance 0
    (u 2).pick 0 [] = some (1, q) ∧ (u 2).frame? 0 q.frame = some (f 2) ∧ completes ((u 2).targetWord 0 q).ar 2 q.port = true ∧
    bf 2 q.port 1 = 0 ∧ (u 2).earlier 0 q = false ∧ (u 0).earlier 0 q = false ∧ ((u 2).core 0).codeUe = [] ∧ (u 2).countFired 0 = u 2 ∧
    (∀ k ∈ State.wordsRead ((u 2).core 0) q ((u 2).targetWord 0 q) ((u 2).operands 0 q 2 0), k ∉ ((u 2).core 0).codeUe) ∧
    decodeWord (((u 2).core 0).word q.cslot q.block q.instr) =
      .ok (.add { slot := 0, ty := .s32, d0 := .out 0, d1 := .none, d2 := .none, hist := false, trcf := false }) ∧
    2 ≤ ((u 2).targetWord 0 q).ar ∧ (u 1).pick 0 [] = some (1, q) ∧ ¬ (bf 1 q.port 1 = 0 ∧ (u 1).earlier 0 q = false) ∧ (u 0).pick 0 [] = some (1, q) ∧ bf 0 q.port 1 = 0 ∧
    completes ((u 0).targetWord 0 q).ar 0 q.port = false ∧ ({ s 2 with agenda := [] } : State).agenda = [] ∧
    (u 2).pick 1 [] = none ∧ (encode (.packetRead)).isNone = true ∧ (Instr.packetRead).wellFormed = true := by
  dsimp only
  and_intros <;> first | decide +kernel | rfl

theorem witness_DecodeOfEncode :
    let i : Instr := .addImm { par .s32 with d0 := .node 2 .l, d1 := .node 3 .r } 5
    i.wellFormed = true ∧ encode i = some 0x20200500821068000000000500000000 := by
  decide +kernel

theorem witness_EveryWordHasOneMeaning :
    decodeWord 0x20200500821068000000000500000000 = .ok (.addImm { par .s32 with d0 := .node 2 .l, d1 := .node 3 .r } 5) := by
  with_unfolding_all rfl

theorem witness_ScalarResultsChangeNothingElse :
    let s := firing (num 7) (num 5) (num 2)
    (∀ x ∈ [s.cur.l], x.kind ≠ kTile) ∧ s.traced s.cur.site (par .s32).trcf = false ∧
    exec (.abs (par .s32)) s = .next (s.finish (par .s32) latScalar (spread (par .s32) (scalarTok s.cur.site 7)) [s.cur.l]) := by
  refine ⟨by decide +kernel, by decide +kernel, ?_⟩
  with_unfolding_all rfl

/-! ## Words written out from the encoding tables (R23 to R43)

A word is OPC, AR, SLOT, TY, IMMR, MOD, D0, D1, D2 in its high half and IMM, AUX, HIST, TRC and zeros in its low half. -/

/-- The parameters that the words below share: HIST set, TRC clear, and D0 to D2 as the form lets them be. -/
def wAny (ty : Ty) (slot : BitVec 8) : Par :=
  { slot := slot, ty := ty, d0 := .node 1 .r, d1 := .out 2, d2 := .node 127 .l, hist := true, trcf := false }

def wTwo (ty : Ty) (slot : BitVec 8) : Par := { wAny ty slot with d2 := .none }

def wOne (ty : Ty) (slot : BitVec 8) : Par := { wAny ty slot with d1 := .none, d2 := .none }

def wNone (ty : Ty) (slot : BitVec 8) : Par := { wAny ty slot with d0 := .none, d1 := .none, d2 := .none }

def wOut (ty : Ty) (slot : BitVec 8) : Par := { wNone ty slot with d0 := .out 0 }

/-- Each word decodes to its instruction. -/
def decodes (l : List (Nat × Instr)) : Bool := l.all fun x => match decodeWord (BitVec.ofNat 128 x.1) with
  | .ok i => i == x.2
  | .error _ => false

theorem test_words_graph1 : decodes
    [(0x00A01E00816083FC0000000000008000, .pass (wAny .none 0)),
     (0x01200602816083FC1234567800008000, .const (wAny .s64 0) true 0x12345678),
     (0x01C0A402816080000000000000008000, .steer (wTwo .s32 5) true),
     (0x01A00502816080001234567800008000, .steerImm (wTwo .s32 0) true 0x12345678),
     (0x0240BE00816083FC0000000000008000, .gate (wAny .none 5)),
     (0x02201F00816083FC1234567800008000, .gateImm (wAny .none 0) 0x12345678),
     (0x02C0A400814000000000000000218000, .disp (wOne .s32 5) 33),
     (0x02A00500814000001234567800218000, .dispImm (wOne .s32 0) 33 0x12345678),
     (0x0340BE02816083FC0000000000008000, .join (wAny .none 5) .r),
     (0x0360BE04816083FC0000000000008000, .join3 (wAny .none 5) .c),
     (0x03201F02816083FC1234567800008000, .joinImm (wAny .none 0) .r 0x12345678),
     (0x0340BF02816083FC1234567800008000, .join3Imm (wAny .none 5) .r 0x12345678),
     (0x03C0BE00814000000000000000008000, .cntn (wOne .none 5)),
     (0x04201E04816083FC0000000082A18000, .fnew (wAny .none 0) .least 65 .r 33),
     (0x0440BE02816083FC0000000082A18000, .fnewNamed (wAny .none 5) .named 65 .r 33),
     (0x04201F02816083FC1234567882A18000, .fnewNamedImm (wAny .none 0) .named 65 .r 33 0x12345678),
     (0x04C0BE00814000000000000082808000, .sendf (wOne .none 5) 65 .r),
     (0x05201E00816083FC0000000082808000, .mkcont (wAny .none 0) 65 .r),
     (0x05A01E00816083FC0000000082A18000, .iter (wAny .none 0) false 65 .r 33),
     (0x05C0BE00816083FC0000000082218000, .iter2 (wAny .none 5) false 65 .l 33)] = true := by decide +kernel

theorem test_words_graph2 : decodes
    [(0x05A01F00816083FC1234567882218000, .iter2Imm (wAny .none 0) false 65 .l 33 0x12345678),
     (0x06201E01000000000000000000008000, .exit (wOut .none 0)),
     (0x06A01E00816083FC0000000000818000, .fset (wAny .none 0) 129),
     (0x07201E00816083FC0000000000818000, .fget (wAny .none 0) 129),
     (0x07A01E00816083FC0000000000008000, .iseos (wAny .none 0)),
     (0x08201E00816083FC0000000000008000, .mkeos (wAny .none 0)),
     (0x08C0BE00814000000000000000818000, .send (wOne .none 5) 129),
     (0x08A01F00814000001234567800818000, .sendImm (wOne .none 0) 129 0x12345678),
     (0x09201E00816083FC0000000000098000, .phopen (wAny .none 0) 9),
     (0x09A01E00816083FC0000000000098000, .phclose (wAny .none 0) 9),
     (0x0A201E02816083FC0000000000008000, .self (wAny .none 0) .core),
     (0x0AA01E02816083FC0000000000058000, .level (wAny .none 0) true 5)] = true := by decide +kernel

theorem test_words_integer1 : decodes
    [(0x2040A400816083FC0000000000008000, .add (wAny .s32 5)),
     (0x20200500816083FC1234567800008000, .addImm (wAny .s32 0) 0x12345678),
     (0x20C0A400816083FC0000000000008000, .sub (wAny .s32 5)),
     (0x20A00500816083FC1234567800008000, .subImm (wAny .s32 0) 0x12345678),
     (0x2140A400816083FC0000000000008000, .mul (wAny .s32 5)),
     (0x21200500816083FC1234567800008000, .mulImm (wAny .s32 0) 0x12345678),
     (0x21C0A400816083FC0000000000008000, .mulh (wAny .s32 5)),
     (0x21A00500816083FC1234567800008000, .mulhImm (wAny .s32 0) 0x12345678),
     (0x2240A400816083FC0000000000008000, .div (wAny .s32 5)),
     (0x22200500816083FC1234567800008000, .divImm (wAny .s32 0) 0x12345678),
     (0x22C0A400816083FC0000000000008000, .rem (wAny .s32 5)),
     (0x22A00500816083FC1234567800008000, .remImm (wAny .s32 0) 0x12345678),
     (0x2340A400816083FC0000000000008000, .and (wAny .s32 5)),
     (0x23200500816083FC1234567800008000, .andImm (wAny .s32 0) 0x12345678),
     (0x23C0A400816083FC0000000000008000, .or (wAny .s32 5)),
     (0x23A00500816083FC1234567800008000, .orImm (wAny .s32 0) 0x12345678),
     (0x2440A400816083FC0000000000008000, .xor (wAny .s32 5)),
     (0x24200500816083FC1234567800008000, .xorImm (wAny .s32 0) 0x12345678),
     (0x24C0A400816083FC0000000000008000, .andn (wAny .s32 5)),
     (0x24A00500816083FC1234567800008000, .andnImm (wAny .s32 0) 0x12345678)] = true := by decide +kernel

theorem test_words_integer2 : decodes
    [(0x2540A400816083FC0000000000008000, .shl (wAny .s32 5)),
     (0x25200500816083FC1234567800008000, .shlImm (wAny .s32 0) 0x12345678),
     (0x25C0A400816083FC0000000000008000, .shr (wAny .s32 5)),
     (0x25A00500816083FC1234567800008000, .shrImm (wAny .s32 0) 0x12345678),
     (0x2640A400816083FC0000000000008000, .sar (wAny .s32 5)),
     (0x26200500816083FC1234567800008000, .sarImm (wAny .s32 0) 0x12345678),
     (0x26C0A400816083FC0000000000008000, .rol (wAny .s32 5)),
     (0x26A00500816083FC1234567800008000, .rolImm (wAny .s32 0) 0x12345678),
     (0x2740A400816083FC0000000000008000, .min (wAny .s32 5)),
     (0x27200500816083FC1234567800008000, .minImm (wAny .s32 0) 0x12345678),
     (0x27C0A400816083FC0000000000008000, .max (wAny .s32 5)),
     (0x27A00500816083FC1234567800008000, .maxImm (wAny .s32 0) 0x12345678),
     (0x28200400816083FC0000000000008000, .abs (wAny .s32 0)),
     (0x28A00400816083FC0000000000008000, .neg (wAny .s32 0)),
     (0x29200400816083FC0000000000008000, .clz (wAny .s32 0)),
     (0x29A00400816083FC0000000000008000, .ctz (wAny .s32 0)),
     (0x2A200400816083FC0000000000008000, .popc (wAny .s32 0)),
     (0x2AC0A402816083FC0000000000008000, .cmp (wAny .s32 5) .ne),
     (0x2AA00502816083FC1234567800008000, .cmpImm (wAny .s32 0) .ne 0x12345678),
     (0x2B60A400816083FC0000000000008000, .sel (wAny .s32 5))] = true := by decide +kernel

theorem test_words_integer3 : decodes
    [(0x2B40A500816083FC1234567800008000, .selImm (wAny .s32 5) 0x12345678),
     (0x2BC0AE00816083FC0000000000008000, .ext (wAny .z64 5)),
     (0x2BA00F00816083FC1234567800008000, .extImm (wAny .z64 0) 0x12345678),
     (0x2C60AE00816083FC0000000000008000, .ins (wAny .z64 5)),
     (0x2C40AF00816083FC1234567800008000, .insImm (wAny .z64 5) 0x12345678),
     (0x2CE0A400816083FC0000000000008000, .mad (wAny .s32 5)),
     (0x2CC0A500816083FC1234567800008000, .madImm (wAny .s32 5) 0x12345678),
     (0x2D40A400816083FC0000000000008000, .adds (wAny .s32 5)),
     (0x2D200500816083FC1234567800008000, .addsImm (wAny .s32 0) 0x12345678),
     (0x2DC0A400816083FC0000000000008000, .subs (wAny .s32 5)),
     (0x2DA00500816083FC1234567800008000, .subsImm (wAny .s32 0) 0x12345678)] = true := by decide +kernel

theorem test_words_float1 : decodes
    [(0x4040B202816083FC0000000000008000, .fadd (wAny .bf16 5) .rtz),
     (0x40201302816083FC1234567800008000, .faddImm (wAny .bf16 0) .rtz 0x12345678),
     (0x40C0B202816083FC0000000000008000, .fsub (wAny .bf16 5) .rtz),
     (0x40A01302816083FC1234567800008000, .fsubImm (wAny .bf16 0) .rtz 0x12345678),
     (0x4140B202816083FC0000000000008000, .fmul (wAny .bf16 5) .rtz),
     (0x41201302816083FC1234567800008000, .fmulImm (wAny .bf16 0) .rtz 0x12345678),
     (0x41E0B202816083FC0000000000008000, .ffma (wAny .bf16 5) .rtz),
     (0x41C0B302816083FC1234567800008000, .ffmaImm (wAny .bf16 5) .rtz 0x12345678),
     (0x4240B202816083FC0000000000008000, .fdiv (wAny .bf16 5) .rtz),
     (0x42201302816083FC1234567800008000, .fdivImm (wAny .bf16 0) .rtz 0x12345678),
     (0x42A01202816083FC0000000000008000, .fsqrt (wAny .bf16 0) .rtz),
     (0x43201202816083FC0000000000008000, .frcp (wAny .bf16 0) .rtz),
     (0x43A01202816083FC0000000000008000, .frsq (wAny .bf16 0) .rtz),
     (0x4440B200816083FC0000000000008000, .fmin (wAny .bf16 5)),
     (0x44201300816083FC1234567800008000, .fminImm (wAny .bf16 0) 0x12345678),
     (0x44C0B200816083FC0000000000008000, .fmax (wAny .bf16 5)),
     (0x44A01300816083FC1234567800008000, .fmaxImm (wAny .bf16 0) 0x12345678),
     (0x45201200816083FC0000000000008000, .fabs (wAny .bf16 0)),
     (0x45A01200816083FC0000000000008000, .fneg (wAny .bf16 0)),
     (0x4640B202816083FC0000000000008000, .fcmp (wAny .bf16 5) .ne)] = true := by decide +kernel

theorem test_words_float2 : decodes
    [(0x46201302816083FC1234567800008000, .fcmpImm (wAny .bf16 0) .ne 0x12345678),
     (0x46A01200816083FC0000000000008000, .fclass (wAny .bf16 0)),
     (0x4720120A816083FC00000000000A8000, .fcvt (wAny .bf16 0) .rtz true .f16),
     (0x47A01202816083FC0000000000058000, .ftoi (wAny .bf16 0) .rtz .z16),
     (0x4820040A816083FC00000000000A8000, .itof (wAny .s32 0) .rtz true .f16),
     (0x48A01202816083FC0000000000008000, .frnd (wAny .bf16 0) .rtz),
     (0x4940B202816083FC0000000000008000, .fldx (wAny .bf16 5) .rtz),
     (0x49201302816083FC1234567800008000, .fldxImm (wAny .bf16 0) .rtz 0x12345678),
     (0x49A01200816083FC0000000000008000, .fgetx (wAny .bf16 0)),
     (0x4A201200816083FC0000000000008000, .fexp2f (wAny .bf16 0))] = true := by decide +kernel

theorem test_words_tile1 : decodes
    [(0x60201604816083FC0004000400018000, .talloc (wAny .e4m3 0) false true .g1 4 32),
     (0x60A01E00816083FC0000000000008000, .tref (wAny .none 0)),
     (0x61201E00816083FC0000000000008000, .tdrop (wAny .none 0)),
     (0x61C0BE00816083FC0000000000008000, .tview (wAny .none 5)),
     (0x61A01F00816083FC1234567800008000, .tviewImm (wAny .none 0) 0x12345678),
     (0x62201E02816080000000000000008000, .tinfo (wTwo .none 0) .pbytes),
     (0x62C0B600816083FC0000000000008000, .tfill (wAny .e4m3 5)),
     (0x62A01700816083FC1234567800008000, .tfillImm (wAny .e4m3 0) 0x12345678),
     (0x63201E02816083FC0000000000008000, .tcopy (wAny .none 0) true),
     (0x6340BE00816083FC0000000000008000, .tcopyInto (wAny .none 5)),
     (0x63A01E00816083FC0000000000008000, .ttran (wAny .none 0)),
     (0x6440B200816080000000000000008000, .tget (wTwo .bf16 5) .elem),
     (0x64201300816080001234567800008000, .tgetImm (wTwo .bf16 0) .elem 0x12345678),
     (0x64E0B200816083FC0000000000008000, .tset (wAny .bf16 5) .elem),
     (0x64C0B300816083FC1234567800008000, .tsetImm (wAny .bf16 5) .elem 0x12345678),
     (0x65201E00816083FC0000000000098000, .vrunA (wAny .none 0) 9),
     (0x6540BE02816083FC0000000000098000, .vrunAb (wAny .none 5) 9),
     (0x6540BE04816083FC0000000000098000, .vrunAo (wAny .none 5) 9),
     (0x6560BE06816083FC0000000000098000, .vrunAbo (wAny .none 5) 9),
     (0x65A01E00816083FC0000000000098000, .vruns (wAny .none 0) 9)] = true := by decide +kernel

theorem test_words_tile2 : decodes
    [(0x65C0BE00816083FC0000000000098000, .vruns2 (wAny .none 5) 9),
     (0x66201E00816080000000000000008000, .vstat (wTwo .none 0))] = true := by decide +kernel

theorem test_words_matrix1 : decodes
    [(0x80201600816083FC0000800190138000, .wld (wAny .e4m3 0) .dense 9 .g1 3 32769),
     (0x80A01E00816083FC0000000000038000, .wfree (wAny .none 0) 3),
     (0x8140BE06816083FC2031800181038000, .mma (wAny .none 5) true true 129 3 257 17 32769),
     (0x81C0B00A816083FC0000000000938000, .mmas (wAny .f32 5) .rtz true .bf16 3),
     (0x81A0110A816083FC1234567800938000, .mmasImm (wAny .f32 0) .rtz true .bf16 3 0x12345678),
     (0x8240B034816080000000000000098000, .adrain (wTwo .f32 5) .rtz true true .bf16),
     (0x82201134816080001234567800098000, .adrainImm (wTwo .f32 0) .rtz true true .bf16 0x12345678),
     (0x8260B036816080000000000002198000, .adrainSteer (wTwo .f32 5) .rtz true true 33 .bf16),
     (0x8240B136816080001234567802198000, .adrainSteerImm (wTwo .f32 5) .rtz true true 33 .bf16 0x12345678),
     (0x82A01E00816083FC0000000000008000, .aclr (wAny .none 0)),
     (0x83201E00816083FC0000000000038000, .winfo (wAny .none 0) 3),
     (0x83A01E30816080000000000000008000, .mstat (wTwo .none 0) 8 true)] = true := by decide +kernel

theorem test_words_memory1 : decodes
    [(0xA0200E00816083FC0000000000008000, .ld (wAny .z64 0)),
     (0xA0C0AE00816083FC0000000000008000, .st (wAny .z64 5)),
     (0xA0A00F00816083FC1234567800008000, .stImm (wAny .z64 0) 0x12345678),
     (0xA1201600816083FC0004000480018000, .ldt (wAny .e4m3 0) .g0 32769 4 32),
     (0xA140B602816083FC0004000480018000, .ldtScaled (wAny .e4m3 5) .g1 32769 4 32),
     (0xA1C0BE00816083FC0000000080018000, .stt (wAny .none 5) 32769),
     (0xA1E0BE00816083FC0000000080018000, .sttScaled (wAny .none 5) 32769),
     (0xA2201602816083FC0000000002018000, .copy (wAny .e4m3 0) true 513),
     (0xA240B602816083FC0000000002018000, .copyAddr (wAny .e4m3 5) true 513),
     (0xA2C0BE00816083FC0000000002018000, .gath (wAny .none 5) 513),
     (0xA340BE00816083FC0000000002018000, .scat (wAny .none 5) 513),
     (0xA3C0A402816083FC0000000002018000, .cred (wAny .s32 5) .min 513),
     (0xA4201E00816083FC0000000000058000, .drain (wAny .none 0) 5),
     (0xA4A01E00816083FC0000000080018000, .pfh (wAny .none 0) 32769),
     (0xA540A422816083FC0000000000008000, .aop (wAny .s32 5) .and true),
     (0xA5200522816083FC1234567800008000, .aopImm (wAny .s32 0) .and true 0x12345678),
     (0xA5E0AE20816083FC0000000000008000, .acas (wAny .z64 5) true),
     (0xA5C0AF20816083FC1234567800008000, .acasImm (wAny .z64 5) true 0x12345678),
     (0xA640A402816083FC0000000080018000, .bupd (wAny .s32 5) .min 32769),
     (0xA6E0B200816083FC0000000080018000, .baxpy (wAny .bf16 5) 32769)] = true := by decide +kernel

theorem test_words_memory2 : decodes
    [(0xA6C0B300816083FC1234567880018000, .baxpyImm (wAny .bf16 5) 32769 0x12345678)] = true := by decide +kernel

theorem test_words_synchronisation1 : decodes
    [(0xC2A01E20816083FC0000000000008000, .bara (wAny .none 0) true),
     (0xC2C0BE20816083FC0000000000008000, .baraStatus (wAny .none 5) true),
     (0xC2A01F20816083FC1234567800008000, .baraImm (wAny .none 0) true 0x12345678),
     (0xC340BE00816083FC0000000000008000, .barw (wAny .none 5)),
     (0xC3201F00816083FC1234567800008000, .barwImm (wAny .none 0) 0x12345678),
     (0xC3A01E22816083FC0000000000018000, .acq (wAny .none 0) true true .die),
     (0xC4201E22816083FC0000000000018000, .rel (wAny .none 0) true true .die),
     (0xC040BE00816083FC0000000000098000, .pclm (wAny .none 5) 9),
     (0xC0201F00816083FC1234567800098000, .pclmImm (wAny .none 0) 9 0x12345678),
     (0xC0C0BE00816083FC0000000000098000, .pcmt (wAny .none 5) 9),
     (0xC0A01F00816083FC1234567800098000, .pcmtImm (wAny .none 0) 9 0x12345678),
     (0xC140BE00816083FC0000000000098000, .pawt (wAny .none 5) 9),
     (0xC1201F00816083FC1234567800098000, .pawtImm (wAny .none 0) 9 0x12345678),
     (0xC1C0BE00816083FC0000000000098000, .pret (wAny .none 5) 9),
     (0xC1A01F00816083FC1234567800098000, .pretImm (wAny .none 0) 9 0x12345678),
     (0xC2201E00816083FC0000000000098000, .pinfo (wAny .none 0) 9),
     (0xC4A01E00816083FC0000000000218000, .qput (wAny .none 0) 33),
     (0xC4C0BE00816083FC0000000000218000, .qputArgs (wAny .none 5) 33),
     (0xC5201E00816083FC0000000000008000, .qwait (wAny .none 0)),
     (0xC5A01E00816083FC0000000000038000, .cload (wAny .none 0) 3)] = true := by decide +kernel

theorem test_words_synchronisation2 : decodes
    [(0xC6201E00816083FC0000000000008000, .csel (wAny .none 0)),
     (0xC6A01E00816083FC0000000000038000, .cswt (wAny .none 0) 3),
     (0xC7201E00816083FC0000000000038000, .cfree (wAny .none 0) 3)] = true := by decide +kernel

theorem test_words_system1 : decodes
    [(0xE0201E00816083FC0000800100008000, .trap (wAny .none 0) 32769),
     (0xE0A01E00000000000000000000008000, .tret (wNone .none 0)),
     (0xE1201E00816083FC0000000000108000, .getc (wAny .none 0) 16),
     (0xE1A01E00816083FC0000000000218000, .setc (wAny .none 0) 33),
     (0xE1A01E00816083FC0000000000038000, .setcFpflags (wAny .none 0)),
     (0xE1A01E00816083FC0000000000418000, .setcWatch (wAny .none 0) 65),
     (0xE1A01E00816083FC0000000000208000, .setcTimerCmp (wAny .none 0)),
     (0xE1A01E00816083FC0000000000608000, .setcRasInject (wAny .none 0)),
     (0xE2201E00816083FC0000000000008000, .time (wAny .none 0)),
     (0xE2A01E00816083FC0000000080018000, .trace (wAny .none 0) 32769),
     (0xE2C0BE00816083FC0000000080018000, .trace2 (wAny .none 5) 32769),
     (0xE3201E00816083FC00000000000E8000, .perf (wAny .none 0) 14),
     (0xE3A01E00816083FC0000000000008000, .ifrd (wAny .none 0)),
     (0xE440BE00816083FC0000000080018000, .sbind (wAny .none 5) 32769),
     (0xE4C0BE00816083FC0000000000008000, .xtset (wAny .none 5))] = true := by decide +kernel


/-! ## Words printed in the spec's worked examples

Each word stands beside the line of the program that the named file encodes. -/

def pw (slot : BitVec 8) (ty : Ty) (d0 d1 : Dest) (hist : Bool) : Par :=
  { slot := slot, ty := ty, d0 := d0, d1 := d1, d2 := .none, hist := hist, trcf := false }

/-- 01_encodings.md lines 001 and 002, 03_graph_scalar.md's ITER, 04_tile_vector.md's VRUN, 05_matrix.md's MMA and
06_memory_sync_system.md's PCLM. -/
theorem test_printed_words_chapters : decodes
    [(0x20400401000000000000000000000000, .add (pw 0 .s32 (.out 0) .none false)),
     (0x20200500821068000000000500000000, .addImm (pw 0 .s32 (.node 2 .l) (.node 3 .r) false) 5),
     (0x05A01E02000000000000000004800000, .iter (pw 0 .none .none .none false) true 2 .r 0),
     (0x65201E00810000000000000000000000, .vrunA (pw 0 .none (.node 1 .l) .none false) 0),
     (0x81403E02831080000000019000010000, .mma (pw 1 .none (.node 3 .l) (.node 4 .l) false) true false 0 1 0 0 400),
     (0xC0201F00834000000000000400020000, .pclmImm (pw 0 .none (.node 3 .r) .none false) 2 4)] = true := by
  decide +kernel

/-- The programs of 07 (lines 030 and 024), 09 (022 and 024), 10 (014, 016, 017) and 12 (the DISP and line 127). -/
theorem test_printed_words_programs : decodes
    [(0x65403E02820000000000000000018000, .vrunAb (pw 1 .none (.node 2 .l) .none true) 1),
     (0x05C01E00874000000000000000010000, .iter2 (pw 0 .none (.node 7 .r) .none false) false 0 .l 1),
     (0xA1201000830000000002000400000000, .ldt (pw 0 .f32 (.node 3 .l) .none false) .g0 0 4 16),
     (0x65201E00840000000000000000000000, .vrunA (pw 0 .none (.node 4 .l) .none false) 0),
     (0x80201A00884000000000000130100000, .wld (pw 0 .e2m1 (.node 8 .r) .none false) .dense 3 .g1 0 1),
     (0x81405E008A11A0000000000000000000, .mma (pw 2 .none (.node 10 .l) (.node 13 .l) false) false false 0 0 0 0 0),
     (0x822013008B00000000003F4000080000,
       .adrainImm (pw 0 .bf16 (.node 11 .l) .none false) .rne false false .f32 0x3F40),
     (0x02C09E009D0000000000000000010000, .disp (pw 4 .none (.node 29 .l) .none false) 1),
     (0x81A013010010A0000000408000900000,
       .mmasImm (pw 0 .bf16 (.out 0) (.node 5 .l) false) .rne false .bf16 0 0x4080)] = true := by decide +kernel

/-- The programs of 14 (lines 058 and 071), 16 (line 010), 17 (lines 017 and 060) and 19 (lines 011 and 019). -/
theorem test_printed_words_system : decodes
    [(0xC3401E00860000000000000000000000, .barw (pw 0 .none (.node 6 .l) .none false)),
     (0xA5200F00920000000000004000000000, .aopImm (pw 0 .z64 (.node 18 .l) .none false) .add false 64),
     (0xE0A01E00000000000000000000000000, .tret (pw 0 .none .none .none false)),
     (0xA0A00D008B1148000000111100000000, .stImm (pw 0 .z32 (.node 11 .l) (.node 10 .r) false) 0x1111),
     (0xA5200D00860000000000010000000000, .aopImm (pw 0 .z32 (.node 6 .l) .none false) .add false 0x100),
     (0xE0201E00960000000000000100000000, .trap (pw 0 .none (.node 22 .l) .none false) 1),
     (0x81405E028D1260000000000000000000,
       .mma (pw 2 .none (.node 13 .l) (.node 19 .l) false) true false 0 0 0 0 0)] = true := by decide +kernel

/-! ## Refusals

What a word is refused with (R24, R25, R27, R51), and an ill-formed term for each condition of well-formedness. -/

def refusedAs (r : Reason) (w : Nat) : Bool := match decodeWord (BitVec.ofNat 128 w) with
  | .ok _ => false
  | .error x => x == r

/-- An unassigned opcode; a nonzero bit below AUX; a SLOT beside one operand; a type the form does not take;
and a D2 that STEER does not take. -/
theorem test_refused_words :
    (refusedAs .opcUnassigned 0xFFC00000000000000000000000000000 && refusedAs .reserved 0x20400401000000000000000000000001 &&
      refusedAs .reserved 0x20202500821068000000000500000000 && refusedAs .type 0x20401E01000000000000000000000000 &&
      refusedAs .dest 0x01C0A402816083FC0000000000008000) = true := by decide +kernel

theorem test_ill_formed_slot : (Instr.addImm { wAny .s32 1 with d0 := .node 1 .l } 0).wellFormed = false := by decide
theorem test_ill_formed_type : (Instr.add (wAny .f32 1)).wellFormed = false := by decide
theorem test_ill_formed_dest_two : (Instr.steer (wAny .s32 1) false).wellFormed = false := by decide
theorem test_ill_formed_dest_one : (Instr.disp (wTwo .s32 1) 0).wellFormed = false := by decide
theorem test_ill_formed_dest_none : (Instr.tret (wOne .none 0)).wellFormed = false := by decide
theorem test_ill_formed_dest_out : (Instr.exit (wOne .none 0)).wellFormed = false := by decide
theorem test_ill_formed_const : (Instr.const (wAny .s32 0) true 0).wellFormed = false := by decide
theorem test_ill_formed_join : (Instr.join (wAny .none 1) .c).wellFormed = false := by decide
theorem test_ill_formed_place : (Instr.fnew (wAny .none 0) .named 0 .l 0).wellFormed = false := by decide
theorem test_ill_formed_place_named : (Instr.fnewNamed (wAny .none 0) .loc 0 .l 0).wellFormed = false := by decide
theorem test_ill_formed_iter : (Instr.iter (wAny .none 0) true 0 .l 1).wellFormed = false := by decide
theorem test_ill_formed_iter_two : (Instr.iter2 (wAny .none 0) false 0 .r 1).wellFormed = false := by decide
theorem test_ill_formed_send : (Instr.send (wOne .none 1) 0).wellFormed = false := by decide
theorem test_ill_formed_phase : (Instr.phopen (wAny .none 0) 0).wellFormed = false := by decide
theorem test_ill_formed_convert : (Instr.fcvt (wAny .f32 0) .rne false .f32).wellFormed = false := by decide
theorem test_ill_formed_convert_int : (Instr.ftoi (wAny .f32 0) .rne .bf16).wellFormed = false := by decide
theorem test_ill_formed_alloc_size : (Instr.talloc (wAny .f32 0) false false .g0 0 1).wellFormed = false := by decide
theorem test_ill_formed_alloc_pair : (Instr.talloc (wAny .f32 0) false false .g1 1 1).wellFormed = false := by decide
theorem test_ill_formed_alloc_acc : (Instr.talloc (wAny .f32 0) true false .g0 513 1).wellFormed = false := by decide
theorem test_ill_formed_part : (Instr.tget (wTwo .s8 1) .scale).wellFormed = false := by decide
theorem test_ill_formed_weight : (Instr.wld (wAny .none 0) .dense 1 .g0 0 0).wellFormed = false := by decide
theorem test_ill_formed_drain : (Instr.adrain (wTwo .f32 1) .rne false false .s32).wellFormed = false := by decide
theorem test_ill_formed_stat : (Instr.mstat (wTwo .none 0) 9 false).wellFormed = false := by decide
theorem test_ill_formed_load : (Instr.ldt (wAny .s8 0) .g1 0 1 1).wellFormed = false := by decide
theorem test_ill_formed_load_scaled : (Instr.ldtScaled (wAny .s8 1) .g0 0 1 1).wellFormed = false := by decide
theorem test_ill_formed_atomic : (Instr.aop (wAny .f32 1) .xor false).wellFormed = false := by decide
theorem test_ill_formed_register : (Instr.getc (wAny .none 0) 0x3FF).wellFormed = false := by decide
theorem test_ill_formed_read_only : (Instr.setc (wAny .none 0) 0x000).wellFormed = false := by decide
theorem test_ill_formed_watch : (Instr.setcWatch (wAny .none 0) 0x003).wellFormed = false := by decide
theorem test_ill_formed_counter : (Instr.perf (wAny .none 0) 15).wellFormed = false := by decide
theorem test_ill_formed_core : (Instr.frameGrant 256).wellFormed = false := by decide

/-! ## Numbers of the worked examples (02_numbers.md, 04_tile_vector.md, 09_program_exp2.md) -/

/-- R61: +inf − inf is the canonical NaN with NV. -/
theorem test_nan : fpAdd .f32 .rne 0x7F800000 0xFF800000 = (0x7FC00000, fNV) := by decide +kernel

/-- 02, one pass in each kind of mode: 2^-18, and 1 + 2^-18. -/
theorem test_round_exact : toFp .f32 .rne false (.fin false 1 (-18)) = (0x36800000, 0) ∧
    toFp .f32 .rne false (.fin false 262145 (-18)) = (0x3F800020, 0) := by decide +kernel

/-- R66's two examples, 0.61 and −0.1 as FP32 values. -/
theorem test_qn4 : (qn4Code (decFp .f32 0x3F1C28F6) (decFp .f32 0x3F800000)).1 = 5 ∧
    (qn4Code (decFp .f32 0xBDCCCCCD) (decFp .f32 0x3F800000)).1 = 9 := by decide +kernel

/-- 04: the scale 100 / 448 rounded up is 0x27 (15 × 2^-6), and the four codes with their flags. -/
theorem test_block_codes : (divMag .e4m3 .rup false 100 0 448 0).1 = 0x27 ∧ (divMag .e4m3 .rne false 3 0 15 (-6)).1 = 0x55 ∧
    divMag .e4m3 .rne true 3 (-1) 15 (-6) = (0xCD, fNX) ∧ (divMag .e4m3 .rne false 1 (-2) 15 (-6)).1 = 0x39 ∧
    (divMag .e4m3 .rne false 100 0 15 (-6)).1 = 0x7D := by decide +kernel

/-- R88: 2^0 from either zero, and 2^-1, are exact; an argument past the range raises NV. -/
theorem test_exp2_exact : fpExp2 .f32 0 = (0x3F800000, 0) ∧ fpExp2 .f32 0x80000000 = (0x3F800000, 0) ∧
    fpExp2 .f32 0xBF800000 = (0x3F000000, 0) ∧ fpExp2 .f32 0x40000000 = (0x7FC00000, fNV) := by decide +kernel

/-- 09: 2^0.5 is one of the two neighbours, whichever the free choice takes, with NX. -/
theorem test_exp2_half : ∀ up : Bool, neighbour .f32 up false (exp2Fix false 1 (-1)) (-160) =
    (if up then 0x3FB504F4 else 0x3FB504F3, fNX) := by decide +kernel

/-! ## Words the device writes -/

/-- 03: ADD.z64 of the residue example. -/
theorem test_add_residue : residue255 (0xFFFFFFFFFFFFFF00 + 0x200) = (residue255 0xFFFFFFFFFFFFFF00 + residue255 0x200 - 1) % 255 := by
  decide

/-- 16: the trap word of node 6, block 4, slot 1, frame 9 in a context at seat 2, with code 5. -/
theorem test_trap_word : trapWord { ctxs := [{ ctx0 with seats := [(0, 2)] }] }
    { cause := 1, core := 0, code := 5, site := { core := 0, ctx := 1, block := 4, cslot := 1, frame := 9, node := 6 } } =
      0x0120110090C00005 := by decide +kernel

/-- 18: the cause words of program 17 (node 9 of block 0 on core 2, a halt relayed from package 0). -/
theorem test_cause_word : causeWord {} { cause := 3, core := 2, site := { core := 2, node := 9 } } = 0x0000200000120003 ∧
    causeWord { plat := { ({} : State).plat with pkg := 1 } } { cause := 7, core := 0, site := {} } = 0x0010000000000007 := by
  decide +kernel

/-- R222: one arrival of two, then the second, on a word with PHASE 7 and EXPECT 2; the first status stays. -/
theorem test_bara_word : baraWord 0x0007000200000000 0 = 0x0007000200010000 ∧
    baraWord 0x0007000200010000 4 = 0x0008000200000400 ∧ baraWord 0x0008000200000400 1 = 0x0008000200010400 := by decide

/-- R226's ring of SIZE 8, steps 1 to 5. -/
def ring (c m t r : Nat) : PipeDesc := { size := 8, claimed := c, committed := m, taken := t, retired := r }

theorem test_pipe_waits : pipeClaim (ring 13 13 11 10) 4 = .wait ∧
    pipeTake (ring 13 13 11 10) 2 = .done (ring 13 13 13 10) 3 none := by decide

theorem test_pipe_pad : pipeReturn (ring 13 13 13 10) 3 = .done (ring 13 13 13 13) 0 none ∧
    pipeClaim (ring 13 13 13 13) 4 =
      .done { ring 20 16 13 13 with padAt := 13, padLen := 3, padP := true } 0 (some (5, 3)) := by decide

theorem test_pipe_skip : pipeCommit { ring 20 16 13 13 with padAt := 13, padLen := 3, padP := true } 4 =
      .done { ring 20 20 13 13 with padAt := 13, padLen := 3, padP := true } 0 none ∧
    pipeTake { ring 20 20 13 13 with padAt := 13, padLen := 3, padP := true } 4 =
      .done { ring 20 20 20 16 with padAt := 13, padLen := 3, padP := false } 0 none := by decide

/-- 06: the address of pipe 2 at byte offset 0. -/
theorem test_pipe_address : pipeResult 0 2 0 = 0x3200000000000000 := by decide

/-- 13: the header of the packet of line 184. -/
theorem test_packet_header :
    let p : Pkt := { ({} : Pkt) with bytes := leBytes 8 0x1800100001E00280 ++ leBytes 8 0x0000506000000014 ++ leBytes 16 0 }
    (p.typ, p.prio, p.cid, p.job, p.rhome, p.levelCount) = (1, 1, 30, 0, 0, 1) ∧ p.args = 0x50600000 ∧
      p.cword = 0x50600040 := by decide +kernel

/-- 13: descriptor 0 and the queue binding q0 of that packet. -/
theorem test_packet_ranges : rangeV 0xA000 = true ∧ rangePerm 0xA000 = 1 ∧ rangeLen 0x1000A000 = 4096 ∧
    rangeKind 0x9000 = 2 := by decide

/-- R3, R25: a code word's bytes stand lowest first, and D0 names a node and a port. -/
theorem test_destination_codes : destOfCode 0x208 = some (.node 2 .l) ∧ destOfCode 0x20D = some (.node 3 .r) ∧
    destOfCode 0x400 = some (.out 0) ∧ destOfCode 0 = some .none := by decide

/-- 10: R275's pass of the program's A row and weight row 0 gives 0x4B80_0001, and the drain by 0.75 0x4B40_0002. -/
theorem test_fp4_pass :
    let a : ARow := { ty := .e2m1, bg := .g1, scales := [0x74, 0x74, 0x64, 0x3C, 0x38, 0x01]
                      codes := List.range 16 ++ [6, 6, 0, 0, 0, 0, 0, 0] ++ [3, 1, 0, 0, 0, 0, 0, 0] ++
                        [4, 0, 0, 0, 0, 0, 0, 0] ++ [1, 0, 0, 0, 0, 0, 0, 0] }
    let b := List.replicate 16 2 ++ [4, 4, 0, 0, 0, 0, 0, 0] ++ [2, 5, 0, 0, 0, 0, 0, 0] ++ [12, 0, 0, 0, 0, 0, 0, 0] ++
      [1, 0, 0, 0, 0, 0, 0, 0]
    let w : WSlot := { key := { ty := .e2m1, bg := .g1 }, elems := [b], scales := [0x64, 0x64, 0x64, 0x3C, 0x3C, 0x3C] }
    passElem a w 0 0 = 0x4B800001 ∧ drainElem 0x3F400000 .rne false .f32 0x4B800001 = 0x4B400002 := by decide +kernel

def leaves : List Nat := List.replicate 5 0x01E00000

def laneRecord (stages : List Nat) (stream : Nat) : List Byte :=
  stages.flatMap (leBytes 4) ++ leBytes 8 stream ++ leBytes 128 0

/-- One row of 16 FP32 elements, one beat, through every chain of a vconfig. -/
def oneRow (v : VCfg) (row : List Nat) : RunIo :=
  let a : Tile := { shape := { ty := .f32, rows := 1, cols := 16 }, bytes := Memory.setMany [] 0 (row.flatMap (leBytes 4)) }
  (chainsOf v.pipes).foldl (fun io xs => (chainBeat { g := v.obg } xs a (some a) 0 1 [] io).2) {}

/-- 04: the vconfig qz16 on 3.0, −1.5, 0.25, 100.0 and twelve zeros: the codes, the scale byte, and NX alone. -/
theorem test_fabric_quantise :
    let v := vcfgOf (leBytes 8 0x0010000B20000000 ++ leBytes 8 0 ++ laneRecord ([0xA7000081, 0xA1640000] ++ leaves.take 4) 0)
    let io := oneRow v ([0x40400000, 0xBFC00000, 0x3E800000, 0x42C80000] ++ List.replicate 12 0)
    io.row = [0x55, 0xCD, 0x39, 0x7D] ++ List.replicate 12 0 ∧ io.scales = [(0, 0x27)] ∧ io.flags = fNX ∧ io.beats = 1 := by
  decide +kernel

/-- 09: the two chained pipelines on the integers −8 to 7 (row 0): 2^x exactly, 0x3B80_0000 + j × 0x0080_0000, no flag. -/
theorem test_fabric_exp2 :
    let lp0 := [0x0B030000, 0x0D030001, 0x17000080, 0x05040080, 0x1D000000, 0x18440080]
    let consts := leBytes 4 0x43010000 ++ leBytes 4 0xC3160000 ++ leBytes 56 0 ++ leBytes 64 0
    let v := vcfgOf (leBytes 8 0x0030000800000000 ++ leBytes 8 0 ++ lp0.flatMap (leBytes 4) ++ leBytes 8 0x20 ++ consts ++
      laneRecord ([0x21040000] ++ leaves) 0x0F)
    let io := oneRow v [0xC1000000, 0xC0E00000, 0xC0C00000, 0xC0A00000, 0xC0800000, 0xC0400000, 0xC0000000, 0xBF800000, 0,
      0x3F800000, 0x40000000, 0x40400000, 0x40800000, 0x40A00000, 0x40C00000, 0x40E00000]
    io.row = (List.range 16).map (fun j => 0x3B800000 + j * 0x00800000) ∧ io.flags = 0 := by decide +kernel

end Sys2Proof.Tests
end

section
/-! PROOFS. Scalar float firings on readable operands, NaN operands, sign bits and the E2M1 codes (R60, R61, R125). -/

namespace Sys2Proof.Machine

open Sys2Proof.Claims

/-! ## A scalar firing on readable operands -/

theorem isRead_of_readable {t : Tok} (h : readable t) : isRead t = true := by
  simpa [isRead] using h.1

theorem badInput_of_readable {ops : List Tok} (h : ∀ t ∈ ops, readable t) : badInput ops = none := by
  have none_of_kind (k : Nat) (hs : k ≠ kScalar) (hd : k ≠ kDecision) : ops.find? (fun t => t.kind == k) = none := by
    simp only [List.find?_eq_none, beq_iff_eq]
    rintro t ht rfl
    exact (h t ht).1.elim hs hd
  simp [badInput, none_of_kind kPoison (by decide) (by decide), none_of_kind kEos (by decide) (by decide)]

/-- R97, R124: on readable operands, on a core whose unit has no fault, a float firing completes with its result. -/
theorem State.floatFiring_of_scalars {s : State} {p : Par} {ops : List Tok} (h : scalars s ops) (r : Nat × Nat) :
    s.floatFiring p ops ops r = floats s p ops r := by
  obtain ⟨hread, hunit⟩ := h
  have hall : ops.all isRead = true := List.all_eq_true.2 fun t ht => isRead_of_readable (hread t ht)
  have hfault : s.unitFault s.cur.site.core = false := by simpa [State.unitFault] using hunit
  simp [State.floatFiring, State.scalarFiring, State.firing_clean (badInput_of_readable hread), hall, hfault, floats]

@[simp] theorem State.raise_zero (s : State) (ctx : Nat) : s.raise ctx 0 = s := rfl

theorem floats_no_flags (s : State) (p : Par) (ops : List Tok) (v : Word) :
    floats s p ops (v.toNat, 0) = gives s p ops v := by
  simp [floats, gives]

section Exec

variable {s : State} {p : Par}

theorem exec_fabs (h : scalars s [s.cur.l]) :
    exec (.fabs p) s = gives s p [s.cur.l] (BitVec.ofNat 64 (bits p.ty s.cur.l.val % 2 ^ (tyBits p.ty - 1))) :=
  State.floatFiring_of_scalars h _

theorem exec_fneg (h : scalars s [s.cur.l]) :
    exec (.fneg p) s = gives s p [s.cur.l] (BitVec.ofNat 64 (flipSign p.ty (bits p.ty s.cur.l.val))) :=
  State.floatFiring_of_scalars h _

theorem exec_fcvt (m : Mode) (sat : Bool) (d : Ty) (h : scalars s [s.cur.l]) :
    exec (.fcvt p m sat d) s = floats s p [s.cur.l] (toFp d m sat (decFp p.ty (bits p.ty s.cur.l.val))) :=
  State.floatFiring_of_scalars h _

variable (m : Mode) (h : scalars s [s.cur.l, s.cur.r])
include h

theorem exec_fadd : exec (.fadd p m) s =
    floats s p [s.cur.l, s.cur.r] (fpAdd p.ty m (bits p.ty s.cur.l.val) (bits p.ty s.cur.r.val)) :=
  State.floatFiring_of_scalars h _

theorem exec_fsub : exec (.fsub p m) s =
    floats s p [s.cur.l, s.cur.r] (fpSub p.ty m (bits p.ty s.cur.l.val) (bits p.ty s.cur.r.val)) :=
  State.floatFiring_of_scalars h _

theorem exec_fmul : exec (.fmul p m) s =
    floats s p [s.cur.l, s.cur.r] (fpMul p.ty m (bits p.ty s.cur.l.val) (bits p.ty s.cur.r.val)) :=
  State.floatFiring_of_scalars h _

theorem exec_fmin : exec (.fmin p) s =
    floats s p [s.cur.l, s.cur.r] (fpMinMax p.ty false (bits p.ty s.cur.l.val) (bits p.ty s.cur.r.val)) :=
  State.floatFiring_of_scalars h _

theorem exec_fmax : exec (.fmax p) s =
    floats s p [s.cur.l, s.cur.r] (fpMinMax p.ty true (bits p.ty s.cur.l.val) (bits p.ty s.cur.r.val)) :=
  State.floatFiring_of_scalars h _

/-- R97: the firing also holds the float divide unit for 4 clk. -/
theorem exec_fdiv : exec (.fdiv p m) s =
    floats (s.modTok s.cur.site.core fun x => { x with fdiv := s.clk s.cur.site.core + 4 }) p [s.cur.l, s.cur.r]
      (fpDiv p.ty m (bits p.ty s.cur.l.val) (bits p.ty s.cur.r.val)) :=
  State.floatFiring_of_scalars (s := s.takeFloatDivide s.cur.site.core) h _

end Exec

/-! ## Sign bits (R61) -/

theorem and_two_pow_sub_one_eq_ofNat_mod (v : Word) {k : Nat} (hk : k < 64) :
    v &&& BitVec.ofNat 64 (2 ^ k - 1) = BitVec.ofNat 64 (v.toNat % 2 ^ k) := by
  have hlt : 2 ^ k < 2 ^ 64 := Nat.pow_lt_pow_right (by decide) hk
  apply BitVec.eq_of_toNat_eq
  rw [BitVec.toNat_and, BitVec.toNat_ofNat, BitVec.toNat_ofNat, Nat.mod_eq_of_lt (by omega : 2 ^ k - 1 < 2 ^ 64),
    Nat.and_two_pow_sub_one_eq_mod, Nat.mod_eq_of_lt (Nat.lt_trans (Nat.mod_lt _ (Nat.two_pow_pos _)) hlt)]

/-- Inverting the top bit of a number of k + 1 bits adds or takes away 2^k. -/
theorem xor_two_pow_of_lt {x k : Nat} (h : x < 2 ^ (k + 1)) :
    x ^^^ 2 ^ k = if x < 2 ^ k then x + 2 ^ k else x - 2 ^ k := by
  have hdiv : (x ^^^ 2 ^ k) / 2 ^ k = x / 2 ^ k ^^^ 1 := by
    rw [Nat.xor_div_two_pow, Nat.div_self (Nat.two_pow_pos _)]
  have hmod : (x ^^^ 2 ^ k) % 2 ^ k = x % 2 ^ k := by
    rw [Nat.xor_mod_two_pow, Nat.mod_self, Nat.xor_zero]
  have hsum := Nat.div_add_mod (x ^^^ 2 ^ k) (2 ^ k)
  rw [hdiv, hmod] at hsum
  split
  next hx =>
    rw [Nat.div_eq_of_lt hx, Nat.mod_eq_of_lt hx, Nat.zero_xor] at hsum
    omega
  next hx =>
    have hone : x / 2 ^ k = 1 := Nat.div_eq_of_lt_le (by omega) (by omega)
    have hrest := Nat.div_add_mod x (2 ^ k)
    rw [hone] at hsum hrest
    simp only [Nat.xor_self] at hsum
    omega

theorem flipSign_eq_xor {t : Ty} {x : Nat} (h : x < 2 ^ tyBits t) : flipSign t x = x ^^^ 2 ^ (tyBits t - 1) := by
  have hpos : tyBits t - 1 + 1 = tyBits t := by cases t <;> rfl
  exact (xor_two_pow_of_lt (hpos.symm ▸ h)).symm

/-- Clearing the sign bit of an operand's bits is masking the operand. -/
theorem clear_sign_eq_and (t : Ty) (v : Word) :
    BitVec.ofNat 64 (bits t v % 2 ^ (tyBits t - 1)) = v &&& BitVec.ofNat 64 (2 ^ (tyBits t - 1) - 1) := by
  have hk : tyBits t - 1 < 64 := by cases t <;> decide
  rw [and_two_pow_sub_one_eq_ofNat_mod v hk, bits, Nat.mod_mod_of_dvd _ (Nat.pow_dvd_pow 2 (Nat.sub_le _ 1))]

/-- Inverting the sign bit of an operand's bits is masking the operand to its format and inverting there. -/
theorem flipSign_eq_and_xor {t : Ty} (ht : tyBits t < 64) (v : Word) :
    BitVec.ofNat 64 (flipSign t (bits t v)) =
      (v &&& BitVec.ofNat 64 (2 ^ tyBits t - 1)) ^^^ BitVec.ofNat 64 (2 ^ (tyBits t - 1)) := by
  rw [bits, flipSign_eq_xor (Nat.mod_lt _ (Nat.two_pow_pos _)), and_two_pow_sub_one_eq_ofNat_mod v ht]
  exact BitVec.ofNat_xor ..

/-! ## NaN operands (R61) -/

/-- The formats of the scalar float instructions. -/
abbrev scalarFloats : List Ty := [Ty.f32, .bf16, .f16]

/-- R61: the flags that NaN operands raise, NV for a signalling one. -/
def nanFlags (x y : Fp) : Nat := if isSnan x || isSnan y then fNV else 0

@[simp] theorem isNan_negFp (x : Fp) : isNan (negFp x) = isNan x := by cases x <;> rfl

@[simp] theorem isSnan_negFp (x : Fp) : isSnan (negFp x) = isSnan x := by cases x <;> rfl

theorem eq_nan_of_isNan {x : Fp} (h : isNan x = true) : ∃ sig, x = .nan sig := by
  cases x with
  | nan sig => exact ⟨sig, rfl⟩
  | inf _ => cases h
  | fin _ _ _ => cases h

theorem addFp_of_nan (zneg : Bool) {x y : Fp} (h : isNan x = true ∨ isNan y = true) :
    addFp zneg x y = (.nan false, nanFlags x y) := by
  obtain h | h := h <;> obtain ⟨sig, rfl⟩ := eq_nan_of_isNan h
  · cases y <;> simp [addFp, nanFlags, isSnan]
  · cases x <;> simp [addFp, nanFlags, isSnan]

theorem mulFp_of_nan {x y : Fp} (h : isNan x = true ∨ isNan y = true) : mulFp x y = (.nan false, nanFlags x y) := by
  obtain h | h := h <;> obtain ⟨sig, rfl⟩ := eq_nan_of_isNan h
  · cases y <;> simp [mulFp, nanFlags, isSnan]
  · cases x <;> simp [mulFp, nanFlags, isSnan]

/-- R61: what an operation answers where an operand is a NaN. -/
def nanResult (t : Ty) (x y : Nat) : Nat × Nat := (nanOf t, nanFlags (decFp t x) (decFp t y))

theorem roundOp_nan {t : Ty} (ht : t ≠ .e2m1) (m : Mode) (fl : Nat) : roundOp t m (.nan false, fl) = (nanOf t, fl) := by
  simp [roundOp, toFp, ht, orFlags]

section NanOperand

variable {t : Ty} {x y : Nat} (h : isNan (decFp t x) = true ∨ isNan (decFp t y) = true)
include h

theorem fpMinMax_of_nan (max : Bool) : fpMinMax t max x y = nanResult t x y := by
  simp [fpMinMax, h, nanResult, nanFlags]

theorem fpDiv_of_nan (m : Mode) : fpDiv t m x y = nanResult t x y := by
  unfold fpDiv nanResult
  obtain h | h := h <;> obtain ⟨sig, hx⟩ := eq_nan_of_isNan h
  · cases hy : decFp t y <;> simp [hx, nanFlags, isSnan]
  · cases hy : decFp t x <;> simp [hx, nanFlags, isSnan]

variable (ht : t ≠ .e2m1) (m : Mode)
include ht

theorem fpAdd_of_nan : fpAdd t m x y = nanResult t x y := by
  rw [fpAdd, addFp_of_nan _ h, roundOp_nan ht, nanResult]

theorem fpSub_of_nan : fpSub t m x y = nanResult t x y := by
  rw [fpSub, addFp_of_nan _ (by simpa using h), roundOp_nan ht, nanResult, nanFlags, nanFlags, isSnan_negFp]

theorem fpMul_of_nan : fpMul t m x y = nanResult t x y := by
  rw [fpMul, mulFp_of_nan h, roundOp_nan ht, nanResult]

end NanOperand

/-- R59, R61: in a format with infinities a NaN has the top exponent and a fraction that is not 0. -/
theorem isNan_decFp {t : Ty} (ht : (fmtOf t).hasInf = true) (x : Nat) :
    isNan (decFp t x) = true ↔
      x / 2 ^ (fmtOf t).mb % 2 ^ (fmtOf t).eb = 2 ^ (fmtOf t).eb - 1 ∧ x % 2 ^ (fmtOf t).mb ≠ 0 := by
  unfold decFp
  by_cases htop : x / 2 ^ (fmtOf t).mb % 2 ^ (fmtOf t).eb = 2 ^ (fmtOf t).eb - 1
  · by_cases hfrac : x % 2 ^ (fmtOf t).mb = 0
    · simp [ht, htop, hfrac, isNan]
    · simp [ht, htop, hfrac, isNan]
  · simp only [beq_eq_false_iff_ne.2 htop, Bool.false_and, Bool.false_eq_true, if_false, htop, false_and, iff_false]
    split <;> exact Bool.false_ne_true

theorem nanBits_iff_isNan {t : Ty} (ht : t ∈ scalarFloats) (x : Nat) : nanBits t x ↔ isNan (decFp t x) = true := by
  simp only [scalarFloats, List.mem_cons, List.not_mem_nil, or_false] at ht
  obtain rfl | rfl | rfl := ht
  all_goals
    rw [isNan_decFp rfl]
    simp only [nanBits, fmtOf]
    omega

/-- R61: a NaN of a scalar format is signalling where the top bit of its fraction is 0. -/
theorem decFp_of_isNan {t : Ty} (ht : t ∈ scalarFloats) {x : Nat} (h : isNan (decFp t x) = true) :
    decFp t x = .nan (quietBit t x == 0) := by
  have nan_of_fields (hinf : (fmtOf t).hasInf = true) :
      decFp t x = .nan ((t == .f32 || t == .bf16 || t == .f16) &&
        x % 2 ^ (fmtOf t).mb / 2 ^ ((fmtOf t).mb - 1) == 0) := by
    obtain ⟨htop, hfrac⟩ := (isNan_decFp hinf x).1 h
    simp [decFp, hinf, htop, hfrac]
  simp only [scalarFloats, List.mem_cons, List.not_mem_nil, or_false] at ht
  obtain rfl | rfl | rfl := ht
  all_goals
    rw [nan_of_fields rfl]
    simp only [fmtOf, quietBit, beq_self_eq_true, Bool.true_or, Bool.or_true, Bool.true_and]
    congr 2
    omega

theorem isNan_of_isSnan {x : Fp} (h : isSnan x = true) : isNan x = true := by
  cases x with
  | nan _ => rfl
  | inf _ => cases h
  | fin _ _ _ => cases h

theorem isSnan_decFp {t : Ty} (ht : t ∈ scalarFloats) (x : Nat) :
    isSnan (decFp t x) = true ↔ nanBits t x ∧ quietBit t x = 0 := by
  rw [nanBits_iff_isNan ht]
  constructor
  · intro h
    have hnan := isNan_of_isSnan h
    exact ⟨hnan, by simpa [decFp_of_isNan ht hnan, isSnan] using h⟩
  · rintro ⟨hnan, hquiet⟩
    rw [decFp_of_isNan ht hnan, hquiet]
    rfl

theorem nanFlags_eq_zero_or (x y : Fp) : nanFlags x y = 0 ∨ nanFlags x y = fNV := by
  unfold nanFlags
  split
  · exact .inr rfl
  · exact .inl rfl

theorem nanFlags_eq_fNV_iff (x y : Fp) : nanFlags x y = fNV ↔ isSnan x = true ∨ isSnan y = true := by
  rw [← Bool.or_eq_true, nanFlags]
  cases isSnan x || isSnan y <;> decide

theorem nanOf_eq_canonicalNan {t : Ty} (ht : t ∈ scalarFloats) : nanOf t = canonicalNan t := by
  simp only [scalarFloats, List.mem_cons, List.not_mem_nil, or_false] at ht
  obtain rfl | rfl | rfl := ht <;> rfl

/-! ## The E2M1 codes (R60) -/

/-- R60: the values of the E2M1 codes as FP32 bits. -/
def e2m1Values : List Word :=
  [0x00000000, 0x3F000000, 0x3F800000, 0x3FC00000, 0x40000000, 0x40400000, 0x40800000, 0x40C00000,
    0x80000000, 0xBF000000, 0xBF800000, 0xBFC00000, 0xC0000000, 0xC0400000, 0xC0800000, 0xC0C00000]

/-- Each code has an FP32 number of its value, so the rounding mode and saturation do not matter and nothing is flagged. -/
theorem toFp_f32_e2m1 (m : Mode) (sat : Bool) (code : Fin 16) :
    toFp .f32 m sat (decFp .e2m1 code) = ((e2m1Values.getD code 0).toNat, 0) := by
  cases m <;> cases sat <;> revert code <;> decide +kernel

/-! ## The statement's three parts -/

theorem fabs_fneg_f32 {s : State} {p : Par} (ht : p.ty = .f32) (h : scalars s [s.cur.l]) :
    exec (.fabs p) s = gives s p [s.cur.l] (s.cur.l.val &&& 0x7FFFFFFF) ∧
    exec (.fneg p) s = gives s p [s.cur.l] ((s.cur.l.val &&& 0xFFFFFFFF) ^^^ 0x80000000) := by
  rw [exec_fabs h, exec_fneg h, clear_sign_eq_and, flipSign_eq_and_xor (by rw [ht]; decide), ht]
  exact ⟨rfl, rfl⟩

theorem fabs_fneg_16 {s : State} {p : Par} (ht : p.ty = .bf16 ∨ p.ty = .f16) (h : scalars s [s.cur.l]) :
    exec (.fabs p) s = gives s p [s.cur.l] (s.cur.l.val &&& 0x7FFF) ∧
    exec (.fneg p) s = gives s p [s.cur.l] ((s.cur.l.val &&& 0xFFFF) ^^^ 0x8000) := by
  have hbits : tyBits p.ty = 16 := by obtain ht | ht := ht <;> rw [ht] <;> rfl
  rw [exec_fabs h, exec_fneg h, clear_sign_eq_and, flipSign_eq_and_xor (by omega), hbits]
  exact ⟨rfl, rfl⟩

/-- R61: every operation of two operands answers a NaN operand with the canonical NaN and one set of flags. -/
theorem exec_of_nan {s : State} {p : Par} (m : Mode) (ht : p.ty ∈ scalarFloats) (h : scalars s [s.cur.l, s.cur.r])
    (hnan : isNan (decFp p.ty (bits p.ty s.cur.l.val)) = true ∨ isNan (decFp p.ty (bits p.ty s.cur.r.val)) = true) :
    let r := nanResult p.ty (bits p.ty s.cur.l.val) (bits p.ty s.cur.r.val)
    (∀ i ∈ [Instr.fadd p m, .fsub p m, .fmul p m, .fmin p, .fmax p], exec i s = floats s p [s.cur.l, s.cur.r] r) ∧
    exec (.fdiv p m) s =
      floats (s.modTok s.cur.site.core fun x => { x with fdiv := s.clk s.cur.site.core + 4 }) p [s.cur.l, s.cur.r] r := by
  have hne : p.ty ≠ .e2m1 := fun heq => by simp [heq] at ht
  simp only [List.forall_mem_cons, List.not_mem_nil, false_implies, implies_true, and_true]
  rw [exec_fadd m h, exec_fsub m h, exec_fmul m h, exec_fmin h, exec_fmax h, exec_fdiv m h, fpAdd_of_nan hnan hne,
    fpSub_of_nan hnan hne, fpMul_of_nan hnan hne, fpMinMax_of_nan hnan, fpMinMax_of_nan hnan, fpDiv_of_nan hnan]
  exact ⟨⟨rfl, rfl, rfl, rfl, rfl⟩, rfl⟩

/-- R60: FCVT of an E2M1 code to FP32 gives its value in every mode and raises nothing. -/
theorem exec_fcvt_e2m1 {s : State} {p : Par} (m : Mode) (sat : Bool) {code : Fin 16} (ht : p.ty = .e2m1)
    (h : scalars s [s.cur.l]) (hcode : bits .e2m1 s.cur.l.val = code) :
    exec (.fcvt p m sat .f32) s = gives s p [s.cur.l] (e2m1Values.getD code 0) := by
  rw [exec_fcvt m sat .f32 h, ht, hcode, toFp_f32_e2m1, floats_no_flags]

end Sys2Proof.Machine

namespace Sys2Proof.Claims

open Sys2Proof.Machine

/-- Settles O11: the signs by masking, the NaN operands by `exec_of_nan`, the E2M1 codes by their table. -/
theorem floatSignsNotANumberAndFourBitValues : Obligations.FloatSignsNotANumberAndFourBitValues := by
  unfold Obligations.FloatSignsNotANumberAndFourBitValues
  refine ⟨fun s p h => ⟨(fabs_fneg_f32 · h), (fabs_fneg_16 · h)⟩, ?_, ?_⟩
  · intro s p m ht h a b hnan
    rw [nanBits_iff_isNan ht, nanBits_iff_isNan ht] at hnan
    refine ⟨nanFlags (decFp p.ty a) (decFp p.ty b), nanFlags_eq_zero_or .., ?_, ?_⟩
    · rw [nanFlags_eq_fNV_iff, isSnan_decFp ht, isSnan_decFp ht]
    · rw [← nanOf_eq_canonicalNan ht]
      exact exec_of_nan m ht h hnan
  · exact fun s p m sat code ht h hcode => exec_fcvt_e2m1 m sat ht h hcode

end Sys2Proof.Claims
end

section
/-! PROOFS. Integer firings on readable operands: the reduction of R58, division, logic and shifts (R118 to R120), and the
destinations that STEER and DISP choose (R102, R103). -/

namespace Sys2Proof.Machine

open Sys2Proof.Claims

/-! ## The types that an integer operand is read at -/

theorem mem_tyIntOrNone {t : Ty} (ht : isInteger t ∨ t = .none) : t ∈ tyIntOrNone :=
  ht.elim (List.mem_append_left _) fun h => List.mem_append_right tyInt (List.mem_singleton.2 h)

theorem isSigned_eq_tySigned (t : Ty) : isSigned t = tySigned t := by cases t <;> rfl

theorem width_eq_tyBits {t : Ty} (ht : t ∈ tyIntOrNone) : width t = tyBits t := by
  revert ht
  cases t <;> decide

theorem tyBits_pos (t : Ty) : 0 < tyBits t := by cases t <;> decide

theorem tyBits_le (t : Ty) : tyBits t ≤ 64 := by cases t <;> decide

/-- Reducing to 64 bits first keeps the low w bits. -/
theorem mod_two_pow_64_mod (t : Ty) (n : Nat) : n % 2 ^ 64 % 2 ^ tyBits t = n % 2 ^ tyBits t :=
  Nat.mod_mod_of_dvd n (Nat.pow_dvd_pow 2 (tyBits_le t))

/-! ## The low w bits of a number, extended by its type (R58) -/

theorem sx_eq_toInt {n : Nat} (hn : 0 < n) (v : Nat) : sx v n = (BitVec.ofNat n v).toInt := by
  have htop : 2 ^ n = 2 * 2 ^ (n - 1) := by rw [← Nat.pow_succ', Nat.succ_eq_add_one, Nat.sub_add_cancel hn]
  have hcond : v % 2 ^ n < 2 ^ (n - 1) ↔ 2 * (v % 2 ^ n) < 2 ^ n := by omega
  simp [sx, BitVec.toInt_eq_toNat_cond, hcond]

theorem sx_emod (v n : Nat) : sx v n % 2 ^ n = ((v % 2 ^ n : Nat) : Int) := by
  dsimp only [sx]
  split <;> simp

theorem fit_of_signed {t : Ty} (hs : tySigned t = true) (v : Word) : fit t v = (v.setWidth (tyBits t)).signExtend 64 := by
  revert hs
  cases t <;> simp [fit, tyBits, tySigned]

theorem fit_of_unsigned {t : Ty} (ht : t ∈ tyIntOrNone) (hs : tySigned t = false) (v : Word) :
    fit t v = (v.setWidth (tyBits t)).setWidth 64 := by
  revert ht hs
  cases t <;> simp [fit, tyBits, tySigned, tyIntOrNone, tyInt]

theorem toNat_ofInt_mod (t : Ty) (i : Int) : (((BitVec.ofInt 64 i).toNat % 2 ^ tyBits t : Nat) : Int) = i % 2 ^ tyBits t := by
  have hdvd : (2 ^ tyBits t : Int) ∣ 2 ^ 64 := by exact_mod_cast Nat.pow_dvd_pow 2 (tyBits_le t)
  rw [BitVec.toNat_ofInt, Int.natCast_emod, Int.toNat_of_nonneg (Int.emod_nonneg _ (by decide))]
  exact_mod_cast Int.emod_emod_of_dvd i hdvd

/-- An extended number keeps its low w bits. -/
theorem extendTy_toNat_mod (t : Ty) (n : Nat) : (extendTy t n).toNat % 2 ^ tyBits t = n % 2 ^ tyBits t := by
  unfold extendTy
  split
  · exact Int.ofNat.inj ((toNat_ofInt_mod t _).trans (sx_emod n _))
  · rw [BitVec.toNat_ofNat, mod_two_pow_64_mod, Nat.mod_mod]

/-- Only the low w bits of a number count. -/
theorem extendTy_congr {t : Ty} {m n : Nat} (h : m % 2 ^ tyBits t = n % 2 ^ tyBits t) : extendTy t m = extendTy t n := by
  simp [extendTy, sx, h]

theorem fit_eq_extendTy {t : Ty} (ht : t ∈ tyIntOrNone) (v : Word) : fit t v = extendTy t v.toNat := by
  unfold extendTy
  split
  next hs =>
    rw [fit_of_signed hs, sx_eq_toInt (tyBits_pos t), BitVec.ofNat_toNat]
    rfl
  next hs =>
    rw [fit_of_unsigned ht (by simpa using hs), ← BitVec.toNat_setWidth]
    exact (BitVec.ofNat_toNat ..).symm

theorem fit_ofNat {t : Ty} (ht : t ∈ tyIntOrNone) (n : Nat) : fit t (BitVec.ofNat 64 n) = extendTy t n := by
  rw [fit_eq_extendTy ht, BitVec.toNat_ofNat]
  exact extendTy_congr (mod_two_pow_64_mod t n)

@[simp] theorem fit_zero (t : Ty) : fit t 0 = 0 := by cases t <;> rfl

/-- A word extends to 0 exactly where its low w bits are 0. -/
theorem fit_eq_zero_iff {t : Ty} (ht : t ∈ tyIntOrNone) (v : Word) : fit t v = 0 ↔ v.toNat % 2 ^ tyBits t = 0 := by
  rw [fit_eq_extendTy ht]
  constructor
  · intro h
    rw [← extendTy_toNat_mod, h]
    exact Nat.zero_mod _
  · intro h
    rw [extendTy_congr (n := 0) (by rw [h, Nat.zero_mod]), ← fit_ofNat ht]
    exact fit_zero t

/-! ## Operands as numbers and results reduced (R58, R117) -/

theorem reduced_eq_reduceInt {t : Ty} (ht : t ∈ tyIntOrNone) (i : Int) : reduced t i = reduceInt t i := by
  rw [reduced, fit_eq_extendTy ht, reduceInt]
  apply extendTy_congr
  rw [← toNat_ofInt_mod, Int.toNat_natCast, Nat.mod_mod]

theorem number_eq_readInt {t : Ty} (ht : t ∈ tyIntOrNone) (v : Word) : number t v = readInt t v := by
  rw [number, readInt, isSigned_eq_tySigned]
  split
  next hs =>
    rw [fit_of_signed hs, BitVec.toInt_signExtend_of_le (tyBits_le t), sx_eq_toInt (tyBits_pos t), BitVec.ofNat_toNat]
  next hs =>
    rw [fit_of_unsigned ht (by simpa using hs), BitVec.toNat_setWidth_of_le (tyBits_le t), BitVec.toNat_setWidth]

theorem readInt_emod (t : Ty) (v : Word) : readInt t v % 2 ^ tyBits t = ((v.toNat % 2 ^ tyBits t : Nat) : Int) := by
  unfold readInt
  split
  · exact sx_emod ..
  · rw [Int.natCast_emod, Int.natCast_pow]
    exact Int.emod_emod ..

/-- Reading an operand and extending the number read is extending the operand. -/
theorem reduceInt_readInt {t : Ty} (ht : t ∈ tyIntOrNone) (v : Word) : reduceInt t (readInt t v) = fit t v := by
  rw [fit_eq_extendTy ht, reduceInt, readInt_emod, Int.toNat_natCast]
  exact extendTy_congr (Nat.mod_mod ..)

theorem immTok_val (t : Ty) (imm : BitVec 32) : (immTok t imm).val = immediate t imm := by cases t <;> rfl

/-! ## An integer firing on readable operands (R97, R118) -/

/-- A firing whose result is a number is a float firing that raises no flag. -/
theorem State.scalarNum_of_scalars {s : State} {p : Par} {ops : List Tok} (h : scalars s ops) (v : Word) :
    s.scalarNum p ops ops true v = gives s p ops v := by
  have hfloat := (State.floatFiring_of_scalars (p := p) h (v.toNat, 0)).trans (floats_no_flags s p ops v)
  simpa [State.floatFiring, State.scalarNum] using hfloat

/-- An instruction of two operands and its immediate form that compute `op` give what `op` is equal to. -/
theorem binary_of_firing {f : Par → Instr} {g : Par → BitVec 32 → Instr} {v : Ty → Word → Word → Word}
    (op : Ty → Word → Word → Word)
    (hf : ∀ p s, exec (f p) s =
      s.scalarNum p [s.cur.l, s.cur.r] [s.cur.l, s.cur.r] true (op p.ty s.cur.l.val s.cur.r.val))
    (hg : ∀ p imm s, exec (g p imm) s =
      s.scalarNum p [s.cur.l] [s.cur.l] true (op p.ty s.cur.l.val (immTok p.ty imm).val))
    (hv : ∀ t ∈ tyIntOrNone, ∀ a b, op t a b = v t a b) : binary f g v := by
  intro s p imm ht
  have hop := hv p.ty (mem_tyIntOrNone (.inl ht))
  constructor
  · intro h
    rw [hf, State.scalarNum_of_scalars h, hop]
  · intro h
    rw [hg, State.scalarNum_of_scalars h, hop, immTok_val]

/-! ## Division (R119) -/

theorem intDiv_eq {t : Ty} (ht : t ∈ tyIntOrNone) (a b : Word) :
    intDiv t a b = if number t b = 0 then fit t (-1) else reduced t ((number t a).tdiv (number t b)) := by
  rw [number_eq_readInt ht, number_eq_readInt ht, reduced_eq_reduceInt ht, intDiv, ← reduced_eq_reduceInt ht (-1)]
  rfl

theorem intRem_eq {t : Ty} (ht : t ∈ tyIntOrNone) (a b : Word) :
    intRem t a b = if number t b = 0 then fit t a else reduced t ((number t a).tmod (number t b)) := by
  rw [number_eq_readInt ht, number_eq_readInt ht, reduced_eq_reduceInt ht, intRem, reduceInt_readInt ht]

/-- The signed minimum divided by -1 wraps to itself. -/
theorem number_reduced_min_tdiv_neg_one {t : Ty} (hs : isSigned t = true) :
    number t (reduced t ((-2 ^ (width t - 1) : Int).tdiv (-1))) = -2 ^ (width t - 1) := by
  revert hs
  cases t <;> decide

theorem reduced_tmod_neg_one (t : Ty) (i : Int) : reduced t (i.tmod (-1)) = 0 := by
  rw [Int.tmod_neg, Int.tmod_one]
  exact fit_zero t

/-! ## Logic and shifts (R118, R120) -/

/-- An operation on the 64 bits of its operands, its result extended. -/
theorem binary_of_bitwise {f : Par → Instr} {g : Par → BitVec 32 → Instr} (op : Word → Word → Word)
    (hf : ∀ p s, exec (f p) s =
      s.scalarNum p [s.cur.l, s.cur.r] [s.cur.l, s.cur.r] true (extendTy p.ty (op s.cur.l.val s.cur.r.val).toNat))
    (hg : ∀ p imm s, exec (g p imm) s =
      s.scalarNum p [s.cur.l] [s.cur.l] true (extendTy p.ty (op s.cur.l.val (immTok p.ty imm).val).toNat)) :
    binary f g (fun t a b => fit t (op a b)) :=
  binary_of_firing (fun t a b => extendTy t (op a b).toNat) hf hg fun _ ht _ _ => (fit_eq_extendTy ht _).symm

theorem intShl_eq {t : Ty} (ht : t ∈ tyIntOrNone) (a n : Word) :
    intShl t a n = fit t (if n.toNat < width t then a <<< n.toNat else 0) := by
  rw [width_eq_tyBits ht, intShl]
  by_cases hn : n.toNat < tyBits t
  · rw [if_neg (Nat.not_le.2 hn), if_pos hn, fit_eq_extendTy ht, BitVec.toNat_shiftLeft, Nat.shiftLeft_eq]
    apply extendTy_congr
    rw [mod_two_pow_64_mod, lowBits, Nat.mod_mul_mod]
  · rw [if_pos (Nat.not_lt.1 hn), if_neg hn, fit_zero]

theorem intShr_eq {t : Ty} (ht : t ∈ tyIntOrNone) (a n : Word) :
    intShr t a n = fit t (BitVec.ofNat 64 ((a.toNat % 2 ^ width t) >>> n.toNat)) := by
  rw [width_eq_tyBits ht, intShr, Nat.shiftRight_eq_div_pow, lowBits]
  split
  next hn =>
    have hlt : a.toNat % 2 ^ tyBits t < 2 ^ n.toNat :=
      Nat.lt_of_lt_of_le (Nat.mod_lt _ (Nat.two_pow_pos _)) (Nat.pow_le_pow_right (by decide) hn)
    rw [Nat.div_eq_of_lt hlt]
    exact (fit_zero t).symm
  next => rw [fit_ofNat ht]

theorem ediv_two_pow_of_bounds {x : Int} {k : Nat} (hlo : -2 ^ k ≤ x) (hhi : x < 2 ^ k) :
    x / 2 ^ k = if x < 0 then -1 else 0 := by
  have hpos : (0 : Int) < 2 ^ k := Int.pow_pos (by decide)
  split
  next hx => exact (Int.ediv_eq_iff_of_pos hpos).2 ⟨by omega, by omega⟩
  next hx => exact Int.ediv_eq_zero_of_lt (by omega) hhi

/-- A count of w or more leaves copies of the sign, and so does every count from w - 1 on: capping it at 63 loses nothing. -/
theorem intSar_eq_reduceInt (t : Ty) (a n : Word) :
    intSar t a n = reduceInt t (sx a.toNat (tyBits t) / 2 ^ min n.toNat 63) := by
  have hw := tyBits_le t
  dsimp only [intSar]
  split
  next hn =>
    have hk : (2 : Int) ^ (tyBits t - 1) ≤ 2 ^ min n.toNat 63 := by
      exact_mod_cast Nat.pow_le_pow_right (n := 2) (by decide) (by omega : tyBits t - 1 ≤ min n.toNat 63)
    have hlo := BitVec.le_toInt (BitVec.ofNat (tyBits t) a.toNat)
    have hhi := BitVec.toInt_lt (x := BitVec.ofNat (tyBits t) a.toNat)
    rw [sx_eq_toInt (tyBits_pos t), ediv_two_pow_of_bounds (by omega) (by omega)]
  next hn => rw [Nat.min_eq_left (by omega)]

/-- Shifting the low w bits to the top and arithmetically back extends their sign. -/
theorem shiftLeft_sshiftRight_eq_signExtend (a : Word) {w : Nat} (hpos : 0 < w) (hle : w ≤ 64) :
    (a <<< (64 - w)).sshiftRight (64 - w) = (a.setWidth w).signExtend 64 := by
  apply BitVec.eq_of_getLsbD_eq
  intro i hi
  rw [BitVec.getLsbD_sshiftRight, BitVec.getLsbD_signExtend, BitVec.msb_eq_getLsbD_last, BitVec.msb_eq_getLsbD_last]
  rw [BitVec.getLsbD_shiftLeft, BitVec.getLsbD_shiftLeft, BitVec.getLsbD_setWidth, BitVec.getLsbD_setWidth]
  have hge : ¬ 64 ≤ i := Nat.not_le.2 hi
  by_cases hiw : i < w
  · have hin : 64 - w + i < 64 := by omega
    have habove : ¬ 64 - w + i < 64 - w := by omega
    have hback : 64 - w + i - (64 - w) = i := Nat.add_sub_cancel_left ..
    simp only [hi, hge, hiw, hin, habove, hback, if_true, decide_true, decide_false, Bool.not_false, Bool.true_and]
  · have hout : ¬ 64 - w + i < 64 := by omega
    have hin : 64 - 1 < 64 := by decide
    have habove : ¬ 64 - 1 < 64 - w := by omega
    have hback : 64 - 1 - (64 - w) = w - 1 := by omega
    have hlast : w - 1 < w := Nat.sub_lt hpos Nat.one_pos
    simp only [hi, hge, hiw, hout, hin, habove, hback, hlast, if_false, decide_true, decide_false, Bool.not_false,
      Bool.true_and]

theorem intSar_eq {t : Ty} (ht : t ∈ tyIntOrNone) (a n : Word) :
    intSar t a n = fit t (((a <<< (64 - width t)).sshiftRight (64 - width t)).sshiftRight (min n.toNat 63)) := by
  rw [width_eq_tyBits ht, shiftLeft_sshiftRight_eq_signExtend a (tyBits_pos t) (tyBits_le t), BitVec.sshiftRight_eq,
    BitVec.toInt_signExtend_of_le (tyBits_le t), ← BitVec.ofNat_toNat, ← sx_eq_toInt (tyBits_pos t), ← reduced,
    reduced_eq_reduceInt ht, Int.shiftRight_eq_div_pow, intSar_eq_reduceInt, Int.natCast_pow]
  rfl

/-- The two parts of a rotation share no bit, so their sum is their disjunction. -/
theorem rotl_eq_or_mod {w k x : Nat} (hx : x < 2 ^ w) (hk : k < w) :
    rotl w x k = (x <<< k ||| x >>> (w - k)) % 2 ^ w := by
  have hsplit : 2 ^ w = 2 ^ k * 2 ^ (w - k) := by rw [← Nat.pow_add, Nat.add_sub_cancel' (Nat.le_of_lt hk)]
  have hlow : x / 2 ^ (w - k) < 2 ^ k := Nat.div_lt_of_lt_mul (by rwa [Nat.mul_comm, ← hsplit])
  have hfits : x / 2 ^ (w - k) < 2 ^ w := Nat.lt_of_le_of_lt (Nat.div_le_self ..) hx
  have hhigh : x * 2 ^ k % 2 ^ w = 2 ^ k * (x % 2 ^ (w - k)) := by rw [hsplit, Nat.mul_comm, Nat.mul_mod_mul_left]
  rw [rotl, Nat.or_mod_two_pow, Nat.shiftLeft_eq, Nat.shiftRight_eq_div_pow, Nat.mod_eq_of_lt hfits, hhigh,
    Nat.two_pow_add_eq_or_of_lt hlow]

theorem intRol_eq {t : Ty} (ht : t ∈ tyIntOrNone) (a n : Word) :
    intRol t a n = fit t (BitVec.ofNat 64 ((a.toNat % 2 ^ width t) <<< (n.toNat % width t) |||
      (a.toNat % 2 ^ width t) >>> (width t - n.toNat % width t))) := by
  rw [width_eq_tyBits ht, fit_ofNat ht, intRol, lowBits,
    rotl_eq_or_mod (Nat.mod_lt _ (Nat.two_pow_pos _)) (Nat.mod_lt _ (tyBits_pos t))]
  exact extendTy_congr (Nat.mod_mod ..)

/-! ## Clean operands and read positions (R93, R94) -/

theorem badInput_of_clean {ops : List Tok} (h : clean ops) : badInput ops = none := by
  have none_of_kind (k : Nat) (hk : ∀ t ∈ ops, t.kind ≠ k) : ops.find? (fun t => t.kind == k) = none := by
    simpa only [List.find?_eq_none, beq_iff_eq] using hk
  simp [badInput, none_of_kind kPoison fun t ht => (h t ht).1, none_of_kind kEos fun t ht => (h t ht).2]

theorem isRead_iff_reads (t : Tok) : isRead t = true ↔ reads [t] := by
  simp [isRead, reads]

theorem isRead_immTok (t : Ty) (imm : BitVec 32) : isRead (immTok t imm) = true := rfl

/-! ## STEER (R102) -/

theorem steerTrue_eq {t : Ty} (ht : t ∈ tyIntOrNone) (v : Word) (inv : Bool) :
    steerTrue t v inv = (decide (fit t v ≠ 0) != inv) := by
  simp only [steerTrue, ne_eq, fit_eq_zero_iff ht, decide_not]
  rfl

section Steer

variable {s : State} {p : Par} {inv : Bool} {ops : List Tok} {r : Tok}

theorem State.steer_of_read (hops : clean ops) (hr : isRead r = true) (ht : p.ty ∈ tyIntOrNone) :
    s.steer p inv ops r = .next (s.finish p latGraph
      [(if decide (fit p.ty r.val ≠ 0) != inv then p.d0 else p.d1, carryTok s.cur.site s.cur.l)] ops) := by
  rw [State.steer, State.firing_clean (badInput_of_clean hops), hr, steerTrue_eq ht]
  rfl

theorem State.steer_of_not_read (hops : clean ops) (hr : isRead r = false) :
    s.steer p inv ops r = .next (s.failing p latGraph stFormat ops) := by
  rw [State.steer, State.firing_clean (badInput_of_clean hops), hr]
  rfl

theorem State.steer_of_badInput {t : Tok} (hbad : badInput ops = some t) :
    s.steer p inv ops r = .next (s.finish p latGraph (spread p (carryTok s.cur.site t)) ops) := by
  rw [State.steer, State.firing, hbad]

end Steer

/-! ## DISP (R103) -/

theorem indexOf_eq {t : Ty} (ht : t ∈ tyIntOrNone) (v : Word) :
    indexOf t v = if isSigned t || t == .none then (fit t v).toInt else ((fit t v).toNat : Int) := by
  rw [indexOf, ← number_eq_readInt ht, number]
  by_cases h : t = .none
  · simp [h, fit]
  · simp [h]

theorem dispDest_tableOf (s : State) (site : Site) (tbl : Nat) (d0 : Dest) (i : Int) :
    dispDest (s.tableOf site tbl) d0 i =
      if 0 ≤ i ∧ i < descExits ((s.core site.core).descOf site.cslot tbl) then
        (s.core site.core).tableEntry site.cslot tbl i.toNat else d0 := by
  have hlen : (s.tableOf site tbl).length = descExits ((s.core site.core).descOf site.cslot tbl) := by
    simp [State.tableOf]
  simp only [dispDest, Bool.and_eq_true, decide_eq_true_eq, hlen]
  split
  next h =>
    have hi : i.toNat < descExits ((s.core site.core).descOf site.cslot tbl) := by omega
    simp [State.tableOf, hi]
  next => rfl

theorem State.dispTo_of_read {s : State} {p : Par} {tbl : BitVec 6} {ops : List Tok} {r : Tok} (hops : clean ops)
    (hr : isRead r = true) :
    s.dispTo p tbl ops r = .next (s.finish p latGraph
      [(dispDest (s.tableOf s.cur.site tbl.toNat) p.d0 (indexOf p.ty r.val), carryTok s.cur.site s.cur.l)] ops) := by
  simp [State.dispTo, badInput_of_clean hops, hr]

end Sys2Proof.Machine

namespace Sys2Proof.Claims

open Sys2Proof.Machine

/-- Settles O7: the firing on a core whose divide unit is taken, then the quotient and the remainder by `intDiv_eq` and
`intRem_eq`. -/
theorem integerDivision : Obligations.IntegerDivision := by
  unfold Obligations.IntegerDivision
  intro s p imm b hint u a q r
  have ht := mem_tyIntOrNone (.inl hint)
  have hq : intDiv p.ty s.cur.l.val b = q := intDiv_eq ht ..
  have hr : intRem p.ty s.cur.l.val b = r := intRem_eq ht ..
  refine ⟨?_, ?_, ?_⟩
  · intro h hb
    have hu : scalars u [s.cur.l, s.cur.r] := h
    rw [← hq, ← hr, hb]
    exact ⟨State.scalarNum_of_scalars hu _, State.scalarNum_of_scalars hu _⟩
  · intro h hb
    have hu : scalars u [s.cur.l] := h
    rw [← hq, ← hr, hb, ← immTok_val]
    exact ⟨State.scalarNum_of_scalars hu _, State.scalarNum_of_scalars hu _⟩
  · intro hs ha hb
    simp only [q, r, ha, hb]
    exact ⟨number_reduced_min_tdiv_neg_one hs, reduced_tmod_neg_one ..⟩

/-- Settles O8: each instruction fires with the model's function of its operands, which is the statement's. -/
theorem integerLogicAndShifts : Obligations.IntegerLogicAndShifts := by
  unfold Obligations.IntegerLogicAndShifts
  refine ⟨?and, ?or, ?xor, ?andn, ?shl, ?shr, ?sar, ?rol⟩
  case and => exact binary_of_bitwise (· &&& ·) (fun _ _ => rfl) (fun _ _ _ => rfl)
  case or => exact binary_of_bitwise (· ||| ·) (fun _ _ => rfl) (fun _ _ _ => rfl)
  case xor => exact binary_of_bitwise (· ^^^ ·) (fun _ _ => rfl) (fun _ _ _ => rfl)
  case andn => exact binary_of_bitwise (fun a b => a &&& ~~~b) (fun _ _ => rfl) (fun _ _ _ => rfl)
  case shl => exact binary_of_firing intShl (fun _ _ => rfl) (fun _ _ _ => rfl) fun _ => intShl_eq
  case shr => exact binary_of_firing intShr (fun _ _ => rfl) (fun _ _ _ => rfl) fun _ => intShr_eq
  case sar => exact binary_of_firing intSar (fun _ _ => rfl) (fun _ _ _ => rfl) fun _ => intSar_eq
  case rol => exact binary_of_firing intRol (fun _ _ => rfl) (fun _ _ _ => rfl) fun _ => intRol_eq

/-- Settles O2: STEER by what its predicate is, DISP by the entry that `dispDest` reads from the table. -/
theorem steerAndDispatchChooseADestination : Obligations.SteerAndDispatchChooseADestination := by
  unfold Obligations.SteerAndDispatchChooseADestination
  constructor
  · intro s p inv imm hty side
    have ht := mem_tyIntOrNone hty
    refine ⟨?_, ?_, ?_, ?_⟩
    · intro hops hr
      exact State.steer_of_read hops ((isRead_iff_reads _).2 hr) ht
    · intro hops
      simp only [side, ← immTok_val]
      exact State.steer_of_read hops (isRead_immTok p.ty imm) ht
    · intro hops hr
      exact State.steer_of_not_read hops (Bool.eq_false_iff.2 (mt (isRead_iff_reads _).1 hr))
    · intro t hbad hd2
      rw [← hd2]
      exact State.steer_of_badInput hbad
  · intro s p tbl imm hty k n signed side
    have hside (v : Word) : side v = dispDest (s.tableOf s.cur.site tbl.toNat) p.d0 (indexOf p.ty v) := by
      rw [dispDest_tableOf, indexOf_eq (mem_tyIntOrNone hty)]
    constructor
    · intro hops hr
      rw [hside]
      exact State.dispTo_of_read hops ((isRead_iff_reads _).2 hr)
    · intro hops
      rw [hside, ← immTok_val]
      exact State.dispTo_of_read hops (isRead_immTok p.ty imm)

end Sys2Proof.Claims
end

section
/-! PROOFS. Launches: the request of a QPUT, its packet and its slot (R227, R306, R308), and what a QWAIT waits for and gives
(R228). -/

namespace Sys2Proof.Machine

open Sys2Proof.Claims

/-! ## A memory firing on operands (R94, R203) -/

theorem all_isRead_of_reads {rd : List Tok} (h : reads rd) : rd.all isRead = true :=
  List.all_eq_true.2 fun t ht => by simpa [isRead] using h t ht

theorem State.memFiring_of_operands {s : State} {p : Par} {ops rd : List Tok} {k : State → State} (h : Claims.operands ops rd) :
    s.memFiring p rd ops k = .next (k s) := by
  obtain ⟨hclean, hreads⟩ := h
  rw [State.memFiring, State.firing_clean (badInput_of_clean hclean), all_isRead_of_reads hreads]
  rfl

/-! ## QPUT issues its packet read (R227) -/

theorem exec_qput {s : State} {p : Par} {queue : BitVec 6} (h : Claims.operands [s.cur.l] [s.cur.l]) :
    exec (.qput p queue) s = .next (s.qput p queue none [s.cur.l]) := by
  change execQput p queue s = _
  rw [execQput, State.memFiring_of_operands h]

theorem exec_qputArgs {s : State} {p : Par} {queue : BitVec 6}
    (h : Claims.operands [s.cur.l, s.cur.r] [s.cur.l, s.cur.r]) :
    exec (.qputArgs p queue) s = .next (s.qput p queue (some s.cur.r.val) [s.cur.l, s.cur.r]) := by
  change execQputArgs p queue s = _
  rw [execQputArgs, State.memFiring_of_operands h]

/-- The request of a QPUT whose packet address resolves to `t`. -/
def qputReq (a : Word) (queue : BitVec 6) (args : Option Word) (t : Target) : Req :=
  { opc := 0x189, cls := 3, paddr := firstPa t.parts, kind := .qput queue.toNat [], addr := a
    opa := args.getD 0, opb := if args.isSome then 1 else 0
    pieces := (granulesIn t.parts).map fun g => { place := g.1, len := g.2.1, off := g.2.2, op := .read } }

theorem State.qput_of_resolve {s : State} {p : Par} {queue : BitVec 6} {args : Option Word} {ops : List Tok} {t : Target}
    (h : s.resolve s.cur.site { spaces := [0, 1, 2, 5] } s.cur.l.val 256 = .ok t) :
    s.qput p queue args ops = s.fireReq p 0 [] ops (qputReq s.cur.l.val queue args t) := by
  rw [State.qput, h]
  rfl

/-! ## The packet goes to its slot (R227, R306, R308) -/

theorem State.id_of_req? {s : State} {id : Nat} {r : Req} (h : s.req? id = some r) : r.id = id := by
  simpa using List.find?_some h

theorem exec_memoryRequestPerform_qput {s : State} {i id : Nat} {r : Req} (hevent : s.readyEvents[i]? = some (.qput id))
    (hreq : s.req? id = some r) : exec (.memoryRequestPerform i) s = .next (s.enqueue r) := by
  change execMemoryRequestPerform i s = _
  simp only [execMemoryRequestPerform, hevent, hreq]

/-- R308: the packet is written with the argument address of R where R is given, and with the job of its context. -/
theorem State.packetOf_eq (s : State) (r : Req) :
    let image := leNat (Memory.getMany r.got 0 256)
    let v := if r.opb == 1 then image / 2 ^ 128 * 2 ^ 128 + bf r.opa.toNat 6 42 * 2 ^ 86 + image % 2 ^ 86 else image
    s.packetOf r =
      leBytes 256 (v / 2 ^ 44 * 2 ^ 44 + ((s.ctx? r.site.ctx).map fun c => c.job).getD 0 * 2 ^ 28 + v % 2 ^ 28) := by
  unfold State.packetOf
  cases s.ctx? r.site.ctx <;> rfl

section Enqueue

variable {s : State} {r : Req}

theorem State.enqueue_of_other_tenant (hst : r.status = 0) (h : (s.disp.queues.getD r.queueOf {}).tenant ≠ r.tenant) :
    s.enqueue r = s.endQput r stPerm 0 := by
  have hother : ((s.disp.queues.getD r.queueOf {}).tenant != r.tenant) = true := bne_iff_ne.2 h
  simp only [State.enqueue, hst, hother]
  rfl

theorem State.enqueue_of_own_tenant (hst : r.status = 0) (h : (s.disp.queues.getD r.queueOf {}).tenant = r.tenant) :
    let q := s.disp.queues.getD r.queueOf {}
    s.enqueue r = s.visit q.tenant (.visit .slot) (some (r.queueOf, r.id, r.site.ctx))
      { va := q.slotVa q.tail, len := 256, need := 2, op := .write (s.packetOf r) } := by
  have hown : ((s.disp.queues.getD r.queueOf {}).tenant != r.tenant) = false := bne_eq_false_iff_eq.2 h
  simp only [State.enqueue, hst, hown]
  rfl

end Enqueue

/-! ## The launch once its packet stands in its slot (R227, R264) -/

/-- The tail advances past the slot just written, and the launch becomes a child of its context. -/
def State.launch (s : State) (n ctx : Nat) : State :=
  let q := s.disp.queues.getD n {}
  (s.modDisp fun d =>
    { d with bells := d.bells + 1
             queues := d.queues.modify n fun q =>
               { q with tail := (q.tail + 1) % 2 ^ 32, puts := q.puts ++ [(q.tail, ctx)],
                         bell := q.bell ++ [((q.tail + 1) % 2 ^ 32, d.bells)] } }).modCtx ctx fun c =>
      { c with kids := c.kids ++ [{ queue := n, seq := q.tail }], regs := { c.regs with kids := c.regs.kids + 1 } }

theorem State.endSlot_of_written {s : State} {n id : Nat} {r : Req} (hreq : s.req? id = some r) :
    s.endSlot n id 0 = (s.launch n r.site.ctx).endQput r 0
      (BitVec.ofNat 64 (s.plat.pkg * 2 ^ 52 + n * 2 ^ 46 + (s.disp.queues.getD n {}).tail)) := by
  simp only [State.endSlot, hreq]
  rfl

theorem State.endQput_of_not_marked {s : State} {r : Req} (h : s.qputMode r ≠ .marked) (st : Nat) (result : Word) :
    s.endQput r st result = s.modReq r.id fun x => { x with done := true, silent := false, status := st, result := result } := by
  simp only [State.endQput, beq_eq_false_iff_ne.2 h]
  rfl

/-! ## QWAIT (R228) -/

section Wait

variable {s : State} {p : Par} {c : Ctx}

theorem execQwait_of_no_kids (hops : clean [s.cur.l]) (hctx : s.ctx? s.cur.site.ctx = some c) (hkids : c.kids = []) :
    execQwait p s = .next (s.finish p latGraph (spread p (scalarTok s.cur.site 0)) [s.cur.l]) := by
  simp only [execQwait, State.firing_clean (badInput_of_clean hops), hctx, hkids]
  rfl

theorem execQwait_of_kids (hops : clean [s.cur.l]) (hctx : s.ctx? s.cur.site.ctx = some c) (hkids : c.kids ≠ []) :
    execQwait p s = .next ((s.modCtx s.cur.site.ctx fun x => { x with qwaits := x.qwaits ++
      [{ site := s.cur.site, d0 := p.d0, d1 := p.d1, d2 := p.d2, count := c.kids.length }] }).finish p latGraph [] [s.cur.l]) := by
  simp [execQwait, State.firing_clean (badInput_of_clean hops), hctx, hkids]

end Wait

/-! ## QWAIT_COMPLETE (R228) -/

theorem waitWord_of_no_failure {kids : List Child} (h : ∀ k ∈ kids, k.status = 0) :
    waitWord kids = BitVec.ofNat 64 (kids.length * 2 ^ 32 + 0) := by
  have hbad : kids.filter (fun k => k.status != 0) = [] := List.filter_eq_nil_iff.2 fun k hk => by simp [h k hk]
  simp [waitWord, hbad]

/-- The child that comes strictly before every other is the one found to come no later than any. -/
theorem find?_order_le_eq_some {kids : List Child} {first : Child} (hmem : first ∈ kids)
    (hfirst : ∀ k ∈ kids, k = first ∨ first.order < k.order) :
    kids.find? (fun k => kids.all fun x => decide (k.order ≤ x.order)) = some first := by
  have hle {k : Child} : kids.all (fun x => decide (k.order ≤ x.order)) = true ↔ ∀ x ∈ kids, k.order ≤ x.order := by
    simp only [List.all_eq_true, decide_eq_true_eq]
  cases hk : kids.find? fun k => kids.all fun x => decide (k.order ≤ x.order) with
  | none =>
    have hleast : ∀ x ∈ kids, first.order ≤ x.order := fun x hx =>
      (hfirst x hx).elim (fun heq => Nat.le_of_eq (congrArg Child.order heq.symm)) Nat.le_of_lt
    exact absurd (hle.2 hleast) (List.find?_eq_none.1 hk first hmem)
  | some k =>
    have hnotAfter : k.order ≤ first.order :=
      hle.1 (List.find?_some (p := fun k : Child => kids.all fun x => decide (k.order ≤ x.order)) hk) first hmem
    obtain rfl | hafter := hfirst k (List.mem_of_find?_eq_some hk)
    · rfl
    · exact absurd hnotAfter (Nat.not_le.2 hafter)

theorem waitWord_of_first_failure {kids : List Child} {first : Child} (hmem : first ∈ kids) (hst : first.status ≠ 0)
    (hfirst : ∀ k ∈ kids, k.status ≠ 0 → k = first ∨ first.order < k.order) :
    waitWord kids = BitVec.ofNat 64 (kids.length * 2 ^ 32 + first.status) := by
  have hbad (k : Child) : k ∈ kids.filter (fun k => k.status != 0) ↔ k ∈ kids ∧ k.status ≠ 0 := by
    rw [List.mem_filter, bne_iff_ne]
  have hfind := find?_order_le_eq_some ((hbad first).2 ⟨hmem, hst⟩) fun k hk =>
    hfirst k ((hbad k).1 hk).1 ((hbad k).1 hk).2
  simp only [waitWord, hfind]

section Complete

variable {s : State} {i : Nat} {c : Ctx} {w : Wait} (hwait : (s.ctxs.flatMap fun c => c.qwaits.map fun w => (c, w))[i]? = some (c, w))

include hwait

theorem execQwaitComplete_of_done (hrun : c.mode = .running) (hdone : ∀ k ∈ c.kidsOf w, k.done = true) {word : Word}
    (hword : waitWord (c.kidsOf w) = word) :
    let v := scalarTok w.site word
    execQwaitComplete i s = .next ((s.modCtx c.id fun c => { c with qwaits := c.qwaits.erase w }).emitAll w.site latGraph 0
      [(w.d0, v), (w.d1, v), (w.d2, v)]) := by
  have hall : (c.kidsOf w).all (fun k => k.done) = true := List.all_eq_true.2 hdone
  simp [execQwaitComplete, hwait, hrun, hall, hword]

theorem execQwaitComplete_of_not_done (h : c.mode ≠ .running ∨ ∃ k ∈ c.kidsOf w, k.done = false) :
    execQwaitComplete i s = .next s := by
  have hguard : (c.mode == .running && (c.kidsOf w).all fun k => k.done) = false := by
    rcases h with hmode | ⟨k, hk, hdone⟩
    · simp [hmode]
    · have hall : (c.kidsOf w).all (fun k => k.done) = false := List.all_eq_false.2 ⟨k, hk, by simp [hdone]⟩
      simp [hall]
  simp only [execQwaitComplete, hwait, hguard]
  rfl

end Complete

end Sys2Proof.Machine

namespace Sys2Proof.Claims

open Sys2Proof.Machine

/-- Settles O32: QPUT by the request it issues, the packet that `enqueue` writes and the launch that `endSlot` makes; QWAIT by
the children of its context, QWAIT_COMPLETE by the word over those that it counts. -/
theorem launchesAndWaits : Obligations.LaunchesAndWaits := by
  unfold Obligations.LaunchesAndWaits
  refine ⟨?qput, ?qwait, ?qwaitComplete, ?perform, ?endSlot⟩
  case qput =>
    intro s p queue t l r put hresolve
    constructor
    · intro hops
      exact (exec_qput hops).trans (congrArg _ (State.qput_of_resolve hresolve))
    · intro hops
      exact (exec_qputArgs hops).trans (congrArg _ (State.qput_of_resolve hresolve))
  case qwait =>
    intro s p c hops hctx
    exact ⟨execQwait_of_no_kids hops hctx, execQwait_of_kids hops hctx⟩
  case qwaitComplete =>
    intro s i c w hwait kids gives
    constructor
    · intro hrun hdone
      constructor
      · intro hzero
        exact execQwaitComplete_of_done hwait hrun hdone (waitWord_of_no_failure hzero)
      · intro first hmem hst hfirst
        exact execQwaitComplete_of_done hwait hrun hdone (waitWord_of_first_failure hmem hst hfirst)
    · exact execQwaitComplete_of_not_done hwait
  case perform =>
    intro s i id r hevent hreq hst n q image job packet goes
    rw [exec_memoryRequestPerform_qput hevent hreq]
    constructor
    · intro htenant
      rw [State.enqueue_of_other_tenant hst htenant]
    · intro htenant
      rw [State.enqueue_of_own_tenant hst htenant, State.packetOf_eq, State.id_of_req? hreq]
      constructor
      · intro hargs
        rw [if_neg (by simpa using hargs)]
      · intro hargs
        rw [if_pos (by simpa using hargs)]
  case endSlot =>
    intro s n id r hreq q u hmode
    exact (State.endSlot_of_written hreq).trans (State.endQput_of_not_marked (s := u) hmode ..)

end Sys2Proof.Claims
end

section
/-! PROOFS. Decoding and encoding are inverse on well-formed token instructions (R3, R23). -/

namespace Sys2Proof

/-- The little-endian bytes of a number, read back (R3). -/
theorem leNat_leBytes (n v : Nat) : leNat (leBytes n v) = v % 256 ^ n := by
  induction n generalizing v with
  | zero => simp [leBytes, leNat, Nat.mod_one]
  | succ n ih =>
    have hp : (256 : Nat) ^ (n + 1) = 256 * 256 ^ n := by rw [Nat.pow_succ, Nat.mul_comm]
    rw [leBytes, leNat, ih, BitVec.toNat_ofNat, hp, Nat.mod_mul]

theorem length_leBytes (n v : Nat) : (leBytes n v).length = n := by
  induction n generalizing v with
  | zero => rfl
  | succ n ih => simp [leBytes, ih]

/-- R3: sixteen bytes of a word decode as the word does, and the bytes behind them remain. -/
theorem decode_leBytes (w : BitVec 128) (rest : List Byte) :
    decode (leBytes 16 w.toNat ++ rest) = (decodeWord w).map fun i => (i, rest) := by
  have hl := length_leBytes 16 w.toNat
  have ht : (leBytes 16 w.toNat ++ rest).take 16 = leBytes 16 w.toNat := List.take_left' hl
  have hd : (leBytes 16 w.toNat ++ rest).drop 16 = rest := List.drop_left' hl
  have hn : leNat (leBytes 16 w.toNat) = w.toNat := by
    rw [leNat_leBytes, Nat.mod_eq_of_lt (by simpa using w.isLt)]
  have hlen : ¬ (leBytes 16 w.toNat ++ rest).length < 16 := by simp [hl]
  unfold decode
  rw [if_neg hlen, ht, hd, hn, BitVec.ofNat_toNat, BitVec.setWidth_eq]
  cases decodeWord w <;> rfl

namespace Laws

/-- Every constructor's encoding law (R23). -/
theorem encoding_statement (i : Instr) : Encoding.Statement i := by
  cases i with
  | pass => exact Encoding.pass _
  | const => exact Encoding.const _ _ _
  | steer => exact Encoding.steer _ _
  | steerImm => exact Encoding.steerImm _ _ _
  | gate => exact Encoding.gate _
  | gateImm => exact Encoding.gateImm _ _
  | disp => exact Encoding.disp _ _
  | dispImm => exact Encoding.dispImm _ _ _
  | join => exact Encoding.join _ _
  | join3 => exact Encoding.join3 _ _
  | joinImm => exact Encoding.joinImm _ _ _
  | join3Imm => exact Encoding.join3Imm _ _ _
  | cntn => exact Encoding.cntn _
  | fnew => exact Encoding.fnew _ _ _ _ _
  | fnewNamed => exact Encoding.fnewNamed _ _ _ _ _
  | fnewNamedImm => exact Encoding.fnewNamedImm _ _ _ _ _ _
  | sendf => exact Encoding.sendf _ _ _
  | mkcont => exact Encoding.mkcont _ _ _
  | iter => exact Encoding.iter _ _ _ _ _
  | iter2 => exact Encoding.iter2 _ _ _ _ _
  | iter2Imm => exact Encoding.iter2Imm _ _ _ _ _ _
  | exit => exact Encoding.exit _
  | fset => exact Encoding.fset _ _
  | fget => exact Encoding.fget _ _
  | iseos => exact Encoding.iseos _
  | mkeos => exact Encoding.mkeos _
  | send => exact Encoding.send _ _
  | sendImm => exact Encoding.sendImm _ _ _
  | phopen => exact Encoding.phopen _ _
  | phclose => exact Encoding.phclose _ _
  | self => exact Encoding.self _ _
  | level => exact Encoding.level _ _ _
  | add => exact Encoding.add _
  | addImm => exact Encoding.addImm _ _
  | sub => exact Encoding.sub _
  | subImm => exact Encoding.subImm _ _
  | mul => exact Encoding.mul _
  | mulImm => exact Encoding.mulImm _ _
  | mulh => exact Encoding.mulh _
  | mulhImm => exact Encoding.mulhImm _ _
  | div => exact Encoding.div _
  | divImm => exact Encoding.divImm _ _
  | rem => exact Encoding.rem _
  | remImm => exact Encoding.remImm _ _
  | and => exact Encoding.and _
  | andImm => exact Encoding.andImm _ _
  | or => exact Encoding.or _
  | orImm => exact Encoding.orImm _ _
  | xor => exact Encoding.xor _
  | xorImm => exact Encoding.xorImm _ _
  | andn => exact Encoding.andn _
  | andnImm => exact Encoding.andnImm _ _
  | shl => exact Encoding.shl _
  | shlImm => exact Encoding.shlImm _ _
  | shr => exact Encoding.shr _
  | shrImm => exact Encoding.shrImm _ _
  | sar => exact Encoding.sar _
  | sarImm => exact Encoding.sarImm _ _
  | rol => exact Encoding.rol _
  | rolImm => exact Encoding.rolImm _ _
  | min => exact Encoding.min _
  | minImm => exact Encoding.minImm _ _
  | max => exact Encoding.max _
  | maxImm => exact Encoding.maxImm _ _
  | abs => exact Encoding.abs _
  | neg => exact Encoding.neg _
  | clz => exact Encoding.clz _
  | ctz => exact Encoding.ctz _
  | popc => exact Encoding.popc _
  | cmp => exact Encoding.cmp _ _
  | cmpImm => exact Encoding.cmpImm _ _ _
  | sel => exact Encoding.sel _
  | selImm => exact Encoding.selImm _ _
  | ext => exact Encoding.ext _
  | extImm => exact Encoding.extImm _ _
  | ins => exact Encoding.ins _
  | insImm => exact Encoding.insImm _ _
  | mad => exact Encoding.mad _
  | madImm => exact Encoding.madImm _ _
  | adds => exact Encoding.adds _
  | addsImm => exact Encoding.addsImm _ _
  | subs => exact Encoding.subs _
  | subsImm => exact Encoding.subsImm _ _
  | fadd => exact Encoding.fadd _ _
  | faddImm => exact Encoding.faddImm _ _ _
  | fsub => exact Encoding.fsub _ _
  | fsubImm => exact Encoding.fsubImm _ _ _
  | fmul => exact Encoding.fmul _ _
  | fmulImm => exact Encoding.fmulImm _ _ _
  | ffma => exact Encoding.ffma _ _
  | ffmaImm => exact Encoding.ffmaImm _ _ _
  | fdiv => exact Encoding.fdiv _ _
  | fdivImm => exact Encoding.fdivImm _ _ _
  | fsqrt => exact Encoding.fsqrt _ _
  | frcp => exact Encoding.frcp _ _
  | frsq => exact Encoding.frsq _ _
  | fmin => exact Encoding.fmin _
  | fminImm => exact Encoding.fminImm _ _
  | fmax => exact Encoding.fmax _
  | fmaxImm => exact Encoding.fmaxImm _ _
  | fabs => exact Encoding.fabs _
  | fneg => exact Encoding.fneg _
  | fcmp => exact Encoding.fcmp _ _
  | fcmpImm => exact Encoding.fcmpImm _ _ _
  | fclass => exact Encoding.fclass _
  | fcvt => exact Encoding.fcvt _ _ _ _
  | ftoi => exact Encoding.ftoi _ _ _
  | itof => exact Encoding.itof _ _ _ _
  | frnd => exact Encoding.frnd _ _
  | fldx => exact Encoding.fldx _ _
  | fldxImm => exact Encoding.fldxImm _ _ _
  | fgetx => exact Encoding.fgetx _
  | fexp2f => exact Encoding.fexp2f _
  | talloc => exact Encoding.talloc _ _ _ _ _ _
  | tref => exact Encoding.tref _
  | tdrop => exact Encoding.tdrop _
  | tview => exact Encoding.tview _
  | tviewImm => exact Encoding.tviewImm _ _
  | tinfo => exact Encoding.tinfo _ _
  | tfill => exact Encoding.tfill _
  | tfillImm => exact Encoding.tfillImm _ _
  | tcopy => exact Encoding.tcopy _ _
  | tcopyInto => exact Encoding.tcopyInto _
  | ttran => exact Encoding.ttran _
  | tget => exact Encoding.tget _ _
  | tgetImm => exact Encoding.tgetImm _ _ _
  | tset => exact Encoding.tset _ _
  | tsetImm => exact Encoding.tsetImm _ _ _
  | vrunA => exact Encoding.vrunA _ _
  | vrunAb => exact Encoding.vrunAb _ _
  | vrunAo => exact Encoding.vrunAo _ _
  | vrunAbo => exact Encoding.vrunAbo _ _
  | vruns => exact Encoding.vruns _ _
  | vruns2 => exact Encoding.vruns2 _ _
  | vstat => exact Encoding.vstat _
  | wld => exact Encoding.wld _ _ _ _ _ _
  | wfree => exact Encoding.wfree _ _
  | mma => exact Encoding.mma _ _ _ _ _ _ _ _
  | mmas => exact Encoding.mmas _ _ _ _ _
  | mmasImm => exact Encoding.mmasImm _ _ _ _ _ _
  | adrain => exact Encoding.adrain _ _ _ _ _
  | adrainImm => exact Encoding.adrainImm _ _ _ _ _ _
  | adrainSteer => exact Encoding.adrainSteer _ _ _ _ _ _
  | adrainSteerImm => exact Encoding.adrainSteerImm _ _ _ _ _ _ _
  | aclr => exact Encoding.aclr _
  | winfo => exact Encoding.winfo _ _
  | mstat => exact Encoding.mstat _ _ _
  | ld => exact Encoding.ld _
  | st => exact Encoding.st _
  | stImm => exact Encoding.stImm _ _
  | ldt => exact Encoding.ldt _ _ _ _ _
  | ldtScaled => exact Encoding.ldtScaled _ _ _ _ _
  | stt => exact Encoding.stt _ _
  | sttScaled => exact Encoding.sttScaled _ _
  | copy => exact Encoding.copy _ _ _
  | copyAddr => exact Encoding.copyAddr _ _ _
  | gath => exact Encoding.gath _ _
  | scat => exact Encoding.scat _ _
  | cred => exact Encoding.cred _ _ _
  | drain => exact Encoding.drain _ _
  | pfh => exact Encoding.pfh _ _
  | aop => exact Encoding.aop _ _ _
  | aopImm => exact Encoding.aopImm _ _ _ _
  | acas => exact Encoding.acas _ _
  | acasImm => exact Encoding.acasImm _ _ _
  | bupd => exact Encoding.bupd _ _ _
  | baxpy => exact Encoding.baxpy _ _
  | baxpyImm => exact Encoding.baxpyImm _ _ _
  | bara => exact Encoding.bara _ _
  | baraStatus => exact Encoding.baraStatus _ _
  | baraImm => exact Encoding.baraImm _ _ _
  | barw => exact Encoding.barw _
  | barwImm => exact Encoding.barwImm _ _
  | acq => exact Encoding.acq _ _ _ _
  | rel => exact Encoding.rel _ _ _ _
  | pclm => exact Encoding.pclm _ _
  | pclmImm => exact Encoding.pclmImm _ _ _
  | pcmt => exact Encoding.pcmt _ _
  | pcmtImm => exact Encoding.pcmtImm _ _ _
  | pawt => exact Encoding.pawt _ _
  | pawtImm => exact Encoding.pawtImm _ _ _
  | pret => exact Encoding.pret _ _
  | pretImm => exact Encoding.pretImm _ _ _
  | pinfo => exact Encoding.pinfo _ _
  | qput => exact Encoding.qput _ _
  | qputArgs => exact Encoding.qputArgs _ _
  | qwait => exact Encoding.qwait _
  | cload => exact Encoding.cload _ _
  | csel => exact Encoding.csel _
  | cswt => exact Encoding.cswt _ _
  | cfree => exact Encoding.cfree _ _
  | trap => exact Encoding.trap _ _
  | tret => exact Encoding.tret _
  | getc => exact Encoding.getc _ _
  | setc => exact Encoding.setc _ _
  | setcFpflags => exact Encoding.setcFpflags _
  | setcWatch => exact Encoding.setcWatch _ _
  | setcTimerCmp => exact Encoding.setcTimerCmp _
  | setcRasInject => exact Encoding.setcRasInject _
  | time => exact Encoding.time _
  | trace => exact Encoding.trace _ _
  | trace2 => exact Encoding.trace2 _ _
  | perf => exact Encoding.perf _ _
  | ifrd => exact Encoding.ifrd _
  | sbind => exact Encoding.sbind _ _
  | xtset => exact Encoding.xtset _
  | tokenAccept => exact Encoding.tokenAccept _
  | quarantineReport => exact Encoding.quarantineReport _
  | sourcePortArrival => exact Encoding.sourcePortArrival _
  | tileTransferReceive => exact Encoding.tileTransferReceive _
  | frameGrant => exact Encoding.frameGrant _
  | tileAllocationGrant => exact Encoding.tileAllocationGrant _ _
  | weightSlotGrant => exact Encoding.weightSlotGrant _
  | tokenPromotion => exact Encoding.tokenPromotion _
  | memoryRequestPerform => exact Encoding.memoryRequestPerform _
  | memoryResponse => exact Encoding.memoryResponse _
  | remoteTimeout => exact Encoding.remoteTimeout _
  | barwRelease => exact Encoding.barwRelease _
  | acqGrant => exact Encoding.acqGrant _
  | pipeWaitGrant => exact Encoding.pipeWaitGrant _
  | wldLoadComplete => exact Encoding.wldLoadComplete _ _
  | engineArbitration => exact Encoding.engineArbitration _
  | mmaRowIssue => exact Encoding.mmaRowIssue _
  | mmaRowCommit => exact Encoding.mmaRowCommit _
  | panDeadline => exact Encoding.panDeadline _
  | vrunStart => exact Encoding.vrunStart _
  | vrunComplete => exact Encoding.vrunComplete _ _
  | engineCommandComplete => exact Encoding.engineCommandComplete _ _
  | copyComplete => exact Encoding.copyComplete _ _
  | cloadComplete => exact Encoding.cloadComplete _ _
  | drainComplete => exact Encoding.drainComplete _
  | qwaitComplete => exact Encoding.qwaitComplete _
  | regionSweep => exact Encoding.regionSweep _
  | phcloseReturn => exact Encoding.phcloseReturn _
  | cselSwitch => exact Encoding.cselSwitch _
  | cswtInstant => exact Encoding.cswtInstant _
  | cfreeComplete => exact Encoding.cfreeComplete _
  | contextCompletion => exact Encoding.contextCompletion _
  | handlerEntry => exact Encoding.handlerEntry _
  | orphan => exact Encoding.orphan _ _
  | timer => exact Encoding.timer _
  | freeze => exact Encoding.freeze _
  | freezeMark => exact Encoding.freezeMark _
  | drainMarker => exact Encoding.drainMarker _ _
  | fence => exact Encoding.fence _ _
  | settleTimeout => exact Encoding.settleTimeout _
  | contextSave => exact Encoding.contextSave _
  | contextRestore => exact Encoding.contextRestore _
  | replayRequest => exact Encoding.replayRequest _
  | doorbell => exact Encoding.doorbell _ _ _
  | hostRegisterWrite => exact Encoding.hostRegisterWrite _ _ _
  | packetRead => exact Encoding.packetRead
  | launch => exact Encoding.launch _
  | gang => exact Encoding.gang _
  | configurationLoad => exact Encoding.configurationLoad _
  | barrier => exact Encoding.barrier _
  | preemptSave => exact Encoding.preemptSave _
  | preemptResume => exact Encoding.preemptResume _
  | preemptAbandon => exact Encoding.preemptAbandon _
  | dependenceMet => exact Encoding.dependenceMet _
  | admissionGrant => exact Encoding.admissionGrant _
  | extentBuild => exact Encoding.extentBuild _
  | argumentInjection => exact Encoding.argumentInjection _
  | halt => exact Encoding.halt _
  | stepNamed => exact Encoding.stepNamed _ _ _ _
  | stepNext => exact Encoding.stepNext _ _
  | stepEnd => exact Encoding.stepEnd _
  | arm => exact Encoding.arm _ _
  | cancel => exact Encoding.cancel _
  | sethen => exact Encoding.sethen _ _
  | setbrk => exact Encoding.setbrk _ _ _ _ _ _ _ _
  | read => exact Encoding.read _ _ _
  | cairnMessage => exact Encoding.cairnMessage _
  | causeReport => exact Encoding.causeReport _ _ _ _
  | memberReportTimeout => exact Encoding.memberReportTimeout _ _
  | resumeInstant => exact Encoding.resumeInstant _
  | rightsMessage => exact Encoding.rightsMessage _ _ _
  | translationWalk => exact Encoding.translationWalk _
  | fqreplyRetry => exact Encoding.fqreplyRetry _ _
  | fqreplyAbort => exact Encoding.fqreplyAbort _ _
  | tlbInvalidate => exact Encoding.tlbInvalidate _ _ _
  | pageMigration => exact Encoding.pageMigration _ _ _
  | hostWindowAccess => exact Encoding.hostWindowAccess _ _ _ _ _
  | watershedDivision => exact Encoding.watershedDivision _
  | marginBackoff => exact Encoding.marginBackoff _
  | marginBarExpiry => exact Encoding.marginBarExpiry _
  | predictiveFailure => exact Encoding.predictiveFailure _
  | flitRetry => exact Encoding.flitRetry _
  | linkDown => exact Encoding.linkDown _
  | keyRenewal => exact Encoding.keyRenewal _
  | gtcSync => exact Encoding.gtcSync _
  | powerRemoval => exact Encoding.powerRemoval
  | packageReset => exact Encoding.packageReset
  | bootStateAdvance => exact Encoding.bootStateAdvance _
  | coreAssignment => exact Encoding.coreAssignment _ _ _
  | tenantCreate => exact Encoding.tenantCreate _ _
  | tenantDestroy => exact Encoding.tenantDestroy _
  | coreMarkFailed => exact Encoding.coreMarkFailed _
  | logicalTableWrite => exact Encoding.logicalTableWrite _ _
  | getVersion => exact Encoding.getVersion _
  | getCapabilities => exact Encoding.getCapabilities _
  | negotiateAlgorithms => exact Encoding.negotiateAlgorithms _
  | getDigests => exact Encoding.getDigests _
  | getCertificate => exact Encoding.getCertificate _
  | challenge => exact Encoding.challenge _ _
  | getMeasurements => exact Encoding.getMeasurements _ _
  | keyExchange => exact Encoding.keyExchange _
  | finish => exact Encoding.finish _
  | endSession => exact Encoding.endSession _
  | unsupportedRequest => exact Encoding.unsupportedRequest _ _
  | retentionWindowExpiry => exact Encoding.retentionWindowExpiry _
  | tdispStateChange => exact Encoding.tdispStateChange _ _
  | jobMembershipList => exact Encoding.jobMembershipList _ _ _ _
  | connectionTableWrite => exact Encoding.connectionTableWrite _ _ _
  | transportError => exact Encoding.transportError _ _

end Laws

/-- The word of a well-formed instruction decodes to it (R23). -/
theorem decodeWord_of_encode {i : Instr} {w : BitVec 128} (hi : i.wellFormed = true) (hw : encode i = some w) :
    decodeWord w = .ok i := by
  obtain ⟨f, hf, rfl⟩ := Option.map_eq_some_iff.mp hw
  obtain ⟨hfits, hdec⟩ := Laws.encoding_statement i hi f hf
  rw [decodeWord, BitVec.toNat_ofNat, Nat.mod_eq_of_lt (f.toNat_lt hfits), f.ofNat_toNat hfits, hdec]

end Sys2Proof

namespace Sys2Proof.Claims

/-- Settles O57: the bytes give the word, and the word the instruction by the law of its constructor. -/
theorem decodeOfEncode : Obligations.DecodeOfEncode := by
  intro i w rest hi hw
  rw [decode_leBytes, decodeWord_of_encode hi hw]
  rfl

end Sys2Proof.Claims
end

section
/-! PROOFS. A word that decodes has one meaning: each decoder's fields are those of the instruction that it reads (R23, R51). -/

namespace Sys2Proof

/-- The fields `f` are exactly those of a well-formed instruction (R23). -/
def Faithful (f : Fields) (i : Instr) : Prop := i.fields = some f ∧ i.wellFormed = true

/-! ## Codes read and written back (R24, R28) -/

theorem portCode_of {n : Nat} {x : Port} (h : portOfCode n = some x) : portCode x = n := by
  unfold portOfCode at h; split at h <;> cases h <;> rfl
theorem modeCode_of {n : Nat} {x : Mode} (h : modeOfCode n = some x) : modeCode x = n := by
  unfold modeOfCode at h; split at h <;> cases h <;> rfl
theorem placeCode_of {n : Nat} {x : Place} (h : placeOfCode n = some x) : placeCode x = n := by
  unfold placeOfCode at h; split at h <;> cases h <;> rfl
theorem selfWhatCode_of {n : Nat} {x : SelfWhat} (h : selfWhatOfCode n = some x) : selfWhatCode x = n := by
  unfold selfWhatOfCode at h; split at h <;> cases h <;> rfl
theorem intCondCode_of {n : Nat} {x : IntCond} (h : intCondOfCode n = some x) : intCondCode x = n := by
  unfold intCondOfCode at h; split at h <;> cases h <;> rfl
theorem fltCondCode_of {n : Nat} {x : FltCond} (h : fltCondOfCode n = some x) : fltCondCode x = n := by
  unfold fltCondOfCode at h; split at h <;> cases h <;> rfl
theorem infoWhatCode_of {n : Nat} {x : InfoWhat} (h : infoWhatOfCode n = some x) : infoWhatCode x = n := by
  unfold infoWhatOfCode at h; split at h <;> cases h <;> rfl
theorem partCode_of {n : Nat} {x : Part} (h : partOfCode n = some x) : partCode x = n := by
  unfold partOfCode at h; split at h <;> cases h <;> rfl
theorem compCode_of {n : Nat} {x : Comp} (h : compOfCode n = some x) : compCode x = n := by
  unfold compOfCode at h; split at h <;> cases h <;> rfl
theorem redOpCode_of {n : Nat} {x : RedOp} (h : redOpOfCode n = some x) : redOpCode x = n := by
  unfold redOpOfCode at h; split at h <;> cases h <;> rfl
theorem atomOpCode_of {n : Nat} {x : AtomOp} (h : atomOpOfCode n = some x) : atomOpCode x = n := by
  unfold atomOpOfCode at h; split at h <;> cases h <;> rfl
theorem scopeCode_of {n : Nat} {x : Scope} (h : scopeOfCode n = some x) : scopeCode x = n := by
  unfold scopeOfCode at h; split at h <;> cases h <;> rfl
theorem geomCode_of {n : Nat} {x : Geom} (h : geomOfCode n = some x) : geomCode x = n := by
  unfold geomOfCode at h; split at h <;> cases h <;> rfl

theorem tyCode_tyOfCode {n : Nat} (h : n < 16) : tyCode (tyOfCode n) = n := by
  have hall : ∀ n < 16, tyCode (tyOfCode n) = n := by decide
  exact hall n h

theorem destCode_of {n : Nat} {d : Dest} (hn : n < 2 ^ 11) (h : destOfCode n = some d) : destCode d = n := by
  unfold destOfCode at h
  split at h
  · split at h <;> cases h
    subst_vars
    rfl
  · obtain ⟨x, hx, rfl⟩ := Option.map_eq_some_iff.mp h
    simp only [destCode, portCode_of hx, BitVec.toNat_ofNat]
    omega
  · split at h <;> cases h
    simp only [destCode, BitVec.toNat_ofNat]
    omega
  · cases h

/-- A one-bit field, read as a flag and written back. -/
theorem bit_bf (n k : Nat) : (if (bf n k 1 == 1) = true then 1 else 0) = bf n k 1 := by
  have h : bf n k 1 < 2 := Nat.mod_lt _ (by decide)
  simp only [beq_iff_eq]
  split <;> omega

/-- A type code read from a field is written back as it stood. -/
theorem tyCode_bf (n k : Nat) : tyCode (tyOfCode (bf n k 4)) = bf n k 4 := tyCode_tyOfCode (Nat.mod_lt _ (by decide))

/-- Fields that are slices of a word: all of `Fields.fits` but the zero field, which the decoder checks. -/
structure Fields.Sliced (f : Fields) : Prop where
  opc : f.opc < 2 ^ 9
  ar : f.ar < 2 ^ 2
  slot : f.slot < 2 ^ 8
  ty : f.ty < 2 ^ 4
  immr : f.immr < 2 ^ 1
  mod : f.mod < 2 ^ 7
  d0 : f.d0 < 2 ^ 11
  d1 : f.d1 < 2 ^ 11
  d2 : f.d2 < 2 ^ 11
  imm : f.imm < 2 ^ 32
  aux : f.aux < 2 ^ 16
  hist : f.hist < 2
  trcf : f.trcf < 2

/-- The 32-bit immediate is read and written back whole. -/
theorem Fields.Sliced.imm_toNat {f : Fields} (hf : f.Sliced) : (BitVec.ofNat 32 f.imm).toNat = f.imm :=
  (BitVec.toNat_ofNat _ _).trans (Nat.mod_eq_of_lt hf.imm)

/-- The 16-bit auxiliary field is read and written back whole. -/
theorem Fields.Sliced.aux_toNat {f : Fields} (hf : f.Sliced) : (BitVec.ofNat 16 f.aux).toNat = f.aux :=
  (BitVec.toNat_ofNat _ _).trans (Nat.mod_eq_of_lt hf.aux)

/-! ## The checks every decoder makes -/

theorem need_ok {α : Type} {b : Bool} {r : Reason} {k : Except Reason α} {a : α} : need b r k = .ok a ↔ b = true ∧ k = .ok a := by
  cases b <;> simp [need]

theorem get_ok {α β : Type} {o : Option α} {r : Reason} {k : α → Except Reason β} {b : β} :
    get o r k = .ok b ↔ ∃ a, o = some a ∧ k a = .ok b := by
  cases o <;> simp [get]

/-- The common fields that `decPar` reads as `p` and accepts (R23, R25). -/
structure Reads (f : Fields) (p : Par) (arOne : Bool) (tys : List Ty) (rule : DestRule) : Prop where
  zero : f.zero = 0
  slot0 : (!arOne || f.slot == 0) = true
  tyOk : tys.contains (tyOfCode f.ty) = true
  d0 : destOfCode f.d0 = some p.d0
  d1 : destOfCode f.d1 = some p.d1
  d2 : destOfCode f.d2 = some p.d2
  dests : destsOk rule p.d0 p.d1 p.d2 = true
  slot : BitVec.ofNat 8 f.slot = p.slot
  ty : tyOfCode f.ty = p.ty
  hist : (f.hist == 1) = p.hist
  trcf : (f.trcf == 1) = p.trcf

theorem decPar_ok {f : Fields} {zeros arOne : Bool} {tys : List Ty} {rule : DestRule} {typ : Bool} {k : Par → Except Reason Instr}
    {i : Instr} : decPar f zeros arOne tys rule typ k = .ok i ↔
      zeros = true ∧ typ = true ∧ ∃ p, Reads f p arOne tys rule ∧ k p = .ok i := by
  simp only [decPar, need_ok, get_ok, Bool.and_eq_true, beq_iff_eq]
  constructor
  · rintro ⟨⟨⟨h0, hz⟩, hs⟩, ⟨hty, ht⟩, d0, e0, d1, e1, d2, e2, hd, hk⟩
    exact ⟨hz, ht, _, ⟨h0, hs, hty, e0, e1, e2, hd, rfl, rfl, rfl, rfl⟩, hk⟩
  · rintro ⟨hz, ht, ⟨slot, ty, d0, d1, d2, hist, trcf⟩, hp, hk⟩
    obtain ⟨h0, hs, hty, e0, e1, e2, hd, rfl, rfl, rfl, rfl⟩ := hp
    exact ⟨⟨⟨h0, hz⟩, hs⟩, ⟨hty, ht⟩, d0, e0, d1, e1, d2, e2, hd, hk⟩

/-- The common fields read are well formed (R25). -/
theorem Reads.ok {f : Fields} {p : Par} {a : Bool} {tys : List Ty} {rule : DestRule} (h : Reads f p a tys rule) :
    p.ok a tys rule = true := by
  have hs := h.slot0
  simp only [Par.ok, ← h.ty, ← h.slot, h.tyOk, h.dests, Bool.and_true]
  cases a
  · rfl
  · simp only [Bool.not_true, Bool.false_or, beq_iff_eq] at hs ⊢
    rw [hs]
    rfl

/-- A flag of one bit written back (R23). -/
theorem flag_of {n : Nat} {b : Bool} (hn : n < 2) (h : (n == 1) = b) : (if b = true then 1 else 0) = n := by
  subst h
  simp only [beq_iff_eq]
  split <;> omega

/-- The common fields read write the word's fields back. -/
theorem Reads.fields {f : Fields} {p : Par} {a : Bool} {tys : List Ty} {rule : DestRule} (h : Reads f p a tys rule) (hf : f.Sliced) :
    p.fields f.opc f.ar f.immr f.mod f.imm f.aux = f := by
  have e0 := destCode_of hf.d0 h.d0
  have e1 := destCode_of hf.d1 h.d1
  have e2 := destCode_of hf.d2 h.d2
  simp only [Par.fields, ← h.slot, ← h.ty, BitVec.toNat_ofNat, Nat.mod_eq_of_lt hf.slot, tyCode_tyOfCode hf.ty, e0, e1, e2,
    flag_of hf.hist h.hist, flag_of hf.trcf h.trcf]
  rw [← h.zero]

/-- What a decoder has to show of the fields that its own operands stand in. -/
theorem Reads.faithful {f : Fields} {p : Par} {a : Bool} {tys : List Ty} {rule : DestRule} {i : Instr} {o n r m im x : Nat}
    (h : Reads f p a tys rule) (hf : f.Sliced) (hi : i.fields = some (p.fields o n r m im x)) (ho : f.opc = o) (ha : f.ar = n)
    (hr : f.immr = r) (hm : m = f.mod) (him : im = f.imm) (hx : x = f.aux) (hw : i.wellFormed = true) : Faithful f i := by
  subst ho ha hr hm him hx
  exact ⟨by rw [hi, h.fields hf], hw⟩

/-! ## One lemma for each decoder -/

theorem decPass_faithful {f : Fields} {i : Instr} (hf : f.Sliced) (ho : f.opc = 0x1) (ha : f.ar = 1) (hr : f.immr = 0)
    (h : decPass f = .ok i) : Faithful f i := by
  simp only [decPass, decPar_ok, Except.ok.injEq] at h
  obtain ⟨hz, -, p, hp, rfl⟩ := h
  simp only [Bool.and_eq_true, beq_iff_eq] at hz
  exact hp.faithful hf rfl ho ha hr (by simp only [hz])
    (by simp only [hz])
    (by simp only [hz]) hp.ok

theorem decConst_faithful {f : Fields} {i : Instr} (hf : f.Sliced) (ho : f.opc = 0x2) (ha : f.ar = 1) (hr : f.immr = 0)
    (h : decConst f = .ok i) : Faithful f i := by
  simp only [decConst, decPar_ok, Except.ok.injEq] at h
  obtain ⟨hz, ht, p, hp, rfl⟩ := h
  simp only [Bool.and_eq_true, beq_iff_eq, bf] at hz
  exact hp.faithful hf rfl ho ha hr (by have := hf.mod; simp only [bit_bf]; simp only [bf]; omega)
    hf.imm_toNat
    (by simp only [hz]) (by change (_ && _) = true; have := hp.ok; have := hp.ty; simp_all [bf])

theorem decSteer_faithful {f : Fields} {i : Instr} (hf : f.Sliced) (ho : f.opc = 0x3) (ha : f.ar = 2) (hr : f.immr = 0)
    (h : decSteer f = .ok i) : Faithful f i := by
  simp only [decSteer, decPar_ok, Except.ok.injEq] at h
  obtain ⟨hz, -, p, hp, rfl⟩ := h
  simp only [Bool.and_eq_true, beq_iff_eq, bf] at hz
  exact hp.faithful hf rfl ho ha hr (by have := hf.mod; simp only [bit_bf]; simp only [bf]; omega)
    (by simp only [hz])
    (by simp only [hz]) hp.ok

theorem decSteerImm_faithful {f : Fields} {i : Instr} (hf : f.Sliced) (ho : f.opc = 0x3) (ha : f.ar = 1) (hr : f.immr = 1)
    (h : decSteerImm f = .ok i) : Faithful f i := by
  simp only [decSteerImm, decPar_ok, Except.ok.injEq] at h
  obtain ⟨hz, -, p, hp, rfl⟩ := h
  simp only [Bool.and_eq_true, beq_iff_eq, bf] at hz
  exact hp.faithful hf rfl ho ha hr (by have := hf.mod; simp only [bit_bf]; simp only [bf]; omega)
    hf.imm_toNat
    (by simp only [hz]) hp.ok

theorem decGate_faithful {f : Fields} {i : Instr} (hf : f.Sliced) (ho : f.opc = 0x4) (ha : f.ar = 2) (hr : f.immr = 0)
    (h : decGate f = .ok i) : Faithful f i := by
  simp only [decGate, decPar_ok, Except.ok.injEq] at h
  obtain ⟨hz, -, p, hp, rfl⟩ := h
  simp only [Bool.and_eq_true, beq_iff_eq] at hz
  exact hp.faithful hf rfl ho ha hr (by simp only [hz])
    (by simp only [hz])
    (by simp only [hz]) hp.ok

theorem decGateImm_faithful {f : Fields} {i : Instr} (hf : f.Sliced) (ho : f.opc = 0x4) (ha : f.ar = 1) (hr : f.immr = 1)
    (h : decGateImm f = .ok i) : Faithful f i := by
  simp only [decGateImm, decPar_ok, Except.ok.injEq] at h
  obtain ⟨hz, -, p, hp, rfl⟩ := h
  simp only [Bool.and_eq_true, beq_iff_eq] at hz
  exact hp.faithful hf rfl ho ha hr (by simp only [hz])
    hf.imm_toNat
    (by simp only [hz]) hp.ok

theorem decDisp_faithful {f : Fields} {i : Instr} (hf : f.Sliced) (ho : f.opc = 0x5) (ha : f.ar = 2) (hr : f.immr = 0)
    (h : decDisp f = .ok i) : Faithful f i := by
  simp only [decDisp, decPar_ok, Except.ok.injEq] at h
  obtain ⟨hz, -, p, hp, rfl⟩ := h
  simp only [Bool.and_eq_true, beq_iff_eq, bf] at hz
  exact hp.faithful hf rfl ho ha hr (by simp only [hz])
    (by simp only [hz])
    (by have := hf.aux; simp only [BitVec.toNat_ofNat, bf]; omega) hp.ok

theorem decDispImm_faithful {f : Fields} {i : Instr} (hf : f.Sliced) (ho : f.opc = 0x5) (ha : f.ar = 1) (hr : f.immr = 1)
    (h : decDispImm f = .ok i) : Faithful f i := by
  simp only [decDispImm, decPar_ok, Except.ok.injEq] at h
  obtain ⟨hz, -, p, hp, rfl⟩ := h
  simp only [Bool.and_eq_true, beq_iff_eq, bf] at hz
  exact hp.faithful hf rfl ho ha hr (by simp only [hz])
    hf.imm_toNat
    (by have := hf.aux; simp only [BitVec.toNat_ofNat, bf]; omega) hp.ok

theorem decJoin_faithful {f : Fields} {i : Instr} (hf : f.Sliced) (ho : f.opc = 0x6) (ha : f.ar = 2) (hr : f.immr = 0)
    (h : decJoin f = .ok i) : Faithful f i := by
  simp only [decJoin, get_ok, decPar_ok, Except.ok.injEq] at h
  obtain ⟨x1, g1, hz, ht, p, hp, rfl⟩ := h
  simp only [Bool.and_eq_true, beq_iff_eq, bf] at hz
  exact hp.faithful hf rfl ho ha hr (by have := hf.mod; simp only [portCode_of g1]; simp only [bf]; omega)
    (by simp only [hz])
    (by simp only [hz]) (by change (_ && _) = true; have := hp.ok; have := hp.ty; simp_all [bf])

theorem decJoin3_faithful {f : Fields} {i : Instr} (hf : f.Sliced) (ho : f.opc = 0x6) (ha : f.ar = 3) (hr : f.immr = 0)
    (h : decJoin3 f = .ok i) : Faithful f i := by
  simp only [decJoin3, get_ok, decPar_ok, Except.ok.injEq] at h
  obtain ⟨x1, g1, hz, -, p, hp, rfl⟩ := h
  simp only [Bool.and_eq_true, beq_iff_eq, bf] at hz
  exact hp.faithful hf rfl ho ha hr (by have := hf.mod; simp only [portCode_of g1]; simp only [bf]; omega)
    (by simp only [hz])
    (by simp only [hz]) hp.ok

theorem decJoinImm_faithful {f : Fields} {i : Instr} (hf : f.Sliced) (ho : f.opc = 0x6) (ha : f.ar = 1) (hr : f.immr = 1)
    (h : decJoinImm f = .ok i) : Faithful f i := by
  simp only [decJoinImm, get_ok, decPar_ok, Except.ok.injEq] at h
  obtain ⟨x1, g1, hz, ht, p, hp, rfl⟩ := h
  simp only [Bool.and_eq_true, beq_iff_eq, bf] at hz
  exact hp.faithful hf rfl ho ha hr (by have := hf.mod; simp only [portCode_of g1]; simp only [bf]; omega)
    hf.imm_toNat
    (by simp only [hz]) (by change (_ && _) = true; have := hp.ok; have := hp.ty; simp_all [bf])

theorem decJoin3Imm_faithful {f : Fields} {i : Instr} (hf : f.Sliced) (ho : f.opc = 0x6) (ha : f.ar = 2) (hr : f.immr = 1)
    (h : decJoin3Imm f = .ok i) : Faithful f i := by
  simp only [decJoin3Imm, get_ok, decPar_ok, Except.ok.injEq] at h
  obtain ⟨x1, g1, hz, -, p, hp, rfl⟩ := h
  simp only [Bool.and_eq_true, beq_iff_eq, bf] at hz
  exact hp.faithful hf rfl ho ha hr (by have := hf.mod; simp only [portCode_of g1]; simp only [bf]; omega)
    hf.imm_toNat
    (by simp only [hz]) hp.ok

theorem decCntn_faithful {f : Fields} {i : Instr} (hf : f.Sliced) (ho : f.opc = 0x7) (ha : f.ar = 2) (hr : f.immr = 0)
    (h : decCntn f = .ok i) : Faithful f i := by
  simp only [decCntn, decPar_ok, Except.ok.injEq] at h
  obtain ⟨hz, -, p, hp, rfl⟩ := h
  simp only [Bool.and_eq_true, beq_iff_eq] at hz
  exact hp.faithful hf rfl ho ha hr (by simp only [hz])
    (by simp only [hz])
    (by simp only [hz]) hp.ok

theorem decFnew_faithful {f : Fields} {i : Instr} (hf : f.Sliced) (ho : f.opc = 0x8) (ha : f.ar = 1) (hr : f.immr = 0)
    (h : decFnew f = .ok i) : Faithful f i := by
  simp only [decFnew, need_ok, get_ok, decPar_ok, Except.ok.injEq] at h
  obtain ⟨n0, x1, g1, hz, ht, p, hp, x2, g2, rfl⟩ := h
  simp only [Bool.and_eq_true, beq_iff_eq, bf] at hz
  exact hp.faithful hf rfl ho ha hr (by have := hf.mod; simp only [placeCode_of g1]; simp only [bf]; omega)
    (by simp only [hz])
    (by have := hf.aux; simp only [portCode_of g2]; simp only [BitVec.toNat_ofNat, bf]; omega) (by change (_ && _) = true; have := hp.ok; have := hp.ty; have := placeCode_of g1; cases x1 <;> simp_all [placeCode, bf])

theorem decFnewNamed_faithful {f : Fields} {i : Instr} (hf : f.Sliced) (ho : f.opc = 0x8) (ha : f.ar = 2) (hr : f.immr = 0)
    (h : decFnewNamed f = .ok i) : Faithful f i := by
  simp only [decFnewNamed, need_ok, get_ok, decPar_ok, Except.ok.injEq] at h
  obtain ⟨n0, x1, g1, hz, ht, p, hp, x2, g2, rfl⟩ := h
  simp only [Bool.and_eq_true, beq_iff_eq, bf] at hz
  exact hp.faithful hf rfl ho ha hr (by have := hf.mod; simp only [placeCode_of g1]; simp only [bf]; omega)
    (by simp only [hz])
    (by have := hf.aux; simp only [portCode_of g2]; simp only [BitVec.toNat_ofNat, bf]; omega) (by change (_ && _) = true; have := hp.ok; have := hp.ty; have := placeCode_of g1; cases x1 <;> simp_all [placeCode, bf] <;> omega)

theorem decFnewNamedImm_faithful {f : Fields} {i : Instr} (hf : f.Sliced) (ho : f.opc = 0x8) (ha : f.ar = 1) (hr : f.immr = 1)
    (h : decFnewNamedImm f = .ok i) : Faithful f i := by
  simp only [decFnewNamedImm, need_ok, get_ok, decPar_ok, Except.ok.injEq] at h
  obtain ⟨n0, x1, g1, hz, ht, p, hp, x2, g2, rfl⟩ := h
  simp only [Bool.and_eq_true, beq_iff_eq, bf] at hz
  exact hp.faithful hf rfl ho ha hr (by have := hf.mod; simp only [placeCode_of g1]; simp only [bf]; omega)
    hf.imm_toNat
    (by have := hf.aux; simp only [portCode_of g2]; simp only [BitVec.toNat_ofNat, bf]; omega) (by change (_ && _) = true; have := hp.ok; have := hp.ty; have := placeCode_of g1; cases x1 <;> simp_all [placeCode, bf] <;> omega)

theorem decSendf_faithful {f : Fields} {i : Instr} (hf : f.Sliced) (ho : f.opc = 0x9) (ha : f.ar = 2) (hr : f.immr = 0)
    (h : decSendf f = .ok i) : Faithful f i := by
  simp only [decSendf, get_ok, decPar_ok, Except.ok.injEq] at h
  obtain ⟨hz, -, p, hp, x1, g1, rfl⟩ := h
  simp only [Bool.and_eq_true, beq_iff_eq, bf] at hz
  exact hp.faithful hf rfl ho ha hr (by simp only [hz])
    (by simp only [hz])
    (by have := hf.aux; simp only [portCode_of g1]; simp only [BitVec.toNat_ofNat, bf]; omega) hp.ok

theorem decMkcont_faithful {f : Fields} {i : Instr} (hf : f.Sliced) (ho : f.opc = 0xa) (ha : f.ar = 1) (hr : f.immr = 0)
    (h : decMkcont f = .ok i) : Faithful f i := by
  simp only [decMkcont, get_ok, decPar_ok, Except.ok.injEq] at h
  obtain ⟨hz, -, p, hp, x1, g1, rfl⟩ := h
  simp only [Bool.and_eq_true, beq_iff_eq, bf] at hz
  exact hp.faithful hf rfl ho ha hr (by simp only [hz])
    (by simp only [hz])
    (by have := hf.aux; simp only [portCode_of g1]; simp only [BitVec.toNat_ofNat, bf]; omega) hp.ok

theorem decIter_faithful {f : Fields} {i : Instr} (hf : f.Sliced) (ho : f.opc = 0xb) (ha : f.ar = 1) (hr : f.immr = 0)
    (h : decIter f = .ok i) : Faithful f i := by
  simp only [decIter, get_ok, decPar_ok, Except.ok.injEq] at h
  obtain ⟨hz, ht, p, hp, x1, g1, rfl⟩ := h
  simp only [Bool.and_eq_true, beq_iff_eq, bf] at hz
  exact hp.faithful hf rfl ho ha hr (by have := hf.mod; simp only [bit_bf]; simp only [bf]; omega)
    (by simp only [hz])
    (by have := hf.aux; simp only [portCode_of g1]; simp only [BitVec.toNat_ofNat, bf]; omega) (by change (_ && _) = true; have := hp.ok; have := hp.ty; simp_all [bf])

theorem decIter2_faithful {f : Fields} {i : Instr} (hf : f.Sliced) (ho : f.opc = 0xb) (ha : f.ar = 2) (hr : f.immr = 0)
    (h : decIter2 f = .ok i) : Faithful f i := by
  simp only [decIter2, need_ok, get_ok, decPar_ok, Except.ok.injEq] at h
  obtain ⟨hz, ht, p, hp, x1, g1, n0, rfl⟩ := h
  simp only [Bool.and_eq_true, beq_iff_eq, bf] at hz
  exact hp.faithful hf rfl ho ha hr (by have := hf.mod; simp only [bit_bf]; simp only [bf]; omega)
    (by simp only [hz])
    (by have := hf.aux; simp only [portCode_of g1]; simp only [BitVec.toNat_ofNat, bf]; omega) (by change (_ && _) = true; have := hp.ok; have := hp.ty; simp_all [bf])

theorem decIter2Imm_faithful {f : Fields} {i : Instr} (hf : f.Sliced) (ho : f.opc = 0xb) (ha : f.ar = 1) (hr : f.immr = 1)
    (h : decIter2Imm f = .ok i) : Faithful f i := by
  simp only [decIter2Imm, need_ok, get_ok, decPar_ok, Except.ok.injEq] at h
  obtain ⟨hz, ht, p, hp, x1, g1, n0, rfl⟩ := h
  simp only [Bool.and_eq_true, beq_iff_eq, bf] at hz
  exact hp.faithful hf rfl ho ha hr (by have := hf.mod; simp only [bit_bf]; simp only [bf]; omega)
    hf.imm_toNat
    (by have := hf.aux; simp only [portCode_of g1]; simp only [BitVec.toNat_ofNat, bf]; omega) (by change (_ && _) = true; have := hp.ok; have := hp.ty; simp_all [bf])

theorem decExit_faithful {f : Fields} {i : Instr} (hf : f.Sliced) (ho : f.opc = 0xc) (ha : f.ar = 1) (hr : f.immr = 0)
    (h : decExit f = .ok i) : Faithful f i := by
  simp only [decExit, decPar_ok, Except.ok.injEq] at h
  obtain ⟨hz, -, p, hp, rfl⟩ := h
  simp only [Bool.and_eq_true, beq_iff_eq] at hz
  exact hp.faithful hf rfl ho ha hr (by simp only [hz])
    (by simp only [hz])
    (by simp only [hz]) hp.ok

theorem decFset_faithful {f : Fields} {i : Instr} (hf : f.Sliced) (ho : f.opc = 0xd) (ha : f.ar = 1) (hr : f.immr = 0)
    (h : decFset f = .ok i) : Faithful f i := by
  simp only [decFset, decPar_ok, Except.ok.injEq] at h
  obtain ⟨hz, -, p, hp, rfl⟩ := h
  simp only [Bool.and_eq_true, beq_iff_eq, bf] at hz
  exact hp.faithful hf rfl ho ha hr (by simp only [hz])
    (by simp only [hz])
    (by have := hf.aux; simp only [BitVec.toNat_ofNat, bf]; omega) hp.ok

theorem decFget_faithful {f : Fields} {i : Instr} (hf : f.Sliced) (ho : f.opc = 0xe) (ha : f.ar = 1) (hr : f.immr = 0)
    (h : decFget f = .ok i) : Faithful f i := by
  simp only [decFget, decPar_ok, Except.ok.injEq] at h
  obtain ⟨hz, -, p, hp, rfl⟩ := h
  simp only [Bool.and_eq_true, beq_iff_eq, bf] at hz
  exact hp.faithful hf rfl ho ha hr (by simp only [hz])
    (by simp only [hz])
    (by have := hf.aux; simp only [BitVec.toNat_ofNat, bf]; omega) hp.ok

theorem decIseos_faithful {f : Fields} {i : Instr} (hf : f.Sliced) (ho : f.opc = 0xf) (ha : f.ar = 1) (hr : f.immr = 0)
    (h : decIseos f = .ok i) : Faithful f i := by
  simp only [decIseos, decPar_ok, Except.ok.injEq] at h
  obtain ⟨hz, -, p, hp, rfl⟩ := h
  simp only [Bool.and_eq_true, beq_iff_eq] at hz
  exact hp.faithful hf rfl ho ha hr (by simp only [hz])
    (by simp only [hz])
    (by simp only [hz]) hp.ok

theorem decMkeos_faithful {f : Fields} {i : Instr} (hf : f.Sliced) (ho : f.opc = 0x10) (ha : f.ar = 1) (hr : f.immr = 0)
    (h : decMkeos f = .ok i) : Faithful f i := by
  simp only [decMkeos, decPar_ok, Except.ok.injEq] at h
  obtain ⟨hz, -, p, hp, rfl⟩ := h
  simp only [Bool.and_eq_true, beq_iff_eq] at hz
  exact hp.faithful hf rfl ho ha hr (by simp only [hz])
    (by simp only [hz])
    (by simp only [hz]) hp.ok

theorem decSend_faithful {f : Fields} {i : Instr} (hf : f.Sliced) (ho : f.opc = 0x11) (ha : f.ar = 2) (hr : f.immr = 0)
    (h : decSend f = .ok i) : Faithful f i := by
  simp only [decSend, decPar_ok, Except.ok.injEq] at h
  obtain ⟨hz, ht, p, hp, rfl⟩ := h
  simp only [Bool.and_eq_true, beq_iff_eq, bf] at hz
  exact hp.faithful hf rfl ho ha hr (by simp only [hz])
    (by simp only [hz])
    (by have := hf.aux; simp only [BitVec.toNat_ofNat, bf]; omega) (by change (_ && _) = true; have := hp.ok; have := hp.ty; simp_all [bf])

theorem decSendImm_faithful {f : Fields} {i : Instr} (hf : f.Sliced) (ho : f.opc = 0x11) (ha : f.ar = 1) (hr : f.immr = 1)
    (h : decSendImm f = .ok i) : Faithful f i := by
  simp only [decSendImm, decPar_ok, Except.ok.injEq] at h
  obtain ⟨hz, ht, p, hp, rfl⟩ := h
  simp only [Bool.and_eq_true, beq_iff_eq, bf] at hz
  exact hp.faithful hf rfl ho ha hr (by simp only [hz])
    hf.imm_toNat
    (by have := hf.aux; simp only [BitVec.toNat_ofNat, bf]; omega) (by change (_ && _) = true; have := hp.ok; have := hp.ty; simp_all [bf])

theorem decPhopen_faithful {f : Fields} {i : Instr} (hf : f.Sliced) (ho : f.opc = 0x12) (ha : f.ar = 1) (hr : f.immr = 0)
    (h : decPhopen f = .ok i) : Faithful f i := by
  simp only [decPhopen, decPar_ok, Except.ok.injEq] at h
  obtain ⟨hz, ht, p, hp, rfl⟩ := h
  simp only [Bool.and_eq_true, beq_iff_eq, bf] at hz
  exact hp.faithful hf rfl ho ha hr (by simp only [hz])
    (by simp only [hz])
    (by have := hf.aux; simp only [BitVec.toNat_ofNat, bf]; omega) (by change (_ && _) = true; have := hp.ok; have := hp.ty; simp_all [bf])

theorem decPhclose_faithful {f : Fields} {i : Instr} (hf : f.Sliced) (ho : f.opc = 0x13) (ha : f.ar = 1) (hr : f.immr = 0)
    (h : decPhclose f = .ok i) : Faithful f i := by
  simp only [decPhclose, decPar_ok, Except.ok.injEq] at h
  obtain ⟨hz, ht, p, hp, rfl⟩ := h
  simp only [Bool.and_eq_true, beq_iff_eq, bf] at hz
  exact hp.faithful hf rfl ho ha hr (by simp only [hz])
    (by simp only [hz])
    (by have := hf.aux; simp only [BitVec.toNat_ofNat, bf]; omega) (by change (_ && _) = true; have := hp.ok; have := hp.ty; simp_all [bf])

theorem decSelf_faithful {f : Fields} {i : Instr} (hf : f.Sliced) (ho : f.opc = 0x14) (ha : f.ar = 1) (hr : f.immr = 0)
    (h : decSelf f = .ok i) : Faithful f i := by
  simp only [decSelf, get_ok, decPar_ok, Except.ok.injEq] at h
  obtain ⟨x1, g1, hz, -, p, hp, rfl⟩ := h
  simp only [Bool.and_eq_true, beq_iff_eq, bf] at hz
  exact hp.faithful hf rfl ho ha hr (by have := hf.mod; simp only [selfWhatCode_of g1]; simp only [bf]; omega)
    (by simp only [hz])
    (by simp only [hz]) hp.ok

theorem decLevel_faithful {f : Fields} {i : Instr} (hf : f.Sliced) (ho : f.opc = 0x15) (ha : f.ar = 1) (hr : f.immr = 0)
    (h : decLevel f = .ok i) : Faithful f i := by
  simp only [decLevel, decPar_ok, Except.ok.injEq] at h
  obtain ⟨hz, -, p, hp, rfl⟩ := h
  simp only [Bool.and_eq_true, beq_iff_eq, bf] at hz
  exact hp.faithful hf rfl ho ha hr (by have := hf.mod; simp only [bit_bf]; simp only [bf]; omega)
    (by simp only [hz])
    (by have := hf.aux; simp only [BitVec.toNat_ofNat, bf]; omega) hp.ok

theorem decAdd_faithful {f : Fields} {i : Instr} (hf : f.Sliced) (ho : f.opc = 0x40) (ha : f.ar = 2) (hr : f.immr = 0)
    (h : decAdd f = .ok i) : Faithful f i := by
  simp only [decAdd, decPar_ok, Except.ok.injEq] at h
  obtain ⟨hz, -, p, hp, rfl⟩ := h
  simp only [Bool.and_eq_true, beq_iff_eq] at hz
  exact hp.faithful hf rfl ho ha hr (by simp only [hz])
    (by simp only [hz])
    (by simp only [hz]) hp.ok

theorem decAddImm_faithful {f : Fields} {i : Instr} (hf : f.Sliced) (ho : f.opc = 0x40) (ha : f.ar = 1) (hr : f.immr = 1)
    (h : decAddImm f = .ok i) : Faithful f i := by
  simp only [decAddImm, decPar_ok, Except.ok.injEq] at h
  obtain ⟨hz, -, p, hp, rfl⟩ := h
  simp only [Bool.and_eq_true, beq_iff_eq] at hz
  exact hp.faithful hf rfl ho ha hr (by simp only [hz])
    hf.imm_toNat
    (by simp only [hz]) hp.ok

theorem decSub_faithful {f : Fields} {i : Instr} (hf : f.Sliced) (ho : f.opc = 0x41) (ha : f.ar = 2) (hr : f.immr = 0)
    (h : decSub f = .ok i) : Faithful f i := by
  simp only [decSub, decPar_ok, Except.ok.injEq] at h
  obtain ⟨hz, -, p, hp, rfl⟩ := h
  simp only [Bool.and_eq_true, beq_iff_eq] at hz
  exact hp.faithful hf rfl ho ha hr (by simp only [hz])
    (by simp only [hz])
    (by simp only [hz]) hp.ok

theorem decSubImm_faithful {f : Fields} {i : Instr} (hf : f.Sliced) (ho : f.opc = 0x41) (ha : f.ar = 1) (hr : f.immr = 1)
    (h : decSubImm f = .ok i) : Faithful f i := by
  simp only [decSubImm, decPar_ok, Except.ok.injEq] at h
  obtain ⟨hz, -, p, hp, rfl⟩ := h
  simp only [Bool.and_eq_true, beq_iff_eq] at hz
  exact hp.faithful hf rfl ho ha hr (by simp only [hz])
    hf.imm_toNat
    (by simp only [hz]) hp.ok

theorem decMul_faithful {f : Fields} {i : Instr} (hf : f.Sliced) (ho : f.opc = 0x42) (ha : f.ar = 2) (hr : f.immr = 0)
    (h : decMul f = .ok i) : Faithful f i := by
  simp only [decMul, decPar_ok, Except.ok.injEq] at h
  obtain ⟨hz, -, p, hp, rfl⟩ := h
  simp only [Bool.and_eq_true, beq_iff_eq] at hz
  exact hp.faithful hf rfl ho ha hr (by simp only [hz])
    (by simp only [hz])
    (by simp only [hz]) hp.ok

theorem decMulImm_faithful {f : Fields} {i : Instr} (hf : f.Sliced) (ho : f.opc = 0x42) (ha : f.ar = 1) (hr : f.immr = 1)
    (h : decMulImm f = .ok i) : Faithful f i := by
  simp only [decMulImm, decPar_ok, Except.ok.injEq] at h
  obtain ⟨hz, -, p, hp, rfl⟩ := h
  simp only [Bool.and_eq_true, beq_iff_eq] at hz
  exact hp.faithful hf rfl ho ha hr (by simp only [hz])
    hf.imm_toNat
    (by simp only [hz]) hp.ok

theorem decMulh_faithful {f : Fields} {i : Instr} (hf : f.Sliced) (ho : f.opc = 0x43) (ha : f.ar = 2) (hr : f.immr = 0)
    (h : decMulh f = .ok i) : Faithful f i := by
  simp only [decMulh, decPar_ok, Except.ok.injEq] at h
  obtain ⟨hz, -, p, hp, rfl⟩ := h
  simp only [Bool.and_eq_true, beq_iff_eq] at hz
  exact hp.faithful hf rfl ho ha hr (by simp only [hz])
    (by simp only [hz])
    (by simp only [hz]) hp.ok

theorem decMulhImm_faithful {f : Fields} {i : Instr} (hf : f.Sliced) (ho : f.opc = 0x43) (ha : f.ar = 1) (hr : f.immr = 1)
    (h : decMulhImm f = .ok i) : Faithful f i := by
  simp only [decMulhImm, decPar_ok, Except.ok.injEq] at h
  obtain ⟨hz, -, p, hp, rfl⟩ := h
  simp only [Bool.and_eq_true, beq_iff_eq] at hz
  exact hp.faithful hf rfl ho ha hr (by simp only [hz])
    hf.imm_toNat
    (by simp only [hz]) hp.ok

theorem decDiv_faithful {f : Fields} {i : Instr} (hf : f.Sliced) (ho : f.opc = 0x44) (ha : f.ar = 2) (hr : f.immr = 0)
    (h : decDiv f = .ok i) : Faithful f i := by
  simp only [decDiv, decPar_ok, Except.ok.injEq] at h
  obtain ⟨hz, -, p, hp, rfl⟩ := h
  simp only [Bool.and_eq_true, beq_iff_eq] at hz
  exact hp.faithful hf rfl ho ha hr (by simp only [hz])
    (by simp only [hz])
    (by simp only [hz]) hp.ok

theorem decDivImm_faithful {f : Fields} {i : Instr} (hf : f.Sliced) (ho : f.opc = 0x44) (ha : f.ar = 1) (hr : f.immr = 1)
    (h : decDivImm f = .ok i) : Faithful f i := by
  simp only [decDivImm, decPar_ok, Except.ok.injEq] at h
  obtain ⟨hz, -, p, hp, rfl⟩ := h
  simp only [Bool.and_eq_true, beq_iff_eq] at hz
  exact hp.faithful hf rfl ho ha hr (by simp only [hz])
    hf.imm_toNat
    (by simp only [hz]) hp.ok

theorem decRem_faithful {f : Fields} {i : Instr} (hf : f.Sliced) (ho : f.opc = 0x45) (ha : f.ar = 2) (hr : f.immr = 0)
    (h : decRem f = .ok i) : Faithful f i := by
  simp only [decRem, decPar_ok, Except.ok.injEq] at h
  obtain ⟨hz, -, p, hp, rfl⟩ := h
  simp only [Bool.and_eq_true, beq_iff_eq] at hz
  exact hp.faithful hf rfl ho ha hr (by simp only [hz])
    (by simp only [hz])
    (by simp only [hz]) hp.ok

theorem decRemImm_faithful {f : Fields} {i : Instr} (hf : f.Sliced) (ho : f.opc = 0x45) (ha : f.ar = 1) (hr : f.immr = 1)
    (h : decRemImm f = .ok i) : Faithful f i := by
  simp only [decRemImm, decPar_ok, Except.ok.injEq] at h
  obtain ⟨hz, -, p, hp, rfl⟩ := h
  simp only [Bool.and_eq_true, beq_iff_eq] at hz
  exact hp.faithful hf rfl ho ha hr (by simp only [hz])
    hf.imm_toNat
    (by simp only [hz]) hp.ok

theorem decAnd_faithful {f : Fields} {i : Instr} (hf : f.Sliced) (ho : f.opc = 0x46) (ha : f.ar = 2) (hr : f.immr = 0)
    (h : decAnd f = .ok i) : Faithful f i := by
  simp only [decAnd, decPar_ok, Except.ok.injEq] at h
  obtain ⟨hz, -, p, hp, rfl⟩ := h
  simp only [Bool.and_eq_true, beq_iff_eq] at hz
  exact hp.faithful hf rfl ho ha hr (by simp only [hz])
    (by simp only [hz])
    (by simp only [hz]) hp.ok

theorem decAndImm_faithful {f : Fields} {i : Instr} (hf : f.Sliced) (ho : f.opc = 0x46) (ha : f.ar = 1) (hr : f.immr = 1)
    (h : decAndImm f = .ok i) : Faithful f i := by
  simp only [decAndImm, decPar_ok, Except.ok.injEq] at h
  obtain ⟨hz, -, p, hp, rfl⟩ := h
  simp only [Bool.and_eq_true, beq_iff_eq] at hz
  exact hp.faithful hf rfl ho ha hr (by simp only [hz])
    hf.imm_toNat
    (by simp only [hz]) hp.ok

theorem decOr_faithful {f : Fields} {i : Instr} (hf : f.Sliced) (ho : f.opc = 0x47) (ha : f.ar = 2) (hr : f.immr = 0)
    (h : decOr f = .ok i) : Faithful f i := by
  simp only [decOr, decPar_ok, Except.ok.injEq] at h
  obtain ⟨hz, -, p, hp, rfl⟩ := h
  simp only [Bool.and_eq_true, beq_iff_eq] at hz
  exact hp.faithful hf rfl ho ha hr (by simp only [hz])
    (by simp only [hz])
    (by simp only [hz]) hp.ok

theorem decOrImm_faithful {f : Fields} {i : Instr} (hf : f.Sliced) (ho : f.opc = 0x47) (ha : f.ar = 1) (hr : f.immr = 1)
    (h : decOrImm f = .ok i) : Faithful f i := by
  simp only [decOrImm, decPar_ok, Except.ok.injEq] at h
  obtain ⟨hz, -, p, hp, rfl⟩ := h
  simp only [Bool.and_eq_true, beq_iff_eq] at hz
  exact hp.faithful hf rfl ho ha hr (by simp only [hz])
    hf.imm_toNat
    (by simp only [hz]) hp.ok

theorem decXor_faithful {f : Fields} {i : Instr} (hf : f.Sliced) (ho : f.opc = 0x48) (ha : f.ar = 2) (hr : f.immr = 0)
    (h : decXor f = .ok i) : Faithful f i := by
  simp only [decXor, decPar_ok, Except.ok.injEq] at h
  obtain ⟨hz, -, p, hp, rfl⟩ := h
  simp only [Bool.and_eq_true, beq_iff_eq] at hz
  exact hp.faithful hf rfl ho ha hr (by simp only [hz])
    (by simp only [hz])
    (by simp only [hz]) hp.ok

theorem decXorImm_faithful {f : Fields} {i : Instr} (hf : f.Sliced) (ho : f.opc = 0x48) (ha : f.ar = 1) (hr : f.immr = 1)
    (h : decXorImm f = .ok i) : Faithful f i := by
  simp only [decXorImm, decPar_ok, Except.ok.injEq] at h
  obtain ⟨hz, -, p, hp, rfl⟩ := h
  simp only [Bool.and_eq_true, beq_iff_eq] at hz
  exact hp.faithful hf rfl ho ha hr (by simp only [hz])
    hf.imm_toNat
    (by simp only [hz]) hp.ok

theorem decAndn_faithful {f : Fields} {i : Instr} (hf : f.Sliced) (ho : f.opc = 0x49) (ha : f.ar = 2) (hr : f.immr = 0)
    (h : decAndn f = .ok i) : Faithful f i := by
  simp only [decAndn, decPar_ok, Except.ok.injEq] at h
  obtain ⟨hz, -, p, hp, rfl⟩ := h
  simp only [Bool.and_eq_true, beq_iff_eq] at hz
  exact hp.faithful hf rfl ho ha hr (by simp only [hz])
    (by simp only [hz])
    (by simp only [hz]) hp.ok

theorem decAndnImm_faithful {f : Fields} {i : Instr} (hf : f.Sliced) (ho : f.opc = 0x49) (ha : f.ar = 1) (hr : f.immr = 1)
    (h : decAndnImm f = .ok i) : Faithful f i := by
  simp only [decAndnImm, decPar_ok, Except.ok.injEq] at h
  obtain ⟨hz, -, p, hp, rfl⟩ := h
  simp only [Bool.and_eq_true, beq_iff_eq] at hz
  exact hp.faithful hf rfl ho ha hr (by simp only [hz])
    hf.imm_toNat
    (by simp only [hz]) hp.ok

theorem decShl_faithful {f : Fields} {i : Instr} (hf : f.Sliced) (ho : f.opc = 0x4a) (ha : f.ar = 2) (hr : f.immr = 0)
    (h : decShl f = .ok i) : Faithful f i := by
  simp only [decShl, decPar_ok, Except.ok.injEq] at h
  obtain ⟨hz, -, p, hp, rfl⟩ := h
  simp only [Bool.and_eq_true, beq_iff_eq] at hz
  exact hp.faithful hf rfl ho ha hr (by simp only [hz])
    (by simp only [hz])
    (by simp only [hz]) hp.ok

theorem decShlImm_faithful {f : Fields} {i : Instr} (hf : f.Sliced) (ho : f.opc = 0x4a) (ha : f.ar = 1) (hr : f.immr = 1)
    (h : decShlImm f = .ok i) : Faithful f i := by
  simp only [decShlImm, decPar_ok, Except.ok.injEq] at h
  obtain ⟨hz, -, p, hp, rfl⟩ := h
  simp only [Bool.and_eq_true, beq_iff_eq] at hz
  exact hp.faithful hf rfl ho ha hr (by simp only [hz])
    hf.imm_toNat
    (by simp only [hz]) hp.ok

theorem decShr_faithful {f : Fields} {i : Instr} (hf : f.Sliced) (ho : f.opc = 0x4b) (ha : f.ar = 2) (hr : f.immr = 0)
    (h : decShr f = .ok i) : Faithful f i := by
  simp only [decShr, decPar_ok, Except.ok.injEq] at h
  obtain ⟨hz, -, p, hp, rfl⟩ := h
  simp only [Bool.and_eq_true, beq_iff_eq] at hz
  exact hp.faithful hf rfl ho ha hr (by simp only [hz])
    (by simp only [hz])
    (by simp only [hz]) hp.ok

theorem decShrImm_faithful {f : Fields} {i : Instr} (hf : f.Sliced) (ho : f.opc = 0x4b) (ha : f.ar = 1) (hr : f.immr = 1)
    (h : decShrImm f = .ok i) : Faithful f i := by
  simp only [decShrImm, decPar_ok, Except.ok.injEq] at h
  obtain ⟨hz, -, p, hp, rfl⟩ := h
  simp only [Bool.and_eq_true, beq_iff_eq] at hz
  exact hp.faithful hf rfl ho ha hr (by simp only [hz])
    hf.imm_toNat
    (by simp only [hz]) hp.ok

theorem decSar_faithful {f : Fields} {i : Instr} (hf : f.Sliced) (ho : f.opc = 0x4c) (ha : f.ar = 2) (hr : f.immr = 0)
    (h : decSar f = .ok i) : Faithful f i := by
  simp only [decSar, decPar_ok, Except.ok.injEq] at h
  obtain ⟨hz, -, p, hp, rfl⟩ := h
  simp only [Bool.and_eq_true, beq_iff_eq] at hz
  exact hp.faithful hf rfl ho ha hr (by simp only [hz])
    (by simp only [hz])
    (by simp only [hz]) hp.ok

theorem decSarImm_faithful {f : Fields} {i : Instr} (hf : f.Sliced) (ho : f.opc = 0x4c) (ha : f.ar = 1) (hr : f.immr = 1)
    (h : decSarImm f = .ok i) : Faithful f i := by
  simp only [decSarImm, decPar_ok, Except.ok.injEq] at h
  obtain ⟨hz, -, p, hp, rfl⟩ := h
  simp only [Bool.and_eq_true, beq_iff_eq] at hz
  exact hp.faithful hf rfl ho ha hr (by simp only [hz])
    hf.imm_toNat
    (by simp only [hz]) hp.ok

theorem decRol_faithful {f : Fields} {i : Instr} (hf : f.Sliced) (ho : f.opc = 0x4d) (ha : f.ar = 2) (hr : f.immr = 0)
    (h : decRol f = .ok i) : Faithful f i := by
  simp only [decRol, decPar_ok, Except.ok.injEq] at h
  obtain ⟨hz, -, p, hp, rfl⟩ := h
  simp only [Bool.and_eq_true, beq_iff_eq] at hz
  exact hp.faithful hf rfl ho ha hr (by simp only [hz])
    (by simp only [hz])
    (by simp only [hz]) hp.ok

theorem decRolImm_faithful {f : Fields} {i : Instr} (hf : f.Sliced) (ho : f.opc = 0x4d) (ha : f.ar = 1) (hr : f.immr = 1)
    (h : decRolImm f = .ok i) : Faithful f i := by
  simp only [decRolImm, decPar_ok, Except.ok.injEq] at h
  obtain ⟨hz, -, p, hp, rfl⟩ := h
  simp only [Bool.and_eq_true, beq_iff_eq] at hz
  exact hp.faithful hf rfl ho ha hr (by simp only [hz])
    hf.imm_toNat
    (by simp only [hz]) hp.ok

theorem decMin_faithful {f : Fields} {i : Instr} (hf : f.Sliced) (ho : f.opc = 0x4e) (ha : f.ar = 2) (hr : f.immr = 0)
    (h : decMin f = .ok i) : Faithful f i := by
  simp only [decMin, decPar_ok, Except.ok.injEq] at h
  obtain ⟨hz, -, p, hp, rfl⟩ := h
  simp only [Bool.and_eq_true, beq_iff_eq] at hz
  exact hp.faithful hf rfl ho ha hr (by simp only [hz])
    (by simp only [hz])
    (by simp only [hz]) hp.ok

theorem decMinImm_faithful {f : Fields} {i : Instr} (hf : f.Sliced) (ho : f.opc = 0x4e) (ha : f.ar = 1) (hr : f.immr = 1)
    (h : decMinImm f = .ok i) : Faithful f i := by
  simp only [decMinImm, decPar_ok, Except.ok.injEq] at h
  obtain ⟨hz, -, p, hp, rfl⟩ := h
  simp only [Bool.and_eq_true, beq_iff_eq] at hz
  exact hp.faithful hf rfl ho ha hr (by simp only [hz])
    hf.imm_toNat
    (by simp only [hz]) hp.ok

theorem decMax_faithful {f : Fields} {i : Instr} (hf : f.Sliced) (ho : f.opc = 0x4f) (ha : f.ar = 2) (hr : f.immr = 0)
    (h : decMax f = .ok i) : Faithful f i := by
  simp only [decMax, decPar_ok, Except.ok.injEq] at h
  obtain ⟨hz, -, p, hp, rfl⟩ := h
  simp only [Bool.and_eq_true, beq_iff_eq] at hz
  exact hp.faithful hf rfl ho ha hr (by simp only [hz])
    (by simp only [hz])
    (by simp only [hz]) hp.ok

theorem decMaxImm_faithful {f : Fields} {i : Instr} (hf : f.Sliced) (ho : f.opc = 0x4f) (ha : f.ar = 1) (hr : f.immr = 1)
    (h : decMaxImm f = .ok i) : Faithful f i := by
  simp only [decMaxImm, decPar_ok, Except.ok.injEq] at h
  obtain ⟨hz, -, p, hp, rfl⟩ := h
  simp only [Bool.and_eq_true, beq_iff_eq] at hz
  exact hp.faithful hf rfl ho ha hr (by simp only [hz])
    hf.imm_toNat
    (by simp only [hz]) hp.ok

theorem decAbs_faithful {f : Fields} {i : Instr} (hf : f.Sliced) (ho : f.opc = 0x50) (ha : f.ar = 1) (hr : f.immr = 0)
    (h : decAbs f = .ok i) : Faithful f i := by
  simp only [decAbs, decPar_ok, Except.ok.injEq] at h
  obtain ⟨hz, -, p, hp, rfl⟩ := h
  simp only [Bool.and_eq_true, beq_iff_eq] at hz
  exact hp.faithful hf rfl ho ha hr (by simp only [hz])
    (by simp only [hz])
    (by simp only [hz]) hp.ok

theorem decNeg_faithful {f : Fields} {i : Instr} (hf : f.Sliced) (ho : f.opc = 0x51) (ha : f.ar = 1) (hr : f.immr = 0)
    (h : decNeg f = .ok i) : Faithful f i := by
  simp only [decNeg, decPar_ok, Except.ok.injEq] at h
  obtain ⟨hz, -, p, hp, rfl⟩ := h
  simp only [Bool.and_eq_true, beq_iff_eq] at hz
  exact hp.faithful hf rfl ho ha hr (by simp only [hz])
    (by simp only [hz])
    (by simp only [hz]) hp.ok

theorem decClz_faithful {f : Fields} {i : Instr} (hf : f.Sliced) (ho : f.opc = 0x52) (ha : f.ar = 1) (hr : f.immr = 0)
    (h : decClz f = .ok i) : Faithful f i := by
  simp only [decClz, decPar_ok, Except.ok.injEq] at h
  obtain ⟨hz, -, p, hp, rfl⟩ := h
  simp only [Bool.and_eq_true, beq_iff_eq] at hz
  exact hp.faithful hf rfl ho ha hr (by simp only [hz])
    (by simp only [hz])
    (by simp only [hz]) hp.ok

theorem decCtz_faithful {f : Fields} {i : Instr} (hf : f.Sliced) (ho : f.opc = 0x53) (ha : f.ar = 1) (hr : f.immr = 0)
    (h : decCtz f = .ok i) : Faithful f i := by
  simp only [decCtz, decPar_ok, Except.ok.injEq] at h
  obtain ⟨hz, -, p, hp, rfl⟩ := h
  simp only [Bool.and_eq_true, beq_iff_eq] at hz
  exact hp.faithful hf rfl ho ha hr (by simp only [hz])
    (by simp only [hz])
    (by simp only [hz]) hp.ok

theorem decPopc_faithful {f : Fields} {i : Instr} (hf : f.Sliced) (ho : f.opc = 0x54) (ha : f.ar = 1) (hr : f.immr = 0)
    (h : decPopc f = .ok i) : Faithful f i := by
  simp only [decPopc, decPar_ok, Except.ok.injEq] at h
  obtain ⟨hz, -, p, hp, rfl⟩ := h
  simp only [Bool.and_eq_true, beq_iff_eq] at hz
  exact hp.faithful hf rfl ho ha hr (by simp only [hz])
    (by simp only [hz])
    (by simp only [hz]) hp.ok

theorem decCmp_faithful {f : Fields} {i : Instr} (hf : f.Sliced) (ho : f.opc = 0x55) (ha : f.ar = 2) (hr : f.immr = 0)
    (h : decCmp f = .ok i) : Faithful f i := by
  simp only [decCmp, get_ok, decPar_ok, Except.ok.injEq] at h
  obtain ⟨x1, g1, hz, -, p, hp, rfl⟩ := h
  simp only [Bool.and_eq_true, beq_iff_eq, bf] at hz
  exact hp.faithful hf rfl ho ha hr (by have := hf.mod; simp only [intCondCode_of g1]; simp only [bf]; omega)
    (by simp only [hz])
    (by simp only [hz]) hp.ok

theorem decCmpImm_faithful {f : Fields} {i : Instr} (hf : f.Sliced) (ho : f.opc = 0x55) (ha : f.ar = 1) (hr : f.immr = 1)
    (h : decCmpImm f = .ok i) : Faithful f i := by
  simp only [decCmpImm, get_ok, decPar_ok, Except.ok.injEq] at h
  obtain ⟨x1, g1, hz, -, p, hp, rfl⟩ := h
  simp only [Bool.and_eq_true, beq_iff_eq, bf] at hz
  exact hp.faithful hf rfl ho ha hr (by have := hf.mod; simp only [intCondCode_of g1]; simp only [bf]; omega)
    hf.imm_toNat
    (by simp only [hz]) hp.ok

theorem decSel_faithful {f : Fields} {i : Instr} (hf : f.Sliced) (ho : f.opc = 0x56) (ha : f.ar = 3) (hr : f.immr = 0)
    (h : decSel f = .ok i) : Faithful f i := by
  simp only [decSel, decPar_ok, Except.ok.injEq] at h
  obtain ⟨hz, -, p, hp, rfl⟩ := h
  simp only [Bool.and_eq_true, beq_iff_eq] at hz
  exact hp.faithful hf rfl ho ha hr (by simp only [hz])
    (by simp only [hz])
    (by simp only [hz]) hp.ok

theorem decSelImm_faithful {f : Fields} {i : Instr} (hf : f.Sliced) (ho : f.opc = 0x56) (ha : f.ar = 2) (hr : f.immr = 1)
    (h : decSelImm f = .ok i) : Faithful f i := by
  simp only [decSelImm, decPar_ok, Except.ok.injEq] at h
  obtain ⟨hz, -, p, hp, rfl⟩ := h
  simp only [Bool.and_eq_true, beq_iff_eq] at hz
  exact hp.faithful hf rfl ho ha hr (by simp only [hz])
    hf.imm_toNat
    (by simp only [hz]) hp.ok

theorem decExt_faithful {f : Fields} {i : Instr} (hf : f.Sliced) (ho : f.opc = 0x57) (ha : f.ar = 2) (hr : f.immr = 0)
    (h : decExt f = .ok i) : Faithful f i := by
  simp only [decExt, decPar_ok, Except.ok.injEq] at h
  obtain ⟨hz, -, p, hp, rfl⟩ := h
  simp only [Bool.and_eq_true, beq_iff_eq] at hz
  exact hp.faithful hf rfl ho ha hr (by simp only [hz])
    (by simp only [hz])
    (by simp only [hz]) hp.ok

theorem decExtImm_faithful {f : Fields} {i : Instr} (hf : f.Sliced) (ho : f.opc = 0x57) (ha : f.ar = 1) (hr : f.immr = 1)
    (h : decExtImm f = .ok i) : Faithful f i := by
  simp only [decExtImm, decPar_ok, Except.ok.injEq] at h
  obtain ⟨hz, -, p, hp, rfl⟩ := h
  simp only [Bool.and_eq_true, beq_iff_eq] at hz
  exact hp.faithful hf rfl ho ha hr (by simp only [hz])
    hf.imm_toNat
    (by simp only [hz]) hp.ok

theorem decIns_faithful {f : Fields} {i : Instr} (hf : f.Sliced) (ho : f.opc = 0x58) (ha : f.ar = 3) (hr : f.immr = 0)
    (h : decIns f = .ok i) : Faithful f i := by
  simp only [decIns, decPar_ok, Except.ok.injEq] at h
  obtain ⟨hz, -, p, hp, rfl⟩ := h
  simp only [Bool.and_eq_true, beq_iff_eq] at hz
  exact hp.faithful hf rfl ho ha hr (by simp only [hz])
    (by simp only [hz])
    (by simp only [hz]) hp.ok

theorem decInsImm_faithful {f : Fields} {i : Instr} (hf : f.Sliced) (ho : f.opc = 0x58) (ha : f.ar = 2) (hr : f.immr = 1)
    (h : decInsImm f = .ok i) : Faithful f i := by
  simp only [decInsImm, decPar_ok, Except.ok.injEq] at h
  obtain ⟨hz, -, p, hp, rfl⟩ := h
  simp only [Bool.and_eq_true, beq_iff_eq] at hz
  exact hp.faithful hf rfl ho ha hr (by simp only [hz])
    hf.imm_toNat
    (by simp only [hz]) hp.ok

theorem decMad_faithful {f : Fields} {i : Instr} (hf : f.Sliced) (ho : f.opc = 0x59) (ha : f.ar = 3) (hr : f.immr = 0)
    (h : decMad f = .ok i) : Faithful f i := by
  simp only [decMad, decPar_ok, Except.ok.injEq] at h
  obtain ⟨hz, -, p, hp, rfl⟩ := h
  simp only [Bool.and_eq_true, beq_iff_eq] at hz
  exact hp.faithful hf rfl ho ha hr (by simp only [hz])
    (by simp only [hz])
    (by simp only [hz]) hp.ok

theorem decMadImm_faithful {f : Fields} {i : Instr} (hf : f.Sliced) (ho : f.opc = 0x59) (ha : f.ar = 2) (hr : f.immr = 1)
    (h : decMadImm f = .ok i) : Faithful f i := by
  simp only [decMadImm, decPar_ok, Except.ok.injEq] at h
  obtain ⟨hz, -, p, hp, rfl⟩ := h
  simp only [Bool.and_eq_true, beq_iff_eq] at hz
  exact hp.faithful hf rfl ho ha hr (by simp only [hz])
    hf.imm_toNat
    (by simp only [hz]) hp.ok

theorem decAdds_faithful {f : Fields} {i : Instr} (hf : f.Sliced) (ho : f.opc = 0x5a) (ha : f.ar = 2) (hr : f.immr = 0)
    (h : decAdds f = .ok i) : Faithful f i := by
  simp only [decAdds, decPar_ok, Except.ok.injEq] at h
  obtain ⟨hz, -, p, hp, rfl⟩ := h
  simp only [Bool.and_eq_true, beq_iff_eq] at hz
  exact hp.faithful hf rfl ho ha hr (by simp only [hz])
    (by simp only [hz])
    (by simp only [hz]) hp.ok

theorem decAddsImm_faithful {f : Fields} {i : Instr} (hf : f.Sliced) (ho : f.opc = 0x5a) (ha : f.ar = 1) (hr : f.immr = 1)
    (h : decAddsImm f = .ok i) : Faithful f i := by
  simp only [decAddsImm, decPar_ok, Except.ok.injEq] at h
  obtain ⟨hz, -, p, hp, rfl⟩ := h
  simp only [Bool.and_eq_true, beq_iff_eq] at hz
  exact hp.faithful hf rfl ho ha hr (by simp only [hz])
    hf.imm_toNat
    (by simp only [hz]) hp.ok

theorem decSubs_faithful {f : Fields} {i : Instr} (hf : f.Sliced) (ho : f.opc = 0x5b) (ha : f.ar = 2) (hr : f.immr = 0)
    (h : decSubs f = .ok i) : Faithful f i := by
  simp only [decSubs, decPar_ok, Except.ok.injEq] at h
  obtain ⟨hz, -, p, hp, rfl⟩ := h
  simp only [Bool.and_eq_true, beq_iff_eq] at hz
  exact hp.faithful hf rfl ho ha hr (by simp only [hz])
    (by simp only [hz])
    (by simp only [hz]) hp.ok

theorem decSubsImm_faithful {f : Fields} {i : Instr} (hf : f.Sliced) (ho : f.opc = 0x5b) (ha : f.ar = 1) (hr : f.immr = 1)
    (h : decSubsImm f = .ok i) : Faithful f i := by
  simp only [decSubsImm, decPar_ok, Except.ok.injEq] at h
  obtain ⟨hz, -, p, hp, rfl⟩ := h
  simp only [Bool.and_eq_true, beq_iff_eq] at hz
  exact hp.faithful hf rfl ho ha hr (by simp only [hz])
    hf.imm_toNat
    (by simp only [hz]) hp.ok

theorem decFadd_faithful {f : Fields} {i : Instr} (hf : f.Sliced) (ho : f.opc = 0x80) (ha : f.ar = 2) (hr : f.immr = 0)
    (h : decFadd f = .ok i) : Faithful f i := by
  simp only [decFadd, get_ok, decPar_ok, Except.ok.injEq] at h
  obtain ⟨x1, g1, hz, -, p, hp, rfl⟩ := h
  simp only [Bool.and_eq_true, beq_iff_eq, bf] at hz
  exact hp.faithful hf rfl ho ha hr (by have := hf.mod; simp only [modeCode_of g1]; simp only [bf]; omega)
    (by simp only [hz])
    (by simp only [hz]) hp.ok

theorem decFaddImm_faithful {f : Fields} {i : Instr} (hf : f.Sliced) (ho : f.opc = 0x80) (ha : f.ar = 1) (hr : f.immr = 1)
    (h : decFaddImm f = .ok i) : Faithful f i := by
  simp only [decFaddImm, get_ok, decPar_ok, Except.ok.injEq] at h
  obtain ⟨x1, g1, hz, -, p, hp, rfl⟩ := h
  simp only [Bool.and_eq_true, beq_iff_eq, bf] at hz
  exact hp.faithful hf rfl ho ha hr (by have := hf.mod; simp only [modeCode_of g1]; simp only [bf]; omega)
    hf.imm_toNat
    (by simp only [hz]) hp.ok

theorem decFsub_faithful {f : Fields} {i : Instr} (hf : f.Sliced) (ho : f.opc = 0x81) (ha : f.ar = 2) (hr : f.immr = 0)
    (h : decFsub f = .ok i) : Faithful f i := by
  simp only [decFsub, get_ok, decPar_ok, Except.ok.injEq] at h
  obtain ⟨x1, g1, hz, -, p, hp, rfl⟩ := h
  simp only [Bool.and_eq_true, beq_iff_eq, bf] at hz
  exact hp.faithful hf rfl ho ha hr (by have := hf.mod; simp only [modeCode_of g1]; simp only [bf]; omega)
    (by simp only [hz])
    (by simp only [hz]) hp.ok

theorem decFsubImm_faithful {f : Fields} {i : Instr} (hf : f.Sliced) (ho : f.opc = 0x81) (ha : f.ar = 1) (hr : f.immr = 1)
    (h : decFsubImm f = .ok i) : Faithful f i := by
  simp only [decFsubImm, get_ok, decPar_ok, Except.ok.injEq] at h
  obtain ⟨x1, g1, hz, -, p, hp, rfl⟩ := h
  simp only [Bool.and_eq_true, beq_iff_eq, bf] at hz
  exact hp.faithful hf rfl ho ha hr (by have := hf.mod; simp only [modeCode_of g1]; simp only [bf]; omega)
    hf.imm_toNat
    (by simp only [hz]) hp.ok

theorem decFmul_faithful {f : Fields} {i : Instr} (hf : f.Sliced) (ho : f.opc = 0x82) (ha : f.ar = 2) (hr : f.immr = 0)
    (h : decFmul f = .ok i) : Faithful f i := by
  simp only [decFmul, get_ok, decPar_ok, Except.ok.injEq] at h
  obtain ⟨x1, g1, hz, -, p, hp, rfl⟩ := h
  simp only [Bool.and_eq_true, beq_iff_eq, bf] at hz
  exact hp.faithful hf rfl ho ha hr (by have := hf.mod; simp only [modeCode_of g1]; simp only [bf]; omega)
    (by simp only [hz])
    (by simp only [hz]) hp.ok

theorem decFmulImm_faithful {f : Fields} {i : Instr} (hf : f.Sliced) (ho : f.opc = 0x82) (ha : f.ar = 1) (hr : f.immr = 1)
    (h : decFmulImm f = .ok i) : Faithful f i := by
  simp only [decFmulImm, get_ok, decPar_ok, Except.ok.injEq] at h
  obtain ⟨x1, g1, hz, -, p, hp, rfl⟩ := h
  simp only [Bool.and_eq_true, beq_iff_eq, bf] at hz
  exact hp.faithful hf rfl ho ha hr (by have := hf.mod; simp only [modeCode_of g1]; simp only [bf]; omega)
    hf.imm_toNat
    (by simp only [hz]) hp.ok

theorem decFfma_faithful {f : Fields} {i : Instr} (hf : f.Sliced) (ho : f.opc = 0x83) (ha : f.ar = 3) (hr : f.immr = 0)
    (h : decFfma f = .ok i) : Faithful f i := by
  simp only [decFfma, get_ok, decPar_ok, Except.ok.injEq] at h
  obtain ⟨x1, g1, hz, -, p, hp, rfl⟩ := h
  simp only [Bool.and_eq_true, beq_iff_eq, bf] at hz
  exact hp.faithful hf rfl ho ha hr (by have := hf.mod; simp only [modeCode_of g1]; simp only [bf]; omega)
    (by simp only [hz])
    (by simp only [hz]) hp.ok

theorem decFfmaImm_faithful {f : Fields} {i : Instr} (hf : f.Sliced) (ho : f.opc = 0x83) (ha : f.ar = 2) (hr : f.immr = 1)
    (h : decFfmaImm f = .ok i) : Faithful f i := by
  simp only [decFfmaImm, get_ok, decPar_ok, Except.ok.injEq] at h
  obtain ⟨x1, g1, hz, -, p, hp, rfl⟩ := h
  simp only [Bool.and_eq_true, beq_iff_eq, bf] at hz
  exact hp.faithful hf rfl ho ha hr (by have := hf.mod; simp only [modeCode_of g1]; simp only [bf]; omega)
    hf.imm_toNat
    (by simp only [hz]) hp.ok

theorem decFdiv_faithful {f : Fields} {i : Instr} (hf : f.Sliced) (ho : f.opc = 0x84) (ha : f.ar = 2) (hr : f.immr = 0)
    (h : decFdiv f = .ok i) : Faithful f i := by
  simp only [decFdiv, get_ok, decPar_ok, Except.ok.injEq] at h
  obtain ⟨x1, g1, hz, -, p, hp, rfl⟩ := h
  simp only [Bool.and_eq_true, beq_iff_eq, bf] at hz
  exact hp.faithful hf rfl ho ha hr (by have := hf.mod; simp only [modeCode_of g1]; simp only [bf]; omega)
    (by simp only [hz])
    (by simp only [hz]) hp.ok

theorem decFdivImm_faithful {f : Fields} {i : Instr} (hf : f.Sliced) (ho : f.opc = 0x84) (ha : f.ar = 1) (hr : f.immr = 1)
    (h : decFdivImm f = .ok i) : Faithful f i := by
  simp only [decFdivImm, get_ok, decPar_ok, Except.ok.injEq] at h
  obtain ⟨x1, g1, hz, -, p, hp, rfl⟩ := h
  simp only [Bool.and_eq_true, beq_iff_eq, bf] at hz
  exact hp.faithful hf rfl ho ha hr (by have := hf.mod; simp only [modeCode_of g1]; simp only [bf]; omega)
    hf.imm_toNat
    (by simp only [hz]) hp.ok

theorem decFsqrt_faithful {f : Fields} {i : Instr} (hf : f.Sliced) (ho : f.opc = 0x85) (ha : f.ar = 1) (hr : f.immr = 0)
    (h : decFsqrt f = .ok i) : Faithful f i := by
  simp only [decFsqrt, get_ok, decPar_ok, Except.ok.injEq] at h
  obtain ⟨x1, g1, hz, -, p, hp, rfl⟩ := h
  simp only [Bool.and_eq_true, beq_iff_eq, bf] at hz
  exact hp.faithful hf rfl ho ha hr (by have := hf.mod; simp only [modeCode_of g1]; simp only [bf]; omega)
    (by simp only [hz])
    (by simp only [hz]) hp.ok

theorem decFrcp_faithful {f : Fields} {i : Instr} (hf : f.Sliced) (ho : f.opc = 0x86) (ha : f.ar = 1) (hr : f.immr = 0)
    (h : decFrcp f = .ok i) : Faithful f i := by
  simp only [decFrcp, get_ok, decPar_ok, Except.ok.injEq] at h
  obtain ⟨x1, g1, hz, -, p, hp, rfl⟩ := h
  simp only [Bool.and_eq_true, beq_iff_eq, bf] at hz
  exact hp.faithful hf rfl ho ha hr (by have := hf.mod; simp only [modeCode_of g1]; simp only [bf]; omega)
    (by simp only [hz])
    (by simp only [hz]) hp.ok

theorem decFrsq_faithful {f : Fields} {i : Instr} (hf : f.Sliced) (ho : f.opc = 0x87) (ha : f.ar = 1) (hr : f.immr = 0)
    (h : decFrsq f = .ok i) : Faithful f i := by
  simp only [decFrsq, get_ok, decPar_ok, Except.ok.injEq] at h
  obtain ⟨x1, g1, hz, -, p, hp, rfl⟩ := h
  simp only [Bool.and_eq_true, beq_iff_eq, bf] at hz
  exact hp.faithful hf rfl ho ha hr (by have := hf.mod; simp only [modeCode_of g1]; simp only [bf]; omega)
    (by simp only [hz])
    (by simp only [hz]) hp.ok

theorem decFmin_faithful {f : Fields} {i : Instr} (hf : f.Sliced) (ho : f.opc = 0x88) (ha : f.ar = 2) (hr : f.immr = 0)
    (h : decFmin f = .ok i) : Faithful f i := by
  simp only [decFmin, decPar_ok, Except.ok.injEq] at h
  obtain ⟨hz, -, p, hp, rfl⟩ := h
  simp only [Bool.and_eq_true, beq_iff_eq] at hz
  exact hp.faithful hf rfl ho ha hr (by simp only [hz])
    (by simp only [hz])
    (by simp only [hz]) hp.ok

theorem decFminImm_faithful {f : Fields} {i : Instr} (hf : f.Sliced) (ho : f.opc = 0x88) (ha : f.ar = 1) (hr : f.immr = 1)
    (h : decFminImm f = .ok i) : Faithful f i := by
  simp only [decFminImm, decPar_ok, Except.ok.injEq] at h
  obtain ⟨hz, -, p, hp, rfl⟩ := h
  simp only [Bool.and_eq_true, beq_iff_eq] at hz
  exact hp.faithful hf rfl ho ha hr (by simp only [hz])
    hf.imm_toNat
    (by simp only [hz]) hp.ok

theorem decFmax_faithful {f : Fields} {i : Instr} (hf : f.Sliced) (ho : f.opc = 0x89) (ha : f.ar = 2) (hr : f.immr = 0)
    (h : decFmax f = .ok i) : Faithful f i := by
  simp only [decFmax, decPar_ok, Except.ok.injEq] at h
  obtain ⟨hz, -, p, hp, rfl⟩ := h
  simp only [Bool.and_eq_true, beq_iff_eq] at hz
  exact hp.faithful hf rfl ho ha hr (by simp only [hz])
    (by simp only [hz])
    (by simp only [hz]) hp.ok

theorem decFmaxImm_faithful {f : Fields} {i : Instr} (hf : f.Sliced) (ho : f.opc = 0x89) (ha : f.ar = 1) (hr : f.immr = 1)
    (h : decFmaxImm f = .ok i) : Faithful f i := by
  simp only [decFmaxImm, decPar_ok, Except.ok.injEq] at h
  obtain ⟨hz, -, p, hp, rfl⟩ := h
  simp only [Bool.and_eq_true, beq_iff_eq] at hz
  exact hp.faithful hf rfl ho ha hr (by simp only [hz])
    hf.imm_toNat
    (by simp only [hz]) hp.ok

theorem decFabs_faithful {f : Fields} {i : Instr} (hf : f.Sliced) (ho : f.opc = 0x8a) (ha : f.ar = 1) (hr : f.immr = 0)
    (h : decFabs f = .ok i) : Faithful f i := by
  simp only [decFabs, decPar_ok, Except.ok.injEq] at h
  obtain ⟨hz, -, p, hp, rfl⟩ := h
  simp only [Bool.and_eq_true, beq_iff_eq] at hz
  exact hp.faithful hf rfl ho ha hr (by simp only [hz])
    (by simp only [hz])
    (by simp only [hz]) hp.ok

theorem decFneg_faithful {f : Fields} {i : Instr} (hf : f.Sliced) (ho : f.opc = 0x8b) (ha : f.ar = 1) (hr : f.immr = 0)
    (h : decFneg f = .ok i) : Faithful f i := by
  simp only [decFneg, decPar_ok, Except.ok.injEq] at h
  obtain ⟨hz, -, p, hp, rfl⟩ := h
  simp only [Bool.and_eq_true, beq_iff_eq] at hz
  exact hp.faithful hf rfl ho ha hr (by simp only [hz])
    (by simp only [hz])
    (by simp only [hz]) hp.ok

theorem decFcmp_faithful {f : Fields} {i : Instr} (hf : f.Sliced) (ho : f.opc = 0x8c) (ha : f.ar = 2) (hr : f.immr = 0)
    (h : decFcmp f = .ok i) : Faithful f i := by
  simp only [decFcmp, get_ok, decPar_ok, Except.ok.injEq] at h
  obtain ⟨x1, g1, hz, -, p, hp, rfl⟩ := h
  simp only [Bool.and_eq_true, beq_iff_eq, bf] at hz
  exact hp.faithful hf rfl ho ha hr (by have := hf.mod; simp only [fltCondCode_of g1]; simp only [bf]; omega)
    (by simp only [hz])
    (by simp only [hz]) hp.ok

theorem decFcmpImm_faithful {f : Fields} {i : Instr} (hf : f.Sliced) (ho : f.opc = 0x8c) (ha : f.ar = 1) (hr : f.immr = 1)
    (h : decFcmpImm f = .ok i) : Faithful f i := by
  simp only [decFcmpImm, get_ok, decPar_ok, Except.ok.injEq] at h
  obtain ⟨x1, g1, hz, -, p, hp, rfl⟩ := h
  simp only [Bool.and_eq_true, beq_iff_eq, bf] at hz
  exact hp.faithful hf rfl ho ha hr (by have := hf.mod; simp only [fltCondCode_of g1]; simp only [bf]; omega)
    hf.imm_toNat
    (by simp only [hz]) hp.ok

theorem decFclass_faithful {f : Fields} {i : Instr} (hf : f.Sliced) (ho : f.opc = 0x8d) (ha : f.ar = 1) (hr : f.immr = 0)
    (h : decFclass f = .ok i) : Faithful f i := by
  simp only [decFclass, decPar_ok, Except.ok.injEq] at h
  obtain ⟨hz, -, p, hp, rfl⟩ := h
  simp only [Bool.and_eq_true, beq_iff_eq] at hz
  exact hp.faithful hf rfl ho ha hr (by simp only [hz])
    (by simp only [hz])
    (by simp only [hz]) hp.ok

theorem decFcvt_faithful {f : Fields} {i : Instr} (hf : f.Sliced) (ho : f.opc = 0x8e) (ha : f.ar = 1) (hr : f.immr = 0)
    (h : decFcvt f = .ok i) : Faithful f i := by
  simp only [decFcvt, get_ok, decPar_ok, Except.ok.injEq] at h
  obtain ⟨x1, g1, hz, ht, p, hp, rfl⟩ := h
  simp only [Bool.and_eq_true, beq_iff_eq, bf] at hz
  exact hp.faithful hf rfl ho ha hr (by have := hf.mod; simp only [bit_bf, modeCode_of g1]; simp only [bf]; omega)
    (by simp only [hz])
    (by have := hf.aux; simp only [tyCode_bf]; simp only [bf]; omega) (by change (_ && _) = true; have := hp.ok; have := hp.ty; simp_all [bf])

theorem decFtoi_faithful {f : Fields} {i : Instr} (hf : f.Sliced) (ho : f.opc = 0x8f) (ha : f.ar = 1) (hr : f.immr = 0)
    (h : decFtoi f = .ok i) : Faithful f i := by
  simp only [decFtoi, get_ok, decPar_ok, Except.ok.injEq] at h
  obtain ⟨x1, g1, hz, ht, p, hp, rfl⟩ := h
  simp only [Bool.and_eq_true, beq_iff_eq, bf] at hz
  exact hp.faithful hf rfl ho ha hr (by have := hf.mod; simp only [modeCode_of g1]; simp only [bf]; omega)
    (by simp only [hz])
    (by have := hf.aux; simp only [tyCode_bf]; simp only [bf]; omega) (by change (_ && _) = true; have := hp.ok; have := hp.ty; simp_all [bf])

theorem decItof_faithful {f : Fields} {i : Instr} (hf : f.Sliced) (ho : f.opc = 0x90) (ha : f.ar = 1) (hr : f.immr = 0)
    (h : decItof f = .ok i) : Faithful f i := by
  simp only [decItof, get_ok, decPar_ok, Except.ok.injEq] at h
  obtain ⟨x1, g1, hz, ht, p, hp, rfl⟩ := h
  simp only [Bool.and_eq_true, beq_iff_eq, bf] at hz
  exact hp.faithful hf rfl ho ha hr (by have := hf.mod; simp only [bit_bf, modeCode_of g1]; simp only [bf]; omega)
    (by simp only [hz])
    (by have := hf.aux; simp only [tyCode_bf]; simp only [bf]; omega) (by change (_ && _) = true; have := hp.ok; have := hp.ty; simp_all [bf])

theorem decFrnd_faithful {f : Fields} {i : Instr} (hf : f.Sliced) (ho : f.opc = 0x91) (ha : f.ar = 1) (hr : f.immr = 0)
    (h : decFrnd f = .ok i) : Faithful f i := by
  simp only [decFrnd, get_ok, decPar_ok, Except.ok.injEq] at h
  obtain ⟨x1, g1, hz, -, p, hp, rfl⟩ := h
  simp only [Bool.and_eq_true, beq_iff_eq, bf] at hz
  exact hp.faithful hf rfl ho ha hr (by have := hf.mod; simp only [modeCode_of g1]; simp only [bf]; omega)
    (by simp only [hz])
    (by simp only [hz]) hp.ok

theorem decFldx_faithful {f : Fields} {i : Instr} (hf : f.Sliced) (ho : f.opc = 0x92) (ha : f.ar = 2) (hr : f.immr = 0)
    (h : decFldx f = .ok i) : Faithful f i := by
  simp only [decFldx, get_ok, decPar_ok, Except.ok.injEq] at h
  obtain ⟨x1, g1, hz, -, p, hp, rfl⟩ := h
  simp only [Bool.and_eq_true, beq_iff_eq, bf] at hz
  exact hp.faithful hf rfl ho ha hr (by have := hf.mod; simp only [modeCode_of g1]; simp only [bf]; omega)
    (by simp only [hz])
    (by simp only [hz]) hp.ok

theorem decFldxImm_faithful {f : Fields} {i : Instr} (hf : f.Sliced) (ho : f.opc = 0x92) (ha : f.ar = 1) (hr : f.immr = 1)
    (h : decFldxImm f = .ok i) : Faithful f i := by
  simp only [decFldxImm, get_ok, decPar_ok, Except.ok.injEq] at h
  obtain ⟨x1, g1, hz, -, p, hp, rfl⟩ := h
  simp only [Bool.and_eq_true, beq_iff_eq, bf] at hz
  exact hp.faithful hf rfl ho ha hr (by have := hf.mod; simp only [modeCode_of g1]; simp only [bf]; omega)
    hf.imm_toNat
    (by simp only [hz]) hp.ok

theorem decFgetx_faithful {f : Fields} {i : Instr} (hf : f.Sliced) (ho : f.opc = 0x93) (ha : f.ar = 1) (hr : f.immr = 0)
    (h : decFgetx f = .ok i) : Faithful f i := by
  simp only [decFgetx, decPar_ok, Except.ok.injEq] at h
  obtain ⟨hz, -, p, hp, rfl⟩ := h
  simp only [Bool.and_eq_true, beq_iff_eq] at hz
  exact hp.faithful hf rfl ho ha hr (by simp only [hz])
    (by simp only [hz])
    (by simp only [hz]) hp.ok

theorem decFexp2f_faithful {f : Fields} {i : Instr} (hf : f.Sliced) (ho : f.opc = 0x94) (ha : f.ar = 1) (hr : f.immr = 0)
    (h : decFexp2f f = .ok i) : Faithful f i := by
  simp only [decFexp2f, decPar_ok, Except.ok.injEq] at h
  obtain ⟨hz, -, p, hp, rfl⟩ := h
  simp only [Bool.and_eq_true, beq_iff_eq] at hz
  exact hp.faithful hf rfl ho ha hr (by simp only [hz])
    (by simp only [hz])
    (by simp only [hz]) hp.ok

theorem decTalloc_faithful {f : Fields} {i : Instr} (hf : f.Sliced) (ho : f.opc = 0xc0) (ha : f.ar = 1) (hr : f.immr = 0)
    (h : decTalloc f = .ok i) : Faithful f i := by
  simp only [decTalloc, need_ok, get_ok, decPar_ok, Except.ok.injEq] at h
  obtain ⟨n0, x1, g1, hz, ht, p, hp, rfl⟩ := h
  simp only [Bool.and_eq_true, beq_iff_eq, bf] at hz
  exact hp.faithful hf rfl ho ha hr (by have := hf.mod; simp only [bit_bf]; simp only [bf]; omega)
    (by have := hf.imm; simp only [BitVec.toNat_ofNat, bf]; omega)
    (by have := hf.aux; simp only [geomCode_of g1]; simp only [bf]; omega) (by change (_ && _) = true; have := hp.ok; have := hp.ty; simp_all [bf])

theorem decTref_faithful {f : Fields} {i : Instr} (hf : f.Sliced) (ho : f.opc = 0xc1) (ha : f.ar = 1) (hr : f.immr = 0)
    (h : decTref f = .ok i) : Faithful f i := by
  simp only [decTref, decPar_ok, Except.ok.injEq] at h
  obtain ⟨hz, -, p, hp, rfl⟩ := h
  simp only [Bool.and_eq_true, beq_iff_eq] at hz
  exact hp.faithful hf rfl ho ha hr (by simp only [hz])
    (by simp only [hz])
    (by simp only [hz]) hp.ok

theorem decTdrop_faithful {f : Fields} {i : Instr} (hf : f.Sliced) (ho : f.opc = 0xc2) (ha : f.ar = 1) (hr : f.immr = 0)
    (h : decTdrop f = .ok i) : Faithful f i := by
  simp only [decTdrop, decPar_ok, Except.ok.injEq] at h
  obtain ⟨hz, -, p, hp, rfl⟩ := h
  simp only [Bool.and_eq_true, beq_iff_eq] at hz
  exact hp.faithful hf rfl ho ha hr (by simp only [hz])
    (by simp only [hz])
    (by simp only [hz]) hp.ok

theorem decTview_faithful {f : Fields} {i : Instr} (hf : f.Sliced) (ho : f.opc = 0xc3) (ha : f.ar = 2) (hr : f.immr = 0)
    (h : decTview f = .ok i) : Faithful f i := by
  simp only [decTview, decPar_ok, Except.ok.injEq] at h
  obtain ⟨hz, -, p, hp, rfl⟩ := h
  simp only [Bool.and_eq_true, beq_iff_eq] at hz
  exact hp.faithful hf rfl ho ha hr (by simp only [hz])
    (by simp only [hz])
    (by simp only [hz]) hp.ok

theorem decTviewImm_faithful {f : Fields} {i : Instr} (hf : f.Sliced) (ho : f.opc = 0xc3) (ha : f.ar = 1) (hr : f.immr = 1)
    (h : decTviewImm f = .ok i) : Faithful f i := by
  simp only [decTviewImm, decPar_ok, Except.ok.injEq] at h
  obtain ⟨hz, -, p, hp, rfl⟩ := h
  simp only [Bool.and_eq_true, beq_iff_eq] at hz
  exact hp.faithful hf rfl ho ha hr (by simp only [hz])
    hf.imm_toNat
    (by simp only [hz]) hp.ok

theorem decTinfo_faithful {f : Fields} {i : Instr} (hf : f.Sliced) (ho : f.opc = 0xc4) (ha : f.ar = 1) (hr : f.immr = 0)
    (h : decTinfo f = .ok i) : Faithful f i := by
  simp only [decTinfo, get_ok, decPar_ok, Except.ok.injEq] at h
  obtain ⟨x1, g1, hz, -, p, hp, rfl⟩ := h
  simp only [Bool.and_eq_true, beq_iff_eq, bf] at hz
  exact hp.faithful hf rfl ho ha hr (by have := hf.mod; simp only [infoWhatCode_of g1]; simp only [bf]; omega)
    (by simp only [hz])
    (by simp only [hz]) hp.ok

theorem decTfill_faithful {f : Fields} {i : Instr} (hf : f.Sliced) (ho : f.opc = 0xc5) (ha : f.ar = 2) (hr : f.immr = 0)
    (h : decTfill f = .ok i) : Faithful f i := by
  simp only [decTfill, decPar_ok, Except.ok.injEq] at h
  obtain ⟨hz, -, p, hp, rfl⟩ := h
  simp only [Bool.and_eq_true, beq_iff_eq] at hz
  exact hp.faithful hf rfl ho ha hr (by simp only [hz])
    (by simp only [hz])
    (by simp only [hz]) hp.ok

theorem decTfillImm_faithful {f : Fields} {i : Instr} (hf : f.Sliced) (ho : f.opc = 0xc5) (ha : f.ar = 1) (hr : f.immr = 1)
    (h : decTfillImm f = .ok i) : Faithful f i := by
  simp only [decTfillImm, decPar_ok, Except.ok.injEq] at h
  obtain ⟨hz, -, p, hp, rfl⟩ := h
  simp only [Bool.and_eq_true, beq_iff_eq] at hz
  exact hp.faithful hf rfl ho ha hr (by simp only [hz])
    hf.imm_toNat
    (by simp only [hz]) hp.ok

theorem decTcopy_faithful {f : Fields} {i : Instr} (hf : f.Sliced) (ho : f.opc = 0xc6) (ha : f.ar = 1) (hr : f.immr = 0)
    (h : decTcopy f = .ok i) : Faithful f i := by
  simp only [decTcopy, decPar_ok, Except.ok.injEq] at h
  obtain ⟨hz, -, p, hp, rfl⟩ := h
  simp only [Bool.and_eq_true, beq_iff_eq, bf] at hz
  exact hp.faithful hf rfl ho ha hr (by have := hf.mod; simp only [bit_bf]; simp only [bf]; omega)
    (by simp only [hz])
    (by simp only [hz]) hp.ok

theorem decTcopyInto_faithful {f : Fields} {i : Instr} (hf : f.Sliced) (ho : f.opc = 0xc6) (ha : f.ar = 2) (hr : f.immr = 0)
    (h : decTcopyInto f = .ok i) : Faithful f i := by
  simp only [decTcopyInto, decPar_ok, Except.ok.injEq] at h
  obtain ⟨hz, -, p, hp, rfl⟩ := h
  simp only [Bool.and_eq_true, beq_iff_eq] at hz
  exact hp.faithful hf rfl ho ha hr (by simp only [hz])
    (by simp only [hz])
    (by simp only [hz]) hp.ok

theorem decTtran_faithful {f : Fields} {i : Instr} (hf : f.Sliced) (ho : f.opc = 0xc7) (ha : f.ar = 1) (hr : f.immr = 0)
    (h : decTtran f = .ok i) : Faithful f i := by
  simp only [decTtran, decPar_ok, Except.ok.injEq] at h
  obtain ⟨hz, -, p, hp, rfl⟩ := h
  simp only [Bool.and_eq_true, beq_iff_eq] at hz
  exact hp.faithful hf rfl ho ha hr (by simp only [hz])
    (by simp only [hz])
    (by simp only [hz]) hp.ok

theorem decTget_faithful {f : Fields} {i : Instr} (hf : f.Sliced) (ho : f.opc = 0xc8) (ha : f.ar = 2) (hr : f.immr = 0)
    (h : decTget f = .ok i) : Faithful f i := by
  simp only [decTget, get_ok, decPar_ok, Except.ok.injEq] at h
  obtain ⟨x1, g1, hz, ht, p, hp, rfl⟩ := h
  simp only [Bool.and_eq_true, beq_iff_eq, bf] at hz
  exact hp.faithful hf rfl ho ha hr (by have := hf.mod; simp only [partCode_of g1]; simp only [bf]; omega)
    (by simp only [hz])
    (by simp only [hz]) (by change (_ && _) = true; have := hp.ok; have := hp.ty; simp_all [bf])

theorem decTgetImm_faithful {f : Fields} {i : Instr} (hf : f.Sliced) (ho : f.opc = 0xc8) (ha : f.ar = 1) (hr : f.immr = 1)
    (h : decTgetImm f = .ok i) : Faithful f i := by
  simp only [decTgetImm, get_ok, decPar_ok, Except.ok.injEq] at h
  obtain ⟨x1, g1, hz, ht, p, hp, rfl⟩ := h
  simp only [Bool.and_eq_true, beq_iff_eq, bf] at hz
  exact hp.faithful hf rfl ho ha hr (by have := hf.mod; simp only [partCode_of g1]; simp only [bf]; omega)
    hf.imm_toNat
    (by simp only [hz]) (by change (_ && _) = true; have := hp.ok; have := hp.ty; simp_all [bf])

theorem decTset_faithful {f : Fields} {i : Instr} (hf : f.Sliced) (ho : f.opc = 0xc9) (ha : f.ar = 3) (hr : f.immr = 0)
    (h : decTset f = .ok i) : Faithful f i := by
  simp only [decTset, get_ok, decPar_ok, Except.ok.injEq] at h
  obtain ⟨x1, g1, hz, ht, p, hp, rfl⟩ := h
  simp only [Bool.and_eq_true, beq_iff_eq, bf] at hz
  exact hp.faithful hf rfl ho ha hr (by have := hf.mod; simp only [partCode_of g1]; simp only [bf]; omega)
    (by simp only [hz])
    (by simp only [hz]) (by change (_ && _) = true; have := hp.ok; have := hp.ty; simp_all [bf])

theorem decTsetImm_faithful {f : Fields} {i : Instr} (hf : f.Sliced) (ho : f.opc = 0xc9) (ha : f.ar = 2) (hr : f.immr = 1)
    (h : decTsetImm f = .ok i) : Faithful f i := by
  simp only [decTsetImm, get_ok, decPar_ok, Except.ok.injEq] at h
  obtain ⟨x1, g1, hz, ht, p, hp, rfl⟩ := h
  simp only [Bool.and_eq_true, beq_iff_eq, bf] at hz
  exact hp.faithful hf rfl ho ha hr (by have := hf.mod; simp only [partCode_of g1]; simp only [bf]; omega)
    hf.imm_toNat
    (by simp only [hz]) (by change (_ && _) = true; have := hp.ok; have := hp.ty; simp_all [bf])

theorem decVrunA_faithful {f : Fields} {i : Instr} (hf : f.Sliced) (ho : f.opc = 0xca) (ha : f.ar = 1) (hr : f.immr = 0) (hk : bf f.mod 0 2 = 0)
    (h : decVrunA f = .ok i) : Faithful f i := by
  simp only [decVrunA, decPar_ok, Except.ok.injEq] at h
  obtain ⟨hz, -, p, hp, rfl⟩ := h
  simp only [Bool.and_eq_true, beq_iff_eq, bf] at hz
  simp only [bf] at hk
  exact hp.faithful hf rfl ho ha hr (by have := hf.mod; omega)
    (by simp only [hz])
    (by have := hf.aux; simp only [BitVec.toNat_ofNat, bf]; omega) hp.ok

theorem decVrunAb_faithful {f : Fields} {i : Instr} (hf : f.Sliced) (ho : f.opc = 0xca) (ha : f.ar = 2) (hr : f.immr = 0) (hk : bf f.mod 0 2 = 1)
    (h : decVrunAb f = .ok i) : Faithful f i := by
  simp only [decVrunAb, decPar_ok, Except.ok.injEq] at h
  obtain ⟨hz, -, p, hp, rfl⟩ := h
  simp only [Bool.and_eq_true, beq_iff_eq, bf] at hz
  simp only [bf] at hk
  exact hp.faithful hf rfl ho ha hr (by have := hf.mod; omega)
    (by simp only [hz])
    (by have := hf.aux; simp only [BitVec.toNat_ofNat, bf]; omega) hp.ok

theorem decVrunAo_faithful {f : Fields} {i : Instr} (hf : f.Sliced) (ho : f.opc = 0xca) (ha : f.ar = 2) (hr : f.immr = 0) (hk : bf f.mod 0 2 = 2)
    (h : decVrunAo f = .ok i) : Faithful f i := by
  simp only [decVrunAo, decPar_ok, Except.ok.injEq] at h
  obtain ⟨hz, -, p, hp, rfl⟩ := h
  simp only [Bool.and_eq_true, beq_iff_eq, bf] at hz
  simp only [bf] at hk
  exact hp.faithful hf rfl ho ha hr (by have := hf.mod; omega)
    (by simp only [hz])
    (by have := hf.aux; simp only [BitVec.toNat_ofNat, bf]; omega) hp.ok

theorem decVrunAbo_faithful {f : Fields} {i : Instr} (hf : f.Sliced) (ho : f.opc = 0xca) (ha : f.ar = 3) (hr : f.immr = 0) (hk : bf f.mod 0 2 = 3)
    (h : decVrunAbo f = .ok i) : Faithful f i := by
  simp only [decVrunAbo, decPar_ok, Except.ok.injEq] at h
  obtain ⟨hz, -, p, hp, rfl⟩ := h
  simp only [Bool.and_eq_true, beq_iff_eq, bf] at hz
  simp only [bf] at hk
  exact hp.faithful hf rfl ho ha hr (by have := hf.mod; omega)
    (by simp only [hz])
    (by have := hf.aux; simp only [BitVec.toNat_ofNat, bf]; omega) hp.ok

theorem decVruns_faithful {f : Fields} {i : Instr} (hf : f.Sliced) (ho : f.opc = 0xcb) (ha : f.ar = 1) (hr : f.immr = 0)
    (h : decVruns f = .ok i) : Faithful f i := by
  simp only [decVruns, decPar_ok, Except.ok.injEq] at h
  obtain ⟨hz, -, p, hp, rfl⟩ := h
  simp only [Bool.and_eq_true, beq_iff_eq, bf] at hz
  exact hp.faithful hf rfl ho ha hr (by simp only [hz])
    (by simp only [hz])
    (by have := hf.aux; simp only [BitVec.toNat_ofNat, bf]; omega) hp.ok

theorem decVruns2_faithful {f : Fields} {i : Instr} (hf : f.Sliced) (ho : f.opc = 0xcb) (ha : f.ar = 2) (hr : f.immr = 0)
    (h : decVruns2 f = .ok i) : Faithful f i := by
  simp only [decVruns2, decPar_ok, Except.ok.injEq] at h
  obtain ⟨hz, -, p, hp, rfl⟩ := h
  simp only [Bool.and_eq_true, beq_iff_eq, bf] at hz
  exact hp.faithful hf rfl ho ha hr (by simp only [hz])
    (by simp only [hz])
    (by have := hf.aux; simp only [BitVec.toNat_ofNat, bf]; omega) hp.ok

theorem decVstat_faithful {f : Fields} {i : Instr} (hf : f.Sliced) (ho : f.opc = 0xcc) (ha : f.ar = 1) (hr : f.immr = 0)
    (h : decVstat f = .ok i) : Faithful f i := by
  simp only [decVstat, decPar_ok, Except.ok.injEq] at h
  obtain ⟨hz, -, p, hp, rfl⟩ := h
  simp only [Bool.and_eq_true, beq_iff_eq] at hz
  exact hp.faithful hf rfl ho ha hr (by simp only [hz])
    (by simp only [hz])
    (by simp only [hz]) hp.ok

theorem decWld_faithful {f : Fields} {i : Instr} (hf : f.Sliced) (ho : f.opc = 0x100) (ha : f.ar = 1) (hr : f.immr = 0)
    (h : decWld f = .ok i) : Faithful f i := by
  simp only [decWld, need_ok, get_ok, decPar_ok, Except.ok.injEq] at h
  obtain ⟨x1, g1, n0, x2, g2, hz, ht, p, hp, rfl⟩ := h
  have hw := hz
  simp only [Bool.and_eq_true, beq_iff_eq, bf] at hz
  exact hp.faithful hf rfl ho ha hr (by have := hf.mod; simp only [compCode_of g1]; simp only [bf]; omega)
    (by have := hf.imm; simp only [BitVec.toNat_ofNat, bf]; omega)
    (by have := hf.aux; simp only [geomCode_of g2]; simp only [BitVec.toNat_ofNat, bf]; omega) (by change (_ && _) = true; have := hp.ok; have := hp.ty; have h0 := hp.ok; have h1 := hp.ty; have h2 := geomCode_of g2; rw [← h2] at hw; clear ho ha hr hz g2 h2; cases x2 <;> simp_all [geomCode])

theorem decWfree_faithful {f : Fields} {i : Instr} (hf : f.Sliced) (ho : f.opc = 0x101) (ha : f.ar = 1) (hr : f.immr = 0)
    (h : decWfree f = .ok i) : Faithful f i := by
  simp only [decWfree, decPar_ok, Except.ok.injEq] at h
  obtain ⟨hz, -, p, hp, rfl⟩ := h
  simp only [Bool.and_eq_true, beq_iff_eq, bf] at hz
  exact hp.faithful hf rfl ho ha hr (by simp only [hz])
    (by simp only [hz])
    (by have := hf.aux; simp only [BitVec.toNat_ofNat, bf]; omega) hp.ok

theorem decMma_faithful {f : Fields} {i : Instr} (hf : f.Sliced) (ho : f.opc = 0x102) (ha : f.ar = 2) (hr : f.immr = 0)
    (h : decMma f = .ok i) : Faithful f i := by
  simp only [decMma, decPar_ok, Except.ok.injEq] at h
  obtain ⟨hz, -, p, hp, rfl⟩ := h
  simp only [Bool.and_eq_true, beq_iff_eq, bf] at hz
  exact hp.faithful hf rfl ho ha hr (by have := hf.mod; simp only [bit_bf]; simp only [bf]; omega)
    (by have := hf.imm; simp only [BitVec.toNat_ofNat, bf]; omega)
    (by have := hf.aux; simp only [BitVec.toNat_ofNat, bf]; omega) hp.ok

theorem decMmas_faithful {f : Fields} {i : Instr} (hf : f.Sliced) (ho : f.opc = 0x103) (ha : f.ar = 2) (hr : f.immr = 0)
    (h : decMmas f = .ok i) : Faithful f i := by
  simp only [decMmas, get_ok, decPar_ok, Except.ok.injEq] at h
  obtain ⟨x1, g1, hz, ht, p, hp, rfl⟩ := h
  simp only [Bool.and_eq_true, beq_iff_eq, bf] at hz
  exact hp.faithful hf rfl ho ha hr (by have := hf.mod; simp only [bit_bf, modeCode_of g1]; simp only [bf]; omega)
    (by simp only [hz])
    (by have := hf.aux; simp only [tyCode_bf]; simp only [BitVec.toNat_ofNat, bf]; omega) (by change (_ && _) = true; have := hp.ok; have := hp.ty; simp_all [bf])

theorem decMmasImm_faithful {f : Fields} {i : Instr} (hf : f.Sliced) (ho : f.opc = 0x103) (ha : f.ar = 1) (hr : f.immr = 1)
    (h : decMmasImm f = .ok i) : Faithful f i := by
  simp only [decMmasImm, get_ok, decPar_ok, Except.ok.injEq] at h
  obtain ⟨x1, g1, hz, ht, p, hp, rfl⟩ := h
  simp only [Bool.and_eq_true, beq_iff_eq, bf] at hz
  exact hp.faithful hf rfl ho ha hr (by have := hf.mod; simp only [bit_bf, modeCode_of g1]; simp only [bf]; omega)
    hf.imm_toNat
    (by have := hf.aux; simp only [tyCode_bf]; simp only [BitVec.toNat_ofNat, bf]; omega) (by change (_ && _) = true; have := hp.ok; have := hp.ty; simp_all [bf])

theorem decAdrain_faithful {f : Fields} {i : Instr} (hf : f.Sliced) (ho : f.opc = 0x104) (ha : f.ar = 2) (hr : f.immr = 0) (hk : bf f.mod 0 1 = 0)
    (h : decAdrain f = .ok i) : Faithful f i := by
  simp only [decAdrain, get_ok, decPar_ok, Except.ok.injEq] at h
  obtain ⟨x1, g1, hz, ht, p, hp, rfl⟩ := h
  simp only [Bool.and_eq_true, beq_iff_eq, bf] at hz
  simp only [bf] at hk
  exact hp.faithful hf rfl ho ha hr (by have := hf.mod; simp only [bit_bf, modeCode_of g1]; simp only [bf]; omega)
    (by simp only [hz])
    (by have := hf.aux; simp only [tyCode_bf]; simp only [bf]; omega) (by change (_ && _) = true; have := hp.ok; have := hp.ty; simp_all [bf])

theorem decAdrainImm_faithful {f : Fields} {i : Instr} (hf : f.Sliced) (ho : f.opc = 0x104) (ha : f.ar = 1) (hr : f.immr = 1) (hk : bf f.mod 0 1 = 0)
    (h : decAdrainImm f = .ok i) : Faithful f i := by
  simp only [decAdrainImm, get_ok, decPar_ok, Except.ok.injEq] at h
  obtain ⟨x1, g1, hz, ht, p, hp, rfl⟩ := h
  simp only [Bool.and_eq_true, beq_iff_eq, bf] at hz
  simp only [bf] at hk
  exact hp.faithful hf rfl ho ha hr (by have := hf.mod; simp only [bit_bf, modeCode_of g1]; simp only [bf]; omega)
    hf.imm_toNat
    (by have := hf.aux; simp only [tyCode_bf]; simp only [bf]; omega) (by change (_ && _) = true; have := hp.ok; have := hp.ty; simp_all [bf])

theorem decAdrainSteer_faithful {f : Fields} {i : Instr} (hf : f.Sliced) (ho : f.opc = 0x104) (ha : f.ar = 3) (hr : f.immr = 0) (hk : bf f.mod 0 1 = 1)
    (h : decAdrainSteer f = .ok i) : Faithful f i := by
  simp only [decAdrainSteer, get_ok, decPar_ok, Except.ok.injEq] at h
  obtain ⟨x1, g1, hz, ht, p, hp, rfl⟩ := h
  simp only [Bool.and_eq_true, beq_iff_eq, bf] at hz
  simp only [bf] at hk
  exact hp.faithful hf rfl ho ha hr (by have := hf.mod; simp only [bit_bf, modeCode_of g1]; simp only [bf]; omega)
    (by simp only [hz])
    (by have := hf.aux; simp only [tyCode_bf]; simp only [BitVec.toNat_ofNat, bf]; omega) (by change (_ && _) = true; have := hp.ok; have := hp.ty; simp_all [bf])

theorem decAdrainSteerImm_faithful {f : Fields} {i : Instr} (hf : f.Sliced) (ho : f.opc = 0x104) (ha : f.ar = 2) (hr : f.immr = 1) (hk : bf f.mod 0 1 = 1)
    (h : decAdrainSteerImm f = .ok i) : Faithful f i := by
  simp only [decAdrainSteerImm, get_ok, decPar_ok, Except.ok.injEq] at h
  obtain ⟨x1, g1, hz, ht, p, hp, rfl⟩ := h
  simp only [Bool.and_eq_true, beq_iff_eq, bf] at hz
  simp only [bf] at hk
  exact hp.faithful hf rfl ho ha hr (by have := hf.mod; simp only [bit_bf, modeCode_of g1]; simp only [bf]; omega)
    hf.imm_toNat
    (by have := hf.aux; simp only [tyCode_bf]; simp only [BitVec.toNat_ofNat, bf]; omega) (by change (_ && _) = true; have := hp.ok; have := hp.ty; simp_all [bf])

theorem decAclr_faithful {f : Fields} {i : Instr} (hf : f.Sliced) (ho : f.opc = 0x105) (ha : f.ar = 1) (hr : f.immr = 0)
    (h : decAclr f = .ok i) : Faithful f i := by
  simp only [decAclr, decPar_ok, Except.ok.injEq] at h
  obtain ⟨hz, -, p, hp, rfl⟩ := h
  simp only [Bool.and_eq_true, beq_iff_eq] at hz
  exact hp.faithful hf rfl ho ha hr (by simp only [hz])
    (by simp only [hz])
    (by simp only [hz]) hp.ok

theorem decWinfo_faithful {f : Fields} {i : Instr} (hf : f.Sliced) (ho : f.opc = 0x106) (ha : f.ar = 1) (hr : f.immr = 0)
    (h : decWinfo f = .ok i) : Faithful f i := by
  simp only [decWinfo, decPar_ok, Except.ok.injEq] at h
  obtain ⟨hz, -, p, hp, rfl⟩ := h
  simp only [Bool.and_eq_true, beq_iff_eq, bf] at hz
  exact hp.faithful hf rfl ho ha hr (by simp only [hz])
    (by simp only [hz])
    (by have := hf.aux; simp only [BitVec.toNat_ofNat, bf]; omega) hp.ok

theorem decMstat_faithful {f : Fields} {i : Instr} (hf : f.Sliced) (ho : f.opc = 0x107) (ha : f.ar = 1) (hr : f.immr = 0)
    (h : decMstat f = .ok i) : Faithful f i := by
  simp only [decMstat, decPar_ok, Except.ok.injEq] at h
  obtain ⟨hz, ht, p, hp, rfl⟩ := h
  simp only [Bool.and_eq_true, beq_iff_eq, bf] at hz
  exact hp.faithful hf rfl ho ha hr (by have := hf.mod; simp only [bit_bf]; simp only [BitVec.toNat_ofNat, bf]; omega)
    (by simp only [hz])
    (by simp only [hz]) (by change (_ && _) = true; have := hp.ok; have := hp.ty; simp_all [bf])

theorem decLd_faithful {f : Fields} {i : Instr} (hf : f.Sliced) (ho : f.opc = 0x140) (ha : f.ar = 1) (hr : f.immr = 0)
    (h : decLd f = .ok i) : Faithful f i := by
  simp only [decLd, decPar_ok, Except.ok.injEq] at h
  obtain ⟨hz, -, p, hp, rfl⟩ := h
  simp only [Bool.and_eq_true, beq_iff_eq] at hz
  exact hp.faithful hf rfl ho ha hr (by simp only [hz])
    (by simp only [hz])
    (by simp only [hz]) hp.ok

theorem decSt_faithful {f : Fields} {i : Instr} (hf : f.Sliced) (ho : f.opc = 0x141) (ha : f.ar = 2) (hr : f.immr = 0)
    (h : decSt f = .ok i) : Faithful f i := by
  simp only [decSt, decPar_ok, Except.ok.injEq] at h
  obtain ⟨hz, -, p, hp, rfl⟩ := h
  simp only [Bool.and_eq_true, beq_iff_eq] at hz
  exact hp.faithful hf rfl ho ha hr (by simp only [hz])
    (by simp only [hz])
    (by simp only [hz]) hp.ok

theorem decStImm_faithful {f : Fields} {i : Instr} (hf : f.Sliced) (ho : f.opc = 0x141) (ha : f.ar = 1) (hr : f.immr = 1)
    (h : decStImm f = .ok i) : Faithful f i := by
  simp only [decStImm, decPar_ok, Except.ok.injEq] at h
  obtain ⟨hz, -, p, hp, rfl⟩ := h
  simp only [Bool.and_eq_true, beq_iff_eq] at hz
  exact hp.faithful hf rfl ho ha hr (by simp only [hz])
    hf.imm_toNat
    (by simp only [hz]) hp.ok

theorem decLdt_faithful {f : Fields} {i : Instr} (hf : f.Sliced) (ho : f.opc = 0x142) (ha : f.ar = 1) (hr : f.immr = 0)
    (h : decLdt f = .ok i) : Faithful f i := by
  simp only [decLdt, need_ok, get_ok, decPar_ok, Except.ok.injEq] at h
  obtain ⟨n0, n1, x1, g1, hz, ht, p, hp, rfl⟩ := h
  have hw := hz
  simp only [Bool.and_eq_true, beq_iff_eq, bf] at hz
  exact hp.faithful hf rfl ho ha hr (by have := hf.mod; simp only [geomCode_of g1]; simp only [bf]; omega)
    (by have := hf.imm; simp only [BitVec.toNat_ofNat, bf]; omega)
    hf.aux_toNat (by change (_ && _) = true; have := hp.ok; have := hp.ty; have h0 := hp.ok; have h1 := hp.ty; have h2 := geomCode_of g1; rw [← h2] at hw n0; clear ho ha hr hz g1 h2; cases x1 <;> simp_all [geomCode, Geom.scaled])

theorem decLdtScaled_faithful {f : Fields} {i : Instr} (hf : f.Sliced) (ho : f.opc = 0x142) (ha : f.ar = 2) (hr : f.immr = 0)
    (h : decLdtScaled f = .ok i) : Faithful f i := by
  simp only [decLdtScaled, need_ok, get_ok, decPar_ok, Except.ok.injEq] at h
  obtain ⟨n0, n1, x1, g1, hz, ht, p, hp, rfl⟩ := h
  have hw := hz
  simp only [Bool.and_eq_true, beq_iff_eq, bf] at hz
  exact hp.faithful hf rfl ho ha hr (by have := hf.mod; simp only [geomCode_of g1]; simp only [bf]; omega)
    (by have := hf.imm; simp only [BitVec.toNat_ofNat, bf]; omega)
    hf.aux_toNat (by change (_ && _) = true; have := hp.ok; have := hp.ty; have h0 := hp.ok; have h1 := hp.ty; have h2 := geomCode_of g1; rw [← h2] at hw n0; clear ho ha hr hz g1 h2; cases x1 <;> simp_all [geomCode])

theorem decStt_faithful {f : Fields} {i : Instr} (hf : f.Sliced) (ho : f.opc = 0x143) (ha : f.ar = 2) (hr : f.immr = 0)
    (h : decStt f = .ok i) : Faithful f i := by
  simp only [decStt, decPar_ok, Except.ok.injEq] at h
  obtain ⟨hz, -, p, hp, rfl⟩ := h
  simp only [Bool.and_eq_true, beq_iff_eq] at hz
  exact hp.faithful hf rfl ho ha hr (by simp only [hz])
    (by simp only [hz])
    hf.aux_toNat hp.ok

theorem decSttScaled_faithful {f : Fields} {i : Instr} (hf : f.Sliced) (ho : f.opc = 0x143) (ha : f.ar = 3) (hr : f.immr = 0)
    (h : decSttScaled f = .ok i) : Faithful f i := by
  simp only [decSttScaled, decPar_ok, Except.ok.injEq] at h
  obtain ⟨hz, -, p, hp, rfl⟩ := h
  simp only [Bool.and_eq_true, beq_iff_eq] at hz
  exact hp.faithful hf rfl ho ha hr (by simp only [hz])
    (by simp only [hz])
    hf.aux_toNat hp.ok

theorem decCopy_faithful {f : Fields} {i : Instr} (hf : f.Sliced) (ho : f.opc = 0x144) (ha : f.ar = 1) (hr : f.immr = 0)
    (h : decCopy f = .ok i) : Faithful f i := by
  simp only [decCopy, decPar_ok, Except.ok.injEq] at h
  obtain ⟨hz, -, p, hp, rfl⟩ := h
  simp only [Bool.and_eq_true, beq_iff_eq, bf] at hz
  exact hp.faithful hf rfl ho ha hr (by have := hf.mod; simp only [bit_bf]; simp only [bf]; omega)
    (by simp only [hz])
    (by have := hf.aux; simp only [BitVec.toNat_ofNat, bf]; omega) hp.ok

theorem decCopyAddr_faithful {f : Fields} {i : Instr} (hf : f.Sliced) (ho : f.opc = 0x144) (ha : f.ar = 2) (hr : f.immr = 0)
    (h : decCopyAddr f = .ok i) : Faithful f i := by
  simp only [decCopyAddr, decPar_ok, Except.ok.injEq] at h
  obtain ⟨hz, -, p, hp, rfl⟩ := h
  simp only [Bool.and_eq_true, beq_iff_eq, bf] at hz
  exact hp.faithful hf rfl ho ha hr (by have := hf.mod; simp only [bit_bf]; simp only [bf]; omega)
    (by simp only [hz])
    (by have := hf.aux; simp only [BitVec.toNat_ofNat, bf]; omega) hp.ok

theorem decGath_faithful {f : Fields} {i : Instr} (hf : f.Sliced) (ho : f.opc = 0x145) (ha : f.ar = 2) (hr : f.immr = 0)
    (h : decGath f = .ok i) : Faithful f i := by
  simp only [decGath, decPar_ok, Except.ok.injEq] at h
  obtain ⟨hz, -, p, hp, rfl⟩ := h
  simp only [Bool.and_eq_true, beq_iff_eq, bf] at hz
  exact hp.faithful hf rfl ho ha hr (by simp only [hz])
    (by simp only [hz])
    (by have := hf.aux; simp only [BitVec.toNat_ofNat, bf]; omega) hp.ok

theorem decScat_faithful {f : Fields} {i : Instr} (hf : f.Sliced) (ho : f.opc = 0x146) (ha : f.ar = 2) (hr : f.immr = 0)
    (h : decScat f = .ok i) : Faithful f i := by
  simp only [decScat, decPar_ok, Except.ok.injEq] at h
  obtain ⟨hz, -, p, hp, rfl⟩ := h
  simp only [Bool.and_eq_true, beq_iff_eq, bf] at hz
  exact hp.faithful hf rfl ho ha hr (by simp only [hz])
    (by simp only [hz])
    (by have := hf.aux; simp only [BitVec.toNat_ofNat, bf]; omega) hp.ok

theorem decCred_faithful {f : Fields} {i : Instr} (hf : f.Sliced) (ho : f.opc = 0x147) (ha : f.ar = 2) (hr : f.immr = 0)
    (h : decCred f = .ok i) : Faithful f i := by
  simp only [decCred, get_ok, decPar_ok, Except.ok.injEq] at h
  obtain ⟨x1, g1, hz, -, p, hp, rfl⟩ := h
  simp only [Bool.and_eq_true, beq_iff_eq, bf] at hz
  exact hp.faithful hf rfl ho ha hr (by have := hf.mod; simp only [redOpCode_of g1]; simp only [bf]; omega)
    (by simp only [hz])
    (by have := hf.aux; simp only [BitVec.toNat_ofNat, bf]; omega) hp.ok

theorem decDrain_faithful {f : Fields} {i : Instr} (hf : f.Sliced) (ho : f.opc = 0x148) (ha : f.ar = 1) (hr : f.immr = 0)
    (h : decDrain f = .ok i) : Faithful f i := by
  simp only [decDrain, decPar_ok, Except.ok.injEq] at h
  obtain ⟨hz, -, p, hp, rfl⟩ := h
  simp only [Bool.and_eq_true, beq_iff_eq, bf] at hz
  exact hp.faithful hf rfl ho ha hr (by simp only [hz])
    (by simp only [hz])
    (by have := hf.aux; simp only [BitVec.toNat_ofNat, bf]; omega) hp.ok

theorem decPfh_faithful {f : Fields} {i : Instr} (hf : f.Sliced) (ho : f.opc = 0x149) (ha : f.ar = 1) (hr : f.immr = 0)
    (h : decPfh f = .ok i) : Faithful f i := by
  simp only [decPfh, decPar_ok, Except.ok.injEq] at h
  obtain ⟨hz, -, p, hp, rfl⟩ := h
  simp only [Bool.and_eq_true, beq_iff_eq] at hz
  exact hp.faithful hf rfl ho ha hr (by simp only [hz])
    (by simp only [hz])
    hf.aux_toNat hp.ok

theorem decAop_faithful {f : Fields} {i : Instr} (hf : f.Sliced) (ho : f.opc = 0x14a) (ha : f.ar = 2) (hr : f.immr = 0)
    (h : decAop f = .ok i) : Faithful f i := by
  simp only [decAop, get_ok, decPar_ok, Except.ok.injEq] at h
  obtain ⟨x1, g1, hz, ht, p, hp, rfl⟩ := h
  simp only [Bool.and_eq_true, beq_iff_eq, bf] at hz
  exact hp.faithful hf rfl ho ha hr (by have := hf.mod; simp only [bit_bf, atomOpCode_of g1]; simp only [bf]; omega)
    (by simp only [hz])
    (by simp only [hz]) (by change (_ && _) = true; have := hp.ok; have := hp.ty; simp_all [bf])

theorem decAopImm_faithful {f : Fields} {i : Instr} (hf : f.Sliced) (ho : f.opc = 0x14a) (ha : f.ar = 1) (hr : f.immr = 1)
    (h : decAopImm f = .ok i) : Faithful f i := by
  simp only [decAopImm, get_ok, decPar_ok, Except.ok.injEq] at h
  obtain ⟨x1, g1, hz, ht, p, hp, rfl⟩ := h
  simp only [Bool.and_eq_true, beq_iff_eq, bf] at hz
  exact hp.faithful hf rfl ho ha hr (by have := hf.mod; simp only [bit_bf, atomOpCode_of g1]; simp only [bf]; omega)
    hf.imm_toNat
    (by simp only [hz]) (by change (_ && _) = true; have := hp.ok; have := hp.ty; simp_all [bf])

theorem decAcas_faithful {f : Fields} {i : Instr} (hf : f.Sliced) (ho : f.opc = 0x14b) (ha : f.ar = 3) (hr : f.immr = 0)
    (h : decAcas f = .ok i) : Faithful f i := by
  simp only [decAcas, decPar_ok, Except.ok.injEq] at h
  obtain ⟨hz, -, p, hp, rfl⟩ := h
  simp only [Bool.and_eq_true, beq_iff_eq, bf] at hz
  exact hp.faithful hf rfl ho ha hr (by have := hf.mod; simp only [bit_bf]; simp only [bf]; omega)
    (by simp only [hz])
    (by simp only [hz]) hp.ok

theorem decAcasImm_faithful {f : Fields} {i : Instr} (hf : f.Sliced) (ho : f.opc = 0x14b) (ha : f.ar = 2) (hr : f.immr = 1)
    (h : decAcasImm f = .ok i) : Faithful f i := by
  simp only [decAcasImm, decPar_ok, Except.ok.injEq] at h
  obtain ⟨hz, -, p, hp, rfl⟩ := h
  simp only [Bool.and_eq_true, beq_iff_eq, bf] at hz
  exact hp.faithful hf rfl ho ha hr (by have := hf.mod; simp only [bit_bf]; simp only [bf]; omega)
    hf.imm_toNat
    (by simp only [hz]) hp.ok

theorem decBupd_faithful {f : Fields} {i : Instr} (hf : f.Sliced) (ho : f.opc = 0x14c) (ha : f.ar = 2) (hr : f.immr = 0)
    (h : decBupd f = .ok i) : Faithful f i := by
  simp only [decBupd, get_ok, decPar_ok, Except.ok.injEq] at h
  obtain ⟨x1, g1, hz, -, p, hp, rfl⟩ := h
  simp only [Bool.and_eq_true, beq_iff_eq, bf] at hz
  exact hp.faithful hf rfl ho ha hr (by have := hf.mod; simp only [redOpCode_of g1]; simp only [bf]; omega)
    (by simp only [hz])
    hf.aux_toNat hp.ok

theorem decBaxpy_faithful {f : Fields} {i : Instr} (hf : f.Sliced) (ho : f.opc = 0x14d) (ha : f.ar = 3) (hr : f.immr = 0)
    (h : decBaxpy f = .ok i) : Faithful f i := by
  simp only [decBaxpy, decPar_ok, Except.ok.injEq] at h
  obtain ⟨hz, -, p, hp, rfl⟩ := h
  simp only [Bool.and_eq_true, beq_iff_eq] at hz
  exact hp.faithful hf rfl ho ha hr (by simp only [hz])
    (by simp only [hz])
    hf.aux_toNat hp.ok

theorem decBaxpyImm_faithful {f : Fields} {i : Instr} (hf : f.Sliced) (ho : f.opc = 0x14d) (ha : f.ar = 2) (hr : f.immr = 1)
    (h : decBaxpyImm f = .ok i) : Faithful f i := by
  simp only [decBaxpyImm, decPar_ok, Except.ok.injEq] at h
  obtain ⟨hz, -, p, hp, rfl⟩ := h
  simp only [beq_iff_eq] at hz
  exact hp.faithful hf rfl ho ha hr (by simp only [hz])
    hf.imm_toNat
    hf.aux_toNat hp.ok

theorem decBara_faithful {f : Fields} {i : Instr} (hf : f.Sliced) (ho : f.opc = 0x185) (ha : f.ar = 1) (hr : f.immr = 0)
    (h : decBara f = .ok i) : Faithful f i := by
  simp only [decBara, decPar_ok, Except.ok.injEq] at h
  obtain ⟨hz, -, p, hp, rfl⟩ := h
  simp only [Bool.and_eq_true, beq_iff_eq, bf] at hz
  exact hp.faithful hf rfl ho ha hr (by have := hf.mod; simp only [bit_bf]; simp only [bf]; omega)
    (by simp only [hz])
    (by simp only [hz]) hp.ok

theorem decBaraStatus_faithful {f : Fields} {i : Instr} (hf : f.Sliced) (ho : f.opc = 0x185) (ha : f.ar = 2) (hr : f.immr = 0)
    (h : decBaraStatus f = .ok i) : Faithful f i := by
  simp only [decBaraStatus, decPar_ok, Except.ok.injEq] at h
  obtain ⟨hz, -, p, hp, rfl⟩ := h
  simp only [Bool.and_eq_true, beq_iff_eq, bf] at hz
  exact hp.faithful hf rfl ho ha hr (by have := hf.mod; simp only [bit_bf]; simp only [bf]; omega)
    (by simp only [hz])
    (by simp only [hz]) hp.ok

theorem decBaraImm_faithful {f : Fields} {i : Instr} (hf : f.Sliced) (ho : f.opc = 0x185) (ha : f.ar = 1) (hr : f.immr = 1)
    (h : decBaraImm f = .ok i) : Faithful f i := by
  simp only [decBaraImm, decPar_ok, Except.ok.injEq] at h
  obtain ⟨hz, -, p, hp, rfl⟩ := h
  simp only [Bool.and_eq_true, beq_iff_eq, bf] at hz
  exact hp.faithful hf rfl ho ha hr (by have := hf.mod; simp only [bit_bf]; simp only [bf]; omega)
    hf.imm_toNat
    (by simp only [hz]) hp.ok

theorem decBarw_faithful {f : Fields} {i : Instr} (hf : f.Sliced) (ho : f.opc = 0x186) (ha : f.ar = 2) (hr : f.immr = 0)
    (h : decBarw f = .ok i) : Faithful f i := by
  simp only [decBarw, decPar_ok, Except.ok.injEq] at h
  obtain ⟨hz, -, p, hp, rfl⟩ := h
  simp only [Bool.and_eq_true, beq_iff_eq] at hz
  exact hp.faithful hf rfl ho ha hr (by simp only [hz])
    (by simp only [hz])
    (by simp only [hz]) hp.ok

theorem decBarwImm_faithful {f : Fields} {i : Instr} (hf : f.Sliced) (ho : f.opc = 0x186) (ha : f.ar = 1) (hr : f.immr = 1)
    (h : decBarwImm f = .ok i) : Faithful f i := by
  simp only [decBarwImm, decPar_ok, Except.ok.injEq] at h
  obtain ⟨hz, -, p, hp, rfl⟩ := h
  simp only [Bool.and_eq_true, beq_iff_eq] at hz
  exact hp.faithful hf rfl ho ha hr (by simp only [hz])
    hf.imm_toNat
    (by simp only [hz]) hp.ok

theorem decAcq_faithful {f : Fields} {i : Instr} (hf : f.Sliced) (ho : f.opc = 0x187) (ha : f.ar = 1) (hr : f.immr = 0)
    (h : decAcq f = .ok i) : Faithful f i := by
  simp only [decAcq, get_ok, decPar_ok, Except.ok.injEq] at h
  obtain ⟨x1, g1, hz, -, p, hp, rfl⟩ := h
  simp only [Bool.and_eq_true, beq_iff_eq, bf] at hz
  exact hp.faithful hf rfl ho ha hr (by have := hf.mod; simp only [bit_bf]; simp only [bf]; omega)
    (by simp only [hz])
    (by have := hf.aux; simp only [scopeCode_of g1]; simp only [bf]; omega) hp.ok

theorem decRel_faithful {f : Fields} {i : Instr} (hf : f.Sliced) (ho : f.opc = 0x188) (ha : f.ar = 1) (hr : f.immr = 0)
    (h : decRel f = .ok i) : Faithful f i := by
  simp only [decRel, get_ok, decPar_ok, Except.ok.injEq] at h
  obtain ⟨x1, g1, hz, -, p, hp, rfl⟩ := h
  simp only [Bool.and_eq_true, beq_iff_eq, bf] at hz
  exact hp.faithful hf rfl ho ha hr (by have := hf.mod; simp only [bit_bf]; simp only [bf]; omega)
    (by simp only [hz])
    (by have := hf.aux; simp only [scopeCode_of g1]; simp only [bf]; omega) hp.ok

theorem decPclm_faithful {f : Fields} {i : Instr} (hf : f.Sliced) (ho : f.opc = 0x180) (ha : f.ar = 2) (hr : f.immr = 0)
    (h : decPclm f = .ok i) : Faithful f i := by
  simp only [decPclm, decPar_ok, Except.ok.injEq] at h
  obtain ⟨hz, -, p, hp, rfl⟩ := h
  simp only [Bool.and_eq_true, beq_iff_eq, bf] at hz
  exact hp.faithful hf rfl ho ha hr (by simp only [hz])
    (by simp only [hz])
    (by have := hf.aux; simp only [BitVec.toNat_ofNat, bf]; omega) hp.ok

theorem decPclmImm_faithful {f : Fields} {i : Instr} (hf : f.Sliced) (ho : f.opc = 0x180) (ha : f.ar = 1) (hr : f.immr = 1)
    (h : decPclmImm f = .ok i) : Faithful f i := by
  simp only [decPclmImm, decPar_ok, Except.ok.injEq] at h
  obtain ⟨hz, -, p, hp, rfl⟩ := h
  simp only [Bool.and_eq_true, beq_iff_eq, bf] at hz
  exact hp.faithful hf rfl ho ha hr (by simp only [hz])
    hf.imm_toNat
    (by have := hf.aux; simp only [BitVec.toNat_ofNat, bf]; omega) hp.ok

theorem decPcmt_faithful {f : Fields} {i : Instr} (hf : f.Sliced) (ho : f.opc = 0x181) (ha : f.ar = 2) (hr : f.immr = 0)
    (h : decPcmt f = .ok i) : Faithful f i := by
  simp only [decPcmt, decPar_ok, Except.ok.injEq] at h
  obtain ⟨hz, -, p, hp, rfl⟩ := h
  simp only [Bool.and_eq_true, beq_iff_eq, bf] at hz
  exact hp.faithful hf rfl ho ha hr (by simp only [hz])
    (by simp only [hz])
    (by have := hf.aux; simp only [BitVec.toNat_ofNat, bf]; omega) hp.ok

theorem decPcmtImm_faithful {f : Fields} {i : Instr} (hf : f.Sliced) (ho : f.opc = 0x181) (ha : f.ar = 1) (hr : f.immr = 1)
    (h : decPcmtImm f = .ok i) : Faithful f i := by
  simp only [decPcmtImm, decPar_ok, Except.ok.injEq] at h
  obtain ⟨hz, -, p, hp, rfl⟩ := h
  simp only [Bool.and_eq_true, beq_iff_eq, bf] at hz
  exact hp.faithful hf rfl ho ha hr (by simp only [hz])
    hf.imm_toNat
    (by have := hf.aux; simp only [BitVec.toNat_ofNat, bf]; omega) hp.ok

theorem decPawt_faithful {f : Fields} {i : Instr} (hf : f.Sliced) (ho : f.opc = 0x182) (ha : f.ar = 2) (hr : f.immr = 0)
    (h : decPawt f = .ok i) : Faithful f i := by
  simp only [decPawt, decPar_ok, Except.ok.injEq] at h
  obtain ⟨hz, -, p, hp, rfl⟩ := h
  simp only [Bool.and_eq_true, beq_iff_eq, bf] at hz
  exact hp.faithful hf rfl ho ha hr (by simp only [hz])
    (by simp only [hz])
    (by have := hf.aux; simp only [BitVec.toNat_ofNat, bf]; omega) hp.ok

theorem decPawtImm_faithful {f : Fields} {i : Instr} (hf : f.Sliced) (ho : f.opc = 0x182) (ha : f.ar = 1) (hr : f.immr = 1)
    (h : decPawtImm f = .ok i) : Faithful f i := by
  simp only [decPawtImm, decPar_ok, Except.ok.injEq] at h
  obtain ⟨hz, -, p, hp, rfl⟩ := h
  simp only [Bool.and_eq_true, beq_iff_eq, bf] at hz
  exact hp.faithful hf rfl ho ha hr (by simp only [hz])
    hf.imm_toNat
    (by have := hf.aux; simp only [BitVec.toNat_ofNat, bf]; omega) hp.ok

theorem decPret_faithful {f : Fields} {i : Instr} (hf : f.Sliced) (ho : f.opc = 0x183) (ha : f.ar = 2) (hr : f.immr = 0)
    (h : decPret f = .ok i) : Faithful f i := by
  simp only [decPret, decPar_ok, Except.ok.injEq] at h
  obtain ⟨hz, -, p, hp, rfl⟩ := h
  simp only [Bool.and_eq_true, beq_iff_eq, bf] at hz
  exact hp.faithful hf rfl ho ha hr (by simp only [hz])
    (by simp only [hz])
    (by have := hf.aux; simp only [BitVec.toNat_ofNat, bf]; omega) hp.ok

theorem decPretImm_faithful {f : Fields} {i : Instr} (hf : f.Sliced) (ho : f.opc = 0x183) (ha : f.ar = 1) (hr : f.immr = 1)
    (h : decPretImm f = .ok i) : Faithful f i := by
  simp only [decPretImm, decPar_ok, Except.ok.injEq] at h
  obtain ⟨hz, -, p, hp, rfl⟩ := h
  simp only [Bool.and_eq_true, beq_iff_eq, bf] at hz
  exact hp.faithful hf rfl ho ha hr (by simp only [hz])
    hf.imm_toNat
    (by have := hf.aux; simp only [BitVec.toNat_ofNat, bf]; omega) hp.ok

theorem decPinfo_faithful {f : Fields} {i : Instr} (hf : f.Sliced) (ho : f.opc = 0x184) (ha : f.ar = 1) (hr : f.immr = 0)
    (h : decPinfo f = .ok i) : Faithful f i := by
  simp only [decPinfo, decPar_ok, Except.ok.injEq] at h
  obtain ⟨hz, -, p, hp, rfl⟩ := h
  simp only [Bool.and_eq_true, beq_iff_eq, bf] at hz
  exact hp.faithful hf rfl ho ha hr (by simp only [hz])
    (by simp only [hz])
    (by have := hf.aux; simp only [BitVec.toNat_ofNat, bf]; omega) hp.ok

theorem decQput_faithful {f : Fields} {i : Instr} (hf : f.Sliced) (ho : f.opc = 0x189) (ha : f.ar = 1) (hr : f.immr = 0)
    (h : decQput f = .ok i) : Faithful f i := by
  simp only [decQput, decPar_ok, Except.ok.injEq] at h
  obtain ⟨hz, -, p, hp, rfl⟩ := h
  simp only [Bool.and_eq_true, beq_iff_eq, bf] at hz
  exact hp.faithful hf rfl ho ha hr (by simp only [hz])
    (by simp only [hz])
    (by have := hf.aux; simp only [BitVec.toNat_ofNat, bf]; omega) hp.ok

theorem decQputArgs_faithful {f : Fields} {i : Instr} (hf : f.Sliced) (ho : f.opc = 0x189) (ha : f.ar = 2) (hr : f.immr = 0)
    (h : decQputArgs f = .ok i) : Faithful f i := by
  simp only [decQputArgs, decPar_ok, Except.ok.injEq] at h
  obtain ⟨hz, -, p, hp, rfl⟩ := h
  simp only [Bool.and_eq_true, beq_iff_eq, bf] at hz
  exact hp.faithful hf rfl ho ha hr (by simp only [hz])
    (by simp only [hz])
    (by have := hf.aux; simp only [BitVec.toNat_ofNat, bf]; omega) hp.ok

theorem decQwait_faithful {f : Fields} {i : Instr} (hf : f.Sliced) (ho : f.opc = 0x18a) (ha : f.ar = 1) (hr : f.immr = 0)
    (h : decQwait f = .ok i) : Faithful f i := by
  simp only [decQwait, decPar_ok, Except.ok.injEq] at h
  obtain ⟨hz, -, p, hp, rfl⟩ := h
  simp only [Bool.and_eq_true, beq_iff_eq] at hz
  exact hp.faithful hf rfl ho ha hr (by simp only [hz])
    (by simp only [hz])
    (by simp only [hz]) hp.ok

theorem decCload_faithful {f : Fields} {i : Instr} (hf : f.Sliced) (ho : f.opc = 0x18b) (ha : f.ar = 1) (hr : f.immr = 0)
    (h : decCload f = .ok i) : Faithful f i := by
  simp only [decCload, decPar_ok, Except.ok.injEq] at h
  obtain ⟨hz, -, p, hp, rfl⟩ := h
  simp only [Bool.and_eq_true, beq_iff_eq, bf] at hz
  exact hp.faithful hf rfl ho ha hr (by simp only [hz])
    (by simp only [hz])
    (by have := hf.aux; simp only [BitVec.toNat_ofNat, bf]; omega) hp.ok

theorem decCsel_faithful {f : Fields} {i : Instr} (hf : f.Sliced) (ho : f.opc = 0x18c) (ha : f.ar = 1) (hr : f.immr = 0)
    (h : decCsel f = .ok i) : Faithful f i := by
  simp only [decCsel, decPar_ok, Except.ok.injEq] at h
  obtain ⟨hz, -, p, hp, rfl⟩ := h
  simp only [Bool.and_eq_true, beq_iff_eq] at hz
  exact hp.faithful hf rfl ho ha hr (by simp only [hz])
    (by simp only [hz])
    (by simp only [hz]) hp.ok

theorem decCswt_faithful {f : Fields} {i : Instr} (hf : f.Sliced) (ho : f.opc = 0x18d) (ha : f.ar = 1) (hr : f.immr = 0)
    (h : decCswt f = .ok i) : Faithful f i := by
  simp only [decCswt, decPar_ok, Except.ok.injEq] at h
  obtain ⟨hz, -, p, hp, rfl⟩ := h
  simp only [Bool.and_eq_true, beq_iff_eq, bf] at hz
  exact hp.faithful hf rfl ho ha hr (by simp only [hz])
    (by simp only [hz])
    (by have := hf.aux; simp only [BitVec.toNat_ofNat, bf]; omega) hp.ok

theorem decCfree_faithful {f : Fields} {i : Instr} (hf : f.Sliced) (ho : f.opc = 0x18e) (ha : f.ar = 1) (hr : f.immr = 0)
    (h : decCfree f = .ok i) : Faithful f i := by
  simp only [decCfree, decPar_ok, Except.ok.injEq] at h
  obtain ⟨hz, -, p, hp, rfl⟩ := h
  simp only [Bool.and_eq_true, beq_iff_eq, bf] at hz
  exact hp.faithful hf rfl ho ha hr (by simp only [hz])
    (by simp only [hz])
    (by have := hf.aux; simp only [BitVec.toNat_ofNat, bf]; omega) hp.ok

theorem decTrap_faithful {f : Fields} {i : Instr} (hf : f.Sliced) (ho : f.opc = 0x1c0) (ha : f.ar = 1) (hr : f.immr = 0)
    (h : decTrap f = .ok i) : Faithful f i := by
  simp only [decTrap, decPar_ok, Except.ok.injEq] at h
  obtain ⟨hz, -, p, hp, rfl⟩ := h
  simp only [Bool.and_eq_true, beq_iff_eq, bf] at hz
  exact hp.faithful hf rfl ho ha hr (by simp only [hz])
    (by have := hf.imm; simp only [BitVec.toNat_ofNat, bf]; omega)
    (by simp only [hz]) hp.ok

theorem decTret_faithful {f : Fields} {i : Instr} (hf : f.Sliced) (ho : f.opc = 0x1c1) (ha : f.ar = 1) (hr : f.immr = 0)
    (h : decTret f = .ok i) : Faithful f i := by
  simp only [decTret, decPar_ok, Except.ok.injEq] at h
  obtain ⟨hz, -, p, hp, rfl⟩ := h
  simp only [Bool.and_eq_true, beq_iff_eq] at hz
  exact hp.faithful hf rfl ho ha hr (by simp only [hz])
    (by simp only [hz])
    (by simp only [hz]) hp.ok

theorem decGetc_faithful {f : Fields} {i : Instr} (hf : f.Sliced) (ho : f.opc = 0x1c2) (ha : f.ar = 1) (hr : f.immr = 0)
    (h : decGetc f = .ok i) : Faithful f i := by
  simp only [decGetc, decPar_ok, Except.ok.injEq] at h
  obtain ⟨hz, ht, p, hp, rfl⟩ := h
  simp only [Bool.and_eq_true, beq_iff_eq, bf] at hz
  exact hp.faithful hf rfl ho ha hr (by simp only [hz])
    (by simp only [hz])
    (by have := hf.aux; simp only [BitVec.toNat_ofNat, bf]; omega) (by change (_ && _) = true; have := hp.ok; have := hp.ty; simp_all [bf])

theorem decSetc_faithful {f : Fields} {i : Instr} (hf : f.Sliced) (ho : f.opc = 0x1c3) (ha : f.ar = 1) (hr : f.immr = 0)
    (h : decSetc f = .ok i) : Faithful f i := by
  simp only [decSetc, decPar_ok, Except.ok.injEq] at h
  obtain ⟨hz, ht, p, hp, rfl⟩ := h
  simp only [Bool.and_eq_true, beq_iff_eq, bf] at hz
  exact hp.faithful hf rfl ho ha hr (by simp only [hz])
    (by simp only [hz])
    (by have := hf.aux; simp only [BitVec.toNat_ofNat, bf]; omega) (by change (_ && _) = true; have := hp.ok; have := hp.ty; simp_all [bf])

theorem decSetcFpflags_faithful {f : Fields} {i : Instr} (hf : f.Sliced) (ho : f.opc = 0x1c3) (ha : f.ar = 1) (hr : f.immr = 0) (hk : bf f.aux 0 12 = 0x003)
    (h : decSetcFpflags f = .ok i) : Faithful f i := by
  simp only [decSetcFpflags, decPar_ok, Except.ok.injEq] at h
  obtain ⟨hz, -, p, hp, rfl⟩ := h
  simp only [Bool.and_eq_true, beq_iff_eq, bf] at hz
  simp only [bf] at hk
  exact hp.faithful hf rfl ho ha hr (by simp only [hz])
    (by simp only [hz])
    (by have := hf.aux; omega) hp.ok

theorem decSetcWatch_faithful {f : Fields} {i : Instr} (hf : f.Sliced) (ho : f.opc = 0x1c3) (ha : f.ar = 1) (hr : f.immr = 0)
    (h : decSetcWatch f = .ok i) : Faithful f i := by
  simp only [decSetcWatch, decPar_ok, Except.ok.injEq] at h
  obtain ⟨hz, ht, p, hp, rfl⟩ := h
  simp only [Bool.and_eq_true, beq_iff_eq, bf] at hz
  exact hp.faithful hf rfl ho ha hr (by simp only [hz])
    (by simp only [hz])
    (by have := hf.aux; simp only [BitVec.toNat_ofNat, bf]; omega) (by change (_ && _) = true; have := hp.ok; have := hp.ty; simp_all [bf])

theorem decSetcTimerCmp_faithful {f : Fields} {i : Instr} (hf : f.Sliced) (ho : f.opc = 0x1c3) (ha : f.ar = 1) (hr : f.immr = 0) (hk : bf f.aux 0 12 = 0x020)
    (h : decSetcTimerCmp f = .ok i) : Faithful f i := by
  simp only [decSetcTimerCmp, decPar_ok, Except.ok.injEq] at h
  obtain ⟨hz, -, p, hp, rfl⟩ := h
  simp only [Bool.and_eq_true, beq_iff_eq, bf] at hz
  simp only [bf] at hk
  exact hp.faithful hf rfl ho ha hr (by simp only [hz])
    (by simp only [hz])
    (by have := hf.aux; omega) hp.ok

theorem decSetcRasInject_faithful {f : Fields} {i : Instr} (hf : f.Sliced) (ho : f.opc = 0x1c3) (ha : f.ar = 1) (hr : f.immr = 0) (hk : bf f.aux 0 12 = 0x060)
    (h : decSetcRasInject f = .ok i) : Faithful f i := by
  simp only [decSetcRasInject, decPar_ok, Except.ok.injEq] at h
  obtain ⟨hz, -, p, hp, rfl⟩ := h
  simp only [Bool.and_eq_true, beq_iff_eq, bf] at hz
  simp only [bf] at hk
  exact hp.faithful hf rfl ho ha hr (by simp only [hz])
    (by simp only [hz])
    (by have := hf.aux; omega) hp.ok

theorem decTime_faithful {f : Fields} {i : Instr} (hf : f.Sliced) (ho : f.opc = 0x1c4) (ha : f.ar = 1) (hr : f.immr = 0)
    (h : decTime f = .ok i) : Faithful f i := by
  simp only [decTime, decPar_ok, Except.ok.injEq] at h
  obtain ⟨hz, -, p, hp, rfl⟩ := h
  simp only [Bool.and_eq_true, beq_iff_eq] at hz
  exact hp.faithful hf rfl ho ha hr (by simp only [hz])
    (by simp only [hz])
    (by simp only [hz]) hp.ok

theorem decTrace_faithful {f : Fields} {i : Instr} (hf : f.Sliced) (ho : f.opc = 0x1c5) (ha : f.ar = 1) (hr : f.immr = 0)
    (h : decTrace f = .ok i) : Faithful f i := by
  simp only [decTrace, decPar_ok, Except.ok.injEq] at h
  obtain ⟨hz, -, p, hp, rfl⟩ := h
  simp only [Bool.and_eq_true, beq_iff_eq] at hz
  exact hp.faithful hf rfl ho ha hr (by simp only [hz])
    (by simp only [hz])
    hf.aux_toNat hp.ok

theorem decTrace2_faithful {f : Fields} {i : Instr} (hf : f.Sliced) (ho : f.opc = 0x1c5) (ha : f.ar = 2) (hr : f.immr = 0)
    (h : decTrace2 f = .ok i) : Faithful f i := by
  simp only [decTrace2, decPar_ok, Except.ok.injEq] at h
  obtain ⟨hz, -, p, hp, rfl⟩ := h
  simp only [Bool.and_eq_true, beq_iff_eq] at hz
  exact hp.faithful hf rfl ho ha hr (by simp only [hz])
    (by simp only [hz])
    hf.aux_toNat hp.ok

theorem decPerf_faithful {f : Fields} {i : Instr} (hf : f.Sliced) (ho : f.opc = 0x1c6) (ha : f.ar = 1) (hr : f.immr = 0)
    (h : decPerf f = .ok i) : Faithful f i := by
  simp only [decPerf, decPar_ok, Except.ok.injEq] at h
  obtain ⟨hz, ht, p, hp, rfl⟩ := h
  simp only [Bool.and_eq_true, beq_iff_eq, bf] at hz
  exact hp.faithful hf rfl ho ha hr (by simp only [hz])
    (by simp only [hz])
    (by have := hf.aux; simp only [BitVec.toNat_ofNat, bf]; omega) (by change (_ && _) = true; have := hp.ok; have := hp.ty; simp_all [bf])

theorem decIfrd_faithful {f : Fields} {i : Instr} (hf : f.Sliced) (ho : f.opc = 0x1c7) (ha : f.ar = 1) (hr : f.immr = 0)
    (h : decIfrd f = .ok i) : Faithful f i := by
  simp only [decIfrd, decPar_ok, Except.ok.injEq] at h
  obtain ⟨hz, -, p, hp, rfl⟩ := h
  simp only [Bool.and_eq_true, beq_iff_eq] at hz
  exact hp.faithful hf rfl ho ha hr (by simp only [hz])
    (by simp only [hz])
    (by simp only [hz]) hp.ok

theorem decSbind_faithful {f : Fields} {i : Instr} (hf : f.Sliced) (ho : f.opc = 0x1c8) (ha : f.ar = 2) (hr : f.immr = 0)
    (h : decSbind f = .ok i) : Faithful f i := by
  simp only [decSbind, decPar_ok, Except.ok.injEq] at h
  obtain ⟨hz, -, p, hp, rfl⟩ := h
  simp only [Bool.and_eq_true, beq_iff_eq] at hz
  exact hp.faithful hf rfl ho ha hr (by simp only [hz])
    (by simp only [hz])
    hf.aux_toNat hp.ok

theorem decXtset_faithful {f : Fields} {i : Instr} (hf : f.Sliced) (ho : f.opc = 0x1c9) (ha : f.ar = 2) (hr : f.immr = 0)
    (h : decXtset f = .ok i) : Faithful f i := by
  simp only [decXtset, decPar_ok, Except.ok.injEq] at h
  obtain ⟨hz, -, p, hp, rfl⟩ := h
  simp only [Bool.and_eq_true, beq_iff_eq] at hz
  exact hp.faithful hf rfl ho ha hr (by simp only [hz])
    (by simp only [hz])
    (by simp only [hz]) hp.ok

/-! ## The opcode map (R38 to R43) -/

/-- A form that the table has once: its arity selects it. -/
theorem faithful_need {f : Fields} {i : Instr} {a r : Nat} {d : Except Reason Instr}
    (h : f.ar = a → f.immr = r → d = .ok i → Faithful f i) : need (f.ar == a && f.immr == r) .arity d = .ok i → Faithful f i := by
  simp only [need_ok, Bool.and_eq_true, beq_iff_eq]
  rintro ⟨⟨ha, hr⟩, hd⟩
  exact h ha hr hd

/-- One of several forms of an opcode, and the rest of them. -/
theorem faithful_ite {f : Fields} {i : Instr} {a r : Nat} {d e : Except Reason Instr}
    (h : f.ar = a → f.immr = r → d = .ok i → Faithful f i) (k : e = .ok i → Faithful f i) :
    (if f.ar == a && f.immr == r then d else e) = .ok i → Faithful f i := by
  split
  case isTrue c =>
    simp only [Bool.and_eq_true, beq_iff_eq] at c
    exact h c.1 c.2
  case isFalse => exact k

/-- A form that a field of its own selects beside the arity. -/
theorem faithful_ite_field {f : Fields} {i : Instr} {a r x n : Nat} {d e : Except Reason Instr}
    (h : f.ar = a → f.immr = r → x = n → d = .ok i → Faithful f i) (k : e = .ok i → Faithful f i) :
    (if f.ar == a && f.immr == r && x == n then d else e) = .ok i → Faithful f i := by
  split
  case isTrue c =>
    simp only [Bool.and_eq_true, beq_iff_eq] at c
    exact h c.1.1 c.1.2 c.2
  case isFalse => exact k

theorem faithful_error {f : Fields} {i : Instr} {r : Reason} : (.error r : Except Reason Instr) = .ok i → Faithful f i :=
  fun h => nomatch h

theorem decClass0_faithful {f : Fields} {i : Instr} (hf : f.Sliced) (hc : f.opc / 64 = 0) (h : decClass0 f = .ok i) :
    Faithful f i := by
  unfold decClass0 at h
  split at h
  next e => exact faithful_need (decPass_faithful hf (by omega)) h
  next e => exact faithful_need (decConst_faithful hf (by omega)) h
  next e => exact (faithful_ite (decSteer_faithful hf (by omega)) (faithful_ite (decSteerImm_faithful hf (by omega)) faithful_error)) h
  next e => exact (faithful_ite (decGate_faithful hf (by omega)) (faithful_ite (decGateImm_faithful hf (by omega)) faithful_error)) h
  next e => exact (faithful_ite (decDisp_faithful hf (by omega)) (faithful_ite (decDispImm_faithful hf (by omega)) faithful_error)) h
  next e => exact (faithful_ite (decJoin_faithful hf (by omega)) (faithful_ite (decJoin3_faithful hf (by omega)) (faithful_ite (decJoinImm_faithful hf (by omega)) (faithful_ite (decJoin3Imm_faithful hf (by omega)) faithful_error)))) h
  next e => exact faithful_need (decCntn_faithful hf (by omega)) h
  next e => exact (faithful_ite (decFnew_faithful hf (by omega)) (faithful_ite (decFnewNamed_faithful hf (by omega)) (faithful_ite (decFnewNamedImm_faithful hf (by omega)) faithful_error))) h
  next e => exact faithful_need (decSendf_faithful hf (by omega)) h
  next e => exact faithful_need (decMkcont_faithful hf (by omega)) h
  next e => exact (faithful_ite (decIter_faithful hf (by omega)) (faithful_ite (decIter2_faithful hf (by omega)) (faithful_ite (decIter2Imm_faithful hf (by omega)) faithful_error))) h
  next e => exact faithful_need (decExit_faithful hf (by omega)) h
  next e => exact faithful_need (decFset_faithful hf (by omega)) h
  next e => exact faithful_need (decFget_faithful hf (by omega)) h
  next e => exact faithful_need (decIseos_faithful hf (by omega)) h
  next e => exact faithful_need (decMkeos_faithful hf (by omega)) h
  next e => exact (faithful_ite (decSend_faithful hf (by omega)) (faithful_ite (decSendImm_faithful hf (by omega)) faithful_error)) h
  next e => exact faithful_need (decPhopen_faithful hf (by omega)) h
  next e => exact faithful_need (decPhclose_faithful hf (by omega)) h
  next e => exact faithful_need (decSelf_faithful hf (by omega)) h
  next e => exact faithful_need (decLevel_faithful hf (by omega)) h
  · exact faithful_error h

theorem decClass1_faithful {f : Fields} {i : Instr} (hf : f.Sliced) (hc : f.opc / 64 = 1) (h : decClass1 f = .ok i) :
    Faithful f i := by
  unfold decClass1 at h
  split at h
  next e => exact (faithful_ite (decAdd_faithful hf (by omega)) (faithful_ite (decAddImm_faithful hf (by omega)) faithful_error)) h
  next e => exact (faithful_ite (decSub_faithful hf (by omega)) (faithful_ite (decSubImm_faithful hf (by omega)) faithful_error)) h
  next e => exact (faithful_ite (decMul_faithful hf (by omega)) (faithful_ite (decMulImm_faithful hf (by omega)) faithful_error)) h
  next e => exact (faithful_ite (decMulh_faithful hf (by omega)) (faithful_ite (decMulhImm_faithful hf (by omega)) faithful_error)) h
  next e => exact (faithful_ite (decDiv_faithful hf (by omega)) (faithful_ite (decDivImm_faithful hf (by omega)) faithful_error)) h
  next e => exact (faithful_ite (decRem_faithful hf (by omega)) (faithful_ite (decRemImm_faithful hf (by omega)) faithful_error)) h
  next e => exact (faithful_ite (decAnd_faithful hf (by omega)) (faithful_ite (decAndImm_faithful hf (by omega)) faithful_error)) h
  next e => exact (faithful_ite (decOr_faithful hf (by omega)) (faithful_ite (decOrImm_faithful hf (by omega)) faithful_error)) h
  next e => exact (faithful_ite (decXor_faithful hf (by omega)) (faithful_ite (decXorImm_faithful hf (by omega)) faithful_error)) h
  next e => exact (faithful_ite (decAndn_faithful hf (by omega)) (faithful_ite (decAndnImm_faithful hf (by omega)) faithful_error)) h
  next e => exact (faithful_ite (decShl_faithful hf (by omega)) (faithful_ite (decShlImm_faithful hf (by omega)) faithful_error)) h
  next e => exact (faithful_ite (decShr_faithful hf (by omega)) (faithful_ite (decShrImm_faithful hf (by omega)) faithful_error)) h
  next e => exact (faithful_ite (decSar_faithful hf (by omega)) (faithful_ite (decSarImm_faithful hf (by omega)) faithful_error)) h
  next e => exact (faithful_ite (decRol_faithful hf (by omega)) (faithful_ite (decRolImm_faithful hf (by omega)) faithful_error)) h
  next e => exact (faithful_ite (decMin_faithful hf (by omega)) (faithful_ite (decMinImm_faithful hf (by omega)) faithful_error)) h
  next e => exact (faithful_ite (decMax_faithful hf (by omega)) (faithful_ite (decMaxImm_faithful hf (by omega)) faithful_error)) h
  next e => exact faithful_need (decAbs_faithful hf (by omega)) h
  next e => exact faithful_need (decNeg_faithful hf (by omega)) h
  next e => exact faithful_need (decClz_faithful hf (by omega)) h
  next e => exact faithful_need (decCtz_faithful hf (by omega)) h
  next e => exact faithful_need (decPopc_faithful hf (by omega)) h
  next e => exact (faithful_ite (decCmp_faithful hf (by omega)) (faithful_ite (decCmpImm_faithful hf (by omega)) faithful_error)) h
  next e => exact (faithful_ite (decSel_faithful hf (by omega)) (faithful_ite (decSelImm_faithful hf (by omega)) faithful_error)) h
  next e => exact (faithful_ite (decExt_faithful hf (by omega)) (faithful_ite (decExtImm_faithful hf (by omega)) faithful_error)) h
  next e => exact (faithful_ite (decIns_faithful hf (by omega)) (faithful_ite (decInsImm_faithful hf (by omega)) faithful_error)) h
  next e => exact (faithful_ite (decMad_faithful hf (by omega)) (faithful_ite (decMadImm_faithful hf (by omega)) faithful_error)) h
  next e => exact (faithful_ite (decAdds_faithful hf (by omega)) (faithful_ite (decAddsImm_faithful hf (by omega)) faithful_error)) h
  next e => exact (faithful_ite (decSubs_faithful hf (by omega)) (faithful_ite (decSubsImm_faithful hf (by omega)) faithful_error)) h
  · exact faithful_error h

theorem decClass2_faithful {f : Fields} {i : Instr} (hf : f.Sliced) (hc : f.opc / 64 = 2) (h : decClass2 f = .ok i) :
    Faithful f i := by
  unfold decClass2 at h
  split at h
  next e => exact (faithful_ite (decFadd_faithful hf (by omega)) (faithful_ite (decFaddImm_faithful hf (by omega)) faithful_error)) h
  next e => exact (faithful_ite (decFsub_faithful hf (by omega)) (faithful_ite (decFsubImm_faithful hf (by omega)) faithful_error)) h
  next e => exact (faithful_ite (decFmul_faithful hf (by omega)) (faithful_ite (decFmulImm_faithful hf (by omega)) faithful_error)) h
  next e => exact (faithful_ite (decFfma_faithful hf (by omega)) (faithful_ite (decFfmaImm_faithful hf (by omega)) faithful_error)) h
  next e => exact (faithful_ite (decFdiv_faithful hf (by omega)) (faithful_ite (decFdivImm_faithful hf (by omega)) faithful_error)) h
  next e => exact faithful_need (decFsqrt_faithful hf (by omega)) h
  next e => exact faithful_need (decFrcp_faithful hf (by omega)) h
  next e => exact faithful_need (decFrsq_faithful hf (by omega)) h
  next e => exact (faithful_ite (decFmin_faithful hf (by omega)) (faithful_ite (decFminImm_faithful hf (by omega)) faithful_error)) h
  next e => exact (faithful_ite (decFmax_faithful hf (by omega)) (faithful_ite (decFmaxImm_faithful hf (by omega)) faithful_error)) h
  next e => exact faithful_need (decFabs_faithful hf (by omega)) h
  next e => exact faithful_need (decFneg_faithful hf (by omega)) h
  next e => exact (faithful_ite (decFcmp_faithful hf (by omega)) (faithful_ite (decFcmpImm_faithful hf (by omega)) faithful_error)) h
  next e => exact faithful_need (decFclass_faithful hf (by omega)) h
  next e => exact faithful_need (decFcvt_faithful hf (by omega)) h
  next e => exact faithful_need (decFtoi_faithful hf (by omega)) h
  next e => exact faithful_need (decItof_faithful hf (by omega)) h
  next e => exact faithful_need (decFrnd_faithful hf (by omega)) h
  next e => exact (faithful_ite (decFldx_faithful hf (by omega)) (faithful_ite (decFldxImm_faithful hf (by omega)) faithful_error)) h
  next e => exact faithful_need (decFgetx_faithful hf (by omega)) h
  next e => exact faithful_need (decFexp2f_faithful hf (by omega)) h
  · exact faithful_error h

theorem decClass3_faithful {f : Fields} {i : Instr} (hf : f.Sliced) (hc : f.opc / 64 = 3) (h : decClass3 f = .ok i) :
    Faithful f i := by
  unfold decClass3 at h
  split at h
  next e => exact faithful_need (decTalloc_faithful hf (by omega)) h
  next e => exact faithful_need (decTref_faithful hf (by omega)) h
  next e => exact faithful_need (decTdrop_faithful hf (by omega)) h
  next e => exact (faithful_ite (decTview_faithful hf (by omega)) (faithful_ite (decTviewImm_faithful hf (by omega)) faithful_error)) h
  next e => exact faithful_need (decTinfo_faithful hf (by omega)) h
  next e => exact (faithful_ite (decTfill_faithful hf (by omega)) (faithful_ite (decTfillImm_faithful hf (by omega)) faithful_error)) h
  next e => exact (faithful_ite (decTcopy_faithful hf (by omega)) (faithful_ite (decTcopyInto_faithful hf (by omega)) faithful_error)) h
  next e => exact faithful_need (decTtran_faithful hf (by omega)) h
  next e => exact (faithful_ite (decTget_faithful hf (by omega)) (faithful_ite (decTgetImm_faithful hf (by omega)) faithful_error)) h
  next e => exact (faithful_ite (decTset_faithful hf (by omega)) (faithful_ite (decTsetImm_faithful hf (by omega)) faithful_error)) h
  next e => exact (faithful_ite_field (decVrunA_faithful hf (by omega)) (faithful_ite_field (decVrunAb_faithful hf (by omega)) (faithful_ite_field (decVrunAo_faithful hf (by omega)) (faithful_ite_field (decVrunAbo_faithful hf (by omega)) faithful_error)))) h
  next e => exact (faithful_ite (decVruns_faithful hf (by omega)) (faithful_ite (decVruns2_faithful hf (by omega)) faithful_error)) h
  next e => exact faithful_need (decVstat_faithful hf (by omega)) h
  · exact faithful_error h

theorem decClass4_faithful {f : Fields} {i : Instr} (hf : f.Sliced) (hc : f.opc / 64 = 4) (h : decClass4 f = .ok i) :
    Faithful f i := by
  unfold decClass4 at h
  split at h
  next e => exact faithful_need (decWld_faithful hf (by omega)) h
  next e => exact faithful_need (decWfree_faithful hf (by omega)) h
  next e => exact faithful_need (decMma_faithful hf (by omega)) h
  next e => exact (faithful_ite (decMmas_faithful hf (by omega)) (faithful_ite (decMmasImm_faithful hf (by omega)) faithful_error)) h
  next e => exact (faithful_ite_field (decAdrain_faithful hf (by omega)) (faithful_ite_field (decAdrainImm_faithful hf (by omega)) (faithful_ite_field (decAdrainSteer_faithful hf (by omega)) (faithful_ite_field (decAdrainSteerImm_faithful hf (by omega)) faithful_error)))) h
  next e => exact faithful_need (decAclr_faithful hf (by omega)) h
  next e => exact faithful_need (decWinfo_faithful hf (by omega)) h
  next e => exact faithful_need (decMstat_faithful hf (by omega)) h
  · exact faithful_error h

theorem decClass5_faithful {f : Fields} {i : Instr} (hf : f.Sliced) (hc : f.opc / 64 = 5) (h : decClass5 f = .ok i) :
    Faithful f i := by
  unfold decClass5 at h
  split at h
  next e => exact faithful_need (decLd_faithful hf (by omega)) h
  next e => exact (faithful_ite (decSt_faithful hf (by omega)) (faithful_ite (decStImm_faithful hf (by omega)) faithful_error)) h
  next e => exact (faithful_ite (decLdt_faithful hf (by omega)) (faithful_ite (decLdtScaled_faithful hf (by omega)) faithful_error)) h
  next e => exact (faithful_ite (decStt_faithful hf (by omega)) (faithful_ite (decSttScaled_faithful hf (by omega)) faithful_error)) h
  next e => exact (faithful_ite (decCopy_faithful hf (by omega)) (faithful_ite (decCopyAddr_faithful hf (by omega)) faithful_error)) h
  next e => exact faithful_need (decGath_faithful hf (by omega)) h
  next e => exact faithful_need (decScat_faithful hf (by omega)) h
  next e => exact faithful_need (decCred_faithful hf (by omega)) h
  next e => exact faithful_need (decDrain_faithful hf (by omega)) h
  next e => exact faithful_need (decPfh_faithful hf (by omega)) h
  next e => exact (faithful_ite (decAop_faithful hf (by omega)) (faithful_ite (decAopImm_faithful hf (by omega)) faithful_error)) h
  next e => exact (faithful_ite (decAcas_faithful hf (by omega)) (faithful_ite (decAcasImm_faithful hf (by omega)) faithful_error)) h
  next e => exact faithful_need (decBupd_faithful hf (by omega)) h
  next e => exact (faithful_ite (decBaxpy_faithful hf (by omega)) (faithful_ite (decBaxpyImm_faithful hf (by omega)) faithful_error)) h
  · exact faithful_error h

theorem decClass6_faithful {f : Fields} {i : Instr} (hf : f.Sliced) (hc : f.opc / 64 = 6) (h : decClass6 f = .ok i) :
    Faithful f i := by
  unfold decClass6 at h
  split at h
  next e => exact (faithful_ite (decPclm_faithful hf (by omega)) (faithful_ite (decPclmImm_faithful hf (by omega)) faithful_error)) h
  next e => exact (faithful_ite (decPcmt_faithful hf (by omega)) (faithful_ite (decPcmtImm_faithful hf (by omega)) faithful_error)) h
  next e => exact (faithful_ite (decPawt_faithful hf (by omega)) (faithful_ite (decPawtImm_faithful hf (by omega)) faithful_error)) h
  next e => exact (faithful_ite (decPret_faithful hf (by omega)) (faithful_ite (decPretImm_faithful hf (by omega)) faithful_error)) h
  next e => exact faithful_need (decPinfo_faithful hf (by omega)) h
  next e => exact (faithful_ite (decBara_faithful hf (by omega)) (faithful_ite (decBaraStatus_faithful hf (by omega)) (faithful_ite (decBaraImm_faithful hf (by omega)) faithful_error))) h
  next e => exact (faithful_ite (decBarw_faithful hf (by omega)) (faithful_ite (decBarwImm_faithful hf (by omega)) faithful_error)) h
  next e => exact faithful_need (decAcq_faithful hf (by omega)) h
  next e => exact faithful_need (decRel_faithful hf (by omega)) h
  next e => exact (faithful_ite (decQput_faithful hf (by omega)) (faithful_ite (decQputArgs_faithful hf (by omega)) faithful_error)) h
  next e => exact faithful_need (decQwait_faithful hf (by omega)) h
  next e => exact faithful_need (decCload_faithful hf (by omega)) h
  next e => exact faithful_need (decCsel_faithful hf (by omega)) h
  next e => exact faithful_need (decCswt_faithful hf (by omega)) h
  next e => exact faithful_need (decCfree_faithful hf (by omega)) h
  · exact faithful_error h

theorem decClass7_faithful {f : Fields} {i : Instr} (hf : f.Sliced) (hc : f.opc / 64 = 7) (h : decClass7 f = .ok i) :
    Faithful f i := by
  unfold decClass7 at h
  split at h
  next e => exact faithful_need (decTrap_faithful hf (by omega)) h
  next e => exact faithful_need (decTret_faithful hf (by omega)) h
  next e => exact faithful_need (decGetc_faithful hf (by omega)) h
  next e =>
    refine faithful_need (fun ha hr => ?_) h
    split
    case isTrue hk => exact decSetcFpflags_faithful hf (by omega) ha hr (by simpa using hk)
    case isFalse =>
      split
      case isTrue hk => exact decSetcTimerCmp_faithful hf (by omega) ha hr (by simpa using hk)
      case isFalse =>
        split
        case isTrue hk => exact decSetcRasInject_faithful hf (by omega) ha hr (by simpa using hk)
        case isFalse =>
          split
          case isTrue => exact decSetcWatch_faithful hf (by omega) ha hr
          case isFalse => exact decSetc_faithful hf (by omega) ha hr
  next e => exact faithful_need (decTime_faithful hf (by omega)) h
  next e => exact (faithful_ite (decTrace_faithful hf (by omega)) (faithful_ite (decTrace2_faithful hf (by omega)) faithful_error)) h
  next e => exact faithful_need (decPerf_faithful hf (by omega)) h
  next e => exact faithful_need (decIfrd_faithful hf (by omega)) h
  next e => exact faithful_need (decSbind_faithful hf (by omega)) h
  next e => exact faithful_need (decXtset_faithful hf (by omega)) h
  · exact faithful_error h

/-- What the decoder accepts, it reads faithfully. -/
theorem decFields_faithful {f : Fields} {i : Instr} (hf : f.Sliced) (h : decFields f = .ok i) : Faithful f i := by
  unfold decFields at h
  split at h
  · exact decClass0_faithful hf ‹_› h
  · exact decClass1_faithful hf ‹_› h
  · exact decClass2_faithful hf ‹_› h
  · exact decClass3_faithful hf ‹_› h
  · exact decClass4_faithful hf ‹_› h
  · exact decClass5_faithful hf ‹_› h
  · exact decClass6_faithful hf ‹_› h
  · exact decClass7_faithful hf ‹_› h
  · cases h

/-- The fields of a word are slices of it, and together the whole of it (R23). -/
theorem Fields.ofNat_sliced (w : Nat) : (Fields.ofNat w).Sliced := by
  constructor <;> simp only [Fields.ofNat, bf] <;> omega

/-- The bits of a number above `lo` are the field of `n` bits that stands there and the bits above it. -/
theorem div_eq_bf (w lo n : Nat) : w / 2 ^ lo = w / 2 ^ (lo + n) * 2 ^ n + bf w lo n := by
  rw [bf, Nat.pow_add, ← Nat.div_div_eq_div_mul, Nat.div_add_mod']

theorem Fields.toNat_ofNat (w : Nat) (hw : w < 2 ^ 128) : (Fields.ofNat w).toNat = w := by
  have top : w / 2 ^ (119 + 9) = 0 := Nat.div_eq_of_lt hw
  have low : w / 2 ^ 0 = w := by rw [Nat.pow_zero, Nat.div_one]
  simp only [Fields.ofNat, Fields.toNat]
  have f0 := div_eq_bf w 0 14
  have f14 := div_eq_bf w 14 1
  have f15 := div_eq_bf w 15 1
  have f16 := div_eq_bf w 16 16
  have f32 := div_eq_bf w 32 32
  have f64 := div_eq_bf w 64 11
  have f75 := div_eq_bf w 75 11
  have f86 := div_eq_bf w 86 11
  have f97 := div_eq_bf w 97 7
  have f104 := div_eq_bf w 104 1
  have f105 := div_eq_bf w 105 4
  have f109 := div_eq_bf w 109 8
  have f117 := div_eq_bf w 117 2
  have f119 := div_eq_bf w 119 9
  rw [low] at f0
  rw [top] at f119
  clear hw top low
  omega

end Sys2Proof

namespace Sys2Proof.Claims

/-- Settles O58: the fields of the word are those of the instruction that its decoder read. -/
theorem everyWordHasOneMeaning : Obligations.EveryWordHasOneMeaning := by
  intro w i h
  have hw : w.toNat < 2 ^ 128 := w.isLt
  obtain ⟨hi, hwf⟩ := decFields_faithful (Fields.ofNat_sliced _) h
  refine ⟨?_, hwf⟩
  rw [encode, hi, Option.map_some, Fields.toNat_ofNat _ hw, BitVec.ofNat_toNat, BitVec.setWidth_eq]

end Sys2Proof.Claims
end


section
/-! PROOFS. Memory stays in canonical form (O55). `MemSafe` says of an outcome that its next state, if there is one, keeps the
invariant. Each operation of the state that gives a state back has one lemma `memInv_…`, and each instruction and event one lemma
`memSafe_…`, in the order of the model's definitions; each follows its definition's branches and cites the lemmas of what that
branch calls. Memory itself changes in four places only: a write of a sector (`State.memInv_writeSector`), a range set to zero
(`Memory.wf_filter`), and reset and power removal. -/

namespace Sys2Proof.Machine
/-- Every next state that an outcome holds has its memory in canonical form. -/
def MemSafe (o : Host.Outcome State Fault Refusal) : Prop := ∀ t, o = .next t → Safety.MemInv t

theorem memSafe_next {t : State} (h : Safety.MemInv t) : MemSafe (.next t) :=
  fun _ e => Host.Outcome.next.inj e ▸ h

theorem memSafe_fault {r : Fault} : MemSafe (.fault r) := fun _ e => nomatch e

theorem memSafe_refused {r : Refusal} : MemSafe (.refused r) := fun _ e => nomatch e

theorem State.memInv_of_mem {s t : State} (e : t.ms.mem = s.ms.mem) (h : Safety.MemInv s) : Safety.MemInv t := by
  unfold Safety.MemInv at *; rw [e]; exact h

/-- A record update of the state that keeps `mem`, whatever else it sets, keeps the invariant. -/
theorem State.memInv_with {s : State} {cores : List Core} {ctxs : List Ctx} {regions : List Region} {flight : List QTok}
    {departing : List Departure} {departSeq : Nat} {reports : List (Nat × Nat × Nat)} {ms : MemSys} {disp : Dispatcher}
    {plat : Platform} {gtc gtcPs wall wallPs : Nat} {cur : Firing} {fresh : Nat} {scalarFaults rowFaults : List Nat} {trapSeq}
    {outbox} {agenda} (e : ms.mem = s.ms.mem) (h : Safety.MemInv s) :
    Safety.MemInv { cores, ctxs, regions, flight, departing, departSeq, reports, ms, disp, plat, gtc, gtcPs, wall, wallPs, cur, fresh,
                    scalarFaults, rowFaults, trapSeq, outbox, agenda } :=
  State.memInv_of_mem e h

theorem State.memInv_of_pair {α : Type} {p : α × State} {a : α} {t : State} (e : p = (a, t)) (h : Safety.MemInv p.2) : Safety.MemInv t := by
  subst e; exact h

theorem State.memInv_of_triple {α β : Type} {p : α × β × State} {a : α} {b : β} {t : State} (e : p = (a, b, t)) (h : Safety.MemInv p.2.2) : Safety.MemInv t := by
  subst e; exact h

theorem State.memInv_foldl_pair {α β : Type} {f : α × State → β → α × State} {l : List β} {r : α × State}
    (hf : ∀ r x, Safety.MemInv r.2 → Safety.MemInv (f r x).2) (h : Safety.MemInv r.2) : Safety.MemInv (l.foldl f r).2 := by
  induction l generalizing r with
  | nil => exact h
  | cons x l ih => exact ih (hf r x h)

theorem State.memInv_foldl_triple {α β γ : Type} {f : α × β × State → γ → α × β × State} {l : List γ} {r : α × β × State}
    (hf : ∀ r x, Safety.MemInv r.2.2 → Safety.MemInv (f r x).2.2) (h : Safety.MemInv r.2.2) : Safety.MemInv (l.foldl f r).2.2 := by
  induction l generalizing r with
  | nil => exact h
  | cons x l ih => exact ih (hf r x h)

theorem State.memInv_inject2 {s : State} {c : Nat} {q : QTok} (h : Safety.MemInv s) : Safety.MemInv (s.inject2 c q).2 :=
  (State.inject2_spec s c q).1.memInv h

theorem State.memInv_push {s : State} {c : Nat} {q : QTok} (h : Safety.MemInv s) : Safety.MemInv (s.push c q) :=
  (State.quiet_push s c q).memInv h

theorem State.memInv_modMs {s : State} {f : MemSys → MemSys} (hf : ∀ m, (f m).mem = m.mem) (h : Safety.MemInv s) :
    Safety.MemInv (s.modMs f) := State.memInv_of_mem (hf s.ms) h

theorem State.memInv_sectorRead {s : State} {sec tag : Nat} (h : Safety.MemInv s) : Safety.MemInv (s.sectorRead sec tag) :=
  State.memInv_of_mem (State.sectorRead_mem s sec tag) h

theorem State.memInv_useStaged {s : State} {a n : Nat} (h : Safety.MemInv s) : Safety.MemInv (s.useStaged a n) :=
  State.memInv_of_mem (State.useStaged_mem s a n) h

theorem State.memInv_readPhys {s : State} {a n tag key : Nat} (h : Safety.MemInv s) : Safety.MemInv (s.readPhys a n tag key).2.2 :=
  State.memInv_of_mem (State.readPhys_mem s a n tag key) h

theorem State.memInv_dropStaged {s : State} {a n : Nat} (h : Safety.MemInv s) : Safety.MemInv (s.dropStaged a n) :=
  State.memInv_of_mem (State.dropStaged_mem s a n) h

theorem State.memInv_modCore {s : State} {c : Nat} {f : Core → Core} (h : Safety.MemInv s) : Safety.MemInv (s.modCore c f) := by
  unfold State.modCore
  exact h

theorem State.memInv_modCtx {s : State} {id : Nat} {f : Ctx → Ctx} (h : Safety.MemInv s) : Safety.MemInv (s.modCtx id f) := by
  unfold State.modCtx
  exact h

theorem State.memInv_modRegs {s : State} {id : Nat} {f : CtxRegs → CtxRegs} (h : Safety.MemInv s) : Safety.MemInv (s.modRegs id f) := by
  unfold State.modRegs
  exact State.memInv_modCtx h

theorem State.memInv_modCoreRegs {s : State} {c : Nat} {f : CoreRegs → CoreRegs} (h : Safety.MemInv s) : Safety.MemInv (s.modCoreRegs c
    f) := by
  unfold State.modCoreRegs
  exact State.memInv_modCore h

theorem State.memInv_modTok {s : State} {c : Nat} {f : TokUnit → TokUnit} (h : Safety.MemInv s) : Safety.MemInv (s.modTok c f) := by
  unfold State.modTok
  exact State.memInv_modCore h

theorem State.memInv_modFrm {s : State} {c : Nat} {f : FrameUnit → FrameUnit} (h : Safety.MemInv s) : Safety.MemInv (s.modFrm c f) := by
  unfold State.modFrm
  exact State.memInv_modCore h

theorem State.memInv_modTile {s : State} {c : Nat} {f : TileUnit → TileUnit} (h : Safety.MemInv s) : Safety.MemInv (s.modTile c f) := by
  unfold State.modTile
  exact State.memInv_modCore h

theorem State.memInv_modEng {s : State} {c : Nat} {f : Engines → Engines} (h : Safety.MemInv s) : Safety.MemInv (s.modEng c f) := by
  unfold State.modEng
  exact State.memInv_modCore h

theorem State.memInv_modPlat {s : State} {f : Platform → Platform} (h : Safety.MemInv s) : Safety.MemInv (s.modPlat f) := by
  unfold State.modPlat
  exact h

theorem State.memInv_modDisp {s : State} {f : Dispatcher → Dispatcher} (h : Safety.MemInv s) : Safety.MemInv (s.modDisp f) := by
  unfold State.modDisp
  exact h

theorem State.memInv_modDie {s : State} {d : Nat} {f : Die → Die} (h : Safety.MemInv s) : Safety.MemInv (s.modDie d f) := by
  unfold State.modDie
  exact State.memInv_modPlat h

theorem State.memInv_modRegion {s : State} {home : Nat} {f : Region → Region} (h : Safety.MemInv s) : Safety.MemInv (s.modRegion home
    f) := by
  unfold State.modRegion
  exact h

theorem State.memInv_send {s : State} {m : Sent} (h : Safety.MemInv s) : Safety.MemInv (s.send m) := by
  unfold State.send
  exact h

theorem State.memInv_draw {s : State} (h : Safety.MemInv s) : Safety.MemInv s.draw.2 := by
  unfold State.draw
  exact h

theorem State.memInv_countCe {s : State} {die : Nat} (h : Safety.MemInv s) : Safety.MemInv (s.countCe die) := by
  unfold State.countCe
  exact State.memInv_modDie h

theorem State.memInv_countUe {s : State} {die : Nat} (h : Safety.MemInv s) : Safety.MemInv (s.countUe die) := by
  unfold State.countUe
  exact State.memInv_modDie h

theorem State.memInv_countErrs {s : State} {die ces ues : Nat} (h : Safety.MemInv s) : Safety.MemInv (s.countErrs die ces ues) := by
  unfold State.countErrs
  exact State.memInv_foldl _ (fun s x h => State.memInv_countUe h) _ _ (State.memInv_foldl _ (fun s x h => State.memInv_countCe h) _ _
      h)

theorem State.memInv_countResidue {s : State} {core : Nat} (h : Safety.MemInv s) : Safety.MemInv (s.countResidue core) := by
  unfold State.countResidue
  exact State.memInv_modCoreRegs (State.memInv_modDie h)

theorem State.memInv_countDropped {s : State} {die : Nat} (h : Safety.MemInv s) : Safety.MemInv (s.countDropped die) := by
  unfold State.countDropped
  exact State.memInv_modDie h

theorem State.memInv_countRoute {s : State} {core : Nat} (h : Safety.MemInv s) : Safety.MemInv (s.countRoute core) := by
  unfold State.countRoute
  exact State.memInv_modCoreRegs (State.memInv_modDie h)

theorem State.memInv_perfCtx {s : State} {id k n : Nat} (h : Safety.MemInv s) : Safety.MemInv (s.perfCtx id k n) := by
  unfold State.perfCtx
  exact State.memInv_modRegs h

theorem State.memInv_perfCore {s : State} {core k n : Nat} (h : Safety.MemInv s) : Safety.MemInv (s.perfCore core k n) := by
  unfold State.perfCore
  exact State.memInv_modCoreRegs h

theorem State.memInv_wakeBarws {s : State} {a n : Nat} (h : Safety.MemInv s) : Safety.MemInv (s.wakeBarws a n) := by
  unfold State.wakeBarws
  exact State.memInv_modMs (fun m => rfl) h

theorem State.memInv_modTileIdx {s : State} {core idx : Nat} {f : Tile → Tile} (h : Safety.MemInv s) : Safety.MemInv (s.modTileIdx core
    idx f) := by
  unfold State.modTileIdx
  exact State.memInv_modTile h

theorem State.memInv_raise {s : State} {ctx f : Nat} (h : Safety.MemInv s) : Safety.MemInv (s.raise ctx f) := by
  unfold State.raise
  split
  · exact h
  · exact State.memInv_modRegs h

theorem State.memInv_record {s : State} {ctx st : Nat} (h : Safety.MemInv s) : Safety.MemInv (s.record ctx st) := by
  unfold State.record
  exact State.memInv_modRegs h

theorem State.memInv_quarantine {s : State} {core : Nat} {q : QTok} {st : Nat} (h : Safety.MemInv s) : Safety.MemInv (s.quarantine core
    q st) := by
  unfold State.quarantine
  dsimp only
  split
  · split
    · exact State.memInv_record (State.memInv_countRoute h)
    · with_reducible exact State.memInv_with rfl (State.memInv_countRoute h)
  · exact State.memInv_send (State.memInv_countRoute h)

theorem State.memInv_modJob {s : State} {key : Nat} {f : Job → Job} (h : Safety.MemInv s) : Safety.MemInv (s.modJob key f) := by
  unfold State.modJob
  exact State.memInv_modPlat h

theorem State.memInv_readEntry {s : State} {table i : Nat} (h : Safety.MemInv s) : Safety.MemInv (s.readEntry table i).2.2 := by
  unfold State.readEntry
  exact State.memInv_sectorRead h

theorem State.memInv_walkOn {s : State} {served : Bool} {tenant va : Nat} {pos : WalkPos} (h : Safety.MemInv s) :
    Safety.MemInv (s.walkOn served tenant va pos).2 := by
  unfold State.walkOn
  split
  · exact h
  · split
    · exact h
    · dsimp only
      generalize he : State.readEntry s _ _ = r
      have hr : Safety.MemInv r.2.2 := he ▸ State.memInv_readEntry h
      split
      · exact hr
      · exact hr

theorem State.memInv_changeRefs {s : State} {core idx up down : Nat} (h : Safety.MemInv s) : Safety.MemInv (s.changeRefs core idx up
    down) := by
  unfold State.changeRefs
  split
  · exact h
  · dsimp only
    split
    · exact State.memInv_modRegs (State.memInv_modTileIdx h)
    · exact State.memInv_modTileIdx h

theorem State.memInv_addRefs {s : State} {core : Nat} {h : Word} {up down : Nat} (hs : Safety.MemInv s) : Safety.MemInv (s.addRefs core
    h up down) := by
  unfold State.addRefs
  split
  · exact hs
  · exact State.memInv_changeRefs hs

theorem State.memInv_freeIdx {s : State} {core idx : Nat} (h : Safety.MemInv s) : Safety.MemInv (s.freeIdx core idx) := by
  unfold State.freeIdx
  exact State.memInv_modTile h

theorem State.memInv_sweepIdx {s : State} {core idx : Nat} (h : Safety.MemInv s) : Safety.MemInv (s.sweepIdx core idx) := by
  unfold State.sweepIdx
  split
  · exact h
  · split
    · dsimp only
      split
      · exact State.memInv_freeIdx h
      · split
        · split
          · exact State.memInv_freeIdx (State.memInv_changeRefs (State.memInv_freeIdx h))
          · exact State.memInv_changeRefs (State.memInv_freeIdx h)
        · exact State.memInv_changeRefs (State.memInv_freeIdx h)
    · exact h

theorem State.memInv_sweepTile {s : State} {core : Nat} {h : Word} (hs : Safety.MemInv s) : Safety.MemInv (s.sweepTile core h) := by
  unfold State.sweepTile
  split
  · exact State.memInv_sweepIdx hs
  · exact hs

theorem State.memInv_release {s : State} {core : Nat} {t : Tok} (h : Safety.MemInv s) : Safety.MemInv (s.release core t) := by
  unfold State.release
  split
  · exact State.memInv_sweepTile (State.memInv_addRefs h)
  · exact h

theorem State.memInv_modFrame {s : State} {core n : Nat} {f : Frame → Frame} (h : Safety.MemInv s) : Safety.MemInv (s.modFrame core n
    f) := by
  unfold State.modFrame
  exact State.memInv_modFrm h

theorem State.memInv_outsideBytes {s : State} {n : Nat} (h : Safety.MemInv s) : Safety.MemInv (s.outsideBytes n).2 := by
  unfold State.outsideBytes
  exact h

theorem State.memInv_noteTrace {s : State} {core ctx last gtc : Nat} (h : Safety.MemInv s) : Safety.MemInv (s.noteTrace core ctx last
    gtc) := by
  unfold State.noteTrace
  exact State.memInv_modCore h

theorem State.memInv_readGrans {s : State} {core : Nat} {b : Tile} {gs : List Nat} (h : Safety.MemInv s) : Safety.MemInv (s.readGrans
    core b gs).2 := by
  unfold State.readGrans
  dsimp only
  refine State.memInv_countErrs ?_
  split
  · split
    · exact h
    · exact State.memInv_modCoreRegs h
  · split
    · exact h
    · exact State.memInv_modCoreRegs h

theorem State.memInv_readRows {s : State} {core : Nat} {t : Tile} {r n : Nat} (h : Safety.MemInv s) : Safety.MemInv (s.readRows core t
    r n).2 := by
  unfold State.readRows
  exact State.memInv_readGrans h

theorem State.memInv_depart {s : State} {site : Site} {q : QTok} (h : Safety.MemInv s) : Safety.MemInv (s.depart site q).2 := by
  unfold State.depart
  split
  · exact h
  · dsimp only
    split
    · exact h
    · exact h

theorem State.memInv_leaveGran {s : State} {d : Departure} {g : Nat} (h : Safety.MemInv s) : Safety.MemInv (s.leaveGran d g) := by
  unfold State.leaveGran
  dsimp only
  split
  · with_reducible exact State.memInv_with rfl (State.memInv_readGrans h)
  · split
    · with_reducible exact State.memInv_send (State.memInv_release (State.memInv_with rfl (State.memInv_readGrans h)))
    · with_reducible exact State.memInv_release (State.memInv_with rfl (State.memInv_readGrans h))

theorem State.memInv_leaveAll {s : State} {which : Departure → Bool} (h : Safety.MemInv s) : Safety.MemInv (s.leaveAll which) := by
  unfold State.leaveAll
  refine State.memInv_foldl _ ?_ _ _ h
  intro s x h
  refine State.memInv_foldl _ ?_ _ _ h
  intro s x h
  split
  · exact State.memInv_leaveGran h
  · exact h

theorem State.memInv_pushOut {s : State} {core : Nat} {q : QTok} {pkg : Nat} (h : Safety.MemInv s) : Safety.MemInv (s.pushOut core q
    pkg) := by
  unfold State.pushOut
  dsimp only
  split
  · with_reducible exact State.memInv_with rfl (State.memInv_inject2 h)
  · exact State.memInv_send (State.memInv_inject2 h)

theorem State.memInv_toInport {s : State} {site : Site} {lat : Nat} {t : Tok} {pkg core iport cid route stream : Nat} (h :
    Safety.MemInv s) : Safety.MemInv (s.toInport site lat t pkg core iport cid route stream) := by
  unfold State.toInport
  dsimp only
  split
  · exact State.memInv_push h
  · split
    · exact State.memInv_push (State.memInv_depart h)
    · exact State.memInv_pushOut (State.memInv_depart h)

theorem State.memInv_emitAs {s : State} {site : Site} {lat stream : Nat} {d : Dest} {t : Tok} (h : Safety.MemInv s) : Safety.MemInv
    (s.emitAs site lat stream d t) := by
  unfold State.emitAs
  split
  · exact h
  · exact State.memInv_push h
  · exact State.memInv_foldl _ (fun s x h => State.memInv_toInport h) _ _ h

theorem State.memInv_settle {s : State} {site : Site} {lat stream : Nat} {ems : List (Dest × Tok)} {used : List Tok} (h : Safety.MemInv
    s) : Safety.MemInv (s.settle site lat stream ems used) := by
  unfold State.settle
  exact State.memInv_foldl _ (fun s x h => State.memInv_sweepTile h) _ _ (State.memInv_foldl _ (fun s x h => State.memInv_addRefs h) _
      _ (State.memInv_foldl _ (fun s x h => State.memInv_emitAs h) _ _ h))

theorem State.memInv_emitAll {s : State} {site : Site} {lat stream : Nat} {ems : List (Dest × Tok)} (h : Safety.MemInv s) :
    Safety.MemInv (s.emitAll site lat stream ems) := by
  unfold State.emitAll
  exact State.memInv_settle h

theorem State.memSafe_firing {s : State} {p : Par} {lat : Nat} {ops : List Tok} {k : State → State} (h : Safety.MemInv s)
    (hk : ∀ s, Safety.MemInv s → Safety.MemInv (k s)) : MemSafe (s.firing p lat ops k) := by
  unfold State.firing
  split
  · exact memSafe_next (State.memInv_finish _ _ _ _ _ h)
  · exact memSafe_next (hk s h)

theorem State.memInv_dropEng {s : State} {core idx : Nat} (h : Safety.MemInv s) : Safety.MemInv (s.dropEng core idx) := by
  unfold State.dropEng
  exact State.memInv_modEng h

theorem State.memInv_freeStream {s : State} {core : Nat} {e : Eng} (h : Safety.MemInv s) : Safety.MemInv (s.freeStream core e) := by
  unfold State.freeStream
  exact State.memInv_modTile (State.memInv_foldl _ (fun s x h => State.memInv_sweepIdx (State.memInv_changeRefs h)) _ _ h)

theorem State.memInv_dropStream {s : State} {core : Nat} {e : Eng} (h : Safety.MemInv s) : Safety.MemInv (s.dropStream core e) := by
  unfold State.dropStream
  exact State.memInv_dropEng (State.memInv_freeStream (State.memInv_record (State.memInv_raise h)))

theorem State.memInv_closeStreams {s : State} {core frame ctx : Nat} (h : Safety.MemInv s) : Safety.MemInv (s.closeStreams core frame
    ctx) := by
  unfold State.closeStreams
  dsimp only
  refine State.memInv_foldl _ ?_ _ _ h
  intro s x h
  split
  · exact State.memInv_dropStream h
  · exact State.memInv_modEng h

theorem State.memInv_completeFrame {s : State} {core n : Nat} (h : Safety.MemInv s) : Safety.MemInv (s.completeFrame core n) := by
  unfold State.completeFrame
  split
  · exact h
  · dsimp only
    refine State.memInv_modFrm ?_
    split
    · split
      · exact State.memInv_traceRec _ _ _ _ _ _ (State.memInv_closeStreams (State.memInv_modRegs (State.memInv_foldl _ (fun s x h =>
          State.memInv_release h) _ _ h)))
      · exact State.memInv_closeStreams (State.memInv_modRegs (State.memInv_foldl _ (fun s x h => State.memInv_release h) _ _ h))
    · split
      · exact State.memInv_traceRec _ _ _ _ _ _ (State.memInv_closeStreams (State.memInv_modRegs (State.memInv_foldl _ (fun s x h =>
          State.memInv_release h) _ _ h)))
      · exact State.memInv_closeStreams (State.memInv_modRegs (State.memInv_foldl _ (fun s x h => State.memInv_release h) _ _ h))

theorem State.memInv_unclaim {s : State} {home slot : Nat} (h : Safety.MemInv s) : Safety.MemInv (s.unclaim home slot) := by
  unfold State.unclaim
  with_reducible exact State.memInv_with rfl (State.memInv_modRegion h)

theorem State.memInv_stopLoads {s : State} {core : Nat} {gone : List Nat} (h : Safety.MemInv s) : Safety.MemInv (s.stopLoads core gone)
    := by
  unfold State.stopLoads
  refine State.memInv_foldl _ ?_ _ _ h
  intro s x h
  split
  · refine State.memInv_modEng ?_
    split
    · exact State.memInv_unclaim h
    · exact h
  · exact h

theorem State.memInv_freeze {s : State} {ids : List Nat} (h : Safety.MemInv s) : Safety.MemInv (s.freeze ids) := by
  unfold State.freeze
  dsimp only
  refine State.memInv_foldl _ ?_ _ _ (State.memInv_foldl _ (fun s x h => State.memInv_foldl _ (fun s x h => State.memInv_traceRec _ _ _
      _ _ _ h) _ _ (State.memInv_modCtx (State.memInv_foldl _ (fun s x h => State.memInv_send h) _ _ h))) _ _ h)
  intro s x h
  refine State.memInv_modEng ?_
  refine State.memInv_stopLoads ?_
  split
  · exact h
  · exact State.memInv_modCoreRegs h

theorem State.memInv_beginHalt {s : State} {job : Nat} {w0 : Word} {w1 : Nat} {relay : Bool} (h : Safety.MemInv s) : Safety.MemInv
    (s.beginHalt job w0 w1 relay) := by
  unfold State.beginHalt
  split
  · exact h
  · split
    · exact State.memInv_modJob h
    · dsimp only
      split
      · exact State.memInv_foldl _ (fun s x h => State.memInv_send h) _ _ (State.memInv_modJob h)
      · exact State.memInv_modJob h

theorem State.memInv_trap {s : State} {t : Trap} {own : Bool} (h : Safety.MemInv s) : Safety.MemInv (s.trap t own) := by
  unfold State.trap
  dsimp only
  split
  · with_reducible exact State.memInv_modCtx (State.memInv_with rfl h)
  · split
    · with_reducible exact State.memInv_beginHalt (State.memInv_modCtx (State.memInv_with rfl h))
    · with_reducible exact State.memInv_modJob (State.memInv_modCtx (State.memInv_with rfl h))

theorem State.memInv_file {s : State} {core cls : Nat} {q : QTok} (h : Safety.MemInv s) : Safety.MemInv (s.file core cls q) := by
  unfold State.file
  exact State.memInv_modTok h

theorem State.memInv_refileOn {s : State} {core ctx old : Nat} (h : Safety.MemInv s) : Safety.MemInv (s.refileOn core ctx old) := by
  unfold State.refileOn
  exact State.memInv_foldl _ (fun s x h => State.memInv_foldl _ (fun s x h => State.memInv_file (State.memInv_modTok h)) _ _ h) _ _ h

theorem State.memInv_refile {s : State} {ctx old : Nat} (h : Safety.MemInv s) : Safety.MemInv (s.refile ctx old) := by
  unfold State.refile
  split
  · split
    · exact h
    · exact State.memInv_foldl _ (fun s x h => State.memInv_refileOn h) _ _ h
  · exact h

theorem State.memInv_park {s : State} {core : Nat} {q : QTok} {slot : Nat} (h : Safety.MemInv s) : Safety.MemInv (s.park core q slot)
    := by
  unfold State.park
  exact State.memInv_modFrame h

theorem State.memInv_place {s : State} {core : Nat} {q : QTok} (h : Safety.MemInv s) : Safety.MemInv (s.place core q) := by
  unfold State.place
  split
  · exact h
  · dsimp only
    split
    · exact State.memInv_file h
    · exact State.memInv_perfCtx (State.memInv_park h)

theorem State.memSafe_accept {s : State} {core : Nat} {q : QTok} (h : Safety.MemInv s) : MemSafe (s.accept core q) := by
  unfold State.accept
  split
  · exact memSafe_next (State.memInv_release (State.memInv_quarantine h))
  · split
    · exact memSafe_fault
    · dsimp only
      split
      · refine memSafe_next ?_
        refine State.memInv_place ?_
        refine State.memInv_modTok ?_
        split
        · exact State.memInv_release (State.memInv_countResidue h)
        · exact h
      · refine memSafe_next ?_
        refine State.memInv_trap ?_
        refine State.memInv_file ?_
        refine State.memInv_modTok ?_
        split
        · exact State.memInv_release (State.memInv_countResidue h)
        · exact h

theorem State.memInv_nextTag {s : State} {ctx core n : Nat} (h : Safety.MemInv s) : Safety.MemInv (s.nextTag ctx core n).2 := by
  unfold State.nextTag
  split
  · exact h
  · exact State.memInv_modCtx h

theorem State.memInv_sendOut {s : State} {r : Req} (h : Safety.MemInv s) : Safety.MemInv (s.sendOut r) := by
  unfold State.sendOut
  exact State.memInv_foldl _ (fun s x h => State.memInv_send h) _ _ h

theorem State.memInv_modReq {s : State} {id : Nat} {f : Req → Req} (h : Safety.MemInv s) : Safety.MemInv (s.modReq id f) := by
  unfold State.modReq
  exact State.memInv_modMs (fun m => rfl) h

theorem State.memInv_dropReq {s : State} {id : Nat} (h : Safety.MemInv s) : Safety.MemInv (s.dropReq id) := by
  unfold State.dropReq
  exact State.memInv_modMs (fun m => rfl) h

theorem State.memInv_modEngRec {s : State} {core idx : Nat} {f : Eng → Eng} (h : Safety.MemInv s) : Safety.MemInv (s.modEngRec core idx
    f) := by
  unfold State.modEngRec
  exact State.memInv_modEng h

theorem State.memInv_asFired {s : State} {e : Eng} (h : Safety.MemInv s) : Safety.MemInv (s.asFired e) := by
  unfold State.asFired
  split
  · exact h
  · exact h

theorem State.memInv_injectHbm {s : State} {core a n : Nat} (h : Safety.MemInv s) : Safety.MemInv (s.injectHbm core a n).2 := by
  unfold State.injectHbm
  dsimp only
  split
  · exact State.memInv_foldl _ (fun s x h => State.memInv_countUe h) _ _ (State.memInv_modCoreRegs h)
  · exact h

theorem State.memInv_readPart {s : State} {core : Nat} {p : Loc} {n : Nat} (h : Safety.MemInv s) : Safety.MemInv (s.readPart core p
    n).2.2 := by
  unfold State.readPart
  split
  · split
    · exact State.memInv_readPhys (State.memInv_injectHbm h)
    · exact State.memInv_outsideBytes h
  · split
    · exact h
    · dsimp only
      split
      · exact State.memInv_readGrans h
      · exact State.memInv_readGrans h
  · exact State.memInv_outsideBytes h

theorem State.memInv_readParts {s : State} {core : Nat} {ps : List (Loc × Nat × Nat)} (h : Safety.MemInv s) : Safety.MemInv
    (s.readParts core ps).2.2 := by
  unfold State.readParts
  exact State.memInv_foldl_triple (fun r x h => State.memInv_readPart h) h

theorem State.memInv_sendPart {s : State} {site : Site} {tag cls : Nat} {rpl unset : Bool} {p : Piece} (h : Safety.MemInv s) :
    Safety.MemInv (s.sendPart site tag cls rpl unset p).2 := by
  unfold State.sendPart
  dsimp only
  split
  · exact State.memInv_send (State.memInv_sendOut (State.memInv_modMs (fun m => rfl) h))
  · exact State.memInv_send (State.memInv_sendOut (State.memInv_modMs (fun m => rfl) h))
  · exact State.memInv_sendOut (State.memInv_modMs (fun m => rfl) h)

theorem State.memInv_arriveAt {s : State} {site : Site} {tenant : Nat} {word : Piece} {st tag after : Nat} (h : Safety.MemInv s) :
    Safety.MemInv (s.arriveAt site tenant word st tag after) := by
  unfold State.arriveAt
  dsimp only
  split
  · split
    · split
      · exact State.memInv_modMs (fun m => rfl) h
      · exact State.memInv_send (State.memInv_modMs (fun m => rfl) h)
    · split
      · exact State.memInv_modMs (fun m => rfl) h
      · exact State.memInv_send (State.memInv_modMs (fun m => rfl) h)
  · split
    · split
      · exact State.memInv_modMs (fun m => rfl) h
      · exact State.memInv_send (State.memInv_modMs (fun m => rfl) h)
    · split
      · exact State.memInv_modMs (fun m => rfl) h
      · exact State.memInv_send (State.memInv_modMs (fun m => rfl) h)

theorem State.memInv_visit {s : State} {tenant : Nat} {kind : ReqKind} {disp : Option (Nat × Nat × Nat)} {x : Reach} (h : Safety.MemInv
    s) : Safety.MemInv (s.visit tenant kind disp x) := by
  unfold State.visit
  exact State.memInv_modMs (fun m => rfl) h

theorem State.memInv_histClear {s : State} {site : Site} {off v : Nat} (h : Safety.MemInv s) : Safety.MemInv (s.histClear site off v)
    := by
  unfold State.histClear
  split
  · exact State.memInv_devPut _ _ _ _ h
  · exact h

theorem State.memInv_histCount {s : State} {site : Site} {n : Nat} (h : Safety.MemInv s) : Safety.MemInv (s.histCount site n) := by
  unfold State.histCount
  split
  · exact h
  · dsimp only
    split
    · split
      · exact State.memInv_histAdd _ _ _ _ (State.memInv_modCore h)
      · exact State.memInv_modCore h
    · split
      · exact State.memInv_histPut _ _ _ _ (State.memInv_modRegs h)
      · exact State.memInv_histClear (State.memInv_histPut _ _ _ _ (State.memInv_modCore h))

theorem State.memInv_histFlush {s : State} {core ctx : Nat} (h : Safety.MemInv s) : Safety.MemInv (s.histFlush core ctx) := by
  unfold State.histFlush
  dsimp only
  refine State.memInv_modCore ?_
  refine State.memInv_foldl _ ?_ _ _ h
  intro s x h
  refine State.memInv_foldl _ ?_ _ _ h
  intro s x h
  split
  · exact h
  · exact State.memInv_histAdd _ _ _ _ h

theorem State.memInv_unbind {s : State} {core ctx : Nat} {ws : Option Nat} (h : Safety.MemInv s) : Safety.MemInv (s.unbind core ctx ws)
    := by
  unfold State.unbind
  exact State.memInv_modEng h

theorem State.memInv_msix {s : State} {vf vector : Nat} (h : Safety.MemInv s) : Safety.MemInv (s.msix vf vector) := by
  unfold State.msix
  split
  · exact h
  · dsimp only
    split
    · exact State.memInv_modPlat h
    · exact State.memInv_send h

theorem State.memInv_qerr {s : State} {queue st seq : Nat} (h : Safety.MemInv s) : Safety.MemInv (s.qerr queue st seq) := by
  unfold State.qerr
  dsimp only
  split
  · exact State.memInv_msix (State.memInv_modDisp h)
  · exact State.memInv_modDisp h

theorem State.memInv_dispArrive {s : State} {tenant queue seq cword st : Nat} (h : Safety.MemInv s) : Safety.MemInv (s.dispArrive
    tenant queue seq cword st) := by
  unfold State.dispArrive
  exact State.memInv_visit h

theorem State.memInv_freeTiles {s : State} {core ctx : Nat} (h : Safety.MemInv s) : Safety.MemInv (s.freeTiles core ctx) := by
  unfold State.freeTiles
  exact State.memInv_foldl _ (fun s x h => State.memInv_freeIdx h) _ _ h

theorem State.memInv_clearCore {s : State} {id core : Nat} (h : Safety.MemInv s) : Safety.MemInv (s.clearCore id core) := by
  unfold State.clearCore
  with_reducible exact State.memInv_modCore (State.memInv_with rfl (State.memInv_modEng (State.memInv_modEng (State.memInv_stopLoads
      (State.memInv_modTile (State.memInv_modFrm (State.memInv_modTok (State.memInv_unbind (State.memInv_freeTiles
      (State.memInv_leaveAll (State.memInv_foldl _ (fun s x h => State.memInv_completeFrame h) _ _ (State.memInv_histFlush h))))))))))))

theorem State.memInv_tellParent {s : State} {parent : Option Nat} {queue seq st : Nat} (h : Safety.MemInv s) : Safety.MemInv
    (s.tellParent parent queue seq st) := by
  unfold State.tellParent
  split
  · exact h
  · exact State.memInv_modCtx h

theorem State.memInv_endContext {s : State} {id st : Nat} (h : Safety.MemInv s) : Safety.MemInv (s.endContext id st) := by
  unfold State.endContext
  split
  · exact h
  · dsimp only
    split
    · with_reducible exact State.memInv_modDisp (State.memInv_with rfl (State.memInv_tellParent (State.memInv_dispArrive
        (State.memInv_with rfl (State.memInv_foldl _ (fun s x h => State.memInv_send h) _ _ (State.memInv_modMs (fun m => rfl)
        (State.memInv_foldl _ (fun s x h => State.memInv_clearCore h) _ _ h)))))))
    · with_reducible exact State.memInv_modPlat (State.memInv_modDisp (State.memInv_with rfl (State.memInv_tellParent
        (State.memInv_dispArrive (State.memInv_with rfl (State.memInv_foldl _ (fun s x h => State.memInv_send h) _ _
        (State.memInv_modMs (fun m => rfl) (State.memInv_foldl _ (fun s x h => State.memInv_clearCore h) _ _ h))))))))

theorem State.memInv_abandon {s : State} {id : Nat} (h : Safety.MemInv s) : Safety.MemInv (s.abandon id) := by
  unfold State.abandon
  dsimp only
  refine State.memInv_endContext ?_
  refine State.memInv_foldl _ ?_ _ _ h
  intro s x h
  split
  · exact State.memInv_arriveAt h
  · exact h

theorem State.memInv_takeFrame {s : State} {core : Nat} {mk : Nat → Frame} (h : Safety.MemInv s) (x : Nat × State)
    (e : s.takeFrame core mk = some x) : Safety.MemInv x.2 := by
  unfold State.takeFrame at e
  split at e
  · cases e
  · dsimp only at e
    split at e
    · obtain rfl := Option.some.inj e
      dsimp only
      split
      · exact State.memInv_traceRec _ _ _ _ _ _ h
      · exact h
    · cases e

theorem State.memInv_deliver {s : State} {site : Site} {core frame cs block node port due : Nat} {t : Tok} (h : Safety.MemInv s) :
    Safety.MemInv (s.deliver site core frame cs block node port due t) := by
  unfold State.deliver
  dsimp only
  split
  · exact State.memInv_push h
  · exact State.memInv_push (State.memInv_depart h)

theorem State.memInv_modQueues {s : State} {core : Nat} {f : List QTok → List QTok} (h : Safety.MemInv s) : Safety.MemInv (s.modQueues
    core f) := by
  unfold State.modQueues
  exact State.memInv_modTok h

theorem State.memInv_resumeToken {s : State} {t : Trap} {q : QTok} (h : Safety.MemInv s) : Safety.MemInv (s.resumeToken t q) := by
  unfold State.resumeToken
  dsimp only
  split
  · exact State.memInv_modQueues h
  · exact State.memInv_trap h

theorem State.memInv_sendHeld {s : State} {id : Nat} (h : Safety.MemInv s) : Safety.MemInv (s.sendHeld id) := by
  unfold State.sendHeld
  split
  · exact h
  · split
    · exact h
    · split
      · exact State.memInv_modReq h
      · split
        · exact h
        · exact State.memInv_sendOut (State.memInv_modReq h)

theorem State.memInv_sendFreed {s : State} {ctx id : Nat} (h : Safety.MemInv s) : Safety.MemInv (s.sendFreed ctx id) := by
  unfold State.sendFreed
  split
  · exact State.memInv_sendHeld h
  · exact h

theorem State.memInv_settleTrap {s : State} {t : Trap} {act : Nat} (h : Safety.MemInv s) : Safety.MemInv (s.settleTrap t act) := by
  unfold State.settleTrap
  dsimp only
  split
  · exact h
  · split
    · exact h
    · split
      · exact State.memInv_abandon h
      · split
        · exact State.memInv_release (State.memInv_modQueues h)
        · exact State.memInv_resumeToken h
  · split
    · exact State.memInv_abandon h
    · split
      · split
        · exact State.memInv_sendFreed (State.memInv_modReq h)
        · split
          · exact h
          · exact State.memInv_sendFreed (State.memInv_modReq h)
      · exact State.memInv_modEngRec h
      · exact h
  · split
    · exact State.memInv_abandon h
    · split
      · refine State.memInv_foldl _ ?_ _ _ h
        intro s x h
        split
        · split
          · exact State.memInv_completeFrame h
          · exact h
        · exact h
      · exact State.memInv_modCtx h
  · split
    · exact h
    · split
      · exact State.memInv_abandon h
      · split
        · exact State.memInv_foldl _ (fun s x h => State.memInv_release h) _ _ (State.memInv_modFrame (State.memInv_modQueues
            (State.memInv_file h)))
        · exact State.memInv_file h
  · exact h

theorem State.memInv_trapReturn {s : State} {t : Trap} {v : Tok} {used : List Tok} (h : Safety.MemInv s) : Safety.MemInv (s.trapReturn
    t v used) := by
  unfold State.trapReturn
  exact State.memInv_settle h

theorem State.memInv_takeTrap {s : State} {id : Nat} {t : Trap} (h : Safety.MemInv s) : Safety.MemInv (s.takeTrap id t) := by
  unfold State.takeTrap
  split
  · exact State.memInv_modCoreRegs h
  · exact State.memInv_modCtx h

theorem State.memInv_enterHandler {s : State} {id : Nat} (h : Safety.MemInv s) : Safety.MemInv (s.enterHandler id) := by
  unfold State.enterHandler
  split
  · exact h
  · split
    · exact h
    · split
      · exact h
      · split
        · dsimp only
          split
          · exact State.memInv_trapReturn (State.memInv_takeTrap h)
          · exact State.memInv_abandon (State.memInv_takeTrap h)
          · exact State.memInv_abandon (State.memInv_takeTrap h)
          · exact State.memInv_settleTrap (State.memInv_takeTrap h)
        · dsimp only
          split
          · exact h
          · refine State.memInv_deliver ?_
            refine State.memInv_deliver ?_
            split
            · split
              · refine State.memInv_addRefs ?_
                refine State.memInv_deliver ?_
                refine State.memInv_modCtx ?_
                refine State.memInv_takeTrap ?_
                exact State.memInv_takeFrame h _ ‹_›
              · refine State.memInv_deliver ?_
                refine State.memInv_modCtx ?_
                refine State.memInv_takeTrap ?_
                exact State.memInv_takeFrame h _ ‹_›
            · split
              · refine State.memInv_addRefs ?_
                refine State.memInv_deliver ?_
                refine State.memInv_modCtx ?_
                refine State.memInv_takeTrap ?_
                exact State.memInv_takeFrame h _ ‹_›
              · refine State.memInv_deliver ?_
                refine State.memInv_modCtx ?_
                refine State.memInv_takeTrap ?_
                exact State.memInv_takeFrame h _ ‹_›

theorem State.memInv_leaveHandler {s : State} {id frame : Nat} {v : Tok} (h : Safety.MemInv s) : Safety.MemInv (s.leaveHandler id frame
    v) := by
  unfold State.leaveHandler
  split
  · exact h
  · split
    · exact h
    · dsimp only
      split
      · exact State.memInv_trapReturn (State.memInv_modCtx (State.memInv_completeFrame h))
      · split
        · refine State.memInv_release ?_
          split
          · exact State.memInv_record (State.memInv_modCtx (State.memInv_completeFrame h))
          · exact State.memInv_modCtx (State.memInv_completeFrame h)
        · refine State.memInv_settleTrap ?_
          refine State.memInv_release ?_
          split
          · exact State.memInv_record (State.memInv_modCtx (State.memInv_completeFrame h))
          · exact State.memInv_modCtx (State.memInv_completeFrame h)

theorem State.memSafe_moves {s : State} {p : Par} {ops : List Tok} {t : Tok} (h : Safety.MemInv s) : MemSafe (s.moves p ops t) := by
  unfold State.moves
  exact State.memSafe_firing h (fun s h => State.memInv_finish _ _ _ _ _ h)

theorem State.memSafe_tells {s : State} {p : Par} {ops : List Tok} {v : Word} (h : Safety.MemInv s) : MemSafe (s.tells p ops v) := by
  unfold State.tells
  exact State.memSafe_firing h (fun s h => State.memInv_finish _ _ _ _ _ h)

theorem memSafe_execPass {p : Par} {s : State} (h : Safety.MemInv s) : MemSafe (execPass p s) := by
  unfold execPass
  exact State.memSafe_moves h

theorem memSafe_execConst {p : Par} {hi : Bool} {imm : BitVec 32} {s : State} (h : Safety.MemInv s) : MemSafe (execConst p hi imm s) :=
    by
  unfold execConst
  exact State.memSafe_tells h

theorem State.memSafe_steer {s : State} {p : Par} {inv : Bool} {ops : List Tok} {r : Tok} (h : Safety.MemInv s) : MemSafe (s.steer p
    inv ops r) := by
  unfold State.steer
  refine State.memSafe_firing h ?_
  intro s h
  split
  · exact State.memInv_failing _ _ _ _ _ h
  · exact State.memInv_finish _ _ _ _ _ h

theorem memSafe_execSteer {p : Par} {inv : Bool} {s : State} (h : Safety.MemInv s) : MemSafe (execSteer p inv s) := by
  unfold execSteer
  exact State.memSafe_steer h

theorem memSafe_execSteerImm {p : Par} {inv : Bool} {imm : BitVec 32} {s : State} (h : Safety.MemInv s) : MemSafe (execSteerImm p inv
    imm s) := by
  unfold execSteerImm
  exact State.memSafe_steer h

theorem memSafe_execGate {p : Par} {s : State} (h : Safety.MemInv s) : MemSafe (execGate p s) := by
  unfold execGate
  exact State.memSafe_moves h

theorem memSafe_execGateImm {p : Par} {_imm : BitVec 32} {s : State} (h : Safety.MemInv s) : MemSafe (execGateImm p _imm s) := by
  unfold execGateImm
  exact State.memSafe_moves h

theorem State.memSafe_dispTo {s : State} {p : Par} {tbl : BitVec 6} {ops : List Tok} {r : Tok} (h : Safety.MemInv s) : MemSafe
    (s.dispTo p tbl ops r) := by
  unfold State.dispTo
  dsimp only
  split
  · exact memSafe_next (State.memInv_finish _ _ _ _ _ h)
  · split
    · exact memSafe_next (State.memInv_finish _ _ _ _ _ h)
    · exact memSafe_next (State.memInv_finish _ _ _ _ _ h)

theorem memSafe_execDisp {p : Par} {tbl : BitVec 6} {s : State} (h : Safety.MemInv s) : MemSafe (execDisp p tbl s) := by
  unfold execDisp
  exact State.memSafe_dispTo h

theorem memSafe_execDispImm {p : Par} {tbl : BitVec 6} {imm : BitVec 32} {s : State} (h : Safety.MemInv s) : MemSafe (execDispImm p tbl
    imm s) := by
  unfold execDispImm
  exact State.memSafe_dispTo h

theorem memSafe_execJoin {p : Par} {selp : Port} {s : State} (h : Safety.MemInv s) : MemSafe (execJoin p selp s) := by
  unfold execJoin
  exact State.memSafe_moves h

theorem memSafe_execJoin3 {p : Par} {selp : Port} {s : State} (h : Safety.MemInv s) : MemSafe (execJoin3 p selp s) := by
  unfold execJoin3
  exact State.memSafe_moves h

theorem memSafe_execJoinImm {p : Par} {selp : Port} {imm : BitVec 32} {s : State} (h : Safety.MemInv s) : MemSafe (execJoinImm p selp
    imm s) := by
  unfold execJoinImm
  exact State.memSafe_moves h

theorem memSafe_execJoin3Imm {p : Par} {selp : Port} {imm : BitVec 32} {s : State} (h : Safety.MemInv s) : MemSafe (execJoin3Imm p selp
    imm s) := by
  unfold execJoin3Imm
  exact State.memSafe_moves h

theorem State.memInv_toCont {s : State} {site : Site} {c : Word} {node port : Nat} {t : Tok} (h : Safety.MemInv s) : Safety.MemInv
    (s.toCont site c node port t) := by
  unfold State.toCont
  dsimp only
  split
  · exact State.memInv_deliver h
  · exact State.memInv_pushOut (State.memInv_depart h)

theorem State.memInv_cntnTo {s : State} {p : Par} {node port : Nat} (h : Safety.MemInv s) : Safety.MemInv (s.cntnTo p node port) := by
  unfold State.cntnTo
  dsimp only
  split
  · exact State.memInv_failing _ _ _ _ _ h
  · exact State.memInv_finish _ _ _ _ _ (State.memInv_toCont h)

theorem memSafe_execCntn {p : Par} {s : State} (h : Safety.MemInv s) : MemSafe (execCntn p s) := by
  unfold execCntn
  exact State.memSafe_firing h (fun s h => State.memInv_cntnTo h)

theorem memSafe_execSendf {p : Par} {node : BitVec 7} {port : Port} {s : State} (h : Safety.MemInv s) : MemSafe (execSendf p node port
    s) := by
  unfold execSendf
  exact State.memSafe_firing h (fun s h => State.memInv_cntnTo h)

theorem State.memInv_parkFiring {s : State} {p : Par} {used : List Tok} (h : Safety.MemInv s) : Safety.MemInv (s.parkFiring p used) :=
    by
  unfold State.parkFiring
  exact State.memInv_finish _ _ _ _ _ h

theorem State.memInv_fnewOn {s : State} {p : Par} {core : Nat} {node : BitVec 7} {port : Port} {block : BitVec 6} {used : List Tok} (h
    : Safety.MemInv s) : Safety.MemInv (s.fnewOn p core node port block used) := by
  unfold State.fnewOn
  dsimp only
  split
  · exact State.memInv_failing _ _ _ _ _ h
  · exact State.memInv_parkFiring (State.memInv_modFrm h)

theorem memSafe_execFnew {p : Par} {place : Place} {node : BitVec 7} {port : Port} {block : BitVec 6} {s : State} (h : Safety.MemInv s)
    : MemSafe (execFnew p place node port block s) := by
  unfold execFnew
  refine State.memSafe_firing h ?_
  intro s h
  split
  · dsimp only
    split
    · exact State.memInv_fnewOn (State.memInv_draw h)
    · exact State.memInv_failing _ _ _ _ _ (State.memInv_draw h)
  · exact State.memInv_fnewOn h

theorem State.memInv_fnewNamedOn {s : State} {p : Par} {node : BitVec 7} {port : Port} {block : BitVec 6} {r : Tok} {used : List Tok}
    (h : Safety.MemInv s) : Safety.MemInv (s.fnewNamedOn p node port block r used) := by
  unfold State.fnewNamedOn
  split
  · exact State.memInv_failing _ _ _ _ _ h
  · exact State.memInv_fnewOn h

theorem memSafe_execFnewNamed {p : Par} {_place : Place} {node : BitVec 7} {port : Port} {block : BitVec 6} {s : State} (h :
    Safety.MemInv s) : MemSafe (execFnewNamed p _place node port block s) := by
  unfold execFnewNamed
  exact State.memSafe_firing h (fun s h => State.memInv_fnewNamedOn h)

theorem memSafe_execFnewNamedImm {p : Par} {_place : Place} {node : BitVec 7} {port : Port} {block : BitVec 6} {imm : BitVec 32} {s :
    State} (h : Safety.MemInv s) : MemSafe (execFnewNamedImm p _place node port block imm s) := by
  unfold execFnewNamedImm
  exact State.memSafe_firing h (fun s h => State.memInv_fnewNamedOn h)

theorem memSafe_execMkcont {p : Par} {node : BitVec 7} {port : Port} {s : State} (h : Safety.MemInv s) : MemSafe (execMkcont p node
    port s) := by
  unfold execMkcont
  exact State.memSafe_firing h (fun s h => State.memInv_finish _ _ _ _ _ h)

theorem State.memInv_iterate {s : State} {p : Par} {next : Bool} {node : BitVec 7} {port : Port} {block : BitVec 6} {give : List (Nat ×
    Tok)} {ops : List Tok} (h : Safety.MemInv s) : Safety.MemInv (s.iterate p next node port block give ops) := by
  unfold State.iterate
  dsimp only
  split
  · split
    · exact State.memInv_failing _ _ _ _ _ h
    · exact State.memInv_parkFiring (State.memInv_modFrm h)
  · split
    · exact State.memInv_failing _ _ _ _ _ h
    · exact State.memInv_parkFiring (State.memInv_modFrm (State.memInv_modFrm h))

theorem memSafe_execIter {p : Par} {next : Bool} {node : BitVec 7} {port : Port} {block : BitVec 6} {s : State} (h : Safety.MemInv s) :
    MemSafe (execIter p next node port block s) := by
  unfold execIter
  exact State.memSafe_firing h (fun s h => State.memInv_iterate h)

theorem memSafe_execIter2 {p : Par} {next : Bool} {node : BitVec 7} {port : Port} {block : BitVec 6} {s : State} (h : Safety.MemInv s)
    : MemSafe (execIter2 p next node port block s) := by
  unfold execIter2
  exact State.memSafe_firing h (fun s h => State.memInv_iterate h)

theorem memSafe_execIter2Imm {p : Par} {next : Bool} {node : BitVec 7} {port : Port} {block : BitVec 6} {imm : BitVec 32} {s : State}
    (h : Safety.MemInv s) : MemSafe (execIter2Imm p next node port block imm s) := by
  unfold execIter2Imm
  exact State.memSafe_firing h (fun s h => State.memInv_iterate h)

theorem State.memInv_countExit {s : State} {core frame : Nat} (h : Safety.MemInv s) : Safety.MemInv (s.countExit core frame) := by
  unfold State.countExit
  dsimp only
  split
  · split
    · exact State.memInv_completeFrame (State.memInv_modFrame h)
    · exact State.memInv_modFrame h
  · exact State.memInv_modFrame h

theorem memSafe_execExit {p : Par} {s : State} (h : Safety.MemInv s) : MemSafe (execExit p s) := by
  unfold execExit
  exact memSafe_next (State.memInv_countExit (State.memInv_finish _ _ _ _ _ h))

theorem memSafe_execFset {p : Par} {var : BitVec 8} {s : State} (h : Safety.MemInv s) : MemSafe (execFset p var s) := by
  unfold execFset
  exact State.memSafe_firing h (fun s h => State.memInv_finish _ _ _ _ _ (State.memInv_modFrame h))

theorem memSafe_execFget {p : Par} {var : BitVec 8} {s : State} (h : Safety.MemInv s) : MemSafe (execFget p var s) := by
  unfold execFget
  refine State.memSafe_firing h ?_
  intro s h
  dsimp only
  split
  · refine State.memInv_finish _ _ _ _ _ ?_
    refine State.memInv_countUe ?_
    split
    · exact State.memInv_countCe h
    · exact h
  · refine State.memInv_finish _ _ _ _ _ ?_
    split
    · exact State.memInv_countCe h
    · exact h

theorem memSafe_execIseos {p : Par} {s : State} (h : Safety.MemInv s) : MemSafe (execIseos p s) := by
  unfold execIseos
  exact memSafe_next (State.memInv_finish _ _ _ _ _ h)

theorem memSafe_execMkeos {p : Par} {s : State} (h : Safety.MemInv s) : MemSafe (execMkeos p s) := by
  unfold execMkeos
  exact State.memSafe_firing h (fun s h => State.memInv_finish _ _ _ _ _ h)

theorem State.memInv_sendTo {s : State} {p : Par} {cid : BitVec 8} {r : Tok} {ops : List Tok} (h : Safety.MemInv s) : Safety.MemInv
    (s.sendTo p cid r ops) := by
  unfold State.sendTo
  dsimp only
  split
  · exact State.memInv_failing _ _ _ _ _ h
  · split
    · exact State.memInv_failing _ _ _ _ _ h
    · exact State.memInv_finish _ _ _ _ _ (State.memInv_toInport h)

theorem memSafe_execSend {p : Par} {cid : BitVec 8} {s : State} (h : Safety.MemInv s) : MemSafe (execSend p cid s) := by
  unfold execSend
  exact State.memSafe_firing h (fun s h => State.memInv_sendTo h)

theorem memSafe_execSendImm {p : Par} {cid : BitVec 8} {imm : BitVec 32} {s : State} (h : Safety.MemInv s) : MemSafe (execSendImm p cid
    imm s) := by
  unfold execSendImm
  exact State.memSafe_firing h (fun s h => State.memInv_sendTo h)

theorem memSafe_execPhopen {p : Par} {ph : BitVec 4} {s : State} (h : Safety.MemInv s) : MemSafe (execPhopen p ph s) := by
  unfold execPhopen
  exact State.memSafe_firing h (fun s h => State.memInv_finish _ _ _ _ _ h)

theorem memSafe_execPhclose {p : Par} {ph : BitVec 4} {s : State} (h : Safety.MemInv s) : MemSafe (execPhclose p ph s) := by
  unfold execPhclose
  refine State.memSafe_firing h ?_
  intro s h
  dsimp only
  split
  · exact State.memInv_finish _ _ _ _ _ h
  · exact State.memInv_parkFiring (State.memInv_modRegion h)

theorem memSafe_execSelf {p : Par} {what : SelfWhat} {s : State} (h : Safety.MemInv s) : MemSafe (execSelf p what s) := by
  unfold execSelf
  exact State.memSafe_tells h

theorem memSafe_execLevel {p : Par} {cnt : Bool} {lvl : BitVec 3} {s : State} (h : Safety.MemInv s) : MemSafe (execLevel p cnt lvl s)
    := by
  unfold execLevel
  exact State.memSafe_tells h

theorem State.memSafe_scalarFiring {s : State} {p : Par} {reads ops : List Tok} {check : Bool} {r : Except Nat (Tok × Nat)} (h :
    Safety.MemInv s) : MemSafe (s.scalarFiring p reads ops check r) := by
  unfold State.scalarFiring
  refine State.memSafe_firing h ?_
  intro s h
  dsimp only
  split
  · exact State.memInv_failing _ _ _ _ _ h
  · split
    · with_reducible exact State.memInv_failing _ _ _ _ _ (State.memInv_countResidue (State.memInv_with rfl h))
    · split
      · exact State.memInv_failing _ _ _ _ _ h
      · exact State.memInv_finish _ _ _ _ _ (State.memInv_raise h)

theorem State.memSafe_scalarNum {s : State} {p : Par} {ops all : List Tok} {check : Bool} {v : Word} (h : Safety.MemInv s) : MemSafe
    (s.scalarNum p ops all check v) := by
  unfold State.scalarNum
  exact State.memSafe_scalarFiring h

theorem State.memInv_takeIntDivide {s : State} {core : Nat} (h : Safety.MemInv s) : Safety.MemInv (s.takeIntDivide core) := by
  unfold State.takeIntDivide
  exact State.memInv_modTok h

theorem memSafe_execAdd {p : Par} {s : State} (h : Safety.MemInv s) : MemSafe (execAdd p s) := by
  unfold execAdd
  exact State.memSafe_scalarNum h

theorem memSafe_execAddImm {p : Par} {imm : BitVec 32} {s : State} (h : Safety.MemInv s) : MemSafe (execAddImm p imm s) := by
  unfold execAddImm
  exact State.memSafe_scalarNum h

theorem memSafe_execSub {p : Par} {s : State} (h : Safety.MemInv s) : MemSafe (execSub p s) := by
  unfold execSub
  exact State.memSafe_scalarNum h

theorem memSafe_execSubImm {p : Par} {imm : BitVec 32} {s : State} (h : Safety.MemInv s) : MemSafe (execSubImm p imm s) := by
  unfold execSubImm
  exact State.memSafe_scalarNum h

theorem memSafe_execMul {p : Par} {s : State} (h : Safety.MemInv s) : MemSafe (execMul p s) := by
  unfold execMul
  exact State.memSafe_scalarNum h

theorem memSafe_execMulImm {p : Par} {imm : BitVec 32} {s : State} (h : Safety.MemInv s) : MemSafe (execMulImm p imm s) := by
  unfold execMulImm
  exact State.memSafe_scalarNum h

theorem memSafe_execMulh {p : Par} {s : State} (h : Safety.MemInv s) : MemSafe (execMulh p s) := by
  unfold execMulh
  exact State.memSafe_scalarNum h

theorem memSafe_execMulhImm {p : Par} {imm : BitVec 32} {s : State} (h : Safety.MemInv s) : MemSafe (execMulhImm p imm s) := by
  unfold execMulhImm
  exact State.memSafe_scalarNum h

theorem memSafe_execDiv {p : Par} {s : State} (h : Safety.MemInv s) : MemSafe (execDiv p s) := by
  unfold execDiv
  exact State.memSafe_scalarNum (State.memInv_takeIntDivide h)

theorem memSafe_execDivImm {p : Par} {imm : BitVec 32} {s : State} (h : Safety.MemInv s) : MemSafe (execDivImm p imm s) := by
  unfold execDivImm
  exact State.memSafe_scalarNum (State.memInv_takeIntDivide h)

theorem memSafe_execRem {p : Par} {s : State} (h : Safety.MemInv s) : MemSafe (execRem p s) := by
  unfold execRem
  exact State.memSafe_scalarNum (State.memInv_takeIntDivide h)

theorem memSafe_execRemImm {p : Par} {imm : BitVec 32} {s : State} (h : Safety.MemInv s) : MemSafe (execRemImm p imm s) := by
  unfold execRemImm
  exact State.memSafe_scalarNum (State.memInv_takeIntDivide h)

theorem memSafe_execAnd {p : Par} {s : State} (h : Safety.MemInv s) : MemSafe (execAnd p s) := by
  unfold execAnd
  exact State.memSafe_scalarNum h

theorem memSafe_execAndImm {p : Par} {imm : BitVec 32} {s : State} (h : Safety.MemInv s) : MemSafe (execAndImm p imm s) := by
  unfold execAndImm
  exact State.memSafe_scalarNum h

theorem memSafe_execOr {p : Par} {s : State} (h : Safety.MemInv s) : MemSafe (execOr p s) := by
  unfold execOr
  exact State.memSafe_scalarNum h

theorem memSafe_execOrImm {p : Par} {imm : BitVec 32} {s : State} (h : Safety.MemInv s) : MemSafe (execOrImm p imm s) := by
  unfold execOrImm
  exact State.memSafe_scalarNum h

theorem memSafe_execXor {p : Par} {s : State} (h : Safety.MemInv s) : MemSafe (execXor p s) := by
  unfold execXor
  exact State.memSafe_scalarNum h

theorem memSafe_execXorImm {p : Par} {imm : BitVec 32} {s : State} (h : Safety.MemInv s) : MemSafe (execXorImm p imm s) := by
  unfold execXorImm
  exact State.memSafe_scalarNum h

theorem memSafe_execAndn {p : Par} {s : State} (h : Safety.MemInv s) : MemSafe (execAndn p s) := by
  unfold execAndn
  exact State.memSafe_scalarNum h

theorem memSafe_execAndnImm {p : Par} {imm : BitVec 32} {s : State} (h : Safety.MemInv s) : MemSafe (execAndnImm p imm s) := by
  unfold execAndnImm
  exact State.memSafe_scalarNum h

theorem memSafe_execShl {p : Par} {s : State} (h : Safety.MemInv s) : MemSafe (execShl p s) := by
  unfold execShl
  exact State.memSafe_scalarNum h

theorem memSafe_execShlImm {p : Par} {imm : BitVec 32} {s : State} (h : Safety.MemInv s) : MemSafe (execShlImm p imm s) := by
  unfold execShlImm
  exact State.memSafe_scalarNum h

theorem memSafe_execShr {p : Par} {s : State} (h : Safety.MemInv s) : MemSafe (execShr p s) := by
  unfold execShr
  exact State.memSafe_scalarNum h

theorem memSafe_execShrImm {p : Par} {imm : BitVec 32} {s : State} (h : Safety.MemInv s) : MemSafe (execShrImm p imm s) := by
  unfold execShrImm
  exact State.memSafe_scalarNum h

theorem memSafe_execSar {p : Par} {s : State} (h : Safety.MemInv s) : MemSafe (execSar p s) := by
  unfold execSar
  exact State.memSafe_scalarNum h

theorem memSafe_execSarImm {p : Par} {imm : BitVec 32} {s : State} (h : Safety.MemInv s) : MemSafe (execSarImm p imm s) := by
  unfold execSarImm
  exact State.memSafe_scalarNum h

theorem memSafe_execRol {p : Par} {s : State} (h : Safety.MemInv s) : MemSafe (execRol p s) := by
  unfold execRol
  exact State.memSafe_scalarNum h

theorem memSafe_execRolImm {p : Par} {imm : BitVec 32} {s : State} (h : Safety.MemInv s) : MemSafe (execRolImm p imm s) := by
  unfold execRolImm
  exact State.memSafe_scalarNum h

theorem memSafe_execMin {p : Par} {s : State} (h : Safety.MemInv s) : MemSafe (execMin p s) := by
  unfold execMin
  exact State.memSafe_scalarNum h

theorem memSafe_execMinImm {p : Par} {imm : BitVec 32} {s : State} (h : Safety.MemInv s) : MemSafe (execMinImm p imm s) := by
  unfold execMinImm
  exact State.memSafe_scalarNum h

theorem memSafe_execMax {p : Par} {s : State} (h : Safety.MemInv s) : MemSafe (execMax p s) := by
  unfold execMax
  exact State.memSafe_scalarNum h

theorem memSafe_execMaxImm {p : Par} {imm : BitVec 32} {s : State} (h : Safety.MemInv s) : MemSafe (execMaxImm p imm s) := by
  unfold execMaxImm
  exact State.memSafe_scalarNum h

theorem memSafe_execAbs {p : Par} {s : State} (h : Safety.MemInv s) : MemSafe (execAbs p s) := by
  unfold execAbs
  exact State.memSafe_scalarNum h

theorem memSafe_execNeg {p : Par} {s : State} (h : Safety.MemInv s) : MemSafe (execNeg p s) := by
  unfold execNeg
  exact State.memSafe_scalarNum h

theorem memSafe_execClz {p : Par} {s : State} (h : Safety.MemInv s) : MemSafe (execClz p s) := by
  unfold execClz
  exact State.memSafe_scalarNum h

theorem memSafe_execCtz {p : Par} {s : State} (h : Safety.MemInv s) : MemSafe (execCtz p s) := by
  unfold execCtz
  exact State.memSafe_scalarNum h

theorem memSafe_execPopc {p : Par} {s : State} (h : Safety.MemInv s) : MemSafe (execPopc p s) := by
  unfold execPopc
  exact State.memSafe_scalarNum h

theorem memSafe_execCmp {p : Par} {cond : IntCond} {s : State} (h : Safety.MemInv s) : MemSafe (execCmp p cond s) := by
  unfold execCmp
  exact State.memSafe_scalarNum h

theorem memSafe_execCmpImm {p : Par} {cond : IntCond} {imm : BitVec 32} {s : State} (h : Safety.MemInv s) : MemSafe (execCmpImm p cond
    imm s) := by
  unfold execCmpImm
  exact State.memSafe_scalarNum h

theorem memSafe_execSel {p : Par} {s : State} (h : Safety.MemInv s) : MemSafe (execSel p s) := by
  unfold execSel
  exact State.memSafe_scalarFiring h

theorem memSafe_execSelImm {p : Par} {imm : BitVec 32} {s : State} (h : Safety.MemInv s) : MemSafe (execSelImm p imm s) := by
  unfold execSelImm
  exact State.memSafe_scalarFiring h

theorem memSafe_execExt {p : Par} {s : State} (h : Safety.MemInv s) : MemSafe (execExt p s) := by
  unfold execExt
  exact State.memSafe_scalarFiring h

theorem memSafe_execExtImm {p : Par} {imm : BitVec 32} {s : State} (h : Safety.MemInv s) : MemSafe (execExtImm p imm s) := by
  unfold execExtImm
  exact State.memSafe_scalarFiring h

theorem memSafe_execIns {p : Par} {s : State} (h : Safety.MemInv s) : MemSafe (execIns p s) := by
  unfold execIns
  exact State.memSafe_scalarFiring h

theorem memSafe_execInsImm {p : Par} {imm : BitVec 32} {s : State} (h : Safety.MemInv s) : MemSafe (execInsImm p imm s) := by
  unfold execInsImm
  exact State.memSafe_scalarFiring h

theorem memSafe_execMad {p : Par} {s : State} (h : Safety.MemInv s) : MemSafe (execMad p s) := by
  unfold execMad
  exact State.memSafe_scalarNum h

theorem memSafe_execMadImm {p : Par} {imm : BitVec 32} {s : State} (h : Safety.MemInv s) : MemSafe (execMadImm p imm s) := by
  unfold execMadImm
  exact State.memSafe_scalarNum h

theorem memSafe_execAdds {p : Par} {s : State} (h : Safety.MemInv s) : MemSafe (execAdds p s) := by
  unfold execAdds
  exact State.memSafe_scalarNum h

theorem memSafe_execAddsImm {p : Par} {imm : BitVec 32} {s : State} (h : Safety.MemInv s) : MemSafe (execAddsImm p imm s) := by
  unfold execAddsImm
  exact State.memSafe_scalarNum h

theorem memSafe_execSubs {p : Par} {s : State} (h : Safety.MemInv s) : MemSafe (execSubs p s) := by
  unfold execSubs
  exact State.memSafe_scalarNum h

theorem memSafe_execSubsImm {p : Par} {imm : BitVec 32} {s : State} (h : Safety.MemInv s) : MemSafe (execSubsImm p imm s) := by
  unfold execSubsImm
  exact State.memSafe_scalarNum h

theorem State.memInv_queueTile {s : State} {core : Nat} {r : TileReq} (h : Safety.MemInv s) : Safety.MemInv (s.queueTile core r) := by
  unfold State.queueTile
  exact State.memInv_modTile h

theorem State.memInv_newTile {s : State} {core ctx : Nat} {sh : Shape} {view : Option View} {zero : Bool} (h : Safety.MemInv s)
    (x : Nat × State) (e : s.newTile core ctx sh view zero = some x) : Safety.MemInv x.2 := by
  unfold State.newTile at e
  dsimp only at e
  split at e
  · cases e
  · obtain rfl := Option.some.inj e
    exact h

theorem State.memInv_emitHandle {s : State} {site : Site} {d0 d1 d2 : Dest} {idx : Nat} (h : Safety.MemInv s) : Safety.MemInv
    (s.emitHandle site d0 d1 d2 idx) := by
  unfold State.emitHandle
  exact State.memInv_emitAll h

theorem State.memInv_landTile {s : State} {core idx : Nat} {q : QTok} {img : TileImg} (h : Safety.MemInv s) : Safety.MemInv (s.landTile
    core idx q img) := by
  unfold State.landTile
  split
  · with_reducible exact State.memInv_with rfl (State.memInv_countResidue (State.memInv_freeIdx h))
  · with_reducible exact State.memInv_with rfl (State.memInv_modTileIdx h)

theorem State.memInv_restoreTile {s : State} {core : Nat} {t : Tile} (h : Safety.MemInv s) : Safety.MemInv (s.restoreTile core t) := by
  unfold State.restoreTile
  with_reducible exact State.memInv_with rfl (State.memInv_modTile h)

theorem State.memInv_grantTile {s : State} {core : Nat} {acc : Bool} (h : Safety.MemInv s) : Safety.MemInv (s.grantTile core acc) := by
  unfold State.grantTile
  dsimp only
  split
  · exact h
  · split
    · split
      · split
        · exact State.memInv_restoreTile (State.memInv_modTile h)
        · exact h
      · exact State.memInv_modTile h
    · split
      · exact h
      · split
        · exact h
        · rename_i t he
          have ht := State.memInv_newTile h _ he
          split
          · exact State.memInv_modEngRec (State.memInv_modTileIdx (State.memInv_modTile ht))
          · exact State.memInv_sendHeld (State.memInv_modReq (State.memInv_modTileIdx (State.memInv_modTile ht)))
          · split
            · split
              · exact State.memInv_landTile (State.memInv_modTile ht)
              · exact State.memInv_modTile ht
            · exact State.memInv_modTile ht
          · exact State.memInv_emitHandle (State.memInv_modTile ht)

theorem State.memInv_askTile {s : State} {core : Nat} {r : TileReq} (h : Safety.MemInv s) : Safety.MemInv (s.askTile core r) := by
  unfold State.askTile
  dsimp only
  split
  · exact State.memInv_grantTile (State.memInv_queueTile h)
  · exact State.memInv_queueTile h

theorem memSafe_execTileAllocationGrant {core : Nat} {acc : Bool} {s : State} (h : Safety.MemInv s) : MemSafe (execTileAllocationGrant
    core acc s) := by
  unfold execTileAllocationGrant
  exact memSafe_next (State.memInv_grantTile h)

theorem State.memSafe_tileFiring {s : State} {p : Par} {ops : List Tok} {k : State → Tile → State} (h : Safety.MemInv s) (hk : ∀ (a :
    State), Safety.MemInv a → ∀ (a_1 : Tile), Safety.MemInv (k a a_1)) : MemSafe (s.tileFiring p ops k) := by
  unfold State.tileFiring
  refine State.memSafe_firing h ?_
  intro s h
  split
  · exact State.memInv_failing _ _ _ _ _ h
  · exact hk _ h _

theorem State.memSafe_cmdFiring {s : State} {p : Par} {lat : Nat} {ops : List Tok} {k : State → State} (h : Safety.MemInv s) (hk : ∀ (a
    : State), Safety.MemInv a → Safety.MemInv (k a)) : MemSafe (s.cmdFiring p lat ops k) := by
  unfold State.cmdFiring
  split
  · exact memSafe_next (State.memInv_failing _ _ _ _ _ h)
  · exact State.memSafe_firing h (fun s h => hk _ h)

theorem State.memSafe_tileCmdFiring {s : State} {p : Par} {ops : List Tok} {k : State → Tile → State} (h : Safety.MemInv s) (hk : ∀ (a
    : State), Safety.MemInv a → ∀ (a_1 : Tile), Safety.MemInv (k a a_1)) : MemSafe (s.tileCmdFiring p ops k) := by
  unfold State.tileCmdFiring
  split
  · exact memSafe_next (State.memInv_failing _ _ _ _ _ h)
  · exact State.memSafe_tileFiring h (fun a h a => hk _ h _)

theorem State.memInv_readRow {s : State} {core : Nat} {b : Tile} {r : Nat} (h : Safety.MemInv s) : Safety.MemInv (s.readRow core b r).2
    := by
  unfold State.readRow
  exact State.memInv_readGrans h

theorem memSafe_execTalloc {p : Par} {acc zero : Bool} {bg : Geom} {rows cols : BitVec 13} {s : State} (h : Safety.MemInv s) : MemSafe
    (execTalloc p acc zero bg rows cols s) := by
  unfold execTalloc
  refine State.memSafe_firing h ?_
  intro s h
  dsimp only
  split
  · exact State.memInv_failing _ _ _ _ _ h
  · exact State.memInv_finish _ _ _ _ _ (State.memInv_askTile h)

theorem memSafe_execTref {p : Par} {s : State} (h : Safety.MemInv s) : MemSafe (execTref p s) := by
  unfold execTref
  refine State.memSafe_firing h ?_
  intro s h
  split
  · exact State.memInv_failing _ _ _ _ _ h
  · split
    · exact State.memInv_failing _ _ _ _ _ h
    · exact State.memInv_finish _ _ _ _ _ h

theorem memSafe_execTdrop {p : Par} {s : State} (h : Safety.MemInv s) : MemSafe (execTdrop p s) := by
  unfold execTdrop
  exact State.memSafe_tileFiring h (fun a h a => State.memInv_finish _ _ _ _ _ h)

theorem State.memInv_viewOf {s : State} {p : Par} {t : Tile} {r : Tok} {ops : List Tok} (h : Safety.MemInv s) : Safety.MemInv (s.viewOf
    p t r ops) := by
  unfold State.viewOf
  split
  · exact State.memInv_failing _ _ _ _ _ h
  · split
    · exact State.memInv_failing _ _ _ _ _ h
    · dsimp only
      refine State.memInv_finish _ _ _ _ _ ?_
      refine State.memInv_askTile ?_
      split
      · exact h
      · exact State.memInv_changeRefs h

theorem memSafe_execTview {p : Par} {s : State} (h : Safety.MemInv s) : MemSafe (execTview p s) := by
  unfold execTview
  exact State.memSafe_tileFiring h (fun a h a => State.memInv_viewOf h)

theorem memSafe_execTviewImm {p : Par} {imm : BitVec 32} {s : State} (h : Safety.MemInv s) : MemSafe (execTviewImm p imm s) := by
  unfold execTviewImm
  exact State.memSafe_tileFiring h (fun a h a => State.memInv_viewOf h)

theorem memSafe_execTinfo {p : Par} {what : InfoWhat} {s : State} (h : Safety.MemInv s) : MemSafe (execTinfo p what s) := by
  unfold execTinfo
  exact State.memSafe_tileFiring h (fun a h a => State.memInv_finish _ _ _ _ _ h)

theorem State.memInv_fill {s : State} {p : Par} {t : Tile} {r : Tok} {ops : List Tok} (h : Safety.MemInv s) : Safety.MemInv (s.fill p t
    r ops) := by
  unfold State.fill
  split
  · exact State.memInv_failing _ _ _ _ _ h
  · split
    · exact State.memInv_failing _ _ _ _ _ h
    · exact State.memInv_command _ _ _ h

theorem memSafe_execTfill {p : Par} {s : State} (h : Safety.MemInv s) : MemSafe (execTfill p s) := by
  unfold execTfill
  exact State.memSafe_tileCmdFiring h (fun a h a => State.memInv_fill h)

theorem memSafe_execTfillImm {p : Par} {imm : BitVec 32} {s : State} (h : Safety.MemInv s) : MemSafe (execTfillImm p imm s) := by
  unfold execTfillImm
  exact State.memSafe_tileCmdFiring h (fun a h a => State.memInv_fill h)

theorem State.memInv_commandNew {s : State} {p : Par} {e : Eng} {sh : Shape} {ops : List Tok} (h : Safety.MemInv s) : Safety.MemInv
    (s.commandNew p e sh ops) := by
  unfold State.commandNew
  split
  · exact State.memInv_failing _ _ _ _ _ h
  · exact State.memInv_askTile (State.memInv_command _ _ _ h)

theorem memSafe_execTcopy {p : Par} {toacc : Bool} {s : State} (h : Safety.MemInv s) : MemSafe (execTcopy p toacc s) := by
  unfold execTcopy
  refine State.memSafe_tileCmdFiring h ?_
  intro a h a
  dsimp only
  split
  · exact State.memInv_failing _ _ _ _ _ h
  · exact State.memInv_commandNew h

theorem memSafe_execTcopyInto {p : Par} {s : State} (h : Safety.MemInv s) : MemSafe (execTcopyInto p s) := by
  unfold execTcopyInto
  refine State.memSafe_tileCmdFiring h ?_
  intro a h a
  split
  · exact State.memInv_failing _ _ _ _ _ h
  · split
    · exact State.memInv_failing _ _ _ _ _ h
    · exact State.memInv_command _ _ _ h

theorem memSafe_execTtran {p : Par} {s : State} (h : Safety.MemInv s) : MemSafe (execTtran p s) := by
  unfold execTtran
  refine State.memSafe_tileCmdFiring h ?_
  intro a h a
  split
  · exact State.memInv_failing _ _ _ _ _ h
  · exact State.memInv_commandNew h

theorem State.memInv_getItem {s : State} {p : Par} {part : Part} {t : Tile} {r : Tok} {ops : List Tok} (h : Safety.MemInv s) :
    Safety.MemInv (s.getItem p part t r ops) := by
  unfold State.getItem
  dsimp only
  split
  · exact State.memInv_failing _ _ _ _ _ h
  · split
    · exact State.memInv_failing _ _ _ _ _ h
    · split
      · exact State.memInv_failing _ _ _ _ _ (State.memInv_readGrans h)
      · exact State.memInv_finish _ _ _ _ _ (State.memInv_readGrans h)

theorem memSafe_execTget {p : Par} {part : Part} {s : State} (h : Safety.MemInv s) : MemSafe (execTget p part s) := by
  unfold execTget
  exact State.memSafe_tileFiring h (fun a h a => State.memInv_getItem h)

theorem memSafe_execTgetImm {p : Par} {part : Part} {imm : BitVec 32} {s : State} (h : Safety.MemInv s) : MemSafe (execTgetImm p part
    imm s) := by
  unfold execTgetImm
  exact State.memSafe_tileFiring h (fun a h a => State.memInv_getItem h)

theorem State.memInv_putItem {s : State} {p : Par} {part : Part} {t : Tile} {v : Tok} {ops : List Tok} (h : Safety.MemInv s) :
    Safety.MemInv (s.putItem p part t v ops) := by
  unfold State.putItem
  dsimp only
  split
  · exact State.memInv_failing _ _ _ _ _ h
  · split
    · exact State.memInv_failing _ _ _ _ _ h
    · exact State.memInv_finish _ _ _ _ _ (State.memInv_modTileIdx h)

theorem memSafe_execTset {p : Par} {part : Part} {s : State} (h : Safety.MemInv s) : MemSafe (execTset p part s) := by
  unfold execTset
  exact State.memSafe_tileFiring h (fun a h a => State.memInv_putItem h)

theorem memSafe_execTsetImm {p : Par} {part : Part} {imm : BitVec 32} {s : State} (h : Safety.MemInv s) : MemSafe (execTsetImm p part
    imm s) := by
  unfold execTsetImm
  exact State.memSafe_tileFiring h (fun a h a => State.memInv_putItem h)

theorem State.memInv_endCommand {s : State} {core : Nat} {e : Eng} {st : Nat} {ems : List (Dest × Tok)} {used : List Tok} (h :
    Safety.MemInv s) : Safety.MemInv (s.endCommand core e st ems used) := by
  unfold State.endCommand
  exact State.memInv_engEnd _ _ _ _ (State.memInv_settle h)

theorem State.memInv_failCommand {s : State} {core : Nat} {e : Eng} {st : Nat} {used : List Tok} (h : Safety.MemInv s) : Safety.MemInv
    (s.failCommand core e st used) := by
  unfold State.failCommand
  dsimp only
  refine State.memInv_endCommand ?_
  split
  · exact State.memInv_sweepIdx (State.memInv_changeRefs h)
  · exact h

theorem State.memInv_endWithTile {s : State} {core : Nat} {e : Eng} {idx : Nat} {used : List Tok} (h : Safety.MemInv s) : Safety.MemInv
    (s.endWithTile core e idx used) := by
  unfold State.endWithTile
  exact State.memInv_endCommand h

theorem State.memInv_copyGran {s : State} {core : Nat} {e : Eng} {t d : Tile} {g draw : Nat} (h : Safety.MemInv s) : Safety.MemInv
    (s.copyGran core e t d g draw).2 := by
  unfold State.copyGran
  dsimp only
  split
  · exact State.memInv_readGrans h
  · exact State.memInv_modTileIdx (State.memInv_readGrans h)

theorem State.memInv_tileGran {s : State} {core : Nat} {e : Eng} {t : Tile} (h : Safety.MemInv s) : Safety.MemInv (s.tileGran core e t)
    := by
  unfold State.tileGran
  dsimp only
  split
  · exact State.memInv_modEngRec (State.memInv_modTileIdx (State.memInv_draw h))
  · split
    · exact State.memInv_failCommand (State.memInv_draw h)
    · split
      · exact State.memInv_failCommand (State.memInv_copyGran (State.memInv_draw h))
      · exact State.memInv_modEngRec (State.memInv_copyGran (State.memInv_draw h))
  · split
    · split
      · exact State.memInv_draw h
      · exact State.memInv_modEngRec (State.memInv_modTileIdx (State.memInv_draw h))
    · split
      · exact State.memInv_failCommand (State.memInv_readGrans (State.memInv_draw h))
      · exact State.memInv_modEngRec (State.memInv_modEngRec (State.memInv_readGrans (State.memInv_draw h)))

theorem State.memInv_endTileCommand {s : State} {core : Nat} {e : Eng} (h : Safety.MemInv s) : Safety.MemInv (s.endTileCommand core e)
    := by
  unfold State.endTileCommand
  split
  · exact State.memInv_endCommand h
  · exact State.memInv_endCommand h
  · split
    · exact State.memInv_endWithTile h
    · split
      · exact h
      · exact State.memInv_modEngRec h
  · exact h

theorem State.memInv_runTileCommand {s : State} {core : Nat} {e : Eng} (h : Safety.MemInv s) : Safety.MemInv (s.runTileCommand core e)
    := by
  unfold State.runTileCommand
  split
  · exact State.memInv_failCommand h
  · split
    · exact State.memInv_modEngRec (State.memInv_engStart _ _ _ h)
    · split
      · exact State.memInv_endTileCommand h
      · exact State.memInv_tileGran h

theorem State.memSafe_memFiring {s : State} {p : Par} {reads ops : List Tok} {k : State → State} (h : Safety.MemInv s) (hk : ∀ (a :
    State), Safety.MemInv a → Safety.MemInv (k a)) : MemSafe (s.memFiring p reads ops k) := by
  unfold State.memFiring
  refine State.memSafe_firing h ?_
  intro s h
  split
  · exact State.memInv_failing _ _ _ _ _ h
  · exact hk _ h

theorem State.memInv_orFail {s : State} {p : Par} {ops : List Tok} {α : Type} {x : Except Nat α} {k : α → State} (h : Safety.MemInv s)
    (hk : ∀ (a : α), Safety.MemInv (k a)) : Safety.MemInv (s.orFail p ops x k) := by
  unfold State.orFail
  split
  · exact State.memInv_failing _ _ _ _ _ h
  · exact hk _

theorem State.memInv_fireReq {s : State} {p : Par} {kind : Nat} {ems : List (Dest × Tok)} {used : List Tok} {r : Req} (h :
    Safety.MemInv s) : Safety.MemInv (s.fireReq p kind ems used r) := by
  unfold State.fireReq
  exact State.memInv_foldl _ (fun s x h => State.memInv_trap h) _ _ (State.memInv_issue _ _ (State.memInv_finish _ _ _ _ _ h))

theorem memSafe_execLd {p : Par} {s : State} (h : Safety.MemInv s) : MemSafe (execLd p s) := by
  unfold execLd
  exact State.memSafe_memFiring h (fun a h => State.memInv_orFail h (fun a => State.memInv_fireReq h))

theorem State.memInv_store {s : State} {p : Par} {v : Tok} {ops : List Tok} (h : Safety.MemInv s) : Safety.MemInv (s.store p v ops) :=
    by
  unfold State.store
  exact State.memInv_orFail h (fun a => State.memInv_fireReq h)

theorem memSafe_execSt {p : Par} {s : State} (h : Safety.MemInv s) : MemSafe (execSt p s) := by
  unfold execSt
  exact State.memSafe_memFiring h (fun a h => State.memInv_store h)

theorem memSafe_execStImm {p : Par} {imm : BitVec 32} {s : State} (h : Safety.MemInv s) : MemSafe (execStImm p imm s) := by
  unfold execStImm
  exact State.memSafe_memFiring h (fun a h => State.memInv_store h)

theorem State.memInv_loadTile {s : State} {p : Par} {bg : Geom} {pitch rows cols : Nat} {sa : Option Word} {ops : List Tok} (h :
    Safety.MemInv s) : Safety.MemInv (s.loadTile p bg pitch rows cols sa ops) := by
  unfold State.loadTile
  dsimp only
  refine State.memInv_orFail h ?_
  intro a
  refine State.memInv_orFail h ?_
  intro a
  split
  · exact State.memInv_failing _ _ _ _ _ h
  · exact State.memInv_askTile (State.memInv_fireReq h)

theorem memSafe_execLdt {p : Par} {bg : Geom} {pitch : BitVec 16} {rows cols : BitVec 13} {s : State} (h : Safety.MemInv s) : MemSafe
    (execLdt p bg pitch rows cols s) := by
  unfold execLdt
  exact State.memSafe_memFiring h (fun a h => State.memInv_loadTile h)

theorem memSafe_execLdtScaled {p : Par} {bg : Geom} {pitch : BitVec 16} {rows cols : BitVec 13} {s : State} (h : Safety.MemInv s) :
    MemSafe (execLdtScaled p bg pitch rows cols s) := by
  unfold execLdtScaled
  exact State.memSafe_memFiring h (fun a h => State.memInv_loadTile h)

theorem State.memInv_storeFail {s : State} {p : Par} {st : Nat} {ops : List Tok} (h : Safety.MemInv s) : Safety.MemInv (s.storeFail p
    st ops) := by
  unfold State.storeFail
  exact State.memInv_finish _ _ _ _ _ h

theorem State.memInv_storeTile {s : State} {p : Par} {pitch : Nat} {sa : Option Word} {reads ops : List Tok} (h : Safety.MemInv s) :
    Safety.MemInv (s.storeTile p pitch sa reads ops) := by
  unfold State.storeTile
  dsimp only
  refine State.memInv_orFail h ?_
  intro a
  split
  · exact State.memInv_storeFail h
  · split
    · exact State.memInv_storeFail h
    · exact State.memInv_storeFail h
    · split
      · exact State.memInv_storeFail (State.memInv_readRows h)
      · exact State.memInv_fireReq (State.memInv_readRows h)

theorem memSafe_execStt {p : Par} {pitch : BitVec 16} {s : State} (h : Safety.MemInv s) : MemSafe (execStt p pitch s) := by
  unfold execStt
  exact State.memSafe_firing h (fun s h => State.memInv_storeTile h)

theorem memSafe_execSttScaled {p : Par} {pitch : BitVec 16} {s : State} (h : Safety.MemInv s) : MemSafe (execSttScaled p pitch s) := by
  unfold execSttScaled
  exact State.memSafe_firing h (fun s h => State.memInv_storeTile h)

theorem State.memInv_stage {s : State} {core g : Nat} (h : Safety.MemInv s) : Safety.MemInv (s.stage core g) := by
  unfold State.stage
  dsimp only
  split
  · exact State.memInv_dropStaged (State.memInv_modMs (fun m => rfl) (State.memInv_perfCore h))
  · exact State.memInv_modMs (fun m => rfl) (State.memInv_perfCore h)

theorem memSafe_execPfh {p : Par} {count : BitVec 16} {s : State} (h : Safety.MemInv s) : MemSafe (execPfh p count s) := by
  unfold execPfh
  exact memSafe_next (State.memInv_finish _ _ _ _ _ (State.memInv_foldl _ (fun s x h => State.memInv_stage h) _ _ h))

theorem State.memInv_atomic {s : State} {p : Par} {op : AtomOp} {rtry : Bool} {v : Tok} {ops : List Tok} (h : Safety.MemInv s) :
    Safety.MemInv (s.atomic p op rtry v ops) := by
  unfold State.atomic
  exact State.memInv_orFail h (fun a => State.memInv_fireReq h)

theorem memSafe_execAop {p : Par} {op : AtomOp} {rtry : Bool} {s : State} (h : Safety.MemInv s) : MemSafe (execAop p op rtry s) := by
  unfold execAop
  exact State.memSafe_memFiring h (fun a h => State.memInv_atomic h)

theorem memSafe_execAopImm {p : Par} {op : AtomOp} {rtry : Bool} {imm : BitVec 32} {s : State} (h : Safety.MemInv s) : MemSafe
    (execAopImm p op rtry imm s) := by
  unfold execAopImm
  exact State.memSafe_memFiring h (fun a h => State.memInv_atomic h)

theorem State.memInv_compareSwap {s : State} {p : Par} {rtry : Bool} {v : Tok} {ops : List Tok} (h : Safety.MemInv s) : Safety.MemInv
    (s.compareSwap p rtry v ops) := by
  unfold State.compareSwap
  exact State.memInv_orFail h (fun a => State.memInv_fireReq h)

theorem memSafe_execAcas {p : Par} {rtry : Bool} {s : State} (h : Safety.MemInv s) : MemSafe (execAcas p rtry s) := by
  unfold execAcas
  exact State.memSafe_memFiring h (fun a h => State.memInv_compareSwap h)

theorem memSafe_execAcasImm {p : Par} {rtry : Bool} {imm : BitVec 32} {s : State} (h : Safety.MemInv s) : MemSafe (execAcasImm p rtry
    imm s) := by
  unfold execAcasImm
  exact State.memSafe_memFiring h (fun a h => State.memInv_compareSwap h)

theorem State.memInv_bankUpdate {s : State} {p : Par} {opc pitch : Nat} {ops : List Tok} {opb : Word} {op : Nat → PieceOp} (h :
    Safety.MemInv s) : Safety.MemInv (s.bankUpdate p opc pitch ops opb op) := by
  unfold State.bankUpdate
  dsimp only
  refine State.memInv_orFail h ?_
  intro a
  split
  · exact State.memInv_failing _ _ _ _ _ h
  · refine State.memInv_orFail h ?_
    intro a
    refine State.memInv_orFail h ?_
    intro a
    split
    · exact State.memInv_failing _ _ _ _ _ (State.memInv_readRows h)
    · exact State.memInv_fireReq (State.memInv_readRows h)

theorem memSafe_execBupd {p : Par} {rop : RedOp} {pitch : BitVec 16} {s : State} (h : Safety.MemInv s) : MemSafe (execBupd p rop pitch
    s) := by
  unfold execBupd
  exact State.memSafe_memFiring h (fun a h => State.memInv_bankUpdate h)

theorem memSafe_execBaxpy {p : Par} {pitch : BitVec 16} {s : State} (h : Safety.MemInv s) : MemSafe (execBaxpy p pitch s) := by
  unfold execBaxpy
  exact State.memSafe_memFiring h (fun a h => State.memInv_bankUpdate h)

theorem memSafe_execBaxpyImm {p : Par} {pitch : BitVec 16} {imm : BitVec 32} {s : State} (h : Safety.MemInv s) : MemSafe (execBaxpyImm
    p pitch imm s) := by
  unfold execBaxpyImm
  exact State.memSafe_memFiring h (fun a h => State.memInv_bankUpdate h)

theorem State.memInv_arrive {s : State} {p : Par} {rtry : Bool} {st : Word} {ops : List Tok} (h : Safety.MemInv s) : Safety.MemInv
    (s.arrive p rtry st ops) := by
  unfold State.arrive
  exact State.memInv_orFail h (fun a => State.memInv_fireReq h)

theorem memSafe_execBara {p : Par} {rtry : Bool} {s : State} (h : Safety.MemInv s) : MemSafe (execBara p rtry s) := by
  unfold execBara
  exact State.memSafe_memFiring h (fun a h => State.memInv_arrive h)

theorem memSafe_execBaraStatus {p : Par} {rtry : Bool} {s : State} (h : Safety.MemInv s) : MemSafe (execBaraStatus p rtry s) := by
  unfold execBaraStatus
  exact State.memSafe_memFiring h (fun a h => State.memInv_arrive h)

theorem memSafe_execBaraImm {p : Par} {rtry : Bool} {imm : BitVec 32} {s : State} (h : Safety.MemInv s) : MemSafe (execBaraImm p rtry
    imm s) := by
  unfold execBaraImm
  exact State.memSafe_memFiring h (fun a h => State.memInv_arrive h)

theorem State.memInv_awaitPhase {s : State} {p : Par} {n : Word} {ops : List Tok} (h : Safety.MemInv s) : Safety.MemInv (s.awaitPhase p
    n ops) := by
  unfold State.awaitPhase
  exact State.memInv_orFail h (fun a => State.memInv_fireReq h)

theorem memSafe_execBarw {p : Par} {s : State} (h : Safety.MemInv s) : MemSafe (execBarw p s) := by
  unfold execBarw
  exact State.memSafe_memFiring h (fun a h => State.memInv_awaitPhase h)

theorem memSafe_execBarwImm {p : Par} {imm : BitVec 32} {s : State} (h : Safety.MemInv s) : MemSafe (execBarwImm p imm s) := by
  unfold execBarwImm
  exact State.memSafe_memFiring h (fun a h => State.memInv_awaitPhase h)

theorem State.memInv_object {s : State} {p : Par} {rel sh rtry : Bool} {scope : Scope} (h : Safety.MemInv s) : Safety.MemInv (s.object
    p rel sh rtry scope) := by
  unfold State.object
  dsimp only
  refine State.memInv_orFail h ?_
  intro a
  split
  · exact State.memInv_failing _ _ _ _ _ h
  · split
    · exact State.memInv_fireReq h
    · exact State.memInv_fireReq h

theorem memSafe_execAcq {p : Par} {sh rtry : Bool} {scope : Scope} {s : State} (h : Safety.MemInv s) : MemSafe (execAcq p sh rtry scope
    s) := by
  unfold execAcq
  exact State.memSafe_memFiring h (fun a h => State.memInv_object h)

theorem memSafe_execRel {p : Par} {sh rtry : Bool} {scope : Scope} {s : State} (h : Safety.MemInv s) : MemSafe (execRel p sh rtry scope
    s) := by
  unfold execRel
  exact State.memSafe_memFiring h (fun a h => State.memInv_object h)

theorem State.memInv_fillTlb {s : State} {e : Tlb} (h : Safety.MemInv s) : Safety.MemInv (s.fillTlb e) := by
  unfold State.fillTlb
  exact State.memInv_modMs (fun m => rfl) h

theorem State.memInv_grantCopies {s : State} {core k : Nat} (h : Safety.MemInv s) : Safety.MemInv (s.grantCopies core k) := by
  induction k generalizing s with
  | zero => exact h
  | succ k ih =>
    unfold State.grantCopies
    dsimp only
    split
    · exact h
    · split
      · exact h
      · exact ih (State.memInv_engStart _ _ _ h)

theorem State.memInv_issueMove {s : State} {core : Nat} {e : Eng} {m : Move} (h : Safety.MemInv s) : Safety.MemInv (s.issueMove core e
    m) := by
  unfold State.issueMove
  dsimp only
  refine State.memInv_foldl _ (fun s x h => State.memInv_trap h) _ _ ?_
  refine State.memInv_modEngRec ?_
  split
  · split
    · split
      · exact h
      · exact State.memInv_draw h
    · split
      · exact h
      · exact State.memInv_draw h
  · split
    · exact h
    · exact State.memInv_draw h

theorem State.memInv_missOn {s : State} {core : Nat} {e : Eng} {va access : Nat} (h : Safety.MemInv s) : Safety.MemInv (s.missOn core e
    va access) := by
  unfold State.missOn
  dsimp only
  split
  · exact State.memInv_modEngRec h
  · exact State.memInv_modMs (fun m => rfl) (State.memInv_modEngRec h)

theorem State.memInv_failCopy {s : State} {core idx st : Nat} (h : Safety.MemInv s) : Safety.MemInv (s.failCopy core idx st) := by
  unfold State.failCopy
  exact State.memInv_modEngRec h

theorem State.memInv_countPages {s : State} {e : Eng} {k : Nat} (h : Safety.MemInv s) : Safety.MemInv (s.countPages e k) := by
  unfold State.countPages
  exact State.memInv_modMs (fun m => rfl) h

theorem State.memInv_nextRun {s : State} {core : Nat} {e : Eng} (h : Safety.MemInv s) : Safety.MemInv (s.nextRun core e) := by
  unfold State.nextRun
  dsimp only
  split
  · split
    · exact State.memInv_failCopy (State.memInv_readGrans h)
    · split
      · exact State.memInv_failCopy (State.memInv_readGrans h)
      · exact State.memInv_missOn (State.memInv_readGrans h)
      · exact State.memInv_modEngRec (State.memInv_modEng (State.memInv_countPages (State.memInv_readGrans h)))
  · split
    · exact State.memInv_failCopy h
    · split
      · exact State.memInv_failCopy h
      · exact State.memInv_missOn h
      · exact State.memInv_modEngRec (State.memInv_modEng (State.memInv_countPages h))

theorem State.memInv_issueCopy {s : State} {core : Nat} {e : Eng} (h : Safety.MemInv s) : Safety.MemInv (s.issueCopy core e) := by
  unfold State.issueCopy
  split
  · exact State.memInv_issueMove h
  · exact State.memInv_nextRun h

theorem State.memInv_issueCopies {s : State} {core k : Nat} (hi : ∀ s e, Safety.MemInv s → Safety.MemInv (s.issueCopy core e)) (h :
    Safety.MemInv s) : Safety.MemInv (s.issueCopies core k) := by
  induction k generalizing s with
  | zero => exact h
  | succ k ih =>
    unfold State.issueCopies
    split
    · exact h
    · exact ih (hi _ _ h)

theorem State.memInv_copyPump {s : State} {core : Nat} (h : Safety.MemInv s) : Safety.MemInv (s.copyPump core) := by
  unfold State.copyPump
  exact State.memInv_issueCopies (fun s e h => State.memInv_issueCopy h) (State.memInv_grantCopies h)

theorem State.memInv_startCopy {s : State} {p : Par} {opc recd st : Nat} {ops : List Tok} (h : Safety.MemInv s) : Safety.MemInv
    (s.startCopy p opc recd st ops) := by
  unfold State.startCopy
  dsimp only
  split
  · exact State.memInv_failing _ _ _ _ _ h
  · split
    · exact State.memInv_failing _ _ _ _ _ h
    · exact State.memInv_copyPump (State.memInv_command _ _ _ h)

theorem State.memSafe_copyFiring {s : State} {p : Par} {opc recd : Nat} {ops : List Tok} {k : State → Nat → State} (h : Safety.MemInv
    s) (hk : ∀ (a : State), Safety.MemInv a → ∀ (a_1 : Nat), Safety.MemInv (k a a_1)) : MemSafe (s.copyFiring p opc recd ops k) := by
  unfold State.copyFiring
  split
  · exact memSafe_next (State.memInv_startCopy h)
  · exact State.memSafe_firing h (fun s h => hk _ h _)

theorem memSafe_execCopy {p : Par} {_scl : Bool} {recd : BitVec 10} {s : State} (h : Safety.MemInv s) : MemSafe (execCopy p _scl recd
    s) := by
  unfold execCopy
  exact State.memSafe_copyFiring h (fun a h a => State.memInv_startCopy h)

theorem State.memInv_copyReads {s : State} {p : Par} {reads ops : List Tok} {k : State → State} (h : Safety.MemInv s) (hk : ∀ (a :
    State), Safety.MemInv a → Safety.MemInv (k a)) : Safety.MemInv (s.copyReads p reads ops k) := by
  unfold State.copyReads
  split
  · exact hk _ h
  · exact State.memInv_failing _ _ _ _ _ h

theorem memSafe_execCopyAddr {p : Par} {_scl : Bool} {recd : BitVec 10} {s : State} (h : Safety.MemInv s) : MemSafe (execCopyAddr p
    _scl recd s) := by
  unfold execCopyAddr
  exact State.memSafe_copyFiring h (fun a h a => State.memInv_copyReads h (fun a h => State.memInv_startCopy h))

theorem State.memInv_indexed {s : State} {p : Par} {opc recd : Nat} (h : Safety.MemInv s) : Safety.MemInv (s.indexed p opc recd) := by
  unfold State.indexed
  dsimp only
  split
  · exact State.memInv_failing _ _ _ _ _ h
  · exact State.memInv_copyReads h (fun a h => State.memInv_startCopy h)

theorem memSafe_execGath {p : Par} {recd : BitVec 10} {s : State} (h : Safety.MemInv s) : MemSafe (execGath p recd s) := by
  unfold execGath
  exact State.memSafe_copyFiring h (fun a h a => State.memInv_indexed h)

theorem memSafe_execScat {p : Par} {recd : BitVec 10} {s : State} (h : Safety.MemInv s) : MemSafe (execScat p recd s) := by
  unfold execScat
  exact State.memSafe_copyFiring h (fun a h a => State.memInv_indexed h)

theorem memSafe_execCred {p : Par} {_rop : RedOp} {recd : BitVec 10} {s : State} (h : Safety.MemInv s) : MemSafe (execCred p _rop recd
    s) := by
  unfold execCred
  exact State.memSafe_copyFiring h (fun a h a => State.memInv_copyReads h (fun a h => State.memInv_startCopy h))

theorem State.memInv_endCopy {s : State} {core : Nat} {e : Eng} (h : Safety.MemInv s) : Safety.MemInv (s.endCopy core e) := by
  unfold State.endCopy
  dsimp only
  split
  · exact State.memInv_copyPump (State.memInv_endCommand h)
  · split
    · split
      · split
        · exact State.memInv_copyPump (State.memInv_endCommand (State.memInv_dropReq h))
        · exact h
      · exact State.memInv_copyPump (State.memInv_endCommand h)
    · exact State.memInv_modEngRec (State.memInv_arriveAt h)

theorem memSafe_execCopyComplete {core recd : Nat} {s : State} (h : Safety.MemInv s) : MemSafe (execCopyComplete core recd s) := by
  unfold execCopyComplete
  split
  · exact memSafe_next h
  · split
    · exact memSafe_next (State.memInv_endCopy h)
    · exact memSafe_next h

theorem memSafe_execDrain {p : Par} {path : BitVec 3} {s : State} (h : Safety.MemInv s) : MemSafe (execDrain p path s) := by
  unfold execDrain
  exact State.memSafe_firing h (fun s h => State.memInv_finish _ _ _ _ _ (State.memInv_modCtx h))

theorem memSafe_execDrainComplete {i : Nat} {s : State} (h : Safety.MemInv s) : MemSafe (execDrainComplete i s) := by
  unfold execDrainComplete
  split
  · exact memSafe_next h
  · split
    · exact memSafe_next (State.memInv_emitAll (State.memInv_modCtx h))
    · exact memSafe_next h

theorem State.memInv_modSlot {s : State} {home i : Nat} {f : CSlot → CSlot} (h : Safety.MemInv s) : Safety.MemInv (s.modSlot home i f)
    := by
  unfold State.modSlot
  exact State.memInv_modRegion h

theorem State.memInv_armSlot {s : State} {home slot : Nat} {m : Image} (h : Safety.MemInv s) : Safety.MemInv (s.armSlot home slot m) :=
    by
  unfold State.armSlot
  exact State.memInv_modRegion (State.memInv_foldl _ (fun s x h => State.memInv_modCore h) _ _ h)

theorem State.memInv_claim {s : State} {tenant slot : Nat} {m : Image} (h : Safety.MemInv s) : Safety.MemInv (s.claim tenant slot m) :=
    by
  unfold State.claim
  dsimp only
  split
  · exact State.memInv_modRegion h
  · exact h

theorem State.memInv_emptySlot {s : State} {home slot : Nat} (h : Safety.MemInv s) : Safety.MemInv (s.emptySlot home slot) := by
  unfold State.emptySlot
  split
  · exact h
  · with_reducible exact State.memInv_with rfl (State.memInv_modSlot (State.memInv_foldl _ (fun s x h => State.memInv_modCore h) _ _ h))

theorem State.memInv_readImage {s : State} {core : Nat} {e : Eng} {n pos : Nat} (h : Safety.MemInv s) : Safety.MemInv (s.readImage core
    e n pos) := by
  unfold State.readImage
  split
  · exact State.memInv_modEngRec h
  · exact State.memInv_modEngRec h

theorem State.memInv_startLoad {s : State} {core : Nat} {e : Eng} (h : Safety.MemInv s) : Safety.MemInv (s.startLoad core e) := by
  unfold State.startLoad
  exact State.memInv_readImage (State.memInv_engStart _ _ _ h)

theorem State.memInv_judgeLoad {s : State} {core : Nat} {e : Eng} {slot : Nat} {bytes : List Byte} (h : Safety.MemInv s) :
    Safety.MemInv (s.judgeLoad core e slot bytes) := by
  unfold State.judgeLoad
  dsimp only
  split
  · exact State.memInv_modEngRec (State.memInv_modEngRec h)
  · exact State.memInv_modEngRec (State.memInv_modEngRec h)
  · exact State.memInv_modEngRec (State.memInv_claim (State.memInv_modEngRec h))
  · exact State.memInv_modEngRec (State.memInv_claim (State.memInv_modEngRec h))

theorem State.memInv_goOnLoad {s : State} {core : Nat} {e : Eng} {slot : Nat} (h : Safety.MemInv s) : Safety.MemInv (s.goOnLoad core e
    slot) := by
  unfold State.goOnLoad
  dsimp only
  split
  · exact State.memInv_judgeLoad h
  · split
    · exact State.memInv_modEngRec h
    · exact State.memInv_readImage h

theorem memSafe_execCload {p : Par} {cs : BitVec 2} {s : State} (h : Safety.MemInv s) : MemSafe (execCload p cs s) := by
  unfold execCload
  refine State.memSafe_cmdFiring h ?_
  intro a h
  split
  · exact State.memInv_failing _ _ _ _ _ h
  · dsimp only
    split
    · exact State.memInv_startLoad (State.memInv_command _ _ _ h)
    · exact State.memInv_command _ _ _ h

theorem memSafe_execCloadComplete {core recd : Nat} {s : State} (h : Safety.MemInv s) : MemSafe (execCloadComplete core recd s) := by
  unfold execCloadComplete
  split
  · exact memSafe_next h
  · split
    · split
      · exact memSafe_next h
      · split
        · exact memSafe_next (State.memInv_startLoad h)
        · split
          · exact memSafe_next (State.memInv_failCommand h)
          · split
            · exact memSafe_next h
            · split
              · exact memSafe_next (State.memInv_goOnLoad h)
              · dsimp only
                refine memSafe_next ?_
                refine State.memInv_endCommand ?_
                split
                · exact State.memInv_armSlot h
                · split
                  · exact State.memInv_unclaim h
                  · exact h
    · exact memSafe_next h

theorem State.memInv_manageLoad {s : State} {tenant : Nat} {bytes : List Byte} (h : Safety.MemInv s) : Safety.MemInv (s.manageLoad
    tenant bytes) := by
  unfold State.manageLoad
  split
  · exact State.memInv_armSlot (State.memInv_claim h)
  · exact h

theorem State.memSafe_slotFiring {s : State} {p : Par} {k : State → Region → State} (h : Safety.MemInv s) (hk : ∀ (a : State),
    Safety.MemInv a → ∀ (a_1 : Region), Safety.MemInv (k a a_1)) : MemSafe (s.slotFiring p k) := by
  unfold State.slotFiring
  refine State.memSafe_memFiring h ?_
  intro a h
  split
  · exact State.memInv_failing _ _ _ _ _ h
  · exact hk _ h _

theorem memSafe_execCsel {p : Par} {s : State} (h : Safety.MemInv s) : MemSafe (execCsel p s) := by
  unfold execCsel
  refine State.memSafe_slotFiring h ?_
  intro a h a
  dsimp only
  split
  · exact State.memInv_failing _ _ _ _ _ h
  · split
    · exact State.memInv_failing _ _ _ _ _ h
    · split
      · exact State.memInv_finish _ _ _ _ _ h
      · exact State.memInv_finish _ _ _ _ _ (State.memInv_modRegion h)

theorem memSafe_execCswt {p : Par} {cs : BitVec 2} {s : State} (h : Safety.MemInv s) : MemSafe (execCswt p cs s) := by
  unfold execCswt
  refine State.memSafe_slotFiring h ?_
  intro a h a
  dsimp only
  split
  · exact State.memInv_failing _ _ _ _ _ h
  · split
    · exact State.memInv_failing _ _ _ _ _ h
    · split
      · exact State.memInv_failing _ _ _ _ _ h
      · exact State.memInv_finish _ _ _ _ _ (State.memInv_modRegion h)

theorem memSafe_execCfree {p : Par} {cs : BitVec 2} {s : State} (h : Safety.MemInv s) : MemSafe (execCfree p cs s) := by
  unfold execCfree
  refine State.memSafe_firing h ?_
  intro s h
  dsimp only
  split
  · exact State.memInv_finish _ _ _ _ _ h
  · split
    · exact State.memInv_failing _ _ _ _ _ h
    · split
      · exact State.memInv_finish _ _ _ _ _ h
      · exact State.memInv_finish _ _ _ _ _ (State.memInv_modSlot (State.memInv_modRegion h))

theorem State.memInv_emitSwitch {s : State} {w : Switch} (h : Safety.MemInv s) : Safety.MemInv (s.emitSwitch w) := by
  unfold State.emitSwitch
  exact State.memInv_emitAll h

theorem memSafe_execCselSwitch {home : Nat} {s : State} (h : Safety.MemInv s) : MemSafe (execCselSwitch home s) := by
  unfold execCselSwitch
  split
  · exact memSafe_next h
  · split
    · exact memSafe_next h
    · dsimp only
      split
      · split
        · exact memSafe_next h
        · exact memSafe_next (State.memInv_modRegion h)
      · split
        · exact memSafe_next h
        · exact memSafe_next (State.memInv_modRegion h)

theorem memSafe_execCswtInstant {home : Nat} {s : State} (h : Safety.MemInv s) : MemSafe (execCswtInstant home s) := by
  unfold execCswtInstant
  split
  · exact memSafe_next h
  · dsimp only
    split
    · exact memSafe_next h
    · exact memSafe_next (State.memInv_emitSwitch (State.memInv_modRegion h))

theorem memSafe_execCfreeComplete {home : Nat} {s : State} (h : Safety.MemInv s) : MemSafe (execCfreeComplete home s) := by
  unfold execCfreeComplete
  split
  · exact memSafe_next h
  · split
    · exact memSafe_next h
    · exact memSafe_next (State.memInv_emptySlot (State.memInv_modRegion (State.memInv_foldl _ (fun s x h => State.memInv_emitSwitch h)
        _ _ h)))

theorem memSafe_execRegionSweep {home : Nat} {s : State} (h : Safety.MemInv s) : MemSafe (execRegionSweep home s) := by
  unfold execRegionSweep
  split
  · exact memSafe_next h
  · exact memSafe_next (State.memInv_modRegion h)

theorem memSafe_execPhcloseReturn {i : Nat} {s : State} (h : Safety.MemInv s) : MemSafe (execPhcloseReturn i s) := by
  unfold execPhcloseReturn
  split
  · exact memSafe_next h
  · split
    · exact memSafe_next h
    · exact memSafe_next (State.memInv_settle (State.memInv_modRegion h))

theorem State.memInv_dropFlight {s : State} {i : Nat} (h : Safety.MemInv s) : Safety.MemInv (s.dropFlight i) := by
  unfold State.dropFlight
  exact h

theorem memSafe_execTokenAccept {i : Nat} {s : State} (h : Safety.MemInv s) : MemSafe (execTokenAccept i s) := by
  unfold execTokenAccept
  split
  · exact memSafe_next h
  · split
    · exact memSafe_next h
    · dsimp only
      split
      · exact memSafe_next h
      · split
        · exact memSafe_next (State.memInv_countDropped (State.memInv_dropFlight h))
        · split
          · with_reducible exact memSafe_next (State.memInv_with rfl (State.memInv_depart h))
          · split
            · split
              · exact memSafe_next h
              · exact memSafe_next (State.memInv_quarantine (State.memInv_dropFlight h))
            · exact State.memSafe_accept (State.memInv_dropFlight h)

theorem memSafe_execQuarantineReport {i : Nat} {s : State} (h : Safety.MemInv s) : MemSafe (execQuarantineReport i s) := by
  unfold execQuarantineReport
  split
  · exact memSafe_next h
  · with_reducible exact memSafe_next (State.memInv_record (State.memInv_with rfl h))

theorem memSafe_execTileTransferReceive {i : Nat} {s : State} (h : Safety.MemInv s) : MemSafe (execTileTransferReceive i s) := by
  unfold execTileTransferReceive
  split
  · exact memSafe_next h
  · split
    · exact memSafe_next h
    · dsimp only
      split
      · exact memSafe_next h
      · split
        · with_reducible exact memSafe_next (State.memInv_with rfl (State.memInv_countResidue h))
        · with_reducible exact memSafe_next (State.memInv_askTile (State.memInv_with rfl h))

theorem State.memInv_enterPort {s : State} {core : Nat} {w : Word} {q : QTok} (h : Safety.MemInv s) : Safety.MemInv (s.enterPort core w
    q).2 := by
  unfold State.enterPort
  split
  · exact h
  · dsimp only
    split
    · exact State.memInv_release h
    · exact h

theorem State.memInv_leaveCtx {s : State} {core ctx : Nat} {q : QTok} (h : Safety.MemInv s) : Safety.MemInv (s.leaveCtx core ctx q).2
    := by
  unfold State.leaveCtx
  split
  · exact State.memInv_depart h
  · exact h

theorem State.memInv_deliverPort {s : State} {q : QTok} {ctx inst : Nat} {w : Word} (h : Safety.MemInv s) : Safety.MemInv
    (s.deliverPort q ctx inst w) := by
  unfold State.deliverPort
  split
  · exact State.memInv_quarantine h
  · dsimp only
    split
    · split
      · exact State.memInv_release (State.memInv_quarantine (State.memInv_leaveCtx (State.memInv_enterPort h)))
      · exact State.memInv_modFrm (State.memInv_modTok (State.memInv_leaveCtx (State.memInv_enterPort h)))
    · split
      · exact State.memInv_release (State.memInv_quarantine (State.memInv_leaveCtx (State.memInv_enterPort h)))
      · with_reducible refine State.memInv_with rfl ?_
        split
        · exact State.memInv_depart (State.memInv_leaveCtx (State.memInv_enterPort h))
        · exact State.memInv_leaveCtx (State.memInv_enterPort h)

theorem State.memInv_arrivePort {s : State} {q : QTok} (h : Safety.MemInv s) : Safety.MemInv (s.arrivePort q) := by
  unfold State.arrivePort
  split
  · exact State.memInv_modTok h
  · exact State.memInv_release (State.memInv_quarantine h)
  · exact State.memInv_countDropped h
  · exact State.memInv_deliverPort h

theorem memSafe_execSourcePortArrival {i : Nat} {s : State} (h : Safety.MemInv s) : MemSafe (execSourcePortArrival i s) := by
  unfold execSourcePortArrival
  split
  · split
    · exact memSafe_next h
    · split
      · exact memSafe_next h
      · dsimp only
        split
        · exact memSafe_next (State.memInv_modTok (State.memInv_dropFlight h))
        · exact memSafe_next (State.memInv_arrivePort (State.memInv_dropFlight h))
  · split
    · exact memSafe_next h
    · dsimp only
      split
      · exact memSafe_next h
      · exact memSafe_next (State.memInv_arrivePort (State.memInv_modTok h))

theorem State.memInv_fillFrame {s : State} {core n : Nat} {r : FrameReq} (h : Safety.MemInv s) : Safety.MemInv (s.fillFrame core n r)
    := by
  unfold State.fillFrame
  exact State.memInv_emitAll (State.memInv_foldl _ (fun s x h => State.memInv_deliver h) _ _ h)

theorem State.memInv_fillArrival {s : State} {core n iport : Nat} {r : FrameReq} (h : Safety.MemInv s) : Safety.MemInv (s.fillArrival
    core n iport r) := by
  unfold State.fillArrival
  dsimp only
  split
  · exact h
  · with_reducible exact State.memInv_with rfl (State.memInv_modTok h)

theorem State.memInv_restoreFrame {s : State} {core : Nat} {f : Frame} (h : Safety.MemInv s) : Safety.MemInv (s.restoreFrame core f) :=
    by
  unfold State.restoreFrame
  exact State.memInv_modFrm h

theorem State.memInv_grantFrame {s : State} {core : Nat} {r : FrameReq} (h : Safety.MemInv s) : Safety.MemInv (s.grantFrame core r) :=
    by
  unfold State.grantFrame
  dsimp only
  split
  · exact State.memInv_restoreFrame (State.memInv_modFrm h)
  · split
    · exact h
    · refine State.memInv_fillFrame ?_
      refine State.memInv_modFrm ?_
      exact State.memInv_takeFrame (State.memInv_modFrm h) _ ‹_›
  · split
    · exact h
    · split
      · refine State.memInv_fillArrival ?_
        exact State.memInv_takeFrame (State.memInv_modFrm h) _ ‹_›
      · refine State.memInv_modCtx ?_
        exact State.memInv_takeFrame (State.memInv_modFrm h) _ ‹_›
      · refine State.memInv_fillFrame ?_
        exact State.memInv_takeFrame (State.memInv_modFrm h) _ ‹_›

theorem memSafe_execFrameGrant {core : Nat} {s : State} (h : Safety.MemInv s) : MemSafe (execFrameGrant core s) := by
  unfold execFrameGrant
  split
  · exact memSafe_next h
  · split
    · exact memSafe_next (State.memInv_grantFrame h)
    · exact memSafe_next h

theorem memSafe_execTokenPromotion {core : Nat} {s : State} (h : Safety.MemInv s) : MemSafe (execTokenPromotion core s) := by
  unfold execTokenPromotion
  dsimp only
  split
  · exact memSafe_next h
  · exact memSafe_next (State.memInv_file (State.memInv_modTok h))

theorem State.memInv_reportStop {s : State} {j : Job} (h : Safety.MemInv s) : Safety.MemInv (s.reportStop j) := by
  unfold State.reportStop
  dsimp only
  split
  · exact h
  · exact State.memInv_foldl _ (fun s x h => State.memInv_send h) _ _ (State.memInv_modJob h)

theorem State.memInv_enterHalted {s : State} {j : Job} (h : Safety.MemInv s) : Safety.MemInv (s.enterHalted j) := by
  unfold State.enterHalted
  dsimp only
  split
  · exact State.memInv_msix (State.memInv_modJob h)
  · exact h

theorem State.memInv_stopJobs {s : State} (h : Safety.MemInv s) : Safety.MemInv s.stopJobs := by
  unfold State.stopJobs
  exact State.memInv_foldl _ (fun s x h => State.memInv_enterHalted h) _ _ (State.memInv_foldl _ (fun s x h => State.memInv_reportStop
      h) _ _ h)

theorem State.memInv_modRun {s : State} {core idx : Nat} {f : Run → Run} (h : Safety.MemInv s) : Safety.MemInv (s.modRun core idx f) :=
    by
  unfold State.modRun
  exact State.memInv_modEngRec h

theorem State.memInv_runRead {s : State} {core : Nat} {e : Eng} {x : RunSpec} {i src g : Nat} (h : Safety.MemInv s) : Safety.MemInv
    (s.runRead core e x i src g) := by
  unfold State.runRead
  dsimp only
  refine State.memInv_modRun ?_
  split
  · split
    · exact State.memInv_modEngRec (State.memInv_draw (State.memInv_readGrans h))
    · exact State.memInv_draw (State.memInv_readGrans h)
  · split
    · exact State.memInv_modEngRec (State.memInv_draw (State.memInv_readGrans h))
    · exact State.memInv_draw (State.memInv_readGrans h)

theorem State.memInv_afterBeat {s : State} {core : Nat} {io : RunIo} (h : Safety.MemInv s) : Safety.MemInv (s.afterBeat core io) := by
  unfold State.afterBeat
  exact State.memInv_countErrs (State.memInv_modEng h)

theorem State.memInv_runBeat {s : State} {core : Nat} {e : Eng} {x : RunSpec} {xs : List PipeCfg} {i : Nat} (h : Safety.MemInv s) :
    Safety.MemInv (s.runBeat core e x xs i) := by
  unfold State.runBeat
  exact State.memInv_modEngRec (State.memInv_afterBeat (State.memInv_draw h))

theorem State.memInv_runWrite {s : State} {core : Nat} {e : Eng} {x : RunSpec} {o : OutRow} {g : Nat} (h : Safety.MemInv s) :
    Safety.MemInv (s.runWrite core e x o g) := by
  unfold State.runWrite
  exact State.memInv_modRun (State.memInv_modTileIdx h)

theorem State.memInv_runStep {s : State} {core : Nat} {e : Eng} (h : Safety.MemInv s) : Safety.MemInv (s.runStep core e) := by
  unfold State.runStep
  dsimp only
  split
  · split
    · exact State.memInv_runRead h
    · exact State.memInv_runBeat h
  · split
    · split
      · split
        · exact State.memInv_runRead (State.memInv_draw h)
        · exact State.memInv_runBeat (State.memInv_draw h)
      · exact State.memInv_runWrite h
    · split
      · split
        · exact State.memInv_runRead (State.memInv_draw h)
        · exact State.memInv_runBeat (State.memInv_draw h)
      · exact State.memInv_modEngRec h

theorem State.memInv_bindUnits {s : State} {core zmask : Nat} (h : Safety.MemInv s) : Safety.MemInv (s.bindUnits core zmask) := by
  unfold State.bindUnits
  exact State.memInv_modEng h

theorem State.memInv_startRun {s : State} {core : Nat} {e : Eng} {stream : Bool} (h : Safety.MemInv s) : Safety.MemInv (s.startRun core
    e stream) := by
  unfold State.startRun
  dsimp only
  split
  · exact State.memInv_modEngRec h
  · refine State.memInv_modEngRec ?_
    split
    · exact State.memInv_modTileIdx (State.memInv_bindUnits h)
    · exact State.memInv_bindUnits h

theorem State.memInv_runTail {s : State} {core : Nat} {e : Eng} {cfg : Nat} (h : Safety.MemInv s) : Safety.MemInv (s.runTail core e
    cfg) := by
  unfold State.runTail
  dsimp only
  split
  · exact State.memInv_modEngRec (State.memInv_modTileIdx h)
  · exact State.memInv_modEngRec h

theorem State.memSafe_vrun {s : State} {p : Par} {cfg : Nat} {b out : Option Tok} {ops : List Tok} (h : Safety.MemInv s) : MemSafe
    (s.vrun p cfg b out ops) := by
  unfold State.vrun
  refine State.memSafe_cmdFiring h ?_
  intro a h
  dsimp only
  split
  · exact State.memInv_failing _ _ _ _ _ h
  · split
    · exact State.memInv_failing _ _ _ _ _ h
    · split
      · split
        · split
          · exact State.memInv_command _ _ _ h
          · exact State.memInv_failing _ _ _ _ _ h
        · exact State.memInv_failing _ _ _ _ _ h
      · split
        · exact State.memInv_command _ _ _ h
        · exact State.memInv_commandNew h

theorem memSafe_execVrunA {p : Par} {cfg : BitVec 4} {s : State} (h : Safety.MemInv s) : MemSafe (execVrunA p cfg s) := by
  unfold execVrunA
  exact State.memSafe_vrun h

theorem memSafe_execVrunAb {p : Par} {cfg : BitVec 4} {s : State} (h : Safety.MemInv s) : MemSafe (execVrunAb p cfg s) := by
  unfold execVrunAb
  exact State.memSafe_vrun h

theorem memSafe_execVrunAo {p : Par} {cfg : BitVec 4} {s : State} (h : Safety.MemInv s) : MemSafe (execVrunAo p cfg s) := by
  unfold execVrunAo
  exact State.memSafe_vrun h

theorem memSafe_execVrunAbo {p : Par} {cfg : BitVec 4} {s : State} (h : Safety.MemInv s) : MemSafe (execVrunAbo p cfg s) := by
  unfold execVrunAbo
  exact State.memSafe_vrun h

theorem State.memInv_queueRow {s : State} {core idx : Nat} {site : Site} {x : RowTok} (h : Safety.MemInv s) : Safety.MemInv (s.queueRow
    core idx site x) := by
  unfold State.queueRow
  exact State.memInv_modEngRec (State.memInv_modEng h)

theorem State.memInv_addRow {s : State} {core idx : Nat} {site : Site} {a : Tok} {b : Option Tok} {need : Option Shape} (h :
    Safety.MemInv s) : Safety.MemInv (s.addRow core idx site a b need) := by
  unfold State.addRow
  dsimp only
  split
  · exact State.memInv_queueRow h
  · exact State.memInv_askTile (State.memInv_queueRow h)

theorem State.memInv_rowPoison {s : State} {p : Par} {t : Tok} {b : Option Tok} {ops : List Tok} (h : Safety.MemInv s) : Safety.MemInv
    (s.rowPoison p t b ops) := by
  unfold State.rowPoison
  dsimp only
  split
  · exact State.memInv_queueRow (State.memInv_finish _ _ _ _ _ h)
  · exact State.memInv_finish _ _ _ _ _ h

theorem State.memSafe_vrunsFire {s : State} {p : Par} {cfg : Nat} {b : Option Tok} {ops : List Tok} (h : Safety.MemInv s) : MemSafe
    (s.vrunsFire p cfg b ops) := by
  unfold State.vrunsFire
  dsimp only
  split
  · split
    · exact memSafe_next (State.memInv_rowPoison h)
    · split
      · exact memSafe_next (State.memInv_addRow (State.memInv_finish _ _ _ _ _ h))
      · exact memSafe_next (State.memInv_finish _ _ _ _ _ h)
  · refine memSafe_next ?_
    split
    · exact State.memInv_rowPoison h
    · split
      · exact State.memInv_rowPoison h
      · split
        · exact State.memInv_rowPoison h
        · split
          · exact State.memInv_addRow (State.memInv_finish _ _ _ _ _ h)
          · exact State.memInv_addRow (State.memInv_askTile (State.memInv_command _ _ _ h))

theorem memSafe_execVruns {p : Par} {cfg : BitVec 4} {s : State} (h : Safety.MemInv s) : MemSafe (execVruns p cfg s) := by
  unfold execVruns
  exact State.memSafe_vrunsFire h

theorem memSafe_execVruns2 {p : Par} {cfg : BitVec 4} {s : State} (h : Safety.MemInv s) : MemSafe (execVruns2 p cfg s) := by
  unfold execVruns2
  exact State.memSafe_vrunsFire h

theorem memSafe_execVstat {p : Par} {s : State} (h : Safety.MemInv s) : MemSafe (execVstat p s) := by
  unfold execVstat
  exact State.memSafe_tileFiring h (fun a h a => State.memInv_finish _ _ _ _ _ h)

theorem memSafe_execVrunStart {core : Nat} {s : State} (h : Safety.MemInv s) : MemSafe (execVrunStart core s) := by
  unfold execVrunStart
  dsimp only
  split
  · exact memSafe_next h
  · split
    · exact memSafe_next (State.memInv_startRun (State.memInv_modEng (State.memInv_engStart _ _ _ h)))
    · split
      · exact memSafe_next (State.memInv_engStart _ _ _ h)
      · split
        · exact memSafe_next (State.memInv_modEngRec (State.memInv_modEngRec (State.memInv_engStart _ _ _ h)))
        · split
          · exact memSafe_next (State.memInv_runTail (State.memInv_modEngRec (State.memInv_engStart _ _ _ h)))
          · exact memSafe_next (State.memInv_startRun (State.memInv_modEng (State.memInv_modEngRec (State.memInv_engStart _ _ _ h))))
    · exact memSafe_next (State.memInv_engStart _ _ _ h)

theorem State.memInv_endVrun {s : State} {core : Nat} {e : Eng} {cfg : Nat} {b out : Option Tok} (h : Safety.MemInv s) : Safety.MemInv
    (s.endVrun core e cfg b out) := by
  unfold State.endVrun
  dsimp only
  split
  · exact State.memInv_failCommand (State.memInv_perfCore (State.memInv_raise h))
  · split
    · exact State.memInv_endCommand (State.memInv_perfCore (State.memInv_raise h))
    · split
      · exact State.memInv_endWithTile (State.memInv_modTileIdx (State.memInv_perfCore (State.memInv_raise h)))
      · refine State.memInv_endCommand ?_
        split
        · exact State.memInv_modTileIdx (State.memInv_perfCore (State.memInv_raise h))
        · exact State.memInv_perfCore (State.memInv_raise h)
      · exact State.memInv_endCommand (State.memInv_perfCore (State.memInv_raise h))

theorem State.memInv_forwardRest {s : State} {e : Eng} {rest : List RowTok} (h : Safety.MemInv s) : Safety.MemInv (s.forwardRest e
    rest) := by
  unfold State.forwardRest
  exact State.memInv_foldl _ (fun s x h => State.memInv_settle h) _ _ h

theorem State.memInv_endStream {s : State} {core : Nat} {e : Eng} {x : RowTok} {rest : List RowTok} (h : Safety.MemInv s) :
    Safety.MemInv (s.endStream core e x rest) := by
  unfold State.endStream
  dsimp only
  split
  · refine State.memInv_dropStream ?_
    refine State.memInv_forwardRest ?_
    refine State.memInv_settle ?_
    split
    · exact State.memInv_settle h
    · exact h
  · refine State.memInv_engEnd _ _ _ _ ?_
    refine State.memInv_freeStream ?_
    refine State.memInv_raise ?_
    refine State.memInv_forwardRest ?_
    refine State.memInv_settle ?_
    split
    · exact State.memInv_settle h
    · exact h

theorem State.memInv_endRow {s : State} {core : Nat} {e : Eng} {cfg : Nat} (h : Safety.MemInv s) : Safety.MemInv (s.endRow core e cfg)
    := by
  unfold State.endRow
  split
  · exact h
  · split
    · exact State.memInv_endStream h
    · dsimp only
      split
      · split
        · refine State.memInv_dropStream ?_
          refine State.memInv_modEng ?_
          split
          · exact State.memInv_settle (State.memInv_perfCore h)
          · split
            · exact State.memInv_settle (State.memInv_raise (State.memInv_perfCore h))
            · refine State.memInv_settle ?_
              split
              · exact State.memInv_modTileIdx (State.memInv_perfCore h)
              · exact State.memInv_perfCore h
        · refine State.memInv_modEng ?_
          split
          · exact State.memInv_settle (State.memInv_perfCore h)
          · split
            · exact State.memInv_settle (State.memInv_raise (State.memInv_perfCore h))
            · refine State.memInv_settle ?_
              split
              · exact State.memInv_modTileIdx (State.memInv_perfCore h)
              · exact State.memInv_perfCore h
      · refine State.memInv_modEng ?_
        split
        · exact State.memInv_settle (State.memInv_perfCore h)
        · split
          · exact State.memInv_settle (State.memInv_raise (State.memInv_perfCore h))
          · refine State.memInv_settle ?_
            split
            · exact State.memInv_modTileIdx (State.memInv_perfCore h)
            · exact State.memInv_perfCore h

theorem memSafe_execVrunComplete {core recd : Nat} {s : State} (h : Safety.MemInv s) : MemSafe (execVrunComplete core recd s) := by
  unfold execVrunComplete
  split
  · exact memSafe_next h
  · split
    · exact memSafe_next h
    · split
      · exact memSafe_next (State.memInv_endVrun h)
      · exact memSafe_next (State.memInv_endRow h)
      · exact memSafe_next (State.memInv_runStep h)
      · exact memSafe_next (State.memInv_runStep h)
      · exact memSafe_next h

theorem State.memInv_modPw {s : State} {core i : Nat} {f : WSlot → WSlot} (h : Safety.MemInv s) : Safety.MemInv (s.modPw core i f) := by
  unfold State.modPw
  exact State.memInv_modEng h

theorem State.memInv_beginLoad {s : State} {core : Nat} {e : Eng} {key : WKey} {scale : Option Word} (h : Safety.MemInv s) :
    Safety.MemInv (s.beginLoad core e key scale) := by
  unfold State.beginLoad
  dsimp only
  split
  · exact State.memInv_modEngRec (State.memInv_engStart _ _ _ h)
  · exact State.memInv_modEngRec (State.memInv_engStart _ _ _ h)

theorem State.memInv_wldStatus {s : State} {core ctx ws st : Nat} (h : Safety.MemInv s) : Safety.MemInv (s.wldStatus core ctx ws st) :=
    by
  unfold State.wldStatus
  exact State.memInv_modEng h

theorem State.memInv_attachWld {s : State} {core : Nat} {e : Eng} {ws : Nat} {key : WKey} {may : Bool} (h : Safety.MemInv s)
    (t : State) (he : s.attachWld core e ws key may = some t) : Safety.MemInv t := by
  unfold State.attachWld at he
  dsimp only at he
  split at he
  · cases he
    exact h
  · split at he
    · cases he
    · split at he <;> cases he
      exact h

theorem State.memInv_startWld {s : State} {core : Nat} {e : Eng} {ws : Nat} {key : WKey} (h : Safety.MemInv s) : Safety.MemInv
    (s.startWld core e ws key) := by
  unfold State.startWld
  dsimp only
  split
  · exact State.memInv_attachWld (State.memInv_unbind h) _ ‹_›
  · exact State.memInv_modEng (State.memInv_unbind h)

theorem memSafe_execWld {p : Par} {comp : Comp} {sx : BitVec 4} {bg : Geom} {ws : BitVec 2} {gen : BitVec 16} {s : State} (h :
    Safety.MemInv s) : MemSafe (execWld p comp sx bg ws gen s) := by
  unfold execWld
  refine State.memSafe_firing h ?_
  intro s h
  dsimp only
  split
  · exact State.memInv_failing _ _ _ _ _ (State.memInv_wldStatus h)
  · split
    · exact State.memInv_startWld (State.memInv_command _ _ _ h)
    · exact State.memInv_command _ _ _ h

theorem memSafe_execWfree {p : Par} {ws : BitVec 2} {s : State} (h : Safety.MemInv s) : MemSafe (execWfree p ws s) := by
  unfold execWfree
  exact State.memSafe_firing h (fun s h => State.memInv_finish _ _ _ _ _ (State.memInv_unbind h))

theorem State.memInv_placeWeight {s : State} {core ctx old : Nat} {w : WSlot} (h : Safety.MemInv s) (t : State)
    (e : s.placeWeight core ctx old w = some t) : Safety.MemInv t := by
  unfold State.placeWeight at e
  dsimp only at e
  split at e
  · cases e
    exact h
  · obtain ⟨i, -, rfl⟩ := Option.map_eq_some_iff.mp e
    exact h

theorem memSafe_execWeightSlotGrant {core : Nat} {s : State} (h : Safety.MemInv s) : MemSafe (execWeightSlotGrant core s) := by
  unfold execWeightSlotGrant
  split
  · exact memSafe_next h
  · split
    · exact memSafe_next (State.memInv_modEng h)
    · split
      · refine memSafe_next ?_
        refine State.memInv_modEng ?_
        exact State.memInv_placeWeight h _ ‹_›
      · exact memSafe_next h
  · split
    · exact memSafe_next (State.memInv_modEng h)
    · split
      · split
        · refine memSafe_next ?_
          refine State.memInv_modEng ?_
          exact State.memInv_attachWld h _ ‹_›
        · exact memSafe_next h
      · exact memSafe_next h

theorem memSafe_execWinfo {p : Par} {ws : BitVec 2} {s : State} (h : Safety.MemInv s) : MemSafe (execWinfo p ws s) := by
  unfold execWinfo
  exact State.memSafe_firing h (fun s h => State.memInv_finish _ _ _ _ _ h)

theorem memSafe_execMstat {p : Par} {what : BitVec 4} {clr : Bool} {s : State} (h : Safety.MemInv s) : MemSafe (execMstat p what clr s)
    := by
  unfold execMstat
  refine State.memSafe_tileFiring h ?_
  intro a h a
  dsimp only
  split
  · exact State.memInv_finish _ _ _ _ _ h
  · refine State.memInv_finish _ _ _ _ _ ?_
    split
    · exact State.memInv_modTileIdx h
    · exact h

theorem State.memInv_enterArb {s : State} {core idx : Nat} (h : Safety.MemInv s) : Safety.MemInv (s.enterArb core idx) := by
  unfold State.enterArb
  exact State.memInv_modEngRec h

theorem State.memInv_traceGroup {s : State} {members : List Nat} {rows core : Nat} (h : Safety.MemInv s) : Safety.MemInv (s.traceGroup
    members rows core) := by
  unfold State.traceGroup
  split
  · exact State.memInv_traceRec _ _ _ _ _ _ h
  · exact h

theorem State.memInv_startMatrix {s : State} {core : Nat} {members : List Nat} {group : Option Nat} (h : Safety.MemInv s) :
    Safety.MemInv (s.startMatrix core members group) := by
  unfold State.startMatrix
  dsimp only
  split
  · exact State.memInv_modEng (State.memInv_foldl _ (fun s x h => State.memInv_engStart _ _ _ h) _ _ h)
  · exact State.memInv_traceGroup (State.memInv_perfCore (State.memInv_modEng (State.memInv_foldl _ (fun s x h => State.memInv_engStart
      _ _ _ h) _ _ h)))

theorem State.memInv_closePan {s : State} {core id : Nat} (h : Safety.MemInv s) : Safety.MemInv (s.closePan core id) := by
  unfold State.closePan
  dsimp only
  split
  · split
    · exact State.memInv_startMatrix (State.memInv_modEng h)
    · exact State.memInv_modEng h
  · exact State.memInv_modEng h

theorem State.memInv_closeDue {s : State} {core : Nat} (h : Safety.MemInv s) : Safety.MemInv (s.closeDue core) := by
  unfold State.closeDue
  refine State.memInv_foldl _ ?_ _ _ h
  intro s x h
  split
  · exact State.memInv_closePan h
  · exact h

theorem State.memInv_enterPan {s : State} {core : Nat} {e : Eng} {hold : Nat} (h : Safety.MemInv s) : Safety.MemInv (s.enterPan core e
    hold) := by
  unfold State.enterPan
  dsimp only
  split
  · split
    · split
      · split
        · split
          · exact State.memInv_closePan (State.memInv_modEngRec (State.memInv_modEng (State.memInv_closePan (State.memInv_closeDue h))))
          · exact State.memInv_modEngRec (State.memInv_modEng (State.memInv_closePan (State.memInv_closeDue h)))
        · split
          · exact State.memInv_closePan (State.memInv_modEngRec (State.memInv_modEng (State.memInv_closePan (State.memInv_closeDue h))))
          · exact State.memInv_modEngRec (State.memInv_modEng (State.memInv_closePan (State.memInv_closeDue h)))
      · split
        · split
          · exact State.memInv_closePan (State.memInv_modEngRec (State.memInv_modEng (State.memInv_closeDue h)))
          · exact State.memInv_modEngRec (State.memInv_modEng (State.memInv_closeDue h))
        · split
          · exact State.memInv_closePan (State.memInv_modEngRec (State.memInv_modEng (State.memInv_closeDue h)))
          · exact State.memInv_modEngRec (State.memInv_modEng (State.memInv_closeDue h))
    · split
      · split
        · exact State.memInv_closePan (State.memInv_modEngRec (State.memInv_modEng (State.memInv_closeDue h)))
        · exact State.memInv_modEngRec (State.memInv_modEng (State.memInv_closeDue h))
      · split
        · exact State.memInv_closePan (State.memInv_modEngRec (State.memInv_modEng (State.memInv_closeDue h)))
        · exact State.memInv_modEngRec (State.memInv_modEng (State.memInv_closeDue h))
  · split
    · split
      · split
        · split
          · exact State.memInv_closePan (State.memInv_modEngRec (State.memInv_modEng (State.memInv_closePan (State.memInv_closeDue h))))
          · exact State.memInv_modEngRec (State.memInv_modEng (State.memInv_closePan (State.memInv_closeDue h)))
        · split
          · exact State.memInv_closePan (State.memInv_modEngRec (State.memInv_modEng (State.memInv_closePan (State.memInv_closeDue h))))
          · exact State.memInv_modEngRec (State.memInv_modEng (State.memInv_closePan (State.memInv_closeDue h)))
      · split
        · split
          · exact State.memInv_closePan (State.memInv_modEngRec (State.memInv_modEng (State.memInv_closeDue h)))
          · exact State.memInv_modEngRec (State.memInv_modEng (State.memInv_closeDue h))
        · split
          · exact State.memInv_closePan (State.memInv_modEngRec (State.memInv_modEng (State.memInv_closeDue h)))
          · exact State.memInv_modEngRec (State.memInv_modEng (State.memInv_closeDue h))
    · split
      · split
        · exact State.memInv_closePan (State.memInv_modEngRec (State.memInv_modEng (State.memInv_closeDue h)))
        · exact State.memInv_modEngRec (State.memInv_modEng (State.memInv_closeDue h))
      · split
        · exact State.memInv_closePan (State.memInv_modEngRec (State.memInv_modEng (State.memInv_closeDue h)))
        · exact State.memInv_modEngRec (State.memInv_modEng (State.memInv_closeDue h))

theorem State.memInv_offer {s : State} {core : Nat} {e : Eng} (h : Safety.MemInv s) : Safety.MemInv (s.offer core e) := by
  unfold State.offer
  split
  · dsimp only
    split
    · exact State.memInv_enterPan h
    · split
      · exact State.memInv_enterArb (State.memInv_modEngRec h)
      · exact State.memInv_modEngRec h
  · exact h

theorem State.memInv_mmaFail {s : State} {p : Par} {st : Nat} (h : Safety.MemInv s) : Safety.MemInv (s.mmaFail p st) := by
  unfold State.mmaFail
  exact State.memInv_finish _ _ _ _ _ h

theorem memSafe_execMma {p : Par} {pan zacc : Bool} {acol : BitVec 8} {ws : BitVec 2} {arow : BitVec 9} {koff : BitVec 5} {hold :
    BitVec 16} {s : State} (h : Safety.MemInv s) : MemSafe (execMma p pan zacc acol ws arow koff hold s) := by
  unfold execMma
  dsimp only
  split
  · exact memSafe_next (State.memInv_finish _ _ _ _ _ h)
  · exact memSafe_next (State.memInv_finish _ _ _ _ _ h)
  · split
    · exact memSafe_next (State.memInv_mmaFail h)
    · exact memSafe_next (State.memInv_mmaFail h)
    · split
      · exact memSafe_next (State.memInv_mmaFail h)
      · split
        · exact memSafe_next (State.memInv_mmaFail h)
        · split
          · exact memSafe_next (State.memInv_mmaFail h)
          · split
            · exact memSafe_next (State.memInv_offer (State.memInv_modPw (State.memInv_command _ _ _ h)))
            · exact memSafe_next (State.memInv_modPw (State.memInv_command _ _ _ h))

theorem State.memInv_addMmas {s : State} {core idx : Nat} {x : MmasRow} (h : Safety.MemInv s) : Safety.MemInv (s.addMmas core idx x) :=
    by
  unfold State.addMmas
  exact State.memInv_modEngRec (State.memInv_modEng (State.memInv_foldl _ (fun s x h => State.memInv_modPw h) _ _ h))

theorem State.memSafe_mmasFire {s : State} {p : Par} {ws : Nat} {mode : Mode} {sat : Bool} {oty : Ty} {r : Option Tok} {scale : Tok}
    {ops : List Tok} (h : Safety.MemInv s) : MemSafe (s.mmasFire p ws mode sat oty r scale ops) := by
  unfold State.mmasFire
  dsimp only
  split
  · split
    · split
      · exact memSafe_next (State.memInv_addMmas (State.memInv_finish _ _ _ _ _ h))
      · exact memSafe_next (State.memInv_finish _ _ _ _ _ h)
    · split
      · exact memSafe_next (State.memInv_addMmas (State.memInv_finish _ _ _ _ _ h))
      · exact memSafe_next (State.memInv_finish _ _ _ _ _ h)
  · split
    · exact memSafe_next (State.memInv_addMmas (State.memInv_finish _ _ _ _ _ h))
    · exact memSafe_next (State.memInv_addMmas (State.memInv_askTile (State.memInv_command _ _ _ h)))

theorem memSafe_execMmas {p : Par} {mode : Mode} {sat : Bool} {oty : Ty} {ws : BitVec 2} {s : State} (h : Safety.MemInv s) : MemSafe
    (execMmas p mode sat oty ws s) := by
  unfold execMmas
  exact State.memSafe_mmasFire h

theorem memSafe_execMmasImm {p : Par} {mode : Mode} {sat : Bool} {oty : Ty} {ws : BitVec 2} {imm : BitVec 32} {s : State} (h :
    Safety.MemInv s) : MemSafe (execMmasImm p mode sat oty ws imm s) := by
  unfold execMmasImm
  exact State.memSafe_mmasFire h

theorem State.memInv_drainTo {s : State} {p : Par} {t : Tile} {scale : Tok} {mode : Mode} {sat clr : Bool} {oty : Ty} {target : Dest}
    {ops : List Tok} (h : Safety.MemInv s) : Safety.MemInv (s.drainTo p t scale mode sat clr oty target ops) := by
  unfold State.drainTo
  split
  · exact State.memInv_failing _ _ _ _ _ h
  · exact State.memInv_commandNew h

theorem State.memInv_noAcc {s : State} {p : Par} {ops : List Tok} (h : Safety.MemInv s) : Safety.MemInv (s.noAcc p ops) := by
  unfold State.noAcc
  exact State.memInv_finish _ _ _ _ _ h

theorem memSafe_execAdrain {p : Par} {mode : Mode} {sat clr : Bool} {oty : Ty} {s : State} (h : Safety.MemInv s) : MemSafe (execAdrain
    p mode sat clr oty s) := by
  unfold execAdrain
  refine State.memSafe_tileFiring h ?_
  intro a h a
  split
  · exact State.memInv_noAcc h
  · exact State.memInv_drainTo h

theorem memSafe_execAdrainImm {p : Par} {mode : Mode} {sat clr : Bool} {oty : Ty} {imm : BitVec 32} {s : State} (h : Safety.MemInv s) :
    MemSafe (execAdrainImm p mode sat clr oty imm s) := by
  unfold execAdrainImm
  refine State.memSafe_tileFiring h ?_
  intro a h a
  split
  · exact State.memInv_noAcc h
  · exact State.memInv_drainTo h

theorem memSafe_execAdrainSteer {p : Par} {mode : Mode} {sat clr : Bool} {tbl : BitVec 6} {oty : Ty} {s : State} (h : Safety.MemInv s)
    : MemSafe (execAdrainSteer p mode sat clr tbl oty s) := by
  unfold execAdrainSteer
  refine State.memSafe_tileFiring h ?_
  intro a h a
  dsimp only
  split
  · exact State.memInv_noAcc h
  · split
    · exact State.memInv_failing _ _ _ _ _ h
    · exact State.memInv_drainTo h

theorem memSafe_execAdrainSteerImm {p : Par} {mode : Mode} {sat clr : Bool} {tbl : BitVec 6} {oty : Ty} {imm : BitVec 32} {s : State}
    (h : Safety.MemInv s) : MemSafe (execAdrainSteerImm p mode sat clr tbl oty imm s) := by
  unfold execAdrainSteerImm
  refine State.memSafe_tileFiring h ?_
  intro a h a
  dsimp only
  split
  · exact State.memInv_noAcc h
  · split
    · exact State.memInv_failing _ _ _ _ _ h
    · exact State.memInv_drainTo h

theorem memSafe_execAclr {p : Par} {s : State} (h : Safety.MemInv s) : MemSafe (execAclr p s) := by
  unfold execAclr
  refine State.memSafe_tileCmdFiring h ?_
  intro a h a
  split
  · exact State.memInv_failing _ _ _ _ _ h
  · exact State.memInv_enterArb (State.memInv_command _ _ _ h)

theorem State.memInv_dropHolds {s : State} {core : Nat} {slots : List (Nat × WKey)} (h : Safety.MemInv s) : Safety.MemInv (s.dropHolds
    core slots) := by
  unfold State.dropHolds
  exact State.memInv_modEng h

theorem State.memInv_holdNew {s : State} {core : Nat} {old new : List (Nat × WKey)} (h : Safety.MemInv s) : Safety.MemInv (s.holdNew
    core old new) := by
  unfold State.holdNew
  refine State.memInv_foldl _ ?_ _ _ h
  intro s x h
  split
  · exact h
  · exact State.memInv_modPw h

theorem State.memInv_regainSlots {s : State} {core : Nat} (h : Safety.MemInv s) : Safety.MemInv (s.regainSlots core) := by
  unfold State.regainSlots
  refine State.memInv_foldl _ ?_ _ _ h
  intro s x h
  split
  · exact h
  · exact State.memInv_foldl _ (fun s x h => State.memInv_modEngRec (State.memInv_holdNew h)) _ _ (State.memInv_modEngRec
      (State.memInv_holdNew h))

theorem State.memInv_promote {s : State} {core : Nat} (h : Safety.MemInv s) : Safety.MemInv (s.promote core) := by
  unfold State.promote
  refine State.memInv_foldl _ ?_ _ _ h
  intro s x h
  split
  · exact h
  · split
    · split
      · exact State.memInv_enterArb h
      · exact h
    · split
      · split
        · exact State.memInv_enterArb h
        · exact h
      · exact h
    · exact h

theorem State.memInv_failWaiters {s : State} {core slot st : Nat} (h : Safety.MemInv s) : Safety.MemInv (s.failWaiters core slot st) :=
    by
  unfold State.failWaiters
  dsimp only
  refine State.memInv_modPw ?_
  refine State.memInv_foldl _ ?_ _ _ h
  intro s x h
  split
  · split
    · exact h
    · refine State.memInv_modEng ?_
      split
      · exact State.memInv_modTileIdx h
      · exact h
  · exact State.memInv_modEngRec h
  · exact h

theorem State.memInv_loaded {s : State} {core slot : Nat} {rows : List (List Nat)} {scales : List Byte} (h : Safety.MemInv s) :
    Safety.MemInv (s.loaded core slot rows scales) := by
  unfold State.loaded
  exact State.memInv_promote (State.memInv_modEng (State.memInv_modEng h))

theorem State.memInv_loadFailed {s : State} {core slot : Nat} {e : Eng} {st : Nat} (h : Safety.MemInv s) : Safety.MemInv (s.loadFailed
    core slot e st) := by
  unfold State.loadFailed
  exact State.memInv_modPw (State.memInv_failWaiters (State.memInv_modEng (State.memInv_regainSlots h)))

theorem memSafe_execWldLoadComplete {core slot : Nat} {s : State} (h : Safety.MemInv s) : MemSafe (execWldLoadComplete core slot s) :=
    by
  unfold execWldLoadComplete
  split
  · exact memSafe_next h
  · split
    · exact memSafe_next h
    · split
      · exact memSafe_next h
      · split
        · split
          · exact memSafe_next (State.memInv_beginLoad h)
          · split
            · exact memSafe_next (State.memInv_loadFailed h)
            · split
              · exact memSafe_next h
              · split
                · exact memSafe_next (State.memInv_loadFailed h)
                · exact memSafe_next (State.memInv_loaded h)
        · exact memSafe_next h

theorem State.memInv_panRefresh {s : State} {core : Nat} (h : Safety.MemInv s) : Safety.MemInv (s.panRefresh core) := by
  unfold State.panRefresh
  refine State.memInv_foldl _ ?_ _ _ h
  intro s x h
  split
  · exact State.memInv_closePan h
  · exact h

theorem State.memInv_setPrio {s : State} {id : Nat} {f : CtxRegs → CtxRegs} (h : Safety.MemInv s) : Safety.MemInv (s.setPrio id f) := by
  unfold State.setPrio
  dsimp only
  split
  · exact State.memInv_refile (State.memInv_modRegs h)
  · exact State.memInv_foldl _ (fun s x h => State.memInv_panRefresh h) _ _ (State.memInv_refile (State.memInv_modRegs h))

theorem memSafe_execEngineArbitration {core : Nat} {s : State} (h : Safety.MemInv s) : MemSafe (execEngineArbitration core s) := by
  unfold execEngineArbitration
  dsimp only
  split
  · exact memSafe_next (State.memInv_promote (State.memInv_panRefresh (State.memInv_regainSlots h)))
  · split
    · exact memSafe_next (State.memInv_promote (State.memInv_panRefresh (State.memInv_regainSlots h)))
    · exact memSafe_next (State.memInv_startMatrix (State.memInv_promote (State.memInv_panRefresh (State.memInv_regainSlots h))))

theorem State.memInv_strikeRow {s : State} {core : Nat} {checked : Bool} (h : Safety.MemInv s) : Safety.MemInv (s.strikeRow core
    checked).2 := by
  unfold State.strikeRow
  dsimp only
  split
  · exact State.memInv_modCoreRegs h
  · exact h

theorem State.memInv_issueRow {s : State} {core : Nat} {slots : List (Nat × WKey)} {checked : Bool} (h : Safety.MemInv s) :
    Safety.MemInv (s.issueRow core slots checked).2 := by
  unfold State.issueRow
  dsimp only
  split
  · split
    · exact State.memInv_strikeRow (State.memInv_countErrs h)
    · exact State.memInv_strikeRow (State.memInv_countErrs h)
  · split
    · exact State.memInv_strikeRow (State.memInv_countErrs (State.memInv_countUe (State.memInv_foldl _ (fun s x h => State.memInv_modPw
        h) _ _ h)))
    · exact State.memInv_strikeRow (State.memInv_countErrs (State.memInv_countUe (State.memInv_foldl _ (fun s x h => State.memInv_modPw
        h) _ _ h)))

theorem State.memInv_drainRow {s : State} {core : Nat} {e : Eng} {t : Nat} {mode : Mode} {sat clr : Bool} {oty : Ty} (h : Safety.MemInv
    s) : Safety.MemInv (s.drainRow core e t mode sat clr oty) := by
  unfold State.drainRow
  split
  · dsimp only
    split
    · exact State.memInv_modEngRec (State.memInv_readRow h)
    · refine State.memInv_modEngRec ?_
      split
      · exact State.memInv_modTileIdx (State.memInv_modTileIdx (State.memInv_readRow h))
      · exact State.memInv_modTileIdx (State.memInv_readRow h)
  · exact h

theorem State.memInv_countRow {s : State} {core : Nat} (h : Safety.MemInv s) : Safety.MemInv (s.countRow core) := by
  unfold State.countRow
  split
  · exact h
  · exact State.memInv_modEng h

theorem memSafe_execMmaRowIssue {core : Nat} {s : State} (h : Safety.MemInv s) : MemSafe (execMmaRowIssue core s) := by
  unfold execMmaRowIssue
  split
  · exact memSafe_next h
  · dsimp only
    split
    · exact memSafe_next (State.memInv_countRow h)
    · split
      · split
        · exact memSafe_next (State.memInv_countRow h)
        · exact memSafe_next (State.memInv_modEng (State.memInv_perfCore (State.memInv_issueRow (State.memInv_countRow h))))
      · split
        · exact memSafe_next (State.memInv_countRow h)
        · split
          · exact memSafe_next (State.memInv_countRow h)
          · exact memSafe_next (State.memInv_modEng (State.memInv_perfCore (State.memInv_issueRow (State.memInv_countRow h))))
      · exact memSafe_next (State.memInv_drainRow (State.memInv_countRow h))
      · split
        · exact memSafe_next (State.memInv_countRow h)
        · exact memSafe_next (State.memInv_modEngRec (State.memInv_modTileIdx (State.memInv_countRow h)))
      · exact memSafe_next (State.memInv_countRow h)

theorem State.memInv_rowStatus {s : State} {core : Nat} {l : Tok} {r koff struck : Nat} {slots : List (Nat × WKey)} {acc : Option (Tile
    × Nat)} (h : Safety.MemInv s) : Safety.MemInv (s.rowStatus core l r koff struck slots acc).2 := by
  unfold State.rowStatus
  split
  · exact State.memInv_countResidue h
  · split
    · exact h
    · dsimp only
      split
      · split
        · split
          · exact State.memInv_readRow (State.memInv_readRows h)
          · split
            · split
              · with_reducible exact State.memInv_countResidue (State.memInv_with rfl (State.memInv_readRow (State.memInv_readRows h)))
              · with_reducible exact State.memInv_with rfl (State.memInv_readRow (State.memInv_readRows h))
            · split
              · exact State.memInv_countResidue (State.memInv_readRow (State.memInv_readRows h))
              · exact State.memInv_readRow (State.memInv_readRows h)
        · split
          · exact State.memInv_readRows h
          · split
            · split
              · with_reducible exact State.memInv_countResidue (State.memInv_with rfl (State.memInv_readRows h))
              · with_reducible exact State.memInv_with rfl (State.memInv_readRows h)
            · split
              · exact State.memInv_countResidue (State.memInv_readRows h)
              · exact State.memInv_readRows h
      · split
        · split
          · exact State.memInv_readRow h
          · split
            · split
              · with_reducible exact State.memInv_countResidue (State.memInv_with rfl (State.memInv_readRow h))
              · with_reducible exact State.memInv_with rfl (State.memInv_readRow h)
            · split
              · exact State.memInv_countResidue (State.memInv_readRow h)
              · exact State.memInv_readRow h
        · split
          · exact h
          · split
            · split
              · with_reducible exact State.memInv_countResidue (State.memInv_with rfl h)
              · exact h
            · split
              · exact State.memInv_countResidue h
              · exact h

theorem State.memInv_endMma {s : State} {core : Nat} {e : Eng} (h : Safety.MemInv s) : Safety.MemInv (s.endMma core e) := by
  unfold State.endMma
  exact State.memInv_endCommand (State.memInv_dropHolds h)

theorem State.memInv_commitMma {s : State} {core : Nat} {e : Eng} {row struck arow acol koff : Nat} {zacc : Bool} (h : Safety.MemInv s)
    : Safety.MemInv (s.commitMma core e row struck arow acol koff zacc) := by
  unfold State.commitMma
  split
  · exact h
  · dsimp only
    split
    · split
      · refine State.memInv_endMma ?_
        refine State.memInv_modEngRec ?_
        split
        · exact State.memInv_modTileIdx (State.memInv_rowStatus h)
        · exact State.memInv_modTileIdx (State.memInv_modTileIdx (State.memInv_rowStatus h))
      · refine State.memInv_modEngRec ?_
        split
        · exact State.memInv_modTileIdx (State.memInv_rowStatus h)
        · exact State.memInv_modTileIdx (State.memInv_modTileIdx (State.memInv_rowStatus h))
    · refine State.memInv_modEngRec ?_
      split
      · exact State.memInv_modTileIdx (State.memInv_rowStatus h)
      · exact State.memInv_modTileIdx (State.memInv_modTileIdx (State.memInv_rowStatus h))

theorem State.memInv_commitMmas {s : State} {core : Nat} {e : Eng} {struck : Nat} {mode : Mode} {sat : Bool} {oty : Ty} (h :
    Safety.MemInv s) : Safety.MemInv (s.commitMmas core e struck mode sat oty) := by
  unfold State.commitMmas
  split
  · exact h
  · dsimp only
    split
    · exact State.memInv_askTile (State.memInv_modEngRec (State.memInv_dropHolds (State.memInv_rowStatus h)))
    · exact State.memInv_modEngRec (State.memInv_dropHolds (State.memInv_rowStatus h))

theorem memSafe_execMmaRowCommit {core : Nat} {s : State} (h : Safety.MemInv s) : MemSafe (execMmaRowCommit core s) := by
  unfold execMmaRowCommit
  split
  · exact memSafe_next h
  · dsimp only
    split
    · exact memSafe_next (State.memInv_modEng h)
    · split
      · exact memSafe_next (State.memInv_commitMma (State.memInv_modEng h))
      · exact memSafe_next (State.memInv_promote (State.memInv_commitMmas (State.memInv_modEng h)))
      · exact memSafe_next (State.memInv_modEng h)

theorem memSafe_execPanDeadline {core : Nat} {s : State} (h : Safety.MemInv s) : MemSafe (execPanDeadline core s) := by
  unfold execPanDeadline
  exact memSafe_next (State.memInv_closeDue (State.memInv_panRefresh h))

theorem State.memInv_endWld {s : State} {core : Nat} {e : Eng} {ws : Nat} (h : Safety.MemInv s) : Safety.MemInv (s.endWld core e ws) :=
    by
  unfold State.endWld
  exact State.memInv_endCommand (State.memInv_wldStatus h)

theorem State.memInv_endMmas {s : State} {core : Nat} {e : Eng} {r : MmasRow} {rest : List MmasRow} (h : Safety.MemInv s) :
    Safety.MemInv (s.endMmas core e r rest) := by
  unfold State.endMmas
  dsimp only
  split
  · exact State.memInv_dropStream (State.memInv_forwardRest (State.memInv_settle h))
  · exact State.memInv_engEnd _ _ _ _ (State.memInv_freeStream (State.memInv_forwardRest (State.memInv_settle h)))

theorem State.memInv_leaveMmas {s : State} {core : Nat} {e : Eng} {r : MmasRow} {rest : List MmasRow} {t : Tok} {mine : List Tok} (h :
    Safety.MemInv s) : Safety.MemInv (s.leaveMmas core e r rest t mine) := by
  unfold State.leaveMmas
  dsimp only
  split
  · refine State.memInv_promote ?_
    split
    · exact State.memInv_dropStream (State.memInv_modEngRec (State.memInv_settle (State.memInv_dropHolds h)))
    · exact State.memInv_modEngRec (State.memInv_settle (State.memInv_dropHolds h))
  · exact State.memInv_modEngRec (State.memInv_settle (State.memInv_dropHolds h))

theorem State.memInv_endMmasRow {s : State} {core : Nat} {e : Eng} (h : Safety.MemInv s) : Safety.MemInv (s.endMmasRow core e) := by
  unfold State.endMmasRow
  split
  · exact h
  · dsimp only
    split
    · exact h
    · split
      · exact State.memInv_endMmas h
      · split
        · exact State.memInv_leaveMmas h
        · split
          · exact State.memInv_leaveMmas (State.memInv_modTileIdx h)
          · exact h

theorem State.memInv_endDrain {s : State} {core : Nat} {e : Eng} {target : Dest} (h : Safety.MemInv s) : Safety.MemInv (s.endDrain core
    e target) := by
  unfold State.endDrain
  dsimp only
  split
  · exact h
  · split
    · exact State.memInv_endCommand h
    · exact State.memInv_endCommand h

theorem memSafe_execEngineCommandComplete {core recd : Nat} {s : State} (h : Safety.MemInv s) : MemSafe (execEngineCommandComplete core
    recd s) := by
  unfold execEngineCommandComplete
  split
  · exact memSafe_next h
  · split
    · exact memSafe_next h
    · split
      · exact memSafe_next (State.memInv_runTileCommand h)
      · split
        · exact memSafe_next h
        · exact memSafe_next (State.memInv_runTileCommand h)
      · split
        · exact memSafe_next h
        · exact memSafe_next (State.memInv_runTileCommand h)
      · split
        · exact memSafe_next (State.memInv_endWld h)
        · exact memSafe_next h
      · split
        · exact memSafe_next (State.memInv_endMma h)
        · exact memSafe_next h
      · exact memSafe_next (State.memInv_endMmasRow h)
      · split
        · exact memSafe_next (State.memInv_endDrain h)
        · exact memSafe_next h
      · split
        · exact memSafe_next h
        · dsimp only
          refine memSafe_next ?_
          refine State.memInv_endCommand ?_
          split
          · exact State.memInv_modTileIdx h
          · exact h
      · exact memSafe_next h

theorem State.memInv_pipeOp {s : State} {p : Par} {op : Nat} {pipe : BitVec 4} {n : Tok} {ops : List Tok} (h : Safety.MemInv s) :
    Safety.MemInv (s.pipeOp p op pipe n ops) := by
  unfold State.pipeOp
  dsimp only
  split
  · exact State.memInv_failing _ _ _ _ _ h
  · exact State.memInv_fireReq h

theorem memSafe_execPclm {p : Par} {pipe : BitVec 4} {s : State} (h : Safety.MemInv s) : MemSafe (execPclm p pipe s) := by
  unfold execPclm
  exact State.memSafe_memFiring h (fun a h => State.memInv_pipeOp h)

theorem memSafe_execPclmImm {p : Par} {pipe : BitVec 4} {imm : BitVec 32} {s : State} (h : Safety.MemInv s) : MemSafe (execPclmImm p
    pipe imm s) := by
  unfold execPclmImm
  exact State.memSafe_memFiring h (fun a h => State.memInv_pipeOp h)

theorem memSafe_execPcmt {p : Par} {pipe : BitVec 4} {s : State} (h : Safety.MemInv s) : MemSafe (execPcmt p pipe s) := by
  unfold execPcmt
  exact State.memSafe_memFiring h (fun a h => State.memInv_pipeOp h)

theorem memSafe_execPcmtImm {p : Par} {pipe : BitVec 4} {imm : BitVec 32} {s : State} (h : Safety.MemInv s) : MemSafe (execPcmtImm p
    pipe imm s) := by
  unfold execPcmtImm
  exact State.memSafe_memFiring h (fun a h => State.memInv_pipeOp h)

theorem memSafe_execPawt {p : Par} {pipe : BitVec 4} {s : State} (h : Safety.MemInv s) : MemSafe (execPawt p pipe s) := by
  unfold execPawt
  exact State.memSafe_memFiring h (fun a h => State.memInv_pipeOp h)

theorem memSafe_execPawtImm {p : Par} {pipe : BitVec 4} {imm : BitVec 32} {s : State} (h : Safety.MemInv s) : MemSafe (execPawtImm p
    pipe imm s) := by
  unfold execPawtImm
  exact State.memSafe_memFiring h (fun a h => State.memInv_pipeOp h)

theorem memSafe_execPret {p : Par} {pipe : BitVec 4} {s : State} (h : Safety.MemInv s) : MemSafe (execPret p pipe s) := by
  unfold execPret
  exact State.memSafe_memFiring h (fun a h => State.memInv_pipeOp h)

theorem memSafe_execPretImm {p : Par} {pipe : BitVec 4} {imm : BitVec 32} {s : State} (h : Safety.MemInv s) : MemSafe (execPretImm p
    pipe imm s) := by
  unfold execPretImm
  exact State.memSafe_memFiring h (fun a h => State.memInv_pipeOp h)

theorem memSafe_execPinfo {p : Par} {pipe : BitVec 4} {s : State} (h : Safety.MemInv s) : MemSafe (execPinfo p pipe s) := by
  unfold execPinfo
  exact State.memSafe_memFiring h (fun a h => State.memInv_pipeOp h)

theorem State.memInv_logAt {s : State} {l : Loc} {site : Site} {pkg job tag st : Nat} {result : Word} (h : Safety.MemInv s) :
    Safety.MemInv (s.logAt l site pkg job tag st result) := by
  unfold State.logAt
  split
  · exact h
  · exact State.memInv_modMs (fun m => rfl) h

theorem State.memInv_qput {s : State} {p : Par} {queue : BitVec 6} {args : Option Word} {ops : List Tok} (h : Safety.MemInv s) :
    Safety.MemInv (s.qput p queue args ops) := by
  unfold State.qput
  exact State.memInv_orFail h (fun a => State.memInv_fireReq h)

theorem memSafe_execQput {p : Par} {queue : BitVec 6} {s : State} (h : Safety.MemInv s) : MemSafe (execQput p queue s) := by
  unfold execQput
  exact State.memSafe_memFiring h (fun a h => State.memInv_qput h)

theorem memSafe_execQputArgs {p : Par} {queue : BitVec 6} {s : State} (h : Safety.MemInv s) : MemSafe (execQputArgs p queue s) := by
  unfold execQputArgs
  exact State.memSafe_memFiring h (fun a h => State.memInv_qput h)

theorem State.memInv_endQput {s : State} {r : Req} {st : Nat} {result : Word} (h : Safety.MemInv s) : Safety.MemInv (s.endQput r st
    result) := by
  unfold State.endQput
  dsimp only
  refine State.memInv_modReq ?_
  split
  · exact State.memInv_logAt h
  · exact h

theorem State.memInv_enqueue {s : State} {r : Req} (h : Safety.MemInv s) : Safety.MemInv (s.enqueue r) := by
  unfold State.enqueue
  dsimp only
  split
  · exact State.memInv_endQput h
  · split
    · exact State.memInv_endQput h
    · exact State.memInv_visit h

theorem State.memInv_endSlot {s : State} {n id st : Nat} (h : Safety.MemInv s) : Safety.MemInv (s.endSlot n id st) := by
  unfold State.endSlot
  split
  · exact h
  · dsimp only
    split
    · exact State.memInv_endQput h
    · exact State.memInv_endQput (State.memInv_modCtx (State.memInv_modDisp h))

theorem State.memInv_modVf {s : State} {vf : Nat} {f : Vf → Vf} (h : Safety.MemInv s) : Safety.MemInv (s.modVf vf f) := by
  unfold State.modVf
  exact State.memInv_modPlat h

theorem State.memInv_writeFault {s : State} {vf : Nat} (h : Safety.MemInv s) : Safety.MemInv (s.writeFault vf) := by
  unfold State.writeFault
  dsimp only
  split
  · exact h
  · split
    · exact h
    · exact State.memInv_visit h

theorem State.memInv_endFault {s : State} {vf st : Nat} (h : Safety.MemInv s) : Safety.MemInv (s.endFault vf st) := by
  unfold State.endFault
  split
  · exact h
  · exact State.memInv_writeFault (State.memInv_msix (State.memInv_modVf h))

theorem State.memInv_endHost {s : State} {vf : Nat} {write : Bool} {r : Req} (h : Safety.MemInv s) : Safety.MemInv (s.endHost vf write
    r) := by
  unfold State.endHost
  split
  · exact h
  · split
    · exact State.memInv_send h
    · exact State.memInv_send h

theorem memSafe_execQwait {p : Par} {s : State} (h : Safety.MemInv s) : MemSafe (execQwait p s) := by
  unfold execQwait
  refine State.memSafe_firing h ?_
  intro s h
  dsimp only
  split
  · split
    · exact State.memInv_finish _ _ _ _ _ h
    · exact State.memInv_finish _ _ _ _ _ (State.memInv_modCtx h)
  · split
    · exact State.memInv_finish _ _ _ _ _ h
    · exact State.memInv_finish _ _ _ _ _ (State.memInv_modCtx h)

theorem memSafe_execQwaitComplete {i : Nat} {s : State} (h : Safety.MemInv s) : MemSafe (execQwaitComplete i s) := by
  unfold execQwaitComplete
  split
  · exact memSafe_next h
  · split
    · exact memSafe_next (State.memInv_emitAll (State.memInv_modCtx h))
    · exact memSafe_next h

theorem State.memInv_writePart {s : State} {l : Loc} {bs : List Byte} (h : Safety.MemInv s) : Safety.MemInv (s.writePart l bs).2 := by
  unfold State.writePart
  split
  · split
    · exact State.memInv_writePhys _ _ _ _ _ h
    · exact State.memInv_send h
  · split
    · exact h
    · exact State.memInv_modTileIdx h
  · exact State.memInv_send h
  · exact h

theorem State.memInv_pipeEvent {s : State} {core : Nat} {l : Loc} {op q n : Nat} (h : Safety.MemInv s) : Safety.MemInv (s.pipeEvent
    core l op q n).2 := by
  unfold State.pipeEvent
  dsimp only
  split
  · exact State.memInv_readPart h
  · split
    · exact State.memInv_readPart h
    · split
      · exact State.memInv_readPart h
      · exact State.memInv_readPart h
      · dsimp only
        split
        · split
          · exact State.memInv_writePhys _ _ _ _ _ (State.memInv_readPart h)
          · exact State.memInv_readPart h
        · refine State.memInv_writePhys _ _ _ _ _ ?_
          split
          · exact State.memInv_writePhys _ _ _ _ _ (State.memInv_readPart h)
          · exact State.memInv_readPart h

theorem State.memInv_event {s : State} {core : Nat} {l : Loc} {n : Nat} {op : PieceOp} (h : Safety.MemInv s) : Safety.MemInv (s.event
    core l n op).2 := by
  unfold State.event
  dsimp only
  split
  · split
    · exact h
    · split
      · exact State.memInv_readPart h
      · exact State.memInv_writePart h
      · exact State.memInv_pipeEvent h
      · split
        · exact State.memInv_readPart h
        · split
          · exact State.memInv_readPart h
          · split
            · exact State.memInv_readPart h
            · exact State.memInv_writePart (State.memInv_readPart h)
  · split
    · exact h
    · split
      · exact State.memInv_readPart h
      · exact State.memInv_writePart h
      · exact State.memInv_pipeEvent h
      · split
        · exact State.memInv_readPart h
        · split
          · exact State.memInv_readPart h
          · split
            · exact State.memInv_readPart h
            · exact State.memInv_writePart (State.memInv_readPart h)

theorem State.memInv_splitEvent {s : State} {core : Nat} {op : PieceOp} {ps : List (Loc × Nat × Nat × PieceOp)} (h : Safety.MemInv s) :
    Safety.MemInv (s.splitEvent core op ps).2 := by
  unfold State.splitEvent
  dsimp only
  split
  · exact State.memInv_foldl_triple (fun r x h => State.memInv_readPart h) h
  · split
    · exact State.memInv_foldl_triple (fun r x h => State.memInv_readPart h) h
    · split
      · exact State.memInv_foldl_triple (fun r x h => State.memInv_readPart h) h
      · exact State.memInv_foldl_pair (fun r x h => State.memInv_writePart h) (State.memInv_foldl_triple (fun r x h =>
          State.memInv_readPart h) h)

theorem State.memInv_spansEvent {s : State} {core : Nat} {ps : List (Loc × Nat × Nat × PieceOp)} (h : Safety.MemInv s) : Safety.MemInv
    (s.spansEvent core ps).2 := by
  unfold State.spansEvent
  split
  · exact h
  · split
    · exact State.memInv_splitEvent h
    · exact State.memInv_foldl_pair (fun r x h => State.memInv_event h) (State.memInv_event h)
  · exact State.memInv_event h

theorem memInv_homeHits {us : List WatchAt} {who : Doer} {key kind a n : Nat} {report : WatchAt → Word × Word → State → State}
    {acc : List (Nat × Nat) × State} (hr : ∀ u x s, Safety.MemInv s → Safety.MemInv (report u x s)) (h : Safety.MemInv acc.2) :
    Safety.MemInv (homeHits us who key kind a n report acc).2 := by
  unfold homeHits
  refine State.memInv_foldl_pair (fun r x h => ?_) h
  split
  · exact h
  · exact hr _ _ _ h

theorem State.memInv_homeWatch {s : State} {who : Doer} {kind : Nat} {l : Loc} {n : Nat} {hits : List (Nat × Nat)} (h : Safety.MemInv
    s) : Safety.MemInv (s.homeWatch who kind l n hits).2 := by
  unfold State.homeWatch
  split
  · dsimp only
    refine State.memInv_foldl_pair (fun r x h => memInv_homeHits (fun u x s h => State.memInv_send h) h) ?_
    split
    · exact State.memInv_foldl_pair (fun r x h => memInv_homeHits (fun u x s h => State.memInv_trap h) h) h
    · exact memInv_homeHits (fun u x s h => State.memInv_send h) (State.memInv_foldl_pair (fun r x h => memInv_homeHits (fun u x s h =>
        State.memInv_trap h) h) h)
  · exact h

theorem State.memInv_homeWatches {s : State} {who : Doer} {kind : Nat} {ps : List (Loc × Nat × Nat × PieceOp)} {hits : List (Nat ×
    Nat)} (h : Safety.MemInv s) : Safety.MemInv (s.homeWatches who kind ps hits).2 := by
  unfold State.homeWatches
  exact State.memInv_foldl_pair (fun r x h => State.memInv_homeWatch h) h

theorem State.memInv_settleReq {s : State} {id : Nat} (h : Safety.MemInv s) : Safety.MemInv (s.settleReq id) := by
  unfold State.settleReq
  split
  · exact h
  · split
    · split
      · exact h
      · exact State.memInv_modReq (State.memInv_modMs (fun m => rfl) h)
    · split
      · exact h
      · split
        · split
          · exact State.memInv_dropReq h
          · exact State.memInv_send (State.memInv_dropReq h)
        · split
          · split
            · dsimp only
              split
              · refine State.memInv_dropReq ?_
                split
                · split
                  · exact h
                  · exact State.memInv_qerr h
                · exact h
              · refine State.memInv_msix ?_
                refine State.memInv_dropReq ?_
                split
                · split
                  · exact h
                  · exact State.memInv_qerr h
                · exact h
            · split
              · exact h
              · exact State.memInv_modReq h
          · split
            · exact State.memInv_endSlot (State.memInv_dropReq h)
            · exact State.memInv_endFault (State.memInv_dropReq h)
            · exact State.memInv_endHost (State.memInv_dropReq h)
            · exact State.memInv_modReq h
            · split
              · exact State.memInv_modReq h
              · exact State.memInv_dropReq h
          · split
            · exact State.memInv_modReq h
            · exact State.memInv_dropReq h
          · split
            · exact h
            · exact State.memInv_modReq h

theorem State.memInv_landReach {s : State} {r : Req} {x : Reach} {w size pkg : Nat} (h : Safety.MemInv s) : Safety.MemInv (s.landReach
    r x w size pkg) := by
  unfold State.landReach
  dsimp only
  split
  · exact State.memInv_settleReq (State.memInv_modReq h)
  · split
    · exact State.memInv_settleReq (State.memInv_modReq h)
    · exact State.memInv_sendOut (State.memInv_modReq h)

theorem State.memInv_reachOn {s : State} {r : Req} {x : Reach} (h : Safety.MemInv s) : Safety.MemInv (s.reachOn r x) := by
  unfold State.reachOn
  split
  · exact State.memInv_landReach h
  · dsimp only
    split
    · exact State.memInv_modReq (State.memInv_walkOn h)
    · refine State.memInv_landReach ?_
      split
      · exact State.memInv_fillTlb (State.memInv_walkOn h)
      · exact State.memInv_walkOn h
    · exact State.memInv_settleReq (State.memInv_modReq (State.memInv_walkOn h))
    · exact State.memInv_settleReq (State.memInv_modReq (State.memInv_walkOn h))

theorem State.memInv_performPiece {s : State} {r : Req} {k : Nat} {fromQueue : Bool} (h : Safety.MemInv s) : Safety.MemInv
    (s.performPiece r k fromQueue) := by
  unfold State.performPiece
  split
  · exact h
  · dsimp only
    split
    · exact State.memInv_modReq (State.memInv_modMs (fun m => rfl) h)
    · split
      · split
        · split
          · exact h
          · exact State.memInv_modReq (State.memInv_modMs (fun m => rfl) (State.memInv_spansEvent h))
        · split
          · refine State.memInv_settleReq ?_
            refine State.memInv_modReq ?_
            split
            · exact State.memInv_draw (State.memInv_spansEvent h)
            · exact State.memInv_homeWatches (State.memInv_draw (State.memInv_spansEvent h))
          · refine State.memInv_settleReq ?_
            refine State.memInv_modReq ?_
            split
            · refine State.memInv_logAt ?_
              split
              · exact State.memInv_draw (State.memInv_spansEvent h)
              · exact State.memInv_homeWatches (State.memInv_draw (State.memInv_spansEvent h))
            · split
              · exact State.memInv_draw (State.memInv_spansEvent h)
              · exact State.memInv_homeWatches (State.memInv_draw (State.memInv_spansEvent h))
      · split
        · split
          · exact h
          · exact State.memInv_modReq (State.memInv_modMs (fun m => rfl) (State.memInv_spansEvent h))
        · split
          · refine State.memInv_settleReq ?_
            refine State.memInv_modReq ?_
            split
            · exact State.memInv_draw (State.memInv_spansEvent h)
            · exact State.memInv_homeWatches (State.memInv_draw (State.memInv_spansEvent h))
          · refine State.memInv_settleReq ?_
            refine State.memInv_modReq ?_
            split
            · refine State.memInv_logAt ?_
              split
              · exact State.memInv_draw (State.memInv_spansEvent h)
              · exact State.memInv_homeWatches (State.memInv_draw (State.memInv_spansEvent h))
            · split
              · exact State.memInv_draw (State.memInv_spansEvent h)
              · exact State.memInv_homeWatches (State.memInv_draw (State.memInv_spansEvent h))

theorem State.memInv_answerLogged {s : State} {r : Req} (h : Safety.MemInv s) (t : State) (e : s.answerLogged r = some t) :
    Safety.MemInv t := by
  unfold State.answerLogged at e
  split at e
  · split at e <;> cases e
    exact State.memInv_settleReq (State.memInv_modReq h)
  · cases e

theorem State.memInv_modMove {s : State} {core recd m : Nat} {f : Move → Move} (h : Safety.MemInv s) : Safety.MemInv (s.modMove core
    recd m f) := by
  unfold State.modMove
  exact State.memInv_modEngRec h

theorem State.memInv_failMove {s : State} {core recd m st : Nat} (h : Safety.MemInv s) : Safety.MemInv (s.failMove core recd m st) := by
  unfold State.failMove
  exact State.memInv_copyPump (State.memInv_failCopy (State.memInv_modEngRec h))

theorem State.memInv_moveRead {s : State} {core : Nat} {e : Eng} {m : Nat} {mv : Move} {k : Nat} (h : Safety.MemInv s) : Safety.MemInv
    (s.moveRead core e m mv k) := by
  unfold State.moveRead
  split
  · exact h
  · dsimp only
    split
    · split
      · exact h
      · exact State.memInv_modEngRec (State.memInv_sendPart h)
    · split
      · split
        · exact State.memInv_modEngRec (State.memInv_modMove (State.memInv_spansEvent h))
        · split
          · exact State.memInv_failMove (State.memInv_modMove (State.memInv_spansEvent h))
          · exact State.memInv_modEngRec (State.memInv_modMove (State.memInv_spansEvent h))
      · split
        · exact State.memInv_modEngRec (State.memInv_modMove (State.memInv_homeWatches (State.memInv_spansEvent h)))
        · split
          · exact State.memInv_failMove (State.memInv_modMove (State.memInv_homeWatches (State.memInv_spansEvent h)))
          · exact State.memInv_modEngRec (State.memInv_modMove (State.memInv_homeWatches (State.memInv_spansEvent h)))

theorem State.memInv_endMove {s : State} {core recd m : Nat} (h : Safety.MemInv s) : Safety.MemInv (s.endMove core recd m) := by
  unfold State.endMove
  exact State.memInv_copyPump (State.memInv_modEngRec h)

theorem State.memInv_moveWrite {s : State} {core : Nat} {e : Eng} {m : Nat} {mv : Move} (h : Safety.MemInv s) : Safety.MemInv
    (s.moveWrite core e m mv) := by
  unfold State.moveWrite
  dsimp only
  split
  · exact State.memInv_modMove (State.memInv_sendPart h)
  · split
    · split
      · split
        · exact State.memInv_modMove (State.memInv_logAt (State.memInv_event h))
        · split
          · exact State.memInv_failMove (State.memInv_event h)
          · exact State.memInv_endMove (State.memInv_event h)
      · split
        · exact State.memInv_modMove (State.memInv_logAt (State.memInv_event h))
        · split
          · exact State.memInv_failMove (State.memInv_event h)
          · exact State.memInv_endMove (State.memInv_event h)
    · split
      · split
        · exact State.memInv_modMove (State.memInv_logAt (State.memInv_homeWatch (State.memInv_event h)))
        · split
          · exact State.memInv_failMove (State.memInv_homeWatch (State.memInv_event h))
          · exact State.memInv_endMove (State.memInv_homeWatch (State.memInv_event h))
      · split
        · exact State.memInv_modMove (State.memInv_logAt (State.memInv_homeWatch (State.memInv_event h)))
        · split
          · exact State.memInv_failMove (State.memInv_homeWatch (State.memInv_event h))
          · exact State.memInv_endMove (State.memInv_homeWatch (State.memInv_event h))

theorem State.memInv_moveBack {s : State} {core : Nat} {e : Eng} {r : Req} (h : Safety.MemInv s) : Safety.MemInv (s.moveBack core e r)
    := by
  unfold State.moveBack
  dsimp only
  split
  · split
    · exact State.memInv_failMove (State.memInv_dropReq h)
    · split
      · exact State.memInv_endMove (State.memInv_dropReq h)
      · exact State.memInv_modEngRec (State.memInv_dropReq h)
  · split
    · exact State.memInv_copyPump (State.memInv_failCopy (State.memInv_dropReq h))
    · exact State.memInv_modEngRec (State.memInv_dropReq h)

theorem memSafe_execMemoryRequestPerform {i : Nat} {s : State} (h : Safety.MemInv s) : MemSafe (execMemoryRequestPerform i s) := by
  unfold execMemoryRequestPerform
  split
  · exact memSafe_next h
  · split
    · exact memSafe_next h
    · split
      · refine memSafe_next ?_
        exact State.memInv_answerLogged h _ ‹_›
      · exact memSafe_next (State.memInv_performPiece h)
  · split
    · exact memSafe_next h
    · exact memSafe_next (State.memInv_enqueue h)
  · split
    · exact memSafe_next h
    · split
      · exact memSafe_next h
      · exact memSafe_next (State.memInv_reachOn h)
  · split
    · exact memSafe_next h
    · split
      · exact memSafe_next h
      · exact memSafe_next (State.memInv_moveRead h)
  · split
    · exact memSafe_next h
    · split
      · exact memSafe_next h
      · exact memSafe_next (State.memInv_moveWrite h)
  · split
    · exact memSafe_next (State.memInv_moveBack h)
    · exact memSafe_next h

theorem memSafe_execBarwRelease {i : Nat} {s : State} (h : Safety.MemInv s) : MemSafe (execBarwRelease i s) := by
  unfold execBarwRelease
  split
  · exact memSafe_next h
  · split
    · dsimp only
      refine memSafe_next ?_
      refine State.memInv_settleReq ?_
      refine State.memInv_modReq ?_
      split
      · exact State.memInv_spansEvent h
      · exact State.memInv_homeWatches (State.memInv_spansEvent h)
    · exact memSafe_next h

theorem memSafe_execAcqGrant {i : Nat} {s : State} (h : Safety.MemInv s) : MemSafe (execAcqGrant i s) := by
  unfold execAcqGrant
  split
  · exact memSafe_next h
  · refine memSafe_next ?_
    split
    · exact State.memInv_answerLogged h _ ‹_›
    · exact State.memInv_performPiece h

theorem memSafe_execPipeWaitGrant {i : Nat} {s : State} (h : Safety.MemInv s) : MemSafe (execPipeWaitGrant i s) := by
  unfold execPipeWaitGrant
  split
  · exact memSafe_next h
  · exact memSafe_next (State.memInv_performPiece h)

theorem State.memInv_endLdt {s : State} {r : Req} (h : Safety.MemInv s) : Safety.MemInv (s.endLdt r) := by
  unfold State.endLdt
  dsimp only
  split
  · exact State.memInv_emitAll (State.memInv_dropReq h)
  · split
    · exact State.memInv_settle (State.memInv_dropReq h)
    · split
      · exact State.memInv_modReq h
      · exact State.memInv_modReq (State.memInv_modTileIdx (State.memInv_draw h))
      · exact State.memInv_settle (State.memInv_dropReq h)

theorem State.memInv_respond {s : State} {r : Req} (h : Safety.MemInv s) : Safety.MemInv (s.respond r) := by
  unfold State.respond
  split
  · exact State.memInv_endLdt h
  · exact State.memInv_settle (State.memInv_dropReq h)

theorem memSafe_execMemoryResponse {i : Nat} {s : State} (h : Safety.MemInv s) : MemSafe (execMemoryResponse i s) := by
  unfold execMemoryResponse
  split
  · exact memSafe_next h
  · split
    · exact memSafe_next (State.memInv_respond h)
    · exact memSafe_next (State.memInv_modReq h)

theorem State.memInv_timeOut {s : State} {r : Req} (h : Safety.MemInv s) : Safety.MemInv (s.timeOut r) := by
  unfold State.timeOut
  dsimp only
  split
  · split
    · exact State.memInv_settleReq (State.memInv_modReq h)
    · split
      · exact State.memInv_sendOut (State.memInv_modReq h)
      · exact h
  · split
    · exact State.memInv_settleReq (State.memInv_modReq h)
    · exact h

theorem memSafe_execRemoteTimeout {i : Nat} {s : State} (h : Safety.MemInv s) : MemSafe (execRemoteTimeout i s) := by
  unfold execRemoteTimeout
  split
  · exact memSafe_next (State.memInv_timeOut h)
  · exact memSafe_next h

theorem memSafe_execRetentionWindowExpiry {i : Nat} {s : State} (h : Safety.MemInv s) : MemSafe (execRetentionWindowExpiry i s) := by
  unfold execRetentionWindowExpiry
  split
  · exact memSafe_next h
  · split
    · exact memSafe_next (State.memInv_modMs (fun m => rfl) h)
    · exact memSafe_next h

theorem memSafe_execTransportError {core recd : Nat} {s : State} (h : Safety.MemInv s) : MemSafe (execTransportError core recd s) := by
  unfold execTransportError
  split
  · exact memSafe_next h
  · split
    · exact memSafe_next (State.memInv_failMove h)
    · exact memSafe_next h

theorem State.memInv_replayReq {s : State} {r : Req} (h : Safety.MemInv s) : Safety.MemInv (s.replayReq r) := by
  unfold State.replayReq
  dsimp only
  split
  · exact State.memInv_settleReq (State.memInv_modReq (State.memInv_modMs (fun m => rfl) h))
  · split
    · exact State.memInv_settleReq (State.memInv_modReq (State.memInv_modMs (fun m => rfl) h))
    · exact State.memInv_settleReq (State.memInv_modReq (State.memInv_modMs (fun m => rfl) h))

theorem State.memInv_replayMove {s : State} {core : Nat} {e : Eng} {m : Nat} {mv : Move} (h : Safety.MemInv s) : Safety.MemInv
    (s.replayMove core e m mv) := by
  unfold State.replayMove
  split
  · dsimp only
    split
    · exact State.memInv_failMove (State.memInv_modMs (fun m => rfl) h)
    · exact State.memInv_endMove (State.memInv_modMs (fun m => rfl) h)
  · split
    · exact State.memInv_failMove h
    · exact State.memInv_modMove h

theorem memSafe_execReplayRequest {i : Nat} {s : State} (h : Safety.MemInv s) : MemSafe (execReplayRequest i s) := by
  unfold execReplayRequest
  dsimp only
  split
  · exact memSafe_next (State.memInv_replayReq h)
  · split
    · exact memSafe_next (State.memInv_replayMove h)
    · exact memSafe_next h

theorem State.memInv_modPkt {s : State} {no : Nat} {f : Pkt → Pkt} (h : Safety.MemInv s) : Safety.MemInv (s.modPkt no f) := by
  unfold State.modPkt
  exact State.memInv_modDisp h

theorem State.memInv_endPacket {s : State} {p : Pkt} {st : Nat} (h : Safety.MemInv s) : Safety.MemInv (s.endPacket p st) := by
  unfold State.endPacket
  with_reducible exact State.memInv_with rfl (State.memInv_tellParent (State.memInv_modDisp (State.memInv_modMs (fun m => rfl)
      (State.memInv_dispArrive h))))

theorem memSafe_execContextCompletion {ctx : Nat} {s : State} (h : Safety.MemInv s) : MemSafe (execContextCompletion ctx s) := by
  unfold execContextCompletion
  split
  · exact memSafe_next h
  · split
    · exact memSafe_next (State.memInv_endContext h)
    · exact memSafe_next h

theorem memSafe_execFreeze {ids : List Nat} {s : State} (h : Safety.MemInv s) : MemSafe (execFreeze ids s) := by
  unfold execFreeze
  exact memSafe_next (State.memInv_stopJobs (State.memInv_freeze h))

theorem memSafe_execFreezeMark {node : Nat} {s : State} (h : Safety.MemInv s) : MemSafe (execFreezeMark node s) := by
  unfold execFreezeMark
  with_reducible exact memSafe_next (State.memInv_with rfl h)

theorem State.memInv_drainMark {s : State} {id core node : Nat} (h : Safety.MemInv s) : Safety.MemInv (s.drainMark id core node) := by
  unfold State.drainMark
  exact State.memInv_modMs (fun m => rfl) (State.memInv_modCtx h)

theorem memSafe_execDrainMarker {core node : Nat} {s : State} (h : Safety.MemInv s) : MemSafe (execDrainMarker core node s) := by
  unfold execDrainMarker
  refine memSafe_next ?_
  refine State.memInv_foldl _ ?_ _ _ h
  intro s x h
  split
  · dsimp only
    split
    · exact State.memInv_send (State.memInv_drainMark h)
    · exact State.memInv_drainMark h
  · exact h

theorem memSafe_execFence {core node : Nat} {s : State} (h : Safety.MemInv s) : MemSafe (execFence core node s) := by
  unfold execFence
  with_reducible exact memSafe_next (State.memInv_stopJobs (State.memInv_with rfl h))

theorem State.memInv_unsettle {s : State} {c : Ctx} (h : Safety.MemInv s) : Safety.MemInv (s.unsettle c) := by
  unfold State.unsettle
  exact State.memInv_modCtx (State.memInv_foldl _ (fun s x h => State.memInv_modEng h) _ _ (State.memInv_modMs (fun m => rfl) h))

theorem memSafe_execSettleTimeout {ctx : Nat} {s : State} (h : Safety.MemInv s) : MemSafe (execSettleTimeout ctx s) := by
  unfold execSettleTimeout
  split
  · exact memSafe_next h
  · dsimp only
    split
    · split
      · exact memSafe_next (State.memInv_stopJobs (State.memInv_unsettle h))
      · exact memSafe_next h
    · split
      · exact memSafe_next (State.memInv_stopJobs (State.memInv_unsettle h))
      · exact memSafe_next h

theorem State.memInv_releaseOn {s : State} {id core : Nat} (h : Safety.MemInv s) : Safety.MemInv (s.releaseOn id core) := by
  unfold State.releaseOn
  exact State.memInv_modEng (State.memInv_modCore (State.memInv_foldl _ (fun s x h => State.memInv_modTile h) _ _ h))

theorem State.memInv_saveLog {s : State} {c : Ctx} {log : List Logged} (h : Safety.MemInv s) : Safety.MemInv (s.saveLog c log) := by
  unfold State.saveLog
  split
  · exact h
  · split
    · exact h
    · exact State.memInv_writePhys _ _ _ _ _ h

theorem State.memInv_collectParts {s : State} {id : Nat} (h : Safety.MemInv s) : Safety.MemInv (s.collectParts id) := by
  unfold State.collectParts
  dsimp only
  refine State.memInv_modMs (fun m => rfl) ?_
  refine State.memInv_foldl _ ?_ _ _ h
  intro s x h
  split
  · exact State.memInv_moveBack h
  · exact h

theorem State.memInv_saveCtx {s : State} {c : Ctx} (h : Safety.MemInv s) : Safety.MemInv (s.saveCtx c) := by
  unfold State.saveCtx
  with_reducible exact State.memInv_with rfl (State.memInv_modCtx (State.memInv_writePhys _ _ _ _ _ (State.memInv_modMs (fun m => rfl)
      (State.memInv_foldl _ (fun s x h => State.memInv_releaseOn h) _ _ (State.memInv_saveLog (State.memInv_with rfl
      (State.memInv_collectParts h)))))))

theorem memSafe_execContextSave {ctx : Nat} {s : State} (h : Safety.MemInv s) : MemSafe (execContextSave ctx s) := by
  unfold execContextSave
  split
  · split
    · exact memSafe_next (State.memInv_endPacket (State.memInv_saveCtx h))
    · exact memSafe_next h
  · exact memSafe_next h

theorem State.memInv_thawOn {s : State} {id core fz : Nat} (h : Safety.MemInv s) : Safety.MemInv (s.thawOn id core fz) := by
  unfold State.thawOn
  exact State.memInv_modFrm (State.memInv_modQueues h)

theorem State.memInv_resumeEngines {s : State} {id core : Nat} (h : Safety.MemInv s) : Safety.MemInv (s.resumeEngines id core) := by
  unfold State.resumeEngines
  dsimp only
  refine State.memInv_promote ?_
  refine State.memInv_copyPump ?_
  refine State.memInv_foldl _ ?_ _ _ (State.memInv_modEng h)
  intro s x h
  split
  · split
    · exact State.memInv_startWld h
    · exact h
  · split
    · exact State.memInv_offer h
    · exact h
  · exact h

theorem State.memInv_endWatchWaits {s : State} {id : Nat} (h : Safety.MemInv s) : Safety.MemInv (s.endWatchWaits id) := by
  unfold State.endWatchWaits
  split
  · exact h
  · split
    · exact h
    · exact State.memInv_foldl _ (fun s x h => State.memInv_emitAll h) _ _ (State.memInv_modCtx h)

theorem State.memInv_resumeCtx {s : State} {id : Nat} (h : Safety.MemInv s) : Safety.MemInv (s.resumeCtx id) := by
  unfold State.resumeCtx
  split
  · exact h
  · dsimp only
    refine State.memInv_foldl _ (fun s x h => State.memInv_traceRec _ _ _ _ _ _ h) _ _ ?_
    refine State.memInv_foldl _ (fun s x h => State.memInv_resumeEngines h) _ _ ?_
    refine State.memInv_endWatchWaits ?_
    refine State.memInv_foldl _ ?_ _ _ (State.memInv_foldl _ (fun s x h => State.memInv_thawOn h) _ _ (State.memInv_modCtx
        (State.memInv_collectParts h)))
    intro s x h
    split
    · split
      · refine State.memInv_sendHeld ?_
        refine State.memInv_modReq ?_
        split
        · exact State.memInv_nextTag h
        · exact h
      · split
        · refine State.memInv_sendOut ?_
          refine State.memInv_modReq ?_
          split
          · exact State.memInv_nextTag h
          · exact h
        · refine State.memInv_modReq ?_
          split
          · exact State.memInv_nextTag h
          · exact h
    · split
      · refine State.memInv_sendHeld ?_
        refine State.memInv_modReq ?_
        split
        · exact State.memInv_nextTag h
        · exact h
      · split
        · refine State.memInv_sendOut ?_
          refine State.memInv_modReq ?_
          split
          · exact State.memInv_nextTag h
          · exact h
        · refine State.memInv_modReq ?_
          split
          · exact State.memInv_nextTag h
          · exact h

theorem State.memInv_beginRestore {s : State} {c : Ctx} {seats : List (Nat × Nat)} (h : Safety.MemInv s) : Safety.MemInv
    (s.beginRestore c seats) := by
  unfold State.beginRestore
  dsimp only
  refine State.memInv_foldl _ ?_ _ _ (State.memInv_foldl _ (fun s x h => State.memInv_modEng h) _ _ (State.memInv_foldl _ (fun s x h =>
      State.memInv_modFrm h) _ _ (State.memInv_modCtx h)))
  intro s x h
  split
  · exact State.memInv_restoreTile h
  · exact State.memInv_askTile h

theorem State.memInv_restoreHist {s : State} {core : Nat} {h : Hist} (hs : Safety.MemInv s) : Safety.MemInv (s.restoreHist core h) := by
  unfold State.restoreHist
  dsimp only
  split
  · exact State.memInv_modRegs hs
  · split
    · exact State.memInv_modCore hs
    · exact State.memInv_histClear (State.memInv_modCore hs)

theorem State.memInv_restoreOn {s : State} {c : Ctx} {ws : List (Nat × Nat × Nat)} {core : Nat} (h : Safety.MemInv s) : Safety.MemInv
    (s.restoreOn c ws core) := by
  unfold State.restoreOn
  exact State.memInv_foldl _ (fun s x h => State.memInv_restoreHist h) _ _ (State.memInv_modMs (fun m => rfl) (State.memInv_modCtx
      (State.memInv_modEng (State.memInv_foldl _ (fun s x h => State.memInv_modTok h) _ _ (State.memInv_modCore h)))))

theorem State.memInv_handSlots {s : State} {x : Saved} (h : Safety.MemInv s) : Safety.MemInv (s.handSlots x) := by
  unfold State.handSlots
  exact State.memInv_foldl _ (fun s x h => State.memInv_modEng h) _ _ h

theorem State.memInv_releaseTrap {s : State} {t : Trap} (h : Safety.MemInv s) : Safety.MemInv (s.releaseTrap t) := by
  unfold State.releaseTrap
  dsimp only
  split
  · exact State.memInv_trapReturn (State.memInv_modCtx h)
  · exact State.memInv_settleTrap (State.memInv_modCtx h)

theorem State.memInv_releaseHeld {s : State} {id : Nat} (h : Safety.MemInv s) : Safety.MemInv (s.releaseHeld id) := by
  unfold State.releaseHeld
  split
  · exact h
  · exact State.memInv_foldl _ (fun s x h => State.memInv_releaseTrap h) _ _ h

theorem State.memInv_finishRestore {s : State} {c : Ctx} (h : Safety.MemInv s) : Safety.MemInv (s.finishRestore c) := by
  unfold State.finishRestore
  dsimp only
  split
  · exact State.memInv_modCtx (State.memInv_modRegion (State.memInv_modMs (fun m => rfl) (State.memInv_foldl _ (fun s x h =>
      State.memInv_restoreOn h) _ _ (State.memInv_handSlots h))))
  · exact State.memInv_releaseHeld (State.memInv_resumeCtx (State.memInv_modRegion (State.memInv_modMs (fun m => rfl)
      (State.memInv_foldl _ (fun s x h => State.memInv_restoreOn h) _ _ (State.memInv_handSlots h)))))

theorem memSafe_execContextRestore {ctx : Nat} {s : State} (h : Safety.MemInv s) : MemSafe (execContextRestore ctx s) := by
  unfold execContextRestore
  split
  · split
    · exact memSafe_next h
    · split
      · exact memSafe_next (State.memInv_endPacket (State.memInv_abandon h))
      · split
        · exact memSafe_next h
        · exact memSafe_next (State.memInv_endPacket (State.memInv_finishRestore h))
  · exact memSafe_next h

theorem State.memInv_countFired {s : State} {core : Nat} (h : Safety.MemInv s) : Safety.MemInv (s.countFired core) := by
  unfold State.countFired
  split
  · exact h
  · exact State.memInv_modTok h

theorem memSafe_execTrap {p : Par} {code : BitVec 16} {s : State} (h : Safety.MemInv s) : MemSafe (execTrap p code s) := by
  unfold execTrap
  exact State.memSafe_firing h (fun s h => State.memInv_trap (State.memInv_finish _ _ _ _ _ h))

theorem State.memInv_pumpCtx {s : State} {id : Nat} (h : Safety.MemInv s) : Safety.MemInv (s.pumpCtx id) := by
  unfold State.pumpCtx
  split
  · exact h
  · exact State.memInv_foldl _ (fun s x h => State.memInv_copyPump h) _ _ h

theorem memSafe_execTret {p : Par} {s : State} (h : Safety.MemInv s) : MemSafe (execTret p s) := by
  unfold execTret
  dsimp only
  split
  · exact memSafe_next (State.memInv_pumpCtx (State.memInv_leaveHandler (State.memInv_finish _ _ _ _ _ h)))
  · exact memSafe_next (State.memInv_release (State.memInv_record (State.memInv_countRoute (State.memInv_finish _ _ _ _ _ h))))

theorem memSafe_execHandlerEntry {ctx : Nat} {s : State} (h : Safety.MemInv s) : MemSafe (execHandlerEntry ctx s) := by
  unfold execHandlerEntry
  exact memSafe_next (State.memInv_pumpCtx (State.memInv_enterHandler h))

theorem State.memInv_raiseTimer {s : State} {core : Nat} (h : Safety.MemInv s) : Safety.MemInv (s.raiseTimer core) := by
  unfold State.raiseTimer
  dsimp only
  split
  · with_reducible exact State.memInv_with rfl (State.memInv_modCoreRegs h)
  · with_reducible exact State.memInv_modJob (State.memInv_with rfl (State.memInv_modCoreRegs h))

theorem memSafe_execTimer {core : Nat} {s : State} (h : Safety.MemInv s) : MemSafe (execTimer core s) := by
  unfold execTimer
  dsimp only
  split
  · exact memSafe_next (State.memInv_raiseTimer h)
  · exact memSafe_next h

theorem memSafe_execOrphan {core ctx : Nat} {s : State} (h : Safety.MemInv s) : MemSafe (execOrphan core ctx s) := by
  unfold execOrphan
  split
  · exact memSafe_next h
  · split
    · exact memSafe_next h
    · split
      · exact memSafe_next (State.memInv_trap (State.memInv_modCtx h))
      · exact memSafe_next h

theorem memSafe_execGetc {p : Par} {idx : BitVec 12} {s : State} (h : Safety.MemInv s) : MemSafe (execGetc p idx s) := by
  unfold execGetc
  exact State.memSafe_firing h (fun s h => State.memInv_finish _ _ _ _ _ h)

theorem State.memSafe_setReg {s : State} {p : Par} {f : Word → State → Except Nat State} (h : Safety.MemInv s)
    (hf : ∀ v s t, Safety.MemInv s → f v s = .ok t → Safety.MemInv t) : MemSafe (s.setReg p f) := by
  unfold State.setReg
  refine State.memSafe_memFiring h fun s h => ?_
  split
  · exact State.memInv_failing _ _ _ _ _ h
  · exact State.memInv_finish _ _ _ _ _ (hf _ _ _ h ‹_›)

theorem State.memInv_writeReg {s : State} {site : Site} {i : Nat} {v : Word} (h : Safety.MemInv s) : Safety.MemInv (s.writeReg site i
    v) := by
  unfold State.writeReg
  split
  · exact State.memInv_setPrio h
  · exact State.memInv_modRegs h
  · exact State.memInv_modRegs h
  · exact State.memInv_modRegs h
  · with_reducible exact State.memInv_with rfl (State.memInv_modRegs h)
  · exact State.memInv_modCoreRegs h
  · exact h

theorem memSafe_execSetc {p : Par} {idx : BitVec 12} {s : State} (h : Safety.MemInv s) : MemSafe (execSetc p idx s) :=
  State.memSafe_setReg h fun _ _ _ h e => Except.ok.inj e ▸ State.memInv_writeReg h

theorem memSafe_execSetcFpflags {p : Par} {s : State} (h : Safety.MemInv s) : MemSafe (execSetcFpflags p s) :=
  State.memSafe_setReg h fun _ _ _ h e => Except.ok.inj e ▸ State.memInv_modRegs h

theorem ok_of_ite_error {c : Prop} [Decidable c] {st : Nat} {t u : State} (e : (if c then .error st else .ok u) = Except.ok t) : u = t
    := by
  split at e
  · cases e
  · exact Except.ok.inj e
theorem State.memInv_writeWatch {s : State} {site : Site} {i : Nat} {v : Word} (h : Safety.MemInv s) (t : State)
    (e : s.writeWatch site i v = .ok t) : Safety.MemInv t := by
  unfold State.writeWatch at e
  dsimp only at e
  split at e
  · split at e
    · obtain rfl := Except.ok.inj e
      exact h
    · cases e
  · obtain rfl := Except.ok.inj e
    exact h
  · obtain rfl := ok_of_ite_error e
    exact h

theorem State.memInv_tellWatch {s : State} {p : Par} {n : Nat} {old new : List Nat} (h : Safety.MemInv s) : Safety.MemInv (s.tellWatch
    p n old new) := by
  unfold State.tellWatch
  dsimp only
  split
  · exact State.memInv_foldl _ (fun s x h => State.memInv_send h) _ _ (State.memInv_modMs (fun m => rfl) h)
  · exact State.memInv_modCtx (State.memInv_foldl _ (fun s x h => State.memInv_send h) _ _ (State.memInv_modMs (fun m => rfl) h))

theorem memSafe_execSetcWatch {p : Par} {idx : BitVec 12} {s : State} (h : Safety.MemInv s) : MemSafe (execSetcWatch p idx s) := by
  unfold execSetcWatch
  refine State.memSafe_memFiring h ?_
  intro a h
  dsimp only
  split
  · exact State.memInv_failing _ _ _ _ _ h
  · refine State.memInv_finish _ _ _ _ _ ?_
    split
    · exact State.memInv_writeWatch h _ ‹_›
    · refine State.memInv_tellWatch ?_
      exact State.memInv_writeWatch h _ ‹_›

theorem memSafe_execSetcTimerCmp {p : Par} {s : State} (h : Safety.MemInv s) : MemSafe (execSetcTimerCmp p s) := by
  refine State.memSafe_setReg h fun v s t h e => ?_
  obtain rfl := Except.ok.inj e
  split
  · exact State.memInv_raiseTimer (State.memInv_modCoreRegs h)
  · exact State.memInv_modCoreRegs h

theorem memSafe_execSetcRasInject {p : Par} {s : State} (h : Safety.MemInv s) : MemSafe (execSetcRasInject p s) := by
  refine State.memSafe_setReg h fun v s t h e => ?_
  obtain rfl := Except.ok.inj e
  split
  · exact State.memInv_modCoreRegs h
  · exact h

theorem memSafe_execTime {p : Par} {s : State} (h : Safety.MemInv s) : MemSafe (execTime p s) := by
  unfold execTime
  exact State.memSafe_firing h (fun s h => State.memInv_finish _ _ _ _ _ h)

theorem memSafe_execTrace {p : Par} {tag : BitVec 16} {s : State} (h : Safety.MemInv s) : MemSafe (execTrace p tag s) := by
  unfold execTrace
  exact State.memSafe_memFiring h (fun a h => State.memInv_finish _ _ _ _ _ (State.memInv_traceRec _ _ _ _ _ _ h))

theorem memSafe_execTrace2 {p : Par} {tag : BitVec 16} {s : State} (h : Safety.MemInv s) : MemSafe (execTrace2 p tag s) := by
  unfold execTrace2
  exact State.memSafe_memFiring h (fun a h => State.memInv_finish _ _ _ _ _ (State.memInv_traceRec _ _ _ _ _ _ h))

theorem memSafe_execPerf {p : Par} {ctr : BitVec 8} {s : State} (h : Safety.MemInv s) : MemSafe (execPerf p ctr s) := by
  unfold execPerf
  exact State.memSafe_firing h (fun s h => State.memInv_finish _ _ _ _ _ h)

theorem memSafe_execIfrd {p : Par} {s : State} (h : Safety.MemInv s) : MemSafe (execIfrd p s) := by
  unfold execIfrd
  refine State.memSafe_memFiring h ?_
  intro a h
  split
  · exact State.memInv_failing _ _ _ _ _ h
  · exact State.memInv_finish _ _ _ _ _ h
  · exact State.memInv_finish _ _ _ _ _ (State.memInv_draw h)

theorem State.memInv_bindRegion {s : State} {site : Site} {obj base : Word} {len : Nat} (h : Safety.MemInv s) (t : State)
    (e : s.bindRegion site obj base len = .ok t) : Safety.MemInv t := by
  unfold State.bindRegion at e
  dsimp only at e
  split at e
  · cases e
  · split at e
    · obtain rfl := Except.ok.inj e
      exact h
    · split at e
      · cases e
      · obtain rfl := ok_of_ite_error e
        exact h

theorem memSafe_execSbind {p : Par} {len : BitVec 16} {s : State} (h : Safety.MemInv s) : MemSafe (execSbind p len s) := by
  refine State.memSafe_memFiring h fun s h => ?_
  unfold State.orFail
  split
  · exact State.memInv_failing _ _ _ _ _ h
  · exact State.memInv_finish _ _ _ _ _ (State.memInv_bindRegion h _ ‹_›)

theorem memSafe_execXtset {p : Par} {s : State} (h : Safety.MemInv s) : MemSafe (execXtset p s) := by
  unfold execXtset
  refine State.memSafe_memFiring h ?_
  intro a h
  dsimp only
  split
  · exact State.memInv_failing _ _ _ _ _ h
  · split
    · exact State.memInv_failing _ _ _ _ _ h
    · refine State.memInv_orFail h ?_
      intro a
      split
      · exact State.memInv_failing _ _ _ _ _ (State.memInv_readParts h)
      · split
        · exact State.memInv_failing _ _ _ _ _ (State.memInv_readParts h)
        · exact State.memInv_finish _ _ _ _ _ (State.memInv_modCtx (State.memInv_draw (State.memInv_readParts h)))

theorem State.memInv_zeroRange {s : State} {a n : Nat} (h : Safety.MemInv s) : Safety.MemInv (s.zeroRange a n) :=
  Memory.wf_filter _ _ (State.memInv_dropStaged h)

theorem memSafe_execCoreAssignment {bank : Bool} {n tenant : Nat} {s : State} (h : Safety.MemInv s) : MemSafe (execCoreAssignment bank
    n tenant s) := by
  unfold execCoreAssignment
  dsimp only
  split
  · exact memSafe_next h
  · split
    · exact memSafe_next (State.memInv_modPlat (State.memInv_zeroRange h))
    · split
      · exact memSafe_next h
      · exact memSafe_next (State.memInv_modCore h)

theorem memSafe_execCoreMarkFailed {core : Nat} {s : State} (h : Safety.MemInv s) : MemSafe (execCoreMarkFailed core s) := by
  unfold execCoreMarkFailed
  exact memSafe_next (State.memInv_modCore (State.memInv_foldl _ (fun s x h => State.memInv_abandon h) _ _ h))

theorem memSafe_execTenantCreate {tenant root : Nat} {s : State} (h : Safety.MemInv s) : MemSafe (execTenantCreate tenant root s) := by
  unfold execTenantCreate
  split
  · exact memSafe_next h
  · exact memSafe_next (State.memInv_modPlat h)

theorem memSafe_execTenantDestroy {tenant : Nat} {s : State} (h : Safety.MemInv s) : MemSafe (execTenantDestroy tenant s) := by
  unfold execTenantDestroy
  split
  · exact memSafe_next h
  · exact memSafe_next (State.memInv_modPlat (State.memInv_foldl _ (fun s x h => State.memInv_zeroRange h) _ _ h))

theorem memSafe_execLogicalTableWrite {logical : Nat} {physical : Option Nat} {s : State} (h : Safety.MemInv s) : MemSafe
    (execLogicalTableWrite logical physical s) := by
  unfold execLogicalTableWrite
  exact memSafe_next (State.memInv_modPlat h)

theorem memSafe_execJobMembershipList {tenant job : Nat} {members : List Nat} {signed : Bool} {s : State} (h : Safety.MemInv s) :
    MemSafe (execJobMembershipList tenant job members signed s) := by
  unfold execJobMembershipList
  split
  · exact memSafe_next (State.memInv_modPlat h)
  · exact memSafe_next h

theorem memSafe_execConnectionTableWrite {tenant qpi peer : Nat} {s : State} (h : Safety.MemInv s) : MemSafe (execConnectionTableWrite
    tenant qpi peer s) := by
  unfold execConnectionTableWrite
  split
  · exact memSafe_next h
  · exact memSafe_next (State.memInv_modPlat h)

theorem memSafe_execTdispStateChange {vf state : Nat} {s : State} (h : Safety.MemInv s) : MemSafe (execTdispStateChange vf state s) :=
    by
  unfold execTdispStateChange
  split
  · exact memSafe_next h
  · exact memSafe_next (State.memInv_modPlat h)

theorem State.memInv_putSpdm {s : State} {c : Spdm} (h : Safety.MemInv s) : Safety.MemInv (s.putSpdm c) := by
  unfold State.putSpdm
  exact State.memInv_modPlat h

theorem State.memInv_spdmAfter {s : State} {peer phase : Nat} {k : Spdm → State} (h : Safety.MemInv s) (hk : ∀ (a : Spdm),
    Safety.MemInv (k a)) : Safety.MemInv (s.spdmAfter peer phase k) := by
  unfold State.spdmAfter
  dsimp only
  split
  · exact State.memInv_send h
  · exact hk _

theorem memSafe_execGetVersion {peer : Nat} {s : State} (h : Safety.MemInv s) : MemSafe (execGetVersion peer s) := by
  unfold execGetVersion
  exact memSafe_next (State.memInv_send (State.memInv_putSpdm h))

theorem memSafe_execGetCapabilities {peer : Nat} {s : State} (h : Safety.MemInv s) : MemSafe (execGetCapabilities peer s) := by
  unfold execGetCapabilities
  exact memSafe_next (State.memInv_spdmAfter h (fun a => State.memInv_send (State.memInv_putSpdm h)))

theorem memSafe_execNegotiateAlgorithms {peer : Nat} {s : State} (h : Safety.MemInv s) : MemSafe (execNegotiateAlgorithms peer s) := by
  unfold execNegotiateAlgorithms
  exact memSafe_next (State.memInv_spdmAfter h (fun a => State.memInv_send (State.memInv_putSpdm h)))

theorem memSafe_execGetDigests {peer : Nat} {s : State} (h : Safety.MemInv s) : MemSafe (execGetDigests peer s) := by
  unfold execGetDigests
  exact memSafe_next (State.memInv_spdmAfter h (fun a => State.memInv_send h))

theorem memSafe_execGetCertificate {peer : Nat} {s : State} (h : Safety.MemInv s) : MemSafe (execGetCertificate peer s) := by
  unfold execGetCertificate
  exact memSafe_next (State.memInv_spdmAfter h (fun a => State.memInv_send h))

theorem memSafe_execChallenge {peer nonce : Nat} {s : State} (h : Safety.MemInv s) : MemSafe (execChallenge peer nonce s) := by
  unfold execChallenge
  exact memSafe_next (State.memInv_spdmAfter h (fun a => State.memInv_send h))

theorem memSafe_execGetMeasurements {peer index : Nat} {s : State} (h : Safety.MemInv s) : MemSafe (execGetMeasurements peer index s)
    := by
  unfold execGetMeasurements
  refine memSafe_next ?_
  refine State.memInv_spdmAfter h ?_
  intro a
  split
  · exact State.memInv_send h
  · split
    · exact State.memInv_send h
    · exact State.memInv_send h

theorem memSafe_execKeyExchange {peer : Nat} {s : State} (h : Safety.MemInv s) : MemSafe (execKeyExchange peer s) := by
  unfold execKeyExchange
  with_reducible exact memSafe_next (State.memInv_spdmAfter h (fun a => State.memInv_send (State.memInv_with rfl (State.memInv_putSpdm
      h))))

theorem memSafe_execFinish {peer : Nat} {s : State} (h : Safety.MemInv s) : MemSafe (execFinish peer s) := by
  unfold execFinish
  dsimp only
  split
  · exact memSafe_next (State.memInv_send (State.memInv_putSpdm h))
  · exact memSafe_next (State.memInv_send h)

theorem memSafe_execEndSession {peer : Nat} {s : State} (h : Safety.MemInv s) : MemSafe (execEndSession peer s) := by
  unfold execEndSession
  dsimp only
  split
  · exact memSafe_next (State.memInv_send (State.memInv_putSpdm h))
  · exact memSafe_next (State.memInv_send h)

theorem memSafe_execUnsupportedRequest {peer code : Nat} {s : State} (h : Safety.MemInv s) : MemSafe (execUnsupportedRequest peer code
    s) := by
  unfold execUnsupportedRequest
  exact memSafe_next (State.memInv_send h)

theorem State.memInv_respondTo {s : State} {op st : Nat} {words : List Word} (h : Safety.MemInv s) : Safety.MemInv (s.respondTo op st
    words) := by
  unfold State.respondTo
  exact State.memInv_send h

theorem memSafe_execHalt {job : Nat} {s : State} (h : Safety.MemInv s) : MemSafe (execHalt job s) := by
  unfold execHalt
  split
  · exact memSafe_next (State.memInv_respondTo h)
  · exact memSafe_next (State.memInv_respondTo (State.memInv_stopJobs (State.memInv_beginHalt h)))

theorem State.memInv_writeHen {s : State} {job hen : Nat} (h : Safety.MemInv s) : Safety.MemInv (s.writeHen job hen) := by
  unfold State.writeHen
  exact State.memInv_modJob h

theorem memSafe_execSethen {job : Nat} {hen : BitVec 6} {s : State} (h : Safety.MemInv s) : MemSafe (execSethen job hen s) := by
  unfold execSethen
  split
  · exact memSafe_next (State.memInv_respondTo h)
  · exact memSafe_next (State.memInv_respondTo (State.memInv_foldl _ (fun s x h => State.memInv_send h) _ _ (State.memInv_writeHen h)))

theorem memSafe_execSetbrk {job core n : Nat} {tok tmask val vmask ctl : Word} {s : State} (h : Safety.MemInv s) : MemSafe (execSetbrk
    job core n tok tmask val vmask ctl s) := by
  unfold execSetbrk
  split
  · exact memSafe_next (State.memInv_respondTo h)
  · exact memSafe_next (State.memInv_respondTo (State.memInv_modCore h))

theorem memSafe_execRead {job core what : Nat} {s : State} (h : Safety.MemInv s) : MemSafe (execRead job core what s) := by
  unfold execRead
  split
  · exact memSafe_next (State.memInv_respondTo h)
  · exact memSafe_next (State.memInv_respondTo h)

theorem State.memSafe_stepRun {s : State} {job core : Nat} {pick : Option (Nat × QTok)} (h : Safety.MemInv s) : MemSafe (s.stepRun job
    core pick) := by
  unfold State.stepRun
  split
  · exact memSafe_next (State.memInv_respondTo h)
  · split
    · exact memSafe_next (State.memInv_respondTo h)
    · with_reducible exact memSafe_next (State.memInv_with rfl (State.memInv_modTok (State.memInv_modJob h)))

theorem memSafe_execStepNamed {job core frame node : Nat} {s : State} (h : Safety.MemInv s) : MemSafe (execStepNamed job core frame
    node s) := by
  unfold execStepNamed
  exact State.memSafe_stepRun h

theorem memSafe_execStepNext {job core : Nat} {s : State} (h : Safety.MemInv s) : MemSafe (execStepNext job core s) := by
  unfold execStepNext
  exact State.memSafe_stepRun h

theorem State.memInv_backToHalted {s : State} {job : Nat} (h : Safety.MemInv s) : Safety.MemInv (s.backToHalted job) := by
  unfold State.backToHalted
  exact State.memInv_msix (State.memInv_modJob h)

theorem memSafe_execStepEnd {job : Nat} {s : State} (h : Safety.MemInv s) : MemSafe (execStepEnd job s) := by
  unfold execStepEnd
  split
  · exact memSafe_next h
  · split
    · exact memSafe_next h
    · dsimp only
      refine memSafe_next ?_
      refine State.memInv_respondTo ?_
      refine State.memInv_modJob ?_
      split
      · with_reducible exact State.memInv_backToHalted (State.memInv_with rfl (State.memInv_modMs (fun m => rfl) h))
      · with_reducible exact State.memInv_with rfl (State.memInv_modMs (fun m => rfl) h)

theorem State.memInv_takeArm {s : State} {job t : Nat} (h : Safety.MemInv s) : Safety.MemInv (s.takeArm job t).2 := by
  unfold State.takeArm
  split
  · exact h
  · split
    · exact State.memInv_modJob h
    · exact h

theorem memSafe_execArm {job t : Nat} {s : State} (h : Safety.MemInv s) : MemSafe (execArm job t s) := by
  unfold execArm
  split
  · exact memSafe_next (State.memInv_respondTo h)
  · exact memSafe_next (State.memInv_foldl _ (fun s x h => State.memInv_send h) _ _ (State.memInv_modJob (State.memInv_takeArm h)))

theorem State.memInv_armAck {s : State} {job pkg t : Nat} (h : Safety.MemInv s) : Safety.MemInv (s.armAck job pkg t) := by
  unfold State.armAck
  split
  · exact State.memInv_countDropped h
  · exact State.memInv_modJob h

theorem State.memInv_takeCancel {s : State} {job : Nat} (h : Safety.MemInv s) : Safety.MemInv (s.takeCancel job).2 := by
  unfold State.takeCancel
  split
  · exact h
  · split
    · exact State.memInv_backToHalted h
    · exact h

theorem State.memInv_endCancels {s : State} {job : Nat} (h : Safety.MemInv s) : Safety.MemInv (s.endCancels job) := by
  unfold State.endCancels
  split
  · exact h
  · exact State.memInv_foldl _ (fun s x h => State.memInv_respondTo h) _ _ (State.memInv_modJob h)

theorem memSafe_execCancel {job : Nat} {s : State} (h : Safety.MemInv s) : MemSafe (execCancel job s) := by
  unfold execCancel
  split
  · exact memSafe_next (State.memInv_respondTo h)
  · exact memSafe_next (State.memInv_endCancels (State.memInv_foldl _ (fun s x h => State.memInv_send h) _ _ (State.memInv_modJob
      (State.memInv_takeCancel h))))

theorem State.memInv_cancelBack {s : State} {job pkg : Nat} {back : Bool} (h : Safety.MemInv s) : Safety.MemInv (s.cancelBack job pkg
    back) := by
  unfold State.cancelBack
  split
  · exact State.memInv_countDropped h
  · exact State.memInv_endCancels (State.memInv_modJob h)

theorem State.memInv_undefer {s : State} {t : Trap} (h : Safety.MemInv s) : Safety.MemInv (s.undefer t) := by
  unfold State.undefer
  dsimp only
  split
  · exact State.memInv_modCtx h
  · split
    · exact State.memInv_beginHalt (State.memInv_modCtx h)
    · exact State.memInv_modCtx h

theorem State.memInv_thawFar {s : State} {job since : Nat} (h : Safety.MemInv s) : Safety.MemInv (s.thawFar job since) := by
  unfold State.thawFar
  exact State.memInv_modMs (fun m => rfl) h

theorem State.memInv_thawCtx {s : State} {id : Nat} (h : Safety.MemInv s) : Safety.MemInv (s.thawCtx id) := by
  unfold State.thawCtx
  split
  · exact h
  · exact State.memInv_resumeCtx (State.memInv_modMs (fun m => rfl) h)

theorem State.memInv_endArms {s : State} {job : Nat} (h : Safety.MemInv s) : Safety.MemInv (s.endArms job) := by
  unfold State.endArms
  split
  · exact h
  · exact State.memInv_foldl _ (fun s x h => State.memInv_respondTo h) _ _ (State.memInv_modJob h)

theorem State.memInv_resumeJob {s : State} {job : Nat} (h : Safety.MemInv s) : Safety.MemInv (s.resumeJob job) := by
  unfold State.resumeJob
  exact State.memInv_stopJobs (State.memInv_foldl _ (fun s x h => State.memInv_undefer h) _ _ (State.memInv_foldl _ (fun s x h =>
      State.memInv_pumpCtx h) _ _ (State.memInv_foldl _ (fun s x h => State.memInv_releaseHeld h) _ _ (State.memInv_foldl _ (fun s x h
      => State.memInv_thawCtx h) _ _ (State.memInv_thawFar (State.memInv_modJob h))))))

theorem memSafe_execResumeInstant {job : Nat} {s : State} (h : Safety.MemInv s) : MemSafe (execResumeInstant job s) := by
  unfold execResumeInstant
  split
  · exact memSafe_next h
  · dsimp only
    split
    · exact memSafe_next (State.memInv_resumeJob (State.memInv_endArms h))
    · exact memSafe_next (State.memInv_endArms h)

theorem memSafe_execCairnMessage {job : StopRelay} {s : State} (h : Safety.MemInv s) : MemSafe (execCairnMessage job s) := by
  unfold execCairnMessage
  split
  · exact memSafe_next h
  · split
    · exact memSafe_next (State.memInv_countDropped h)
    · split
      · exact memSafe_next (State.memInv_stopJobs (State.memInv_beginHalt h))
      · exact memSafe_next h

theorem memSafe_execCauseReport {job pkg : Nat} {w0 w1 : Word} {s : State} (h : Safety.MemInv s) : MemSafe (execCauseReport job pkg w0
    w1 s) := by
  unfold execCauseReport
  split
  · exact memSafe_next h
  · split
    · exact memSafe_next (State.memInv_countDropped h)
    · dsimp only
      refine memSafe_next ?_
      refine State.memInv_stopJobs ?_
      refine State.memInv_modJob ?_
      split
      · exact State.memInv_beginHalt h
      · exact h

theorem memSafe_execMemberReportTimeout {job pkg : Nat} {s : State} (h : Safety.MemInv s) : MemSafe (execMemberReportTimeout job pkg s)
    := by
  unfold execMemberReportTimeout
  split
  · exact memSafe_next h
  · split
    · exact memSafe_next (State.memInv_stopJobs (State.memInv_modJob h))
    · exact memSafe_next h

theorem State.memInv_setRights {s : State} {job rights : Nat} (h : Safety.MemInv s) : Safety.MemInv (s.setRights job rights) := by
  unfold State.setRights
  dsimp only
  split
  · exact State.memInv_modPlat h
  · split
    · exact State.memInv_modJob (State.memInv_modPlat h)
    · with_reducible exact State.memInv_modJob (State.memInv_with rfl (State.memInv_modJob (State.memInv_modPlat h)))

theorem memSafe_execRightsMessage {tenant job : Nat} {rights : SignedRights} {s : State} (h : Safety.MemInv s) : MemSafe
    (execRightsMessage tenant job rights s) := by
  unfold execRightsMessage
  dsimp only
  split
  · exact memSafe_next h
  · exact memSafe_next (State.memInv_foldl _ (fun s x h => State.memInv_send h) _ _ (State.memInv_setRights h))

theorem memInv_ranCommand {o : Host.Outcome State Fault Refusal} {s : State} (ho : MemSafe o) (h : Safety.MemInv s) :
    Safety.MemInv (ranCommand o s) := by
  unfold ranCommand
  split
  · exact ho _ rfl
  · exact h

theorem State.memInv_runCommand {s : State} {key op : Nat} {ws : List Word} (h : Safety.MemInv s) : Safety.MemInv (s.runCommand key op
    ws) := by
  unfold State.runCommand
  dsimp only
  refine memInv_ranCommand ?_ h
  split
  · exact memSafe_execHalt h
  · split
    · exact memSafe_execStepNext h
    · exact memSafe_execStepNamed h
  · exact memSafe_execArm h
  · exact memSafe_execCancel h
  · exact memSafe_execSethen h
  · exact memSafe_execSetbrk h
  · exact memSafe_execRead h

theorem State.memInv_takeCommand {s : State} {tenant : Nat} {ws : List Word} (h : Safety.MemInv s) : Safety.MemInv (s.takeCommand
    tenant ws) := by
  unfold State.takeCommand
  dsimp only
  split
  · exact State.memInv_respondTo h
  · split
    · split
      · exact State.memInv_send h
      · exact State.memInv_respondTo h
    · exact State.memInv_runCommand h

theorem State.memInv_relayed {s : State} {pkg job : Nat} {r : Relay} (h : Safety.MemInv s) : Safety.MemInv (s.relayed pkg job r) := by
  unfold State.relayed
  split
  · dsimp only
    split
    · exact State.memInv_send (State.memInv_takeArm h)
    · exact State.memInv_takeArm h
  · exact State.memInv_send (State.memInv_takeCancel h)
  · split
    · exact State.memInv_writeHen h
    · exact h
  · exact State.memInv_setRights h
  · exact State.memInv_takeCommand h

theorem memSafe_execDoorbell {vf : Nat} {queue : BitVec 6} {value : BitVec 32} {s : State} (h : Safety.MemInv s) : MemSafe
    (execDoorbell vf queue value s) := by
  unfold execDoorbell
  dsimp only
  split
  · exact memSafe_next h
  · split
    · exact memSafe_next (State.memInv_modDisp h)
    · exact memSafe_next (State.memInv_qerr h)

theorem State.memInv_raiseTo {s : State} {e k : Nat} {l : Nat × Nat} (h : Safety.MemInv s) : Safety.MemInv (s.raiseTo e k l) := by
  induction k generalizing s l with
  | zero => exact h
  | succ k ih =>
    unfold State.raiseTo
    have h1 := State.memInv_foldl (fun s c => if c.queue == l.1 && c.seq == l.2 && e < c.regs.eff then
      s.setPrio c.id fun r => { r with raises := e :: r.raises } else s) (fun s c h => by
        split
        · exact State.memInv_setPrio h
        · exact h) s.ctxs s h
    dsimp only
    split
    · exact h1
    · split
      · exact State.memInv_foldl _ (fun s x h => ih h) _ _ h1
      · exact h1

theorem State.memInv_raiseFrom {s : State} {no : Nat} (h : Safety.MemInv s) : Safety.MemInv (s.raiseFrom no) := by
  unfold State.raiseFrom
  split
  · exact State.memInv_foldl _ (fun s x h => State.memInv_raiseTo h) _ _ h
  · exact h

theorem State.memInv_takePacket {s : State} {r : Reading} {st : Nat} (h : Safety.MemInv s) : Safety.MemInv (s.takePacket r st) := by
  unfold State.takePacket
  dsimp only
  split
  · split
    · exact State.memInv_modPkt (State.memInv_tellParent (State.memInv_qerr (State.memInv_modDisp h)))
    · exact State.memInv_tellParent (State.memInv_qerr (State.memInv_modDisp h))
  · exact State.memInv_modDisp (State.memInv_modDisp h)

theorem State.memInv_askWord {s : State} {n off : Nat} (h : Safety.MemInv s) : Safety.MemInv (s.askWord n off) := by
  unfold State.askWord
  dsimp only
  split
  · exact h
  · exact State.memInv_visit h

theorem State.memInv_readWord {s : State} {r : Reading} (h : Safety.MemInv s) : Safety.MemInv (s.readWord r) := by
  unfold State.readWord
  split
  · exact h
  · split
    · exact State.memInv_askWord h
    · split
      · exact h
      · dsimp only
        split
        · exact State.memInv_takePacket (State.memInv_dropReq h)
        · split
          · exact State.memInv_modDisp (State.memInv_dropReq h)
          · exact State.memInv_takePacket (State.memInv_dropReq h)

theorem State.memInv_readFront {s : State} {n : Nat} (h : Safety.MemInv s) : Safety.MemInv (s.readFront n) := by
  unfold State.readFront
  split
  · exact State.memInv_askWord h
  · split
    · exact h
    · exact State.memInv_modDisp (State.memInv_dropReq h)

theorem State.memInv_startRead {s : State} (h : Safety.MemInv s) : Safety.MemInv s.startRead := by
  unfold State.startRead
  split
  · exact h
  · split
    · exact State.memInv_foldl _ (fun s x h => State.memInv_readFront h) _ _ h
    · split
      · exact h
      · dsimp only
        split
        · split
          · exact h
          · split
            · exact State.memInv_takePacket h
            · exact State.memInv_modDisp h
        · split
          · exact h
          · split
            · exact State.memInv_takePacket h
            · exact State.memInv_modDisp h

theorem memSafe_execPacketRead {s : State} (h : Safety.MemInv s) : MemSafe (execPacketRead s) := by
  unfold execPacketRead
  split
  · exact memSafe_next h
  · split
    · exact memSafe_next (State.memInv_readWord h)
    · exact memSafe_next (State.memInv_startRead h)

theorem State.memInv_sendTest {s : State} {p : Pkt} {i : Nat} (h : Safety.MemInv s) : Safety.MemInv (s.sendTest p i) := by
  unfold State.sendTest
  exact State.memInv_visit h

theorem State.memInv_toWaiting {s : State} {ps : List Pkt} (h : Safety.MemInv s) : Safety.MemInv (s.toWaiting ps) := by
  unfold State.toWaiting
  dsimp only
  refine State.memInv_foldl _ (fun s x h => State.memInv_raiseFrom h) _ _ ?_
  refine State.memInv_foldl _ ?_ _ _ (State.memInv_foldl _ (fun s x h => State.memInv_modPkt h) _ _ h)
  intro s x h
  refine State.memInv_foldl _ ?_ _ _ h
  intro s x h
  split
  · exact State.memInv_sendTest h
  · exact h

theorem State.memInv_toAdmitting {s : State} {ps : List Pkt} (h : Safety.MemInv s) : Safety.MemInv (s.toAdmitting ps) := by
  unfold State.toAdmitting
  exact State.memInv_foldl _ (fun s x h => State.memInv_modRegion (State.memInv_modPkt h)) _ _ h

theorem State.memInv_judgeLaunch {s : State} {ps : List Pkt} (h : Safety.MemInv s) : Safety.MemInv (s.judgeLaunch ps) := by
  unfold State.judgeLaunch
  dsimp only
  split
  · exact State.memInv_foldl _ (fun s x h => State.memInv_endPacket h) _ _ h
  · split
    · exact State.memInv_toAdmitting (State.memInv_toWaiting h)
    · exact State.memInv_toWaiting h

theorem memSafe_execLaunch {i : Nat} {s : State} (h : Safety.MemInv s) : MemSafe (execLaunch i s) := by
  unfold execLaunch
  split
  · exact memSafe_next h
  · split
    · exact memSafe_next (State.memInv_judgeLaunch h)
    · exact memSafe_next h

theorem memSafe_execGang {i : Nat} {s : State} (h : Safety.MemInv s) : MemSafe (execGang i s) := by
  unfold execGang
  split
  · exact memSafe_next h
  · split
    · exact memSafe_next (State.memInv_judgeLaunch h)
    · exact memSafe_next h

theorem State.memInv_meet {s : State} {p : Pkt} {i : Nat} (h : Safety.MemInv s) : Safety.MemInv (s.meet p i) := by
  unfold State.meet
  dsimp only
  split
  · refine State.memInv_modPkt ?_
    split
    · exact State.memInv_dropReq h
    · exact h
  · split
    · split
      · split
        · exact State.memInv_toAdmitting (State.memInv_modPkt (State.memInv_dropReq h))
        · exact State.memInv_modPkt (State.memInv_dropReq h)
      · split
        · exact State.memInv_toAdmitting (State.memInv_modPkt (State.memInv_dropReq h))
        · exact State.memInv_modPkt (State.memInv_dropReq h)
    · split
      · split
        · exact State.memInv_toAdmitting (State.memInv_modPkt h)
        · exact State.memInv_modPkt h
      · split
        · exact State.memInv_toAdmitting (State.memInv_modPkt h)
        · exact State.memInv_modPkt h

theorem State.memInv_retest {s : State} {p : Pkt} {i : Nat} (h : Safety.MemInv s) : Safety.MemInv (s.retest p i) := by
  unfold State.retest
  split
  · exact h
  · split
    · exact State.memInv_sendTest h
    · split
      · exact State.memInv_sendTest (State.memInv_dropReq h)
      · exact h

theorem memSafe_execDependenceMet {i : Nat} {s : State} (h : Safety.MemInv s) : MemSafe (execDependenceMet i s) := by
  unfold execDependenceMet
  split
  · exact memSafe_next h
  · split
    · split
      · exact memSafe_next h
      · split
        · exact memSafe_next (State.memInv_meet h)
        · exact memSafe_next (State.memInv_retest h)
    · split
      · exact memSafe_next h
      · split
        · exact memSafe_next (State.memInv_meet h)
        · exact memSafe_next (State.memInv_retest h)

theorem State.memInv_newJob {s : State} {tenant job : Nat} (h : Safety.MemInv s) : Safety.MemInv (s.newJob tenant job) := by
  unfold State.newJob
  split
  · exact h
  · exact State.memInv_modPlat h

theorem State.memInv_seatNow {s : State} {p : Pkt} {g : Region} {job : Nat} (h : Safety.MemInv s) : Safety.MemInv (s.seatNow p g job)
    := by
  unfold State.seatNow
  with_reducible exact State.memInv_with rfl (State.memInv_modRegion (State.memInv_modPkt (State.memInv_modDisp (State.memInv_newJob
      h))))

theorem State.memInv_grantPkts {s : State} {ps : List Pkt} (h : Safety.MemInv s) : Safety.MemInv (s.grantPkts ps) := by
  unfold State.grantPkts
  dsimp only
  split
  · exact h
  · split
    · exact State.memInv_foldl _ (fun s x h => State.memInv_endPacket h) _ _ h
    · split
      · exact h
      · refine State.memInv_foldl _ ?_ _ _ h
        intro s x h
        split
        · exact State.memInv_seatNow h
        · exact h

theorem State.memInv_grantRestore {s : State} {p : Pkt} {g : Region} (h : Safety.MemInv s) : Safety.MemInv (s.grantRestore p g) := by
  unfold State.grantRestore
  split
  · exact State.memInv_endPacket h
  · split
    · exact h
    · exact State.memInv_beginRestore (State.memInv_modRegion h)

theorem memSafe_execAdmissionGrant {home : Nat} {s : State} (h : Safety.MemInv s) : MemSafe (execAdmissionGrant home s) := by
  unfold execAdmissionGrant
  split
  · exact memSafe_next h
  · split
    · exact memSafe_next h
    · split
      · exact memSafe_next (State.memInv_grantRestore h)
      · exact memSafe_next (State.memInv_grantPkts h)

theorem State.memInv_walkPkt {s : State} {p : Pkt} {i va : Nat} (h : Safety.MemInv s) : Safety.MemInv (s.walkPkt p i va) := by
  unfold State.walkPkt
  dsimp only
  split
  · exact State.memInv_modPkt (State.memInv_walkOn h)
  · exact State.memInv_modPkt (State.memInv_walkOn h)

theorem State.memInv_translatePkt {s : State} {p : Pkt} {c : Ctx} {n : Nat} (h : Safety.MemInv s) (t : State)
    (e : s.translatePkt p c n = .ok t) : Safety.MemInv t := by
  unfold State.translatePkt at e
  dsimp only at e
  split at e
  · cases e
  · cases e
  · split at e
    · cases e
    · split at e
      · cases e
      · split at e
        · cases e
        · split at e
          · cases e
          · obtain rfl := Except.ok.inj e
            exact h

theorem State.memInv_askFixed {s : State} {c : Ctx} (h : Safety.MemInv s) : Safety.MemInv (s.askFixed c) := by
  unfold State.askFixed
  dsimp only
  refine State.memInv_foldl _ ?_ _ _ h
  intro s x h
  refine State.memInv_foldl _ ?_ _ _ h
  intro s x h
  split
  · exact h
  · exact State.memInv_modFrm h

theorem State.memInv_clearHeads {s : State} {c : Ctx} (h : Safety.MemInv s) : Safety.MemInv (s.clearHeads c) := by
  unfold State.clearHeads
  exact State.memInv_foldl _ (fun s x h => State.memInv_histClear h) _ _ h

theorem State.memInv_startPlacing {s : State} {p : Pkt} {c : Ctx} (h : Safety.MemInv s) : Safety.MemInv (s.startPlacing p c) := by
  unfold State.startPlacing
  exact State.memInv_askFixed (State.memInv_clearHeads (State.memInv_modCtx (State.memInv_modPkt h)))

theorem State.memInv_undo {s : State} {p : Pkt} {st : Nat} (h : Safety.MemInv s) : Safety.MemInv (s.undo p st) := by
  unfold State.undo
  dsimp only
  refine State.memInv_endPacket ?_
  split
  · exact h
  · with_reducible exact State.memInv_modPlat (State.memInv_with rfl h)

theorem State.memInv_translateAll {s : State} {l : List Pkt} (h : Safety.MemInv s) (t : State) (e : s.translateAll l = .ok t) :
    Safety.MemInv t := by
  induction l generalizing s with
  | nil => cases e; exact h
  | cons p l ih =>
    unfold State.translateAll at e
    split at e
    · exact ih h e
    · dsimp only at e
      split at e
      · cases e
      · exact ih (State.memInv_translatePkt h _ ‹_›) e

theorem memSafe_execExtentBuild {i : Nat} {s : State} (h : Safety.MemInv s) : MemSafe (execExtentBuild i s) := by
  unfold execExtentBuild
  split
  · exact memSafe_next h
  · split
    · exact memSafe_next h
    · dsimp only
      split
      · exact memSafe_next (State.memInv_walkPkt h)
      · split
        · exact memSafe_next (State.memInv_foldl _ (fun s x h => State.memInv_undo h) _ _ h)
        · refine memSafe_next ?_
          refine State.memInv_foldl _ ?_ _ _ ?_
          · intro s x h
            split
            · exact State.memInv_startPlacing h
            · exact h
          · exact State.memInv_translateAll h _ ‹_›

theorem State.memInv_askArg {s : State} {p : Pkt} {c : Ctx} (h : Safety.MemInv s) : Safety.MemInv (s.askArg p c) := by
  unfold State.askArg
  dsimp only
  split
  · exact State.memInv_visit h
  · split
    · exact State.memInv_sendOut (State.memInv_modReq (State.memInv_visit h))
    · exact State.memInv_modReq (State.memInv_visit h)

theorem State.memInv_injectArg {s : State} {c : Ctx} {i core : Nat} {r : Req} (h : Safety.MemInv s) : Safety.MemInv (s.injectArg c i
    core r) := by
  unfold State.injectArg
  exact State.memInv_push h

theorem memSafe_execArgumentInjection {i : Nat} {s : State} (h : Safety.MemInv s) : MemSafe (execArgumentInjection i s) := by
  unfold execArgumentInjection
  split
  · exact memSafe_next h
  · split
    · exact memSafe_next h
    · split
      · exact memSafe_next h
      · dsimp only
        split
        · exact memSafe_next (State.memInv_modPkt h)
        · split
          · split
            · exact memSafe_next (State.memInv_modPkt h)
            · exact memSafe_next (State.memInv_askArg h)
            · split
              · exact memSafe_next (State.memInv_modPkt (State.memInv_injectArg (State.memInv_dropReq h)))
              · exact memSafe_next h
          · exact memSafe_next h

theorem State.memInv_otherPacket {s : State} {i : Nat} {mine : Pkt → Bool} {k : State → Pkt → State} (h : Safety.MemInv s) (hk : ∀ (a :
    State), Safety.MemInv a → ∀ (a_1 : Pkt), Safety.MemInv (k a a_1)) : Safety.MemInv (s.otherPacket i mine k) := by
  unfold State.otherPacket
  split
  · exact h
  · split
    · exact h
    · split
      · dsimp only
        split
        · exact State.memInv_toWaiting h
        · exact State.memInv_endPacket h
      · split
        · exact hk _ h _
        · exact h

theorem State.memInv_endLoad {s : State} {p : Pkt} {w : Word} (h : Safety.MemInv s) : Safety.MemInv (s.endLoad p w) := by
  unfold State.endLoad
  exact State.memInv_visit (State.memInv_modPkt h)

theorem State.memInv_askImage {s : State} {p : Pkt} {stage n : Nat} (h : Safety.MemInv s) : Safety.MemInv (s.askImage p stage n) := by
  unfold State.askImage
  exact State.memInv_visit h

theorem State.memInv_loadOn {s : State} {p : Pkt} {stage : Nat} {r : Req} (h : Safety.MemInv s) : Safety.MemInv (s.loadOn p stage r) :=
    by
  unfold State.loadOn
  dsimp only
  split
  · exact State.memInv_endPacket (State.memInv_dropReq h)
  · split
    · exact State.memInv_endLoad (State.memInv_dropReq h)
    · split
      · split
        · exact State.memInv_askImage (State.memInv_dropReq h)
        · exact State.memInv_endLoad (State.memInv_dropReq h)
      · split
        · exact State.memInv_modPkt (State.memInv_claim (State.memInv_dropReq h))
        · exact State.memInv_endLoad (State.memInv_dropReq h)
        · exact State.memInv_modPkt (State.memInv_claim (State.memInv_dropReq h))
        · exact State.memInv_endLoad (State.memInv_dropReq h)

theorem memSafe_execConfigurationLoad {i : Nat} {s : State} (h : Safety.MemInv s) : MemSafe (execConfigurationLoad i s) := by
  unfold execConfigurationLoad
  refine memSafe_next ?_
  refine State.memInv_otherPacket h ?_
  intro a h a
  split
  · exact State.memInv_askImage (State.memInv_modPkt h)
  · split
    · split
      · exact State.memInv_loadOn h
      · exact h
    · dsimp only
      split
      · exact State.memInv_endLoad (State.memInv_unclaim h)
      · exact State.memInv_endLoad (State.memInv_armSlot h)

theorem memSafe_execBarrier {i : Nat} {s : State} (h : Safety.MemInv s) : MemSafe (execBarrier i s) := by
  unfold execBarrier
  exact memSafe_next (State.memInv_otherPacket h (fun a h a => State.memInv_endPacket h))

theorem memSafe_execPreemptSave {i : Nat} {s : State} (h : Safety.MemInv s) : MemSafe (execPreemptSave i s) := by
  unfold execPreemptSave
  refine memSafe_next ?_
  refine State.memInv_otherPacket h ?_
  intro a h a
  split
  · exact State.memInv_endPacket h
  · split
    · exact h
    · split
      · exact State.memInv_endPacket h
      · split
        · exact h
        · dsimp only
          split
          · exact State.memInv_endPacket h
          · exact State.memInv_modPkt (State.memInv_modCtx h)

theorem memSafe_execPreemptResume {i : Nat} {s : State} (h : Safety.MemInv s) : MemSafe (execPreemptResume i s) := by
  unfold execPreemptResume
  refine memSafe_next ?_
  refine State.memInv_otherPacket h ?_
  intro a h a
  split
  · exact State.memInv_endPacket h
  · split
    · exact h
    · split
      · exact State.memInv_endPacket h
      · exact State.memInv_modRegion (State.memInv_modPkt h)

theorem memSafe_execPreemptAbandon {i : Nat} {s : State} (h : Safety.MemInv s) : MemSafe (execPreemptAbandon i s) := by
  unfold execPreemptAbandon
  refine memSafe_next ?_
  refine State.memInv_otherPacket h ?_
  intro a h a
  split
  · exact State.memInv_endPacket h
  · exact State.memInv_endPacket (State.memInv_abandon h)

theorem State.memInv_mapEngs {s : State} {f : Nat → Eng → Eng} (h : Safety.MemInv s) : Safety.MemInv (s.mapEngs f) := by
  unfold State.mapEngs
  exact h

theorem State.memInv_onStalled {s : State} {die tenant page : Nat} {f : Eng → Eng} (h : Safety.MemInv s) : Safety.MemInv (s.onStalled
    die tenant page f) := by
  unfold State.onStalled
  exact State.memInv_mapEngs h

theorem State.memInv_pumpDie {s : State} {die : Nat} (h : Safety.MemInv s) : Safety.MemInv (s.pumpDie die) := by
  unfold State.pumpDie
  refine State.memInv_foldl _ ?_ _ _ h
  intro s x h
  split
  · exact h
  · exact State.memInv_copyPump h

theorem State.memInv_failStalled {s : State} {die tenant page st : Nat} (h : Safety.MemInv s) : Safety.MemInv (s.failStalled die tenant
    page st) := by
  unfold State.failStalled
  exact State.memInv_pumpDie (State.memInv_onStalled h)

theorem State.memInv_retryStalled {s : State} {die tenant page : Nat} {t : Tlb} (h : Safety.MemInv s) : Safety.MemInv (s.retryStalled
    die tenant page t) := by
  unfold State.retryStalled
  exact State.memInv_onStalled h

theorem State.memInv_fault {s : State} {w : Walk} (h : Safety.MemInv s) : Safety.MemInv (s.fault w) := by
  unfold State.fault
  exact State.memInv_writeFault (State.memInv_modVf h)

theorem State.memInv_endWalk {s : State} {w : Walk} {x : WalkEnd} (h : Safety.MemInv s) : Safety.MemInv (s.endWalk w x) := by
  unfold State.endWalk
  dsimp only
  split
  · exact State.memInv_pumpDie (State.memInv_foldl _ (fun s x h => State.memInv_retryStalled h) _ _ (State.memInv_fillTlb
      (State.memInv_modMs (fun m => rfl) h)))
  · exact State.memInv_failStalled (State.memInv_modMs (fun m => rfl) h)
  · exact State.memInv_failStalled (State.memInv_modMs (fun m => rfl) h)
  · exact State.memInv_fault (State.memInv_modMs (fun m => rfl) h)

theorem State.memInv_stepWalk {s : State} {w : Walk} (h : Safety.MemInv s) : Safety.MemInv (s.stepWalk w) := by
  unfold State.stepWalk
  dsimp only
  split
  · exact State.memInv_modMs (fun m => rfl) (State.memInv_walkOn h)
  · exact State.memInv_endWalk (State.memInv_walkOn h)

theorem State.memInv_stepFarWalk {s : State} {i : Nat} {w : FarWalk} (h : Safety.MemInv s) : Safety.MemInv (s.stepFarWalk i w) := by
  unfold State.stepFarWalk
  dsimp only
  split
  · exact State.memInv_modMs (fun m => rfl) (State.memInv_walkOn h)
  · exact State.memInv_send (State.memInv_modMs (fun m => rfl) (State.memInv_walkOn h))

theorem memSafe_execTranslationWalk {i : Nat} {s : State} (h : Safety.MemInv s) : MemSafe (execTranslationWalk i s) := by
  unfold execTranslationWalk
  dsimp only
  split
  · split
    · exact memSafe_next (State.memInv_stepFarWalk h)
    · exact memSafe_next h
  · split
    · exact memSafe_next h
    · exact memSafe_next (State.memInv_stepWalk h)

theorem State.memInv_replied {s : State} {vf seq : Nat} (h : Safety.MemInv s) (x : Walk × State) (e : s.replied vf seq = some x) :
    Safety.MemInv x.2 := by
  unfold State.replied at e
  split at e
  · cases e
  · split at e
    · cases e
    · obtain ⟨w, -, rfl⟩ := Option.map_eq_some_iff.mp e
      exact h

theorem memSafe_execFqreplyRetry {vf : Nat} {seq : BitVec 32} {s : State} (h : Safety.MemInv s) : MemSafe (execFqreplyRetry vf seq s)
    := by
  unfold execFqreplyRetry
  split
  · exact memSafe_next h
  · refine memSafe_next ?_
    refine State.memInv_modMs (fun m => rfl) ?_
    exact State.memInv_replied h _ ‹_›

theorem memSafe_execFqreplyAbort {vf : Nat} {seq : BitVec 32} {s : State} (h : Safety.MemInv s) : MemSafe (execFqreplyAbort vf seq s)
    := by
  unfold execFqreplyAbort
  split
  · exact memSafe_next h
  · refine memSafe_next ?_
    refine State.memInv_failStalled ?_
    refine State.memInv_modMs (fun m => rfl) ?_
    exact State.memInv_replied h _ ‹_›

theorem State.memInv_dropRange {s : State} {tenant va len : Nat} (h : Safety.MemInv s) : Safety.MemInv (s.dropRange tenant va len) := by
  unfold State.dropRange
  exact State.memInv_modMs (fun m => rfl) (State.memInv_mapEngs h)

theorem memSafe_execTlbInvalidate {tenant va len : Nat} {s : State} (h : Safety.MemInv s) : MemSafe (execTlbInvalidate tenant va len s)
    := by
  unfold execTlbInvalidate
  dsimp only
  refine memSafe_next ?_
  split
  · split
    · refine State.memInv_send ?_
      refine State.memInv_modMs (fun m => rfl) ?_
      split
      · exact h
      · exact State.memInv_dropRange h
    · refine State.memInv_modMs (fun m => rfl) ?_
      split
      · exact h
      · exact State.memInv_dropRange h
  · split
    · refine State.memInv_send ?_
      refine State.memInv_modMs (fun m => rfl) ?_
      split
      · exact h
      · exact State.memInv_dropRange h
    · refine State.memInv_modMs (fun m => rfl) ?_
      split
      · exact h
      · exact State.memInv_dropRange h

theorem State.memInv_moveSector {s : State} {src dst kOld kNew : Nat} (h : Safety.MemInv s) : Safety.MemInv (s.moveSector src dst kOld
    kNew) := by
  unfold State.moveSector
  exact State.memInv_modMs (fun m => rfl) (State.memInv_writePhys _ _ _ _ _ h)

theorem State.memInv_migrate {s : State} {tenant va leaf entry dst : Nat} (h : Safety.MemInv s) : Safety.MemInv (s.migrate tenant va
    leaf entry dst) := by
  unfold State.migrate
  exact State.memInv_modMs (fun m => rfl) (State.memInv_dropRange (State.memInv_writePhys _ _ _ _ _ (State.memInv_foldl _ (fun s x h =>
      State.memInv_moveSector h) _ _ h)))

theorem memSafe_execPageMigration {tenant va dst : Nat} {s : State} (h : Safety.MemInv s) : MemSafe (execPageMigration tenant va dst s)
    := by
  unfold execPageMigration
  split
  · dsimp only
    split
    · exact memSafe_next (State.memInv_migrate h)
    · exact memSafe_next h
  · exact memSafe_next h

theorem State.memInv_writeRas {s : State} {die off v : Nat} (h : Safety.MemInv s) : Safety.MemInv (s.writeRas die off v) := by
  unfold State.writeRas
  exact State.memInv_modDie h

theorem State.memInv_writePf {s : State} {off : Nat} {v : Word} (h : Safety.MemInv s) : Safety.MemInv (s.writePf off v) := by
  unfold State.writePf
  split
  · exact State.memInv_modPlat h
  · split
    · exact State.memInv_modPlat h
    · split
      · exact State.memInv_writeRas h
      · exact h

theorem State.memInv_writeMsix {s : State} {vf off : Nat} {v : Word} (h : Safety.MemInv s) : Safety.MemInv (s.writeMsix vf off v) := by
  unfold State.writeMsix
  split
  · exact h
  · dsimp only
    split
    · exact State.memInv_send (State.memInv_modVf (State.memInv_modVf h))
    · exact State.memInv_modVf h

theorem State.memInv_dropFront {s : State} {q : Nat} (h : Safety.MemInv s) : Safety.MemInv (s.dropFront q) := by
  unfold State.dropFront
  split
  · exact h
  · exact State.memInv_modMs (fun m => rfl) h

theorem memSafe_execHostRegisterWrite {fn off : Nat} {value : Word} {s : State} (h : Safety.MemInv s) : MemSafe (execHostRegisterWrite
    fn off value s) := by
  unfold execHostRegisterWrite
  split
  · exact memSafe_next h
  · split
    · refine memSafe_next ?_
      split
      · exact State.memInv_writePf h
      · exact h
    · split
      · exact memSafe_next h
      · split
        · exact memSafe_next (State.memInv_writeMsix h)
        · split
          · dsimp only
            split
            · exact memSafe_next (State.memInv_modDisp (State.memInv_dropFront h))
            · exact memSafe_next h
          · exact memSafe_next (State.memInv_writeFault (State.memInv_modVf h))

theorem State.memInv_hostReads {s : State} {fn off : Nat} (h : Safety.MemInv s) : Safety.MemInv (s.hostReads fn off) := by
  unfold State.hostReads
  split
  · exact State.memInv_send h
  · exact State.memInv_send h

theorem State.memInv_hostFail {s : State} {vf : Nat} {write : Bool} (h : Safety.MemInv s) : Safety.MemInv (s.hostFail vf write) := by
  unfold State.hostFail
  split
  · exact h
  · exact State.memInv_send h

theorem memSafe_execHostWindowAccess {vf off len : Nat} {write : Bool} {value : Word} {s : State} (h : Safety.MemInv s) : MemSafe
    (execHostWindowAccess vf off len write value s) := by
  unfold execHostWindowAccess
  split
  · exact memSafe_next h
  · split
    · refine memSafe_next ?_
      split
      · exact h
      · exact State.memInv_send h
    · split
      · exact memSafe_next (State.memInv_hostFail h)
      · exact memSafe_next (State.memInv_visit h)

theorem State.memInv_clockRecords {s : State} {core old new : Nat} (h : Safety.MemInv s) : Safety.MemInv (s.clockRecords core old new)
    := by
  unfold State.clockRecords
  exact State.memInv_foldl _ (fun s x h => State.memInv_gtcRec _ _ _ (State.memInv_traceRec _ _ _ _ _ _ h)) _ _ h

theorem State.memInv_giveShare {s : State} {die : Nat} {x : Share} (h : Safety.MemInv s) : Safety.MemInv (s.giveShare die x) := by
  unfold State.giveShare
  split
  · exact h
  · dsimp only
    split
    · exact State.memInv_modDie (State.memInv_draw h)
    · exact State.memInv_foldl _ (fun s x h => State.memInv_clockRecords h) _ _ (State.memInv_modDie (State.memInv_draw h))

theorem memSafe_execWatershedDivision {shares : List (Nat × Nat × Nat × Nat × Nat)} {s : State} (h : Safety.MemInv s) : MemSafe
    (execWatershedDivision shares s) := by
  unfold execWatershedDivision
  split
  · exact memSafe_next h
  · exact memSafe_next (State.memInv_foldl _ (fun s x h => State.memInv_giveShare h) _ _ h)

theorem memSafe_execMarginBackoff {die : Nat} {s : State} (h : Safety.MemInv s) : MemSafe (execMarginBackoff die s) := by
  unfold execMarginBackoff
  dsimp only
  split
  · exact memSafe_next (State.memInv_modDie h)
  · exact memSafe_next h

theorem memSafe_execMarginBarExpiry {die : Nat} {s : State} (h : Safety.MemInv s) : MemSafe (execMarginBarExpiry die s) := by
  unfold execMarginBarExpiry
  exact memSafe_next (State.memInv_modDie h)

theorem memSafe_execPredictiveFailure {die : Nat} {s : State} (h : Safety.MemInv s) : MemSafe (execPredictiveFailure die s) := by
  unfold execPredictiveFailure
  exact memSafe_next (State.memInv_modDie h)

theorem State.memInv_modPort {s : State} {port : Nat} {f : RidgePort → RidgePort} (h : Safety.MemInv s) : Safety.MemInv (s.modPort port
    f) := by
  unfold State.modPort
  exact State.memInv_modPlat h

theorem memSafe_execFlitRetry {port : Nat} {s : State} (h : Safety.MemInv s) : MemSafe (execFlitRetry port s) := by
  unfold execFlitRetry
  dsimp only
  split
  · exact memSafe_next h
  · exact memSafe_next (State.memInv_send (State.memInv_modPort h))

theorem memSafe_execLinkDown {port : Nat} {s : State} (h : Safety.MemInv s) : MemSafe (execLinkDown port s) := by
  unfold execLinkDown
  exact memSafe_next (State.memInv_modPort h)

theorem memSafe_execKeyRenewal {port : Nat} {s : State} (h : Safety.MemInv s) : MemSafe (execKeyRenewal port s) := by
  unfold execKeyRenewal
  exact memSafe_next (State.memInv_modPort h)

theorem State.memInv_stepGtc {s : State} {master : Nat} (h : Safety.MemInv s) : Safety.MemInv (s.stepGtc master) := by
  unfold State.stepGtc
  exact h

theorem memSafe_execGtcSync {master : Nat} {s : State} (h : Safety.MemInv s) : MemSafe (execGtcSync master s) := by
  unfold execGtcSync
  split
  · exact memSafe_next h
  · dsimp only
    refine memSafe_next ?_
    split
    · exact State.memInv_stepGtc (State.memInv_modPlat (State.memInv_draw h))
    · exact State.memInv_modPlat (State.memInv_draw h)

theorem State.memInv_afterReset {s : State} : Safety.MemInv s.afterReset := Memory.wf_nil

theorem memSafe_execPowerRemoval {s : State} (h : Safety.MemInv s) : MemSafe (execPowerRemoval s) := by
  unfold execPowerRemoval
  exact memSafe_next State.memInv_afterReset

theorem memSafe_execPackageReset {s : State} (h : Safety.MemInv s) : MemSafe (execPackageReset s) := by
  unfold execPackageReset
  with_reducible exact memSafe_next (State.memInv_with rfl h)

theorem State.memInv_bootFails {s : State} {code : Nat} (h : Safety.MemInv s) : Safety.MemInv (s.bootFails code) := by
  unfold State.bootFails
  exact State.memInv_modPlat h

theorem State.memInv_zeroHbm {s : State} (h : Safety.MemInv s) : Safety.MemInv s.zeroHbm := Memory.wf_filter _ _ h

theorem memSafe_execBootStateAdvance {failure : StageEnd} {s : State} (h : Safety.MemInv s) : MemSafe (execBootStateAdvance failure s)
    := by
  unfold execBootStateAdvance
  dsimp only
  split
  · refine memSafe_next ?_
    split
    · exact State.memInv_bootFails h
    · exact h
  · split
    · exact memSafe_next (State.memInv_modPlat h)
    · split
      · exact memSafe_next (State.memInv_modPlat (State.memInv_modPlat h))
      · exact memSafe_next (State.memInv_modPlat (State.memInv_bootFails h))
    · exact memSafe_next (State.memInv_modPlat (State.memInv_zeroHbm h))
    · split
      · exact memSafe_next (State.memInv_bootFails h)
      · exact memSafe_next (State.memInv_modPlat (State.memInv_modPlat h))
    · exact memSafe_next h
    · exact memSafe_next h

theorem State.memSafe_floatFiring {s : State} {p : Par} {reads ops : List Tok} {r : Nat × Nat} (h : Safety.MemInv s) : MemSafe
    (s.floatFiring p reads ops r) := by
  unfold State.floatFiring
  exact State.memSafe_scalarFiring h

theorem State.memSafe_floatWord {s : State} {p : Par} {reads ops : List Tok} {v : Word} {fl : Nat} (h : Safety.MemInv s) : MemSafe
    (s.floatWord p reads ops v fl) := by
  unfold State.floatWord
  exact State.memSafe_scalarFiring h

theorem State.memInv_takeFloatDivide {s : State} {core : Nat} (h : Safety.MemInv s) : Safety.MemInv (s.takeFloatDivide core) := by
  unfold State.takeFloatDivide
  exact State.memInv_modTok h

theorem memSafe_execFadd {p : Par} {mode : Mode} {s : State} (h : Safety.MemInv s) : MemSafe (execFadd p mode s) := by
  unfold execFadd
  exact State.memSafe_floatFiring h

theorem memSafe_execFaddImm {p : Par} {mode : Mode} {imm : BitVec 32} {s : State} (h : Safety.MemInv s) : MemSafe (execFaddImm p mode
    imm s) := by
  unfold execFaddImm
  exact State.memSafe_floatFiring h

theorem memSafe_execFsub {p : Par} {mode : Mode} {s : State} (h : Safety.MemInv s) : MemSafe (execFsub p mode s) := by
  unfold execFsub
  exact State.memSafe_floatFiring h

theorem memSafe_execFsubImm {p : Par} {mode : Mode} {imm : BitVec 32} {s : State} (h : Safety.MemInv s) : MemSafe (execFsubImm p mode
    imm s) := by
  unfold execFsubImm
  exact State.memSafe_floatFiring h

theorem memSafe_execFmul {p : Par} {mode : Mode} {s : State} (h : Safety.MemInv s) : MemSafe (execFmul p mode s) := by
  unfold execFmul
  exact State.memSafe_floatFiring h

theorem memSafe_execFmulImm {p : Par} {mode : Mode} {imm : BitVec 32} {s : State} (h : Safety.MemInv s) : MemSafe (execFmulImm p mode
    imm s) := by
  unfold execFmulImm
  exact State.memSafe_floatFiring h

theorem memSafe_execFfma {p : Par} {mode : Mode} {s : State} (h : Safety.MemInv s) : MemSafe (execFfma p mode s) := by
  unfold execFfma
  exact State.memSafe_floatFiring h

theorem memSafe_execFfmaImm {p : Par} {mode : Mode} {imm : BitVec 32} {s : State} (h : Safety.MemInv s) : MemSafe (execFfmaImm p mode
    imm s) := by
  unfold execFfmaImm
  exact State.memSafe_floatFiring h

theorem memSafe_execFdiv {p : Par} {mode : Mode} {s : State} (h : Safety.MemInv s) : MemSafe (execFdiv p mode s) := by
  unfold execFdiv
  exact State.memSafe_floatFiring (State.memInv_takeFloatDivide h)

theorem memSafe_execFdivImm {p : Par} {mode : Mode} {imm : BitVec 32} {s : State} (h : Safety.MemInv s) : MemSafe (execFdivImm p mode
    imm s) := by
  unfold execFdivImm
  exact State.memSafe_floatFiring (State.memInv_takeFloatDivide h)

theorem memSafe_execFsqrt {p : Par} {mode : Mode} {s : State} (h : Safety.MemInv s) : MemSafe (execFsqrt p mode s) := by
  unfold execFsqrt
  exact State.memSafe_floatFiring (State.memInv_takeFloatDivide h)

theorem memSafe_execFrcp {p : Par} {mode : Mode} {s : State} (h : Safety.MemInv s) : MemSafe (execFrcp p mode s) := by
  unfold execFrcp
  exact State.memSafe_floatFiring (State.memInv_takeFloatDivide h)

theorem memSafe_execFrsq {p : Par} {mode : Mode} {s : State} (h : Safety.MemInv s) : MemSafe (execFrsq p mode s) := by
  unfold execFrsq
  exact State.memSafe_floatFiring (State.memInv_takeFloatDivide h)

theorem memSafe_execFmin {p : Par} {s : State} (h : Safety.MemInv s) : MemSafe (execFmin p s) := by
  unfold execFmin
  exact State.memSafe_floatFiring h

theorem memSafe_execFminImm {p : Par} {imm : BitVec 32} {s : State} (h : Safety.MemInv s) : MemSafe (execFminImm p imm s) := by
  unfold execFminImm
  exact State.memSafe_floatFiring h

theorem memSafe_execFmax {p : Par} {s : State} (h : Safety.MemInv s) : MemSafe (execFmax p s) := by
  unfold execFmax
  exact State.memSafe_floatFiring h

theorem memSafe_execFmaxImm {p : Par} {imm : BitVec 32} {s : State} (h : Safety.MemInv s) : MemSafe (execFmaxImm p imm s) := by
  unfold execFmaxImm
  exact State.memSafe_floatFiring h

theorem memSafe_execFabs {p : Par} {s : State} (h : Safety.MemInv s) : MemSafe (execFabs p s) := by
  unfold execFabs
  exact State.memSafe_floatFiring h

theorem memSafe_execFneg {p : Par} {s : State} (h : Safety.MemInv s) : MemSafe (execFneg p s) := by
  unfold execFneg
  exact State.memSafe_floatFiring h

theorem memSafe_execFcmp {p : Par} {cond : FltCond} {s : State} (h : Safety.MemInv s) : MemSafe (execFcmp p cond s) := by
  unfold execFcmp
  exact State.memSafe_floatWord h

theorem memSafe_execFcmpImm {p : Par} {cond : FltCond} {imm : BitVec 32} {s : State} (h : Safety.MemInv s) : MemSafe (execFcmpImm p
    cond imm s) := by
  unfold execFcmpImm
  exact State.memSafe_floatWord h

theorem memSafe_execFclass {p : Par} {s : State} (h : Safety.MemInv s) : MemSafe (execFclass p s) := by
  unfold execFclass
  exact State.memSafe_floatFiring h

theorem memSafe_execFcvt {p : Par} {mode : Mode} {sat : Bool} {dty : Ty} {s : State} (h : Safety.MemInv s) : MemSafe (execFcvt p mode
    sat dty s) := by
  unfold execFcvt
  exact State.memSafe_floatFiring h

theorem memSafe_execFtoi {p : Par} {mode : Mode} {dty : Ty} {s : State} (h : Safety.MemInv s) : MemSafe (execFtoi p mode dty s) := by
  unfold execFtoi
  exact State.memSafe_floatWord h

theorem memSafe_execItof {p : Par} {mode : Mode} {sat : Bool} {dty : Ty} {s : State} (h : Safety.MemInv s) : MemSafe (execItof p mode
    sat dty s) := by
  unfold execItof
  exact State.memSafe_floatFiring h

theorem memSafe_execFrnd {p : Par} {mode : Mode} {s : State} (h : Safety.MemInv s) : MemSafe (execFrnd p mode s) := by
  unfold execFrnd
  exact State.memSafe_floatFiring h

theorem memSafe_execFldx {p : Par} {mode : Mode} {s : State} (h : Safety.MemInv s) : MemSafe (execFldx p mode s) := by
  unfold execFldx
  exact State.memSafe_floatFiring h

theorem memSafe_execFldxImm {p : Par} {mode : Mode} {imm : BitVec 32} {s : State} (h : Safety.MemInv s) : MemSafe (execFldxImm p mode
    imm s) := by
  unfold execFldxImm
  exact State.memSafe_floatFiring h

theorem memSafe_execFgetx {p : Par} {s : State} (h : Safety.MemInv s) : MemSafe (execFgetx p s) := by
  unfold execFgetx
  exact State.memSafe_floatWord h

theorem memSafe_execFexp2f {p : Par} {s : State} (h : Safety.MemInv s) : MemSafe (execFexp2f p s) := by
  unfold execFexp2f
  exact State.memSafe_floatFiring h

theorem memSafe_exec {i : Instr} {s : State} (h : Safety.MemInv s) : MemSafe (exec i s) := by
  cases i
  · exact memSafe_execPass h
  · exact memSafe_execConst h
  · exact memSafe_execSteer h
  · exact memSafe_execSteerImm h
  · exact memSafe_execGate h
  · exact memSafe_execGateImm (_imm := ‹BitVec 32›) h
  · exact memSafe_execDisp h
  · exact memSafe_execDispImm h
  · exact memSafe_execJoin h
  · exact memSafe_execJoin3 h
  · exact memSafe_execJoinImm h
  · exact memSafe_execJoin3Imm h
  · exact memSafe_execCntn h
  · exact memSafe_execFnew h
  · exact memSafe_execFnewNamed (_place := ‹Place›) h
  · exact memSafe_execFnewNamedImm (_place := ‹Place›) h
  · exact memSafe_execSendf h
  · exact memSafe_execMkcont h
  · exact memSafe_execIter h
  · exact memSafe_execIter2 h
  · exact memSafe_execIter2Imm h
  · exact memSafe_execExit h
  · exact memSafe_execFset h
  · exact memSafe_execFget h
  · exact memSafe_execIseos h
  · exact memSafe_execMkeos h
  · exact memSafe_execSend h
  · exact memSafe_execSendImm h
  · exact memSafe_execPhopen h
  · exact memSafe_execPhclose h
  · exact memSafe_execSelf h
  · exact memSafe_execLevel h
  · exact memSafe_execAdd h
  · exact memSafe_execAddImm h
  · exact memSafe_execSub h
  · exact memSafe_execSubImm h
  · exact memSafe_execMul h
  · exact memSafe_execMulImm h
  · exact memSafe_execMulh h
  · exact memSafe_execMulhImm h
  · exact memSafe_execDiv h
  · exact memSafe_execDivImm h
  · exact memSafe_execRem h
  · exact memSafe_execRemImm h
  · exact memSafe_execAnd h
  · exact memSafe_execAndImm h
  · exact memSafe_execOr h
  · exact memSafe_execOrImm h
  · exact memSafe_execXor h
  · exact memSafe_execXorImm h
  · exact memSafe_execAndn h
  · exact memSafe_execAndnImm h
  · exact memSafe_execShl h
  · exact memSafe_execShlImm h
  · exact memSafe_execShr h
  · exact memSafe_execShrImm h
  · exact memSafe_execSar h
  · exact memSafe_execSarImm h
  · exact memSafe_execRol h
  · exact memSafe_execRolImm h
  · exact memSafe_execMin h
  · exact memSafe_execMinImm h
  · exact memSafe_execMax h
  · exact memSafe_execMaxImm h
  · exact memSafe_execAbs h
  · exact memSafe_execNeg h
  · exact memSafe_execClz h
  · exact memSafe_execCtz h
  · exact memSafe_execPopc h
  · exact memSafe_execCmp h
  · exact memSafe_execCmpImm h
  · exact memSafe_execSel h
  · exact memSafe_execSelImm h
  · exact memSafe_execExt h
  · exact memSafe_execExtImm h
  · exact memSafe_execIns h
  · exact memSafe_execInsImm h
  · exact memSafe_execMad h
  · exact memSafe_execMadImm h
  · exact memSafe_execAdds h
  · exact memSafe_execAddsImm h
  · exact memSafe_execSubs h
  · exact memSafe_execSubsImm h
  · exact memSafe_execFadd h
  · exact memSafe_execFaddImm h
  · exact memSafe_execFsub h
  · exact memSafe_execFsubImm h
  · exact memSafe_execFmul h
  · exact memSafe_execFmulImm h
  · exact memSafe_execFfma h
  · exact memSafe_execFfmaImm h
  · exact memSafe_execFdiv h
  · exact memSafe_execFdivImm h
  · exact memSafe_execFsqrt h
  · exact memSafe_execFrcp h
  · exact memSafe_execFrsq h
  · exact memSafe_execFmin h
  · exact memSafe_execFminImm h
  · exact memSafe_execFmax h
  · exact memSafe_execFmaxImm h
  · exact memSafe_execFabs h
  · exact memSafe_execFneg h
  · exact memSafe_execFcmp h
  · exact memSafe_execFcmpImm h
  · exact memSafe_execFclass h
  · exact memSafe_execFcvt h
  · exact memSafe_execFtoi h
  · exact memSafe_execItof h
  · exact memSafe_execFrnd h
  · exact memSafe_execFldx h
  · exact memSafe_execFldxImm h
  · exact memSafe_execFgetx h
  · exact memSafe_execFexp2f h
  · exact memSafe_execTalloc h
  · exact memSafe_execTref h
  · exact memSafe_execTdrop h
  · exact memSafe_execTview h
  · exact memSafe_execTviewImm h
  · exact memSafe_execTinfo h
  · exact memSafe_execTfill h
  · exact memSafe_execTfillImm h
  · exact memSafe_execTcopy h
  · exact memSafe_execTcopyInto h
  · exact memSafe_execTtran h
  · exact memSafe_execTget h
  · exact memSafe_execTgetImm h
  · exact memSafe_execTset h
  · exact memSafe_execTsetImm h
  · exact memSafe_execVrunA h
  · exact memSafe_execVrunAb h
  · exact memSafe_execVrunAo h
  · exact memSafe_execVrunAbo h
  · exact memSafe_execVruns h
  · exact memSafe_execVruns2 h
  · exact memSafe_execVstat h
  · exact memSafe_execWld h
  · exact memSafe_execWfree h
  · exact memSafe_execMma h
  · exact memSafe_execMmas h
  · exact memSafe_execMmasImm h
  · exact memSafe_execAdrain h
  · exact memSafe_execAdrainImm h
  · exact memSafe_execAdrainSteer h
  · exact memSafe_execAdrainSteerImm h
  · exact memSafe_execAclr h
  · exact memSafe_execWinfo h
  · exact memSafe_execMstat h
  · exact memSafe_execLd h
  · exact memSafe_execSt h
  · exact memSafe_execStImm h
  · exact memSafe_execLdt h
  · exact memSafe_execLdtScaled h
  · exact memSafe_execStt h
  · exact memSafe_execSttScaled h
  · exact memSafe_execCopy (_scl := ‹Bool›) h
  · exact memSafe_execCopyAddr (_scl := ‹Bool›) h
  · exact memSafe_execGath h
  · exact memSafe_execScat h
  · exact memSafe_execCred (_rop := ‹RedOp›) h
  · exact memSafe_execDrain h
  · exact memSafe_execPfh h
  · exact memSafe_execAop h
  · exact memSafe_execAopImm h
  · exact memSafe_execAcas h
  · exact memSafe_execAcasImm h
  · exact memSafe_execBupd h
  · exact memSafe_execBaxpy h
  · exact memSafe_execBaxpyImm h
  · exact memSafe_execBara h
  · exact memSafe_execBaraStatus h
  · exact memSafe_execBaraImm h
  · exact memSafe_execBarw h
  · exact memSafe_execBarwImm h
  · exact memSafe_execAcq h
  · exact memSafe_execRel h
  · exact memSafe_execPclm h
  · exact memSafe_execPclmImm h
  · exact memSafe_execPcmt h
  · exact memSafe_execPcmtImm h
  · exact memSafe_execPawt h
  · exact memSafe_execPawtImm h
  · exact memSafe_execPret h
  · exact memSafe_execPretImm h
  · exact memSafe_execPinfo h
  · exact memSafe_execQput h
  · exact memSafe_execQputArgs h
  · exact memSafe_execQwait h
  · exact memSafe_execCload h
  · exact memSafe_execCsel h
  · exact memSafe_execCswt h
  · exact memSafe_execCfree h
  · exact memSafe_execTrap h
  · exact memSafe_execTret h
  · exact memSafe_execGetc h
  · exact memSafe_execSetc h
  · exact memSafe_execSetcFpflags h
  · exact memSafe_execSetcWatch h
  · exact memSafe_execSetcTimerCmp h
  · exact memSafe_execSetcRasInject h
  · exact memSafe_execTime h
  · exact memSafe_execTrace h
  · exact memSafe_execTrace2 h
  · exact memSafe_execPerf h
  · exact memSafe_execIfrd h
  · exact memSafe_execSbind h
  · exact memSafe_execXtset h
  · exact memSafe_execTokenAccept h
  · exact memSafe_execQuarantineReport h
  · exact memSafe_execSourcePortArrival h
  · exact memSafe_execTileTransferReceive h
  · exact memSafe_execFrameGrant h
  · exact memSafe_execTileAllocationGrant h
  · exact memSafe_execWeightSlotGrant h
  · exact memSafe_execTokenPromotion h
  · exact memSafe_execMemoryRequestPerform h
  · exact memSafe_execMemoryResponse h
  · exact memSafe_execRemoteTimeout h
  · exact memSafe_execBarwRelease h
  · exact memSafe_execAcqGrant h
  · exact memSafe_execPipeWaitGrant h
  · exact memSafe_execWldLoadComplete h
  · exact memSafe_execEngineArbitration h
  · exact memSafe_execMmaRowIssue h
  · exact memSafe_execMmaRowCommit h
  · exact memSafe_execPanDeadline h
  · exact memSafe_execVrunStart h
  · exact memSafe_execVrunComplete h
  · exact memSafe_execEngineCommandComplete h
  · exact memSafe_execCopyComplete h
  · exact memSafe_execCloadComplete h
  · exact memSafe_execDrainComplete h
  · exact memSafe_execQwaitComplete h
  · exact memSafe_execRegionSweep h
  · exact memSafe_execPhcloseReturn h
  · exact memSafe_execCselSwitch h
  · exact memSafe_execCswtInstant h
  · exact memSafe_execCfreeComplete h
  · exact memSafe_execContextCompletion h
  · exact memSafe_execHandlerEntry h
  · exact memSafe_execOrphan h
  · exact memSafe_execTimer h
  · exact memSafe_execFreeze h
  · exact memSafe_execFreezeMark h
  · exact memSafe_execDrainMarker h
  · exact memSafe_execFence h
  · exact memSafe_execSettleTimeout h
  · exact memSafe_execContextSave h
  · exact memSafe_execContextRestore h
  · exact memSafe_execReplayRequest h
  · exact memSafe_execDoorbell h
  · exact memSafe_execHostRegisterWrite h
  · exact memSafe_execPacketRead h
  · exact memSafe_execLaunch h
  · exact memSafe_execGang h
  · exact memSafe_execConfigurationLoad h
  · exact memSafe_execBarrier h
  · exact memSafe_execPreemptSave h
  · exact memSafe_execPreemptResume h
  · exact memSafe_execPreemptAbandon h
  · exact memSafe_execDependenceMet h
  · exact memSafe_execAdmissionGrant h
  · exact memSafe_execExtentBuild h
  · exact memSafe_execArgumentInjection h
  · exact memSafe_execHalt h
  · exact memSafe_execStepNamed h
  · exact memSafe_execStepNext h
  · exact memSafe_execStepEnd h
  · exact memSafe_execArm h
  · exact memSafe_execCancel h
  · exact memSafe_execSethen h
  · exact memSafe_execSetbrk h
  · exact memSafe_execRead h
  · exact memSafe_execCairnMessage h
  · exact memSafe_execCauseReport h
  · exact memSafe_execMemberReportTimeout h
  · exact memSafe_execResumeInstant h
  · exact memSafe_execRightsMessage h
  · exact memSafe_execTranslationWalk h
  · exact memSafe_execFqreplyRetry h
  · exact memSafe_execFqreplyAbort h
  · exact memSafe_execTlbInvalidate h
  · exact memSafe_execPageMigration h
  · exact memSafe_execHostWindowAccess h
  · exact memSafe_execWatershedDivision h
  · exact memSafe_execMarginBackoff h
  · exact memSafe_execMarginBarExpiry h
  · exact memSafe_execPredictiveFailure h
  · exact memSafe_execFlitRetry h
  · exact memSafe_execLinkDown h
  · exact memSafe_execKeyRenewal h
  · exact memSafe_execGtcSync h
  · exact memSafe_execPowerRemoval h
  · exact memSafe_execPackageReset h
  · exact memSafe_execBootStateAdvance h
  · exact memSafe_execCoreAssignment h
  · exact memSafe_execTenantCreate h
  · exact memSafe_execTenantDestroy h
  · exact memSafe_execCoreMarkFailed h
  · exact memSafe_execLogicalTableWrite h
  · exact memSafe_execGetVersion h
  · exact memSafe_execGetCapabilities h
  · exact memSafe_execNegotiateAlgorithms h
  · exact memSafe_execGetDigests h
  · exact memSafe_execGetCertificate h
  · exact memSafe_execChallenge h
  · exact memSafe_execGetMeasurements h
  · exact memSafe_execKeyExchange h
  · exact memSafe_execFinish h
  · exact memSafe_execEndSession h
  · exact memSafe_execUnsupportedRequest h
  · exact memSafe_execRetentionWindowExpiry h
  · exact memSafe_execTdispStateChange h
  · exact memSafe_execJobMembershipList h
  · exact memSafe_execConnectionTableWrite h
  · exact memSafe_execTransportError h

theorem State.memInv_clearMatch {s : State} {core frame ar slot : Nat} (h : Safety.MemInv s) : Safety.MemInv (s.clearMatch core frame
    ar slot) := by
  unfold State.clearMatch
  split
  · exact h
  · exact State.memInv_modFrame h

theorem State.memInv_codeError {s : State} {core : Nat} {q : QTok} {i : Nat} (h : Safety.MemInv s) : Safety.MemInv (s.codeError core q
    i) := by
  unfold State.codeError
  dsimp only
  split
  · exact State.memInv_abandon (State.memInv_record (State.memInv_countUe h))
  · exact State.memInv_trap (State.memInv_countUe h)

theorem State.memInv_startFiring {s : State} {core cls : Nat} {q : QTok} {w : Fields} (h : Safety.MemInv s) : Safety.MemInv
    (s.startFiring core cls q w) := by
  unfold State.startFiring
  split
  · exact h
  · dsimp only
    with_reducible refine State.memInv_with rfl ?_
    refine State.memInv_clearMatch ?_
    split
    · exact State.memInv_histCount (State.memInv_countErrs (State.memInv_foldl _ (fun s x h => State.memInv_release
        (State.memInv_countUe h)) _ _ h))
    · exact State.memInv_countErrs (State.memInv_foldl _ (fun s x h => State.memInv_release (State.memInv_countUe h)) _ _ h)

theorem State.memSafe_runToken {s : State} {core cls : Nat} {q : QTok} (h : Safety.MemInv s) : MemSafe (s.runToken core cls q) := by
  unfold State.runToken
  dsimp only
  split
  · exact memSafe_next (State.memInv_quarantine (State.memInv_modQueues h))
  · split
    · exact memSafe_next (State.memInv_modTok (State.memInv_modQueues h))
    · split
      · exact memSafe_next (State.memInv_perfCtx (State.memInv_park (State.memInv_modQueues h)))
      · split
        · exact memSafe_next (State.memInv_codeError (State.memInv_countErrs (State.memInv_modQueues h)))
        · split
          · exact memSafe_exec (State.memInv_startFiring (State.memInv_countErrs (State.memInv_modQueues h)))
          · exact memSafe_next h

theorem State.memSafe_select {s : State} {core : Nat} {busy : List Nat} (h : Safety.MemInv s) : MemSafe (s.select core busy) := by
  unfold State.select
  split
  · exact memSafe_next h
  · exact State.memSafe_runToken (State.memInv_countFired h)

theorem State.memInv_advance {s : State} {ps : Nat} (h : Safety.MemInv s) : Safety.MemInv (s.advance ps) := by
  unfold State.advance
  split
  · exact h
  · with_reducible exact State.memInv_with rfl (State.memInv_modPlat (State.memInv_with rfl h))

theorem State.memInv_upset {s : State} {store core idx sub cls : Nat} (h : Safety.MemInv s) : Safety.MemInv (s.upset store core idx sub
    cls) := by
  unfold State.upset
  dsimp only
  split
  · exact State.memInv_modMs (fun m => rfl) h
  · exact State.memInv_modTileIdx h
  · exact State.memInv_modFrame h
  · exact State.memInv_modEng h
  · exact State.memInv_modCore h
  · exact State.memInv_modCore h
  · exact State.memInv_modEng h

theorem State.memInv_remoteAnswer {s : State} {id pkg status : Nat} {result : Word} {bytes : List Byte} (h : Safety.MemInv s) :
    Safety.MemInv (s.remoteAnswer id pkg status result bytes) := by
  unfold State.remoteAnswer
  split
  · exact h
  · dsimp only
    split
    · exact State.memInv_settleReq (State.memInv_modReq h)
    · exact h

theorem State.memInv_netAnswer {s : State} {id : Nat} {ok : Bool} {bytes : List Byte} (h : Safety.MemInv s) : Safety.MemInv
    (s.netAnswer id ok bytes) := by
  unfold State.netAnswer
  split
  · exact h
  · split
    · exact State.memInv_settleReq (State.memInv_modReq h)
    · exact h

theorem State.memInv_farFence {s : State} {pkg ctx core : Nat} (h : Safety.MemInv s) : Safety.MemInv (s.farFence pkg ctx core) := by
  unfold State.farFence
  dsimp only
  split
  · exact h
  · exact State.memInv_send (State.memInv_modMs (fun m => rfl) h)

theorem State.memInv_releaseFar {s : State} {pkg ctx : Nat} (h : Safety.MemInv s) : Safety.MemInv (s.releaseFar pkg ctx) := by
  unfold State.releaseFar
  exact State.memInv_modMs (fun m => rfl) h

theorem State.memInv_misroute {s : State} {i die : Nat} (h : Safety.MemInv s) : Safety.MemInv (s.misroute i die) := by
  unfold State.misroute
  split
  · exact h
  · split
    · exact h
    · dsimp only
      split
      · split
        · with_reducible exact State.memInv_record (State.memInv_countRoute (State.memInv_with rfl h))
        · with_reducible exact State.memInv_send (State.memInv_countRoute (State.memInv_with rfl h))
      · split
        · with_reducible exact State.memInv_record (State.memInv_countRoute (State.memInv_countDropped (State.memInv_with rfl h)))
        · with_reducible exact State.memInv_send (State.memInv_countRoute (State.memInv_countDropped (State.memInv_with rfl h)))

theorem State.memInv_departed {s : State} {i k : Nat} (h : Safety.MemInv s) : Safety.MemInv (s.departed i k) := by
  unfold State.departed
  split
  · exact h
  · split
    · exact State.memInv_leaveGran h
    · exact h

theorem State.memInv_adopt {s : State} {c : Ctx} {seed : Nat} {log : List Logged} (h : Safety.MemInv s) : Safety.MemInv (s.adopt c seed
    log) := by
  unfold State.adopt
  split
  · exact h
  · dsimp only
    with_reducible refine State.memInv_with rfl ?_
    refine State.memInv_modDisp ?_
    refine State.memInv_modMs (fun m => rfl) ?_
    split
    · exact h
    · exact State.memInv_modPlat h

theorem State.memInv_fromOutside {s : State} {o : Outside} (h : Safety.MemInv s) : Safety.MemInv (s.fromOutside o) := by
  unfold State.fromOutside
  split
  · split
    · exact h
    · exact State.memInv_countDropped h
  · exact h
  · exact State.memInv_remoteAnswer h
  · exact State.memInv_netAnswer h
  · split
    · exact State.memInv_modMs (fun m => rfl) h
    · exact State.memInv_send h
  · exact State.memInv_upset h
  · exact State.memInv_misroute h
  · exact State.memInv_departed h
  · split
    · exact State.memInv_modPlat h
    · exact h
  · exact State.memInv_hostReads h
  · exact State.memInv_modMs (fun m => rfl) h
  · exact h
  · exact h
  · exact State.memInv_modMs (fun m => rfl) h
  · exact State.memInv_modDisp h
  · exact State.memInv_modDisp h
  · exact State.memInv_modPlat h
  · exact State.memInv_modPlat h
  · exact State.memInv_modPlat h
  · split
    · exact h
    · exact State.memInv_trap h
  · exact State.memInv_modMs (fun m => rfl) h
  · exact State.memInv_farFence h
  · exact State.memInv_stopJobs (State.memInv_modCtx (State.memInv_modMs (fun m => rfl) h))
  · exact State.memInv_manageLoad h
  · split
    · exact State.memInv_relayed h
    · exact State.memInv_countDropped h
  · exact State.memInv_armAck h
  · exact State.memInv_takeCommand h
  · exact State.memInv_releaseFar h
  · exact State.memInv_send (State.memInv_modMs (fun m => rfl) h)
  · exact State.memInv_endWatchWaits (State.memInv_modCtx h)
  · exact State.memInv_cancelBack h
  · exact State.memInv_modPort h
  · exact State.memInv_modPort h
  · exact State.memInv_modPort h
  · split
    · exact State.memInv_modVf h
    · exact h
  · exact State.memInv_adopt h
  · exact State.memInv_modPlat h

theorem State.memSafe_perform {s : State} {a : Act} (h : Safety.MemInv s) : MemSafe (s.perform a) := by
  unfold State.perform
  split
  · exact State.memSafe_select h
  · split
    · exact memSafe_exec h
    · exact memSafe_next h
  · exact memSafe_next (State.memInv_fromOutside h)
  · exact memSafe_next h

theorem memSafe_step {s : State} (h : Safety.MemInv s) : MemSafe (step s) := by
  unfold step
  with_reducible exact State.memSafe_perform (State.memInv_advance (State.memInv_with rfl h))

theorem State.memInv_withFetchWord {s : State} {nbits w : Nat} (h : Safety.MemInv s) : Safety.MemInv (s.withFetchWord nbits w) := by
  unfold State.withFetchWord
  with_reducible exact State.memInv_with rfl (State.memInv_modCore h)
end Sys2Proof.Machine

namespace Sys2Proof.Claims
open Sys2Proof.Machine

/-- Settles O55: each operation that a step performs keeps memory in canonical form, so the whole step does. -/
theorem memoryStaysCanonical : Obligations.MemoryStaysCanonical := by
  unfold Obligations.MemoryStaysCanonical
  exact fun s t h e => memSafe_step h t e

end Sys2Proof.Claims
end


section
/-! PROOFS. The residue check of the scalar unit (R98, R123), saturation, order, counts and bit fields (R117, R118, R121, R122). -/

namespace Sys2Proof.Machine

open Sys2Proof.Claims

/-! ## The predicted residues are those of the results (R123) -/

theorem predAdd_residue255 (a b : Word) : predAdd (residue255 a) (residue255 b) a b = residue255 (a + b) := by
  simp only [predAdd, carryOut, residue255, BitVec.toNat_add]
  split <;> omega

theorem predSub_residue255 (a b : Word) : predSub (residue255 a) (residue255 b) a b = residue255 (a - b) := by
  simp only [predSub, borrowOut, residue255, BitVec.toNat_sub]
  split <;> omega

theorem predMul_residue255 (a b : Word) : predMul (residue255 a) (residue255 b) a b = residue255 (a * b) := by
  have hmul : residue255 a * residue255 b % 255 = a.toNat * b.toNat % 255 := (Nat.mul_mod ..).symm
  have hlow : residue255 (a * b) = a.toNat * b.toNat % 2 ^ 64 % 255 := by rw [residue255, BitVec.toNat_mul]
  rw [predMul, highPart, hlow]
  omega

theorem predMad_residue255 (a b c : Word) :
    predMad (residue255 a) (residue255 b) (residue255 c) a b c = residue255 (a * b + c) := by
  rw [predMad, predMul_residue255, ← predAdd_residue255]
  rfl

/-! ## A firing whose residue check passes (R97, R98) -/

theorem State.scalarNum_of_check {s : State} {p : Par} {ops : List Tok} {check : Bool} (h : scalars s ops) (hcheck : check = true)
    (v : Word) : s.scalarNum p ops ops check v = gives s p ops v := by
  rw [hcheck]
  exact State.scalarNum_of_scalars h v

theorem immTok_eq (t : Ty) (imm : BitVec 32) :
    immTok t imm = { val := immediate t imm, kind := kScalar, res := residue255 (immediate t imm) } := by
  rw [← immTok_val]
  rfl

/-- An instruction of two operands whose residue check predicts the residue of its 64-bit result. -/
theorem binary_of_residue {f : Par → Instr} {g : Par → BitVec 32 → Instr} (op : Word → Word → Word)
    (pred : Nat → Nat → Word → Word → Nat) (hpred : ∀ a b, pred (residue255 a) (residue255 b) a b = residue255 (op a b))
    (hf : ∀ p s, exec (f p) s = s.scalarNum p [s.cur.l, s.cur.r] [s.cur.l, s.cur.r]
      (pred s.cur.l.res s.cur.r.res s.cur.l.val s.cur.r.val == residue255 (op s.cur.l.val s.cur.r.val))
      (extendTy p.ty (op s.cur.l.val s.cur.r.val).toNat))
    (hg : ∀ p imm s, exec (g p imm) s = s.scalarNum p [s.cur.l] [s.cur.l]
      (pred s.cur.l.res (immTok p.ty imm).res s.cur.l.val (immTok p.ty imm).val ==
        residue255 (op s.cur.l.val (immTok p.ty imm).val))
      (extendTy p.ty (op s.cur.l.val (immTok p.ty imm).val).toNat)) :
    binary f g (fun t a b => fit t (op a b)) := by
  intro s p imm ht
  have hfit := fit_eq_extendTy (mem_tyIntOrNone (.inl ht))
  constructor
  · intro h
    have hl : readable s.cur.l := h.1 _ (by simp)
    have hr : readable s.cur.r := h.1 _ (by simp)
    rw [hf, State.scalarNum_of_check h (by rw [hl.2, hr.2, hpred, beq_self_eq_true]), ← hfit]
  · intro h
    have hl : readable s.cur.l := h.1 _ (by simp)
    rw [hg, State.scalarNum_of_check h (by rw [immTok_eq, hl.2, hpred, beq_self_eq_true]), immTok_val, ← hfit]

theorem exec_mad {s : State} {p : Par} (ht : isInteger p.ty) (h : scalars s [s.cur.l, s.cur.r, s.cur.c]) :
    exec (.mad p) s = gives s p [s.cur.l, s.cur.r, s.cur.c] (fit p.ty (s.cur.l.val * s.cur.r.val + s.cur.c.val)) := by
  have hl : readable s.cur.l := h.1 _ (by simp)
  have hr : readable s.cur.r := h.1 _ (by simp)
  have hc : readable s.cur.c := h.1 _ (by simp)
  change execMad p s = _
  rw [execMad, State.scalarNum_of_check h (by rw [hl.2, hr.2, hc.2, predMad_residue255, beq_self_eq_true]),
    fit_eq_extendTy (mem_tyIntOrNone (.inl ht)), intMad]

theorem exec_madImm {s : State} {p : Par} {imm : BitVec 32} (ht : isInteger p.ty) (h : scalars s [s.cur.l, s.cur.r]) :
    exec (.madImm p imm) s =
      gives s p [s.cur.l, s.cur.r] (fit p.ty (s.cur.l.val * s.cur.r.val + immediate p.ty imm)) := by
  have hl : readable s.cur.l := h.1 _ (by simp)
  have hr : readable s.cur.r := h.1 _ (by simp)
  change execMadImm p imm s = _
  rw [execMadImm, immTok_eq]
  dsimp only
  rw [State.scalarNum_of_check h (by rw [hl.2, hr.2, predMad_residue255, beq_self_eq_true]),
    fit_eq_extendTy (mem_tyIntOrNone (.inl ht)), intMad]

/-! ## Products, saturation and order (R117, R118) -/

theorem unary_of_firing {f : Par → Instr} {v : Ty → Word → Word} (op : Ty → Word → Word)
    (hf : ∀ p s, exec (f p) s = s.scalarNum p [s.cur.l] [s.cur.l] true (op p.ty s.cur.l.val))
    (hv : ∀ t ∈ tyIntOrNone, ∀ a, op t a = v t a) : unary f v := by
  intro s p ht h
  rw [hf, State.scalarNum_of_scalars h, hv p.ty (mem_tyIntOrNone (.inl ht))]

theorem clampInt_eq_max_min {lo hi : Int} (h : lo ≤ hi) (i : Int) : clampInt lo hi i = max lo (min hi i) := by
  unfold clampInt
  split
  · omega
  · split <;> omega

theorem tyMin_le_tyMax (t : Ty) : tyMin t ≤ tyMax t := by cases t <;> decide

theorem tyMin_eq {t : Ty} (ht : t ∈ tyIntOrNone) : tyMin t = if isSigned t then -2 ^ (width t - 1) else 0 := by
  rw [tyMin, isSigned_eq_tySigned, width_eq_tyBits ht]

theorem tyMax_eq {t : Ty} (ht : t ∈ tyIntOrNone) :
    tyMax t = if isSigned t then 2 ^ (width t - 1) - 1 else 2 ^ width t - 1 := by
  rw [tyMax, isSigned_eq_tySigned, width_eq_tyBits ht]

/-- A number brought into the range of a type. -/
theorem reduceInt_clampInt {t : Ty} (ht : t ∈ tyIntOrNone) (i : Int) :
    reduceInt t (clampInt (tyMin t) (tyMax t) i) =
      reduced t (max (if isSigned t then -2 ^ (width t - 1) else 0)
        (min (if isSigned t then 2 ^ (width t - 1) - 1 else 2 ^ width t - 1) i)) := by
  rw [clampInt_eq_max_min (tyMin_le_tyMax t), tyMin_eq ht, tyMax_eq ht, reduced_eq_reduceInt ht]

section Values

variable {t : Ty} (ht : t ∈ tyIntOrNone) (a b : Word)
include ht

theorem intMulh_eq : intMulh t a b = reduced t (number t a * number t b / 2 ^ width t) := by
  rw [number_eq_readInt ht, number_eq_readInt ht, reduced_eq_reduceInt ht, width_eq_tyBits ht, intMulh]

theorem intAdds_eq : intAdds t a b = reduced t (max (if isSigned t then -2 ^ (width t - 1) else 0)
    (min (if isSigned t then 2 ^ (width t - 1) - 1 else 2 ^ width t - 1) (number t a + number t b))) := by
  rw [intAdds, reduceInt_clampInt ht, number_eq_readInt ht, number_eq_readInt ht]

theorem intSubs_eq : intSubs t a b = reduced t (max (if isSigned t then -2 ^ (width t - 1) else 0)
    (min (if isSigned t then 2 ^ (width t - 1) - 1 else 2 ^ width t - 1) (number t a - number t b))) := by
  rw [intSubs, reduceInt_clampInt ht, number_eq_readInt ht, number_eq_readInt ht]

theorem intMin_eq : intMin t a b = reduced t (min (number t a) (number t b)) := by
  rw [intMin, reduced_eq_reduceInt ht, number_eq_readInt ht, number_eq_readInt ht, Int.min_def]

theorem intMax_eq : intMax t a b = reduced t (max (number t a) (number t b)) := by
  rw [intMax, reduced_eq_reduceInt ht, number_eq_readInt ht, number_eq_readInt ht, Int.max_def]

theorem intAbs_eq : intAbs t a = reduced t (number t a).natAbs := by
  rw [intAbs, reduced_eq_reduceInt ht, number_eq_readInt ht]

theorem intNeg_eq : intNeg t a = reduced t (-number t a) := by
  rw [intNeg, reduced_eq_reduceInt ht, number_eq_readInt ht]

end Values

/-! ## Counts (R118) -/

/-- The first `k` numbers pass and the next, if there is one, does not. -/
theorem length_takeWhile_range {n k : Nat} {q : Nat → Bool} (hk : k ≤ n) (hq : ∀ i < k, q i = true)
    (hstop : k < n → q k = false) : ((List.range n).takeWhile q).length = k := by
  obtain ⟨m, rfl⟩ := Nat.exists_eq_add_of_le hk
  have hall : ∀ i ∈ List.range k, q i = true := fun i hi => hq i (List.mem_range.1 hi)
  rw [List.range_add, List.takeWhile_append_of_pos hall, List.length_append, List.length_range]
  cases m with
  | zero => simp
  | succ m =>
    simp [List.range_succ_eq_map, hstop (by omega)]

/-- A count of at most w bits is its own extension. -/
theorem extendTy_of_le_width {t : Ty} (ht : t ∈ tyIntOrNone) {n : Nat} (hn : n ≤ tyBits t) : extendTy t n = BitVec.ofNat 64 n := by
  have hsmall : n < 2 ^ (tyBits t - 1) ∧ n < 2 ^ tyBits t := by
    revert hn
    simp only [tyIntOrNone, tyInt, List.mem_append, List.mem_cons, List.not_mem_nil, or_false] at ht
    obtain (rfl | rfl | rfl | rfl | rfl | rfl | rfl | rfl) | rfl := ht
    all_goals
      simp only [tyBits]
      omega
  unfold extendTy
  split
  · rw [sx, Nat.mod_eq_of_lt hsmall.2]
    simp only [hsmall.1, if_true]
    exact BitVec.ofInt_natCast 64 n
  · rw [Nat.mod_eq_of_lt hsmall.2]

/-- A bit of an operand among its low w bits. -/
theorem testBit_lowBits {t : Ty} (a : Word) {i : Nat} (hi : i < tyBits t) : (lowBits t a).testBit i = a.getLsbD i := by
  simp [lowBits, Nat.testBit_mod_two_pow, hi, BitVec.testBit_toNat]

theorem lowBits_lt (t : Ty) (a : Word) : lowBits t a < 2 ^ tyBits t := Nat.mod_lt _ (Nat.two_pow_pos _)

theorem clzNat_le (w v : Nat) : clzNat w v ≤ w := by
  unfold clzNat
  split <;> omega

theorem ctzNat_le (n v : Nat) : ctzNat n v ≤ n := by
  induction n generalizing v with
  | zero => exact Nat.le_refl 0
  | succ n ih =>
    have := ih (v / 2)
    simp only [ctzNat]
    split <;> omega

theorem popNat_le (n v : Nat) : popNat n v ≤ n := by
  induction n generalizing v with
  | zero => exact Nat.le_refl 0
  | succ n ih =>
    have := ih (v / 2)
    simp only [popNat]
    omega

/-- The bits of a number above its highest one are the leading zeros. -/
theorem length_takeWhile_clzNat {w v : Nat} (hv : v < 2 ^ w) :
    ((List.range w).takeWhile fun i => !v.testBit (w - 1 - i)).length = clzNat w v := by
  by_cases h0 : v = 0
  · subst h0
    exact length_takeWhile_range (Nat.le_refl w) (by simp) (fun h => absurd h (by simp [clzNat]))
  · have hlog : Nat.log2 v < w := (Nat.log2_lt h0).2 hv
    have heq : clzNat w v = w - 1 - Nat.log2 v := by simp [clzNat, h0]
    rw [heq]
    refine length_takeWhile_range (by omega) (fun i hi => ?_) (fun h => ?_)
    · rw [Nat.testBit_lt_two_pow, Bool.not_false]
      exact (Nat.log2_lt h0).1 (by omega)
    · rw [show w - 1 - (w - 1 - Nat.log2 v) = Nat.log2 v by omega, Nat.testBit_log2 h0, Bool.not_true]

theorem testBit_ctzNat (n v : Nat) :
    (∀ i < ctzNat n v, v.testBit i = false) ∧ (ctzNat n v < n → v.testBit (ctzNat n v) = true) := by
  induction n generalizing v with
  | zero => exact ⟨fun i hi => absurd hi (Nat.not_lt_zero i), fun h => absurd h (Nat.lt_irrefl 0)⟩
  | succ n ih =>
    by_cases hodd : v % 2 = 1
    · simp [ctzNat, hodd, Nat.testBit_zero]
    · obtain ⟨hzero, hone⟩ := ih (v / 2)
      simp only [ctzNat, beq_iff_eq, hodd, if_false, Nat.add_comm 1]
      refine ⟨fun i hi => ?_, fun h => ?_⟩
      · cases i with
        | zero => simp [Nat.testBit_zero, hodd]
        | succ i => rw [Nat.testBit_succ]; exact hzero i (by omega)
      · rw [Nat.testBit_succ]
        exact hone (by omega)

theorem length_filter_popNat (n v : Nat) : ((List.range n).filter fun i => v.testBit i).length = popNat n v := by
  induction n generalizing v with
  | zero => rfl
  | succ n ih =>
    rw [List.range_succ_eq_map, popNat, ← ih (v / 2), List.filter_cons, List.filter_map, Nat.testBit_zero]
    have hshift : ((fun i => v.testBit i) ∘ Nat.succ) = fun i => (v / 2).testBit i :=
      funext fun i => Nat.testBit_succ v i
    rw [hshift]
    by_cases hodd : v % 2 = 1
    · simp [hodd, Nat.add_comm]
    · simp [show v % 2 = 0 by omega]

section Counts

variable {t : Ty} (ht : t ∈ tyIntOrNone) (a : Word)
include ht

theorem intClz_eq :
    intClz t a = BitVec.ofNat 64 ((List.range (width t)).takeWhile fun i => !a.getLsbD (width t - 1 - i)).length := by
  rw [width_eq_tyBits ht, intClz, extendTy_of_le_width ht (clzNat_le ..),
    ← length_takeWhile_clzNat (lowBits_lt t a)]
  have hpos := tyBits_pos t
  have hbit : (fun i => !(lowBits t a).testBit (tyBits t - 1 - i)) = fun i => !a.getLsbD (tyBits t - 1 - i) :=
    funext fun i => by rw [testBit_lowBits a (by omega)]
  rw [hbit]

theorem intCtz_eq : intCtz t a = BitVec.ofNat 64 ((List.range (width t)).takeWhile fun i => !a.getLsbD i).length := by
  rw [width_eq_tyBits ht, intCtz, extendTy_of_le_width ht (ctzNat_le ..)]
  obtain ⟨hzero, hone⟩ := testBit_ctzNat (tyBits t) (lowBits t a)
  have hle := ctzNat_le (tyBits t) (lowBits t a)
  congr 1
  refine (length_takeWhile_range hle (fun i hi => ?_) (fun h => ?_)).symm
  · rw [← testBit_lowBits a (Nat.lt_of_lt_of_le hi hle), hzero i hi, Bool.not_false]
  · rw [← testBit_lowBits a h, hone h, Bool.not_true]

theorem intPopc_eq : intPopc t a = BitVec.ofNat 64 ((List.range (width t)).filter fun i => a.getLsbD i).length := by
  rw [width_eq_tyBits ht, intPopc, extendTy_of_le_width ht (popNat_le ..), ← length_filter_popNat]
  congr 2
  exact List.filter_congr fun i hi => testBit_lowBits a (List.mem_range.1 hi)

/-! ## Compare (R121) -/

theorem extendTy_boolWord (c : Bool) : extendTy t (boolWord c).toNat = if c then 1 else 0 := by
  have hpos := tyBits_pos t
  cases c
  · exact extendTy_of_le_width ht (n := 0) (by omega)
  · exact extendTy_of_le_width ht (n := 1) (by omega)

end Counts

theorem intCond_eq {t : Ty} (ht : t ∈ tyIntOrNone) (cond : IntCond) (a b : Word) :
    intCond t cond a b = match cond with
      | .eq => decide (number t a = number t b) | .ne => decide (number t a ≠ number t b)
      | .lt => decide (number t a < number t b) | .le => decide (number t a ≤ number t b)
      | .gt => decide (number t b < number t a) | .ge => decide (number t b ≤ number t a)
      | .tst => decide (fit t (a &&& b) ≠ 0) := by
  have htst : decide (fit t (a &&& b) ≠ 0) = (lowBits t (a &&& b) != 0) := by
    simp only [ne_eq, fit_eq_zero_iff ht, decide_not]
    rfl
  simp only [number_eq_readInt ht, htst]
  cases cond <;> rfl

/-! ## A scalar firing on clean operands, those in read positions readable (R94, R97) -/

theorem State.scalarFiring_of_reads {s : State} {p : Par} {rd ops : List Tok} (hrd : scalars s rd) (hops : clean ops)
    (r : Except Nat (Tok × Nat)) :
    s.scalarFiring p rd ops true r = .next (match r with
      | .error st => s.failing p latScalar st ops
      | .ok (t, fl) => (s.raise s.cur.site.ctx fl).finish p latScalar (spread p t) ops) := by
  obtain ⟨hread, hunit⟩ := hrd
  have hall : rd.all isRead = true := List.all_eq_true.2 fun t ht => isRead_of_readable (hread t ht)
  have hfault : s.unitFault s.cur.site.core = false := by simpa [State.unitFault] using hunit
  rw [State.scalarFiring, State.firing_clean (badInput_of_clean hops)]
  cases r <;> simp [hall, hfault]

theorem clean_of_readable {ops : List Tok} (h : ∀ t ∈ ops, readable t) : clean ops := fun t ht => by
  have hkind := (h t ht).1
  refine ⟨fun hp => ?_, fun he => ?_⟩
  · exact hkind.elim (by rw [hp]; decide) (by rw [hp]; decide)
  · exact hkind.elim (by rw [he]; decide) (by rw [he]; decide)

theorem lowBits_ne_zero {t : Ty} (ht : t ∈ tyIntOrNone) (a : Word) : (lowBits t a != 0) = decide (fit t a ≠ 0) := by
  simp only [ne_eq, fit_eq_zero_iff ht, decide_not]
  rfl

/-! ## Bit fields (R122) -/

/-- A field instruction gives its field, or fails where the control word is above 4,095. -/
theorem State.scalarFiring_fieldResult {s : State} {p : Par} {ops : List Tok} (h : scalars s ops) {k v : Word}
    {x : Except Nat Word} (hx : x = if 2 ^ 12 ≤ k.toNat then .error stBadSpace else .ok v) :
    s.scalarFiring p ops ops true (fieldResult s.cur.site x) =
      if k.toNat < 4096 then gives s p ops v else .next (s.failing p latScalar stBadSpace ops) := by
  rw [State.scalarFiring_of_reads h (clean_of_readable h.1), hx]
  by_cases hk : k.toNat < 4096
  · rw [if_neg (by omega), if_pos hk]
    rfl
  · rw [if_pos (by omega), if_neg hk]
    rfl

theorem toNat_extractLsb'_eq_bf (k : Word) (lo len : Nat) : (k.extractLsb' lo len).toNat = bf k.toNat lo len := by
  rw [BitVec.extractLsb'_toNat, Nat.shiftRight_eq_div_pow, bf]

theorem extField_eq {t : Ty} (ht : t = .s64 ∨ t = .z64) (a k : Word) :
    let m := (k.extractLsb' 6 6).toNat + 1
    let f := a.toNat / 2 ^ (k.extractLsb' 0 6).toNat % 2 ^ m
    extField t a k = if 2 ^ 12 ≤ k.toNat then .error stBadSpace
      else .ok (if t = .s64 then BitVec.ofInt 64 ((BitVec.ofNat m f).toInt) else BitVec.ofNat 64 f) := by
  simp only [toNat_extractLsb'_eq_bf, ← sx_eq_toInt (Nat.succ_pos _)]
  obtain rfl | rfl := ht
  · rfl
  · rfl

theorem insField_eq (a b k : Word) :
    let pos := (k.extractLsb' 0 6).toNat
    let mask : Word := BitVec.ofNat 64 ((2 ^ ((k.extractLsb' 6 6).toNat + 1) - 1) * 2 ^ pos)
    insField a b k = if 2 ^ 12 ≤ k.toNat then .error stBadSpace else .ok ((a &&& ~~~mask) ||| ((b <<< pos) &&& mask)) := by
  have hshift (n : Nat) : b <<< n = BitVec.ofNat 64 (b.toNat * 2 ^ n) := by
    apply BitVec.eq_of_toNat_eq
    rw [BitVec.toNat_shiftLeft, BitVec.toNat_ofNat, Nat.shiftLeft_eq]
  simp only [toNat_extractLsb'_eq_bf, hshift]
  rfl

end Sys2Proof.Machine

namespace Sys2Proof.Claims

open Sys2Proof.Machine

/-- Settles O6: the check passes because the predicted residue is the result's, and `fit` is the model's extension. -/
theorem integerSumsAndProducts : Obligations.IntegerSumsAndProducts := by
  unfold Obligations.IntegerSumsAndProducts
  refine ⟨?add, ?sub, ?mul, fun s p imm ht => ⟨exec_mad ht, exec_madImm ht⟩⟩
  case add => exact binary_of_residue (· + ·) predAdd predAdd_residue255 (fun _ _ => rfl) (fun _ _ _ => rfl)
  case sub => exact binary_of_residue (· - ·) predSub predSub_residue255 (fun _ _ => rfl) (fun _ _ _ => rfl)
  case mul => exact binary_of_residue (· * ·) predMul predMul_residue255 (fun _ _ => rfl) (fun _ _ _ => rfl)

/-- Settles O9: each instruction fires with the model's function of its operands, which is the statement's. -/
theorem integerOrderSaturationAndFields : Obligations.IntegerOrderSaturationAndFields := by
  unfold Obligations.IntegerOrderSaturationAndFields
  refine ⟨⟨?mulh, ?adds, ?subs, ?min, ?max, ?abs, ?neg⟩, ?clz, ?ctz, ?popc, ?cmp, ?sel, ?fields⟩
  case mulh => exact binary_of_firing intMulh (fun _ _ => rfl) (fun _ _ _ => rfl) fun _ => intMulh_eq
  case adds => exact binary_of_firing intAdds (fun _ _ => rfl) (fun _ _ _ => rfl) fun _ => intAdds_eq
  case subs => exact binary_of_firing intSubs (fun _ _ => rfl) (fun _ _ _ => rfl) fun _ => intSubs_eq
  case min => exact binary_of_firing intMin (fun _ _ => rfl) (fun _ _ _ => rfl) fun _ => intMin_eq
  case max => exact binary_of_firing intMax (fun _ _ => rfl) (fun _ _ _ => rfl) fun _ => intMax_eq
  case abs => exact unary_of_firing intAbs (fun _ _ => rfl) fun _ => intAbs_eq
  case neg => exact unary_of_firing intNeg (fun _ _ => rfl) fun _ => intNeg_eq
  case clz => exact unary_of_firing intClz (fun _ _ => rfl) fun _ => intClz_eq
  case ctz => exact unary_of_firing intCtz (fun _ _ => rfl) fun _ => intCtz_eq
  case popc => exact unary_of_firing intPopc (fun _ _ => rfl) fun _ => intPopc_eq
  case cmp =>
    intro cond
    refine binary_of_firing (fun t a b => extendTy t (boolWord (intCond t cond a b)).toNat) (fun _ _ => rfl) (fun _ _ _ => rfl) ?_
    intro t ht a b
    rw [extendTy_boolWord ht]
    exact (congrArg (fun c : Bool => (if c then 1 else 0 : Word)) (intCond_eq ht cond a b)).trans (by cases cond <;> rfl)
  case sel =>
    intro s p imm ht hl hrc
    have hlow := lowBits_ne_zero (mem_tyIntOrNone (.inl ht)) s.cur.l.val
    have hclean : clean [s.cur.l] := clean_of_readable hl.1
    constructor
    · change execSel p s = _
      rw [execSel, State.scalarFiring_of_reads hl (List.forall_mem_cons.2 ⟨hclean s.cur.l (by simp), hrc⟩), hlow]
      simp only [decide_eq_true_eq]
      rfl
    · have hr : clean [s.cur.l, s.cur.r] := List.forall_mem_cons.2 ⟨hclean s.cur.l (by simp), fun t h => hrc t (by simp_all)⟩
      rw [← immTok_eq]
      change execSelImm p imm s = _
      rw [execSelImm, State.scalarFiring_of_reads hl hr, hlow]
      simp only [decide_eq_true_eq]
      rfl
  case fields =>
    intro s p imm k pos m f ext mask ht
    refine ⟨?_, ?_, ?_, ?_⟩
    · rintro h rfl
      exact State.scalarFiring_fieldResult h (extField_eq ht ..)
    · intro h hk
      rw [← immTok_val] at hk
      subst hk
      exact State.scalarFiring_fieldResult h (extField_eq ht ..)
    · rintro h rfl
      exact State.scalarFiring_fieldResult h (insField_eq ..)
    · intro h hk
      rw [← immTok_val] at hk
      subst hk
      exact State.scalarFiring_fieldResult h (insField_eq ..)

end Sys2Proof.Claims
end


section
/-! PROOFS. A write event of local memory, sector by sector: what reads back and what stays (R3, R63, R406, R407), and the store
piece that performs one (R208, R335). -/

namespace Sys2Proof.Machine

/-! ## Tables -/

theorem Table.get_insert (t : List (Nat × Nat)) (k v x : Nat) :
    Table.get (Table.insert t k v) x = if x = k then v else Table.get t x := by
  induction t with
  | nil => simp [Table.insert, Table.get, eq_comm (a := k)]
  | cons e es ih =>
    by_cases hk : x = k
    · subst hk
      unfold Table.insert
      split
      · simp [Table.get]
      · split
        · simp [Table.get]
        · rename_i hne
          simp [Table.get, hne, ih]
    · unfold Table.insert
      split
      · simp [Table.get, Ne.symm hk]
      · split
        · rename_i heq
          simp only [beq_iff_eq] at heq
          simp [Table.get, Ne.symm hk, heq]
        · simp [Table.get, hk, ih]

theorem Table.get_erase (t : List (Nat × Nat)) (k x : Nat) :
    Table.get (Table.erase t k) x = if x = k then 0 else Table.get t x := by
  induction t with
  | nil => simp [Table.erase, Table.get]
  | cons e es ih =>
    unfold Table.erase at ih ⊢
    rw [List.filter_cons]
    by_cases he : e.1 = k
    · have hdrop : (e.1 != k) = false := by simp [he]
      rw [hdrop, if_neg Bool.false_ne_true, ih]
      by_cases hx : x = k
      · simp [hx]
      · simp [Table.get, hx, he, Ne.symm hx]
    · have hkeep : (e.1 != k) = true := by simp [he]
      rw [hkeep, if_pos rfl]
      by_cases hx : x = k
      · subst hx
        simp [Table.get, he, ih]
      · simp only [Table.get, ih, if_neg hx]

theorem Table.get_set (t : List (Nat × Nat)) (k v x : Nat) :
    Table.get (Table.set t k v) x = if x = k then v else Table.get t x := by
  unfold Table.set
  split
  next h => rw [Table.get_erase, beq_iff_eq.1 h]
  next => exact Table.get_insert ..

/-! ## What a key reads (R422) -/

/-- A key reads the memory and the key of the byte's sector, nothing else of the state. -/
theorem keyByte_congr {s t : State} {x key : Nat} (hm : Memory.get t.ms.mem x = Memory.get s.ms.mem x)
    (hk : tagged x = true → Table.get t.ms.keys (x / 32) = Table.get s.ms.keys (x / 32)) : keyByte t x key = keyByte s x key := by
  unfold keyByte
  by_cases ht : tagged x = true
  · rw [hm, hk ht]
  · simp [ht, hm]

theorem keyByte_of_own_key {s : State} {x key : Nat} (hk : tagged x = true → Table.get s.ms.keys (x / 32) = key) :
    keyByte s x key = Memory.get s.ms.mem x := by
  unfold keyByte
  by_cases ht : tagged x = true
  · simp [hk ht]
  · simp [ht]

/-- The bytes of one sector are tagged together. -/
theorem tagged_congr {x y : Nat} (h : x / 32 = y / 32) : tagged x = tagged y := by
  unfold tagged hbmTop tier2Base
  rw [Bool.eq_iff_iff]
  simp only [Bool.or_eq_true, decide_eq_true_eq]
  omega

theorem State.sectorRead_keys (s : State) (sec tag : Nat) : (s.sectorRead sec tag).ms.keys = s.ms.keys := by
  unfold State.sectorRead
  dsimp only
  repeat' split
  all_goals rfl

theorem State.dropStaged_keys (s : State) (a n : Nat) : (s.dropStaged a n).ms.keys = s.ms.keys := by
  have hfold (l : List (Nat × Bool × Nat)) (s : State) :
      (l.foldl (fun s g => if g.2.1 then s else s.perfCore g.2.2 0x0B 1) s).ms.keys = s.ms.keys := by
    induction l generalizing s with
    | nil => rfl
    | cons g l ih =>
      rw [List.foldl_cons, ih]
      split <;> rfl
  exact hfold _ s

/-! ## The part of a write that lies in one sector (R407) -/

theorem State.writeSector_of_whole {s : State} {sec a : Nat} {bs : List Byte} {tag key : Nat} (h : bs.length = 32) :
    s.writeSector sec a bs tag key = (0, s.modMs fun m => { m with
      mem := Memory.setMany m.mem a bs
      tags := if tagged a then Table.set m.tags sec tag else m.tags
      keys := if tagged a then Table.set m.keys sec key else m.keys
      errs := Table.erase m.errs sec }) := by
  simp [State.writeSector, h]

theorem State.writeSector_of_bad {s : State} {sec a : Nat} {bs : List Byte} {tag key : Nat} (h : bs.length ≠ 32)
    (hst : sectorStatus s sec tag ≠ 0) : s.writeSector sec a bs tag key = (sectorStatus s sec tag, s.sectorRead sec tag) := by
  simp [State.writeSector, h, hst]

/-- What a part of a sector is written over: under a new key the whole sector is written again. -/
def overwritten (s : State) (sec a key : Nat) : List Host.Cell :=
  if tagged a && Table.get s.ms.keys sec != key then
    Memory.setMany s.ms.mem (sec * 32) ((List.range 32).map fun i => keyByte s (sec * 32 + i) key)
  else s.ms.mem

theorem State.writeSector_of_part {s : State} {sec a : Nat} {bs : List Byte} {tag key : Nat} (h : bs.length ≠ 32)
    (hst : sectorStatus s sec tag = 0) :
    s.writeSector sec a bs tag key = (0, (s.sectorRead sec tag).modMs fun m => { m with
      mem := Memory.setMany (overwritten s sec a key) a bs
      keys := if tagged a then Table.set m.keys sec key else m.keys }) := by
  have hmem := State.sectorRead_mem s sec tag
  have hkeys := State.sectorRead_keys s sec tag
  simp [State.writeSector, h, hst, overwritten, State.modMs, hmem, hkeys]

theorem overwritten_wf {s : State} (h : Safety.MemInv s) (sec a key : Nat) : Memory.wf (overwritten s sec a key) = true := by
  unfold overwritten
  split
  · exact Memory.wf_setMany _ _ _ h
  · exact h

/-- Re-encrypting a sector leaves what its new key reads of it, and every other byte. -/
theorem get_overwritten {s : State} (h : Safety.MemInv s) {sec a key x : Nat} (ha : a / 32 = sec) (hx : x / 32 = sec) :
    Memory.get (overwritten s sec a key) x = keyByte s x key := by
  unfold overwritten
  have htag : tagged x = tagged a := tagged_congr (hx.trans ha.symm)
  split
  · obtain ⟨i, hi, rfl⟩ : ∃ i < 32, x = sec * 32 + i := ⟨x % 32, Nat.mod_lt _ (by decide), by omega⟩
    rw [Memory.get_setMany_inside _ _ _ _ h (by simpa using hi)]
    simp
  · rename_i hno
    refine (keyByte_of_own_key fun ht => ?_).symm
    rw [htag] at ht
    simpa [ht, hx] using hno

theorem get_overwritten_other {s : State} {sec a key x : Nat} (hx : x / 32 ≠ sec) :
    Memory.get (overwritten s sec a key) x = Memory.get s.ms.mem x := by
  unfold overwritten
  split
  · rw [Memory.get_setMany_outside _ _ _ _ (by simp only [List.length_map, List.length_range]; omega)]
  · rfl

section Sector

variable {s : State} {sec a : Nat} {bs : List Byte} {tag key : Nat}
variable (hs : Safety.MemInv s) (hpos : bs ≠ []) (hlo : sec * 32 ≤ a) (hhi : a + bs.length ≤ sec * 32 + 32)
include hs hpos hlo hhi

theorem keyByte_writeSector_outside {x : Nat} (hx : x < a ∨ a + bs.length ≤ x) :
    keyByte (s.writeSector sec a bs tag key).2 x key = keyByte s x key := by
  have hlen : 0 < bs.length := List.length_pos_iff.2 hpos
  have hasec : a / 32 = sec := by omega
  by_cases hw : bs.length = 32
  · rw [State.writeSector_of_whole hw]
    refine keyByte_congr (Memory.get_setMany_outside _ _ _ _ hx) fun _ => ?_
    dsimp only [State.modMs_ms]
    split
    · rw [Table.get_set, if_neg (by omega)]
    · rfl
  · by_cases hst : sectorStatus s sec tag = 0
    · rw [State.writeSector_of_part hw hst]
      by_cases hxs : x / 32 = sec
      · rw [keyByte_of_own_key]
        · dsimp only [State.modMs_ms]
          rw [Memory.get_setMany_outside _ _ _ _ hx, get_overwritten hs hasec hxs]
        · intro ht
          rw [tagged_congr (hxs.trans hasec.symm)] at ht
          dsimp only [State.modMs_ms]
          rw [if_pos ht, Table.get_set, if_pos hxs]
      · refine keyByte_congr ?_ fun _ => ?_
        · dsimp only [State.modMs_ms]
          rw [Memory.get_setMany_outside _ _ _ _ hx, get_overwritten_other hxs]
        · dsimp only [State.modMs_ms]
          rw [State.sectorRead_keys]
          split
          · rw [Table.get_set, if_neg hxs]
          · rfl
    · rw [State.writeSector_of_bad hw hst]
      exact keyByte_congr (by rw [State.sectorRead_mem]) fun _ => by rw [State.sectorRead_keys]

omit hpos in
theorem keyByte_writeSector_inside (hok : (s.writeSector sec a bs tag key).1 = 0) {i : Nat} (hi : i < bs.length) :
    keyByte (s.writeSector sec a bs tag key).2 (a + i) key = bs[i] := by
  have hasec : a / 32 = sec := by omega
  have hxs : (a + i) / 32 = sec := by omega
  by_cases hw : bs.length = 32
  · rw [State.writeSector_of_whole hw, keyByte_of_own_key]
    · exact Memory.get_setMany_inside _ _ _ _ hs hi
    · intro ht
      rw [tagged_congr (hxs.trans hasec.symm)] at ht
      dsimp only [State.modMs_ms]
      rw [if_pos ht, Table.get_set, if_pos hxs]
  · have hst : sectorStatus s sec tag = 0 := by
      refine Decidable.byContradiction fun hne => ?_
      rw [State.writeSector_of_bad hw hne] at hok
      exact hne hok
    rw [State.writeSector_of_part hw hst, keyByte_of_own_key]
    · exact Memory.get_setMany_inside _ _ _ _ (overwritten_wf hs sec a key) hi
    · intro ht
      rw [tagged_congr (hxs.trans hasec.symm)] at ht
      dsimp only [State.modMs_ms]
      rw [if_pos ht, Table.get_set, if_pos hxs]

end Sector

theorem writeSector_mem_of_bad {s : State} {sec a : Nat} {bs : List Byte} {tag key : Nat}
    (h : (s.writeSector sec a bs tag key).1 ≠ 0) : (s.writeSector sec a bs tag key).2.ms.mem = s.ms.mem := by
  by_cases hw : bs.length = 32
  · rw [State.writeSector_of_whole hw] at h
    exact absurd rfl h
  · by_cases hst : sectorStatus s sec tag = 0
    · rw [State.writeSector_of_part hw hst] at h
      exact absurd rfl h
    · rw [State.writeSector_of_bad hw hst]
      exact State.sectorRead_mem ..

/-! ## The sectors of a write, one after another -/

/-- The bytes of a write at `a` that lie in a sector. -/
def partIn (a : Nat) (bs : List Byte) (sec : Nat) : List Byte :=
  (bs.drop (max a (sec * 32) - a)).take (min (a + bs.length) (sec * 32 + 32) - max a (sec * 32))

/-- One sector of a write event, with the status so far. -/
def writeOne (a : Nat) (bs : List Byte) (tag key : Nat) (r : Nat × State) (sec : Nat) : Nat × State :=
  let w := r.2.writeSector sec (max a (sec * 32)) (partIn a bs sec) tag key
  (if r.1 == 0 then w.1 else r.1, w.2)

theorem State.writePhys_eq (s : State) (a : Nat) (bs : List Byte) (tag key : Nat) :
    s.writePhys a bs tag key =
      let w := (sectorsOf a bs.length).foldl (writeOne a bs tag key) (0, s.dropStaged a bs.length)
      (w.1, w.2.wakeBarws a bs.length) := rfl

/-- A sector that a write at `a` touches. -/
def Touched (a : Nat) (bs : List Byte) (sec : Nat) : Prop := 0 < bs.length ∧ sec * 32 < a + bs.length ∧ a < sec * 32 + 32

theorem mem_sectorsOf {a n sec : Nat} (hn : 0 < n) : sec ∈ sectorsOf a n ↔ a / 32 ≤ sec ∧ sec ≤ (a + n - 1) / 32 := by
  have hne : (n == 0) = false := by simp; omega
  simp only [sectorsOf, hne, Bool.false_eq_true, if_false, List.mem_map, List.mem_range]
  constructor
  · rintro ⟨i, hi, rfl⟩
    omega
  · rintro ⟨hlo, hhi⟩
    exact ⟨sec - a / 32, by omega, by omega⟩

theorem touched_of_mem_sectorsOf {a sec : Nat} {bs : List Byte} (h : sec ∈ sectorsOf a bs.length) : Touched a bs sec := by
  have hpos : 0 < bs.length := by
    refine Decidable.byContradiction fun h0 => ?_
    have hz : bs.length = 0 := by omega
    simp [sectorsOf, hz] at h
  rw [mem_sectorsOf hpos] at h
  exact ⟨hpos, by omega, by omega⟩

section Touched

variable {a sec : Nat} {bs : List Byte} (h : Touched a bs sec)
include h

theorem length_partIn : (partIn a bs sec).length = min (a + bs.length) (sec * 32 + 32) - max a (sec * 32) := by
  obtain ⟨hpos, hlo, hhi⟩ := h
  rw [partIn, List.length_take, List.length_drop]
  omega

omit h in
theorem getElem?_partIn {x : Nat} (hx : max a (sec * 32) ≤ x) (hxh : x < min (a + bs.length) (sec * 32 + 32)) :
    (partIn a bs sec)[x - max a (sec * 32)]? = bs[x - a]? := by
  rw [partIn, List.getElem?_take_of_lt (by omega), List.getElem?_drop]
  congr 1
  omega

theorem partIn_fits : partIn a bs sec ≠ [] ∧ sec * 32 ≤ max a (sec * 32) ∧
    max a (sec * 32) + (partIn a bs sec).length ≤ sec * 32 + 32 := by
  have hlen := length_partIn h
  obtain ⟨hpos, hlo, hhi⟩ := h
  refine ⟨List.ne_nil_of_length_pos (by omega), Nat.le_max_right .., by omega⟩

variable {r : Nat × State} (hr : Safety.MemInv r.2) {tag key : Nat}
include hr

/-- One sector of a write changes no byte outside the write and none of another sector. -/
theorem keyByte_writeOne_other {x : Nat} (hx : x < a ∨ a + bs.length ≤ x ∨ x / 32 ≠ sec) :
    keyByte (writeOne a bs tag key r sec).2 x key = keyByte r.2 x key := by
  obtain ⟨hne, hlo, hhi⟩ := partIn_fits h
  have hlen := length_partIn h
  refine keyByte_writeSector_outside hr hne hlo hhi ?_
  rw [hlen]
  obtain ⟨hpos, hlo', hhi'⟩ := h
  omega

theorem keyByte_writeOne_same (hok : (writeOne a bs tag key r sec).1 = 0) {x : Nat} (hx : a ≤ x) (hxh : x < a + bs.length)
    (hsec : x / 32 = sec) : some (keyByte (writeOne a bs tag key r sec).2 x key) = bs[x - a]? := by
  obtain ⟨-, hlo, hhi⟩ := partIn_fits h
  have hlen := length_partIn h
  have hmax : max a (sec * 32) ≤ x := by omega
  have hmin : x < min (a + bs.length) (sec * 32 + 32) := by omega
  have hst : (r.2.writeSector sec (max a (sec * 32)) (partIn a bs sec) tag key).1 = 0 := by
    unfold writeOne at hok
    by_cases h0 : r.1 = 0
    · simpa [h0] using hok
    · simp [h0] at hok
  have hi : x - max a (sec * 32) < (partIn a bs sec).length := by omega
  have hread := keyByte_writeSector_inside hr hlo hhi hst hi
  rw [Nat.add_sub_cancel' hmax] at hread
  rw [← getElem?_partIn hmax hmin, List.getElem?_eq_getElem hi, ← hread]
  rfl

end Touched

theorem memInv_writeOne {a : Nat} {bs : List Byte} {tag key : Nat} {r : Nat × State} (hr : Safety.MemInv r.2) (sec : Nat) :
    Safety.MemInv (writeOne a bs tag key r sec).2 := State.memInv_writeSector _ _ _ _ _ _ hr

section Fold

variable {a : Nat} {bs : List Byte} {tag key : Nat} {l : List Nat} (hl : ∀ sec ∈ l, Touched a bs sec)
  {r : Nat × State} (hr : Safety.MemInv r.2)
include hl hr

theorem keyByte_writeOne_foldl_other {x : Nat} (hx : x < a ∨ a + bs.length ≤ x ∨ x / 32 ∉ l) :
    keyByte (l.foldl (writeOne a bs tag key) r).2 x key = keyByte r.2 x key := by
  induction l generalizing r with
  | nil => rfl
  | cons sec l ih =>
    simp only [List.mem_cons, not_or] at hx
    obtain ⟨hsec, hrest⟩ := List.forall_mem_cons.1 hl
    rw [List.foldl_cons, ih hrest (memInv_writeOne hr sec) (hx.imp_right fun h => h.imp_right And.right),
      keyByte_writeOne_other hsec hr (hx.imp_right fun h => h.imp_right And.left)]

omit hl hr in
/-- The status of the event is the first that is not 0. -/
theorem writeOne_foldl_status (h : (l.foldl (writeOne a bs tag key) r).1 = 0) : r.1 = 0 := by
  induction l generalizing r with
  | nil => exact h
  | cons sec l ih =>
    have h1 := ih h
    refine Decidable.byContradiction fun hne => ?_
    simp [writeOne, hne] at h1

theorem keyByte_writeOne_foldl_same (hok : (l.foldl (writeOne a bs tag key) r).1 = 0) {x : Nat} (hx : a ≤ x)
    (hxh : x < a + bs.length) (hsec : x / 32 ∈ l) : some (keyByte (l.foldl (writeOne a bs tag key) r).2 x key) = bs[x - a]? := by
  induction l generalizing r with
  | nil => exact absurd hsec (List.not_mem_nil)
  | cons sec l ih =>
    obtain ⟨hhead, hrest⟩ := List.forall_mem_cons.1 hl
    have hr' := memInv_writeOne (a := a) (bs := bs) (tag := tag) (key := key) hr sec
    rw [List.foldl_cons] at hok ⊢
    by_cases hmem : x / 32 ∈ l
    · exact ih hrest hr' hok hmem
    · have heq : x / 32 = sec := (List.mem_cons.1 hsec).resolve_right hmem
      rw [keyByte_writeOne_foldl_other hrest hr' (.inr (.inr hmem))]
      exact keyByte_writeOne_same hhead hr (writeOne_foldl_status hok) hx hxh heq

end Fold

/-! ## A write event (R3, R406) -/

theorem keyByte_wakeBarws (s : State) (a n x key : Nat) : keyByte (s.wakeBarws a n) x key = keyByte s x key := rfl

theorem keyByte_dropStaged (s : State) (a n x key : Nat) : keyByte (s.dropStaged a n) x key = keyByte s x key :=
  keyByte_congr (by rw [State.dropStaged_mem]) fun _ => by rw [State.dropStaged_keys]

section Write

variable {s : State} (h : Safety.MemInv s) (a : Nat) (bs : List Byte) (tag key : Nat)
include h

theorem keyByte_writePhys_outside {x : Nat} (hx : x < a ∨ a + bs.length ≤ x) :
    keyByte (s.writePhys a bs tag key).2 x key = keyByte s x key := by
  rw [State.writePhys_eq]
  dsimp only
  rw [keyByte_wakeBarws, keyByte_writeOne_foldl_other (fun _ => touched_of_mem_sectorsOf) (State.memInv_dropStaged h)
    (by omega), keyByte_dropStaged]

theorem keyByte_writePhys_inside (hok : (s.writePhys a bs tag key).1 = 0) {i : Nat} {b : Byte} (hb : bs[i]? = some b) :
    keyByte (s.writePhys a bs tag key).2 (a + i) key = b := by
  obtain ⟨hi, -⟩ := List.getElem?_eq_some_iff.1 hb
  have hsec : (a + i) / 32 ∈ sectorsOf a bs.length := (mem_sectorsOf (by omega)).2 ⟨by omega, by omega⟩
  rw [State.writePhys_eq] at hok ⊢
  dsimp only at hok ⊢
  have hread := keyByte_writeOne_foldl_same (fun _ => touched_of_mem_sectorsOf) (State.memInv_dropStaged h) hok (x := a + i)
    (by omega) (by omega) hsec
  rw [Nat.add_sub_cancel_left, hb] at hread
  exact Option.some.inj hread

end Write

/-- A write event that fails in its only sector changes no byte. -/
theorem writePhys_mem_of_bad {s : State} {a : Nat} {bs : List Byte} {tag key : Nat} (hsec : a / 32 = (a + bs.length - 1) / 32)
    (hbad : (s.writePhys a bs tag key).1 ≠ 0) : (s.writePhys a bs tag key).2.ms.mem = s.ms.mem := by
  rw [State.writePhys_eq] at hbad ⊢
  by_cases hn : bs.length = 0
  · simp [sectorsOf, hn] at hbad
  · have hone : sectorsOf a bs.length = [a / 32] := by
      have hne : (bs.length == 0) = false := by simpa using hn
      have hcount : (a + bs.length - 1) / 32 + 1 - a / 32 = 1 := by omega
      simp [sectorsOf, hne, hcount]
    rw [hone] at hbad ⊢
    exact (writeSector_mem_of_bad hbad).trans (State.dropStaged_mem ..)

end Sys2Proof.Machine

namespace Sys2Proof.Claims

open Sys2Proof.Machine

/-- Settles O29: a write event is its sectors written in turn, and a sector's write is what its cases say. -/
theorem writesReadBack : Obligations.WritesReadBack := by
  unfold Obligations.WritesReadBack
  intro s a tag key bs h w
  exact ⟨State.memInv_writePhys s a bs tag key h, fun x hx => keyByte_writePhys_outside h a bs tag key hx,
    fun hok i b hb => keyByte_writePhys_inside h a bs tag key hok hb, fun _ hsec hbad => writePhys_mem_of_bad hsec hbad⟩

end Sys2Proof.Claims
end


section
/-! PROOFS. A store piece performs one write event, and what follows the event touches no byte of memory (R208, R335). -/

namespace Sys2Proof.Machine

/-! ## Traps and watch hits leave the memory system alone (R352, R373, R379) -/

theorem foldl_pair_ms {α β : Type} {f : α × State → β → α × State} (hf : ∀ r x, (f r x).2.ms = r.2.ms) (l : List β)
    (r : α × State) : (l.foldl f r).2.ms = r.2.ms := by
  induction l generalizing r with
  | nil => rfl
  | cons x l ih => rw [List.foldl_cons, ih, hf]

theorem foldl_send_ms {α : Type} (f : α → Sent) (l : List α) (s : State) : (l.foldl (fun s p => s.send (f p)) s).ms = s.ms := by
  induction l generalizing s with
  | nil => rfl
  | cons x l ih => rw [List.foldl_cons, ih]; rfl

theorem State.beginHalt_ms (s : State) (job : Nat) (w0 : Word) (w1 : Nat) (relay : Bool) :
    (s.beginHalt job w0 w1 relay).ms = s.ms := by
  unfold State.beginHalt
  split
  · rfl
  · split
    · rfl
    · dsimp only
      split
      · rw [foldl_send_ms]; rfl
      · rfl

theorem State.trap_ms (s : State) (t : Trap) (own : Bool) : (s.trap t own).ms = s.ms := by
  unfold State.trap
  dsimp only
  split
  · rfl
  · split
    · rw [State.beginHalt_ms]; rfl
    · rfl

theorem homeHits_ms {us : List WatchAt} {who : Doer} {key kind a n : Nat} {report : WatchAt → Word × Word → State → State}
    (hreport : ∀ u d s, (report u d s).ms = s.ms) (acc : List (Nat × Nat) × State) :
    (homeHits us who key kind a n report acc).2.ms = acc.2.ms := by
  unfold homeHits
  refine foldl_pair_ms (fun r x => ?_) _ acc
  split
  · rfl
  · exact hreport ..

theorem State.homeWatch_ms (s : State) (who : Doer) (kind : Nat) (l : Loc) (n : Nat) (hits : List (Nat × Nat)) :
    (s.homeWatch who kind l n hits).2.ms = s.ms := by
  unfold State.homeWatch
  split
  · dsimp only
    refine (foldl_pair_ms ?far _ _).trans ?_
    case far => exact fun r w => homeHits_ms (fun _ _ _ => State.send_ms ..) r
    split
    · refine foldl_pair_ms ?_ _ _
      exact fun r c => homeHits_ms (fun _ _ _ => State.trap_ms ..) r
    · refine (homeHits_ms (fun _ _ _ => State.send_ms ..) _).trans (foldl_pair_ms ?_ _ _)
      exact fun r c => homeHits_ms (fun _ _ _ => State.trap_ms ..) r
  · rfl

theorem State.homeWatches_ms (s : State) (who : Doer) (kind : Nat) (ps : List (Loc × Nat × Nat × PieceOp))
    (hits : List (Nat × Nat)) : (s.homeWatches who kind ps hits).2.ms = s.ms :=
  foldl_pair_ms (fun _ _ => State.homeWatch_ms ..) ps (hits, s)

/-! ## Requests after a write event -/

theorem State.sectorRead_reqs (s : State) (sec tag : Nat) : (s.sectorRead sec tag).ms.reqs = s.ms.reqs := by
  unfold State.sectorRead
  dsimp only
  repeat' split
  all_goals rfl

theorem State.writeSector_reqs (s : State) (sec a : Nat) (bs : List Byte) (tag key : Nat) :
    (s.writeSector sec a bs tag key).2.ms.reqs = s.ms.reqs := by
  by_cases hw : bs.length = 32
  · rw [State.writeSector_of_whole hw]
    rfl
  · by_cases hst : sectorStatus s sec tag = 0
    · rw [State.writeSector_of_part hw hst]
      exact State.sectorRead_reqs ..
    · rw [State.writeSector_of_bad hw hst]
      exact State.sectorRead_reqs ..

theorem State.dropStaged_reqs (s : State) (a n : Nat) : (s.dropStaged a n).ms.reqs = s.ms.reqs := by
  have hfold (l : List (Nat × Bool × Nat)) (s : State) :
      (l.foldl (fun s g => if g.2.1 then s else s.perfCore g.2.2 0x0B 1) s).ms.reqs = s.ms.reqs := by
    induction l generalizing s with
    | nil => rfl
    | cons g l ih =>
      rw [List.foldl_cons, ih]
      split <;> rfl
  exact hfold _ s

theorem writeOne_foldl_reqs {a : Nat} {bs : List Byte} {tag key : Nat} (l : List Nat) (r : Nat × State) :
    (l.foldl (writeOne a bs tag key) r).2.ms.reqs = r.2.ms.reqs := by
  induction l generalizing r with
  | nil => rfl
  | cons x l ih => rw [List.foldl_cons, ih, writeOne, State.writeSector_reqs]

/-- A write event may release BARWs; it changes nothing else of a request. -/
theorem State.writePhys_reqs (s : State) (a : Nat) (bs : List Byte) (tag key : Nat) :
    ∃ f : Req → Req, (∀ r, (f r).id = r.id ∧ (f r).kind = r.kind) ∧
      (s.writePhys a bs tag key).2.ms.reqs = s.ms.reqs.map f := by
  rw [State.writePhys_eq]
  refine ⟨_, fun r => ?_, congrArg _ ((writeOne_foldl_reqs ..).trans (State.dropStaged_reqs s a bs.length))⟩
  split <;> exact ⟨rfl, rfl⟩

/-- Updates that keep each request's number find the updated request. -/
theorem find?_map_id {f : Req → Req} (hf : ∀ r, (f r).id = r.id) (l : List Req) (id : Nat) :
    (l.map f).find? (fun r => r.id == id) = (l.find? fun r => r.id == id).map f := by
  rw [List.find?_map]
  congr 2
  exact funext fun r => by simp [hf]

/-! ## From the write event to the end of the piece -/

/-- A state after the write event that gave `w`: the bytes are those of `w`, and the request is still that of a store. -/
structure AfterStore (w : State) (id : Nat) (t : State) : Prop where
  mem : t.ms.mem = w.ms.mem
  keys : t.ms.keys = w.ms.keys
  req : ∃ r, t.req? id = some r ∧ r.kind = .st

namespace AfterStore

variable {w t u : State} {id : Nat}

theorem of_ms (h : AfterStore w id t) (e : u.ms = t.ms) : AfterStore w id u := by
  obtain ⟨hm, hk, hr⟩ := h
  unfold State.req? at hr
  exact ⟨e ▸ hm, e ▸ hk, by unfold State.req?; rw [e]; exact hr⟩

theorem modReq (h : AfterStore w id t) {f : Req → Req} (hf : ∀ r, (f r).id = r.id ∧ (f r).kind = r.kind) :
    AfterStore w id (t.modReq id f) := by
  obtain ⟨hm, hk, r, hr, hkind⟩ := h
  have hid : ∀ r : Req, (if r.id == id then f r else r).id = r.id := fun r => by
    split
    · exact (hf r).1
    · rfl
  refine ⟨hm, hk, _, (find?_map_id hid t.ms.reqs id).trans (congrArg _ hr), ?_⟩
  dsimp only
  split
  · exact (hf r).2.trans hkind
  · exact hkind

theorem logAt (h : AfterStore w id t) (l : Loc) (site : Site) (pkg job tag st : Nat) (result : Word) :
    AfterStore w id (t.logAt l site pkg job tag st result) := by
  unfold State.logAt
  split
  · exact h
  · exact ⟨h.mem, h.keys, h.req⟩

/-- The end of a store: it is done, answered or dropped, and no byte changes. -/
theorem settleReq_bytes (h : AfterStore w id t) :
    (t.settleReq id).ms.mem = w.ms.mem ∧ (t.settleReq id).ms.keys = w.ms.keys := by
  obtain ⟨hm, hk, r, hr, hkind⟩ := h
  have hput : r.readyQput = false := by simp [Req.readyQput, hkind]
  unfold State.settleReq
  simp only [hr, hput, hkind, Bool.false_eq_true, if_false]
  repeat' split
  all_goals exact ⟨hm, hk⟩

end AfterStore

theorem afterStore_writePhys {s : State} {id : Nat} {r : Req} (hreq : s.req? id = some r) (hkind : r.kind = .st) (a : Nat)
    (bs : List Byte) (tag key : Nat) :
    AfterStore (s.writePhys a bs tag key).2 id (s.writePhys a bs tag key).2 := by
  obtain ⟨f, hf, hreqs⟩ := State.writePhys_reqs s a bs tag key
  refine ⟨rfl, rfl, f r, ?_, (hf r).2.trans hkind⟩
  unfold State.req? at hreq ⊢
  rw [hreqs, find?_map_id (fun r => (hf r).1), hreq]
  rfl

section Piece

variable {s : State} {r : Req} {k pa tag key len off : Nat} {bs : List Byte}

theorem event_of_write (hl : s.isLocal pa = true) (hok : s.localOk (paLocal pa) = true) (core n : Nat) :
    s.event core (.mem pa tag key) n (.write bs) =
      ({ st := (s.writePhys (paLocal pa) bs tag key).1 }, (s.writePhys (paLocal pa) bs tag key).2) := by
  simp [State.event, State.writePart, hl, hok]

/-- R335: a store piece performs as one write event; what follows changes no byte. -/
theorem performPiece_store_bytes (hreq : s.req? r.id = some r) (hkind : r.kind = .st)
    (hp : r.pieces[k]? = some { place := .mem pa tag key, len := len, off := off, op := .write bs })
    (hl : s.isLocal pa = true) (hok : s.localOk (paLocal pa) = true) :
    (s.performPiece r k false).ms.mem = (s.writePhys (paLocal pa) bs tag key).2.ms.mem ∧
    (s.performPiece r k false).ms.keys = (s.writePhys (paLocal pa) bs tag key).2.ms.keys := by
  have hw := afterStore_writePhys hreq hkind (paLocal pa) bs tag key
  unfold State.performPiece
  simp only [hp, State.queued, queueKey, List.isEmpty_nil, Bool.not_true, Bool.and_false, Bool.false_and, Bool.false_eq_true,
    if_false, Piece.spans, State.spansEvent, event_of_write hl hok]
  have hdraw := hw.of_ms (u := (s.writePhys (paLocal pa) bs tag key).2.draw.2) rfl
  split
  · refine AfterStore.settleReq_bytes (AfterStore.modReq ?_ fun r => ⟨rfl, rfl⟩)
    split
    · exact hdraw
    · exact hdraw.of_ms (State.homeWatches_ms ..)
  · refine AfterStore.settleReq_bytes (AfterStore.modReq ?_ fun r => ⟨rfl, rfl⟩)
    split
    · refine AfterStore.logAt ?_ ..
      split
      · exact hdraw
      · exact hdraw.of_ms (State.homeWatches_ms ..)
    · split
      · exact hdraw
      · exact hdraw.of_ms (State.homeWatches_ms ..)

end Piece

theorem exec_memoryRequestPerform_store {s : State} {i id k : Nat} {r : Req} (hevent : s.readyEvents[i]? = some (.piece id k))
    (hreq : s.req? id = some r) (hkind : r.kind = .st) : exec (.memoryRequestPerform i) s = .next (s.performPiece r k false) := by
  change execMemoryRequestPerform i s = _
  simp [execMemoryRequestPerform, hevent, hreq, State.answerLogged, ReqKind.logsFar, hkind]

end Sys2Proof.Machine

namespace Sys2Proof.Claims

open Sys2Proof.Machine

/-- Settles O30: the bytes after the piece are those after its write event, which O29 describes. -/
theorem storesWriteTheirBytes : Obligations.StoresWriteTheirBytes := by
  unfold Obligations.StoresWriteTheirBytes
  intro s i id k pa tag key len off bs r h hevent hreq hkind hp hl hok event
  have hid := State.id_of_req? hreq
  obtain ⟨hmem, hkeys⟩ := performPiece_store_bytes (hid ▸ hreq) hkind hp hl hok
  have hread (x : Nat) : keyByte (s.performPiece r k false) x key = keyByte event.2 x key :=
    keyByte_congr (by rw [hmem]) fun _ => by rw [hkeys]
  refine ⟨_, exec_memoryRequestPerform_store hevent hreq hkind, State.memInv_performPiece h, ?_, ?_, ?_⟩
  · intro x hx
    rw [hread, keyByte_writePhys_outside h (paLocal pa) bs tag key hx]
  · intro hst j b hb
    rw [hread, keyByte_writePhys_inside h (paLocal pa) bs tag key hst hb]
  · intro _ hsec hbad
    rw [hmem, writePhys_mem_of_bad hsec hbad]

end Sys2Proof.Claims
end


section
/-! PROOFS. The words of synchronisation and atomics (R215, R220, R222, R223), the counters of a pipe (R224, R225), and the domain
cause (R385). -/

namespace Sys2Proof.Machine

open Sys2Proof.Claims

/-! ## The domain cause is the least report (R385) -/

/-- R385: the order of reports, by word 1 and then by the package of word 0. -/
def NotAfter (x y : Word × Word) : Prop :=
  x.2.toNat < y.2.toNat ∨ (x.2 = y.2 ∧ (x.1.extractLsb' 52 12).toNat ≤ (y.1.extractLsb' 52 12).toNat)

theorem NotAfter.rfl {x : Word × Word} : NotAfter x x := .inr ⟨Eq.refl _, Nat.le_refl _⟩

theorem NotAfter.trans {x y z : Word × Word} (h : NotAfter x y) (k : NotAfter y z) : NotAfter x z := by
  unfold NotAfter at *
  rcases h with h | ⟨h, h'⟩
  · rcases k with k | ⟨k, -⟩
    · exact .inl (by omega)
    · exact .inl (k ▸ h)
  · rcases k with k | ⟨k, k'⟩
    · exact .inl (h ▸ k)
    · exact .inr ⟨h.trans k, by omega⟩

/-- A cause report as it is kept: NMORE is cleared. -/
def masked (x : Word × Word) : Word × Word := (x.1 &&& ~~~(0x1FF00 : Word), x.2)

/-- What a job's domain cause is after a report: the report, or the cause before it, whichever comes first. -/
theorem Job.report_dom (j : Job) (x : Word × Word) :
    let k := j.report x.1 x.2
    k.hasDom = true ∧
    (((k.dom0, k.dom1) = masked x ∧ (j.hasDom = true → NotAfter (masked x) (j.dom0, j.dom1))) ∨
      (j.hasDom = true ∧ (k.dom0, k.dom1) = (j.dom0, j.dom1) ∧ NotAfter (j.dom0, j.dom1) (masked x))) := by
  have hle {v : Word} : bf v.toNat 52 12 = (v.extractLsb' 52 12).toNat := (toNat_extractLsb'_eq_bf ..).symm
  unfold Job.report
  dsimp only
  split
  next h =>
    refine ⟨rfl, .inl ⟨rfl, fun hd => ?_⟩⟩
    simp only [hd, hle, Bool.not_true, Bool.false_or, Bool.or_eq_true, Bool.and_eq_true, decide_eq_true_eq, beq_iff_eq] at h
    exact h.imp (fun h1 => h1) fun ⟨h1, h2⟩ => ⟨h1, Nat.le_of_lt h2⟩
  next h =>
    simp only [hle, Bool.or_eq_true, Bool.and_eq_true, decide_eq_true_eq, beq_iff_eq, Bool.not_eq_true', not_or, not_and,
      Bool.not_eq_false, Nat.not_lt] at h
    obtain ⟨⟨hd, h1⟩, h2⟩ := h
    refine ⟨hd, .inr ⟨hd, rfl, ?_⟩⟩
    by_cases heq : x.2 = j.dom1
    · exact .inr ⟨heq.symm, h2 heq⟩
    · have hne : x.2.toNat ≠ j.dom1.toNat := fun e => heq (BitVec.eq_of_toNat_eq e)
      exact .inl (by simp only [masked]; omega)

/-- Once a job has a domain cause, later reports leave the least of it and of them. -/
theorem Job.report_foldl_of_hasDom (l : List (Word × Word)) {j : Job} (hj : j.hasDom = true) :
    let k := l.foldl (fun j x => j.report x.1 x.2) j
    (k.dom0, k.dom1) ∈ (j.dom0, j.dom1) :: l.map masked ∧
      ∀ x ∈ (j.dom0, j.dom1) :: l.map masked, NotAfter (k.dom0, k.dom1) x := by
  induction l generalizing j with
  | nil =>
    refine ⟨List.mem_cons_self, fun x hx => ?_⟩
    rw [List.mem_singleton.1 hx]
    exact NotAfter.rfl
  | cons x l ih =>
    obtain ⟨hd, hcase⟩ := Job.report_dom j x
    obtain ⟨hmem, hleast⟩ := ih hd
    rw [List.foldl_cons, List.map_cons]
    have hfirst := hleast _ List.mem_cons_self
    have hrest : ∀ y ∈ l.map masked, NotAfter _ y := fun y hy => hleast y (List.mem_cons_of_mem _ hy)
    rcases hcase with ⟨heq, hbefore⟩ | ⟨-, heq, hbefore⟩
    · rw [heq] at hmem hfirst
      refine ⟨List.mem_cons_of_mem _ hmem, List.forall_mem_cons.2 ⟨?_, List.forall_mem_cons.2 ⟨hfirst, hrest⟩⟩⟩
      exact hfirst.trans (hbefore hj)
    · rw [heq] at hmem hfirst
      refine ⟨?_, List.forall_mem_cons.2 ⟨hfirst, List.forall_mem_cons.2 ⟨hfirst.trans hbefore, hrest⟩⟩⟩
      rcases List.mem_cons.1 hmem with h | h
      · exact h ▸ List.mem_cons_self
      · exact List.mem_cons_of_mem _ (List.mem_cons_of_mem _ h)

theorem Job.report_foldl {l : List (Word × Word)} (hl : l ≠ []) {j : Job} (hj : j.hasDom = false) :
    let k := l.foldl (fun j x => j.report x.1 x.2) j
    (k.dom0, k.dom1) ∈ l.map masked ∧ ∀ x ∈ l.map masked, NotAfter (k.dom0, k.dom1) x := by
  obtain ⟨x, l, rfl⟩ := List.exists_cons_of_ne_nil hl
  obtain ⟨hd, hcase⟩ := Job.report_dom j x
  obtain ⟨heq, -⟩ | ⟨h, -⟩ := hcase
  · rw [List.foldl_cons, List.map_cons, ← heq]
    exact Job.report_foldl_of_hasDom l hd
  · rw [hj] at h
    exact absurd h Bool.false_ne_true

/-- NMORE of a report that is kept is 0. -/
theorem masked_nmore (x : Word × Word) : (masked x).1.extractLsb' 8 9 = 0 := by
  have hand (a b : Word) : (a &&& b).extractLsb' 8 9 = a.extractLsb' 8 9 &&& b.extractLsb' 8 9 := by
    ext i hi
    simp
  rw [masked, hand, show (~~~(0x1FF00 : Word)).extractLsb' 8 9 = 0 by decide]
  exact BitVec.and_zero

/-! ## Atomic updates (R215, R220) -/

section Atomics

variable {t : Ty} (ht : t ∈ tyIntOrNone)
include ht

theorem readInt_ofNat_mod (v : Word) : readInt t (BitVec.ofNat 64 (v.toNat % 2 ^ width t)) = number t v := by
  rw [width_eq_tyBits ht, number_eq_readInt ht, readInt, readInt, BitVec.toNat_ofNat]
  have hmod : v.toNat % 2 ^ tyBits t % 2 ^ 64 % 2 ^ tyBits t = v.toNat % 2 ^ tyBits t := by
    rw [mod_two_pow_64_mod, Nat.mod_mod]
  simp only [sx, hmod]

end Atomics

theorem tyIsInt_of_isInteger {t : Ty} (ht : isInteger t) : tyIsInt t = true := by
  simp only [isInteger, List.mem_cons, List.not_mem_nil, or_false] at ht
  obtain rfl | rfl | rfl | rfl | rfl | rfl | rfl | rfl := ht <;> rfl

section Updates

variable {t : Ty} (ht : isInteger t) (old x : Word)
include ht

theorem updateVal_add (o y : Nat) : updateVal 0 t o y = (o + y) % 2 ^ width t := by
  rw [width_eq_tyBits (mem_tyIntOrNone (.inl ht))]
  simp only [updateVal, tyIsInt_of_isInteger ht, if_true]

theorem updateVal_and : updateVal 1 t (old.toNat % 2 ^ width t) (x.toNat % 2 ^ width t) = (old &&& x).toNat % 2 ^ width t := by
  rw [width_eq_tyBits (mem_tyIntOrNone (.inl ht)), updateVal, BitVec.toNat_and, Nat.and_mod_two_pow, Nat.and_mod_two_pow,
    Nat.mod_mod, Nat.mod_mod]

theorem updateVal_or : updateVal 2 t (old.toNat % 2 ^ width t) (x.toNat % 2 ^ width t) = (old ||| x).toNat % 2 ^ width t := by
  rw [width_eq_tyBits (mem_tyIntOrNone (.inl ht)), updateVal, BitVec.toNat_or, Nat.or_mod_two_pow, Nat.or_mod_two_pow,
    Nat.mod_mod, Nat.mod_mod]

theorem updateVal_xor : updateVal 3 t (old.toNat % 2 ^ width t) (x.toNat % 2 ^ width t) = (old ^^^ x).toNat % 2 ^ width t := by
  rw [width_eq_tyBits (mem_tyIntOrNone (.inl ht)), updateVal, BitVec.toNat_xor, Nat.xor_mod_two_pow, Nat.xor_mod_two_pow,
    Nat.mod_mod, Nat.mod_mod]

theorem updateVal_min : updateVal 4 t (old.toNat % 2 ^ width t) (x.toNat % 2 ^ width t) =
    if number t old ≤ number t x then old.toNat % 2 ^ width t else x.toNat % 2 ^ width t := by
  have hmem := mem_tyIntOrNone (.inl ht)
  simp only [updateVal, tyIsInt_of_isInteger ht, if_true, readInt_ofNat_mod hmem]

theorem updateVal_max : updateVal 5 t (old.toNat % 2 ^ width t) (x.toNat % 2 ^ width t) =
    if number t old ≤ number t x then x.toNat % 2 ^ width t else old.toNat % 2 ^ width t := by
  have hmem := mem_tyIntOrNone (.inl ht)
  simp only [updateVal, tyIsInt_of_isInteger ht, if_true, readInt_ofNat_mod hmem]

theorem updateVal_exchange (o : Nat) : updateVal 6 t o (x.toNat % 2 ^ width t) = x.toNat % 2 ^ width t := by
  rw [width_eq_tyBits (mem_tyIntOrNone (.inl ht))]
  exact Nat.mod_mod ..

end Updates

theorem wordStep_cas (w : Nat) (o y n : Nat) :
    wordStep (.cas w (y % 2 ^ w) n) (o % 2 ^ w) =
      .done 0 (if o % 2 ^ w = y % 2 ^ w then some n else none) (BitVec.ofNat 64 (o % 2 ^ w)) := by
  simp [wordStep]

/-! ## The barrier word (R222) -/

/-- The barrier word of five fields. -/
def barrierWord (phase expect arrived status flags : Nat) : Nat :=
  phase * 2 ^ 48 + expect * 2 ^ 32 + arrived * 2 ^ 16 + status * 2 ^ 8 + flags

/-- Fields that fit are read back from the word. -/
theorem bf_barrierWord {phase expect arrived status flags : Nat} (hp : phase < 65536) (he : expect < 65536)
    (ha : arrived < 65536) (hs : status < 256) (hf : flags < 256) :
    let w := barrierWord phase expect arrived status flags
    w < 2 ^ 64 ∧ bf w 48 16 = phase ∧ bf w 32 16 = expect ∧ bf w 16 16 = arrived ∧ bf w 8 8 = status ∧ bf w 0 8 = flags := by
  simp only [barrierWord, bf]
  omega

theorem baraWord_eq (w st : Nat) : baraWord w st =
    let full := max (bf w 32 16) 1 ≤ bf w 16 16 + 1
    barrierWord (if full then (bf w 48 16 + 1) % 65536 else bf w 48 16) (bf w 32 16)
      (if full then 0 else (bf w 16 16 + 1) % 65536) (if bf w 8 8 = 0 then st % 256 else bf w 8 8) (bf w 0 8) := by
  have hflags : w % 256 = bf w 0 8 := by simp [bf]
  simp only [baraWord, barrierWord, beq_iff_eq, decide_eq_true_eq, hflags]

theorem bf_lt (w lo len : Nat) : bf w lo len < 2 ^ len := Nat.mod_lt _ (Nat.two_pow_pos _)

/-- R222: the fields of the word after a BARA. -/
theorem bf_baraWord (w st : Nat) :
    let full := max (bf w 32 16) 1 ≤ bf w 16 16 + 1
    baraWord w st < 2 ^ 64 ∧ bf (baraWord w st) 48 16 = (if full then (bf w 48 16 + 1) % 65536 else bf w 48 16) ∧
    bf (baraWord w st) 32 16 = bf w 32 16 ∧ bf (baraWord w st) 16 16 = (if full then 0 else (bf w 16 16 + 1) % 65536) ∧
    bf (baraWord w st) 8 8 = (if bf w 8 8 = 0 then st % 256 else bf w 8 8) ∧ bf (baraWord w st) 0 8 = bf w 0 8 := by
  have hphase := bf_lt w 48 16
  have hstatus := bf_lt w 8 8
  rw [baraWord_eq]
  apply bf_barrierWord
  · split <;> omega
  · exact bf_lt w 32 16
  · split <;> omega
  · split <;> omega
  · exact bf_lt w 0 8

/-- A field of a word is the number that `bf` reads. -/
theorem extractLsb'_eq_iff {w : Word} {lo len : Nat} {x : BitVec len} : w.extractLsb' lo len = x ↔ bf w.toNat lo len = x.toNat := by
  rw [← toNat_extractLsb'_eq_bf, BitVec.toNat_inj]

theorem barwMet_iff (w : Word) (n : Nat) :
    barwMet w.toNat n = true ↔ (w.extractLsb' 48 16 - BitVec.ofNat 16 n).toNat < 32768 := by
  rw [BitVec.toNat_sub, BitVec.toNat_ofNat, toNat_extractLsb'_eq_bf, barwMet, decide_eq_true_eq, bf]
  omega

theorem wordStep_barw (w : Word) (n : Nat) :
    wordStep (.barw n) w.toNat = if (w.extractLsb' 48 16 - BitVec.ofNat 16 n).toNat < 32768 then .done 0 none w else .wait := by
  rw [wordStep]
  simp only [barwMet_iff, BitVec.ofNat_toNat, BitVec.setWidth_eq]

/-! ## The object word (R223) -/

/-- The object word: whether it is held alone, how many share it, and SEQ. -/
def objectWord (e : Bool) (n q : Nat) : Nat := (if e then 2 ^ 63 else 0) + n * 2 ^ 48 + q % 2 ^ 48

theorem bf_objectWord {e : Bool} {n q : Nat} (hn : n < 32768) (hq : q < 2 ^ 48) :
    bf (objectWord e n q) 63 1 = (if e then 1 else 0) ∧ bf (objectWord e n q) 48 15 = n ∧ bf (objectWord e n q) 0 48 = q := by
  simp only [objectWord, bf]
  cases e
  · simp only [Bool.false_eq_true, if_false]
    omega
  · simp only [if_true]
    omega

end Sys2Proof.Machine

namespace Sys2Proof.Claims

open Sys2Proof.Machine

/-- Settles O46: the reports leave the least of them, in whatever order they come. -/
theorem earliestCauseWins : Obligations.EarliestCauseWins := by
  unfold Obligations.EarliestCauseWins
  intro j l hj hl all k
  obtain ⟨hmem, hleast⟩ := Job.report_foldl hl hj
  refine ⟨hmem, hleast, ?_⟩
  obtain ⟨x, -, hx⟩ := List.mem_map.1 hmem
  have hdom : k.dom0 = (masked x).1 := (congrArg Prod.fst hx).symm
  rw [hdom, masked_nmore]

/-- Settles O25: each update is computed on the low w bits, and returns what stood there. -/
theorem atomicUpdates : Obligations.AtomicUpdates := by
  unfold Obligations.AtomicUpdates
  intro t old x n ht w o y done
  exact ⟨congrArg done (updateVal_add ht ..), congrArg done (updateVal_and ht ..), congrArg done (updateVal_or ht ..),
    congrArg done (updateVal_xor ht ..), congrArg done (updateVal_min ht ..), congrArg done (updateVal_max ht ..),
    congrArg done (updateVal_exchange ht ..), wordStep_cas ..⟩

/-- Settles O24: a BARA by the fields of its word, a BARW by its condition, ACQ and REL by the object word's cases. -/
theorem barrierAndObjectWords : Obligations.BarrierAndObjectWords := by
  unfold Obligations.BarrierAndObjectWords
  constructor
  · intro w st n hst v arrived full
    obtain ⟨hlt, hphase, hexpect, harrived, hstatus, hflags⟩ := bf_baraWord w.toNat st
    have hv : v.toNat = baraWord w.toNat st := by rw [BitVec.toNat_ofNat, Nat.mod_eq_of_lt hlt]
    have hfull : full ↔ max (bf w.toNat 32 16) 1 ≤ bf w.toNat 16 16 + 1 := by
      simp only [full, arrived, toNat_extractLsb'_eq_bf]
    refine ⟨?_, ?_, ?_, ?_, ?_, ?_, ?_, ?_⟩
    · have hres : BitVec.ofNat 64 (bf w.toNat 48 16) = (w.extractLsb' 48 16).setWidth 64 := by
        rw [← toNat_extractLsb'_eq_bf, BitVec.ofNat_toNat]
      exact congr (congrArg (fun new result => WordOut.done 0 (some new) result) hv.symm) hres
    · rw [extractLsb'_eq_iff, hv, hphase, apply_ite BitVec.toNat, BitVec.toNat_add, toNat_extractLsb'_eq_bf w 48 16]
      simp only [hfull]
      rfl
    · rw [extractLsb'_eq_iff, hv, hexpect, toNat_extractLsb'_eq_bf]
    · rw [extractLsb'_eq_iff, hv, hflags, toNat_extractLsb'_eq_bf]
    · rw [extractLsb'_eq_iff, hv, harrived, apply_ite BitVec.toNat, BitVec.toNat_ofNat]
      simp only [hfull, arrived, toNat_extractLsb'_eq_bf]
      rfl
    · rw [extractLsb'_eq_iff, hv, hstatus, apply_ite BitVec.toNat, BitVec.toNat_ofNat, toNat_extractLsb'_eq_bf]
      simp only [extractLsb'_eq_iff]
      rfl
    · rw [wordStep_barw]
      split
      next h => exact iff_of_true rfl h
      next h => exact iff_of_false (fun e => nomatch e) h
    · rw [wordStep_barw]
      split
      next h => exact iff_of_false (fun e => nomatch e) (Nat.not_le.2 h)
      next h => exact iff_of_true rfl (Nat.not_lt.1 h)
  · intro e n q hn hq w
    obtain ⟨he, hshared, hseq⟩ := bf_objectWord (e := e) hn hq
    have hput (e : Bool) (n q : Nat) : (if e then 1 else 0) * 2 ^ 63 + n * 2 ^ 48 + q % 2 ^ 48 = w e n q := by
      cases e <;> simp [w]
    change wordStep (.acq false) (objectWord e n q) = _ ∧ wordStep (.acq true) (objectWord e n q) = _ ∧
      wordStep (.rel false) (objectWord e n q) = _ ∧ wordStep (.rel true) (objectWord e n q) = _
    simp only [wordStep, objectStep, he, hshared, hseq]
    cases e <;> simp [← hput]

end Sys2Proof.Claims
end


section
/-! PROOFS. Every operation on a pipe keeps its counters in order within SIZE (R224, R225). -/

namespace Sys2Proof.Machine

open Sys2Proof.Claims

/-! ## Counters modulo 2^32 -/

theorem add32_lt (x n : Nat) : add32 x n < 2 ^ 32 := Nat.mod_lt _ (Nat.two_pow_pos _)

theorem sub32_lt (x r : Nat) : sub32 x r < 2 ^ 32 := Nat.mod_lt _ (Nat.two_pow_pos _)

/-- A counter that advances by n is n further from another. -/
theorem sub32_add32 {x n r : Nat} (h : sub32 x r + n < 2 ^ 32) : sub32 (add32 x n) r = sub32 x r + n := by
  unfold sub32 add32 at *
  omega

/-- A counter is n nearer to one that advances by n behind it. -/
theorem sub32_add32_right {x r n : Nat} (h : n ≤ sub32 x r) : sub32 x (add32 r n) = sub32 x r - n := by
  unfold sub32 add32 at *
  omega

theorem sub32_add32_add32 (x r n : Nat) : sub32 (add32 x n) (add32 r n) = sub32 x r := by
  unfold sub32 add32
  omega

/-- The distance of two counters is the difference of their distances from a third. -/
theorem sub32_eq_sub {x y r : Nat} (h : sub32 y r ≤ sub32 x r) : sub32 x y = sub32 x r - sub32 y r := by
  unfold sub32 at *
  omega

/-- A counter behind another is the whole circle away. -/
theorem sub32_eq_add {x y r : Nat} (h : sub32 x r < sub32 y r) : sub32 x y = sub32 x r + 2 ^ 32 - sub32 y r := by
  unfold sub32 at *
  omega

theorem sub32_inj {x y r : Nat} (hx : x < 2 ^ 32) (hy : y < 2 ^ 32) : sub32 x r = sub32 y r ↔ x = y := by
  unfold sub32
  omega

theorem sub32_self_add32 {r n : Nat} (hn : n < 2 ^ 32) : sub32 (add32 r n) r = n := by
  unfold sub32 add32
  omega

theorem add32_zero {x : Nat} (hx : x < 2 ^ 32) : add32 x 0 = x := Nat.mod_eq_of_lt hx

/-- The counters' order, with the distances from RETIRED written out. -/
theorem pipeOrdered_iff (p : PipeDesc) : pipeOrdered p ↔
    1 ≤ p.size ∧ p.size ≤ 2 ^ 20 ∧ p.claimed < 2 ^ 32 ∧ p.committed < 2 ^ 32 ∧ p.taken < 2 ^ 32 ∧ p.retired < 2 ^ 32 ∧
    p.padAt < 2 ^ 32 ∧ sub32 p.taken p.retired ≤ sub32 p.committed p.retired ∧
    sub32 p.committed p.retired ≤ sub32 p.claimed p.retired ∧ sub32 p.claimed p.retired ≤ p.size ∧
    (p.padP = true → 1 ≤ p.padLen ∧ sub32 p.taken p.retired ≤ sub32 p.padAt p.retired ∧
      sub32 p.padAt p.retired + p.padLen ≤ sub32 p.claimed p.retired) := Iff.rfl

/-! ## PCLM -/

/-- The granules to the end of the ring, where n more would cross it. -/
def padFor (p : PipeDesc) (n : Nat) : Nat := if p.size < p.claimed % p.size + n then p.size - p.claimed % p.size else 0

/-- PCLM of n > 0 granules, R225. -/
theorem pipeClaim_of_pos {n : Nat} (hn : 0 < n) (p : PipeDesc) :
    let grant (q : PipeDesc) (rec' : Option (Nat × Nat)) : PipeOut :=
      .done { q with claimed := add32 q.claimed n } (q.claimed % q.size) rec'
    pipeClaim p n =
      if p.size < n then .bad stOversize
      else if p.size < padFor p n + n then
        if p.free == p.size && !p.padP then
          grant { p with claimed := add32 p.claimed (padFor p n), committed := add32 p.committed (padFor p n)
                         taken := add32 p.taken (padFor p n), retired := add32 p.retired (padFor p n) } none
        else .wait
      else if decide ((padFor p n + n : Nat) ≤ p.free) && (padFor p n == 0 || !p.padP) then
        if padFor p n == 0 then grant p none
        else grant { p with padAt := p.claimed, padLen := padFor p n, padP := true, claimed := add32 p.claimed (padFor p n)
                            committed := if p.committed == p.claimed then add32 p.committed (padFor p n) else p.committed }
          (some (p.claimed % p.size, padFor p n))
      else .wait := by
  have hn0 : (n == 0) = false := by simp; omega
  simp only [pipeClaim, hn0, Bool.false_eq_true, if_false]
  rfl

/-- The descriptor that a claim of n is granted on, where a pad of k granules stands before the ring's end. -/
inductive ClaimBase (p : PipeDesc) (n k : Nat) : PipeDesc → Prop where
  /-- An empty pipe moves to the start of the ring. -/
  | skip (hbig : p.size < k + n) (hempty : sub32 p.claimed p.retired = 0) (hp : p.padP = false) (hn : n ≤ p.size) :
    ClaimBase p n k { p with claimed := add32 p.claimed k, committed := add32 p.committed k
                             taken := add32 p.taken k, retired := add32 p.retired k }
  | plain (hpad : k = 0) (hfree : sub32 p.claimed p.retired + n ≤ p.size) : ClaimBase p n k p
  /-- A pad fills the ring to its end. -/
  | pad (hpad : 0 < k) (hfree : sub32 p.claimed p.retired + k + n ≤ p.size) (hp : p.padP = false) :
    ClaimBase p n k { p with padAt := p.claimed, padLen := k, padP := true, claimed := add32 p.claimed k
                             committed := if p.committed == p.claimed then add32 p.committed k else p.committed }

theorem pipeClaim_done {p q : PipeDesc} {n r : Nat} {pad : Option (Nat × Nat)} (hn : 0 < n) (h : pipeClaim p n = .done q r pad) :
    ∃ b, ClaimBase p n (padFor p n) b ∧ q = { b with claimed := add32 b.claimed n } ∧ r = b.claimed % b.size := by
  rw [pipeClaim_of_pos hn] at h
  generalize padFor p n = k at h
  split at h
  · cases h
  · split at h
    · split at h
      next hle hbig hfree =>
        simp only [Bool.and_eq_true, beq_iff_eq, Bool.not_eq_true', PipeDesc.free] at hfree
        obtain ⟨hq, hr, -⟩ := PipeOut.done.inj h
        exact ⟨_, .skip hbig (by omega) hfree.2 (by omega), hq.symm, hr.symm⟩
      next => cases h
    · split at h
      next hle hfit hfree =>
        obtain ⟨hroom, hnoPad⟩ := Bool.and_eq_true_iff.1 hfree
        have hroom := of_decide_eq_true hroom
        simp only [PipeDesc.free, Bool.or_eq_true, beq_iff_eq, Bool.not_eq_true'] at hroom hnoPad
        split at h
        next hpad =>
          obtain ⟨hq, hr, -⟩ := PipeOut.done.inj h
          exact ⟨_, .plain (by simpa using hpad) (by omega), hq.symm, hr.symm⟩
        next hpad =>
          have hk : k ≠ 0 := by simpa using hpad
          obtain ⟨hq, hr, -⟩ := PipeOut.done.inj h
          exact ⟨_, .pad (by omega) (by omega) (hnoPad.resolve_left hk), hq.symm, hr.symm⟩
      next => cases h

theorem padFor_le {p : PipeDesc} (hsize : 1 ≤ p.size) (n : Nat) : padFor p n ≤ p.size := by
  unfold padFor
  split <;> omega

/-- With the pad the claim starts at the start of the ring; without one it does not cross the end. -/
theorem claim_offset {p : PipeDesc} (hsize : 1 ≤ p.size) (n : Nat) :
    (padFor p n = 0 → p.claimed % p.size + n ≤ p.size) ∧ (0 < padFor p n → (p.claimed + padFor p n) % p.size = 0) := by
  have hmod : p.claimed % p.size < p.size := Nat.mod_lt _ hsize
  unfold padFor
  split
  next h =>
    refine ⟨fun h0 => by omega, fun _ => ?_⟩
    have hsum : p.claimed + (p.size - p.claimed % p.size) = p.size * (p.claimed / p.size + 1) := by
      have := Nat.div_add_mod p.claimed p.size
      rw [Nat.mul_add]
      omega
    rw [hsum, Nat.mul_mod_right]
  next h => exact ⟨fun _ => by omega, fun h0 => absurd h0 (Nat.lt_irrefl 0)⟩

/-- A claim advances CLAIMED of an ordered descriptor with n granules free. -/
theorem pipeOrdered_claim {b : PipeDesc} {n : Nat} (h : pipeOrdered b) (hfree : sub32 b.claimed b.retired + n ≤ b.size) :
    pipeOrdered { b with claimed := add32 b.claimed n } := by
  obtain ⟨hs, hs', hcl, hco, hta, hre, hpa, h1, h2, h3, hpad⟩ := (pipeOrdered_iff _).1 h
  have hadd := sub32_add32 (x := b.claimed) (n := n) (r := b.retired) (by omega)
  refine (pipeOrdered_iff _).2 ⟨hs, hs', add32_lt .., hco, hta, hre, hpa, h1, ?_, ?_, fun hp => ?_⟩
  · dsimp only; omega
  · dsimp only; omega
  · obtain ⟨hl, ha, he⟩ := hpad hp
    refine ⟨hl, ha, ?_⟩
    dsimp only
    omega

theorem claimBase_ordered {p b : PipeDesc} {n k : Nat} (hk : k ≤ p.size) (h : pipeOrdered p) (hb : ClaimBase p n k b) :
    pipeOrdered b ∧ b.size = p.size ∧ sub32 b.claimed b.retired + n ≤ b.size := by
  obtain ⟨hs, hs', hcl, hco, hta, hre, hpa, h1, h2, h3, hpad⟩ := (pipeOrdered_iff _).1 h
  cases hb with
  | skip hbig hempty hp hn =>
    refine ⟨(pipeOrdered_iff _).2 ⟨hs, hs', add32_lt .., add32_lt .., add32_lt .., add32_lt .., hpa, ?_, ?_, ?_, ?_⟩, rfl, ?_⟩
    · simpa only [sub32_add32_add32] using h1
    · simpa only [sub32_add32_add32] using h2
    · simpa only [sub32_add32_add32] using h3
    · intro hp'
      exact absurd (hp.symm.trans hp') Bool.false_ne_true
    · simp only [sub32_add32_add32]
      omega
  | plain hzero hfree => exact ⟨⟨hs, hs', hcl, hco, hta, hre, hpa, h1, h2, h3, hpad⟩, rfl, hfree⟩
  | pad hpos hfree hp =>
    have hadd := sub32_add32 (x := p.claimed) (n := k) (r := p.retired) (by omega)
    have hcommitted : sub32 (if p.committed == p.claimed then add32 p.committed k else p.committed) p.retired =
        if p.committed = p.claimed then sub32 p.claimed p.retired + k else sub32 p.committed p.retired := by
      by_cases heq : p.committed = p.claimed
      · simp [heq, hadd]
      · simp [heq]
    refine ⟨(pipeOrdered_iff _).2 ⟨hs, hs', add32_lt .., ?_, hta, hre, hcl, ?_, ?_, ?_, fun _ => ⟨hpos, ?_, ?_⟩⟩, rfl, ?_⟩
    · dsimp only
      split
      · exact add32_lt ..
      · exact hco
    · dsimp only
      rw [hcommitted]
      split <;> omega
    · dsimp only
      rw [hcommitted, hadd]
      split <;> omega
    · dsimp only
      omega
    · dsimp only
      omega
    · dsimp only
      omega
    · dsimp only
      omega

/-! ## PCMT -/

/-- A pad within a span leaves its length out of the span's granules. -/
theorem pipeCommit_ordered {p q : PipeDesc} {n r : Nat} {pad : Option (Nat × Nat)} (h : pipeOrdered p)
    (hq : pipeCommit p n = .done q r pad) : pipeOrdered q ∧ q.size = p.size := by
  unfold pipeCommit at hq
  split at hq
  · obtain ⟨rfl, -, -⟩ := PipeOut.done.inj hq
    exact ⟨h, rfl⟩
  rename_i hn
  have hpos : 0 < n := by simp at hn; omega
  obtain ⟨hs, hs', hcl, hco, hta, hre, hpa, h1, h2, h3, hpad⟩ := (pipeOrdered_iff _).1 h
  have hspan := sub32_eq_sub h2
  dsimp only at hq
  generalize hskip : (if p.padIn p.committed p.claimed = true then p.padLen else 0) = skip at hq
  split at hq
  · cases hq
  rename_i hopen
  obtain ⟨rfl, -, -⟩ := PipeOut.done.inj hq
  have hadd := sub32_add32 (x := p.committed) (n := n) (r := p.retired) (by omega)
  -- the pad that the commit reaches lies in the span it commits from
  have hreach : (p.padP && add32 p.committed n == p.padAt) = true →
      sub32 (add32 (add32 p.committed n) p.padLen) p.retired = sub32 p.committed p.retired + n + p.padLen ∧
        sub32 p.committed p.retired + n + p.padLen ≤ sub32 p.claimed p.retired := by
    intro hcond
    obtain ⟨hp, heq⟩ := Bool.and_eq_true_iff.1 hcond
    rw [beq_iff_eq] at heq
    obtain ⟨hl, ha, he⟩ := hpad hp
    have hat : sub32 p.padAt p.retired = sub32 p.committed p.retired + n := heq ▸ hadd
    have hin : p.padIn p.committed p.claimed = true := by
      have := sub32_eq_sub (x := p.padAt) (y := p.committed) (r := p.retired) (by omega)
      simp only [PipeDesc.padIn, hp, Bool.true_and, decide_eq_true_eq]
      omega
    rw [hin, if_pos rfl] at hskip
    have := sub32_add32 (x := add32 p.committed n) (n := p.padLen) (r := p.retired) (by omega)
    omega
  refine ⟨(pipeOrdered_iff _).2 ⟨hs, hs', hcl, ?_, hta, hre, hpa, ?_, ?_, h3, hpad⟩, rfl⟩
  · dsimp only
    split <;> exact add32_lt ..
  · dsimp only
    split
    next hcond => have := hreach hcond; omega
    next => omega
  · dsimp only
    split
    next hcond => have := hreach hcond; omega
    next => omega

/-! ## PAWT -/

/-- The granules of a pad at the front, which a take passes over. -/
def skipOf (p : PipeDesc) : Nat := if p.padP && p.taken == p.padAt then p.padLen else 0

/-- PAWT of n > 0 granules that takes them: it passes over a pad at its front and stops before any other. -/
theorem pipeTake_done {p q : PipeDesc} {n r : Nat} {pad : Option (Nat × Nat)} (hn : 0 < n) (h : pipeTake p n = .done q r pad) :
    (n : Int) ≤ p.available ∧ add32 p.taken (skipOf p) % p.size + n ≤ p.size ∧
    ((skipOf p ≠ 0 ∧ r = add32 p.taken (skipOf p) % p.size ∧
        q = { p with taken := add32 (add32 p.taken (skipOf p)) n, retired := add32 p.retired (skipOf p), padP := false }) ∨
      ((p.padP = true → skipOf p = 0 → n ≤ sub32 p.padAt (add32 p.taken (skipOf p))) ∧
        (skipOf p = 0 ∨ (p.padP && p.taken == p.padAt) = false) ∧ r = p.taken % p.size ∧
        q = { p with taken := add32 p.taken n })) := by
  have hn0 : (n == 0) = false := by simp; omega
  have hskip : (if (p.padP && p.taken == p.padAt) = true then p.padLen else 0) = skipOf p := rfl
  unfold pipeTake at h
  simp only [hn0, Bool.false_eq_true, if_false, hskip] at h
  split at h
  · cases h
  · split at h
    · cases h
    · split at h
      · cases h
      next hav hbad =>
        simp only [Bool.or_eq_true, Bool.and_eq_true, decide_eq_true_eq, beq_iff_eq, not_or, not_and, Nat.not_lt] at hbad
        rw [decide_eq_true_eq, Int.not_lt] at hav
        refine ⟨hav, hbad.1, ?_⟩
        obtain ⟨hq, hr, -⟩ := PipeOut.done.inj h
        by_cases hc : (p.padP && p.taken == p.padAt && skipOf p != 0) = true
        · rw [if_pos hc] at hq hr
          simp only [Bool.and_eq_true, bne_iff_ne] at hc
          exact .inl ⟨hc.2, hr.symm, hq.symm⟩
        · rw [if_neg hc] at hq hr
          refine .inr ⟨fun hp h0 => hbad.2 ⟨hp, h0⟩, ?_, hr.symm, hq.symm⟩
          by_cases h0 : skipOf p = 0
          · exact .inl h0
          · exact .inr (by simpa [h0] using hc)

theorem pipeTake_ordered {p q : PipeDesc} {n r : Nat} {pad : Option (Nat × Nat)} (hn : 0 < n) (h : pipeOrdered p)
    (hq : pipeTake p n = .done q r pad) : pipeOrdered q ∧ q.size = p.size := by
  obtain ⟨hav, -, hcase⟩ := pipeTake_done hn hq
  obtain ⟨hs, hs', hcl, hco, hta, hre, hpa, h1, h2, h3, hpad⟩ := (pipeOrdered_iff _).1 h
  have hspan := sub32_eq_sub h1
  unfold PipeDesc.available at hav
  rcases hcase with ⟨hskip, -, rfl⟩ | ⟨hbefore, hfront, -, rfl⟩
  · -- the pad at the front goes with the granules taken
    have hcond : (p.padP && p.taken == p.padAt) = true := by
      refine Decidable.byContradiction fun hno => ?_
      exact hskip (if_neg hno)
    have hlen : skipOf p = p.padLen := if_pos hcond
    simp only [Bool.and_eq_true, beq_iff_eq] at hcond
    obtain ⟨hp, hat⟩ := hcond
    obtain ⟨hl, -, he⟩ := hpad hp
    rw [← hat] at he
    have hin : p.padIn p.taken p.committed = true := by
      have hself : sub32 p.taken p.taken = 0 := by unfold sub32; omega
      simp only [PipeDesc.padIn, hp, ← hat, hself, Bool.true_and, decide_eq_true_eq]
      split at hav <;> omega
    rw [hin, if_pos rfl] at hav
    rw [hlen]
    have hpass := sub32_add32 (x := p.taken) (n := p.padLen) (r := p.retired) (by omega)
    have htake := sub32_add32 (x := add32 p.taken p.padLen) (n := n) (r := p.retired) (by omega)
    have hnear {x : Nat} (hx : p.padLen ≤ sub32 x p.retired) := sub32_add32_right hx
    have htaken := hnear (x := add32 (add32 p.taken p.padLen) n) (by omega)
    have hcommitted := hnear (x := p.committed) (by omega)
    have hclaimed := hnear (x := p.claimed) (by omega)
    refine ⟨(pipeOrdered_iff _).2 ⟨hs, hs', hcl, hco, add32_lt .., add32_lt .., hpa, ?_, ?_, ?_, ?_⟩, rfl⟩
    · dsimp only; omega
    · dsimp only; omega
    · dsimp only; omega
    · exact fun hp' => absurd hp' Bool.false_ne_true
  · -- no pad at the front
    have htake := sub32_add32 (x := p.taken) (n := n) (r := p.retired) (by split at hav <;> omega)
    refine ⟨(pipeOrdered_iff _).2 ⟨hs, hs', hcl, hco, add32_lt .., hre, hpa, ?_, h2, h3, fun hp => ?_⟩, rfl⟩
    · dsimp only
      split at hav <;> omega
    · obtain ⟨hl, ha, he⟩ := hpad hp
      have hzero : skipOf p = 0 := hfront.elim id fun hno => by simp [skipOf, hno]
      have hgap := hbefore hp hzero
      rw [hzero, add32_zero hta, sub32_eq_sub ha] at hgap
      refine ⟨hl, ?_, he⟩
      dsimp only
      omega

/-! ## PRET -/

theorem pipeReturn_ordered {p q : PipeDesc} {n r : Nat} {pad : Option (Nat × Nat)} (hn : n < 2 ^ 32) (h : pipeOrdered p)
    (hq : pipeReturn p n = .done q r pad) :
    pipeOrdered q ∧ q.size = p.size ∧ sub32 q.retired p.retired = n ∧ n ≤ sub32 p.taken p.retired := by
  unfold pipeReturn at hq
  split at hq
  next hzero =>
    have hn0 : n = 0 := by simpa using hzero
    obtain ⟨rfl, -, -⟩ := PipeOut.done.inj hq
    subst hn0
    refine ⟨h, rfl, ?_, Nat.zero_le _⟩
    unfold sub32
    omega
  next =>
    split at hq
    · cases hq
    next hle =>
      obtain ⟨rfl, -, -⟩ := PipeOut.done.inj hq
      obtain ⟨hs, hs', hcl, hco, hta, hre, hpa, h1, h2, h3, hpad⟩ := (pipeOrdered_iff _).1 h
      have hnear {x : Nat} (hx : n ≤ sub32 x p.retired) := sub32_add32_right hx
      have htaken := hnear (x := p.taken) (by omega)
      have hcommitted := hnear (x := p.committed) (by omega)
      have hclaimed := hnear (x := p.claimed) (by omega)
      refine ⟨(pipeOrdered_iff _).2 ⟨hs, hs', hcl, hco, hta, add32_lt .., hpa, ?_, ?_, ?_, fun hp => ?_⟩, rfl,
        sub32_self_add32 hn, by omega⟩
      · dsimp only; omega
      · dsimp only; omega
      · dsimp only; omega
      · obtain ⟨hl, ha, he⟩ := hpad hp
        have hat := hnear (x := p.padAt) (by omega)
        refine ⟨hl, ?_, ?_⟩
        · dsimp only; omega
        · dsimp only; omega

/-! ## Every operation -/

theorem pipeClaim_ordered {p q : PipeDesc} {n r : Nat} {pad : Option (Nat × Nat)} (h : pipeOrdered p)
    (hq : pipeClaim p n = .done q r pad) : pipeOrdered q ∧ q.size = p.size := by
  by_cases hn : 0 < n
  · obtain ⟨b, hb, rfl, -⟩ := pipeClaim_done hn hq
    obtain ⟨hord, hsize, hfree⟩ := claimBase_ordered (padFor_le ((pipeOrdered_iff _).1 h).1 n) h hb
    exact ⟨pipeOrdered_claim hord hfree, hsize⟩
  · obtain rfl : n = 0 := by omega
    obtain ⟨rfl, -, -⟩ := PipeOut.done.inj hq
    exact ⟨h, rfl⟩

theorem pipeStep_ordered {p q : PipeDesc} {op n r : Nat} {pad : Option (Nat × Nat)} (hn : n < 2 ^ 32) (h : pipeOrdered p)
    (hq : pipeStep op n p = .done q r pad) : pipeOrdered q ∧ q.size = p.size := by
  unfold pipeStep at hq
  split at hq
  · exact pipeClaim_ordered h hq
  · exact pipeCommit_ordered h hq
  · by_cases hpos : 0 < n
    · exact pipeTake_ordered hpos h hq
    · obtain rfl : n = 0 := by omega
      obtain ⟨rfl, -, -⟩ := PipeOut.done.inj hq
      exact ⟨h, rfl⟩
  · obtain ⟨hord, hsize, -, -⟩ := pipeReturn_ordered hn h hq
    exact ⟨hord, hsize⟩
  · obtain ⟨rfl, -, -⟩ := PipeOut.done.inj hq
    exact ⟨h, rfl⟩

/-- A claim that is granted takes n granules in one piece of the ring. -/
theorem pipeClaim_granules {p q : PipeDesc} {n r : Nat} {pad : Option (Nat × Nat)} (h : pipeOrdered p) (hn : 0 < n)
    (hwrap : p.claimed + 2 * p.size < 2 ^ 32) (hq : pipeClaim p n = .done q r pad) :
    r + n ≤ p.size ∧ p.claimed + n ≤ q.claimed ∧ r = (q.claimed - n) % p.size := by
  obtain ⟨b, hb, rfl, rfl⟩ := pipeClaim_done hn hq
  have hsize := ((pipeOrdered_iff _).1 h).1
  have hk := padFor_le hsize n
  obtain ⟨hflat, hend⟩ := claim_offset hsize n
  have hnle : n ≤ p.size := by
    cases hb with
    | skip _ _ _ hn => exact hn
    | plain _ hfree => omega
    | pad _ hfree _ => omega
  have hadd {x : Nat} (hx : x + n < 2 ^ 32) : add32 x n = x + n := Nat.mod_eq_of_lt hx
  have hpadded : add32 p.claimed (padFor p n) = p.claimed + padFor p n := Nat.mod_eq_of_lt (by omega)
  -- the claim starts at CLAIMED, moved to the start of the ring where a pad stands before it
  have hstart : b.claimed = p.claimed + padFor p n ∧ b.size = p.size ∧ b.claimed % p.size + n ≤ p.size := by
    cases hb with
    | skip hbig _ _ _ =>
      refine ⟨hpadded, rfl, ?_⟩
      dsimp only
      rw [hpadded, hend (by omega)]
      omega
    | plain hzero _ =>
      rw [hzero]
      exact ⟨rfl, rfl, hflat hzero⟩
    | pad hpos _ _ =>
      refine ⟨hpadded, rfl, ?_⟩
      dsimp only
      rw [hpadded, hend hpos]
      omega
  obtain ⟨hclaimed, hbs, hfits⟩ := hstart
  dsimp only
  rw [hadd (by omega), hbs, Nat.add_sub_cancel]
  exact ⟨hfits, by omega, rfl⟩

theorem pipeTake_granules {p q : PipeDesc} {n r : Nat} {pad : Option (Nat × Nat)} (h : pipeOrdered p) (hn : 0 < n)
    (hq : pipeTake p n = .done q r pad) : r + n ≤ p.size ∧ (n : Int) ≤ p.available := by
  obtain ⟨hav, hfits, hcase⟩ := pipeTake_done hn hq
  refine ⟨?_, hav⟩
  rcases hcase with ⟨-, rfl, -⟩ | ⟨-, hfront, rfl, -⟩
  · exact hfits
  · obtain ⟨-, -, -, -, hta, -⟩ := (pipeOrdered_iff _).1 h
    have hzero : skipOf p = 0 := hfront.elim id fun hno => by simp [skipOf, hno]
    rwa [hzero, add32_zero hta] at hfits

end Sys2Proof.Machine

namespace Sys2Proof.Claims

open Sys2Proof.Machine

/-- Settles O27: each operation keeps the order, and what it answers follows from the cases in which it is granted. -/
theorem pipeCountersStayOrdered : Obligations.PipeCountersStayOrdered := by
  unfold Obligations.PipeCountersStayOrdered
  intro p n h hn
  refine ⟨fun op q r pad _ hq => pipeStep_ordered hn h hq, fun q r pad hpos hwrap hq => pipeClaim_granules h hpos hwrap hq,
    fun q r pad hpos hq => pipeTake_granules h hpos hq, fun q r pad hq => ?_, rfl, rfl, rfl, rfl⟩
  obtain ⟨-, -, hdist, hle⟩ := pipeReturn_ordered hn h hq
  exact ⟨hdist, hle⟩

end Sys2Proof.Claims
end


section
/-! PROOFS. An element written into a tile reads back and every other element stays (R63, R131, R148, R445). -/

namespace Sys2Proof.Machine

/-! ## Bytes listed in rising order -/

/-- A sparse byte array whose addresses rise. -/
def Rising (m : List Host.Cell) : Prop := (m.map Prod.fst).Pairwise (· < ·)

theorem rising_cons {c : Host.Cell} {m : List Host.Cell} : Rising (c :: m) ↔ (∀ x ∈ m, c.1 < x.1) ∧ Rising m := by
  simp [Rising, List.pairwise_cons]

theorem mem_erase_of_mem {m : List Host.Cell} {a : Nat} {x : Host.Cell} (h : x ∈ Memory.erase m a) : x ∈ m := by
  induction m with
  | nil => exact h
  | cons c m ih =>
    unfold Memory.erase at h
    split at h
    · exact List.mem_cons_of_mem _ h
    · exact (List.mem_cons.1 h).elim (fun e => e ▸ List.mem_cons_self) fun hx => List.mem_cons_of_mem _ (ih hx)

theorem mem_insert {m : List Host.Cell} {a : Nat} {b : Byte} {x : Host.Cell} (h : x ∈ Memory.insert m a b) :
    x = (a, b) ∨ x ∈ m := by
  induction m with
  | nil => exact .inl (List.mem_singleton.1 h)
  | cons c m ih =>
    unfold Memory.insert at h
    split at h
    · exact List.mem_cons.1 h
    · split at h
      · exact (List.mem_cons.1 h).imp_right (List.mem_cons_of_mem _)
      · rcases List.mem_cons.1 h with rfl | hx
        · exact .inr List.mem_cons_self
        · exact (ih hx).imp_right (List.mem_cons_of_mem _)

theorem rising_erase {m : List Host.Cell} (a : Nat) (h : Rising m) : Rising (Memory.erase m a) := by
  induction m with
  | nil => exact h
  | cons c m ih =>
    obtain ⟨hc, hm⟩ := rising_cons.1 h
    unfold Memory.erase
    split
    · exact hm
    · exact rising_cons.2 ⟨fun x hx => hc x (mem_erase_of_mem hx), ih hm⟩

theorem rising_insert {m : List Host.Cell} (a : Nat) (b : Byte) (h : Rising m) : Rising (Memory.insert m a b) := by
  induction m with
  | nil => exact List.pairwise_singleton ..
  | cons c m ih =>
    obtain ⟨hc, hm⟩ := rising_cons.1 h
    unfold Memory.insert
    split
    next hlt =>
      refine rising_cons.2 ⟨fun x hx => ?_, h⟩
      rcases List.mem_cons.1 hx with rfl | hx
      · exact hlt
      · exact Nat.lt_trans hlt (hc x hx)
    next hge =>
      split
      next heq =>
        rw [beq_iff_eq] at heq
        exact rising_cons.2 ⟨fun x hx => heq ▸ hc x hx, hm⟩
      next hne =>
        rw [beq_iff_eq] at hne
        refine rising_cons.2 ⟨fun x hx => ?_, ih hm⟩
        rcases mem_insert hx with rfl | hx
        · exact Nat.lt_of_le_of_ne (Nat.not_lt.1 hge) hne
        · exact hc x hx

theorem rising_set {m : List Host.Cell} (a : Nat) (b : Byte) (h : Rising m) : Rising (Memory.set m a b) := by
  unfold Memory.set
  split
  · exact rising_erase a h
  · exact rising_insert a b h

theorem get_of_unlisted {m : List Host.Cell} {a : Nat} (h : ∀ x ∈ m, x.1 ≠ a) : Memory.get m a = blank := by
  induction m with
  | nil => rfl
  | cons c m ih =>
    obtain ⟨hc, hm⟩ := List.forall_mem_cons.1 h
    unfold Memory.get
    rw [if_neg (by simpa using hc), ih hm]

theorem get_erase_of_rising {m : List Host.Cell} (a : Nat) (h : Rising m) : Memory.get (Memory.erase m a) a = blank := by
  induction m with
  | nil => rfl
  | cons c m ih =>
    obtain ⟨hc, hm⟩ := rising_cons.1 h
    unfold Memory.erase
    split
    next heq =>
      rw [beq_iff_eq] at heq
      exact get_of_unlisted fun x hx => by have := hc x hx; omega
    next hne =>
      unfold Memory.get
      rw [if_neg hne, ih hm]

theorem get_set_of_rising {m : List Host.Cell} (a : Nat) (b : Byte) (h : Rising m) : Memory.get (Memory.set m a b) a = b := by
  unfold Memory.set
  split
  next hb => rw [get_erase_of_rising a h, beq_iff_eq.1 hb]
  next => exact Memory.get_insert_same m a b

/-! ## Bytes of a tile -/

section Bytes

variable {t : Tile} {off x : Nat}

@[simp] theorem Tile.setByte_shape (t : Tile) (off : Nat) (b : Byte) : (t.setByte off b).shape = t.shape := rfl

theorem Tile.setBytes_shape (bs : List Byte) (t : Tile) (off : Nat) : (t.setBytes off bs).shape = t.shape := by
  induction bs generalizing t off with
  | nil => rfl
  | cons b bs ih => exact (ih ..).trans rfl

theorem Tile.setBytes_frame (bs : List Byte) (t : Tile) (off : Nat) : { t.setBytes off bs with bytes := t.bytes } = t := by
  induction bs generalizing t off with
  | nil => rfl
  | cons b bs ih => exact congrArg (fun u : Tile => { u with bytes := t.bytes }) (ih (t.setByte off b) (off + 1))

theorem Tile.setBytes_rising (bs : List Byte) {t : Tile} (off : Nat) (h : Rising t.bytes) : Rising (t.setBytes off bs).bytes := by
  induction bs generalizing t off with
  | nil => exact h
  | cons b bs ih => exact ih (t := t.setByte off b) (off + 1) (rising_set off b h)

theorem Tile.byte_setByte (h : Rising t.bytes) (b : Byte) : (t.setByte off b).byte off = b := get_set_of_rising off b h

theorem Tile.byte_setByte_other (hx : x ≠ off) (b : Byte) : (t.setByte off b).byte x = t.byte x :=
  Memory.get_set_other _ _ _ _ hx

theorem Tile.byte_setBytes_outside (bs : List Byte) (hx : x < off ∨ off + bs.length ≤ x) :
    (t.setBytes off bs).byte x = t.byte x := by
  induction bs generalizing t off with
  | nil => rfl
  | cons b bs ih =>
    rw [List.length_cons] at hx
    unfold Tile.setBytes
    rw [ih (by omega), Tile.byte_setByte_other (by omega)]

theorem Tile.getBytes_setBytes (bs : List Byte) (h : Rising t.bytes) : (t.setBytes off bs).getBytes off bs.length = bs := by
  induction bs generalizing t off with
  | nil => rfl
  | cons b bs ih =>
    have hhead : ((t.setByte off b).setBytes (off + 1) bs).byte off = b := by
      rw [Tile.byte_setBytes_outside _ (by omega), Tile.byte_setByte h]
    have htail := ih (t := t.setByte off b) (off := off + 1) (rising_set off b h)
    unfold Tile.setBytes
    rw [Tile.getBytes, List.length_cons, List.range_succ_eq_map, List.map_cons, List.map_map]
    rw [Nat.add_zero off, hhead]
    congr 1
    refine Eq.trans ?_ htail
    exact List.map_congr_left fun i _ => congrArg (Tile.byte _) (by omega)

theorem Tile.getBytes_setBytes_outside (bs : List Byte) {n : Nat} (hx : x + n ≤ off ∨ off + bs.length ≤ x) :
    (t.setBytes off bs).getBytes x n = t.getBytes x n :=
  List.map_congr_left fun i hi => Tile.byte_setBytes_outside bs (by have := List.mem_range.1 hi; omega)

end Bytes

/-! ## Where the elements lie (R63, R131) -/

/-- The types whose elements take half a byte. -/
theorem tyBits_cases (t : Ty) : tyBits t = 4 ∨ ∃ n, 0 < n ∧ tyBits t = 8 * n := by
  cases t
  case e2m1 => exact .inl rfl
  case qn4 => exact .inl rfl
  case s8 | z8 | e4m3 | e5m2 => exact .inr ⟨1, by decide, rfl⟩
  case s16 | z16 | bf16 | f16 => exact .inr ⟨2, by decide, rfl⟩
  case s32 | z32 | f32 => exact .inr ⟨4, by decide, rfl⟩
  case s64 | z64 | none => exact .inr ⟨8, by decide, rfl⟩

/-- A shape whose rows hold their elements: an accumulator has FP32 elements, at most 256 of them (R131). -/
def RowsHold (sh : Shape) : Prop := sh.acc = true → sh.ty = .f32 ∧ sh.cols ≤ 256

/-- The elements of a row lie in its bytes. -/
theorem row_holds {sh : Shape} (h : RowsHold sh) : sh.cols * tyBits sh.ty ≤ 8 * rowBytes sh := by
  unfold rowBytes
  split
  next hacc =>
    obtain ⟨hty, hcols⟩ := h hacc
    rw [hty]
    change sh.cols * 32 ≤ 8 * 1024
    omega
  next =>
    unfold packedRow ceilDiv
    omega

/-- Spans of length `n` in different places of rows of `len` bytes do not overlap. -/
theorem spans_disjoint {len n cols r c i j : Nat} (hlen : cols * n ≤ len) (hc : c < cols) (hj : j < cols) (h : (i, j) ≠ (r, c)) :
    i * len + j * n + n ≤ r * len + c * n ∨ r * len + c * n + n ≤ i * len + j * n := by
  have fits {j : Nat} (hj : j < cols) : j * n + n ≤ len :=
    Nat.le_trans (by rw [← Nat.succ_mul]; exact Nat.mul_le_mul_right n hj) hlen
  have hjn := fits hj
  have hcn := fits hc
  have step {x y k : Nat} (hxy : x < y) : x * k + k ≤ y * k := by
    rw [← Nat.succ_mul]
    exact Nat.mul_le_mul_right k hxy
  rcases Nat.lt_trichotomy i r with hir | rfl | hir
  · have := step (k := len) hir
    omega
  · rcases Nat.lt_trichotomy j c with hjc | rfl | hjc
    · have := step (k := n) hjc
      omega
    · exact absurd rfl h
    · have := step (k := n) hjc
      omega
  · have := step (k := len) hir
    omega

section Elements

variable {t : Tile} {r c i j v : Nat} (hrise : Rising t.bytes) (hrows : RowsHold t.shape) (hc : c < t.shape.cols)
  (hj : j < t.shape.cols)

/-! ## Elements of whole bytes -/

theorem elem_of_bytes {n : Nat} (hn : tyBits t.shape.ty = 8 * n) :
    t.elem r c = leNat (t.getBytes (r * rowBytes t.shape + c * n) n) := by
  have h4 : (tyBits t.shape.ty == 4) = false := by simp; omega
  have h8 : tyBits t.shape.ty / 8 = n := by omega
  simp only [Tile.elem, h4, h8, Bool.false_eq_true, if_false]

theorem setElem_of_bytes {n : Nat} (hn : tyBits t.shape.ty = 8 * n) :
    t.setElem r c v = t.setBytes (r * rowBytes t.shape + c * n) (leBytes n v) := by
  have h4 : (tyBits t.shape.ty == 4) = false := by simp; omega
  have h8 : tyBits t.shape.ty / 8 = n := by omega
  simp only [Tile.setElem, h4, h8, Bool.false_eq_true, if_false]

include hrise in
theorem elem_setElem_of_bytes {n : Nat} (hn : tyBits t.shape.ty = 8 * n) :
    (t.setElem r c v).elem r c = v % 2 ^ tyBits t.shape.ty := by
  have hread := Tile.getBytes_setBytes (off := r * rowBytes t.shape + c * n) (leBytes n v) hrise
  rw [length_leBytes] at hread
  have hshape := Tile.setBytes_shape (leBytes n v) t (r * rowBytes t.shape + c * n)
  rw [setElem_of_bytes hn, elem_of_bytes (by rw [hshape, hn]), hshape, hread, leNat_leBytes, hn, Nat.pow_mul]

include hrows hc hj in
theorem elem_setElem_other_of_bytes {n : Nat} (hn : tyBits t.shape.ty = 8 * n) (h : (i, j) ≠ (r, c)) :
    (t.setElem r c v).elem i j = t.elem i j := by
  have hrow := row_holds hrows
  have hlen : t.shape.cols * n ≤ rowBytes t.shape := by
    rw [hn, ← Nat.mul_assoc, Nat.mul_comm t.shape.cols 8, Nat.mul_assoc] at hrow
    omega
  have hshape := Tile.setBytes_shape (leBytes n v) t (r * rowBytes t.shape + c * n)
  rw [setElem_of_bytes hn, elem_of_bytes (by rw [hshape, hn]), hshape, elem_of_bytes hn,
    Tile.getBytes_setBytes_outside _ (by rw [length_leBytes]; exact spans_disjoint hlen hc hj h)]

/-! ## Elements of half a byte -/

theorem elem_of_half (h4 : tyBits t.shape.ty = 4) :
    t.elem r c = bf (t.byte (r * rowBytes t.shape + c / 2)).toNat (4 * (c % 2)) 4 := by
  simp only [Tile.elem, h4, beq_self_eq_true, if_true]

theorem elem_setByte_of_half (h4 : tyBits t.shape.ty = 4) (off : Nat) (b : Byte) :
    (t.setByte off b).elem r c = bf ((t.setByte off b).byte (r * rowBytes t.shape + c / 2)).toNat (4 * (c % 2)) 4 :=
  elem_of_half (t := t.setByte off b) h4

/-- A byte with one half replaced. -/
def putHalf (old c v : Nat) : Byte := BitVec.ofNat 8 (if c % 2 == 0 then old / 16 * 16 + v % 16 else old % 16 + 16 * (v % 16))

theorem setElem_of_half (h4 : tyBits t.shape.ty = 4) :
    t.setElem r c v =
      t.setByte (r * rowBytes t.shape + c / 2) (putHalf (t.byte (r * rowBytes t.shape + c / 2)).toNat c v) := by
  simp only [Tile.setElem, h4, beq_self_eq_true, if_true]
  rfl

theorem bf_putHalf (old : Nat) : bf (putHalf old c v).toNat (4 * (c % 2)) 4 = v % 16 := by
  have hpar : c % 2 = 0 ∨ c % 2 = 1 := by omega
  unfold putHalf
  rcases hpar with h | h
  · simp only [h, beq_self_eq_true, if_true, BitVec.toNat_ofNat, bf]
    omega
  · simp only [h, BitVec.toNat_ofNat, bf]
    simp
    omega

theorem bf_putHalf_other (old : Nat) (hne : j % 2 ≠ c % 2) :
    bf (putHalf old c v).toNat (4 * (j % 2)) 4 = bf old (4 * (j % 2)) 4 := by
  have hpar : (c % 2 = 0 ∧ j % 2 = 1) ∨ (c % 2 = 1 ∧ j % 2 = 0) := by omega
  unfold putHalf
  rcases hpar with ⟨h, h'⟩ | ⟨h, h'⟩
  · simp only [h, h', beq_self_eq_true, if_true, BitVec.toNat_ofNat, bf]
    omega
  · simp only [h, h', BitVec.toNat_ofNat, bf]
    simp

include hrise in
theorem elem_setElem_of_half (h4 : tyBits t.shape.ty = 4) : (t.setElem r c v).elem r c = v % 2 ^ tyBits t.shape.ty := by
  rw [setElem_of_half h4, elem_setByte_of_half h4, Tile.byte_setByte hrise, bf_putHalf]
  exact congrArg (v % 2 ^ ·) h4.symm

include hrise hrows hc hj in
theorem elem_setElem_other_of_half (h4 : tyBits t.shape.ty = 4) (h : (i, j) ≠ (r, c)) :
    (t.setElem r c v).elem i j = t.elem i j := by
  have hrow := row_holds hrows
  rw [h4] at hrow
  rw [setElem_of_half h4, elem_setByte_of_half h4, elem_of_half h4]
  by_cases hplace : (i, j / 2) = (r, c / 2)
  · obtain ⟨rfl, hhalf⟩ := Prod.mk.inj hplace
    have hpar : j % 2 ≠ c % 2 := fun hp => h (by rw [show j = c by omega])
    rw [hhalf, Tile.byte_setByte hrise, bf_putHalf_other _ hpar]
  · have hoff := spans_disjoint (n := 1) (cols := rowBytes t.shape) (len := rowBytes t.shape) (by omega)
      (c := c / 2) (j := j / 2) (by omega) (by omega) hplace
    rw [Tile.byte_setByte_other (by omega)]

end Elements

end Sys2Proof.Machine

namespace Sys2Proof.Claims

open Sys2Proof.Machine

/-- Settles O21: the bytes of different elements do not overlap, and where two share a byte each keeps its half. -/
theorem tileElementsAreSeparate : Obligations.TileElementsAreSeparate := by
  unfold Obligations.TileElementsAreSeparate
  intro t r c v i j hrise hty hc hj hacc u
  rcases tyBits_cases t.shape.ty with h4 | ⟨n, -, hn⟩
  · refine ⟨elem_setElem_of_half hrise h4, elem_setElem_other_of_half hrise hacc hc hj h4, ?_, ?_⟩
    · simp only [u, setElem_of_half h4]
      exact rising_set _ _ hrise
    · simp only [u, setElem_of_half h4]
      rfl
  · refine ⟨elem_setElem_of_bytes hrise hn, elem_setElem_other_of_bytes hacc hc hj hn, ?_, ?_⟩
    · simp only [u, setElem_of_bytes hn]
      exact Tile.setBytes_rising _ _ hrise
    · simp only [u, setElem_of_bytes hn]
      exact Tile.setBytes_frame ..

end Sys2Proof.Claims
end


section
/-! PROOFS. A firing that emits scalars changes nothing beside its emissions and its counter (R94 to R98, R238, R239). -/

namespace Sys2Proof.Machine

/-- A core but for the count of RAS_INJECT (R238). -/
def Core.sansRasCount (c : Core) : Core := { c with regs := { c.regs with rasCount := 0 } }

/-- What sending tokens of a context from a core of this package may change: what is in flight, the phases gained by a region,
the count of RAS_INJECT and the messages to other packages (R97, R329, R238). -/
structure State.EmitsOnly (ctx core : Nat) (s t : State) : Prop where
  quiet : State.Quiet s t
  plat : t.plat = s.plat
  ctxs : t.ctxs = s.ctxs
  cores : ∀ k, (t.core k).sansRasCount = (s.core k).sansRasCount
  regions : (t.regions.map fun g => { g with gained := [] }) = s.regions.map fun g => { g with gained := [] }
  flight : ∃ l, t.flight = s.flight ++ l ∧ ∀ q ∈ l, q.ectx = ctx ∧ q.ecore = core ∧ q.epkg = s.plat.pkg

namespace State.EmitsOnly

variable {ctx core : Nat} {s t u : State}

theorem rfl' : State.EmitsOnly ctx core s s :=
  ⟨.rfl', rfl, rfl, fun _ => rfl, rfl, [], by simp⟩

theorem trans (h : State.EmitsOnly ctx core s t) (k : State.EmitsOnly ctx core t u) : State.EmitsOnly ctx core s u := by
  obtain ⟨l, hl, hm⟩ := h.flight
  obtain ⟨l', hl', hm'⟩ := k.flight
  refine ⟨h.quiet.trans k.quiet, k.plat.trans h.plat, k.ctxs.trans h.ctxs, fun c => (k.cores c).trans (h.cores c),
    k.regions.trans h.regions, l ++ l', by rw [hl', hl, List.append_assoc], fun q hq => ?_⟩
  rcases List.mem_append.mp hq with hq | hq
  · exact hm q hq
  · rw [← h.plat]; exact hm' q hq

theorem foldl {α : Type} (f : State → α → State) (l : List α) (h : ∀ s, ∀ x ∈ l, State.EmitsOnly ctx core s (f s x)) (s : State) :
    State.EmitsOnly ctx core s (l.foldl f s) := by
  induction l generalizing s with
  | nil => exact rfl'
  | cons x l ih => exact (h s x (by simp)).trans (ih (fun s y hy => h s y (by simp [hy])) _)

end State.EmitsOnly

/-- An update of a core's registers that leaves all but the count of RAS_INJECT. -/
theorem State.modCoreRegs_sansRasCount (s : State) (c k : Nat) (f : CoreRegs → CoreRegs)
    (hf : ∀ r, { f r with rasCount := 0 } = { r with rasCount := 0 }) :
    ((s.modCoreRegs c f).core k).sansRasCount = (s.core k).sansRasCount := by
  by_cases hk : k = c
  · subst hk
    by_cases hl : k < s.cores.length
    · rw [State.modCoreRegs, State.core_modCore_same _ _ _ hl]
      simp [Core.sansRasCount, hf]
    · simp [State.modCoreRegs, State.core, State.modCore, hl]
  · rw [State.modCoreRegs, State.core_modCore_other _ _ _ _ hk]

theorem State.emitsOnly_inject2 (s : State) (c ctx core : Nat) (q : QTok) : State.EmitsOnly ctx core s (s.inject2 c q).2 := by
  obtain ⟨hq, hctxs, -, hfl, hplat, -⟩ := State.inject2_spec s c q
  refine ⟨hq, hplat, hctxs, fun k => ?_, ?_, [], by simp [hfl]⟩
  · unfold State.inject2
    dsimp only
    split
    · exact modCoreRegs_sansRasCount _ _ _ _ fun _ => rfl
    · rfl
  · unfold State.inject2
    dsimp only
    split <;> rfl

/-- What RAS_INJECT leaves of a token: all but its residue. -/
theorem State.inject2_origin (s : State) (c : Nat) (q : QTok) :
    (s.inject2 c q).1.ectx = q.ectx ∧ (s.inject2 c q).1.ecore = q.ecore ∧ (s.inject2 c q).1.epkg = q.epkg ∧
    (s.inject2 c q).1.tile = q.tile := by
  unfold State.inject2
  dsimp only
  split <;> exact ⟨rfl, rfl, rfl, rfl⟩

/-- Counting a gained phase changes no region otherwise. -/
theorem State.modRegion_gained (s : State) (home : Nat) (f : Region → Region)
    (hf : ∀ g, { f g with gained := [] } = { g with gained := [] }) :
    ((s.modRegion home f).regions.map fun g => { g with gained := [] }) = s.regions.map fun g => { g with gained := [] } := by
  simp only [State.modRegion, List.map_map]
  refine List.map_congr_left fun g _ => ?_
  simp only [Function.comp]
  split
  · exact hf g
  · rfl

theorem State.emitsOnly_push (s : State) (c : Nat) (q : QTok) (h : q.epkg = s.plat.pkg) :
    State.EmitsOnly q.ectx q.ecore s (s.push c q) := by
  obtain ⟨hquiet, hctxs, -, hplat, q', hfl, hq'⟩ := State.push_spec s c q
  have hinj := State.emitsOnly_inject2 s c q.ectx q.ecore q
  refine ⟨hquiet, hplat, hctxs, fun k => ?_, ?_, [q'], hfl, fun x hx => ?_⟩
  · refine Eq.trans ?_ (hinj.cores k)
    unfold State.push
    dsimp only
    split
    · split <;> rfl
    · rfl
  · refine Eq.trans ?_ hinj.regions
    unfold State.push
    dsimp only
    split
    · split
      · rfl
      · exact modRegion_gained _ _ _ fun _ => rfl
    · rfl
  · rw [List.mem_singleton.mp hx]
    rw [← hq'] at h ⊢
    exact ⟨rfl, rfl, h⟩

/-- R137: a token without a tile waits for no departure. -/
theorem State.emitsOnly_pushOut (s : State) (c ctx core : Nat) (q : QTok) (pkg : Nat) (h : q.tile = none) :
    State.EmitsOnly ctx core s (s.pushOut c q pkg) := by
  have hinj := State.emitsOnly_inject2 s c ctx core q
  obtain ⟨-, -, -, htile⟩ := State.inject2_origin s c q
  have hout : s.pushOut c q pkg = (s.inject2 c q).2.send (.token (s.inject2 c q).1 pkg) := by
    simp [State.pushOut, htile, h]
  rw [hout]
  exact hinj.trans ⟨quiet_send .., rfl, rfl, fun _ => rfl, rfl, [], by simp⟩

theorem State.emitsOnly_toInport (s : State) (site : Site) (lat : Nat) (t : Tok) (pkg core iport cid route stream : Nat)
    (h : t.kind ≠ kTile) :
    State.EmitsOnly site.ctx site.core s (s.toInport site lat t pkg core iport cid route stream) := by
  unfold State.toInport
  extract_lets here stays leaves q x
  have hq : q.tok.kind ≠ kTile := by
    simp only [q]
    split <;> exact h
  have hx : x = (q, s) := State.depart_scalar s site q hq
  rw [hx]
  split
  · exact emitsOnly_push s site.core q rfl
  · dsimp only
    split
    · exact emitsOnly_push s site.core q rfl
    · exact emitsOnly_pushOut s site.core _ _ q pkg rfl

theorem State.emitsOnly_emitAs (s : State) (site : Site) (lat stream : Nat) (d : Dest) (t : Tok) (h : t.kind ≠ kTile) :
    State.EmitsOnly site.ctx site.core s (s.emitAs site lat stream d t) := by
  cases d with
  | none => exact .rfl'
  | node n p => exact emitsOnly_push s site.core (toFrame site ..) rfl
  | out p => exact State.EmitsOnly.foldl _ _ (fun s w _ => emitsOnly_toInport s site lat t _ _ _ _ _ _ h) s

/-- R95: emissions that neither send nor consume a handle. -/
theorem State.emitsOnly_settle (s : State) (site : Site) (lat stream : Nat) (ems : List (Dest × Tok)) (used : List Tok)
    (h : ∀ e ∈ ems, e.2.kind ≠ kTile) (k : ∀ t ∈ used, t.kind ≠ kTile) :
    State.EmitsOnly site.ctx site.core s (s.settle site lat stream ems used) := by
  rw [State.settle_scalar s site lat stream ems used h k]
  exact State.EmitsOnly.foldl _ _ (fun s e he => emitsOnly_emitAs s site lat stream e.1 e.2 (h e he)) s

/-- R26: whether a node is traced does not depend on the count of RAS_INJECT. -/
theorem State.traced_congr {s t : State} {site : Site} (h : (t.core site.core).sansRasCount = (s.core site.core).sansRasCount)
    (trcf : Bool) : t.traced site trcf = s.traced site trcf := by
  have hdesc : (t.core site.core).sansRasCount.desc = (s.core site.core).sansRasCount.desc := by rw [h]
  simp only [State.traced, Core.descOf]
  rw [show (t.core site.core).desc = (s.core site.core).desc from hdesc]

/-- R239: a firing at a node that is not traced counts itself and does what its emissions do. -/
theorem State.finish_of_not_traced {s : State} {p : Par} {lat : Nat} {ems : List (Dest × Tok)} {used : List Tok}
    (ht : s.traced s.cur.site p.trcf = false) (h : ∀ e ∈ ems, e.2.kind ≠ kTile) (k : ∀ t ∈ used, t.kind ≠ kTile) :
    s.finish p lat ems used = (s.settle s.cur.site lat (s.resultStream s.cur.site) ems used).perfCtx s.cur.site.ctx 0x00 1 := by
  have hset := State.emitsOnly_settle s s.cur.site lat (s.resultStream s.cur.site) ems used h k
  unfold State.finish
  dsimp only
  rw [State.traced_congr (s := s) (t := State.perfCtx _ _ _ _) (hset.cores _), ht]
  rfl

/-- The copies of a scalar are no handles. -/
theorem spread_scalar_kind {p : Par} {site : Site} {v : Word} : ∀ e ∈ spread p (scalarTok site v), e.2.kind ≠ kTile := by
  intro e he
  simp only [spread, List.mem_cons, List.not_mem_nil, or_false] at he
  rcases he with rfl | rfl | rfl <;> exact Nat.zero_ne_one

end Sys2Proof.Machine

namespace Sys2Proof.Claims
open Sys2Proof.Machine

/-- Settles O60: the firing finishes at a node that is not traced, so that it counts itself and sends its tokens. -/
theorem scalarResultsChangeNothingElse : Obligations.ScalarResultsChangeNothingElse := by
  unfold Obligations.ScalarResultsChangeNothingElse
  intro i s t p lat v ops hops htr hexec hnext
  have hems := State.emitsOnly_settle s s.cur.site lat (s.resultStream s.cur.site) _ ops
    (spread_scalar_kind (p := p) (site := s.cur.site) (v := v)) hops
  obtain rfl : _ = t := Host.Outcome.next.inj (hexec.symm.trans hnext)
  rw [State.finish_of_not_traced htr spread_scalar_kind hops]
  obtain ⟨⟨hms, hdisp, hgtc, -, hcur, -, hag, hrep⟩, hplat, hctxs, hcores, hreg, hfl⟩ := hems
  refine ⟨hms, hdisp, hplat, hgtc, hcur, hag, hrep, hcores, ?_, hreg, hfl⟩
  simp [State.perfCtx, State.modRegs, State.modCtx, hctxs]

end Sys2Proof.Claims
end


section
/-! PROOFS. ENGINE_ARBITRATION starts the most urgent command or group alone, and PAN_DEADLINE closes the groups that are due
(R188, R198, R328, R401). -/

namespace Sys2Proof.Machine

/-! ## Trace records change no engine -/

/-- Every core's engines, and GTC, stay. -/
def State.SameEngines (s t : State) : Prop := (∀ k, (t.core k).eng = (s.core k).eng) ∧ t.gtc = s.gtc

namespace State.SameEngines

variable {s t u : State}

theorem rfl' : State.SameEngines s s := ⟨fun _ => rfl, rfl⟩

theorem trans (h : State.SameEngines s t) (k : State.SameEngines t u) : State.SameEngines s u :=
  ⟨fun c => (k.1 c).trans (h.1 c), k.2.trans h.2⟩

theorem of_cores (h : t.cores = s.cores) (hg : t.gtc = s.gtc) : State.SameEngines s t :=
  ⟨fun k => by simp only [State.core, h], hg⟩

theorem foldl {α : Type} {f : State → α → State} (h : ∀ s x, State.SameEngines s (f s x)) (l : List α) (s : State) :
    State.SameEngines s (l.foldl f s) := by
  induction l generalizing s with
  | nil => exact rfl'
  | cons x l ih => exact (h s x).trans (ih _)

end State.SameEngines

theorem State.sameEngines_modCore (s : State) (c : Nat) (f : Core → Core) (hf : ∀ k, (f k).eng = k.eng) :
    State.SameEngines s (s.modCore c f) := by
  refine ⟨fun k => ?_, rfl⟩
  by_cases hk : k = c
  · subst hk
    by_cases hl : k < s.cores.length
    · rw [State.core_modCore_same _ _ _ hl, hf]
    · simp [State.core, State.modCore, hl]
  · rw [State.core_modCore_other _ _ _ _ hk]

theorem State.sameEngines_dropStaged (s : State) (a n : Nat) : State.SameEngines s (s.dropStaged a n) := by
  refine (State.SameEngines.foldl (fun s g => ?_) _ s).trans (.of_cores rfl rfl)
  split
  · exact .rfl'
  · exact sameEngines_modCore _ _ _ fun _ => rfl

theorem State.sameEngines_sectorRead (s : State) (sec tag : Nat) : State.SameEngines s (s.sectorRead sec tag) := by
  unfold State.sectorRead
  dsimp only
  repeat' split
  all_goals exact .of_cores rfl rfl

theorem State.sameEngines_writeSector (s : State) (sec a : Nat) (bs : List Byte) (tag key : Nat) :
    State.SameEngines s (s.writeSector sec a bs tag key).2 := by
  by_cases hw : bs.length = 32
  · rw [State.writeSector_of_whole hw]
    exact .of_cores rfl rfl
  · by_cases hst : sectorStatus s sec tag = 0
    · rw [State.writeSector_of_part hw hst]
      exact (sameEngines_sectorRead s sec tag).trans (.of_cores rfl rfl)
    · rw [State.writeSector_of_bad hw hst]
      exact sameEngines_sectorRead s sec tag

theorem State.sameEngines_writePhys (s : State) (a : Nat) (bs : List Byte) (tag key : Nat) :
    State.SameEngines s (s.writePhys a bs tag key).2 := by
  have hfold : ∀ (l : List Nat) (r : Nat × State), State.SameEngines r.2 (l.foldl (writeOne a bs tag key) r).2 := by
    intro l
    induction l with
    | nil => exact fun _ => .rfl'
    | cons x l ih => exact fun r => (sameEngines_writeSector ..).trans (ih _)
  rw [State.writePhys_eq]
  exact ((sameEngines_dropStaged s a _).trans (hfold _ (0, _))).trans (.of_cores rfl rfl)

theorem State.sameEngines_devAdd (s : State) (site : Site) (a : Word) (n w : Nat) :
    State.SameEngines s (s.devAdd site a n w) := by
  unfold State.devAdd
  repeat' split
  · exact sameEngines_writePhys ..
  all_goals exact .of_cores rfl rfl

theorem State.sameEngines_devPut (s : State) (site : Site) (a : Word) (bs : List Byte) :
    State.SameEngines s (s.devPut site a bs) := by
  unfold State.devPut
  split
  · refine State.SameEngines.foldl (fun s p => ?_) _ s
    dsimp only
    repeat' split
    · exact sameEngines_writePhys ..
    all_goals exact .of_cores rfl rfl
  · exact .rfl'

theorem State.sameEngines_devGet (s : State) (site : Site) (a : Word) : State.SameEngines s (s.devGet site a).2 := by
  unfold State.devGet
  repeat' split
  all_goals exact .of_cores rfl rfl

theorem State.sameEngines_traceWrite (s : State) (site : Site) (typ delta : Nat) (w1 w2 w3 : Word) :
    State.SameEngines s (s.traceWrite site typ delta w1 w2 w3).2 := by
  unfold State.traceWrite
  split
  · exact .rfl'
  · next c _ =>
    have hget := ((State.sameEngines_devGet s site c.regs.trace).trans (State.sameEngines_devGet _ site (c.regs.trace + 8))).trans
      (State.sameEngines_devGet _ site (c.regs.trace + 16))
    dsimp only
    split
    · exact (hget.trans (sameEngines_devAdd ..)).trans (.of_cores rfl rfl)
    · exact (hget.trans (sameEngines_devAdd ..)).trans (sameEngines_devPut ..)

theorem State.sameEngines_noteTrace (s : State) (core ctx last gtc : Nat) :
    State.SameEngines s (s.noteTrace core ctx last gtc) := sameEngines_modCore _ _ _ fun _ => rfl

theorem State.sameEngines_gtcRec (s : State) (core ctx : Nat) : State.SameEngines s (s.gtcRec core ctx) := by
  unfold State.gtcRec
  dsimp only
  split
  · exact (sameEngines_traceWrite ..).trans (sameEngines_noteTrace ..)
  · exact sameEngines_traceWrite ..

/-- R396, R397: a trace record changes no engine. -/
theorem State.sameEngines_traceRec (s : State) (site : Site) (typ : Nat) (w1 w2 w3 : Word) :
    State.SameEngines s (s.traceRec site typ w1 w2 w3) := by
  unfold State.traceRec
  split
  · exact .rfl'
  · split
    · split <;> exact .of_cores rfl rfl
    · have hu : State.SameEngines s (if s.gtcDue site.core site.ctx = true then s.gtcRec site.core site.ctx else s) := by
        split
        · exact sameEngines_gtcRec ..
        · exact .rfl'
      generalize (if s.gtcDue site.core site.ctx = true then s.gtcRec site.core site.ctx else s) = u at hu
      refine hu.trans ?_
      dsimp only
      split
      · exact (sameEngines_devAdd ..).trans (.of_cores rfl rfl)
      · split
        · exact (sameEngines_traceWrite ..).trans (sameEngines_noteTrace ..)
        · exact sameEngines_traceWrite ..

/-! ## What a start does to the engine records -/

/-- The engines of a core after an update: as the update says, or none, as before, where there is no such core. -/
theorem State.modEng_eng (s : State) (c : Nat) (f : Engines → Engines) :
    (c < s.cores.length ∧ ((s.modEng c f).core c).eng = f (s.core c).eng) ∨
    ((s.core c).eng = {} ∧ ((s.modEng c f).core c).eng = {}) := by
  by_cases hl : c < s.cores.length
  · exact .inl ⟨hl, by rw [State.modEng, State.core_modCore_same _ _ _ hl]⟩
  · exact .inr ⟨by simp [State.core, hl], by simp [State.core, State.modEng, State.modCore, hl]⟩

theorem State.modEng_eng_of_fix {s : State} {c : Nat} {f : Engines → Engines} (hf : f {} = {}) :
    ((s.modEng c f).core c).eng = f (s.core c).eng := by
  rcases State.modEng_eng s c f with ⟨-, h⟩ | ⟨h, h'⟩
  · exact h
  · rw [h, h', hf]

/-- The engine records with one of them started (R397). -/
def Engines.startRec (g : Engines) (i : Nat) : Engines :=
  { g with recs := g.recs.map fun e => if e.idx == i then { e with step := .running, st := 2 } else e }

theorem Engines.startRec_of_none {g : Engines} {i : Nat} (h : g.recs.find? (fun e => e.idx == i) = none) : g.startRec i = g := by
  have hmap : g.recs.map (fun e => if e.idx == i then { e with step := .running, st := 2 } else e) = g.recs := by
    refine (List.map_congr_left fun e he => ?_).trans (List.map_id _)
    simp [List.find?_eq_none.mp h e he]
  rw [Engines.startRec, hmap]

theorem State.engStart_eng (s : State) (core i : Nat) : ((s.engStart core i).core core).eng = (s.core core).eng.startRec i := by
  unfold State.engStart
  split
  · next h => exact (Engines.startRec_of_none h).symm
  · have hmod : ((s.modEngRec core i fun e => { e with step := .running, st := 2 }).core core).eng = (s.core core).eng.startRec i :=
      State.modEng_eng_of_fix rfl
    dsimp only
    split
    · rw [(State.sameEngines_traceRec ..).1, hmod]
    · exact hmod

theorem State.engStart_gtc (s : State) (core i : Nat) : (s.engStart core i).gtc = s.gtc := by
  unfold State.engStart
  split
  · rfl
  · dsimp only
    split
    · exact (State.sameEngines_traceRec ..).2
    · rfl

theorem State.engStart_foldl (s : State) (core : Nat) (l : List Nat) :
    ((l.foldl (fun s i => s.engStart core i) s).core core).eng = l.foldl Engines.startRec (s.core core).eng ∧
    (l.foldl (fun s i => s.engStart core i) s).gtc = s.gtc := by
  induction l generalizing s with
  | nil => exact ⟨rfl, rfl⟩
  | cons i l ih =>
    obtain ⟨h1, h2⟩ := ih (s.engStart core i)
    exact ⟨by rw [List.foldl_cons, List.foldl_cons, h1, State.engStart_eng], by rw [List.foldl_cons, h2, State.engStart_gtc]⟩

theorem Engines.startRec_foldl (l : List Nat) (g : Engines) :
    l.foldl Engines.startRec g =
      { g with recs := g.recs.map fun e => if l.contains e.idx then { e with step := .running, st := 2 } else e } := by
  induction l generalizing g with
  | nil => simp
  | cons i l ih =>
    rw [List.foldl_cons, ih]
    simp only [Engines.startRec, List.map_map, Engines.mk.injEq, and_true]
    refine List.map_congr_left fun e _ => ?_
    by_cases he : e.idx = i <;> by_cases hl : e.idx ∈ l <;> simp [he, hl]

/-- An engine record as the start of `members` leaves it: running, and of a stream one row. -/
def Eng.started (members : List Nat) (e : Eng) : Eng :=
  let x : Eng := if members.contains e.idx then { e with step := .running, st := 2 } else e
  match x.kind with
  | .mmas _ _ _ => if members.contains x.idx then { x with total := x.row + 1 } else x
  | _ => x

theorem Eng.started_fields (members : List Nat) (e : Eng) :
    (e.started members).idx = e.idx ∧ (e.started members).row = e.row ∧ (e.started members).kind = e.kind := by
  unfold Eng.started
  dsimp only
  split <;> split <;> exact ⟨rfl, rfl, rfl⟩

theorem Eng.started_step {members : List Nat} {e : Eng} (h : e.idx ∈ members) : (e.started members).step = .running := by
  have hc : members.contains e.idx = true := List.contains_iff_mem.mpr h
  unfold Eng.started
  dsimp only
  rw [if_pos hc]
  split
  · dsimp only
    rw [if_pos hc]
  · rfl

/-- A core with a Pan group has engines to update. -/
theorem State.modEng_eng_of_pan {s : State} {c : Nat} {f : Engines → Engines} {q : PanGroup} (h : q ∈ (s.core c).eng.pan) :
    ((s.modEng c f).core c).eng = f (s.core c).eng := by
  rcases State.modEng_eng s c f with ⟨-, h'⟩ | ⟨h', -⟩
  · exact h'
  · rw [h'] at h
    exact absurd h (by simp)

theorem State.sameEngines_traceGroup (s : State) (members : List Nat) (rows core : Nat) :
    State.SameEngines s (s.traceGroup members rows core) := by
  unfold State.traceGroup
  split
  · exact sameEngines_traceRec ..
  · exact .rfl'

theorem State.sameEngines_perfCore (s : State) (c k n : Nat) : State.SameEngines s (s.perfCore c k n) :=
  sameEngines_modCore _ _ _ fun _ => rfl

section Start

variable {s : State} {core : Nat} {p q : PanGroup}

/-- The engines after the members of a group have started and the group has left the Pan. -/
theorem State.startMatrix_group (h : q ∈ (s.core core).eng.pan) :
    ((s.startMatrix core p.members (some p.id)).core core).eng =
      { (s.core core).eng with
        matrix := p.members
        recs := (s.core core).eng.recs.map (Eng.started p.members)
        pan := (s.core core).eng.pan.filter fun q => q.id != p.id } := by
  obtain ⟨hfold, -⟩ := State.engStart_foldl s core p.members
  rw [Engines.startRec_foldl] at hfold
  have hq : q ∈ ((p.members.foldl (fun s i => s.engStart core i) s).core core).eng.pan := by
    rw [hfold]
    exact h
  unfold State.startMatrix
  dsimp only
  rw [(State.sameEngines_traceGroup ..).1, (State.sameEngines_perfCore ..).1, State.modEng_eng_of_pan hq, hfold]
  simp only [List.map_map]
  rfl

theorem State.startMatrix_gtc (s : State) (core : Nat) (members : List Nat) (group : Option Nat) :
    (s.startMatrix core members group).gtc = s.gtc := by
  obtain ⟨-, hgtc⟩ := State.engStart_foldl s core members
  unfold State.startMatrix
  dsimp only
  split
  · exact hgtc
  · rw [(State.sameEngines_traceGroup ..).2]
    exact hgtc

/-- R188, R198: what starts with a group is on the engine, every member running. -/
theorem State.startMatrix_group_runs (h : q ∈ (s.core core).eng.pan) (i : Nat) (hi : i ∈ p.members) (e : Eng)
    (he : s.eng? core i = some e) :
    ∃ x, (s.startMatrix core p.members (some p.id)).eng? core i = some x ∧ x.step = .running ∧ x.row = e.row ∧ x.kind = e.kind := by
  have hidx : e.idx = i := by simpa using List.find?_some he
  obtain ⟨-, hrow, hkind⟩ := Eng.started_fields p.members e
  refine ⟨e.started p.members, ?_, Eng.started_step (hidx ▸ hi), hrow, hkind⟩
  have hcomp : ((fun e : Eng => e.idx == i) ∘ Eng.started p.members) = fun e => e.idx == i := by
    funext x
    simp only [Function.comp, (Eng.started_fields p.members x).1]
  rw [State.eng?, State.startMatrix_group h]
  simp only [List.find?_map, hcomp]
  exact congrArg _ he

end Start

/-! ## The most urgent candidate -/

/-- A candidate stands before another: a lower class, or the same class and an earlier place in the firing order. -/
def Precedes (x y : Nat × Nat × List Nat × Option Nat) : Prop := x.1 < y.1 ∨ (x.1 = y.1 ∧ x.2.1 < y.2.1)

/-- The choice between the best so far and the next candidate. -/
def betterOf (best : Option (Nat × Nat × List Nat × Option Nat)) (x : Nat × Nat × List Nat × Option Nat) :
    Option (Nat × Nat × List Nat × Option Nat) :=
  match best with
  | none => some x
  | some b => if x.1 < b.1 || (x.1 == b.1 && decide (x.2.1 < b.2.1)) then some x else best

theorem bestCandidate_eq (l : List (Nat × Nat × List Nat × Option Nat)) : bestCandidate l = l.foldl betterOf none := rfl

theorem betterOf_of_precedes {x y : Nat × Nat × List Nat × Option Nat} (h : Precedes x y) :
    betterOf (some x) y = some x ∧ betterOf (some y) x = some x := by
  unfold Precedes at h
  constructor
  · exact if_neg (by simp only [Bool.or_eq_true, Bool.and_eq_true, decide_eq_true_eq, beq_iff_eq]; omega)
  · exact if_pos (by simp only [Bool.or_eq_true, Bool.and_eq_true, decide_eq_true_eq, beq_iff_eq]; omega)

theorem betterOf_self (x : Nat × Nat × List Nat × Option Nat) : betterOf (some x) x = some x := by
  simp [betterOf]

theorem betterOf_foldl_keep {x : Nat × Nat × List Nat × Option Nat} {l : List (Nat × Nat × List Nat × Option Nat)}
    (h : ∀ y ∈ l, y = x ∨ Precedes x y) : l.foldl betterOf (some x) = some x := by
  induction l with
  | nil => rfl
  | cons y l ih =>
    rw [List.forall_mem_cons] at h
    rw [List.foldl_cons]
    rcases h.1 with rfl | hp
    · rw [betterOf_self, ih h.2]
    · rw [(betterOf_of_precedes hp).1, ih h.2]

theorem betterOf_foldl {x : Nat × Nat × List Nat × Option Nat} {l : List (Nat × Nat × List Nat × Option Nat)}
    (hx : x ∈ l) (h : ∀ y ∈ l, y = x ∨ Precedes x y) (best : Option (Nat × Nat × List Nat × Option Nat))
    (hb : ∀ b, best = some b → b = x ∨ Precedes x b) : l.foldl betterOf best = some x := by
  induction l generalizing best with
  | nil => simp at hx
  | cons y l ih =>
    rw [List.forall_mem_cons] at h
    rw [List.foldl_cons]
    by_cases hy : y = x
    · subst hy
      have hstep : betterOf best y = some y := by
        cases best with
        | none => rfl
        | some b =>
          rcases hb b rfl with rfl | hp
          · exact betterOf_self _
          · exact (betterOf_of_precedes hp).2
      rw [hstep, betterOf_foldl_keep h.2]
    · refine ih ((List.mem_cons.mp hx).resolve_left (Ne.symm hy)) h.2 _ fun b hbb => ?_
      cases best with
      | none => exact Option.some.inj hbb ▸ h.1
      | some c =>
        unfold betterOf at hbb
        dsimp only at hbb
        split at hbb
        · exact Option.some.inj hbb ▸ h.1
        · exact Option.some.inj hbb ▸ hb c rfl

/-- What stands before every other candidate is chosen. -/
theorem bestCandidate_of_first {x : Nat × Nat × List Nat × Option Nat} {l : List (Nat × Nat × List Nat × Option Nat)}
    (hx : x ∈ l) (h : ∀ y ∈ l, y = x ∨ Precedes x y) : bestCandidate l = some x :=
  betterOf_foldl hx h none (by simp)

/-! ## What may start -/

/-- R188, R190: the place in the firing order of a command that may start alone. -/
def State.orderOf (s : State) (core : Nat) (e : Eng) : Option Nat :=
  match e.kind with
  | .mma _ _ _ _ _ => if (s.core core).eng.slotsReady e.slots then some e.seq else none
  | .mmas _ _ _ => (s.nextRow core e).bind fun r => if (s.core core).eng.slotsReady r.slots then some r.seq else none
  | .adrain _ _ _ _ _ _ => if e.out.isSome then some e.seq else none
  | .aclr => some e.seq
  | _ => none

theorem ite_some_eq_some {c : Prop} [Decidable c] {a n : Nat} : (if c then some a else none) = some n ↔ c ∧ n = a := by
  split <;> simp_all [eq_comm]

/-- A single command that may start at a place in the firing order. -/
def State.singleAt (s : State) (core : Nat) (e : Eng) (n : Nat) : Prop :=
  e ∈ (s.core core).eng.recs ∧ e.step = .queued ∧ e.pan = none ∧ s.engRuns e = true ∧ s.orderOf core e = some n

/-- A Pan group that may start. -/
def State.groupAble (s : State) (core : Nat) (p : PanGroup) : Prop :=
  p ∈ (s.core core).eng.pan ∧ p.closed = true ∧ s.groupReady core p = true

theorem State.mem_matrixCandidates {s : State} {core : Nat} {x : Nat × Nat × List Nat × Option Nat} :
    x ∈ s.matrixCandidates core ↔
      (∃ e n, s.singleAt core e n ∧ x = (s.classOfEng core e, n, [e.idx], none)) ∨
      (∃ p, s.groupAble core p ∧ x = (s.classOfGroup core p, p.arb, p.members, some p.id)) := by
  unfold State.matrixCandidates
  dsimp only
  rw [List.mem_append, List.mem_filterMap, List.mem_filterMap]
  refine or_congr ⟨?_, ?_⟩ ⟨?_, ?_⟩
  · rintro ⟨e, he, hx⟩
    split at hx
    · next hc =>
      obtain ⟨n, hn, rfl⟩ := Option.map_eq_some_iff.mp hx
      simp only [Bool.and_eq_true, beq_iff_eq, Option.isNone_iff_eq_none] at hc
      exact ⟨e, n, ⟨he, hc.1.1, hc.1.2, hc.2, hn⟩, rfl⟩
    · cases hx
  · rintro ⟨e, n, ⟨he, hstep, hpan, hruns, hn⟩, rfl⟩
    refine ⟨e, he, ?_⟩
    rw [if_pos (by simp [hstep, hpan, hruns])]
    exact Option.map_eq_some_iff.mpr ⟨n, hn, rfl⟩
  · rintro ⟨p, hp, hx⟩
    split at hx
    · next hc =>
      rw [Bool.and_eq_true] at hc
      exact ⟨p, ⟨hp, hc.1, hc.2⟩, (Option.some.inj hx).symm⟩
    · cases hx
  · rintro ⟨p, ⟨hp, hclosed, hready⟩, rfl⟩
    exact ⟨p, hp, by rw [if_pos (by simp [hclosed, hready])]⟩

/-- R188: rows are left on the engine. -/
theorem State.matrixBusy_iff {s : State} {core : Nat} :
    s.matrixBusy core = true ↔ ∃ i ∈ (s.core core).eng.matrix, ∃ e, s.eng? core i = some e ∧ e.row < e.total := by
  simp only [State.matrixBusy, List.any_eq_true]
  refine exists_congr fun i => and_congr_right fun _ => ?_
  cases s.eng? core i <;> simp

theorem State.matrixBusy_eq_false_iff {s : State} {core : Nat} :
    s.matrixBusy core = false ↔ ∀ i ∈ (s.core core).eng.matrix, ∀ e, s.eng? core i = some e → e.total ≤ e.row := by
  rw [← Bool.not_eq_true, State.matrixBusy_iff]
  simp only [not_exists, not_and, Nat.not_lt]

/-- R198: every member may start. -/
theorem State.groupReady_iff {s : State} {core : Nat} {p : PanGroup} :
    s.groupReady core p = true ↔ ∀ i ∈ p.members, ∃ e, s.eng? core i = some e ∧
      (s.core core).eng.slotsReady e.slots = true ∧ s.engRuns e = true := by
  simp only [State.groupReady, List.all_eq_true]
  refine forall_congr' fun i => forall_congr' fun _ => ?_
  cases s.eng? core i <;> simp

/-! ## The closing of Pan groups -/

/-- The groups of a number close (R198). -/
def State.closing (s : State) (core id : Nat) : State :=
  s.modEng core fun g => { g with
    pan := g.pan.map fun p => if p.id == id && !p.closed then { p with closed := true, arb := g.seq } else p
    seq := g.seq + 1 }

theorem State.closePan_eq (s : State) (core id : Nat) :
    s.closePan core id = match ((s.closing core id).core core).eng.pan.find? fun p => p.id == id && p.closed with
      | some p => if !(s.closing core id).matrixBusy core && (s.closing core id).groupReady core p then
          (s.closing core id).startMatrix core p.members (some id) else s.closing core id
      | none => s.closing core id := rfl

section Closing

variable {s : State} {core id : Nat} {q : PanGroup}

/-- The Pan after a closing, on any core. -/
theorem State.closing_pan (s : State) (core id : Nat) : ((s.closing core id).core core).eng.pan =
    (s.core core).eng.pan.map fun p => if p.id == id && !p.closed then { p with closed := true, arb := (s.core core).eng.seq } else p := by
  unfold State.closing
  rcases State.modEng_eng s core fun g => { g with
    pan := g.pan.map fun p => if p.id == id && !p.closed then { p with closed := true, arb := g.seq } else p
    seq := g.seq + 1 } with ⟨-, h⟩ | ⟨h, h'⟩
  · rw [h]
  · rw [h, h']
    rfl

theorem State.open_of_closing (h : q ∈ ((s.closing core id).core core).eng.pan) (ho : q.closed = false) :
    q ∈ (s.core core).eng.pan ∧ q.id ≠ id := by
  rw [State.closing_pan, List.mem_map] at h
  obtain ⟨x, hx, rfl⟩ := h
  split at ho
  · cases ho
  · next hc =>
    rw [if_neg hc]
    refine ⟨hx, fun hid => hc ?_⟩
    simp [hid, ho]

/-- R198: the groups that are open after a group has closed were open before, and have another number. -/
theorem State.open_of_closePan (h : q ∈ ((s.closePan core id).core core).eng.pan) (ho : q.closed = false) :
    q ∈ (s.core core).eng.pan ∧ q.id ≠ id := by
  rw [State.closePan_eq] at h
  split at h
  · next p hp =>
    split at h
    · have hid : p.id = id := by
        have := List.find?_some hp
        simp only [Bool.and_eq_true, beq_iff_eq] at this
        exact this.1
      rw [← hid] at h hp ⊢
      rw [State.startMatrix_group (List.mem_of_find?_eq_some hp)] at h
      exact State.open_of_closing (List.mem_filter.1 h).1 ho
    · exact State.open_of_closing h ho
  · exact State.open_of_closing h ho

theorem State.closePan_gtc (s : State) (core id : Nat) : (s.closePan core id).gtc = s.gtc := by
  rw [State.closePan_eq]
  split
  · split
    · exact State.startMatrix_gtc ..
    · rfl
  · rfl

end Closing

theorem State.panRefresh_gtc (s : State) (core : Nat) : (s.panRefresh core).gtc = s.gtc := by
  have hfold : ∀ (l : List PanGroup) (s : State),
      (l.foldl (fun s p => if !p.closed && s.classOfGroup core p == 0 then s.closePan core p.id else s) s).gtc = s.gtc := by
    intro l
    induction l with
    | nil => exact fun _ => rfl
    | cons p l ih =>
      intro s
      rw [List.foldl_cons, ih]
      split
      · exact State.closePan_gtc ..
      · rfl
  exact hfold _ s

/-- R198: what closing the groups of a list that are due leaves open. -/
theorem State.closeDue_foldl (core : Nat) (l : List PanGroup) (s : State) :
    let t := l.foldl (fun s p => if !p.closed && decide (p.first + p.hold ≤ s.gtc) then s.closePan core p.id else s) s
    t.gtc = s.gtc ∧ ∀ q ∈ (t.core core).eng.pan, q.closed = false → q ∈ (s.core core).eng.pan ∧
      ∀ p ∈ l, p.closed = false → p.first + p.hold ≤ s.gtc → q.id ≠ p.id := by
  induction l generalizing s with
  | nil => exact ⟨rfl, fun q hq _ => ⟨hq, by simp⟩⟩
  | cons p l ih =>
    dsimp only [List.foldl_cons]
    by_cases hd : (!p.closed && decide (p.first + p.hold ≤ s.gtc)) = true
    · rw [if_pos hd]
      obtain ⟨hgtc, hopen⟩ := ih (s.closePan core p.id)
      rw [State.closePan_gtc] at hgtc hopen
      refine ⟨hgtc, fun q hq ho => ?_⟩
      obtain ⟨hmem, hl⟩ := hopen q hq ho
      obtain ⟨hmem', hid⟩ := State.open_of_closePan hmem ho
      exact ⟨hmem', List.forall_mem_cons.mpr ⟨fun _ _ => hid, hl⟩⟩
    · rw [if_neg hd]
      obtain ⟨hgtc, hopen⟩ := ih s
      refine ⟨hgtc, fun q hq ho => ?_⟩
      obtain ⟨hmem, hl⟩ := hopen q hq ho
      refine ⟨hmem, List.forall_mem_cons.mpr ⟨fun hc hdue => absurd ?_ hd, hl⟩⟩
      simp [hc, hdue]

/-- R198: no group that is due stays open. -/
theorem State.closeDue_open (s : State) (core : Nat) : (s.closeDue core).gtc = s.gtc ∧
    ∀ q ∈ ((s.closeDue core).core core).eng.pan, q.closed = true ∨ s.gtc < q.first + q.hold := by
  obtain ⟨hgtc, hopen⟩ := State.closeDue_foldl core (s.core core).eng.pan s
  refine ⟨hgtc, fun q hq => ?_⟩
  rcases Bool.eq_false_or_eq_true q.closed with hc | hc
  · exact .inl hc
  · obtain ⟨hmem, hl⟩ := hopen q hq hc
    exact .inr (Nat.lt_of_not_le fun hdue => hl q hmem hc hdue rfl)

/-! ## The closing of groups on a busy engine -/

/-- All but the Pan of one core stays. -/
structure State.PanOnly (core : Nat) (s t : State) : Prop where
  ms : t.ms = s.ms
  ctxs : t.ctxs = s.ctxs
  gtc : t.gtc = s.gtc
  recs : (t.core core).eng.recs = (s.core core).eng.recs
  matrix : (t.core core).eng.matrix = (s.core core).eng.matrix
  desc : (t.core core).desc = (s.core core).desc

namespace State.PanOnly

variable {core : Nat} {s t u : State}

theorem rfl' : State.PanOnly core s s := ⟨rfl, rfl, rfl, rfl, rfl, rfl⟩

theorem trans (h : State.PanOnly core s t) (k : State.PanOnly core t u) : State.PanOnly core s u :=
  ⟨k.ms.trans h.ms, k.ctxs.trans h.ctxs, k.gtc.trans h.gtc, k.recs.trans h.recs, k.matrix.trans h.matrix, k.desc.trans h.desc⟩

theorem eng? (h : State.PanOnly core s t) (i : Nat) : t.eng? core i = s.eng? core i := by
  simp only [State.eng?, h.recs]

theorem matrixBusy (h : State.PanOnly core s t) : t.matrixBusy core = s.matrixBusy core := by
  simp only [State.matrixBusy, h.matrix, h.eng?]

theorem classOfGroup (h : State.PanOnly core s t) (p : PanGroup) : t.classOfGroup core p = s.classOfGroup core p := by
  simp only [State.classOfGroup, h.eng?, State.classOfEng, State.classOf, State.eff, State.ctx?, h.ctxs, Core.descOf, h.desc]

end State.PanOnly

theorem State.panOnly_closing (s : State) (core id : Nat) : State.PanOnly core s (s.closing core id) := by
  have heng := State.modEng_eng s core fun g => { g with
    pan := g.pan.map fun p => if p.id == id && !p.closed then { p with closed := true, arb := g.seq } else p
    seq := g.seq + 1 }
  refine ⟨rfl, rfl, rfl, ?_, ?_, ?_⟩
  · rcases heng with ⟨-, h⟩ | ⟨h, h'⟩
    · rw [State.closing, h]
    · rw [State.closing, h, h']
  · rcases heng with ⟨-, h⟩ | ⟨h, h'⟩
    · rw [State.closing, h]
    · rw [State.closing, h, h']
  · by_cases hl : core < s.cores.length
    · rw [State.closing, State.modEng, State.core_modCore_same _ _ _ hl]
    · simp [State.core, State.closing, State.modEng, State.modCore, hl]

/-- R198: on a busy engine a group that closes does not start. -/
theorem State.closePan_of_busy {s : State} {core : Nat} (h : s.matrixBusy core = true) (id : Nat) :
    s.closePan core id = s.closing core id := by
  rw [State.closePan_eq, (State.panOnly_closing s core id).matrixBusy, h]
  split <;> rfl

/-- The closing of those groups of a list that meet a condition. -/
def State.closeWhere (cond : State → PanGroup → Bool) (core : Nat) (s : State) (l : List PanGroup) : State :=
  l.foldl (fun s p => if cond s p then s.closePan core p.id else s) s

section CloseWhere

variable {cond : State → PanGroup → Bool} {core : Nat} (hcond : ∀ {s t : State}, State.PanOnly core s t → ∀ p, cond t p = cond s p)
include hcond

/-- On a busy engine only the groups that meet the condition close, and all of those do. -/
theorem State.closeWhere_of_busy (l : List PanGroup) {s : State} (hb : s.matrixBusy core = true) :
    let t := s.closeWhere cond core l
    State.PanOnly core s t ∧
    ((t.core core).eng.pan.map fun p => p.id) = ((s.core core).eng.pan.map fun p => p.id) ∧
    ∀ q ∈ (s.core core).eng.pan,
      ((q.closed = true ∨ ∀ x ∈ l, x.id = q.id → cond s x = false) → q ∈ (t.core core).eng.pan) ∧
      (q.closed = false → (∃ x ∈ l, x.id = q.id ∧ cond s x = true) → ∃ n, { q with closed := true, arb := n } ∈ (t.core core).eng.pan) := by
  induction l generalizing s with
  | nil => exact ⟨.rfl', rfl, fun q hq => ⟨fun _ => hq, fun _ ⟨x, hx, _⟩ => absurd hx (by simp)⟩⟩
  | cons x l ih =>
    dsimp only [State.closeWhere, List.foldl_cons]
    by_cases hx : cond s x = true
    · rw [if_pos hx, State.closePan_of_busy hb]
      have hpan := State.panOnly_closing s core x.id
      obtain ⟨honly, hids, hgroups⟩ := ih (s := s.closing core x.id) (hpan.matrixBusy.trans hb)
      have hmap := State.closing_pan s core x.id
      refine ⟨hpan.trans honly, hids.trans ?_, fun q hq => ⟨fun hkeep => ?_, fun ho hsome => ?_⟩⟩
      · rw [hmap, List.map_map]
        refine List.map_congr_left fun p _ => ?_
        simp only [Function.comp]
        split <;> rfl
      · have hq' : q ∈ ((s.closing core x.id).core core).eng.pan := by
          rw [hmap, List.mem_map]
          refine ⟨q, hq, if_neg fun hc => ?_⟩
          simp only [Bool.and_eq_true, beq_iff_eq, Bool.not_eq_true'] at hc
          rcases hkeep with hc' | hno
          · simp [hc'] at hc
          · simp [hno x (by simp) hc.1.symm] at hx
        refine (hgroups q hq').1 (hkeep.imp_right fun hno y hy hid => ?_)
        rw [hcond hpan]
        exact hno y (by simp [hy]) hid
      · by_cases hid : x.id = q.id
        · have hq' : ({ q with closed := true, arb := (s.core core).eng.seq } : PanGroup) ∈ ((s.closing core x.id).core core).eng.pan := by
            rw [hmap, List.mem_map]
            exact ⟨q, hq, by simp [hid, ho]⟩
          exact ⟨_, (hgroups _ hq').1 (.inl rfl)⟩
        · have hq' : q ∈ ((s.closing core x.id).core core).eng.pan := by
            rw [hmap, List.mem_map]
            exact ⟨q, hq, by simp [Ne.symm hid]⟩
          obtain ⟨y, hy, hyid, hyc⟩ := hsome
          refine (hgroups q hq').2 ho ⟨y, (List.mem_cons.mp hy).resolve_left (fun h => hid (h ▸ hyid)), hyid, ?_⟩
          rw [hcond hpan, hyc]
    · rw [if_neg hx]
      obtain ⟨honly, hids, hgroups⟩ := ih (s := s) hb
      refine ⟨honly, hids, fun q hq => ⟨fun hkeep => (hgroups q hq).1 (hkeep.imp_right fun hno y hy => hno y (by simp [hy])), ?_⟩⟩
      rintro ho ⟨y, hy, hyid, hyc⟩
      refine (hgroups q hq).2 ho ⟨y, (List.mem_cons.mp hy).resolve_left ?_, hyid, hyc⟩
      rintro rfl
      exact hx hyc

end CloseWhere

theorem State.panRefresh_eq (s : State) (core : Nat) : s.panRefresh core =
    s.closeWhere (fun s p => !p.closed && s.classOfGroup core p == 0) core (s.core core).eng.pan := rfl

theorem State.closeDue_eq (s : State) (core : Nat) : s.closeDue core =
    s.closeWhere (fun s p => !p.closed && decide (p.first + p.hold ≤ s.gtc)) core (s.core core).eng.pan := rfl

/-! ## The two events -/

/-- An update of a core's engines matters only for the engines that are there. -/
theorem State.modEng_congr {s : State} {core : Nat} {f g : Engines → Engines} (h : f (s.core core).eng = g (s.core core).eng) :
    s.modEng core f = s.modEng core g := by
  have hcores : (s.cores.modify core fun k => { k with eng := f k.eng }) = s.cores.modify core fun k => { k with eng := g k.eng } := by
    refine List.ext_getElem? fun i => ?_
    rw [List.getElem?_modify, List.getElem?_modify]
    split
    · next hi =>
      subst hi
      cases hk : s.cores[core]? with
      | none => rfl
      | some k =>
        have hcore : s.core core = k := by simp [State.core, List.getD_eq_getElem?_getD, hk]
        rw [hcore] at h
        simp [h]
    · rfl
  simp only [State.modEng, State.modCore, hcores]

/-- R188, R198: nothing starts while rows are left to issue. -/
theorem exec_engineArbitration_of_busy {s : State} {core : Nat}
    (h : (((s.regainSlots core).panRefresh core).promote core).matrixBusy core = true) :
    exec (.engineArbitration core) s = .next (((s.regainSlots core).panRefresh core).promote core) := by
  change execEngineArbitration core s = _
  rw [execEngineArbitration, if_pos h]

theorem exec_engineArbitration_of_none {s : State} {core : Nat}
    (h : (((s.regainSlots core).panRefresh core).promote core).matrixBusy core = false)
    (hb : bestCandidate ((((s.regainSlots core).panRefresh core).promote core).matrixCandidates core) = none) :
    exec (.engineArbitration core) s = .next (((s.regainSlots core).panRefresh core).promote core) := by
  change execEngineArbitration core s = _
  rw [execEngineArbitration, if_neg (by simp [h]), hb]

theorem exec_engineArbitration_of_first {s : State} {core : Nat}
    (h : (((s.regainSlots core).panRefresh core).promote core).matrixBusy core = false) {c n : Nat} {members : List Nat} {group : Option Nat}
    (hb : bestCandidate ((((s.regainSlots core).panRefresh core).promote core).matrixCandidates core) = some (c, n, members, group)) :
    exec (.engineArbitration core) s = .next ((((s.regainSlots core).panRefresh core).promote core).startMatrix core members group) := by
  change execEngineArbitration core s = _
  rw [execEngineArbitration, if_neg (by simp [h]), hb]

/-- R188: what starts with a single command. -/
theorem State.startMatrix_single (s : State) (core i : Nat) :
    s.startMatrix core [i] none = (s.engStart core i).modEng core fun g =>
      { g with matrix := [i]
               recs := g.recs.map fun x => match x.kind with
                 | .mmas _ _ _ => if x.idx = i then { x with total := x.row + 1 } else x
                 | _ => x } := by
  unfold State.startMatrix
  simp only [List.foldl_cons, List.foldl_nil]
  refine State.modEng_congr ?_
  simp only [Engines.mk.injEq, and_true]
  refine List.map_congr_left fun x _ => ?_
  cases x.kind <;> simp

/-- R188, R198: what the engine holds when a group has started. -/
def State.GroupRuns (u : State) (core : Nat) (p : PanGroup) (t : State) : Prop :=
  (t.core core).eng.matrix = p.members ∧ (t.core core).eng.pan = ((u.core core).eng.pan.filter fun q => q.id != p.id) ∧
  ∀ i ∈ p.members, ∀ e, u.eng? core i = some e → ∃ x, t.eng? core i = some x ∧ x.step = .running ∧ x.row = e.row ∧ x.kind = e.kind

theorem State.groupRuns_startMatrix {u : State} {core : Nat} {p q : PanGroup} (h : q ∈ (u.core core).eng.pan) :
    u.GroupRuns core p (u.startMatrix core p.members (some p.id)) :=
  ⟨by rw [State.startMatrix_group h], by rw [State.startMatrix_group h], State.startMatrix_group_runs h⟩

/-- R198: PAN_DEADLINE with one group that is open and due, or urgent, closes it. -/
theorem exec_panDeadline_of_one {s : State} {core : Nat} {p : PanGroup} (hpan : (s.core core).eng.pan = [p]) (ho : p.closed = false)
    (hdue : p.first + p.hold ≤ s.gtc ∨ s.classOfGroup core p = 0) :
    let c := s.modEng core fun g => { g with pan := [{ p with closed := true, arb := g.seq }], seq := g.seq + 1 }
    exec (.panDeadline core) s =
      .next (if !s.matrixBusy core && s.groupReady core p then c.startMatrix core p.members (some p.id) else c) := by
  intro c
  have hp : p ∈ (s.core core).eng.pan := by simp [hpan]
  have hclosing : s.closing core p.id = c := State.modEng_congr (by simp [hpan, ho])
  have hceng : (c.core core).eng = { (s.core core).eng with
      pan := [{ p with closed := true, arb := (s.core core).eng.seq }], seq := (s.core core).eng.seq + 1 } :=
    State.modEng_eng_of_pan hp
  have hbusy : c.matrixBusy core = s.matrixBusy core := hclosing ▸ (State.panOnly_closing s core p.id).matrixBusy
  have hready (n : Nat) : c.groupReady core { p with closed := true, arb := n } = s.groupReady core p := by
    simp only [State.groupReady, State.eng?, hceng]
    rfl
  have hclose : s.closePan core p.id =
      if !s.matrixBusy core && s.groupReady core p then c.startMatrix core p.members (some p.id) else c := by
    rw [State.closePan_eq, hclosing, hceng]
    simp [hready, hbusy]
  have hdone : ∀ (f : State → PanGroup → State), (∀ u q, q.closed = true → f u q = u) →
      ((s.closePan core p.id).core core).eng.pan.foldl f (s.closePan core p.id) = s.closePan core p.id := by
    intro f hf
    rw [hclose]
    split
    · rw [State.startMatrix_group (q := { p with closed := true, arb := (s.core core).eng.seq }) (by simp [hceng]), hceng]
      simp
    · rw [hceng, List.foldl_cons, hf _ _ rfl, List.foldl_nil]
  change Host.Outcome.next ((s.panRefresh core).closeDue core) = _
  rw [← hclose]
  congr 1
  by_cases hcls : s.classOfGroup core p = 0
  · have hrefresh : s.panRefresh core = s.closePan core p.id := by
      rw [State.panRefresh, hpan, List.foldl_cons, List.foldl_nil, if_pos (by simp [ho, hcls])]
    rw [hrefresh]
    exact hdone _ fun u q hq => if_neg (by simp [hq])
  · have hrefresh : s.panRefresh core = s := by
      rw [State.panRefresh, hpan, List.foldl_cons, List.foldl_nil, if_neg (by simp [hcls])]
    rw [hrefresh, State.closeDue, hpan, List.foldl_cons, List.foldl_nil,
      if_pos (by simp [ho, hdue.resolve_right hcls])]

/-- Members whose images are listed once each are told apart by their images. -/
theorem inj_of_nodup_map {α β : Type} {f : α → β} {l : List α} (h : (l.map f).Nodup) :
    ∀ ⦃x⦄, x ∈ l → ∀ ⦃y⦄, y ∈ l → f x = f y → x = y := by
  induction l with
  | nil => exact fun _ hx => absurd hx List.not_mem_nil
  | cons z l ih =>
    intro x hx y hy e
    obtain ⟨hz, hl⟩ := List.nodup_cons.1 h
    rcases List.mem_cons.1 hx with rfl | hx'
    · rcases List.mem_cons.1 hy with rfl | hy'
      · rfl
      · exact absurd (List.mem_map.2 ⟨y, hy', e.symm⟩) hz
    · rcases List.mem_cons.1 hy with rfl | hy'
      · exact absurd (List.mem_map.2 ⟨x, hx', e⟩) hz
      · exact ih hl hx' hy' e

/-- R198, R401: PAN_DEADLINE on a busy engine. -/
theorem panDeadline_of_busy {s : State} {core : Nat} (hb : s.matrixBusy core = true) :
    let t := (s.panRefresh core).closeDue core
    t.ms = s.ms ∧ t.ctxs = s.ctxs ∧
    (((s.core core).eng.pan.map fun p => p.id).Nodup → ∀ p ∈ (s.core core).eng.pan,
      (p.closed = false → (p.first + p.hold ≤ s.gtc ∨ s.classOfGroup core p = 0) →
        ∃ n, { p with closed := true, arb := n } ∈ (t.core core).eng.pan) ∧
      (p.closed = true ∨ (s.gtc < p.first + p.hold ∧ s.classOfGroup core p ≠ 0) → p ∈ (t.core core).eng.pan)) := by
  have hcls {s t : State} (h : State.PanOnly core s t) (p : PanGroup) :
      (!p.closed && t.classOfGroup core p == 0) = (!p.closed && s.classOfGroup core p == 0) := by rw [h.classOfGroup]
  have hgtc {s t : State} (h : State.PanOnly core s t) (p : PanGroup) :
      (!p.closed && decide (p.first + p.hold ≤ t.gtc)) = (!p.closed && decide (p.first + p.hold ≤ s.gtc)) := by rw [h.gtc]
  obtain ⟨honly, hids, hfirst⟩ := State.closeWhere_of_busy hcls (s.core core).eng.pan hb
  rw [← State.panRefresh_eq] at honly hids hfirst
  generalize s.panRefresh core = u at honly hids hfirst
  obtain ⟨honly', -, hsecond⟩ := State.closeWhere_of_busy hgtc (u.core core).eng.pan (honly.matrixBusy.trans hb)
  rw [← State.closeDue_eq, honly.gtc] at hsecond
  rw [← State.closeDue_eq] at honly'
  refine ⟨honly'.ms.trans honly.ms, honly'.ctxs.trans honly.ctxs, fun hnodup p hp => ?_⟩
  have hinj := inj_of_nodup_map hnodup
  have hinj' := inj_of_nodup_map (hids ▸ hnodup)
  obtain ⟨hstay, hclose⟩ := hfirst p hp
  by_cases hcp : p.closed = false ∧ s.classOfGroup core p = 0
  · refine ⟨fun _ _ => ?_, fun h => ?_⟩
    · obtain ⟨n, hn⟩ := hclose hcp.1 ⟨p, hp, rfl, by simp [hcp]⟩
      exact ⟨n, (hsecond _ hn).1 (.inl rfl)⟩
    · simp [hcp] at h
  · have hu : p ∈ (u.core core).eng.pan := by
      refine hstay (.inr fun x hx hid => ?_)
      rw [hinj hx hp hid]
      simpa using hcp
    obtain ⟨hstay', hclose'⟩ := hsecond p hu
    refine ⟨fun ho hd => hclose' ho ⟨p, hu, rfl, ?_⟩, fun h => hstay' ?_⟩
    · simp [ho, hd.resolve_right fun h0 => hcp ⟨ho, h0⟩]
    · refine h.imp_right fun hlt x hx hid => ?_
      rw [hinj' hx hu hid]
      simp [hlt.1]

end Sys2Proof.Machine

namespace Sys2Proof.Claims
open Sys2Proof.Machine

/-- Settles O19: the candidates are the single commands and groups that may start, and the first of them is chosen; PAN_DEADLINE
closes group by group, and on a busy engine that starts nothing. -/
theorem engineArbitrationAndPan : Obligations.EngineArbitrationAndPan := by
  unfold Obligations.EngineArbitrationAndPan
  intro idle busy able starts
  have hready_iff {u : State} {core : Nat} {p : PanGroup} : u.groupReady core p = true ↔ able u core p := State.groupReady_iff
  have hstarts {u t : State} {core : Nat} {p : PanGroup} (h : u.GroupRuns core p t) : starts u core p (.next t) := ⟨t, rfl, h⟩
  refine ⟨fun s core => ?_, fun s core => ⟨?_, fun hb => ?_, fun p hpan ho hdue => ?_⟩⟩
  · intro u g ready single group before cls gcls
    have hsingle {e : Eng} {n : Nat} : u.singleAt core e n ↔ single e n := by
      have hready : u.orderOf core e = some n ↔ ready e n := by
        simp only [ready, State.orderOf]
        cases e.kind with
        | mma => exact ite_some_eq_some
        | mmas => exact Option.bind_eq_some_iff.trans (exists_congr fun r => and_congr_right fun _ => ite_some_eq_some)
        | adrain => exact ite_some_eq_some
        | aclr => exact Option.some_inj.trans eq_comm
        | _ => exact iff_of_false (by simp) id
      simp only [State.singleAt, single, hready]
      rfl
    have hgroup {p : PanGroup} : u.groupAble core p ↔ group p := and_congr_right fun _ => and_congr_right fun _ => hready_iff
    refine ⟨fun hb => exec_engineArbitration_of_busy (State.matrixBusy_iff.mpr hb), fun hidle => ?_⟩
    have hfree : u.matrixBusy core = false := State.matrixBusy_eq_false_iff.mpr hidle
    refine ⟨fun hnone hnone' => ?_, fun e n he hfirst hgroups => ?_, fun p hp hfirst hsingles => ?_⟩
    · have hempty : u.matrixCandidates core = [] := by
        refine List.eq_nil_iff_forall_not_mem.mpr fun x hx => ?_
        rcases State.mem_matrixCandidates.mp hx with ⟨e, n, h, -⟩ | ⟨p, h, -⟩
        · exact hnone e n (hsingle.mp h)
        · exact hnone' p (hgroup.mp h)
      exact exec_engineArbitration_of_none hfree (by rw [hempty]; rfl)
    · refine (exec_engineArbitration_of_first hfree (c := cls e) (n := n) (members := [e.idx]) (group := none) ?_).trans ?_
      · refine bestCandidate_of_first (State.mem_matrixCandidates.mpr (.inl ⟨e, n, hsingle.mpr he, rfl⟩)) fun y hy => ?_
        rcases State.mem_matrixCandidates.mp hy with ⟨d, m, hd, rfl⟩ | ⟨q, hq, rfl⟩
        · rcases hfirst d m (hsingle.mp hd) with rfl | hlt
          · obtain ⟨-, -, -, -, hn⟩ := hsingle.mpr he
            obtain ⟨-, -, -, -, hm⟩ := hd
            obtain rfl := Option.some.inj (hn.symm.trans hm)
            exact .inl rfl
          · exact .inr hlt
        · exact .inr (hgroups q (hgroup.mp hq))
      · exact congrArg Host.Outcome.next (State.startMatrix_single ..)
    · have hbest : bestCandidate (u.matrixCandidates core) = some (gcls p, p.arb, p.members, some p.id) := by
        refine bestCandidate_of_first (State.mem_matrixCandidates.mpr (.inr ⟨p, hgroup.mpr hp, rfl⟩)) fun y hy => ?_
        rcases State.mem_matrixCandidates.mp hy with ⟨d, m, hd, rfl⟩ | ⟨q, hq, rfl⟩
        · exact .inr (hsingles d m (hsingle.mp hd))
        · rcases hfirst q (hgroup.mp hq) with rfl | hlt
          · exact .inl rfl
          · exact .inr hlt
      rw [exec_engineArbitration_of_first hfree hbest]
      exact hstarts (State.groupRuns_startMatrix hp.1)
  · obtain ⟨hgtc, hopen⟩ := State.closeDue_open (s.panRefresh core) core
    refine ⟨_, rfl, hgtc.trans (State.panRefresh_gtc s core), fun _ p hp => ?_⟩
    rw [hgtc]
    exact hopen p hp
  · obtain ⟨hms, hctxs, hgroups⟩ := panDeadline_of_busy (State.matrixBusy_iff.mpr hb)
    exact ⟨_, rfl, hms, hctxs, fun _ => hgroups⟩
  · intro c
    have hexec := exec_panDeadline_of_one hpan ho hdue
    refine ⟨fun hidle hable => ?_, fun h => ?_⟩
    · rw [hexec, State.matrixBusy_eq_false_iff.mpr hidle, hready_iff.mpr hable]
      have hc : ({ p with closed := true, arb := (s.core core).eng.seq } : PanGroup) ∈ (c.core core).eng.pan := by
        rw [State.modEng_eng_of_pan (q := p) (by simp [hpan])]
        simp
      exact hstarts (State.groupRuns_startMatrix hc)
    · have hno : (!s.matrixBusy core && s.groupReady core p) = false := by
        rcases h with hb | hna
        · simp [State.matrixBusy_iff.mpr hb]
        · simp [Bool.eq_false_iff.mpr fun hr => hna (hready_iff.mp hr)]
      rw [hexec, hno]
      rfl

end Sys2Proof.Claims
end


section
/-! PROOFS. Graph instructions: what each emits on clean operands (R100 to R116). -/

namespace Sys2Proof.Machine

open Sys2Proof.Claims

section Moves

variable {s : State} {p : Par} {ops : List Tok}

/-- R100: a clean firing moves an operand to every destination. -/
theorem State.moves_of_clean (h : clean ops) (t : Tok) :
    s.moves p ops t = .next (s.finish p latGraph (spread p (carryTok s.cur.site t)) ops) :=
  State.firing_clean (badInput_of_clean h)

/-- A clean firing tells a scalar to every destination. -/
theorem State.tells_of_clean (h : clean ops) (v : Word) :
    s.tells p ops v = .next (s.finish p latGraph (spread p (scalarTok s.cur.site v)) ops) :=
  State.firing_clean (badInput_of_clean h)

end Moves

/-! ## Constants (R101) -/

theorem constWord_hi (t : Ty) (imm : BitVec 32) : constWord t true imm = imm.setWidth 64 <<< 32 := by
  have hlt := imm.isLt
  have hval : constWord t true imm = BitVec.ofNat 64 (imm.toNat * 2 ^ 32) := by simp [constWord, constValue]
  rw [hval]
  refine BitVec.eq_of_toNat_eq ?_
  simp only [BitVec.toNat_ofNat, BitVec.toNat_shiftLeft, BitVec.toNat_setWidth, Nat.shiftLeft_eq]
  omega

theorem constWord_integer {t : Ty} (ht : isInteger t) (hs : t ≠ .s64) (imm : BitVec 32) :
    constWord t false imm = fit t (imm.setWidth 64) := by
  have hlt := imm.isLt
  have hint : tyIsInt t = true := by
    simp only [isInteger, List.mem_cons, List.not_mem_nil, or_false] at ht
    rcases ht with rfl | rfl | rfl | rfl | rfl | rfl | rfl | rfl <;> rfl
  rw [fit_eq_extendTy (mem_tyIntOrNone (.inl ht)), BitVec.toNat_setWidth, Nat.mod_eq_of_lt (by omega)]
  simp [constWord, constValue, hs, hint]

/-- A float constant is the low bits of IMM at the width of TY. -/
theorem constWord_of_not_integer {t : Ty} (ht : tyIsInt t = false) (imm : BitVec 32) :
    constWord t false imm = (imm.setWidth (tyBits t)).setWidth 64 := by
  have hs : t ≠ .s64 := by rintro rfl; cases ht
  have hval : constWord t false imm = BitVec.ofNat 64 (imm.toNat % 2 ^ tyBits t) := by simp [constWord, constValue, hs, ht]
  rw [hval]
  refine BitVec.eq_of_toNat_eq ?_
  simp only [BitVec.toNat_ofNat, BitVec.toNat_setWidth]

/-! ## SEND, FNEW and ITER -/

section Sends

variable {s : State} {p : Par} {r : Tok} {ops used : List Tok}

/-- R108: SEND to a target word without a bit above the in-port and below the core. -/
theorem State.sendTo_of_read (cid : BitVec 8) (hr : isRead r = true) (hz : bf r.val.toNat 6 38 = 0) :
    s.sendTo p cid r ops =
      (s.toInport s.cur.site 0 (carryTok s.cur.site s.cur.l) (r.val.toNat / 2 ^ 52) (r.val.toNat / 2 ^ 44 % 256) (r.val.toNat % 64)
        cid.toNat 0 0).finish p latGraph [(p.d0, scalarTok s.cur.site 0)] [] := by
  have hpkg : bf r.val.toNat 52 12 = r.val.toNat / 2 ^ 52 := Nat.mod_eq_of_lt (by have := r.val.isLt; omega)
  have hport : bf r.val.toNat 0 6 = r.val.toNat % 64 := by simp [bf]
  simp only [State.sendTo, hr, hz, hpkg, hport]
  rfl

/-- R107: CNTN and SENDF to a continuation. -/
theorem State.cntnTo_of_cont {node port : Nat} (h : s.cur.r.kind = kCont) :
    s.cntnTo p node port = (s.toCont s.cur.site s.cur.r.val node port (carryTok s.cur.site s.cur.l)).finish p latGraph
      [(p.d0, scalarTok s.cur.site 0)] [] := by
  simp [State.cntnTo, h]

theorem State.cntnTo_of_other {node port : Nat} (h : s.cur.r.kind ≠ kCont) :
    s.cntnTo p node port = s.failing p latGraph stFormat [s.cur.l, s.cur.r] := by
  simp [State.cntnTo, h]

variable {core : Nat} {node : BitVec 7} {port : Port} {block : BitVec 6}

/-- R104: what a new frame's request holds. -/
def State.newRequest (s : State) (p : Par) (node : BitVec 7) (port : Port) (block : BitVec 6) : FrameReq :=
  { site := s.cur.site, d0 := p.d0, d1 := p.d1, d2 := p.d2, why := .fnew, ctx := s.cur.site.ctx, cslot := s.cur.site.cslot,
    block := block.toNat, inst := s.curFrame.inst, give := [(node.toNat, portCode port, carryTok s.cur.site s.cur.l)],
    node := node.toNat, port := portCode port }

theorem State.fnewOn_of_holds (h : s.holdsFor s.cur.site core block.toNat = true) :
    s.fnewOn p core node port block used =
      (s.modFrm core fun u => { u with fifo := u.fifo ++ [s.newRequest p node port block] }).finish p latGraph [] used := by
  simp only [State.fnewOn, h, Bool.not_true, Bool.false_eq_true, if_false]
  rfl

theorem State.fnewOn_of_not_holds (h : s.holdsFor s.cur.site core block.toNat = false) :
    s.fnewOn p core node port block used = s.failing p latGraph stRoute (s.cur.l :: used) := by
  simp [State.fnewOn, h]

theorem State.fnewNamedOn_of_read (hr : isRead r = true) :
    s.fnewNamedOn p node port block r used = s.fnewOn p (r.val.toNat % 256) node port block used := by
  simp [State.fnewNamedOn, hr]

end Sends

/-! ## Frames -/

/-- An update of a frame that keeps its number is read back. -/
theorem State.frame?_modFrame (s : State) (core n : Nat) (f : Frame → Frame) (hf : ∀ x, (f x).num = x.num) :
    (s.modFrame core n f).frame? core n = (s.frame? core n).map f := by
  have hfind : ∀ l : List Frame, (l.map fun x => if x.num == n then f x else x).find? (fun x => x.num == n) =
      (l.find? fun x => x.num == n).map f := by
    intro l
    have hnum : ((fun x : Frame => x.num == n) ∘ fun x => if x.num == n then f x else x) = fun x => x.num == n := by
      funext x
      simp only [Function.comp]
      split <;> simp [hf]
    rw [List.find?_map, hnum]
    cases hx : l.find? fun x => x.num == n with
    | none => rfl
    | some x => simp [show x.num = n by simpa using List.find?_some hx]
  by_cases hl : core < s.cores.length
  · simp only [State.modFrame, State.frame?, State.modFrm, State.core_modCore_same _ _ _ hl]
    exact hfind _
  · simp [State.modFrame, State.frame?, State.modFrm, State.modCore, State.core, hl, FrameUnit.find?]

section Exit

variable {s : State} {core n : Nat} {f : Frame}

/-- R111: an exit counts down. -/
def Frame.exited (f : Frame) : Frame := { f with exits := f.exits - 1 }

theorem State.countExit_of_none (h : s.frame? core n = none) : s.countExit core n = s.modFrame core n Frame.exited := by
  have hu : (s.modFrame core n Frame.exited).frame? core n = none := by
    rw [State.frame?_modFrame s core n Frame.exited fun _ => rfl, h]
    rfl
  change (match (s.modFrame core n Frame.exited).frame? core n with
    | some f => if f.exits == 0 then (s.modFrame core n Frame.exited).completeFrame core n else s.modFrame core n Frame.exited
    | none => s.modFrame core n Frame.exited) = _
  rw [hu]

theorem State.countExit_of_some (h : s.frame? core n = some f) :
    s.countExit core n = if f.exits ≤ 1 then (s.modFrame core n Frame.exited).completeFrame core n else s.modFrame core n Frame.exited := by
  have hu : (s.modFrame core n Frame.exited).frame? core n = some f.exited := by
    rw [State.frame?_modFrame s core n Frame.exited fun _ => rfl, h]
    rfl
  change (match (s.modFrame core n Frame.exited).frame? core n with
    | some f => if f.exits == 0 then (s.modFrame core n Frame.exited).completeFrame core n else s.modFrame core n Frame.exited
    | none => s.modFrame core n Frame.exited) = _
  rw [hu]
  have hexits : (f.exited.exits == 0) = decide (f.exits ≤ 1) := by
    refine Bool.eq_iff_iff.mpr ?_
    simp only [beq_iff_eq, decide_eq_true_eq, Frame.exited]
    omega
  simp [hexits]

end Exit

/-- R112, R408: FGET emits its slot, or poison for one in error. -/
theorem execFget_of_clean {s : State} {p : Par} (h : clean [s.cur.l]) (var : BitVec 8) :
    execFget p var s = .next (
      let site := s.cur.site
      let x := s.curFrame.slot var.toNat
      let u := if x.ce then s.countCe (dieOf site.core) else s
      if x.ue then (u.countUe (dieOf site.core)).finish p latGraph
        (spread p (carryTok site (poisonTok u { core := site.core } stDataUe))) [s.cur.l]
      else u.finish p latGraph (spread p (carryTok site x.tok)) [s.cur.l]) := by
  rw [execFget, State.firing_clean (badInput_of_clean h)]
  dsimp only
  cases (s.curFrame.slot var.toNat).ce <;> rfl

end Sys2Proof.Machine

namespace Sys2Proof.Claims
open Sys2Proof.Machine

/-- Settles O1: a clean firing moves an operand, or tells the word that its own definition names. -/
theorem operandsAndConstantsAreEmitted : Obligations.OperandsAndConstantsAreEmitted := by
  unfold Obligations.OperandsAndConstantsAreEmitted
  refine ⟨fun s p imm selp => ?_, fun s p imm hl => ?_⟩
  · intro i out pick
    have hi : immTok p.ty imm = i := immTok_eq p.ty imm
    have hpick (l r c : Tok) : selected selp l r c = pick l r c := by cases selp <;> rfl
    have hpick' (h : selp ≠ .c) (l r c c' : Tok) : selected selp l r c = pick l r c' := by cases selp <;> trivial
    have hmoves {ops : List Tok} (h : clean ops) (t : Tok) : s.moves p ops t = .next (s.finish p 2 (out t) ops) :=
      State.moves_of_clean h t
    refine ⟨fun h => ⟨hmoves h _, hmoves h _, fun hc => ?_⟩, fun h => ⟨hmoves h _, fun hc => ?_, ?_⟩, fun h => ?_⟩
    · change s.moves p [s.cur.l] (selected selp s.cur.l (immTok p.ty imm) s.cur.c) = _
      rw [hmoves h, hi, hpick' hc]
    · change s.moves p [s.cur.l, s.cur.r] (selected selp s.cur.l s.cur.r s.cur.c) = _
      rw [hmoves h, hpick' hc]
    · change s.moves p [s.cur.l, s.cur.r] (selected selp s.cur.l s.cur.r (immTok p.ty imm)) = _
      rw [hmoves h, hi, hpick]
    · change s.moves p [s.cur.l, s.cur.r, s.cur.c] (selected selp s.cur.l s.cur.r s.cur.c) = _
      rw [hmoves h, hpick]
  · intro site out
    have htell (v : Word) : s.tells p [s.cur.l] v = out v := State.tells_of_clean hl v
    have hself (what : SelfWhat) : exec (.self p what) s = out (BitVec.ofNat 64 (selfValue s site what)) := htell _
    have hbad := badInput_of_clean hl
    refine ⟨?hi, fun hint hs => ?int, fun ht => ?s64, fun ht => ?w64, fun ht => ?w16, fun ht => ?w8, fun ht => ?w4,
      hself .frame, hself .core, hself .pkg, hself .ctx, hself .blk, fun f id hf hid => ?iter, fun k hk => ?cid,
      fun c f lvl hc hf hlen => ?level, ?time, fun idx => ?getc, fun ctr => ?perf⟩
    case hi => exact (htell _).trans (by rw [constWord_hi])
    case int => exact (htell _).trans (by rw [constWord_integer hint hs])
    case s64 => exact (htell _).trans (by rw [ht]; rfl)
    case w64 =>
      refine (htell _).trans (congrArg out ?_)
      rcases ht with ht | ht <;> rw [ht, constWord_of_not_integer rfl] <;> simp [tyBits]
    case w16 =>
      refine (htell _).trans (congrArg out ?_)
      rcases ht with ht | ht <;> rw [ht, constWord_of_not_integer rfl] <;> rfl
    case w8 =>
      refine (htell _).trans (congrArg out ?_)
      rcases ht with ht | ht <;> rw [ht, constWord_of_not_integer rfl] <;> rfl
    case w4 =>
      refine (htell _).trans (congrArg out ?_)
      rw [ht, constWord_of_not_integer rfl]
      rfl
    case iter =>
      rw [hself]
      simp only [selfValue, hf, hid, site]
      rfl
    case cid =>
      rw [hself]
      simp only [selfValue, hk, site]
      rfl
    case time =>
      change execTime p s = _
      rw [execTime, State.firing_clean hbad]
    case getc =>
      change execGetc p idx s = _
      rw [execGetc, State.firing_clean hbad]
    case perf =>
      change execPerf p ctr s = _
      rw [execPerf, State.firing_clean hbad]
    case level =>
      constructor
      · refine (htell _).trans (congrArg (fun n => out (BitVec.ofNat 64 n)) ?_)
        simp only [levelValue, hc, hf, site]
        rcases Nat.lt_or_ge lvl.toNat c.levels.length with hlt | hge
        · simp [hlt]
        · simp [Nat.not_lt.mpr hge, List.getElem?_eq_none (hlen ▸ hge)]
      · refine (htell _).trans (congrArg (fun n => out (BitVec.ofNat 64 n)) ?_)
        simp [levelValue, hc, site, List.getD_eq_getElem?_getD]

/-- Settles O5: each is one firing, whose operands are clean or, of ISEOS, any. -/
theorem streamsAndPhases : Obligations.StreamsAndPhases := by
  unfold Obligations.StreamsAndPhases
  intro s p cid ph imm site sent
  refine ⟨?iseos, fun h => ⟨?mkeos, ?phopen, fun g hg => ?phclose⟩, fun h hr hz => ?send, fun h hz => ?sendImm⟩
  case iseos =>
    change execIseos p s = _
    simp [execIseos, site]
  case mkeos =>
    change execMkeos p s = _
    rw [execMkeos, State.firing_clean (badInput_of_clean h)]
  case phopen =>
    change execPhopen p ph s = _
    rw [execPhopen, State.firing_clean (badInput_of_clean h)]
    rfl
  case phclose =>
    change execPhclose p ph s = _
    rw [execPhclose, State.firing_clean (badInput_of_clean h)]
    simp only [hg, site]
    rfl
  case send =>
    change execSend p cid s = _
    rw [execSend, State.firing_clean (badInput_of_clean h), State.sendTo_of_read cid ((isRead_iff_reads _).mpr hr) hz]
  case sendImm =>
    change execSendImm p cid imm s = _
    rw [execSendImm, State.firing_clean (badInput_of_clean h), State.sendTo_of_read cid (isRead_immTok _ _)
      (by rw [immTok_val]; exact hz), immTok_val]

/-- Settles O3: each instruction is one firing; FNEW and ITER differ by the core, the loop and the operands carried. -/
theorem framesLoopsAndContinuations : Obligations.FramesLoopsAndContinuations := by
  unfold Obligations.FramesLoopsAndContinuations
  refine ⟨fun s p node port => ?conts, fun s p node port block imm => ?fnews, fun s p node port block imm => ?iters⟩
  case conts =>
    intro site ops sent
    refine ⟨fun h => ?_, fun h hk => ⟨?_, ?_⟩, fun h hk => ⟨?_, ?_⟩⟩
    · change execMkcont p node port s = _
      rw [execMkcont, State.firing_clean (badInput_of_clean h)]
    · change execCntn p s = _
      rw [execCntn, State.firing_clean (badInput_of_clean h), State.cntnTo_of_cont hk]
      rfl
    · change execSendf p node port s = _
      rw [execSendf, State.firing_clean (badInput_of_clean h), State.cntnTo_of_cont hk]
    · change execCntn p s = _
      rw [execCntn, State.firing_clean (badInput_of_clean h), State.cntnTo_of_other hk]
    · change execSendf p node port s = _
      rw [execSendf, State.firing_clean (badInput_of_clean h), State.cntnTo_of_other hk]
  case fnews =>
    intro site req asked named namedImm
    refine ⟨fun h hh => ?_, fun c h hc hh => ?_, fun h hr hh => ?_, fun h hh => ?_, fun h hh => ?_⟩
    · change execFnew p .loc node port block s = _
      rw [execFnew, State.firing_clean (badInput_of_clean h)]
      exact congrArg Host.Outcome.next (State.fnewOn_of_holds hh)
    · change execFnew p .least node port block s = _
      rw [execFnew, State.firing_clean (badInput_of_clean h)]
      simp only [State.draw]
      rw [show s.leastCore s.cur.site block.toNat (Config.choice s.fresh) = some c from hc]
      exact congrArg Host.Outcome.next (State.fnewOn_of_holds (s := { s with fresh := s.fresh + 1 }) hh)
    · change execFnewNamed p .named node port block s = _
      rw [execFnewNamed, State.firing_clean (badInput_of_clean h), State.fnewNamedOn_of_read ((isRead_iff_reads _).mpr hr)]
      exact congrArg Host.Outcome.next (State.fnewOn_of_holds hh)
    · change execFnewNamedImm p .named node port block imm s = _
      rw [execFnewNamedImm, State.firing_clean (badInput_of_clean h), State.fnewNamedOn_of_read (isRead_immTok _ _), immTok_val]
      exact congrArg Host.Outcome.next (State.fnewOn_of_holds hh)
    · change execFnew p .loc node port block s = _
      rw [execFnew, State.firing_clean (badInput_of_clean h)]
      exact congrArg Host.Outcome.next (State.fnewOn_of_not_holds hh)
  case iters =>
    intro site i one two twoImm req put opened first again
    have hi : immTok p.ty imm = i := immTok_eq p.ty imm
    have hfirst (h : s.holds site.core site.cslot block.toNat = true) (give : List (Nat × Tok)) (ops : List Tok) :
        .next (s.iterate p false node port block give ops) = first give := by
      simp only [State.iterate, Bool.false_eq_true, if_false, show s.holds s.cur.site.core s.cur.site.cslot block.toNat = true from h,
        Bool.not_true]
      rfl
    have hagain {id : Nat} (h : s.curFrame.loop = some id) (give : List (Nat × Tok)) (ops : List Tok) :
        .next (s.iterate p true node port block give ops) = again give id := by
      simp only [State.iterate, if_true, h]
      rfl
    refine ⟨fun h hh => ⟨?_, ?_⟩, fun h hh => ?_, fun id hid => ⟨fun h => ⟨?_, ?_⟩, fun h => ?_⟩, fun h hn => ?_⟩
    · change execIter p false node port block s = _
      rw [execIter, State.firing_clean (badInput_of_clean h), hfirst hh]
    · change execIter2Imm p false node port block imm s = _
      rw [execIter2Imm, State.firing_clean (badInput_of_clean h), hi, hfirst hh]
    · change execIter2 p false node port block s = _
      rw [execIter2, State.firing_clean (badInput_of_clean h), hfirst hh]
    · change execIter p true node port block s = _
      rw [execIter, State.firing_clean (badInput_of_clean h), hagain hid]
    · change execIter2Imm p true node port block imm s = _
      rw [execIter2Imm, State.firing_clean (badInput_of_clean h), hi, hagain hid]
    · change execIter2 p true node port block s = _
      rw [execIter2, State.firing_clean (badInput_of_clean h), hagain hid]
    · change execIter p true node port block s = _
      rw [execIter, State.firing_clean (badInput_of_clean h)]
      simp only [State.iterate, if_true, hn]

/-- Settles O4: EXIT counts an exit of the frame, and at the last one the activation completes. -/
theorem exitsAndFrameVariables : Obligations.ExitsAndFrameVariables := by
  unfold Obligations.ExitsAndFrameVariables
  refine ⟨fun s p f => ?exit, fun s p var h => ⟨?fset, ?fget⟩⟩
  case exit =>
    intro site emitted u parked v w
    have hexec : exec (.exit p) s = .next (emitted.countExit site.core site.frame) := rfl
    refine ⟨fun hn => ?_, fun hf => ⟨fun h2 => ?_, fun h1 => ?_⟩⟩
    · rw [hexec, State.countExit_of_none hn]
      rfl
    · rw [hexec, State.countExit_of_some hf, if_neg (by omega)]
      rfl
    · have hu : u.frame? site.core site.frame = some f.exited :=
        (State.frame?_modFrame emitted site.core site.frame Frame.exited fun _ => rfl).trans (by rw [hf]; rfl)
      rw [hexec, State.countExit_of_some hf, if_pos h1]
      change Host.Outcome.next (u.completeFrame site.core site.frame) = _
      unfold State.completeFrame
      rw [hu]
      rfl
  case fset =>
    change execFset p var s = _
    rw [execFset, State.firing_clean (badInput_of_clean h)]
  case fget =>
    intro x die u
    refine ⟨fun hue => (execFget_of_clean h var).trans ?_, fun hue => (execFget_of_clean h var).trans ?_⟩
    · exact congrArg Host.Outcome.next (if_neg (Bool.not_eq_true _ ▸ hue))
    · exact congrArg Host.Outcome.next (if_pos hue)

end Sys2Proof.Claims
end


section
/-! PROOFS. Scalar float firings (R124 to R128), poison and EOS among the operands (R94), a scalar unit that fails (R98). -/

namespace Sys2Proof.Machine

open Sys2Proof.Claims

section Floats

variable {s : State} {p : Par} {ops : List Tok}

/-- A float firing whose result is a whole word. -/
theorem State.floatWord_of_scalars (h : scalars s ops) (v : Word) (fl : Nat) :
    s.floatWord p ops ops v fl = floats s p ops (v.toNat, fl) := by
  rw [← State.floatFiring_of_scalars h]
  simp only [State.floatWord, State.floatFiring, BitVec.ofNat_toNat, BitVec.setWidth_eq]

/-- R127: a comparison emits 1 or 0. -/
theorem State.floatBool_of_scalars (h : scalars s ops) (c : Bool) (fl : Nat) :
    s.floatWord p ops ops (boolWord c) fl = floats s p ops (if c then 1 else 0, fl) := by
  rw [State.floatWord_of_scalars h]
  cases c <;> rfl

/-- A float firing whose last operand is the immediate. -/
theorem State.floatFiring_imm_of_scalars (h : scalars s ops) (f : Word → Nat × Nat) (imm : BitVec 32) :
    s.floatFiring p ops ops (f (immTok p.ty imm).val) = floats s p ops (f (immediate p.ty imm)) := by
  rw [State.floatFiring_of_scalars h, immTok_val]

end Floats

/-- R94: a firing with poison or EOS among its operands sends the first of them on. -/
theorem State.firing_of_badInput {s : State} {p : Par} {lat : Nat} {ops : List Tok} {t : Tok} {k : State → State}
    (h : badInput ops = some t) :
    s.firing p lat ops k = .next (s.finish p lat (spread p (carryTok s.cur.site t)) ops) := by
  simp [State.firing, h]

section BadInput

variable {s : State} {p : Par} {ops : List Tok} {t : Tok} (h : badInput ops = some t)
include h

theorem State.moves_of_badInput (x : Tok) :
    s.moves p ops x = .next (s.finish p latGraph (spread p (carryTok s.cur.site t)) ops) := State.firing_of_badInput h

theorem State.tells_of_badInput (v : Word) :
    s.tells p ops v = .next (s.finish p latGraph (spread p (carryTok s.cur.site t)) ops) := State.firing_of_badInput h

theorem State.scalarFiring_of_badInput (reads : List Tok) (check : Bool) (r : Except Nat (Tok × Nat)) :
    s.scalarFiring p reads ops check r = .next (s.finish p latScalar (spread p (carryTok s.cur.site t)) ops) :=
  State.firing_of_badInput h

theorem State.scalarNum_of_badInput (reads : List Tok) (check : Bool) (v : Word) :
    s.scalarNum p ops reads check v = .next (s.finish p latScalar (spread p (carryTok s.cur.site t)) ops) :=
  State.scalarFiring_of_badInput h ..

theorem State.floatFiring_of_badInput (reads : List Tok) (r : Nat × Nat) :
    s.floatFiring p reads ops r = .next (s.finish p latScalar (spread p (carryTok s.cur.site t)) ops) :=
  State.scalarFiring_of_badInput h ..

end BadInput

/-- R98: a scalar firing on a core whose unit fails its check. -/
theorem State.scalarFiring_of_fault {s : State} {p : Par} {ops : List Tok} {check : Bool} {r : Except Nat (Tok × Nat)}
    (hread : ∀ t ∈ ops, Claims.readable t) (hunit : s.cur.site.core ∈ s.scalarFaults) :
    s.scalarFiring p ops ops check r =
      .next ((({ s with scalarFaults := s.scalarFaults.erase s.cur.site.core } : State).countResidue s.cur.site.core).failing
        p latScalar stResidue ops) := by
  have hall : ops.all isRead = true := List.all_eq_true.2 fun t ht => isRead_of_readable (hread t ht)
  have hfault : s.unitFault s.cur.site.core = true := by simpa [State.unitFault] using hunit
  simp [State.scalarFiring, State.firing_clean (badInput_of_readable hread), hall, hfault]

end Sys2Proof.Machine

namespace Sys2Proof.Claims
open Sys2Proof.Machine

/-- Settles O10: each instruction is one float firing of its own result. -/
theorem floatInstructionsComplete : Obligations.FloatInstructionsComplete := by
  unfold Obligations.FloatInstructionsComplete
  intro s p m c sat d imm u a i
  have himm {v : State} {ops : List Tok} (h : scalars v ops) (f : Nat → Nat × Nat) :
      v.floatFiring p ops ops (f (fpBits p.ty (immTok p.ty imm).val)) = floats v p ops (f i) :=
    State.floatFiring_imm_of_scalars h (fun w => f (fpBits p.ty w)) imm
  refine ⟨fun h => ?one, fun h => ?two, fun h => State.floatFiring_of_scalars h _⟩
  case one =>
    have hu : scalars u [s.cur.l] := h
    intro one slow
    have hone (r : Nat × Nat) : s.floatFiring p [s.cur.l] [s.cur.l] r = one r := State.floatFiring_of_scalars h r
    have hslow (r : Nat × Nat) : u.floatFiring p [s.cur.l] [s.cur.l] r = slow r := State.floatFiring_of_scalars hu r
    refine ⟨himm h (fpAdd p.ty m a), himm h (fpSub p.ty m a), himm h (fpMul p.ty m a), himm hu (fpDiv p.ty m a),
      hslow (fpSqrt p.ty m a), hslow (fpRcp p.ty m a), hslow (fpRsq p.ty m a), himm h (fpMinMax p.ty false a),
      himm h (fpMinMax p.ty true a), ?fcmp, hone (fpClass p.ty a, 0), hone (toFp d m sat (decFp p.ty a)), fun hd => ?ftoi,
      fun ht => ?itof, hone (fpRnd p.ty m a), ?fldx, State.floatWord_of_scalars h _ _, hone (fpExp2 p.ty a)⟩
    case fcmp =>
      change execFcmpImm p c imm s = _
      rw [execFcmpImm, State.floatBool_of_scalars h, immTok_val]
      rfl
    case ftoi =>
      rw [reduced_eq_reduceInt (mem_tyIntOrNone (.inl hd))]
      exact State.floatWord_of_scalars h _ _
    case itof =>
      rw [number_eq_readInt (mem_tyIntOrNone (.inl ht))]
      exact hone _
    case fldx => exact State.floatFiring_imm_of_scalars h (fun w => fpLdx p.ty m a w.toInt) imm
  case two =>
    intro b two
    have htwo (r : Nat × Nat) : s.floatFiring p [s.cur.l, s.cur.r] [s.cur.l, s.cur.r] r = two r := State.floatFiring_of_scalars h r
    exact ⟨exec_fadd m h, exec_fsub m h, exec_fmul m h, himm h (fpFma p.ty m a b), exec_fdiv m h, exec_fmin h, exec_fmax h,
      State.floatBool_of_scalars h _ _, htwo (fpLdx p.ty m a s.cur.r.val.toInt)⟩

/-- Settles O12: each instruction named is a firing, which looks for poison and EOS first, then at its unit. -/
theorem poisonEosAndUnitFaults : Obligations.PoisonEosAndUnitFaults := by
  unfold Obligations.PoisonEosAndUnitFaults
  refine ⟨fun s p t => ⟨fun h => ?one, fun h => ?two, fun h => ?three⟩, fun s p c m hread hunit => ?fault⟩
  case one =>
    have hfire (k : State → State) := State.firing_of_badInput (s := s) (p := p) (lat := latGraph) (k := k) h
    simp only [List.forall_mem_cons, List.not_mem_nil, false_implies, implies_true, and_true]
    exact ⟨State.moves_of_badInput h _, State.tells_of_badInput h _, show execMkcont p 0 .l s = _ from hfire _,
      show execFget p 0 s = _ from hfire _, show execMkeos p s = _ from hfire _, State.tells_of_badInput h _,
      State.tells_of_badInput h _, show execTime p s = _ from hfire _, show execGetc p 0x010 s = _ from hfire _,
      show execPerf p 0 s = _ from hfire _⟩
  case two =>
    exact ⟨State.moves_of_badInput h _, State.moves_of_badInput h _, State.scalarNum_of_badInput h _ _ _,
      State.floatFiring_of_badInput h _ _⟩
  case three => exact ⟨State.moves_of_badInput h _, State.scalarNum_of_badInput h _ _ _, State.floatFiring_of_badInput h _ _⟩
  case fault =>
    have hnum (check : Bool) (v : Word) : s.scalarNum p [s.cur.l, s.cur.r] [s.cur.l, s.cur.r] check v = _ :=
      State.scalarFiring_of_fault hread hunit
    have hfloat (r : Nat × Nat) : s.floatFiring p [s.cur.l, s.cur.r] [s.cur.l, s.cur.r] r = _ :=
      State.scalarFiring_of_fault hread hunit
    simp only [List.forall_mem_cons, List.not_mem_nil, false_implies, implies_true, and_true]
    exact ⟨hnum _ _, hnum _ _, hnum _ _, hfloat _⟩

end Sys2Proof.Claims
end


section
/-! PROOFS. The state at reset (R237, R246, R304, R377, R410, R429, R431, R437, R443), the words that the spec writes out, the
SPDM responder (R417 to R419), host windows (R431) and the end of a context (R265). -/

namespace Sys2Proof.Machine

/-! ## Reset -/

theorem State.core_reset (n : Nat) : State.reset.core n = {} := by
  unfold State.core State.reset
  dsimp only
  rw [List.getD_eq_getElem?_getD, List.getElem?_replicate]
  split <;> rfl

theorem reset_frames_free : (({} : FrameUnit).free.filter fun f => !(({} : FrameUnit).reserved.any fun r => r.2 == f)).length = 4096 := by
  have hall : ({} : FrameUnit).free.filter (fun f => !(({} : FrameUnit).reserved.any fun r => r.2 == f)) = ({} : FrameUnit).free :=
    List.filter_eq_self.mpr fun _ _ => rfl
  have hfree : ({} : FrameUnit).free = List.range 4096 := by dsimp only
  rw [hall, hfree, List.length_range]

/-- R237: a register of a core at reset is that of a core of which nothing is known. -/
theorem State.readReg_of_core {s t : State} {site : Site} {i : Nat} (h : regIsWatch i = false)
    (hi : i ∈ [0x010, 0x011, 0x012, 0x013, 0x014, 0x015, 0x017, 0x020, 0x060, 0x070]) (hcore : s.core site.core = t.core 0) :
    s.readReg site i = t.readReg { core := 0 } i := by
  simp only [List.mem_cons, List.not_mem_nil, or_false] at hi
  rcases hi with rfl | rfl | rfl | rfl | rfl | rfl | rfl | rfl | rfl | rfl
  all_goals simp [State.readReg, h, hcore]

/-- R237: a register of a context, by its registers. -/
theorem State.readReg_of_ctx {t : State} {site : Site} {c : Ctx} (hc : t.ctx? site.ctx = some c) (hr : c.regs = {}) (i : Nat)
    (hi : i ∈ [0x003, 0x005, 0x021, 0x022, 0x030, 0x031, 0x040, 0x041, 0x042, 0x044, 0x045, 0x046, 0x048, 0x049, 0x04A, 0x04C,
      0x04D, 0x04E]) :
    t.readReg site i = if i = 0x021 then 0x1000000 else if i = 0x022 then 100000 else 0 := by
  simp only [List.mem_cons, List.not_mem_nil, or_false] at hi
  rcases hi with rfl | rfl | rfl | rfl | rfl | rfl | rfl | rfl | rfl | rfl | rfl | rfl | rfl | rfl | rfl | rfl | rfl | rfl
  all_goals
    simp only [State.readReg, hc, Option.getD_some, hr]
    rfl

/-! ## SPDM -/

section Spdm

variable {s : State} {peer phase : Nat} {k : Spdm → State}

/-- R419: a request out of its place is answered UnexpectedRequest. -/
theorem State.spdmAfter_of_early (h : (s.spdm peer).phase < phase) :
    s.spdmAfter peer phase k = s.send (.spdm peer rspError [errUnexpected]) := if_pos h

theorem State.spdmAfter_of_due (h : phase ≤ (s.spdm peer).phase) : s.spdmAfter peer phase k = k (s.spdm peer) :=
  if_neg (Nat.not_lt.mpr h)

/-- R419: a measurement block of the package is one digest. -/
theorem State.blocks_of_package (c : Spdm) {index : Nat} (h1 : 1 ≤ index) (h4 : index ≤ 4) : ∃ d, s.blocks c index = [d] := by
  have hne : (index == 0xFF) = false := by simp; omega
  obtain rfl | rfl | rfl | rfl : index = 1 ∨ index = 2 ∨ index = 3 ∨ index = 4 := by omega
  all_goals exact ⟨_, rfl⟩

/-- R419: without a tenant's session there are no further blocks. -/
theorem State.blocks_of_none {c : Spdm} (hc : c.tenant = none) {index : Nat} (h5 : 5 ≤ index) (hff : index ≠ 0xFF) :
    s.blocks c index = [] := by
  have hmeasured : s.measured c index = none := by
    unfold State.measured
    split
    all_goals first | omega | simp [hc]
  have hone : (index == 0xFF) = false := by simpa using hff
  simp [State.blocks, hone, hmeasured]

end Spdm

/-! ## The end of a context -/

theorem State.ctx?_eq_none_iff {s : State} {id : Nat} : s.ctx? id = none ↔ ∀ c ∈ s.ctxs, c.id ≠ id := by
  simp [State.ctx?, List.find?_eq_none]

/-- R264: what the parent of a launch notes gives no context another number. -/
theorem State.tellParent_ids {s : State} {id : Nat} (h : ∀ c ∈ s.ctxs, c.id ≠ id) (parent : Option Nat) (queue seq st : Nat) :
    ∀ c ∈ (s.tellParent parent queue seq st).ctxs, c.id ≠ id := by
  cases parent with
  | none => exact h
  | some p =>
    intro c hc
    obtain ⟨x, hx, rfl⟩ := List.mem_map.mp hc
    split <;> exact h x hx

/-- R265: a context that has ended is no context any more. -/
theorem State.ctx?_endContext (s : State) (id st : Nat) : (s.endContext id st).ctx? id = none := by
  unfold State.endContext
  split
  · assumption
  · next c hc =>
    extract_lets cores s1 s2 s3 s4 s5 s6 orphan s7 s8
    have h4 : ∀ x ∈ s4.ctxs, x.id ≠ id := fun x hx => by simpa using (List.mem_filter.mp hx).2
    have h6 : ∀ x ∈ s6.ctxs, x.id ≠ id := State.tellParent_ids (s := s5) h4 _ _ _ _
    have h8 : ∀ x ∈ s8.ctxs, x.id ≠ id := by
      intro x hx
      obtain ⟨y, hy, rfl⟩ := List.mem_map.mp hx
      exact h6 y hy
    split <;> exact State.ctx?_eq_none_iff.mpr h8

/-- Two readings of a word are one: the same instruction, or a refusal for the same reason. -/
def sameReading : Except Reason Instr → Except Reason Instr → Bool
  | .ok i, .ok j => decide (i = j)
  | .error r, .error q => decide (r = q)
  | _, _ => false

theorem eq_of_sameReading {x y : Except Reason Instr} (h : sameReading x y = true) : x = y := by
  unfold sameReading at h
  split at h
  · exact congrArg _ (of_decide_eq_true h)
  · exact congrArg _ (of_decide_eq_true h)
  · cases h

end Sys2Proof.Machine

namespace Sys2Proof.Claims
open Sys2Proof.Machine

/-- Settles O54: State.reset lists no byte of memory. -/
theorem resetMemoryIsCanonical : Obligations.ResetMemoryIsCanonical := ⟨rfl, rfl⟩

/-- Settles O59, by decoding the words. -/
theorem wordsOfTheSpecDecode : Obligations.WordsOfTheSpecDecode := by
  unfold Obligations.WordsOfTheSpecDecode
  dsimp only
  refine ⟨?_, ?_, ?_, ?_, ?_, ?_, ?_, ?_, ?_, ?_, ?_⟩ <;> exact eq_of_sameReading (by decide +kernel)

/-- Settles O39: the context ends, or there is something left to do. -/
theorem contextsComplete : Obligations.ContextsComplete := by
  unfold Obligations.ContextsComplete
  intro s id c hc
  have hexec : exec (.contextCompletion id) s = if s.atRest c then .next (s.endContext id c.regs.status) else .next s := by
    change execContextCompletion id s = _
    rw [execContextCompletion, hc]
  refine ⟨fun h => ⟨?_, State.ctx?_endContext s id _⟩, fun h => ?_⟩
  · rw [hexec, if_pos h]
  · rw [hexec, if_neg (by simp [h])]

/-- Settles O52: each answer depends on the connection's phase, session and tenant alone. -/
theorem attestationRequests : Obligations.AttestationRequests := by
  unfold Obligations.AttestationRequests
  intro s peer index nonce code c answers early digest
  have hearly {phase : Nat} (h : c.phase < phase) {i : Instr} {k : Spdm → State} (hi : exec i s = .next (s.spdmAfter peer phase k)) :
      early i := hi.trans (congrArg _ (State.spdmAfter_of_early h))
  have hdue {phase : Nat} (h : phase ≤ c.phase) {i : Instr} {k : Spdm → State} (hi : exec i s = .next (s.spdmAfter peer phase k)) :
      exec i s = .next (k c) := hi.trans (congrArg _ (State.spdmAfter_of_due h))
  refine ⟨rfl, fun h => hearly h (i := .getCapabilities peer) rfl,
    fun h => hearly h (i := .negotiateAlgorithms peer) rfl,
    fun h => ⟨hearly h (i := .getDigests peer) rfl, hearly h (i := .getCertificate peer) rfl,
      hearly h (i := .challenge peer nonce) rfl, hearly h (i := .getMeasurements peer index) rfl, hearly h (i := .keyExchange peer) rfl⟩,
    fun h => hdue h (i := .getCapabilities peer) rfl, fun h => hdue h (i := .negotiateAlgorithms peer) rfl,
    fun h => ⟨hdue h (i := .getDigests peer) rfl, hdue h (i := .getCertificate peer) rfl, hdue h (i := .challenge peer nonce) rfl, hdue h (i := .getMeasurements peer 0) rfl, fun h1 h4 => ?_, fun hc h5 hff => ?_, hdue h (i := .keyExchange peer) rfl⟩,
    fun h => ?_, fun h => ?_, fun h => ?_, fun h => ?_, rfl⟩
  · obtain ⟨d, hd⟩ := State.blocks_of_package (s := s) c h1 h4
    refine ⟨d, (hdue h (i := .getMeasurements peer index) rfl).trans (congrArg _ ?_)⟩
    rw [if_neg (by simp; omega), hd]
    rfl
  · refine (hdue h (i := .getMeasurements peer index) rfl).trans (congrArg _ ?_)
    rw [if_neg (by simp; omega), State.blocks_of_none hc h5 hff]
    rfl
  · exact if_pos (by simpa using h)
  · exact if_neg (by simpa using h)
  · exact if_pos (by simpa using h)
  · exact if_neg (by simpa using h)

/-- Settles O53: what the definition of State.reset says, and of the registers what they read of it. -/
theorem resetState : Obligations.ResetState := by
  unfold Obligations.ResetState
  intro s
  refine ⟨rfl, rfl, rfl, rfl, rfl, rfl, rfl, rfl, rfl, rfl, List.length_replicate, List.length_replicate, fun q hq => ?_, fun d hd => ?_,
    fun v hv => ?_, fun site _ => ?_, fun t site c hc hr => ?_⟩
  · rw [List.eq_of_mem_replicate hq]
    exact ⟨rfl, rfl, rfl, rfl, rfl, rfl⟩
  · rw [List.eq_of_mem_replicate hd]
    exact ⟨rfl, rfl, rfl, rfl, rfl, rfl, rfl, rfl⟩
  · rw [List.eq_of_mem_replicate hv]
    exact ⟨rfl, rfl⟩
  · have hcore : s.core site.core = {} := State.core_reset _
    have hreg (i : Nat) (hw : regIsWatch i = false) (hi : i ∈ [0x010, 0x011, 0x012, 0x013, 0x014, 0x015, 0x017, 0x020, 0x060, 0x070])
        {v : Word} (hv : ({ cores := [{}] } : State).readReg {} i = v) : s.readReg site i = v :=
      (State.readReg_of_core (t := { cores := [{}] }) hw hi hcore).trans hv
    refine ⟨hreg 0x010 rfl (by decide) ?_, hreg 0x011 rfl (by decide) rfl, fun i hlo hhi => ?_, hreg 0x017 rfl (by decide) rfl,
      hreg 0x020 rfl (by decide) rfl, hreg 0x060 rfl (by decide) rfl, hreg 0x070 rfl (by decide) rfl⟩
    · exact congrArg (BitVec.ofNat 64) reset_frames_free
    · obtain rfl | rfl | rfl | rfl : i = 0x012 ∨ i = 0x013 ∨ i = 0x014 ∨ i = 0x015 := by omega
      all_goals exact hreg _ rfl (by decide) rfl
  · have hreg := State.readReg_of_ctx hc hr
    refine ⟨fun i hi => ?_, hreg 0x021 (by decide), hreg 0x022 (by decide)⟩
    rw [hreg i (List.Subset.trans (fun _ h => h) (by decide) hi)]
    simp only [List.mem_cons, List.not_mem_nil, or_false] at hi
    rw [if_neg (by omega), if_neg (by omega)]

end Sys2Proof.Claims
end


section
/-! PROOFS. Host accesses through a window (R431), platform events (R411, R412, R425, R435 to R440), bring-up and reset (R442, R443),
and the bank whose staged line is counted as it is cleared (R298, R424). -/

namespace Sys2Proof.Machine

theorem bf_one_eq_getLsbD (w : Word) (i : Nat) : (bf w.toNat i 1 == 1) = w.getLsbD i := by
  rw [BitVec.getLsbD, Nat.testBit_eq_decide_div_mod_eq]
  simp only [bf, Nat.pow_one]
  rfl

/-- R431: what a window lets in, and where. -/
theorem Vf.window_eq (v : Vf) (off len : Nat) (write : Bool) :
    v.window off len write =
      let w := v.windows.getD (off / 2 ^ 30) 0
      if v.tdisp = .run ∧ len ∈ [1, 2, 4, 8] ∧ off % len = 0 ∧ off < 2 ^ 32 ∧ w.getLsbD 63 = true ∧
          w.getLsbD (if write then 62 else 61) = true then
        some ((w.extractLsb' 30 18).toNat * 2 ^ 30 + off % 2 ^ 30)
      else none := by
  simp only [Vf.window, bf_one_eq_getLsbD, toNat_extractLsb'_eq_bf]
  refine ite_congr (propext ?_) (fun _ => rfl) (fun _ => rfl)
  simp only [Bool.and_eq_true, beq_iff_eq, decide_eq_true_eq, List.contains_iff_mem]
  exact ⟨fun ⟨⟨⟨hrun, ⟨hoff, hlen⟩, hal⟩, hopen⟩, hperm⟩ => ⟨hrun, hlen, hal, hoff, hopen, hperm⟩,
    fun ⟨hrun, hlen, hal, hoff, hopen, hperm⟩ => ⟨⟨⟨hrun, ⟨hoff, hlen⟩, hal⟩, hopen⟩, hperm⟩⟩

section HostWindow

variable {s : State} {vf off len : Nat} {write : Bool} {v : Word}

theorem exec_hostWindowAccess_of_open (hvf : vf ≠ 0) (hboot : s.plat.boot = .ready) {va : Nat}
    (h : (s.vf vf).window off len write = some va) :
    exec (.hostWindowAccess vf off len write v) s = .next (s.visit (vf - 1) (.visit (.host vf write)) none
      { va := va, len := len, need := if write then 2 else 1, op := if write then .write (leBytes len v.toNat) else .read,
        tlb := true }) := by
  change execHostWindowAccess vf off len write v s = _
  rw [execHostWindowAccess, if_neg (by simpa using hvf), if_neg (by simp [hboot]), h]

theorem exec_hostWindowAccess_of_shut (hvf : vf ≠ 0) (hboot : s.plat.boot = .ready)
    (h : (s.vf vf).window off len write = none) :
    exec (.hostWindowAccess vf off len write v) s = .next (s.hostFail vf write) := by
  change execHostWindowAccess vf off len write v s = _
  rw [execHostWindowAccess, if_neg (by simpa using hvf), if_neg (by simp [hboot]), h]

theorem exec_hostWindowAccess_of_not_ready (hvf : vf ≠ 0) (hboot : s.plat.boot ≠ .ready) :
    exec (.hostWindowAccess vf off len write v) s = .next (if write then s else s.send (.hostRead vf true 0)) := by
  change execHostWindowAccess vf off len write v s = _
  rw [execHostWindowAccess, if_neg (by simpa using hvf), if_pos (by simpa using hboot)]

end HostWindow

/-! ## Bring-up -/

theorem getElem?_enumL {α : Type} (l : List α) (i : Nat) : (enumL l)[i]? = l[i]?.map fun x => (i, x) := by
  rw [enumL, List.zip, List.getElem?_zipWith]
  by_cases hi : i < l.length
  · simp [hi]
  · simp [hi]

/-- R417: the images that the ROM accepts. -/
theorem Platform.accepts_iff (p : Platform) (images : List (Nat × Nat × Bool)) :
    p.accepts images = true ↔ images.length = 4 ∧ ∀ x ∈ images.zip p.fuses, x.1.2.2 = true ∧ x.2 ≤ x.1.1 := by
  simp [Platform.accepts]

/-- R443: a failure code ends the stage that it belongs to, and no other. -/
theorem exec_bootStateAdvance_of_failure {s : State} {e : StageEnd} (h : e.failure ≠ 0) :
    exec (.bootStateAdvance e) s =
      .next (if (bootFailures s.plat.boot).contains e.failure then s.bootFails e.failure else s) := by
  change execBootStateAdvance e s = _
  rw [execBootStateAdvance]
  exact if_pos (by simpa using h)

/-- R443: bring-up goes to a stage. -/
def State.toStage (s : State) (b : Boot) : State := s.modPlat fun p => { p with boot := b }

section Boot

variable {s : State} {e : StageEnd} (hf : e.failure = 0)
include hf

theorem exec_bootStateAdvance_reset (h : s.plat.boot = .reset) : exec (.bootStateAdvance e) s = .next (s.toStage .rom) := by
  change execBootStateAdvance e s = _
  simp [execBootStateAdvance, hf, h, State.toStage]

theorem exec_bootStateAdvance_rom_of_accepts (h : s.plat.boot = .rom) (hok : s.plat.accepts e.images = true) :
    exec (.bootStateAdvance e) s = .next ((s.toStage .hbm).modPlat fun p =>
      { p with fuses := (p.fuses.zip e.images).map fun x => max x.1 x.2.1, firmware := e.images.map fun x => x.2.1
               version := (e.images.getD 1 (0, 0, false)).1 }) := by
  change execBootStateAdvance e s = _
  simp [execBootStateAdvance, hf, h, hok, State.toStage]

theorem exec_bootStateAdvance_rom_of_refuses (h : s.plat.boot = .rom) (hbad : s.plat.accepts e.images = false) :
    exec (.bootStateAdvance e) s = .next ((s.bootFails 1).modPlat fun p => { p with mailbox := [1] }) := by
  change execBootStateAdvance e s = _
  simp [execBootStateAdvance, hf, h, hbad]

theorem exec_bootStateAdvance_hbm (h : s.plat.boot = .hbm) : exec (.bootStateAdvance e) s = .next (s.zeroHbm.toStage .repair) := by
  change execBootStateAdvance e s = _
  simp [execBootStateAdvance, hf, h, State.toStage]

theorem exec_bootStateAdvance_repair_of_ports (h : s.plat.boot = .repair) (hp : e.ports % 2 ^ 18 ≠ 0) :
    exec (.bootStateAdvance e) s = .next ((s.toStage .ready).modPlat fun p =>
      { p with ports := (enumL p.ports).map fun x => { x.2 with up := bf e.ports x.1 1 == 1 } }) := by
  have hp' : (e.ports % 2 ^ 18 == 0) = false := by simpa using hp
  change execBootStateAdvance e s = _
  simp only [execBootStateAdvance, hf, h, hp']
  rfl

theorem exec_bootStateAdvance_repair_of_no_port (h : s.plat.boot = .repair) (hp : e.ports % 2 ^ 18 = 0) :
    exec (.bootStateAdvance e) s = .next (s.bootFails 4) := by
  change execBootStateAdvance e s = _
  simp only [execBootStateAdvance, hf, h, hp]
  rfl

theorem exec_bootStateAdvance_done (h : s.plat.boot = .ready ∨ s.plat.boot = .fail) : exec (.bootStateAdvance e) s = .next s := by
  change execBootStateAdvance e s = _
  rcases h with h | h <;> simp [execBootStateAdvance, hf, h]

end Boot

/-! ## Dies -/

section Die

variable {s : State} {die : Nat} {d : Die}

theorem State.dies_modDie (h : s.plat.dies[die]? = some d) (f : Die → Die) : (s.modDie die f).plat.dies[die]? = some (f d) := by
  simp [State.modDie, State.modPlat, h]

theorem Die.setStep_fields (d : Die) (wall step : Nat) :
    (d.setStep wall step).step = step ∧ (d.setStep wall step).ces.length = d.ces.length ∧
    (d.sameClk wall = false → (d.setStep wall step).ceNom = d.ceNom ∧ (d.setStep wall step).ceLow = d.ceLow) := by
  unfold Die.setStep
  split
  · next hc =>
    refine ⟨rfl, ?_, fun hn => by simp [hn] at hc⟩
    simp only [List.length_append, List.length_map, List.length_take, List.length_drop]
    omega
  · exact ⟨rfl, rfl, fun _ => ⟨rfl, rfl⟩⟩

theorem le_foldl_max_iff {α : Type} (f : α → Nat) (l : List α) (m n : Nat) :
    n ≤ l.foldl (fun m e => max m (f e)) m ↔ n ≤ m ∨ ∃ e ∈ l, n ≤ f e := by
  induction l generalizing m with
  | nil => simp
  | cons x l ih =>
    rw [List.foldl_cons, ih, show n ≤ max m (f x) ↔ n ≤ m ∨ n ≤ f x by omega]
    simp [or_assoc]

end Die

/-- R411: the corrected errors in the millisecond up to one. -/
def Die.within (d : Die) (e : Nat × Bool × Bool) : Nat :=
  (d.ces.filter fun x => !x.2.2 && decide (x.1 ≤ e.1) && decide (e.1 < x.1 + 1000000)).length

theorem Die.le_burst_iff (d : Die) (n : Nat) : n ≤ d.burst ↔ n = 0 ∨ ∃ e ∈ d.ces, e.2.2 = false ∧ n ≤ d.within e := by
  have hwithin (e : Nat × Bool × Bool) : ((d.ces.filter fun x => !x.2.2).filter fun x =>
      decide (x.1 ≤ e.1) && decide (e.1 < x.1 + 1000000)).length = d.within e := by
    rw [List.filter_filter, Die.within]
    congr 2
    funext x
    cases x.2.2 <;> simp
  unfold Die.burst
  dsimp only
  refine (le_foldl_max_iff (fun e : Nat × Bool × Bool => ((d.ces.filter fun x => !x.2.2).filter fun x =>
      decide (x.1 ≤ e.1) && decide (e.1 < x.1 + 1000000)).length) _ 0 n).trans ?_
  simp only [hwithin, Nat.le_zero, List.mem_filter, Bool.not_eq_true', and_assoc]

/-- R440: which shares are legal. -/
theorem shareOk_iff (mhz fire row mw watts : Nat) : shareOk (mhz, fire, row, mw, watts) = true ↔
    mhz % 100 = 0 ∧ 200 ≤ mhz ∧ mhz ≤ 1100 ∧ 1 ≤ fire ∧ fire ≤ 16 ∧ row ≤ 16 := by
  simp [shareOk, and_assoc]

/-- R397: without a trace buffer a change of clock leaves no record. -/
theorem State.clockRecords_of_no_trace {s : State} (h : ∀ c ∈ s.ctxs, c.regs.trace = 0) (core old new : Nat) :
    s.clockRecords core old new = s := by
  have hnone : s.ctxs.filter (fun c => c.regs.trace != 0 && c.seats.any fun k => k.1 == core) = [] :=
    List.filter_eq_nil_iff.mpr fun c hc => by simp [h c hc]
  unfold State.clockRecords
  rw [hnone]
  rfl

theorem foldl_eq_self {α β : Type} {f : α → β → α} {a : α} (l : List β) (h : ∀ x ∈ l, f a x = a) : l.foldl f a = a := by
  induction l with
  | nil => rfl
  | cons x l ih =>
    rw [List.foldl_cons, h x (by simp)]
    exact ih fun y hy => h y (by simp [hy])

/-- What a die has after its share. -/
def State.shared (s : State) (e : Die) (x : Share) : Die :=
  { e.setStep s.wall (if e.bar then e.step else min 6 (e.step + s.draw.1 % 2)) with
    mhz := x.1, fireN := x.2.1, rowN := x.2.2.1, mw := x.2.2.2.1 % 2 ^ 24, watts := x.2.2.2.2 }

/-- R440: a legal share that changes no clock, or of a package without trace buffers, changes its die alone. -/
theorem State.giveShare_of_legal {s : State} {x : Share} {die : Nat} (hok : shareOk x = true)
    (h : (s.plat.dies.getD die {}).mhz = x.1 ∨ ∀ c ∈ s.ctxs, c.regs.trace = 0) :
    s.giveShare die x = s.draw.2.modDie die fun e => s.shared e x := by
  unfold State.giveShare
  rw [if_neg (by simp [hok])]
  dsimp only
  split
  · rfl
  · next hold =>
    have hnone : ∀ c ∈ s.ctxs, c.regs.trace = 0 := h.resolve_left fun he => hold (by rw [he]; simp)
    exact foldl_eq_self _ fun k _ =>
      State.clockRecords_of_no_trace (s := s.draw.2.modDie die fun e => s.shared e x) hnone _ _ _

/-! ## Ports -/

section Port

variable {s : State} {port : Nat} {x : RidgePort}

theorem State.ports_modPort (h : s.plat.ports[port]? = some x) (f : RidgePort → RidgePort) :
    (s.modPort port f).plat.ports[port]? = some (f x) := by
  simp [State.modPort, State.modPlat, h]

theorem exec_flitRetry_of_up (h : s.plat.ports[port]? = some x) (hup : x.up = true) :
    exec (.flitRetry port) s = .next ((s.modPort port fun x => { x with retries := match x.retries with
      | some (a, b) => if s.wall ≤ b + 1000000 then some (a, s.wall) else some (s.wall, s.wall)
      | none => some (s.wall, s.wall) }).send (.flit port x.acked)) := by
  have hx : s.plat.ports.getD port {} = x := by simp [List.getD_eq_getElem?_getD, h]
  change execFlitRetry port s = _
  unfold execFlitRetry
  dsimp only
  rw [hx]
  exact if_neg (by simp [hup])

theorem exec_flitRetry_of_down (h : s.plat.ports[port]? = some x) (hdown : x.up = false) : exec (.flitRetry port) s = .next s := by
  have hx : s.plat.ports.getD port {} = x := by simp [List.getD_eq_getElem?_getD, h]
  change execFlitRetry port s = _
  unfold execFlitRetry
  dsimp only
  rw [hx]
  exact if_pos (by simp [hdown])

end Port

/-! ## A staged line in a bank -/

/-- A package with one tenant, whose first bank holds a line that a prefetch has staged and nothing has read. -/
def stagedInBank : State :=
  { State.reset with
    plat := { State.reset.plat with tenants := [{ id := 0 }] }
    ms := { State.reset.ms with staged := [(shmBase / 64, false, 0)] } }

theorem stagedInBank_cleared :
    exec (.coreAssignment true 0 0) stagedInBank = .next ((stagedInBank.zeroRange (shmBase + 0 * 0x100000) 0x100000).modPlat fun p =>
      { p with banks := (0, 0) :: p.banks.filter fun b => b.1 != 0 }) := rfl

/-- R298: the line dropped unread counts at the core that asked for it. -/
theorem stagedInBank_counted :
    ((stagedInBank.zeroRange (shmBase + 0 * 0x100000) 0x100000).core 0).regs.perf ≠ (stagedInBank.core 0).regs.perf := by
  decide +kernel

end Sys2Proof.Machine

namespace Sys2Proof.Claims
open Sys2Proof.Machine

/-- Settles O48: the access is one of the tenant where the window lets it in. -/
theorem hostWindowAccesses : Obligations.HostWindowAccesses := by
  unfold Obligations.HostWindowAccesses
  refine ⟨fun s vf off len v hvf hboot => ?_, fun s vf r => ⟨fun h => ?_, fun h => ?_, rfl⟩, fun s vf off len v hvf hboot =>
    ⟨exec_hostWindowAccess_of_not_ready hvf hboot, exec_hostWindowAccess_of_not_ready hvf hboot⟩⟩
  · intro f w va lets
    have hopen (write : Bool) (h : lets (if write then 62 else 61)) : (s.vf vf).window off len write = some va :=
      (Vf.window_eq ..).trans (if_pos h)
    have hshut (write : Bool) (h : ¬ lets (if write then 62 else 61)) : (s.vf vf).window off len write = none :=
      (Vf.window_eq ..).trans (if_neg h)
    refine ⟨fun h => ?_, fun h => ?_, fun h => ?_, fun h => ?_⟩
    · exact exec_hostWindowAccess_of_shut hvf hboot (hshut false h)
    · exact exec_hostWindowAccess_of_shut hvf hboot (hshut true h)
    · exact exec_hostWindowAccess_of_open hvf hboot (hopen false h)
    · exact exec_hostWindowAccess_of_open hvf hboot (hopen true h)
  · simp [State.endHost, h]
  · simp [State.endHost, h]

/-- Settles O49: each event changes one die, one port or GTC, by what it finds there. -/
theorem platformEvents : Obligations.PlatformEvents := by
  unfold Obligations.PlatformEvents
  refine ⟨fun s mhz fire row mw watts d hd => ?shares, fun s die d hd => ?dies, fun s port x hx => ?ports, fun s master => ?gtc⟩
  case shares =>
    intro legal divides
    have hexec : divides = if s.plat.limit < watts then .next s else .next (s.giveShare 0 (mhz, fire, row, mw, watts)) := by
      change execWatershedDivision [(mhz, fire, row, mw, watts)] s = _
      simp [execWatershedDivision, enumL]
    refine ⟨fun h => ?_, fun hlegal hw hclk => ?_⟩
    · rw [hexec]
      split
      · rfl
      · next hw =>
        have hbad : shareOk (mhz, fire, row, mw, watts) = false :=
          Bool.eq_false_iff.mpr fun hok => (h.resolve_right hw) ((shareOk_iff ..).mp hok)
        simp [State.giveShare, hbad]
    · have hgive := State.giveShare_of_legal (s := s) (die := 0) ((shareOk_iff mhz fire row mw watts).mpr hlegal)
        (hclk.imp_left fun h => by simp [List.getD_eq_getElem?_getD, hd, h])
      rw [hexec, if_neg (Nat.not_lt.mpr hw), hgive]
      exact ⟨_, _, rfl, State.dies_modDie (s := s.draw.2) hd _, rfl, rfl, rfl, rfl, rfl, rfl, rfl, rfl⟩
  case dies =>
    intro within burst atNominal
    have hgetD : s.plat.dies.getD die {} = d := by simp [List.getD_eq_getElem?_getD, hd]
    have hexec : exec (.marginBackoff die) s = if d.guard ≤ d.burst then .next (s.modDie die fun d =>
        { d.setStep s.wall (d.step - 1) with
          bar := true, barUntil := s.wall + 60000000000
          ces := (d.setStep s.wall (d.step - 1)).ces.map fun e => (e.1, e.2.1, true) }) else .next s := by
      change execMarginBackoff die s = _
      rw [execMarginBackoff, hgetD]
    have hburst : d.guard ≤ d.burst ↔ d.guard = 0 ∨ burst := d.le_burst_iff d.guard
    refine ⟨fun h => ?_, fun h hg => ?_, ?_, ?_⟩
    · obtain ⟨hstep, hlen, hce⟩ := d.setStep_fields s.wall (d.step - 1)
      rw [hexec, if_pos (hburst.mpr (.inr h))]
      refine ⟨_, _, rfl, State.dies_modDie hd _, hstep, rfl, rfl, fun e he => ?_, ?_, rfl, rfl, fun hclk => hce (by simpa using hclk)⟩
      · obtain ⟨x, -, rfl⟩ := List.mem_map.mp he
        rfl
      · rw [List.length_map, hlen]
    · rw [hexec, if_neg fun hle => (hburst.mp hle).elim hg h]
    · refine ⟨_, _, rfl, State.dies_modDie hd _, ?_, ?_, rfl⟩
      · split <;> simp_all
      · split <;> rfl
    · refine ⟨_, _, rfl, State.dies_modDie hd _, ?_, ?_, rfl⟩
      · split
        next hle => rw [decide_eq_true (p := d.pfLimit ≤ atNominal) hle, Bool.or_true]
        next hlt => rw [decide_eq_false (p := d.pfLimit ≤ atNominal) hlt, Bool.or_false]
      · split <;> rfl
  case ports =>
    intro becomes
    refine ⟨fun hup => ⟨_, ⟨exec_flitRetry_of_up hx hup, State.ports_modPort hx _, rfl, rfl⟩, rfl⟩, fun hup hses haged => ?_,
      fun haged => ?_, exec_flitRetry_of_down hx, fun a b hr hab => ?_, fun hr => ?_⟩
    · refine ⟨_, rfl, (State.ports_modPort hx _).trans ?_, rfl, rfl⟩
      rw [if_pos (by simp only [RidgePort.carries, hup, haged, decide_true, Bool.true_and, Bool.and_true]; simpa using hses)]
    · refine ⟨_, rfl, (State.ports_modPort hx _).trans ?_, rfl, rfl⟩
      rw [if_neg (by simp only [Nat.not_le.mpr haged, decide_false, Bool.and_false]; decide)]
    · refine ⟨_, rfl, (State.ports_modPort hx _).trans ?_, rfl, rfl⟩
      simp [hr, hab]
    · refine ⟨_, rfl, (State.ports_modPort hx _).trans ?_, rfl, rfl⟩
      simp [hr]
  case gtc =>
    refine ⟨fun h => ?_, fun hm hl => ?_⟩
    · change execGtcSync master s = _
      unfold execGtcSync
      exact if_pos (by simpa using h)
    · have hexec : exec (.gtcSync master) s = execGtcSync master s := rfl
      rw [hexec, execGtcSync, if_neg (by simp [hm, hl])]
      refine ⟨_, rfl, ?_, ?_, fun h => ?_, fun h => ?_, ?_⟩
      · split <;> rfl
      · split <;> rfl
      · rw [if_pos (by omega)]
        rfl
      · rw [if_neg (by omega)]
        rfl
      · have hlock : ∀ b : Bool, (((master : Int) - (s.gtc : Int)).natAbs ≤ 5) ↔ (master ≤ s.gtc + 5 ∧ s.gtc ≤ master + 5) := by omega
        split
        · exact decide_eq_true_iff.trans (hlock true)
        · exact decide_eq_true_iff.trans (hlock true)

/-- Settles O50: a stage's end depends on the stage, the failure code and what the stage finds. -/
theorem resetAndBringUp : Obligations.ResetAndBringUp := by
  unfold Obligations.ResetAndBringUp
  refine ⟨fun s b images ports hb => ?_, fun s => ⟨_, _, rfl, rfl, rfl, rfl, rfl, rfl, rfl, rfl, rfl, rfl, rfl, rfl, rfl, rfl, rfl, rfl,
    rfl, rfl, rfl, rfl, rfl, rfl⟩⟩
  intro advance to' fails sound
  subst hb
  have haccepts : s.plat.accepts images = true ↔ sound := s.plat.accepts_iff images
  have hnext {t u : State} (hu : advance 0 = .next u) (ht : advance 0 = .next t) : u = t := Host.Outcome.next.inj (hu.symm.trans ht)
  refine ⟨fun hs => ?reset, fun hs hok => ?accepted, fun hs hbad => ?refused, fun hs => ?hbm, fun hs hp => ?ports, fun hs hp => ?noPorts,
    exec_bootStateAdvance_done rfl, fun code hc => ?failure⟩
  case reset => exact ⟨_, exec_bootStateAdvance_reset rfl hs, rfl, rfl⟩
  case accepted =>
    have hadv := exec_bootStateAdvance_rom_of_accepts (e := ⟨0, images, ports⟩) rfl hs (haccepts.mpr hok)
    refine ⟨⟨_, hadv, rfl, rfl⟩, fun t ht => ?_⟩
    obtain rfl := hnext hadv ht
    exact ⟨rfl, rfl⟩
  case refused =>
    have hadv := exec_bootStateAdvance_rom_of_refuses (e := ⟨0, images, ports⟩) rfl hs
      (Bool.eq_false_iff.mpr fun h => hbad (haccepts.mp h))
    refine ⟨⟨_, hadv, rfl, rfl⟩, fun t ht => ?_⟩
    obtain rfl := hnext hadv ht
    exact ⟨rfl, rfl⟩
  case hbm =>
    have hadv := exec_bootStateAdvance_hbm (e := ⟨0, images, ports⟩) rfl hs
    refine ⟨⟨_, hadv, rfl, rfl⟩, fun t ht => ?_⟩
    obtain rfl := hnext hadv ht
    rfl
  case ports =>
    have hadv := exec_bootStateAdvance_repair_of_ports (e := ⟨0, images, ports⟩) rfl hs hp
    refine ⟨⟨_, hadv, rfl, rfl⟩, fun t ht i x hx => ?_⟩
    obtain rfl := hnext hadv ht
    change ((enumL s.plat.ports).map fun x => { x.2 with up := bf ports x.1 1 == 1 })[i]? = _
    rw [List.getElem?_map, getElem?_enumL, hx]
    rfl
  case noPorts => exact ⟨_, exec_bootStateAdvance_repair_of_no_port rfl hs hp, rfl, rfl⟩
  case failure =>
    intro mine
    have hmine : (bootFailures s.plat.boot).contains code = true ↔ mine := by
      simp only [mine]
      cases s.plat.boot <;> simp [bootFailures]
    have hadv := exec_bootStateAdvance_of_failure (s := s) (e := ⟨code, images, ports⟩) hc
    refine ⟨fun h => ⟨_, hadv.trans (by rw [if_pos (hmine.mpr h)]), rfl, rfl⟩, fun h => hadv.trans (by rw [if_neg fun hm => h (hmine.mp hm)])⟩

/-- Refutes O51: a bank that goes to a tenant is written with zeros, which drops a staged line and counts it at the core that asked
for it. -/
theorem not_tenantsAndTables : ¬ Obligations.TenantsAndTables := by
  unfold Obligations.TenantsAndTables
  intro h
  obtain ⟨hcores, -⟩ := h
  obtain ⟨-, -, t, ht, -, -, -, hsame⟩ := hcores stagedInBank 0 0 (by decide) rfl
  have hnext := Host.Outcome.next.inj (stagedInBank_cleared.symm.trans ht)
  refine stagedInBank_counted ?_
  have hcore : (t.core 0).regs.perf = (stagedInBank.core 0).regs.perf := by simp only [State.core, hsame]
  rw [← hcore, ← hnext]
  rfl

end Sys2Proof.Claims
end


section
/-! PROOFS. Loads, stores, prefetches, atomics, bank updates, barrier words, objects and pipes issue their requests (R206 to R225). -/

namespace Sys2Proof.Machine

open Sys2Proof.Claims

section Issue

variable {s : State} {p : Par}

/-! ## Operands -/

theorem State.handle_of_live {t : Tok} {x : Tile} (h : live s t x) : s.handle s.cur.site.core t = .ok x := by
  obtain ⟨hkind, htile⟩ := h
  simp [State.handle, hkind, htile]

theorem ne_of_live {t : Tok} {x : Tile} (h : live s t x) : t.kind ≠ kPoison ∧ t.kind ≠ kEos := by
  rw [h.1]; decide

theorem clean_cons {t : Tok} {ops : List Tok} (h : t.kind ≠ kPoison ∧ t.kind ≠ kEos) (hops : clean ops) : clean (t :: ops) :=
  fun u hu => (List.mem_cons.1 hu).elim (fun e => e ▸ h) (hops u)

theorem ne_of_scalar {t : Tok} (h : t.kind = kScalar) : t.kind ≠ kPoison ∧ t.kind ≠ kEos := by
  rw [h]; decide

theorem filter_not_tile_of_scalar {l r : Tok} {ops : List Tok} (hl : l.kind = kScalar) (hr : r.kind = kTile) :
    (l :: r :: ops).filter (fun t => t.kind != kTile) = l :: ops.filter fun t => t.kind != kTile := by
  simp [hl, hr, kScalar, kTile]

theorem clean_nil : clean [] := fun _ h => absurd h List.not_mem_nil

/-! ## LD, ST, LDT and STT (R206 to R210) -/

theorem State.store_of_access {v : Tok} {ops : List Tok} {x : Ty × Target}
    (h : s.scalarAccess s.cur.site { write := true, read := false } s.cur.l.val p.ty = .ok x) :
    s.store p v ops = s.fireReq p 2 (issued s p) ops
      { opc := 0x141, cls := 2, paddr := firstPa x.2.parts, kind := .st, ordered := true, addr := s.cur.l.val, opa := v.val
        pieces := scalarPieces s.cur.l.val (tyBits x.1 / 8) x.2 fun o n => .write (((leBytes (tyBits x.1 / 8) v.val.toNat).drop o).take n) } := by
  simp only [State.store, h]
  rfl

theorem State.loadTile_of_forms {bg g : Geom} {ty : Ty} {pitch rows cols : Nat} {sa : Option Word} {ops : List Tok}
    {gs : List (Loc × Nat × Nat)} (hfits : impossible { ty := ty, bg := g, rows := rows, cols := cols } = false)
    (hform : s.loadForm s.cur.site s.cur.l.val p.ty bg sa.isSome = .ok (ty, g))
    (hacc : s.tileAccess s.cur.site { spaces := tileSpaces } { ty := ty, bg := g, rows := rows, cols := cols } pitch s.cur.l.val sa =
      .ok gs) :
    s.loadTile p bg pitch rows cols sa ops = (s.fireReq p 1 [] ops
      { opc := 0x142, cls := 1, paddr := firstPa gs, kind := .ldt, addr := s.cur.l.val, opa := sa.getD 0
        pieces := oneByGranule (gs.map fun g => { place := g.1, len := g.2.1, off := g.2.2, op := .read }) }).askTile s.cur.site.core
      { site := s.cur.site, shape := { ty := ty, bg := g, rows := rows, cols := cols }, why := 3, owner := s.ms.reqSeq } := by
  simp only [State.loadTile, hform, State.orFail, hacc, hfits, Bool.false_eq_true, if_false]

theorem State.storeTile_of_forms {pitch : Nat} {sa : Option Word} {rd ops : List Tok} {t : Tile} {gs : List (Loc × Nat × Nat)}
    (hlive : live s s.cur.l t) (hreads : reads rd) (hform : s.storeForm s.cur.site s.cur.r.val t.shape = .ok ())
    (hacc : s.tileAccess s.cur.site { spaces := tileSpaces, write := true, read := false } t.shape pitch s.cur.r.val sa = .ok gs)
    (hrows : s.readRows s.cur.site.core t 0 t.shape.rows = (false, s)) :
    s.storeTile p pitch sa rd ops =
      let img : Tile := { shape := { t.shape with acc := false }, bytes := planeBytes (s.readPlane s.cur.site.core t) }
      s.fireReq p 2 (issued s p) (ops.drop 1)
        { opc := 0x143, cls := 2, paddr := firstPa gs, kind := .stt, addr := s.cur.r.val, opa := s.cur.r.val, opb := sa.getD 0
          hold := [s.cur.l]
          pieces := oneByGranule (gs.map fun g => { place := g.1, len := g.2.1, off := g.2.2, op := .write (img.getBytes g.2.2 g.2.1) }) } := by
  simp only [State.storeTile, State.orFail, State.handle_of_live hlive, all_isRead_of_reads hreads, hform, hacc, hrows,
    Bool.not_true, Bool.false_eq_true, if_false]
  rfl

/-! ## Atomics and bank updates (R219 to R221) -/

theorem State.atomic_of_access {op : AtomOp} {rtry : Bool} {v : Tok} {ops : List Tok} {t : Target}
    (h : s.atomAccess s.cur.site s.cur.l.val p.ty = .ok t) :
    s.atomic p op rtry v ops = s.fireReq p 4 (issued s p) ops
      { opc := 0x14A, cls := 3, paddr := firstPa t.parts, kind := .atomic p.ty, rtry := rtry, addr := s.cur.l.val, opa := v.val
        pieces := oneEvent t (.update (atomOpCode op) p.ty (v.val.toNat % 2 ^ tyBits p.ty)) } := by
  simp only [State.atomic, h]
  rfl

theorem State.compareSwap_of_access {rtry : Bool} {v : Tok} {ops : List Tok} {t : Target}
    (h : s.atomAccess s.cur.site s.cur.l.val p.ty = .ok t) :
    s.compareSwap p rtry v ops = s.fireReq p 4 (issued s p) ops
      { opc := 0x14B, cls := 3, paddr := firstPa t.parts, kind := .atomic p.ty, rtry := rtry, addr := s.cur.l.val
        opa := s.cur.r.val, opb := v.val
        pieces := oneEvent t (.cas (tyBits p.ty) (s.cur.r.val.toNat % 2 ^ tyBits p.ty) (v.val.toNat % 2 ^ tyBits p.ty)) } := by
  simp only [State.compareSwap, h]
  rfl

theorem State.bankUpdate_of_rows {opc pitch rp : Nat} {ops : List Tok} {opb : Word} {op : Nat → PieceOp} {x : Tile}
    {rows : List (Nat × Target)} (hlive : live s s.cur.r x) (hbg : x.shape.bg = .g0) (hty : x.shape.ty = p.ty)
    (hpitch : rowPitch x.shape pitch = .ok rp)
    (hparts : s.rowParts s.cur.site { spaces := [1, 2], write := true } s.cur.l.val rp (packedRow x.shape) x.shape.rows 0 = .ok rows)
    (hrows : s.readRows s.cur.site.core x 0 x.shape.rows = (false, s)) :
    s.bankUpdate p opc pitch ops opb op = s.fireReq p 4 (issued s p) (ops.filter fun t => t.kind != kTile)
      { opc := opc, cls := 3, paddr := firstPa ((rows.map fun r => r.2.parts).headD []), kind := .bank, addr := s.cur.l.val
        opa := s.cur.r.val, opb := opb, hold := [s.cur.r]
        pieces := rows.flatMap fun q => (enumL ((s.readPlane s.cur.site.core x).elems.getD q.1 [])).flatMap fun e =>
          (subParts q.2.parts (e.1 * (tyBits p.ty / 8)) (tyBits p.ty / 8)).map fun y =>
            { place := y.1, len := y.2.1, off := 0, op := op e.2 } } := by
  have hform : (x.shape.bg != .g0 || x.shape.ty != p.ty) = false := by simp [hbg, hty]
  simp only [State.bankUpdate, State.orFail, State.handle_of_live hlive, hform, hpitch, hparts, hrows, Bool.false_eq_true, if_false]
  rfl

/-! ## Barrier words, objects and pipes (R222 to R225) -/

theorem State.arrive_of_access {rtry : Bool} {st : Word} {ops : List Tok} {t : Target}
    (h : s.wordAccess s.cur.site s.cur.l.val true = .ok t) :
    s.arrive p rtry st ops = s.fireReq p 4 (issued s p) ops
      { opc := 0x185, cls := 3, paddr := firstPa t.parts, kind := .bara, rtry := rtry, addr := s.cur.l.val, opa := st
        pieces := oneEvent t (.bara (st.toNat % 256)) } := by
  simp only [State.arrive, h]
  rfl

theorem State.awaitPhase_of_access {n : Word} {ops : List Tok} {t : Target}
    (h : s.wordAccess s.cur.site s.cur.l.val false = .ok t) :
    s.awaitPhase p n ops = s.fireReq p 1 [] ops
      { opc := 0x186, cls := 1, paddr := firstPa t.parts, kind := .barw, addr := s.cur.l.val, opa := n
        pieces := oneEvent t (.barw (n.toNat % 65536)) } := by
  simp only [State.awaitPhase, h]
  rfl

theorem State.acquire_of_access {sh rtry : Bool} {scope : Scope} {t : Target}
    (h : s.wordAccess s.cur.site s.cur.l.val true = .ok t) (hin : s.inScope s.cur.site.core scope (firstPa t.parts) = true) :
    s.object p false sh rtry scope = s.fireReq p 4 [] [s.cur.l]
      { opc := 0x187, cls := 3, paddr := firstPa t.parts, kind := .acq, rtry := rtry, addr := s.cur.l.val
        pieces := oneEvent t (.acq sh) } := by
  simp only [State.object, h, State.orFail, hin, Bool.not_true, Bool.false_eq_true, if_false]

/-- A command list that is empty where no range is bound, by either test. -/
theorem ite_isEmpty_eq {α β : Type} [DecidableEq (List α)] (rs : List α) (e : List β) :
    (if rs.isEmpty then [] else e) = if rs = [] then [] else e := by
  simp only [List.isEmpty_iff]

theorem State.pipeOp_of_bound {op : Nat} {pipe : BitVec 4} {n : Tok} {ops : List Tok} {c : Ctx} {x : Nat × Nat}
    (hctx : s.ctx? s.cur.site.ctx = some c) (hpipe : c.pipes.find? (fun x => x.1 == pipe.toNat) = some x) :
    s.pipeOp p op pipe n ops = s.fireReq p (if op == 4 then 1 else 4) [] ops
      { opc := 0x180 + op, cls := if op == 4 then 1 else 3, paddr := ownPa x.2, kind := .pipe op pipe.toNat, opa := n.val
        pieces := [{ place := .mem (ownPa x.2) 0 0, len := 64, op := .pipe op pipe.toNat n.val.toNat }] } := by
  simp only [State.pipeOp, hctx, Option.bind_some, hpipe]

end Issue

end Sys2Proof.Machine

namespace Sys2Proof.Claims

open Sys2Proof.Machine

/-- Settles O22: the firing's checks are its hypotheses; what is left is the request. -/
theorem loadsAndStoresIssue : Obligations.LoadsAndStoresIssue := by
  unfold Obligations.LoadsAndStoresIssue
  constructor
  · intro s p imm x l r w put
    refine ⟨fun h hacc => ?_, fun hacc => ⟨fun h => ?_, fun h => ?_⟩⟩
    · change execLd p s = _
      rw [execLd, State.memFiring_of_operands h]
      simp only [State.orFail, show s.scalarAccess s.cur.site {} s.cur.l.val p.ty = .ok x from hacc]
      rfl
    · change execSt p s = _
      rw [execSt, State.memFiring_of_operands h, State.store_of_access hacc]
    · change execStImm p imm s = _
      rw [execStImm, State.memFiring_of_operands h, State.store_of_access hacc, immTok_val]
  · intro s p bg g ty pitch rows cols t gs site l r c sh img get put store
    refine ⟨fun hfits => ⟨fun h hform hacc => ?_, fun h hform hacc => ?_⟩, fun hlive hform hrows => ⟨fun h hacc => ?_, fun h hacc => ?_⟩,
      fun h => ?_, fun h => ?_⟩
    · change execLdt p bg pitch rows cols s = _
      rw [execLdt, State.memFiring_of_operands h, State.loadTile_of_forms hfits hform hacc]
    · change execLdtScaled p bg pitch rows cols s = _
      rw [execLdtScaled, State.memFiring_of_operands h, State.loadTile_of_forms hfits hform hacc]
    · change execStt p pitch s = _
      rw [execStt, State.firing_clean (badInput_of_clean (clean_cons (ne_of_live hlive) h.1)),
        State.storeTile_of_forms hlive h.2 hform hacc hrows]
      rfl
    · change execSttScaled p pitch s = _
      rw [execSttScaled, State.firing_clean (badInput_of_clean (clean_cons (ne_of_live hlive) h.1)),
        State.storeTile_of_forms hlive h.2 hform hacc hrows]
      rfl
    · change execPfh p pitch s = _
      rw [execPfh, if_pos ((isRead_iff_reads _).2 h)]
    · change execPfh p pitch s = _
      rw [execPfh, if_neg (mt (isRead_iff_reads _).1 h)]
      rfl

/-- Settles O23: the firing's checks are its hypotheses; what is left is the request. -/
theorem atomicsIssue : Obligations.AtomicsIssue := by
  unfold Obligations.AtomicsIssue
  intro s p op rop rtry pitch imm t x rp rows site l r c i low one bank
  refine ⟨fun hacc => ⟨fun h => ?_, fun h => ?_, fun h => ?_, fun h => ?_⟩, fun hlive hbg hty hpitch hparts hrows => ?_⟩
  · change execAop p op rtry s = _
    rw [execAop, State.memFiring_of_operands h, State.atomic_of_access hacc]
    rfl
  · change execAopImm p op rtry imm s = _
    rw [execAopImm, State.memFiring_of_operands h, State.atomic_of_access hacc, immTok_val]
    rfl
  · change execAcas p rtry s = _
    rw [execAcas, State.memFiring_of_operands h, State.compareSwap_of_access hacc]
    rfl
  · change execAcasImm p rtry imm s = _
    rw [execAcasImm, State.memFiring_of_operands h, State.compareSwap_of_access hacc, immTok_val]
    rfl
  · have reads_of {u : Tok} (h : u.kind = kScalar) : reads [u] := fun t ht => by
      rw [List.mem_singleton.1 ht]; exact .inl h
    have cleanR {ops : List Tok} (h : clean ops) : clean (r :: ops) := clean_cons (ne_of_live hlive) h
    have cleanOf {u : Tok} {ops : List Tok} (h : u.kind = kScalar) (hops : clean ops) : clean (u :: ops) :=
      clean_cons (ne_of_scalar h) hops
    refine ⟨fun hl => ?_, fun hl hc => ?_, fun hl => ?_⟩
    · change execBupd p rop pitch s = _
      rw [execBupd, State.memFiring_of_operands ⟨cleanOf hl (cleanR clean_nil), reads_of hl⟩,
        State.bankUpdate_of_rows hlive hbg hty hpitch hparts hrows, filter_not_tile_of_scalar hl hlive.1]
      rfl
    · change execBaxpy p pitch s = _
      have hreads : reads [l, c] := fun t ht => by
        obtain rfl | ht := List.mem_cons.1 ht
        · exact .inl hl
        · exact reads_of hc t ht
      rw [execBaxpy, State.memFiring_of_operands ⟨cleanOf hl (cleanR (cleanOf hc clean_nil)), hreads⟩,
        State.bankUpdate_of_rows hlive hbg hty hpitch hparts hrows, filter_not_tile_of_scalar hl hlive.1,
        List.filter_cons, List.filter_nil, hc]
      rfl
    · change execBaxpyImm p pitch imm s = _
      rw [execBaxpyImm, State.memFiring_of_operands ⟨cleanOf hl (cleanR clean_nil), reads_of hl⟩,
        State.bankUpdate_of_rows hlive hbg hty hpitch hparts hrows, immTok_val,
        filter_not_tile_of_scalar hl hlive.1]
      rfl

/-- Settles O26: the firing's checks are its hypotheses; what is left is the request. -/
theorem synchronisationIssues : Obligations.SynchronisationIssues := by
  unfold Obligations.SynchronisationIssues
  constructor
  · intro s p sh rtry scope imm t site l r i pa ev bara barw rs before engs
    refine ⟨fun hacc => ⟨fun h => ?_, fun h => ?_, fun h => ?_, fun h hin => ⟨?_, ?_⟩⟩, fun hacc => ⟨fun h => ?_, fun h => ?_⟩⟩
    · change execBara p rtry s = _
      rw [execBara, State.memFiring_of_operands h, State.arrive_of_access hacc]
      rfl
    · change execBaraStatus p rtry s = _
      rw [execBaraStatus, State.memFiring_of_operands h, State.arrive_of_access hacc]
      rfl
    · change execBaraImm p rtry imm s = _
      rw [execBaraImm, State.memFiring_of_operands h, State.arrive_of_access hacc, immTok_val]
      rfl
    · change execAcq p sh rtry scope s = _
      rw [execAcq, State.memFiring_of_operands h, State.acquire_of_access hacc hin]
      rfl
    · change execRel p sh rtry scope s = _
      rw [execRel, State.memFiring_of_operands h]
      simp only [State.object, State.orFail, show s.wordAccess s.cur.site s.cur.l.val true = .ok t from hacc,
        show s.inScope s.cur.site.core scope (firstPa t.parts) = true from hin, ite_isEmpty_eq, Bool.not_true, Bool.false_eq_true,
        if_false, if_true]
      rfl
    · change execBarw p s = _
      rw [execBarw, State.memFiring_of_operands h, State.awaitPhase_of_access hacc]
      rfl
    · change execBarwImm p imm s = _
      rw [execBarwImm, State.memFiring_of_operands h, State.awaitPhase_of_access hacc, immTok_val]
      rfl
  · intro s p pipe imm c x l r q op v hctx hpipe
    refine ⟨fun h => ⟨?_, ?_, ?_, ?_⟩, fun h => ?_⟩
    · change execPclm p pipe s = _
      rw [execPclm, State.memFiring_of_operands h, State.pipeOp_of_bound hctx hpipe]
      rfl
    · change execPcmt p pipe s = _
      rw [execPcmt, State.memFiring_of_operands h, State.pipeOp_of_bound hctx hpipe]
      rfl
    · change execPawt p pipe s = _
      rw [execPawt, State.memFiring_of_operands h, State.pipeOp_of_bound hctx hpipe]
      rfl
    · change execPret p pipe s = _
      rw [execPret, State.memFiring_of_operands h, State.pipeOp_of_bound hctx hpipe]
      rfl
    · have hops : Claims.operands [l] [] := ⟨h, fun _ ht => absurd ht List.not_mem_nil⟩
      refine ⟨?_, ?_, ?_, ?_, ?_⟩
      · change execPclmImm p pipe imm s = _
        rw [execPclmImm, State.memFiring_of_operands hops, State.pipeOp_of_bound hctx hpipe, immTok_val]
        rfl
      · change execPcmtImm p pipe imm s = _
        rw [execPcmtImm, State.memFiring_of_operands hops, State.pipeOp_of_bound hctx hpipe, immTok_val]
        rfl
      · change execPawtImm p pipe imm s = _
        rw [execPawtImm, State.memFiring_of_operands hops, State.pipeOp_of_bound hctx hpipe, immTok_val]
        rfl
      · change execPretImm p pipe imm s = _
        rw [execPretImm, State.memFiring_of_operands hops, State.pipeOp_of_bound hctx hpipe, immTok_val]
        rfl
      · change execPinfo p pipe s = _
        rw [execPinfo, State.memFiring_of_operands hops, State.pipeOp_of_bound hctx hpipe]
        rfl

end Sys2Proof.Claims
end


section
/-! PROOFS. Tile allocation, the handle instructions, tile elements and the commands of the tile unit (R134, R140 to R148). -/

namespace Sys2Proof.Machine

open Sys2Proof.Claims

/-! ## Tile firings -/

section Firing

variable {s : State} {p : Par} {ops : List Tok}

theorem clean_of_reads {ops : List Tok} (h : reads ops) : clean ops := fun t ht => by
  obtain hk | hk := h t ht <;> rw [hk] <;> decide

theorem State.tileFiring_of_live {k : State → Tile → State} {t : Tile} (h : live s s.cur.l t) (hops : clean ops) :
    s.tileFiring p (s.cur.l :: ops) k = .next (k s t) := by
  rw [State.tileFiring, State.firing_clean (badInput_of_clean (clean_cons (ne_of_live h) hops)), State.handle_of_live h]

theorem State.tileCmdFiring_of_live {k : State → Tile → State} {t : Tile} (h : live s s.cur.l t) (hops : clean ops) :
    s.tileCmdFiring p (s.cur.l :: ops) k = .next (k s t) := by
  have hpoison : ¬ ((s.cur.l :: ops).any fun t => t.kind == kPoison) = true := by
    simp only [List.any_eq_true, beq_iff_eq, not_exists, not_and]
    exact fun u hu => (clean_cons (ne_of_live h) hops u hu).1
  rw [State.tileCmdFiring, if_neg hpoison, State.tileFiring_of_live h hops]

theorem isRead_of_reads {t : Tok} (h : reads [t]) : isRead t = true := (isRead_iff_reads t).2 h

end Firing

/-! ## Allocation (R134, R140) -/

theorem State.askTile_eq (s : State) (core : Nat) (r : TileReq) :
    s.askTile core r = if (s.queueTile core r).nextTileAsk core r.shape.acc = some r then
      (s.queueTile core r).grantTile core r.shape.acc else s.queueTile core r := by
  simp only [State.askTile, beq_iff_eq]

/-- What a grant leaves once the new tile stands: the unit with less of what freed tiles left. -/
theorem TileUnit.takeSpace_keeps (u : TileUnit) (fresh : Nat) (sh : Shape) :
    (u.takeSpace fresh sh).2.fifo = u.fifo ∧ (u.takeSpace fresh sh).2.accFifo = u.accFifo := by
  unfold TileUnit.takeSpace
  cases sh.acc <;> exact ⟨rfl, rfl⟩

/-- The tile unit whose space and index a new tile has taken. -/
def State.unitOfNew (s : State) (core : Nat) (r : TileReq) : TileUnit :=
  if r.view.isSome then (s.core core).tile else ((s.core core).tile.takeSpace s.fresh r.shape).2

theorem State.unitOfNew_keeps (s : State) (core : Nat) (r : TileReq) :
    (s.unitOfNew core r).fifo = (s.core core).tile.fifo ∧ (s.unitOfNew core r).accFifo = (s.core core).tile.accFifo := by
  unfold State.unitOfNew
  split
  · exact ⟨rfl, rfl⟩
  · exact TileUnit.takeSpace_keeps ..

/-- The state with the new tile of a TALLOC whose tile is zeroed. -/
def State.withZeroTile (s : State) (core i : Nat) (r : TileReq) : State :=
  { (s.modTile core fun _ => { s.unitOfNew core r with
      tiles := (s.core core).tile.tiles ++ [{ idx := i, ctx := r.site.ctx, shape := r.shape, view := r.view }] }) with
    fresh := s.fresh + 2 * ((s.core core).tile.left.length + (s.core core).tile.leftRows.length) }

theorem State.newTile_zero {s : State} {core i : Nat} {r : TileReq} (hi : (s.core core).tile.freeIdx = some i) :
    s.newTile core r.site.ctx r.shape r.view true = some (i, s.withZeroTile core i r) := by
  have hunit : (if r.view.isSome then (([], (s.core core).tile) : List Host.Cell × TileUnit)
      else (s.core core).tile.takeSpace s.fresh r.shape).2 = s.unitOfNew core r := apply_ite Prod.snd ..
  unfold State.newTile State.withZeroTile
  simp only [hi, hunit, if_true]

theorem State.grantTile_zero {s : State} {core i : Nat} {acc : Bool} {r : TileReq} (hask : s.nextTileAsk core acc = some r)
    (hwhy : r.why = 0) (hzero : r.zero = true) (hfits : (s.core core).tile.fits r.shape r.view.isSome = true)
    (hi : (s.core core).tile.freeIdx = some i) :
    s.grantTile core acc = ((s.withZeroTile core i r).modTile core fun u =>
      if acc then { u with accFifo := u.accFifo.erase r } else { u with fifo := u.fifo.erase r }).emitHandle r.site r.d0 r.d1 r.d2 i := by
  unfold State.grantTile
  simp only [hask, hwhy, hzero, hfits, Bool.not_true, Bool.true_or, Bool.false_eq_true, if_false,
    State.newTile_zero hi, show ((0 : Nat) == 5) = false from rfl]

/-! ## Views (R143) -/

theorem State.viewOf_of_window {s : State} {p : Par} {t : Tile} {r : Tok} {ops : List Tok} {row0 col0 rows cols : Nat}
    (hread : isRead r = true) (hwin : windowOf t r.val = .ok (row0, col0, rows, cols)) :
    s.viewOf p t r ops =
      (((if t.view = none then s else s.changeRefs s.cur.site.core t.baseIdx 1 0).askTile s.cur.site.core
        { site := s.cur.site, d0 := p.d0, d1 := p.d1, d2 := p.d2, why := 1, shape := { t.shape with rows := rows, cols := cols },
          view := some { base := t.baseIdx, row0 := t.row0 + row0, col0 := t.col0 + col0 } }).finish p latTile []
            (if t.view = none then ops.drop 1 else ops)) := by
  have hcur := (State.quiet_changeRefs s s.cur.site.core t.baseIdx 1 0).cur
  simp only [State.viewOf, hread, hwin, Bool.not_true, Bool.false_eq_true, if_false, Option.isNone_iff_eq_none]
  split
  · rfl
  · rw [hcur]

/-! ## TINFO (R144) -/

theorem State.exec_tinfo {s : State} {p : Par} {what : InfoWhat} {t : Tile} (h : live s s.cur.l t) (hwhat : what ≠ .count) :
    exec (.tinfo p what) s = .next (s.finish p latTile
      [(p.d0, scalarTok s.cur.site (BitVec.ofNat 64 (tileInfo t (s.baseTile s.cur.site.core t)
        ((s.core s.cur.site.core).tile.gen (s.baseTile s.cur.site.core t).idx) what))), (p.d1, carryTok s.cur.site s.cur.l)] [s.cur.l]) := by
  change execTinfo p what s = _
  rw [execTinfo, State.tileFiring_of_live h clean_nil]
  simp only [beq_iff_eq, if_neg hwhat]

/-! ## Elements (R148) -/

theorem State.getItem_of_index {s : State} {p : Par} {part : Part} {t : Tile} {r : Tok} {ops : List Tok} {row col : Nat}
    (hread : isRead r = true) (hidx : indexWord t part p.ty r.val = .ok (row, col))
    (hgrans : s.readGrans s.cur.site.core (s.baseTile s.cur.site.core t) ((s.baseTile s.cur.site.core t).itemGrans part row col) = (false, s)) :
    s.getItem p part t r ops = s.finish p latTile [(p.d0, scalarTok s.cur.site ((s.baseTile s.cur.site.core t).item part row col)),
      (p.d1, carryTok s.cur.site s.cur.l)] ops := by
  simp only [State.getItem, hread, hidx, hgrans, Bool.not_true, Bool.false_eq_true, if_false]

theorem State.putItem_of_index {s : State} {p : Par} {part : Part} {t : Tile} {v : Tok} {ops : List Tok} {row col : Nat}
    (hread : isRead s.cur.r = true) (hval : isRead v = true) (hidx : indexWord t part p.ty s.cur.r.val = .ok (row, col)) :
    s.putItem p part t v ops = (s.modTileIdx s.cur.site.core t.baseIdx fun b => b.setItem part row col v.val).finish p latTile
      (spread p (carryTok s.cur.site s.cur.l)) ops := by
  simp only [State.putItem, hread, hval, hidx, Bool.not_true, Bool.or_self, Bool.false_eq_true, if_false]

/-! ## Commands of the tile unit (R145 to R147) -/

theorem State.fill_of_read {s : State} {p : Par} {t : Tile} {r : Tok} {ops : List Tok} (hread : isRead r = true)
    (hbg : t.shape.bg = .g0) (hty : p.ty = .none ∨ p.ty = t.shape.ty) :
    s.fill p t r ops = s.command p
      { opc := 0xC5, l := s.cur.l, r := r, kind := .tfill (r.val.toNat % 2 ^ tyBits t.shape.ty), step := .queued } := by
  have hform : ((p.ty != .none && p.ty != t.shape.ty) || t.shape.bg != .g0) = false := by
    obtain h | h := hty <;> simp [h, hbg]
  simp only [State.fill, hread, hform, Bool.not_true, Bool.false_eq_true, if_false]

theorem State.commandNew_of_possible {s : State} {p : Par} {e : Eng} {sh : Shape} {ops : List Tok} (h : impossible sh = false) :
    s.commandNew p e sh ops = (s.command p { e with step := .waiting }).askTile s.cur.site.core
      { site := s.cur.site, shape := sh, why := 2, owner := (s.freeRec s.cur.site.core).getD 0 } := by
  simp only [State.commandNew, h, Bool.false_eq_true, if_false]

end Sys2Proof.Machine

namespace Sys2Proof.Claims

open Sys2Proof.Machine

/-- Settles O13: the requests, the grant of a zeroed tile, and what the handle instructions make of a live handle. -/
theorem tilesAndTheirHandles : Obligations.TilesAndTheirHandles := by
  unfold Obligations.TilesAndTheirHandles
  refine ⟨⟨?_, ?_⟩, ?_⟩
  · intro s p acc zero bg rows cols hl sh r u
    have hexec : exec (.talloc p acc zero bg rows cols) s = .next (if impossible sh then s.failing p latTile stExtentBound [s.cur.l]
        else (s.askTile s.cur.site.core r).finish p latTile [] [s.cur.l]) := by
      change execTalloc p acc zero bg rows cols s = _
      rw [execTalloc, State.firing_clean (badInput_of_clean hl)]
    refine ⟨fun hfits => ?_, fun himp => by rw [hexec, if_pos himp]⟩
    rw [hexec, if_neg (Bool.eq_false_iff.1 hfits), State.askTile_eq, show s.queueTile s.cur.site.core r = u from rfl]
    exact ⟨fun h => by rw [if_neg h], fun h => by rw [if_pos h]⟩
  · intro s core acc r i hask hwhy hzero hfits hi hcore new
    obtain ⟨hfifo, hacc⟩ := State.unitOfNew_keeps s core r
    have hunit : ((s.withZeroTile core i r).core core).tile =
        { s.unitOfNew core r with tiles := (s.core core).tile.tiles ++ [new] } :=
      congrArg Core.tile (State.core_modCore_same s core _ hcore)
    refine ⟨s.withZeroTile core i r, ?_, ?_, ?_, ?_, fun k hk => State.core_modCore_other s core k _ hk, rfl, rfl, rfl⟩
    · change execTileAllocationGrant core acc s = _
      rw [execTileAllocationGrant, State.grantTile_zero hask hwhy hzero hfits hi]
    · rw [hunit]
    · rw [hunit, ← hfifo]
    · rw [hunit, ← hacc]
  · intro s p t imm row0 col0 rows cols site l base view told
    refine ⟨fun hkind htile => ?_, fun i hl hi => ?_⟩
    · have hlive : live s l t := ⟨hkind, htile⟩
      have htold {w : InfoWhat} {v : Nat} (hw : w ≠ .count) (hv : ∀ b gen, tileInfo t b gen w = v) : told w v := by
        change exec (.tinfo p w) s = _
        rw [State.exec_tinfo hlive hw, hv]
      refine ⟨?_, ?_, fun hview => ⟨?_, ?_⟩, fun hview => ⟨?_, ?_⟩, ?_, fun _ hr hwin => ?_, fun hwin => ?_⟩
      · change execTdrop p s = _
        rw [execTdrop, State.tileFiring_of_live hlive clean_nil]
      · change execVstat p s = _
        rw [execVstat, State.tileFiring_of_live hlive clean_nil]
      · exact htold (by decide) fun b gen => by simp [tileInfo, hview]
      · exact htold (by decide) fun b gen => by simp [tileInfo, hview]
      · exact htold (by decide) fun b gen => by simp [tileInfo, Option.isSome_iff_ne_none.2 hview]
      · exact htold (by decide) fun b gen => by simp [tileInfo, Option.isSome_iff_ne_none.2 hview]
      · exact htold (by decide) fun b gen => rfl
      · change execTview p s = _
        rw [execTview, State.tileFiring_of_live hlive (clean_of_reads hr), State.viewOf_of_window (isRead_of_reads hr) hwin]
      · change execTviewImm p imm s = _
        rw [execTviewImm, State.tileFiring_of_live hlive clean_nil,
          State.viewOf_of_window (isRead_immTok p.ty imm) ((immTok_val p.ty imm).symm ▸ hwin)]
    · change execTref p s = _
      rw [execTref, State.firing_clean (badInput_of_clean (clean_of_reads hl))]
      simp only [show isRead s.cur.l = true from isRead_of_reads hl, show s.trefIndex s.cur.site s.cur.l.val = .ok i from hi,
        Bool.not_true, Bool.false_eq_true, if_false]
      rfl

/-- Settles O14: the item that the index word names is read, or written. -/
theorem tileElements : Obligations.TileElements := by
  unfold Obligations.TileElements
  intro s p t part imm row col site l r i got put hkind htile
  have hlive : live s l t := ⟨hkind, htile⟩
  refine ⟨fun hgrans => ⟨fun _ hr hidx => ?_, fun hidx => ?_⟩, fun _ hr hidx => ⟨fun _ hc => ?_, ?_⟩⟩
  · change execTget p part s = _
    rw [execTget, State.tileFiring_of_live hlive (clean_of_reads hr), State.getItem_of_index (isRead_of_reads hr) hidx hgrans]
  · change execTgetImm p part imm s = _
    rw [execTgetImm, State.tileFiring_of_live hlive clean_nil,
      State.getItem_of_index (isRead_immTok p.ty imm) ((immTok_val p.ty imm).symm ▸ hidx) hgrans]
  · change execTset p part s = _
    rw [execTset, State.tileFiring_of_live hlive (clean_cons (clean_of_reads hr _ (List.mem_singleton_self _)) (clean_of_reads hc)),
      State.putItem_of_index (isRead_of_reads hr) (isRead_of_reads hc) hidx]
  · change execTsetImm p part imm s = _
    rw [execTsetImm, State.tileFiring_of_live hlive (clean_of_reads hr),
      State.putItem_of_index (isRead_of_reads hr) (isRead_immTok p.ty imm) hidx, immTok_val]

/-- Settles O15: the checks of each command are its hypotheses; what is left is its record and its request. -/
theorem tileCommandsStart : Obligations.TileCommandsStart := by
  unfold Obligations.TileCommandsStart
  intro s p t d imm toacc site l r i new hkind htile
  have hlive : live s l t := ⟨hkind, htile⟩
  have htcopy : exec (.tcopy p toacc) s = .next (
      if toacc && (t.shape.ty != .f32 || t.shape.bg != .g0 || decide (512 < t.shape.rows) || decide (256 < t.shape.cols)) then
        s.failing p latTile stFormat [s.cur.l]
      else s.commandNew p { opc := 0xC6, l := s.cur.l, kind := .tcopy true } { t.shape with acc := toacc } [s.cur.l]) := by
    change execTcopy p toacc s = _
    rw [execTcopy, State.tileCmdFiring_of_live hlive clean_nil]
  refine ⟨fun hbg hty => ⟨fun _ hr => ?_, ?_⟩, fun hacc hfits => ?_, fun hacc hty hbg hrows hcols hfits => ?_, fun hrk hrt hform => ?_,
    fun hbg hfits => ?_⟩
  · change execTfill p s = _
    rw [execTfill, State.tileCmdFiring_of_live hlive (clean_of_reads hr), State.fill_of_read (isRead_of_reads hr) hbg hty]
  · change execTfillImm p imm s = _
    rw [execTfillImm, State.tileCmdFiring_of_live hlive clean_nil, State.fill_of_read (isRead_immTok p.ty imm) hbg hty, immTok_eq]
  · rw [htcopy, hacc, Bool.false_and, if_neg Bool.false_ne_true, State.commandNew_of_possible hfits]
  · have hform : (true && (t.shape.ty != .f32 || t.shape.bg != .g0 || decide (512 < t.shape.rows) || decide (256 < t.shape.cols))) =
        false := by
      simp [hty, hbg, hrows, hcols]
    rw [htcopy, hacc, hform, if_neg Bool.false_ne_true, State.commandNew_of_possible hfits]
  · have hright : live s s.cur.r d := ⟨hrk, hrt⟩
    change execTcopyInto p s = _
    rw [execTcopyInto, State.tileCmdFiring_of_live hlive (clean_cons (ne_of_live hright) clean_nil)]
    simp only [State.handle_of_live hright, hform, Bool.not_true, Bool.false_eq_true, if_false]
    rfl
  · change execTtran p s = _
    rw [execTtran, State.tileCmdFiring_of_live hlive clean_nil, if_neg (by simp [hbg]), State.commandNew_of_possible hfits]

end Sys2Proof.Claims
end


section
/-! PROOFS. Vector runs: VRUN and VRUNS start them, and their events take units, go on and end (R157 to R164). -/

namespace Sys2Proof.Machine

open Sys2Proof.Claims

/-! ## Operands that are live handles -/

section Live

variable {s : State}

theorem State.operandTile_of_live {t : Tok} {x : Tile} (h : live s t x) : s.operandTile s.cur.site.core (some t) = some x := h.2

theorem State.handles_nil (core : Nat) : s.handles core [] = .ok [] := rfl

theorem State.handles_cons {t : Tok} {x : Tile} {ts : List Tok} {xs : List Tile} (h : live s t x)
    (hs : s.handles s.cur.site.core ts = .ok xs) : s.handles s.cur.site.core (t :: ts) = .ok (x :: xs) := by
  rw [State.handles, State.handle_of_live h, hs]

theorem State.cmdFiring_of_clean {p : Par} {lat : Nat} {ops : List Tok} {k : State → State} (h : clean ops) :
    s.cmdFiring p lat ops k = .next (k s) := by
  have hpoison : ¬ (ops.any fun t => t.kind == kPoison) = true := by
    simp only [List.any_eq_true, beq_iff_eq, not_exists, not_and]
    exact fun u hu => (h u hu).1
  rw [State.cmdFiring, if_neg hpoison, State.firing_clean (badInput_of_clean h)]

end Live

/-! ## VRUN (R163) -/

/-- R163: the shape of what a run of `n` rows puts out. -/
def runShape (v : VCfg) (a : Shape) (tb : Option Shape) (n : Nat) : Shape :=
  { ty := v.oty, bg := v.obg, rows := n
    cols := v.sinkLen (pipeLengths a.cols ((tb.map fun t => t.cols).getD a.cols) v.pipes 0) }

section Vrun

variable {s : State} {p : Par} {cfg n : Nat} {a : Tile} {b : Option Tok} {tb : Option Tile} {ops : List Tok} {xs : List Tile}
  (hclean : clean ops) (hops : s.handles s.cur.site.core ops = .ok xs) (ha : live s s.cur.l a)
  (hb : s.operandTile s.cur.site.core b = tb)

include hclean hops ha hb

theorem State.vrun_new (hn : (s.vcfg s.cur.site cfg).shapeOk a.shape (tb.map fun t => t.shape) false 0 = some n) :
    s.vrun p cfg b none ops = .next (
      let v := s.vcfg s.cur.site cfg
      let e : Eng := { opc := 0xCA, l := s.cur.l, r := s.cur.r, c := s.cur.c, kind := .vrun cfg b none }
      if v.oty = .none ∨ n = 0 then s.command p e
      else s.commandNew p e (runShape v a.shape (tb.map fun t => t.shape) n) ops) := by
  rw [State.vrun, State.cmdFiring_of_clean hclean]
  simp only [hops, State.operandTile_of_live ha, Option.getD_some, hb, hn, runShape, Option.map_map, Function.comp_def,
    Bool.or_eq_true, beq_iff_eq]

theorem State.vrun_into {o : Tok} {d : Tile} (hn : (s.vcfg s.cur.site cfg).shapeOk a.shape (tb.map fun t => t.shape) false 0 = some n)
    (ho : live s o d) (hform : sameForm d.shape (runShape (s.vcfg s.cur.site cfg) a.shape (tb.map fun t => t.shape) n) = true) :
    s.vrun p cfg b (some o) ops = .next (s.command p
      { opc := 0xCA, l := s.cur.l, r := s.cur.r, c := s.cur.c, kind := .vrun cfg b (some o) }) := by
  simp only [runShape, Option.map_map, Function.comp_def] at hform
  rw [State.vrun, State.cmdFiring_of_clean hclean]
  simp only [hops, State.operandTile_of_live ha, State.operandTile_of_live ho, Option.getD_some, hb, hn, hform, if_true]

/-! ## VRUNS (R164) -/

/-- R164: the shape of the tile that a row of a stream needs, if its configuration puts one out. -/
def rowNeed (v : VCfg) (a : Shape) (tb : Option Shape) (n : Nat) : Option Shape :=
  if v.oty = .none then none else some (runShape v a tb n)

section Stream

variable (hn : (s.vcfg s.cur.site cfg).shapeOk a.shape (tb.map fun t => t.shape) true 0 = some n)
  (hfits : (s.vcfg s.cur.site cfg).oty = .none ∨
    impossible (runShape (s.vcfg s.cur.site cfg) a.shape (tb.map fun t => t.shape) n) = false)

include hn hfits

theorem State.vrunsFire_open (hnone : s.openStream s.cur.site.core s.cur.site.frame s.cur.site.node = none) :
    s.vrunsFire p cfg b ops = .next (((s.command p
        { opc := 0xCB, l := s.cur.l, r := s.cur.r, kind := .vruns cfg b.isSome, stream := { opened := true } }).askTile s.cur.site.core
          { site := s.cur.site, shape := { ty := .z8, rows := (s.vcfg s.cur.site cfg).pipes.length, cols := 1664 }, why := 2,
            owner := (s.freeRec s.cur.site.core).getD 0 }).addRow s.cur.site.core ((s.freeRec s.cur.site.core).getD 0) s.cur.site s.cur.l b
              (rowNeed (s.vcfg s.cur.site cfg) a.shape (tb.map fun t => t.shape) n)) := by
  have hpass : ¬ ((s.vcfg s.cur.site cfg).oty != .none &&
      impossible (runShape (s.vcfg s.cur.site cfg) a.shape (tb.map fun t => t.shape) n)) = true := by
    obtain h | h := hfits <;> simp [h]
  simp only [runShape, Option.map_map, Function.comp_def] at hpass
  rw [State.vrunsFire]
  simp only [badInput_of_clean hclean, hops, State.operandTile_of_live ha, Option.getD_some, hb, hn, if_neg hpass, hnone, rowNeed,
    runShape, beq_iff_eq, Option.map_map, Function.comp_def]

theorem State.vrunsFire_add {e : Eng} (hsome : s.openStream s.cur.site.core s.cur.site.frame s.cur.site.node = some e) :
    s.vrunsFire p cfg b ops = .next ((s.finish p latTile [] []).addRow s.cur.site.core e.idx s.cur.site s.cur.l b
      (rowNeed (s.vcfg s.cur.site cfg) a.shape (tb.map fun t => t.shape) n)) := by
  have hpass : ¬ ((s.vcfg s.cur.site cfg).oty != .none &&
      impossible (runShape (s.vcfg s.cur.site cfg) a.shape (tb.map fun t => t.shape) n)) = true := by
    obtain h | h := hfits <;> simp [h]
  simp only [runShape, Option.map_map, Function.comp_def] at hpass
  rw [State.vrunsFire]
  simp only [badInput_of_clean hclean, hops, State.operandTile_of_live ha, Option.getD_some, hb, hn, if_neg hpass, hsome, rowNeed,
    runShape, beq_iff_eq, Option.map_map, Function.comp_def]

end Stream

end Vrun

end Sys2Proof.Machine

namespace Sys2Proof.Claims

open Sys2Proof.Machine

/-- Settles O16: a run's checks are the hypotheses; VRUN_COMPLETE does what the step of the record says. -/
theorem vectorRunsStartAndRun : Obligations.VectorRunsStartAndRun := by
  unfold Obligations.VectorRunsStartAndRun
  constructor
  · intro s p cfg a b o n site l r c v e shape runs need opened added ha
    have hclean1 : clean [l] := clean_cons (ne_of_live ha) clean_nil
    have hops1 := State.handles_cons ha (s.handles_nil site.core)
    have two {t : Tok} {x : Tile} (ht : live s t x) :
        clean [l, t] ∧ s.handles site.core [l, t] = .ok [a, x] :=
      ⟨clean_cons (ne_of_live ha) (clean_cons (ne_of_live ht) clean_nil),
        State.handles_cons ha (State.handles_cons ht (s.handles_nil site.core))⟩
    refine ⟨fun hn => ?_, fun hb hn => ?_, fun ho hn hform => ?_, fun hb ho hn hform => ?_, fun hn hfits => ⟨fun hs => ?_, fun x hs => ?_⟩,
      fun hb hn hfits => ⟨fun hs => ?_, fun x hs => ?_⟩⟩
    · change s.vrun p cfg.toNat none none [s.cur.l] = _
      exact State.vrun_new (b := none) (tb := none) hclean1 hops1 ha rfl hn
    · change s.vrun p cfg.toNat (some s.cur.r) none [s.cur.l, s.cur.r] = _
      exact State.vrun_new (tb := some b) (two hb).1 (two hb).2 ha (State.operandTile_of_live hb) hn
    · change s.vrun p cfg.toNat none (some s.cur.r) [s.cur.l, s.cur.r] = _
      exact State.vrun_into (tb := none) (two ho).1 (two ho).2 ha rfl hn ho hform
    · change s.vrun p cfg.toNat (some s.cur.r) (some s.cur.c) [s.cur.l, s.cur.r, s.cur.c] = _
      exact State.vrun_into (tb := some b) (clean_cons (ne_of_live ha) (clean_cons (ne_of_live hb) (clean_cons (ne_of_live ho) clean_nil)))
        (State.handles_cons ha (State.handles_cons hb (State.handles_cons ho (s.handles_nil site.core)))) ha
        (State.operandTile_of_live hb) hn ho hform
    · change s.vrunsFire p cfg.toNat none [s.cur.l] = _
      exact State.vrunsFire_open (b := none) (tb := none) hclean1 hops1 ha rfl hn hfits hs
    · change s.vrunsFire p cfg.toNat none [s.cur.l] = _
      exact State.vrunsFire_add (b := none) (tb := none) hclean1 hops1 ha rfl hn hfits hs
    · change s.vrunsFire p cfg.toNat (some s.cur.r) [s.cur.l, s.cur.r] = _
      exact State.vrunsFire_open (tb := some b) (two hb).1 (two hb).2 ha (State.operandTile_of_live hb) hn hfits hs
    · change s.vrunsFire p cfg.toNat (some s.cur.r) [s.cur.l, s.cur.r] = _
      exact State.vrunsFire_add (tb := some b) (two hb).1 (two hb).2 ha (State.operandTile_of_live hb) hn hfits hs
  · intro s core i cfg e b out hkind
    refine ⟨fun hfirst => ?_, fun he => ?_⟩
    · change execVrunStart core s = _
      rw [execVrunStart]
      simp only [hfirst, hkind]
    · have hexec : exec (.vrunComplete core i) s = execVrunComplete core i s := rfl
      rw [hexec, execVrunComplete]
      refine ⟨fun hstep hruns => ?_, fun hstep hruns => ?_, fun hne hne' => ?_⟩
      · simp only [he, hruns, hkind, hstep, Bool.not_true, Bool.false_eq_true, if_false]
      · simp only [he, hruns, hkind, hstep, Bool.not_true, Bool.false_eq_true, if_false]
      · simp only [he, hkind]
        split
        · rfl
        · split <;> simp_all only [reduceCtorEq, ne_eq, not_true]

end Sys2Proof.Claims
end


section
/-! PROOFS. Weight slots and the matrix engine: loads, matrix commands, rows, and the ends of engine commands (R176 to R198). -/

namespace Sys2Proof.Machine

open Sys2Proof.Claims

/-! ## A started command is among the engine's records (R138) -/

theorem State.core_nextTag (s : State) (ctx core n k : Nat) : (s.nextTag ctx core n).2.core k = s.core k := by
  unfold State.nextTag
  split <;> rfl

theorem State.command_recs {s : State} {p : Par} {e : Eng} (h : s.cur.site.core < s.cores.length) :
    ∃ x : Eng, x.idx = (s.freeRec s.cur.site.core).getD 0 ∧
      ((s.command p e).core s.cur.site.core).eng.recs = (s.core s.cur.site.core).eng.recs ++ [x] := by
  have htag := State.core_nextTag s s.cur.site.ctx s.cur.site.core e.tagN
  have hlen : s.cur.site.core < (s.nextTag s.cur.site.ctx s.cur.site.core e.tagN).2.cores.length := by
    unfold State.nextTag
    split <;> exact h
  generalize hu : s.nextTag s.cur.site.ctx s.cur.site.core e.tagN = u at htag hlen
  have hfree (c : Nat) : u.2.freeRec c = s.freeRec c := by simp only [State.freeRec, htag]
  unfold State.command
  simp only [hu, hfree, htag]
  split
  · rw [(State.sameEngines_traceRec ..).1, State.perfCtx_core, State.modEng, State.core_modCore_same _ _ _ hlen, htag]
    exact ⟨_, rfl, rfl⟩
  · rw [State.perfCtx_core, State.modEng, State.core_modCore_same _ _ _ hlen, htag]
    exact ⟨_, rfl, rfl⟩

theorem State.eng?_command {s : State} {p : Par} {e : Eng} (h : s.cur.site.core < s.cores.length) :
    ∃ x, (s.command p e).eng? s.cur.site.core ((s.freeRec s.cur.site.core).getD 0) = some x := by
  obtain ⟨x, hidx, hrecs⟩ := State.command_recs (p := p) (e := e) h
  refine Option.isSome_iff_exists.1 ?_
  rw [State.eng?, hrecs, List.find?_isSome]
  exact ⟨x, List.mem_append_right _ (List.mem_singleton_self x), beq_iff_eq.2 hidx⟩

/-! ## Weight slots (R179 to R186) -/

theorem State.eng?_modPw (s : State) (core i k c : Nat) (f : WSlot → WSlot) : (s.modPw core i f).eng? c k = s.eng? c k := by
  by_cases hc : c = core
  · subst hc
    rw [State.eng?, State.modPw, State.eng?]
    obtain ⟨-, h⟩ | ⟨h, h'⟩ := State.modEng_eng s c fun g => { g with pw := g.pw.modify i f }
    · rw [h]
    · rw [h, h']
  · rw [State.eng?, State.modPw, State.modEng, State.core_modCore_other _ _ _ _ hc, State.eng?]

theorem WSlot.settle_keeps (w : WSlot) (n : Nat) :
    (w.settle n).key = w.key ∧ (w.settle n).elems = w.elems ∧ (w.settle n).scales = w.scales ∧ (w.settle n).bound = w.bound ∧
      (w.state = .ready → (w.settle n).state = .ready ∨ (w.settle n).state = .idle) := by
  unfold WSlot.settle
  split
  · split
    · exact ⟨rfl, rfl, rfl, rfl, fun _ => .inr rfl⟩
    · next h => exact ⟨rfl, rfl, rfl, rfl, fun h' => absurd (h'.symm.trans h) (by decide)⟩
    · exact ⟨rfl, rfl, rfl, rfl, .inl⟩
  · exact ⟨rfl, rfl, rfl, rfl, .inl⟩

theorem Engines.modSlots_get {g : Engines} {i : Nat} {w : WSlot} (f : Nat → WSlot → WSlot) (h : g.pw[i]? = some w) :
    (g.modSlots f).pw[i]? = some ((f i w).settle g.idleSeq) := by
  simp only [Engines.modSlots, List.getElem?_map, getElem?_enumL, h, Option.map_some]

/-- A WLD that has waited for a slot's load ends. -/
def Eng.endLoad (slot : Nat) (x : Eng) : Eng :=
  if x.loads && x.slots.any (fun y => y.1 == slot) then { x with step := .finishing, slots := [], moves := [] } else x

/-- A slot, of which `slot` was being loaded, after the load. -/
def WSlot.fill (slot : Nat) (rows : List (List Nat)) (scales : List Byte) (i : Nat) (w : WSlot) : WSlot :=
  if i == slot && w.state == .loading then
    let w := { w with state := .ready, elems := rows, scales := scales, ue := false, ce := false }
    { w with sums := if exactMode w.key.ty then w.columnSums else [] }
  else w

/-- The engines whose WLDs that wait for a slot's load have ended, and whose slot holds what was loaded. -/
def Engines.loaded (g : Engines) (slot : Nat) (rows : List (List Nat)) (scales : List Byte) : Engines :=
  ({ g with recs := g.recs.map (Eng.endLoad slot) } : Engines).modSlots (WSlot.fill slot rows scales)

theorem State.modEng_modEng (s : State) (core : Nat) (f g : Engines → Engines) :
    (s.modEng core f).modEng core g = s.modEng core fun x => g (f x) := by
  simp only [State.modEng, State.modCore, List.modify_modify_eq]
  rfl

theorem State.loaded_eq (s : State) (core slot : Nat) (rows : List (List Nat)) (scales : List Byte) :
    s.loaded core slot rows scales = (s.modEng core fun g => g.loaded slot rows scales).promote core :=
  congrArg (fun u => State.promote u core) (State.modEng_modEng ..)

theorem Engines.loaded_slot {g : Engines} {slot : Nat} {w : WSlot} (rows : List (List Nat)) (scales : List Byte)
    (h : g.pw[slot]? = some w) (hw : w.state = .loading) :
    ∃ x, (g.loaded slot rows scales).pw[slot]? = some x ∧ (x.state = .ready ∨ x.state = .idle) ∧ x.key = w.key ∧ x.elems = rows ∧
      x.scales = scales ∧ x.bound = w.bound := by
  have hready : (slot == slot && w.state == .loading) = true := by simp [hw]
  refine ⟨_, Engines.modSlots_get _ h, ?_⟩
  rw [WSlot.fill, if_pos hready]
  obtain ⟨hkey, helems, hscales, hbound, hstate⟩ := WSlot.settle_keeps
    (let w : WSlot := { w with state := .ready, elems := rows, scales := scales, ue := false, ce := false }
     { w with sums := if exactMode w.key.ty then w.columnSums else [] }) g.idleSeq
  exact ⟨hstate rfl, hkey, helems, hscales, hbound⟩

theorem Engines.loaded_recs (g : Engines) (slot : Nat) (rows : List (List Nat)) (scales : List Byte) :
    ∀ x ∈ (g.loaded slot rows scales).recs, x.loads = true → ∀ y ∈ x.slots, y.1 ≠ slot := by
  intro x hx hloads y hy heq
  obtain ⟨z, -, rfl⟩ := List.mem_map.1 hx
  unfold Eng.endLoad at hloads hy
  by_cases hz : (z.loads && z.slots.any fun y => y.1 == slot) = true
  · rw [if_pos hz] at hy
    exact absurd hy List.not_mem_nil
  · rw [if_neg hz] at hloads hy
    exact hz (by rw [hloads, Bool.true_and]; exact List.any_eq_true.2 ⟨y, hy, beq_iff_eq.2 heq⟩)

end Sys2Proof.Machine

namespace Sys2Proof.Claims

open Sys2Proof.Machine

/-- Settles O17: each event does what the state of its command or its slot says. -/
theorem weightSlots : Obligations.WeightSlots := by
  unfold Obligations.WeightSlots
  refine ⟨?_, ?_, ?_⟩
  · intro s p comp sx bg ws gen key scale hl site i u
    refine ⟨?_, ?_, fun hsrc hcore => ?_⟩
    · change execWfree p ws s = _
      rw [execWfree, State.firing_clean (badInput_of_clean hl)]
    · change execWinfo p ws s = _
      rw [execWinfo, State.firing_clean (badInput_of_clean hl)]
    · obtain ⟨e, he⟩ := State.eng?_command (p := p) (e := { opc := 0x100, l := s.cur.l, kind := .wld ws.toNat key scale }) hcore
      refine ⟨e, he, ?_⟩
      change execWld p comp sx bg ws gen s = _
      rw [execWld, State.firing_clean (badInput_of_clean hl)]
      simp only [show s.wldSource s.cur.site s.cur.l p.ty bg comp sx.toNat gen.toNat = .ok (key, scale) from hsrc, he]
      rfl
  · intro s t core i ws rest e key scale hfifo he hkind hatt
    change execWeightSlotGrant core s = _
    rw [execWeightSlotGrant]
    simp only [hfifo, he, hkind, hatt]
  · intro s core slot ws w e key scale hpw hloading he hruns hkind
    have hgo : (w.state != .loading || !s.engRuns e) = false := by simp [hloading, hruns]
    have hexec : exec (.wldLoadComplete core slot) s = execWldLoadComplete core slot s := rfl
    rw [hexec, execWldLoadComplete]
    simp only [hpw, he, hgo, hkind, Bool.false_eq_true, if_false, beq_iff_eq, bne_iff_ne]
    refine ⟨fun hstep => by rw [if_pos hstep], fun hstep hfail => by rw [if_neg hstep, if_pos hfail], fun hstep hfail hread => ?_,
      fun hstep hfail hread => ⟨fun st hdec => ?_, fun elems scales hdec hcore => ?_⟩⟩
    · simp only [if_neg hstep, hfail, hread, ne_eq, not_true, if_false, Bool.not_false, if_true]
    · simp only [if_neg hstep, hfail, hread, hdec, ne_eq, not_true, if_false, Bool.not_true, Bool.false_eq_true]
    · refine ⟨s.modEng core fun g => g.loaded slot elems scales, ?_, ?_, ?_, rfl, rfl⟩
      · simp only [if_neg hstep, hfail, hread, hdec, ne_eq, not_true, if_false, Bool.not_true, Bool.false_eq_true,
          State.loaded_eq]
      · rw [State.modEng, State.core_modCore_same _ _ _ hcore]
        exact Engines.loaded_slot elems scales hpw hloading
      · rw [State.modEng, State.core_modCore_same _ _ _ hcore]
        exact Engines.loaded_recs _ slot elems scales

end Sys2Proof.Claims
end


section
/-! PROOFS. Matrix commands start (R187 to R196); their rows issue and commit, and engine commands end (R138, R182 to R193). -/

namespace Sys2Proof.Machine

open Sys2Proof.Claims

/-! ## Drains (R191) -/

section Drain

variable {s : State} {p : Par} {t : Tile}

theorem State.drainTo_of_read {scale : Tok} {mode : Mode} {sat clr : Bool} {oty : Ty} {target : Dest} {ops : List Tok}
    (h : isRead scale = true) :
    s.drainTo p t scale mode sat clr oty target ops = s.commandNew p
      { opc := 0x104, l := s.cur.l, r := s.cur.r, c := s.cur.c, total := t.shape.rows,
        kind := .adrain (tensorScale p.ty scale.val) mode sat clr oty target }
      { ty := oty, rows := t.shape.rows, cols := t.shape.cols } ops := by
  rw [State.drainTo, h, Bool.not_true, if_neg Bool.false_ne_true]

end Drain

/-! ## Rows of an MMAS stream (R190) -/

theorem State.modPw_cur (s : State) (core : Nat) (l : List (Nat × WKey)) (f : WSlot → WSlot) :
    (l.foldl (fun s y => s.modPw core y.1 f) s).cur = s.cur := by
  induction l generalizing s with
  | nil => rfl
  | cons y l ih => exact ih _

theorem State.addMmas_eq (u : State) (core idx : Nat) (x : MmasRow) :
    u.addMmas core idx x = ((x.slots.foldl (fun s y => s.modPw core y.1 fun w => { w with holds := w.holds + 1 }) u).modEng core
      fun g => { g with seq := (u.core core).eng.seq + 1 }).modEngRec core idx fun e =>
        { e with stepped := e.stepped || (u.cur.site.step && e.stream.mrows.isEmpty)
                 stream := { e.stream with mrows := e.stream.mrows ++ [{ x with seq := (u.core core).eng.seq }] } } := by
  simp only [State.addMmas, State.modPw_cur]

section Mmas

variable {s : State} {p : Par} {ws : Nat} {mode : Mode} {sat : Bool} {oty : Ty} {r : Option Tok} {scale : Tok} {ops : List Tok}
  {row : MmasRow} (hclean : clean ops) (hrow : s.mmasRow ws p.ty s.cur.l scale = .ok (row.slots, row.t))
  (heq : row = { l := s.cur.l, r := r, slots := row.slots, t := row.t })

include hclean hrow heq

theorem State.mmasFire_open (h : s.openStream s.cur.site.core s.cur.site.frame s.cur.site.node = none) :
    s.mmasFire p ws mode sat oty r scale ops = .next (((s.command p
        { opc := 0x103, l := s.cur.l, r := s.cur.r, kind := .mmas mode sat oty, stream := { opened := true } }).askTile s.cur.site.core
          { site := s.cur.site, shape := { ty := .f32, rows := 1, cols := 256, acc := true }, why := 2,
            owner := (s.freeRec s.cur.site.core).getD 0 }).addMmas s.cur.site.core ((s.freeRec s.cur.site.core).getD 0) row) := by
  rw [State.mmasFire]
  simp only [badInput_of_clean hclean, hrow, ← heq, h]

theorem State.mmasFire_add {e : Eng} (h : s.openStream s.cur.site.core s.cur.site.frame s.cur.site.node = some e) :
    s.mmasFire p ws mode sat oty r scale ops = .next ((s.finish p latTile [] []).addMmas s.cur.site.core e.idx row) := by
  rw [State.mmasFire]
  simp only [badInput_of_clean hclean, hrow, ← heq, h]

end Mmas

/-! ## Rows of the engine (R188 to R193) -/

theorem State.core_countErrs (s : State) (d n m k : Nat) : (s.countErrs d n m).core k = s.core k := by
  have hce : ∀ (l : List Nat) (s : State), (l.foldl (fun s _ => s.countCe d) s).core k = s.core k := by
    intro l
    induction l with
    | nil => exact fun _ => rfl
    | cons _ l ih => exact fun s => ih _
  have hue : ∀ (l : List Nat) (s : State), (l.foldl (fun s _ => s.countUe d) s).core k = s.core k := by
    intro l
    induction l with
    | nil => exact fun _ => rfl
    | cons _ l ih => exact fun s => ih _
  exact (hue ..).trans (hce ..)

/-- What holds of an image holds of the image of a member. -/
theorem exists_image_iff {α β : Type} {f : α → β} {p : α → Prop} {q : β → Prop} :
    (∃ b, (∃ a, p a ∧ f a = b) ∧ q b) ↔ ∃ a, p a ∧ q (f a) :=
  ⟨fun ⟨_, ⟨a, ha, e⟩, hq⟩ => ⟨a, ha, e ▸ hq⟩, fun ⟨a, ha, hq⟩ => ⟨f a, ⟨a, ha, rfl⟩, hq⟩⟩

/-- The physical slots that a command's passes use. -/
def Engines.helds (g : Engines) (slots : List (Nat × WKey)) : List WSlot := (enumL slots).map fun x => g.held slots x.1

/-- What counts and strikes a row that meets no new error in its slots. -/
def State.rowMet (s : State) (core : Nat) (slots : List (Nat × WKey)) (checked : Bool) : Nat × State :=
  (s.countErrs (dieOf core) (((s.core core).eng.helds slots).filter fun w => w.ce).length 0).strikeRow core checked

theorem State.issueRow_of_clean {s : State} {core : Nat} {slots : List (Nat × WKey)} {checked : Bool}
    (hue : ∀ w ∈ (s.core core).eng.helds slots, w.ue = false) :
    s.issueRow core slots checked =
      if (s.rowMet core slots checked).1 = 0 ∧ ∃ w ∈ (s.core core).eng.helds slots, w.state = .failed then
        (2, (s.rowMet core slots checked).2) else s.rowMet core slots checked := by
  have hnone : ((enumL slots).filter fun x => ((s.core core).eng.held slots x.1).ue) = [] :=
    List.filter_eq_nil_iff.2 fun x hx => by rw [hue _ (List.mem_map_of_mem hx)]; exact Bool.false_ne_true
  have hcount : ((enumL slots).filter fun x => ((s.core core).eng.held slots x.1).ce).length =
      (((s.core core).eng.helds slots).filter fun w => w.ce).length := by
    rw [Engines.helds, List.filter_map, List.length_map]
    rfl
  unfold State.issueRow
  simp only [hnone, List.isEmpty_nil, if_true, hcount, State.core_countErrs, Bool.and_eq_true, beq_iff_eq, List.any_eq_true]
  simp only [Engines.helds, List.mem_map, exists_image_iff]
  rfl

/-- R192: the row of a clear. -/
theorem Tile.zeroRow_eq (b t : Tile) (r : Nat) : b.zeroRow t r =
    (List.range t.shape.cols).foldl (fun b c => b.setElem (t.row0 + r) (t.col0 + c) 0)
      (if t.col0 = 0 ∧ t.shape.cols = b.shape.cols then b.mend (rowGrans b.shape (t.row0 + r) 0 b.shape.cols) else b) := by
  simp only [Tile.zeroRow, Bool.and_eq_true, beq_iff_eq]

section Issue

variable {s : State} {core : Nat} {e : Eng} (hgo : s.rowThrottled core = false)
  (hfirst : (((s.countRow core).core core).eng.matrix.filterMap fun i => (s.countRow core).eng? core i).find?
    (fun e => decide (e.row < e.total) && (s.countRow core).engRuns e) = some e)

include hgo hfirst

/-- R187, R193: an MMA's next row enters the write buffer where that has room. -/
theorem exec_mmaRowIssue_mma {a c k : Nat} {z : Bool} {h : Option Nat} (hkind : e.kind = .mma a c k z h) :
    exec (.mmaRowIssue core) s =
      if 32 ≤ ((s.countRow core).core core).eng.wbuf.length then .next (s.countRow core)
      else
        let x := (s.countRow core).issueRow core e.slots ((s.countRow core).rowChecked core e.l e.row k e.slots)
        .next ((x.2.perfCore core 0x05 1).modEng core fun g =>
          { g with wbuf := g.wbuf ++ [e.idx]
                   recs := g.recs.map fun y => if y.idx == e.idx then
                     { y with inflight := y.inflight ++ [(y.row, x.1)], row := y.row + 1 } else y }) := by
  change execMmaRowIssue core s = _
  rw [execMmaRowIssue, if_neg (Bool.eq_false_iff.1 hgo)]
  simp only [hfirst, hkind]

theorem exec_mmaRowIssue_aclr {t : Tile} (hkind : e.kind = .aclr) (ht : (s.countRow core).tileOf? core e.l.val = some t) :
    exec (.mmaRowIssue core) s = .next (((s.countRow core).modTileIdx core t.baseIdx fun b => b.zeroRow t e.row).modEngRec core e.idx
      fun x => { x with row := x.row + 1, step := if x.row + 1 == x.total then .finishing else x.step }) := by
  change execMmaRowIssue core s = _
  rw [execMmaRowIssue, if_neg (Bool.eq_false_iff.1 hgo)]
  simp only [hfirst, hkind, ht]

theorem exec_mmaRowIssue_adrain {x : Nat} {m : Mode} {sat clr : Bool} {oty : Ty} {d : Dest} (hkind : e.kind = .adrain x m sat clr oty d) :
    exec (.mmaRowIssue core) s = .next ((s.countRow core).drainRow core e x m sat clr oty) := by
  change execMmaRowIssue core s = _
  rw [execMmaRowIssue, if_neg (Bool.eq_false_iff.1 hgo)]
  simp only [hfirst, hkind]

end Issue

/-! ## The end of a command (R138, R182 to R192) -/

section Complete

variable {s : State} {core i : Nat} {e : Eng} (he : s.eng? core i = some e) (hruns : s.engRuns e = true)

include he hruns

theorem exec_engineCommandComplete_tcopy {n : Bool} (hkind : e.kind = .tcopy n) (hout : n = true → e.out.isSome = true) :
    exec (.engineCommandComplete core i) s = .next (s.runTileCommand core e) := by
  have hgo : (n && e.out.isNone) = false := by
    cases n
    · rfl
    · rw [Bool.true_and, Option.isNone_eq_false_iff]; exact hout rfl
  change execEngineCommandComplete core i s = _
  simp only [execEngineCommandComplete, he, hruns, hkind, hgo, Bool.not_true, Bool.false_eq_true, if_false]

theorem exec_engineCommandComplete_ttran (hkind : e.kind = .ttran) (hout : e.out.isSome = true) :
    exec (.engineCommandComplete core i) s = .next (s.runTileCommand core e) := by
  change execEngineCommandComplete core i s = _
  simp only [execEngineCommandComplete, he, hruns, hkind, Option.isNone_eq_false_iff.2 hout, Bool.not_true, Bool.false_eq_true, if_false]

theorem exec_engineCommandComplete_wld {ws : Nat} {k : WKey} {x : Option Word} (hkind : e.kind = .wld ws k x) (hstep : e.step = .finishing) :
    exec (.engineCommandComplete core i) s = .next (s.endWld core e ws) := by
  change execEngineCommandComplete core i s = _
  simp only [execEngineCommandComplete, he, hruns, hkind, hstep, Bool.not_true, Bool.false_eq_true, if_false, beq_self_eq_true, if_true]

theorem exec_engineCommandComplete_mma {a c k : Nat} {z : Bool} {h : Option Nat} (hkind : e.kind = .mma a c k z h)
    (hstep : e.step = .finishing) : exec (.engineCommandComplete core i) s = .next (s.endMma core e) := by
  change execEngineCommandComplete core i s = _
  simp only [execEngineCommandComplete, he, hruns, hkind, hstep, Bool.not_true, Bool.false_eq_true, if_false, beq_self_eq_true, if_true]

theorem exec_engineCommandComplete_adrain {x : Nat} {m : Mode} {sat clr : Bool} {oty : Ty} {d : Dest}
    (hkind : e.kind = .adrain x m sat clr oty d) (hstep : e.step = .finishing) :
    exec (.engineCommandComplete core i) s = .next (s.endDrain core e d) := by
  change execEngineCommandComplete core i s = _
  simp only [execEngineCommandComplete, he, hruns, hkind, hstep, Bool.not_true, Bool.false_eq_true, if_false, beq_self_eq_true, if_true]

theorem exec_engineCommandComplete_aclr {t : Tile} (hkind : e.kind = .aclr) (hstep : e.step = .finishing)
    (ht : s.tileOf? core e.l.val = some t) :
    exec (.engineCommandComplete core i) s = .next ((s.modTileIdx core t.idx fun t => { t with mstat := {} }).endCommand core e 0
      (e.spread (carryTok e.site e.l)) [e.l]) := by
  change execEngineCommandComplete core i s = _
  simp only [execEngineCommandComplete, he, hruns, hkind, hstep, ht, Bool.not_true, Bool.false_eq_true, if_false, bne_self_eq_false]

end Complete

end Sys2Proof.Machine

namespace Sys2Proof.Claims

open Sys2Proof.Machine

/-- Settles O18: what each matrix instruction checks is its hypothesis; what is left is its command, or its row. -/
theorem matrixCommandsStart : Obligations.MatrixCommandsStart := by
  unfold Obligations.MatrixCommandsStart
  intro s p pan zacc sat clr acol ws arow koff hold mode oty tbl imm a acc i w site l r c im idx drain
  refine ⟨fun hcore ha hacc hna hisacc hslot hne hmode hrows hcols => ?_, fun hacc hisacc => ?_, fun row => ?_⟩
  · intro u
    obtain ⟨e, he⟩ := State.eng?_command (p := p)
      (e := { opc := 0x102, l := s.cur.l, r := s.cur.r, slots := [(i, w.key)], total := a.shape.rows,
              kind := .mma arow.toNat acol.toNat koff.toNat zacc (if pan && !s.cur.site.step then some hold.toNat else none) }) hcore
    have hu : u.eng? site.core idx = some e := (State.eng?_modPw ..).trans he
    refine ⟨e, hu, ?_⟩
    have hform : (w.state == .empty || a.shape.acc || !acc.shape.acc || !modeOk a.shape.ty a.shape.bg w.key.ty w.key.bg) = false := by
      simp [hne, hna, hisacc, hmode]
    have hbound : ¬ (acc.shape.rows < arow.toNat + a.shape.rows || acc.shape.cols < acol.toNat + slotN w.key.ty) = true := by
      simp [hrows, hcols]
    change execMma p pan zacc acol ws arow koff hold s = _
    rw [execMma]
    simp only [show badInput [s.cur.l] = none from badInput_of_clean (clean_cons (ne_of_live ha) clean_nil),
      show badInput [s.cur.r] = none from badInput_of_clean (clean_cons (ne_of_live hacc) clean_nil),
      show s.handle s.cur.site.core s.cur.l = .ok a from State.handle_of_live ha,
      show s.handle s.cur.site.core s.cur.r = .ok acc from State.handle_of_live hacc,
      show (s.core s.cur.site.core).eng.slotOf s.cur.site.ctx ws.toNat = some (i, w) from hslot, hform, if_neg Bool.false_ne_true, if_neg hbound,
      State.eng?_modPw, he]
    rfl
  · have hnot : ¬ (!acc.shape.acc) = true := by simp [hisacc]
    refine ⟨?_, ?_, fun _ hr => ?_, ?_, fun _ hrc => ?_, fun _ hr => ?_⟩
    · change execAclr p s = _
      rw [execAclr, State.tileCmdFiring_of_live hacc clean_nil, if_neg hnot]
    · change execMstat p 0 false s = _
      rw [execMstat, State.tileFiring_of_live hacc clean_nil, if_neg hnot]
      rfl
    · change execAdrain p mode sat clr oty s = _
      rw [execAdrain, State.tileFiring_of_live hacc (clean_of_reads hr), if_neg hnot, State.drainTo_of_read (isRead_of_reads hr)]
    · change execAdrainImm p mode sat clr oty imm s = _
      rw [execAdrainImm, State.tileFiring_of_live hacc clean_nil, if_neg hnot, State.drainTo_of_read (isRead_immTok p.ty imm), immTok_eq]
    · have hr : isRead s.cur.r = true := isRead_of_reads fun t ht => hrc t (by simp_all [r])
      have hc : isRead s.cur.c = true := isRead_of_reads fun t ht => hrc t (by simp_all [c])
      change execAdrainSteer p mode sat clr tbl oty s = _
      rw [execAdrainSteer, State.tileFiring_of_live hacc (clean_of_reads hrc)]
      simp only [if_neg hnot, hr, Bool.not_true, if_neg Bool.false_ne_true, State.drainTo_of_read hc]
      rfl
    · change execAdrainSteerImm p mode sat clr tbl oty imm s = _
      rw [execAdrainSteerImm, State.tileFiring_of_live hacc (clean_of_reads hr)]
      simp only [if_neg hnot, show isRead s.cur.r = true from isRead_of_reads hr, Bool.not_true, if_neg Bool.false_ne_true,
        State.drainTo_of_read (isRead_immTok p.ty imm)]
      rw [immTok_eq]
  · intro u joins streams
    have hjoins (u : State) (idx : Nat) : Host.Outcome.next (u.addMmas site.core idx row) = joins u idx :=
      congrArg _ (State.addMmas_eq u site.core idx row)
    refine ⟨fun hclean hrow heq => ⟨fun hs => ?_, fun x hs => ?_⟩, fun hclean hrow heq => ⟨fun hs => ?_, fun x hs => ?_⟩⟩
    · change s.mmasFire p ws.toNat mode sat oty (some s.cur.r) s.cur.r [s.cur.l, s.cur.r] = _
      exact (State.mmasFire_open hclean hrow heq hs).trans (hjoins ..)
    · change s.mmasFire p ws.toNat mode sat oty (some s.cur.r) s.cur.r [s.cur.l, s.cur.r] = _
      exact (State.mmasFire_add hclean hrow heq hs).trans (hjoins ..)
    · change s.mmasFire p ws.toNat mode sat oty none (immTok p.ty imm) [s.cur.l] = _
      rw [immTok_eq]
      exact (State.mmasFire_open hclean hrow heq hs).trans (hjoins ..)
    · change s.mmasFire p ws.toNat mode sat oty none (immTok p.ty imm) [s.cur.l] = _
      rw [immTok_eq]
      exact (State.mmasFire_add hclean hrow heq hs).trans (hjoins ..)

/-- Settles O20: the row that issues or commits is the first of the engine's, and a command that has nothing left ends. -/
theorem matrixRowsAndEngineCommands : Obligations.MatrixRowsAndEngineCommands := by
  unfold Obligations.MatrixRowsAndEngineCommands
  refine ⟨fun s core e => ⟨fun hthrottled => ?_, ?_, ?_, ?_⟩, fun s core i e he hruns => ?_⟩
  · change execMmaRowIssue core s = _
    rw [execMmaRowIssue, if_pos hthrottled]
  · intro n g hgo hfirst
    refine ⟨?_, fun t hkind ht => ?_, ?_⟩
    · intro a c k z h hkind issues held seen struck
      have hexec := exec_mmaRowIssue_mma hgo hfirst hkind
      refine ⟨fun hfull => ?_, fun hroom hclean => ?_, fun hroom hue hfailed => ?_⟩
      · rw [hexec, if_pos hfull]
      · rw [hexec, if_neg (Nat.not_le.2 hroom), State.issueRow_of_clean fun w hw => (hclean w hw).1,
          if_neg fun ⟨_, w, hw, hf⟩ => (hclean w hw).2 hf]
        rfl
      · rw [hexec, if_neg (Nat.not_le.2 hroom), State.issueRow_of_clean hue]
        by_cases hz : struck.1 = 0
        · rw [if_pos ⟨hz, hfailed⟩, if_pos hz]
          rfl
        · rw [if_neg fun h => hz h.1, if_neg hz]
          rfl
    · rw [exec_mmaRowIssue_aclr hgo hfirst hkind ht]
      simp only [Tile.zeroRow_eq]
      rfl
    · intro t o x mode sat oty d hkind hout ht b read
      have hexec := exec_mmaRowIssue_adrain hgo hfirst hkind
      refine ⟨fun hread => ?_, fun hread => ?_⟩
      · rw [hexec, State.drainRow]
        simp only [show (s.countRow core).tileOf? core e.l.val = some t from ht, hout,
          show ((s.countRow core).readRow core ((s.countRow core).baseTile core t) (t.row0 + e.row)).1 = false from hread,
          Bool.false_eq_true, if_false, beq_iff_eq]
        rfl
      · rw [hexec, State.drainRow]
        simp only [show (s.countRow core).tileOf? core e.l.val = some t from ht, hout,
          show ((s.countRow core).readRow core ((s.countRow core).baseTile core t) (t.row0 + e.row)).1 = true from hread, if_true]
        rfl
  · intro i a c k rest z h hbuf u he hkind row
    change execMmaRowCommit core s = _
    rw [execMmaRowCommit]
    simp only [show (s.core core).eng.wbuf = i :: rest from hbuf,
      show (s.modEng core fun g => { g with wbuf := rest }).eng? core i = some e from he, hkind]
    rfl
  · intro hbuf
    change execMmaRowCommit core s = _
    rw [execMmaRowCommit]
    simp only [show (s.core core).eng.wbuf = [] from hbuf]
  · refine ⟨fun v hkind => ?_, fun n hkind hout => exec_engineCommandComplete_tcopy he hruns hkind hout,
      fun hkind hout => exec_engineCommandComplete_ttran he hruns hkind hout, fun hstep =>
        ⟨fun ws k x hkind hfail => ?_, fun a c k z h hkind hfail => ?_, fun x m z c ty d o hkind hfail hout => ?_,
          fun t hkind ht => exec_engineCommandComplete_aclr he hruns hkind hstep ht⟩⟩
    · change execEngineCommandComplete core i s = _
      simp only [execEngineCommandComplete, he, hruns, hkind, Bool.not_true, Bool.false_eq_true, if_false]
    · refine (exec_engineCommandComplete_wld he hruns hkind hstep).trans ?_
      simp only [State.endWld, hfail, beq_self_eq_true, if_true]
      rfl
    · refine (exec_engineCommandComplete_mma he hruns hkind hstep).trans ?_
      simp only [State.endMma, hfail, beq_self_eq_true, if_true]
    · refine (exec_engineCommandComplete_adrain he hruns hkind hstep).trans ?_
      simp only [State.endDrain, hout, hfail, bne_self_eq_false, Bool.false_eq_true, if_false]

end Sys2Proof.Claims
end


section
/-! PROOFS. Copy commands start and complete, and DRAIN waits for them (R211 to R217). -/

namespace Sys2Proof.Machine

open Sys2Proof.Claims

/-! ## Firings (R212 to R216) -/

section Fire

variable {s : State} {p : Par} {opc recd : Nat} {ops : List Tok}

/-- The command of a copy firing that has the completion word `place` and the status `st`. -/
def State.copyCommand (s : State) (opc recd : Nat) (place : Option Piece) (st : Nat) : Eng :=
  let pat := s.pattern s.cur.site recd
  let e : Eng := { site := s.cur.site, opc := opc, l := s.cur.l, r := s.cur.r, kind := .copy, step := .queued, fail := st, cword := place }
  let total := if st = 0 then s.runCount e pat else 0
  { e with total := total, tagN := s.writeCount e pat total }

theorem State.startCopy_of_place {place : Option Piece} {st : Nat} (hplace : s.cwordPlace s.cur.site (s.pattern s.cur.site recd) = .ok place)
    (hst : st = 0 ∨ (s.pattern s.cur.site recd).cwen = true) :
    s.startCopy p opc recd st ops = (s.command p (s.copyCommand opc recd place st)).copyPump s.cur.site.core := by
  have hgo : (st != 0 && !(s.pattern s.cur.site recd).cwen) = false := by
    obtain h | h := hst <;> simp [h]
  simp only [State.startCopy, hplace, hgo, Bool.false_eq_true, if_false, State.copyCommand, beq_iff_eq]

theorem State.copyFiring_of_clean {k : State → Nat → State} (h : clean ops) : s.copyFiring p opc recd ops k = .next (k s 0) := by
  have hpoison : ¬ (ops.any fun t => t.kind == kPoison) = true := by
    simp only [List.any_eq_true, beq_iff_eq, not_exists, not_and]
    exact fun u hu => (h u hu).1
  rw [State.copyFiring, if_neg hpoison, State.firing_clean (badInput_of_clean h)]

theorem State.copyFiring_of_poison {t : Tok} {k : State → Nat → State} (h : t.kind = kPoison) :
    s.copyFiring p opc recd (t :: ops) k = .next (s.startCopy p opc recd stPoisonIn (t :: ops)) := by
  rw [State.copyFiring, if_pos (by simp [h])]

theorem State.copyReads_of_reads {rd : List Tok} {k : State → State} (h : reads rd) : s.copyReads p rd ops k = k s := by
  rw [State.copyReads, all_isRead_of_reads h, if_pos rfl]

theorem State.indexed_of_live {t : Tile} (hl : live s s.cur.l t) (hr : reads [s.cur.r]) (hbg : t.shape.bg = .g0)
    (hty : t.shape.ty ∈ [Ty.s32, .z32, .s64, .z64]) (h1 : (s.pattern s.cur.site recd).counts.getD 1 0 = 1)
    (h2 : (s.pattern s.cur.site recd).counts.getD 2 0 = 1) :
    s.indexed p opc recd = s.startCopy p opc recd 0 [s.cur.l, s.cur.r] := by
  have hok : (t.shape.bg == .g0 && [Ty.s32, .z32, .s64, .z64].contains t.shape.ty && (s.pattern s.cur.site recd).counts.getD 1 0 == 1 &&
      (s.pattern s.cur.site recd).counts.getD 2 0 == 1) = true := by
    rw [hbg, h1, h2, List.contains_iff_mem.2 hty]
    rfl
  simp only [State.indexed, State.handle_of_live hl, State.copyReads_of_reads hr, hok, if_true]

end Fire

/-! ## Completion (R205, R213, R216) -/

section Complete

variable {s : State} {core i : Nat} {e : Eng} {st : Nat}

/-- R213: what a copy command that ends with status `st` emits. -/
def copyToken (s : State) (e : Eng) (st : Nat) : Tok := if st = 0 then scalarTok e.site 0 else poisonTok s e.site st

/-- R213: a copy command ends with status `st`. -/
def State.finishCopy (s : State) (core : Nat) (e : Eng) (st : Nat) : State :=
  (s.endCommand core e st [(e.d0, copyToken s e st), (e.d1, copyToken s e st), (e.d2, copyToken s e st)] [e.l, e.r]).copyPump core

theorem exec_copyComplete (he : s.eng? core i = some e) (hkind : e.kind = .copy) (hruns : s.engRuns e = true) (hmoves : e.moves = [])
    (htodo : e.todo = []) (hpos : e.pos = e.total) (hwatch : e.watch = none) (hstep : e.step = .running ∨ e.step = .finishing ∨ e.fail ≠ 0) :
    exec (.copyComplete core i) s = .next (s.endCopy core e) := by
  change execCopyComplete core i s = _
  have hgo : (e.step == .running || e.step == .finishing || e.fail != 0) = true := by
    obtain h | h | h := hstep <;> simp [h]
  simp only [execCopyComplete, he, hkind, hruns, hgo, hmoves, htodo, hpos, hwatch, beq_self_eq_true, List.isEmpty_nil, Option.isNone_none,
    Bool.and_self, if_true]

theorem State.endCopy_of_none (h : e.cword = none) : s.endCopy core e = s.finishCopy core e e.fail := by
  have hst : (if e.fail = 0 then 0 else e.fail) = e.fail := by
    split
    · next h => exact h.symm
    · rfl
  simp only [State.endCopy, h, beq_iff_eq, hst, State.finishCopy, copyToken, Eng.spread]

theorem State.endCopy_of_running {l : Piece} (h : e.cword = some l) (hstep : e.step = .running) :
    s.endCopy core e = (s.arriveAt e.site (s.tenantOf e.site.ctx) l e.fail e.tag 0).modEngRec core e.idx fun e =>
      { e with step := .finishing } := by
  simp only [State.endCopy, h, hstep]
  rfl

theorem State.endCopy_of_arrived {l : Piece} {r : Req} (h : e.cword = some l) (hstep : e.step = .finishing)
    (harr : s.arrivalOf core e = some r) (hdone : r.done = true) :
    s.endCopy core e = (s.dropReq r.id).finishCopy core e (if e.fail = 0 then r.status else e.fail) := by
  simp only [State.endCopy, h, hstep, harr, hdone, beq_self_eq_true, if_true, State.finishCopy, copyToken, beq_iff_eq, Eng.spread]

end Complete

end Sys2Proof.Machine

namespace Sys2Proof.Claims

open Sys2Proof.Machine

/-- Settles O28: a copy firing starts the command of its record, and COPY_COMPLETE does what the completion word and the step say. -/
theorem copiesStartAndComplete : Obligations.CopiesStartAndComplete := by
  unfold Obligations.CopiesStartAndComplete
  refine ⟨?_, ?_, ?_, ?_⟩
  · intro s p scl rop recd place t site l r pat starts hplace
    have hstarts {i : Instr} {opc st : Nat} {ops : List Tok} (hst : st = 0 ∨ pat.cwen = true)
        (hi : exec i s = .next (s.startCopy p opc recd.toNat st ops)) : starts i opc st :=
      hi.trans (congrArg _ (State.startCopy_of_place hplace hst))
    refine ⟨fun hl => hstarts (ops := [l]) (.inl rfl) ?_, fun ⟨hclean, hreads⟩ => ⟨hstarts (ops := [l, r]) (.inl rfl) ?_,
      hstarts (ops := [l, r]) (.inl rfl) ?_⟩, fun hl hr hbg hty h1 h2 => ⟨hstarts (ops := [l, r]) (.inl rfl) ?_,
      hstarts (ops := [l, r]) (.inl rfl) ?_⟩, fun hcwen hl => ⟨hstarts (ops := [l]) (.inr hcwen) ?_, hstarts (ops := [l, r]) (.inr hcwen) ?_,
      hstarts (ops := [l, r]) (.inr hcwen) ?_, hstarts (ops := [l, r]) (.inr hcwen) ?_, hstarts (ops := [l, r]) (.inr hcwen) ?_⟩⟩
    · change execCopy p scl recd s = _
      rw [execCopy, State.copyFiring_of_clean hl]
      rfl
    · change execCopyAddr p scl recd s = _
      rw [execCopyAddr, State.copyFiring_of_clean hclean, State.copyReads_of_reads hreads]
      rfl
    · change execCred p rop recd s = _
      rw [execCred, State.copyFiring_of_clean hclean, State.copyReads_of_reads hreads]
      rfl
    · change execGath p recd s = _
      rw [execGath, State.copyFiring_of_clean (clean_cons (ne_of_live hl) hr.1), State.indexed_of_live hl hr.2 hbg hty h1 h2]
      rfl
    · change execScat p recd s = _
      rw [execScat, State.copyFiring_of_clean (clean_cons (ne_of_live hl) hr.1), State.indexed_of_live hl hr.2 hbg hty h1 h2]
      rfl
    · change execCopy p scl recd s = _
      rw [execCopy, State.copyFiring_of_poison hl]
      rfl
    · change execCopyAddr p scl recd s = _
      rw [execCopyAddr, State.copyFiring_of_poison hl]
      rfl
    · change execCred p rop recd s = _
      rw [execCred, State.copyFiring_of_poison hl]
      rfl
    · change execGath p recd s = _
      rw [execGath, State.copyFiring_of_poison hl]
      rfl
    · change execScat p recd s = _
      rw [execScat, State.copyFiring_of_poison hl]
      rfl
  · intro s core i e l r he hkind hruns hmoves htodo hpos hwatch t
    have hidx : e.idx = i := by simpa using List.find?_some he
    have hexec (hstep : e.step = .running ∨ e.step = .finishing ∨ e.fail ≠ 0) :=
      exec_copyComplete he hkind hruns hmoves htodo hpos hwatch hstep
    refine ⟨fun hc hstep => ?_, fun hc hstep => ?_, fun hc hstep harr hdone => ?_⟩
    · rw [hexec (hstep.imp_right .inr), State.endCopy_of_none hc]
      rfl
    · rw [hexec (.inl hstep), State.endCopy_of_running hc hstep, hidx]
    · rw [hexec (.inr (.inl hstep)), State.endCopy_of_arrived hc hstep harr hdone]
      rfl
  · intro s p path hl site
    change execDrain p path s = _
    rw [execDrain, State.firing_clean (badInput_of_clean hl)]
  · intro s i id w hw
    have hexec : exec (.drainComplete i) s = if s.ctxRuns id && s.drained w then
        .next ((s.modCtx id fun c => { c with drains := c.drains.erase w }).emitAll w.site latGraph 1
          [(w.d0, scalarTok w.site 0), (w.d1, scalarTok w.site 0), (w.d2, scalarTok w.site 0)]) else .next s := by
      change execDrainComplete i s = _
      rw [execDrainComplete]
      simp only [hw]
    exact ⟨fun hr hd => by rw [hexec, if_pos (by rw [hr, hd]; rfl)], fun hd => by rw [hexec, hd, Bool.and_false, if_neg Bool.false_ne_true]⟩

end Sys2Proof.Claims
end


section
/-! PROOFS. Events of requests, granules and wait queues, responses, timeouts, retention and replay (R203 to R226, R335 to R341, R370). -/

namespace Sys2Proof.Machine

section Perform

variable {s : State} {i id core recd m k : Nat} {r : Req} {e : Eng} {x : Move}

/-! ## MEMORY_REQUEST_PERFORM, by event (R335) -/

theorem exec_perform_piece (hev : s.readyEvents[i]? = some (.piece id k)) (hr : s.req? id = some r) :
    exec (.memoryRequestPerform i) s = .next ((s.answerLogged r).getD (s.performPiece r k false)) := by
  change execMemoryRequestPerform i s = _
  simp only [execMemoryRequestPerform, hev, hr]
  cases s.answerLogged r <;> rfl

theorem exec_perform_qput (hev : s.readyEvents[i]? = some (.qput id)) (hr : s.req? id = some r) :
    exec (.memoryRequestPerform i) s = .next (s.enqueue r) := by
  change execMemoryRequestPerform i s = _
  simp only [execMemoryRequestPerform, hev, hr]

theorem exec_perform_read (hev : s.readyEvents[i]? = some (.read core recd m k)) (he : s.eng? core recd = some e)
    (hx : e.moves[m]? = some x) : exec (.memoryRequestPerform i) s = .next (s.moveRead core e m x k) := by
  change execMemoryRequestPerform i s = _
  simp only [execMemoryRequestPerform, hev, he, hx]

theorem exec_perform_write (hev : s.readyEvents[i]? = some (.write core recd m)) (he : s.eng? core recd = some e)
    (hx : e.moves[m]? = some x) : exec (.memoryRequestPerform i) s = .next (s.moveWrite core e m x) := by
  change execMemoryRequestPerform i s = _
  simp only [execMemoryRequestPerform, hev, he, hx]

theorem exec_perform_back (hev : s.readyEvents[i]? = some (.back core recd id)) (he : s.eng? core recd = some e)
    (hr : s.req? id = some r) : exec (.memoryRequestPerform i) s = .next (s.moveBack core e r) := by
  change execMemoryRequestPerform i s = _
  simp only [execMemoryRequestPerform, hev, he, hr]

end Perform

/-! ## Wait queues, responses and timeouts -/

theorem exec_acqGrant {s : State} {i : Nat} {r : Req}
    (h : (s.waiting fun r => r.kind == .acq && s.isHead r && s.served r)[i]? = some r) :
    exec (.acqGrant i) s = .next ((s.answerLogged r).getD (s.performPiece r 0 true)) := by
  change execAcqGrant i s = _
  simp only [execAcqGrant, h]
  cases s.answerLogged r <;> rfl

theorem State.timeOut_of_once {s : State} {r : Req} (hretry : r.rtry = false) (hlate : r.last + s.tmoOf r.site.ctx ≤ s.wall) :
    s.timeOut r = (s.modReq r.id fun r => { r with pieces := [], reach := none, status := stLinkTimeout }).settleReq r.id := by
  simp only [State.timeOut, hretry, Bool.false_and, Bool.false_eq_true, if_false, if_pos hlate]

theorem State.not_evictable {s : State} {l : Logged} (h : s.wall < l.logged + 1000000) : s.evictable l = false := by
  simp only [State.evictable, decide_eq_false (Nat.not_le.2 h), Bool.and_false, Bool.false_and]

end Sys2Proof.Machine

namespace Sys2Proof.Claims

open Sys2Proof.Machine

/-- Settles O31: each event acts on the request, entry or granule that its place names. -/
theorem requestEventsComplete : Obligations.RequestEventsComplete := by
  unfold Obligations.RequestEventsComplete
  refine ⟨?_, ?_, ?_, ?_, ?_, ?_, ?_, ?_, ?_, ?_⟩
  · intro s t i id k core recd m r e x event
    refine ⟨fun hr => ⟨fun hnew hev => ?_, fun hold hev => ?_, fun hev => exec_perform_qput hev hr⟩, fun he =>
      ⟨fun hx => ⟨fun hev => exec_perform_read hev he hx, fun hev => exec_perform_write hev he hx⟩, fun hr hev => exec_perform_back hev he hr⟩⟩
    · rw [exec_perform_piece hev hr, hnew, Option.getD_none]
    · rw [exec_perform_piece hev hr, hold, Option.getD_some]
  · intro s i r q hr hq parts a seen word
    change execBarwRelease i s = _
    simp only [execBarwRelease, hr, hq]
    rfl
  · intro s t i r hr
    exact ⟨fun hnew => by rw [exec_acqGrant hr, hnew, Option.getD_none], fun hold => by rw [exec_acqGrant hr, hold, Option.getD_some]⟩
  · intro s i r hr
    change execPipeWaitGrant i s = _
    unfold execPipeWaitGrant
    split
    · next h => exact absurd (h.symm.trans hr) (Option.some_ne_none r).symm
    · next x h => rw [Option.some.inj (h.symm.trans hr)]
  · intro s i r hr
    have hexec : exec (.memoryResponse i) s = if s.ctxRuns r.site.ctx || r.stepped then .next (s.respond r)
        else .next (s.modReq r.id fun r => { r with st := if r.status == 0 then 3 else 4 }) := by
      change execMemoryResponse i s = _
      simp only [execMemoryResponse, hr]
    exact ⟨fun h => by rw [hexec, if_pos (Bool.or_eq_true_iff.2 h)], fun hctx hstep => by rw [hexec, hctx, hstep]; rfl⟩
  · intro s i r hr hretry hlate
    change execRemoteTimeout i s = _
    simp only [execRemoteTimeout, hr, State.timeOut_of_once hretry hlate]
  · intro s i l hl
    have hexec : exec (.retentionWindowExpiry i) s =
        if s.evictable l then .next (s.modMs fun m => { m with log := m.log.eraseIdx i }) else .next s := by
      change execRetentionWindowExpiry i s = _
      simp only [execRetentionWindowExpiry, hl]
    exact ⟨fun h => by rw [hexec, if_pos h], fun h => by rw [hexec, State.not_evictable h, if_neg Bool.false_ne_true]⟩
  · intro s core i m e x he hm
    change execTransportError core i s = _
    simp only [execTransportError, he, hm]
  · intro s i r hr
    change execReplayRequest i s = _
    simp only [execReplayRequest, hr]
  · intro s i core m e x hlen hm
    change execReplayRequest i s = _
    simp only [execReplayRequest, List.getElem?_eq_none hlen, hm]

end Sys2Proof.Claims
end


section
/-! PROOFS. CSEL numbers its wait by the region it fires in, and every region of that home core receives it (R230). -/

namespace Sys2Proof.Machine

/-- Two regions of one home core. In the first, which holds core 0, slot 0 is ACTIVE and slot 1 ARMED, and no CSEL has waited; in
the second five have. The scalar 1 is L of a firing on core 0. -/
def twoRegions : State :=
  { regions :=
      [{ home := 0, cores := [0], slots := [{ state := .active }, { state := .armed }, {}, {}] },
       { home := 0, cores := [1], selSeq := 5 }]
    cur := { l := { val := 1, kind := kScalar, res := residue255 1 } } }

/-- A node that emits nothing. -/
def silentNode : Par := { slot := 0, ty := .none, d0 := .none, d1 := .none, d2 := .none, hist := false, trcf := false }

/-- The numbers of the waits of each region. -/
def waitNumbers : Host.Outcome State Fault Refusal → List (List Nat)
  | .next t => t.regions.map fun g => g.waits.map fun w => w.no
  | _ => []

theorem twoRegions_csel : waitNumbers (exec (.csel silentNode) twoRegions) = [[1], [1]] := by decide +kernel

end Sys2Proof.Machine

namespace Sys2Proof.Claims

open Sys2Proof.Machine

/-- Refutes O33: where a second region has the same home core, CSEL's wait enters both regions under the number of the region that
fired, and the statement numbers it in each by that region's own count. -/
theorem not_codeSlots : ¬ Obligations.CodeSlots := by
  unfold Obligations.CodeSlots
  intro h
  obtain ⟨hfire, -⟩ := h
  obtain ⟨-, hcsel, -⟩ := hfire twoRegions silentNode 0 ((twoRegions.regions.head?).getD {})
  have hoperands : Claims.operands [twoRegions.cur.l] [twoRegions.cur.l] := by
    constructor <;> intro t ht <;> rw [List.mem_singleton.1 ht] <;> decide
  have hsays := (hcsel hoperands rfl).1 (by decide) (by decide)
  have hnumbers := congrArg waitNumbers hsays
  rw [twoRegions_csel] at hnumbers
  exact absurd hnumbers (by decide +kernel)

end Sys2Proof.Claims
end


section
/-! PROOFS. SETC and the registers that it writes, TRACE, IFRD, SBIND and XTSET (R236 to R241). -/

namespace Sys2Proof.Machine

open Sys2Proof.Claims

/-! ## SETC (R236) -/

section Setc

variable {s : State} {p : Par}

theorem State.setReg_of_read {f : Word → State → Except Nat State} {t : State} (h : Claims.operands [s.cur.l] [s.cur.l])
    (hf : f s.cur.l.val s = .ok t) :
    s.setReg p f = .next (t.finish p latGraph (spread p (scalarTok s.cur.site 0)) [s.cur.l]) := by
  rw [State.setReg, State.memFiring_of_operands h]
  simp only [hf]

theorem exec_setc {idx : BitVec 12} (h : Claims.operands [s.cur.l] [s.cur.l]) :
    exec (.setc p idx) s = .next ((s.writeReg s.cur.site idx.toNat s.cur.l.val).finish p latGraph
      (spread p (scalarTok s.cur.site 0)) [s.cur.l]) := by
  change execSetc p idx s = _
  rw [execSetc, State.setReg_of_read h rfl]

theorem exec_setcFpflags (h : Claims.operands [s.cur.l] [s.cur.l]) :
    exec (.setcFpflags p) s = .next ((s.modRegs s.cur.site.ctx fun r => { r with fpflags := s.cur.l.val.toNat % 32 }).finish p latGraph
      (spread p (scalarTok s.cur.site 0)) [s.cur.l]) := by
  change execSetcFpflags p s = _
  rw [execSetcFpflags, State.setReg_of_read h rfl]

/-- R237: the core registers with TIMER_CMP written. -/
def State.armTimer (s : State) (core : Nat) (v : Word) : State :=
  s.modCoreRegs core fun g => { g with timerCmp := v, timerArmed := true }

theorem exec_setcTimerCmp_of_due (h : Claims.operands [s.cur.l] [s.cur.l]) (hdue : s.cur.l.val.toNat ≤ s.gtc) :
    exec (.setcTimerCmp p) s = .next (((s.armTimer s.cur.site.core s.cur.l.val).raiseTimer s.cur.site.core).finish p latGraph
      (spread p (scalarTok s.cur.site 0)) [s.cur.l]) := by
  change execSetcTimerCmp p s = _
  rw [execSetcTimerCmp, State.setReg_of_read h (congrArg _ (if_pos hdue))]
  rfl

theorem exec_setcTimerCmp_of_early (h : Claims.operands [s.cur.l] [s.cur.l]) (hearly : s.gtc < s.cur.l.val.toNat) :
    exec (.setcTimerCmp p) s = .next ((s.armTimer s.cur.site.core s.cur.l.val).finish p latGraph
      (spread p (scalarTok s.cur.site 0)) [s.cur.l]) := by
  change execSetcTimerCmp p s = _
  rw [execSetcTimerCmp, State.setReg_of_read h (congrArg _ (if_neg (Nat.not_le.2 hearly)))]
  rfl

theorem bf_target (v : Word) : bf v.toNat 0 4 = v.toNat % 16 := by simp [bf]

theorem exec_setcRasInject_of_target (h : Claims.operands [s.cur.l] [s.cur.l]) (htarget : s.cur.l.val.toNat % 16 < 5) :
    exec (.setcRasInject p) s = .next ((s.modCoreRegs s.cur.site.core fun g =>
        { g with rasCount := s.cur.l.val.toNat / 2 ^ 8 % 256, rasTarget := s.cur.l.val.toNat % 16 }).finish p latGraph
      (spread p (scalarTok s.cur.site 0)) [s.cur.l]) := by
  change execSetcRasInject p s = _
  rw [execSetcRasInject, State.setReg_of_read h (congrArg _ (if_pos (lt_of_eq_of_lt (bf_target _) htarget))), bf_target]
  rfl

theorem exec_setcRasInject_of_reserved (h : Claims.operands [s.cur.l] [s.cur.l]) (hreserved : 5 ≤ s.cur.l.val.toNat % 16) :
    exec (.setcRasInject p) s = .next (s.finish p latGraph (spread p (scalarTok s.cur.site 0)) [s.cur.l]) := by
  change execSetcRasInject p s = _
  rw [execSetcRasInject, State.setReg_of_read h (congrArg _ (if_neg (Nat.not_lt.2 (Nat.le_trans hreserved (Nat.le_of_eq (bf_target _).symm)))))]

/-- R374: a watch register's new setting, and whom it is told to. -/
theorem exec_setcWatch {idx : BitVec 12} {t : State} (h : Claims.operands [s.cur.l] [s.cur.l])
    (ht : s.writeWatch s.cur.site idx.toNat s.cur.l.val = .ok t) :
    exec (.setcWatch p idx) s = .next (
      let n := (idx.toNat - 0x040) / 4
      let old := s.watchPkgs s.cur.site.ctx n
      let new := t.watchPkgs s.cur.site.ctx n
      (if old = [] ∧ new = [] then t else t.tellWatch p n old new).finish p latGraph
        (if new = [] then spread p (scalarTok s.cur.site 0) else []) [s.cur.l]) := by
  change execSetcWatch p idx s = _
  rw [execSetcWatch, State.memFiring_of_operands h]
  simp only [ht, List.isEmpty_iff, Bool.and_eq_true]

end Setc

/-! ## Registers read back (R237) -/

section ReadBack

variable {s : State} {site : Site} {v : Word}

theorem State.readReg_wdog {c : Ctx} (h : s.ctx? site.ctx = some c) : s.readReg site 0x021 = BitVec.ofNat 64 c.regs.wdog := by
  simp [State.readReg, regIsWatch, h]

theorem State.readReg_tmo {c : Ctx} (h : s.ctx? site.ctx = some c) : s.readReg site 0x022 = BitVec.ofNat 64 c.regs.tmo := by
  simp [State.readReg, regIsWatch, h]

theorem State.readReg_hist {c : Ctx} (h : s.ctx? site.ctx = some c) : s.readReg site 0x030 = c.regs.hist := by
  simp [State.readReg, regIsWatch, h]

theorem State.readReg_trace {c : Ctx} (h : s.ctx? site.ctx = some c) : s.readReg site 0x031 = c.regs.trace := by
  simp [State.readReg, regIsWatch, h]

theorem State.readReg_fpflags {c : Ctx} (h : s.ctx? site.ctx = some c) : s.readReg site 0x003 = BitVec.ofNat 64 c.regs.fpflags := by
  simp [State.readReg, regIsWatch, h]

theorem State.readReg_panHold : s.readReg site 0x070 = BitVec.ofNat 64 (s.core site.core).regs.panHold := by
  simp [State.readReg, regIsWatch]

theorem State.readReg_timerCmp : s.readReg site 0x020 = (s.core site.core).regs.timerCmp := by
  simp [State.readReg, regIsWatch]

theorem State.readReg_rasInject : s.readReg site 0x060 =
    BitVec.ofNat 64 ((s.core site.core).regs.rasCount * 2 ^ 8 + (s.core site.core).regs.rasTarget) := by
  simp [State.readReg, regIsWatch]

theorem State.ctx?_modRegs {c : Ctx} (f : CtxRegs → CtxRegs) (h : s.ctx? site.ctx = some c) :
    (s.modRegs site.ctx f).ctx? site.ctx = some { c with regs := f c.regs } := by
  rw [State.modRegs, State.ctx_modCtx_same s site.ctx (fun c => { c with regs := f c.regs }) fun _ => rfl, h, Option.map_some]

theorem State.coreRegs_modCoreRegs (f : CoreRegs → CoreRegs) (h : site.core < s.cores.length) :
    ((s.modCoreRegs site.core f).core site.core).regs = f (s.core site.core).regs := by
  rw [State.modCoreRegs, State.core_modCore_same _ _ _ h]

/-- R77: the five flag bits of a word. -/
theorem ofNat_mod_32 (v : Word) : BitVec.ofNat 64 (v.toNat % 32) = v &&& 31 := by
  refine BitVec.eq_of_toNat_eq ?_
  rw [BitVec.toNat_and, BitVec.toNat_ofNat, show (31 : Word).toNat = 2 ^ 5 - 1 from rfl, Nat.and_two_pow_sub_one_eq_mod]
  exact Nat.mod_eq_of_lt (by omega)

/-- R238: COUNT and TARGET of a word, in their places. -/
theorem ofNat_inject (v : Word) : BitVec.ofNat 64 (v.toNat / 2 ^ 8 % 256 * 2 ^ 8 + v.toNat % 16) = v &&& 0xFF0F := by
  have hmask : ∀ i < 64, (0xFF0F : Word).getLsbD i = (decide (i < 4) || (decide (8 ≤ i) && decide (i < 16))) := by decide
  refine BitVec.eq_of_getLsbD_eq fun i hi => ?_
  rw [BitVec.getLsbD_and, hmask i hi, BitVec.getLsbD_ofNat, decide_eq_true hi, Bool.true_and, Nat.mul_comm,
    Nat.testBit_two_pow_mul_add _ (by omega : v.toNat % 16 < 2 ^ 8)]
  split
  · next h =>
    rw [show (16 : Nat) = 2 ^ 4 from rfl, Nat.testBit_mod_two_pow, BitVec.getLsbD]
    simp [Nat.not_le.2 h, Bool.and_comm]
  · next h =>
    obtain ⟨j, rfl⟩ := Nat.exists_eq_add_of_le (Nat.not_lt.1 h)
    rw [Nat.add_sub_cancel_left, show (256 : Nat) = 2 ^ 8 from rfl, Nat.testBit_mod_two_pow, Nat.testBit_div_two_pow, BitVec.getLsbD,
      Nat.add_comm j 8, Bool.and_comm]
    congr 1
    rw [decide_eq_false (by omega : ¬ 8 + j < 4), Bool.false_or, decide_eq_true (by omega : 8 ≤ 8 + j), Bool.true_and]
    exact decide_eq_decide.2 (by omega)

end ReadBack

end Sys2Proof.Machine

namespace Sys2Proof.Claims

open Sys2Proof.Machine

/-- Settles O34: each SETC writes its register, and the registers read back what was written. -/
theorem controlRegisterWrites : Obligations.ControlRegisterWrites := by
  unfold Obligations.ControlRegisterWrites
  intro s p idx c hl site v sets armed inject
  refine ⟨exec_setc hl, exec_setcFpflags hl, exec_setcTimerCmp_of_due hl, exec_setcTimerCmp_of_early hl, exec_setcRasInject_of_target hl,
    exec_setcRasInject_of_reserved hl, ?_, ?_⟩
  · intro t ht n old new
    have hexec : exec (.setcWatch p idx) s = .next ((if old = [] ∧ new = [] then t else t.tellWatch p n old new).finish p latGraph
        (if new = [] then spread p (scalarTok site 0) else []) [s.cur.l]) := exec_setcWatch hl ht
    refine ⟨fun ho hn => ?_, fun ho hn => ?_, fun hn => ?_⟩
    · refine hexec.trans ?_
      rw [if_pos ⟨ho, hn⟩, if_pos hn]
    · refine hexec.trans ?_
      rw [if_neg fun h => ho h.1, if_pos hn]
    · rw [hexec, if_neg fun h => hn h.2, if_neg hn]
  · intro hc hcore
    refine ⟨?_, ?_, ?_, ?_, ?_, ?_, ?_, fun htarget => ?_⟩
    · exact State.readReg_wdog (State.ctx?_modRegs (fun r => { r with wdog := min (max v.toNat (2 ^ 10)) (2 ^ 40) }) hc)
    · exact State.readReg_tmo (State.ctx?_modRegs (fun r => { r with tmo := min (max v.toNat 1000) 1000000 }) hc)
    · exact State.readReg_hist (State.ctx?_modRegs (fun r => { r with hist := v }) hc)
    · exact State.readReg_trace (s := s.writeReg site 0x031 v) (State.ctx?_modRegs (fun r => { r with trace := v }) hc)
    · rw [State.readReg_panHold]
      change BitVec.ofNat 64 ((s.modCoreRegs site.core fun g => { g with panHold := v.toNat }).core site.core).regs.panHold = v
      rw [State.coreRegs_modCoreRegs _ hcore, BitVec.ofNat_toNat, BitVec.setWidth_eq]
    · exact (State.readReg_fpflags (State.ctx?_modRegs (fun r => { r with fpflags := v.toNat % 32 }) hc)).trans (ofNat_mod_32 v)
    · rw [State.readReg_timerCmp, State.coreRegs_modCoreRegs _ hcore]
    · rw [State.readReg_rasInject, State.coreRegs_modCoreRegs _ hcore]
      exact ofNat_inject v

/-- Settles O35: each firing's checks are its hypotheses. -/
theorem traceSelectAndBind : Obligations.TraceSelectAndBind := by
  unfold Obligations.TraceSelectAndBind
  intro s p tag len w t x tg bs site l r zero
  refine ⟨fun h => ?_, fun h => ?_, fun h hsel => ?_, fun h hbind _ => ?_, fun h hlow hres hread hext => ?_⟩
  · change execTrace p tag s = _
    rw [execTrace, State.memFiring_of_operands h]
  · change execTrace2 p tag s = _
    rw [execTrace2, State.memFiring_of_operands h]
  · change execIfrd p s = _
    rw [execIfrd, State.memFiring_of_operands h]
    simp only [show s.selected s.cur.site.core s.cur.l.val = .ok (some w) from hsel]
    rfl
  · change execSbind p len s = _
    rw [execSbind, State.memFiring_of_operands h]
    simp only [State.orFail, show s.bindRegion s.cur.site s.cur.l.val s.cur.r.val len.toNat = .ok t from hbind]
    rfl
  · refine ⟨s.draw.1 % 2 == 1, ?_⟩
    have hbound : s.cur.l.val.toNat < 12 := hlow
    change execXtset p s = _
    rw [execXtset, State.memFiring_of_operands h, if_neg (by omega), if_neg (by omega)]
    simp only [State.orFail, show s.resolve s.cur.site { spaces := [1, 2] } s.cur.r.val 576 = .ok tg from hres,
      show s.readParts s.cur.site.core tg.parts = (0, bs, s) from hread, bne_self_eq_false, Bool.false_eq_true, if_false, hext]
    rfl

end Sys2Proof.Claims
end


section
/-! PROOFS. TRAP, TIMER, ORPHAN, the entry of a handler and TRET (R235, R350 to R358). -/

namespace Sys2Proof.Machine

open Sys2Proof.Claims

/-! ## A trace record leaves the firing, the time and all of a context but its registers as they are (R396, R397) -/

/-- The firing under way, the time and, of every context, all but its registers stay. -/
structure State.Recorded (s t : State) : Prop where
  cur : t.cur = s.cur
  wall : t.wall = s.wall
  ctx : ∀ id c, s.ctx? id = some c → ∃ r, t.ctx? id = some { c with regs := r }

namespace State.Recorded

variable {s t u : State}

theorem rfl' : State.Recorded s s := ⟨rfl, rfl, fun _ c h => ⟨c.regs, h⟩⟩

theorem trans (h : State.Recorded s t) (k : State.Recorded t u) : State.Recorded s u := by
  refine ⟨k.cur.trans h.cur, k.wall.trans h.wall, fun id c hc => ?_⟩
  obtain ⟨r, hr⟩ := h.ctx id c hc
  obtain ⟨r', hr'⟩ := k.ctx id _ hr
  exact ⟨r', hr'⟩

theorem of_ctxs (hcur : t.cur = s.cur) (hwall : t.wall = s.wall) (hctxs : t.ctxs = s.ctxs) : State.Recorded s t :=
  ⟨hcur, hwall, fun _ c h => ⟨c.regs, by rw [State.ctx?, hctxs]; exact h⟩⟩

theorem foldl {α : Type} {f : State → α → State} (h : ∀ s x, State.Recorded s (f s x)) (l : List α) (s : State) :
    State.Recorded s (l.foldl f s) := by
  induction l generalizing s with
  | nil => exact rfl'
  | cons x l ih => exact (h s x).trans (ih _)

end State.Recorded

theorem State.recorded_modRegs (s : State) (id : Nat) (f : CtxRegs → CtxRegs) : State.Recorded s (s.modRegs id f) := by
  refine ⟨rfl, rfl, fun k c hc => ?_⟩
  by_cases hk : k = id
  · subst hk
    exact ⟨f c.regs, by
      rw [State.modRegs, State.ctx_modCtx_same s k (fun c => { c with regs := f c.regs }) fun _ => rfl, hc, Option.map_some]⟩
  · exact ⟨c.regs, by
      rw [State.modRegs, State.ctx_modCtx_other s id k (fun c => { c with regs := f c.regs }) (fun _ => rfl) hk, hc]⟩

theorem State.recorded_perfCtx (s : State) (id k n : Nat) : State.Recorded s (s.perfCtx id k n) := recorded_modRegs ..

theorem State.recorded_dropStaged (s : State) (a n : Nat) : State.Recorded s (s.dropStaged a n) := by
  refine (State.Recorded.foldl (fun s g => ?_) _ s).trans (.of_ctxs rfl rfl rfl)
  split <;> exact .of_ctxs rfl rfl rfl

theorem State.recorded_sectorRead (s : State) (sec tag : Nat) : State.Recorded s (s.sectorRead sec tag) := by
  unfold State.sectorRead
  dsimp only
  repeat' split
  all_goals exact .of_ctxs rfl rfl rfl

theorem State.recorded_writeSector (s : State) (sec a : Nat) (bs : List Byte) (tag key : Nat) :
    State.Recorded s (s.writeSector sec a bs tag key).2 := by
  by_cases hw : bs.length = 32
  · rw [State.writeSector_of_whole hw]
    exact .of_ctxs rfl rfl rfl
  · by_cases hst : sectorStatus s sec tag = 0
    · rw [State.writeSector_of_part hw hst]
      exact (recorded_sectorRead s sec tag).trans (.of_ctxs rfl rfl rfl)
    · rw [State.writeSector_of_bad hw hst]
      exact recorded_sectorRead s sec tag

theorem State.recorded_writePhys (s : State) (a : Nat) (bs : List Byte) (tag key : Nat) :
    State.Recorded s (s.writePhys a bs tag key).2 := by
  have hfold : ∀ (l : List Nat) (r : Nat × State), State.Recorded r.2 (l.foldl (writeOne a bs tag key) r).2 := by
    intro l
    induction l with
    | nil => exact fun _ => .rfl'
    | cons x l ih => exact fun r => .trans (t := (writeOne a bs tag key r x).2) (recorded_writeSector ..) (ih _)
  rw [State.writePhys_eq]
  exact ((recorded_dropStaged s a _).trans (hfold _ (0, _))).trans (.of_ctxs rfl rfl rfl)

theorem State.recorded_devAdd (s : State) (site : Site) (a : Word) (n w : Nat) : State.Recorded s (s.devAdd site a n w) := by
  unfold State.devAdd
  repeat' split
  · exact recorded_writePhys ..
  all_goals exact .of_ctxs rfl rfl rfl

theorem State.recorded_devPut (s : State) (site : Site) (a : Word) (bs : List Byte) : State.Recorded s (s.devPut site a bs) := by
  unfold State.devPut
  split
  · refine State.Recorded.foldl (fun s p => ?_) _ s
    dsimp only
    repeat' split
    · exact recorded_writePhys ..
    all_goals exact .of_ctxs rfl rfl rfl
  · exact .rfl'

theorem State.recorded_devGet (s : State) (site : Site) (a : Word) : State.Recorded s (s.devGet site a).2 := by
  unfold State.devGet
  repeat' split
  all_goals exact .of_ctxs rfl rfl rfl

theorem State.recorded_traceWrite (s : State) (site : Site) (typ delta : Nat) (w1 w2 w3 : Word) :
    State.Recorded s (s.traceWrite site typ delta w1 w2 w3).2 := by
  unfold State.traceWrite
  split
  · exact .rfl'
  · next c _ =>
    have hget := ((State.recorded_devGet s site c.regs.trace).trans (State.recorded_devGet _ site (c.regs.trace + 8))).trans
      (State.recorded_devGet _ site (c.regs.trace + 16))
    dsimp only
    split
    · exact (hget.trans (recorded_devAdd ..)).trans (recorded_perfCtx ..)
    · exact (hget.trans (recorded_devAdd ..)).trans (recorded_devPut ..)

theorem State.recorded_noteTrace (s : State) (core ctx last gtc : Nat) :
    State.Recorded s (s.noteTrace core ctx last gtc) := .of_ctxs rfl rfl rfl

theorem State.recorded_gtcRec (s : State) (core ctx : Nat) : State.Recorded s (s.gtcRec core ctx) := by
  unfold State.gtcRec
  dsimp only
  split
  · exact (recorded_traceWrite ..).trans (recorded_noteTrace ..)
  · exact recorded_traceWrite ..

theorem State.recorded_traceRec (s : State) (site : Site) (typ : Nat) (w1 w2 w3 : Word) :
    State.Recorded s (s.traceRec site typ w1 w2 w3) := by
  unfold State.traceRec
  split
  · exact .rfl'
  · split
    · split
      · exact recorded_perfCtx ..
      · exact .rfl'
    · have hu : State.Recorded s (if s.gtcDue site.core site.ctx = true then s.gtcRec site.core site.ctx else s) := by
        split
        · exact recorded_gtcRec ..
        · exact .rfl'
      generalize (if s.gtcDue site.core site.ctx = true then s.gtcRec site.core site.ctx else s) = u at hu
      refine hu.trans ?_
      dsimp only
      split
      · exact (recorded_devAdd ..).trans (recorded_perfCtx ..)
      · split
        · exact (recorded_traceWrite ..).trans (recorded_noteTrace ..)
        · exact recorded_traceWrite ..

/-- R94 to R98: what a firing emits leaves the firing itself as it is. -/
theorem State.finish_cur (s : State) (p : Par) (lat : Nat) (ems : List (Dest × Tok)) (used : List Tok) :
    (s.finish p lat ems used).cur = s.cur := by
  have hsettle := (State.quiet_settle s s.cur.site lat (s.resultStream s.cur.site) ems used).cur
  unfold State.finish
  dsimp only
  split
  · exact (recorded_traceRec ..).cur.trans hsettle
  · exact hsettle

/-! ## Traps are taken (R350 to R352) -/

section Trap

variable {s : State} {t : Trap} {c : Ctx}

theorem exec_trap {p : Par} {code : BitVec 16} (h : clean [s.cur.l]) :
    exec (.trap p code) s = .next ((s.finish p latGraph [] []).trap
      { cause := 1, core := s.cur.site.core, site := s.cur.site, code := code.toNat, a := s.cur.l,
        d0 := p.d0, d1 := p.d1, d2 := p.d2 } false) := by
  change execTrap p code s = _
  rw [execTrap, State.firing_clean (badInput_of_clean h)]

/-- R351: a trap as it joins the list: with its instant and its place in the order raised. -/
def State.raisedTrap (s : State) (t : Trap) : Trap := { t with raised := s.gtc, order := s.trapSeq }

/-- R352, R384: a trap that starts no halt joins the end of its context's list, and a halted job counts it. -/
theorem State.trap_of_no_halt (hc : s.ctx? t.site.ctx = some c) (hh : s.haltEnabled t.site.ctx t.cause false = false) :
    s.trap t false = (({ s with trapSeq := s.trapSeq + 1 } : State).modCtx t.site.ctx fun c =>
      { c with traps := c.traps ++ [s.raisedTrap t] }).modJob c.jobKey Job.countMore := by
  have hh' : ({ s with trapSeq := s.trapSeq + 1 } : State).haltEnabled t.site.ctx t.cause false = false := hh
  have hc' : (({ s with trapSeq := s.trapSeq + 1 } : State).modCtx t.site.ctx fun c => { c with traps := c.traps ++ [s.raisedTrap t] }).ctx?
      t.site.ctx = some { c with traps := c.traps ++ [s.raisedTrap t] } := by
    rw [State.ctx_modCtx_same _ t.site.ctx (fun c => { c with traps := c.traps ++ [s.raisedTrap t] }) fun _ => rfl]
    exact congrArg (Option.map _) hc
  rw [State.trap]
  simp only [hh', Bool.not_false, if_true, Nat.add_zero]
  erw [hc']
  rfl

theorem State.trap_of_no_halt_keeps (hc : s.ctx? t.site.ctx = some c) (hh : s.haltEnabled t.site.ctx t.cause false = false) :
    (s.trap t false).ctx? t.site.ctx = some { c with traps := c.traps ++ [s.raisedTrap t] } ∧
    (s.trap t false).cores = s.cores ∧ (s.trap t false).ms = s.ms ∧ (s.trap t false).flight = s.flight := by
  rw [State.trap_of_no_halt hc hh]
  refine ⟨?_, rfl, rfl, rfl⟩
  refine (State.ctx_modCtx_same _ t.site.ctx (fun c => { c with traps := c.traps ++ [s.raisedTrap t] }) fun _ => rfl).trans ?_
  exact congrArg (Option.map _) hc

theorem exec_timer_of_due {core : Nat} (ha : (s.core core).regs.timerArmed = true)
    (hdue : (s.core core).regs.timerCmp.toNat ≤ s.gtc) : exec (.timer core) s = .next (s.raiseTimer core) := by
  change execTimer core s = _
  simp [execTimer, ha, hdue]

theorem exec_timer_of_early {core : Nat} (h : (s.core core).regs.timerArmed = false ∨ s.gtc < (s.core core).regs.timerCmp.toNat) :
    exec (.timer core) s = .next s := by
  change execTimer core s = _
  rcases h with h | h
  · simp [execTimer, h]
  · simp [execTimer, Nat.not_le.2 h]

theorem exec_orphan_of_due {core ctx n : Nat} (hc : s.ctx? ctx = some c)
    (hw : c.wdogs.find? (fun w => w.1 == core) = some (core, n, false)) (hm : c.mode = .running) (hn : c.regs.wdog ≤ n) :
    exec (.orphan core ctx) s = .next ((s.modCtx ctx fun c =>
        { c with wdogs := c.wdogs.map fun w => if w.1 == core then (w.1, w.2.1, true) else w }).trap
      { cause := 4, core := core, site := { core := core, ctx := ctx }, a := scalarTok {} (orphanDetails (s.parkedFrames core ctx)).1,
        b := (orphanDetails (s.parkedFrames core ctx)).2 } false) := by
  change execOrphan core ctx s = _
  simp [execOrphan, hc, hw, hm, hn]

end Trap

/-! ## Handlers (R353 to R357) -/

section Handlers

variable {s : State} {id : Nat} {c : Ctx} {t : Trap}

/-- R353: a running context without a live handler has a trap that enters next. -/
structure State.Entering (s : State) (id : Nat) (c : Ctx) (t : Trap) : Prop where
  ctx : s.ctx? id = some c
  mode : c.mode = .running
  handler : c.handler = none
  trap : s.nextTrap c = some t

/-- R353: a trap enters its handler in frame `n`, taken in `u`: trap word, detail A and detail B go to nodes 0, 1 and 2. -/
theorem State.enterHandler_of_frame {n : Nat} {u : State} (h : s.Entering id c t) (hno : s.noHandler t = false) (htimer : t.cause ≠ 5)
    (htile : t.a.kind ≠ kTile)
    (hf : s.takeFrame t.core (fun n => { newFrame n id 3 (t.cause - 1) ((s.core t.core).descOf 3 (t.cause - 1)) [] with hnd := true }) =
      some (n, u)) :
    s.enterHandler id =
      let v := (u.takeTrap id t).modCtx id fun c => { c with handler := some t }
      let site : Site := { core := t.core, ctx := id, prio := v.eff id }
      let arrive (w : State) (node : Nat) (x : Tok) : State := w.deliver site t.core n 3 (t.cause - 1) node 0 (v.clk t.core) x
      arrive (arrive (arrive v 0 (scalarTok site (trapWord v t))) 1 (mkTok site t.a.kind t.a.val)) 2 (scalarTok site t.b) := by
  obtain ⟨hc, hm, hh, ht⟩ := h
  simp [State.enterHandler, hc, hm, hh, ht, hno, hf, htimer, htile]

/-- R353, R356: with no handler for TRAP_SW its operand goes to the TRAP's destinations. -/
theorem State.enterHandler_of_no_handler (h : s.Entering id c t) (hno : s.noHandler t = true) (hsw : t.cause = 1) :
    s.enterHandler id = (s.takeTrap id t).trapReturn t t.a [t.a] := by
  obtain ⟨hc, hm, hh, ht⟩ := h
  simp [State.enterHandler, hc, hm, hh, ht, hno, hsw]

/-- R356: the activation of a handler ends. -/
def State.endHandler (s : State) (id frame : Nat) (t : Trap) : State :=
  (s.completeFrame t.core frame).modCtx id fun c => { c with handler := none }

theorem State.leaveHandler_of_software {frame : Nat} {v : Tok} (hc : s.ctx? id = some c) (hh : c.handler = some t) (hsw : t.cause = 1) :
    s.leaveHandler id frame v = (s.endHandler id frame t).trapReturn t v [v] := by
  simp [State.leaveHandler, hc, hh, hsw, State.endHandler]

theorem State.leaveHandler_of_action {frame : Nat} {v : Tok} (hc : s.ctx? id = some c) (hh : c.handler = some t) (hsw : t.cause ≠ 1)
    (htimer : t.cause ≠ 5) (hk : v.kind = kScalar) (hv : v.val.toNat ≤ 2) :
    s.leaveHandler id frame v = ((s.endHandler id frame t).release t.core v).settleTrap t v.val.toNat := by
  simp [State.leaveHandler, hc, hh, hsw, htimer, hk, Nat.not_lt.2 hv, State.endHandler]

theorem exec_handlerEntry : exec (.handlerEntry id) s = .next ((s.enterHandler id).pumpCtx id) := rfl

theorem exec_tret_outside {p : Par} (h : s.cur.site.hnd = false) :
    exec (.tret p) s = .next ((((s.finish p latGraph [] []).countRoute s.cur.site.core).record s.cur.site.ctx stPerm).release
      s.cur.site.core s.cur.l) := by
  change execTret p s = _
  simp [execTret, h, State.finish_cur]

theorem exec_tret_inside {p : Par} (h : s.cur.site.hnd = true) :
    exec (.tret p) s = .next (((s.finish p latGraph [] []).leaveHandler s.cur.site.ctx s.cur.site.frame s.cur.l).pumpCtx
      s.cur.site.ctx) := by
  change execTret p s = _
  simp [execTret, h, State.finish_cur]

end Handlers

end Sys2Proof.Machine

namespace Sys2Proof.Claims

open Sys2Proof.Machine

/-- Settles O36: TRAP appends a trap to its context, TIMER and ORPHAN raise theirs when due, HANDLER_ENTRY takes the oldest trap
into a frame of its block or sends a software trap's operand on, and TRET ends the handler. -/
theorem trapsAndHandlers : Obligations.TrapsAndHandlers := by
  unfold Obligations.TrapsAndHandlers
  refine ⟨⟨?trap, ?listed, ?timer, ?orphan⟩, ?enter, ?unhandled, ?tret⟩
  case trap => exact fun s p code h => exec_trap h
  case listed => exact fun s t c hc hh => State.trap_of_no_halt_keeps hc hh
  case timer => exact fun s core => ⟨exec_timer_of_due, exec_timer_of_early⟩
  case orphan => exact fun s core ctx n c hc hw hm hn => exec_orphan_of_due hc hw hm hn
  case enter =>
    intro s id n c t u hc hm hh ht hno htimer htile hf
    exact exec_handlerEntry.trans (congrArg (fun x => Host.Outcome.next (State.pumpCtx x id))
      (State.enterHandler_of_frame ⟨hc, hm, hh, ht⟩ hno htimer htile hf))
  case unhandled =>
    intro s id c t hc hm hh ht hno hsw
    rw [exec_handlerEntry, State.enterHandler_of_no_handler ⟨hc, hm, hh, ht⟩ hno hsw]
  case tret =>
    intro s p c t
    refine ⟨exec_tret_outside, fun hhnd hc hh => ⟨fun hsw => ?_, fun hsw htimer hk hv => ?_⟩⟩
    · rw [exec_tret_inside hhnd, State.leaveHandler_of_software hc hh hsw]
      rfl
    · rw [exec_tret_inside hhnd, State.leaveHandler_of_action hc hh hsw htimer hk hv]
      rfl

end Sys2Proof.Claims
end


section
/-! PROOFS. Tokens on their way: acceptance, reports, in-port arrivals, tile transfers, frame grants, promotion
(R17, R18, R48, R137, R254, R255, R257, R326, R327). -/

namespace Sys2Proof.Machine

open Sys2Proof.Claims

/-! ## TOKEN_ACCEPT (R17, R18, R327) -/

section Accept

variable {s : State} {i : Nat} {q : QTok}

/-- A token that has arrived for a frame, with no tile of its own, and whose frame number no saved context keeps. -/
structure State.AtFrame (s : State) (i : Nat) (q : QTok) : Prop where
  arriving : s.arriving i = some q
  dst : q.dst = .frame
  free : s.frameSaved q.core q.frame = false
  tile : q.tile = none

theorem exec_tokenAccept_of_bad (h : s.AtFrame i q) (hok : s.tokenOk q.core q = false) :
    exec (.tokenAccept i) s = .next (((s.dropFlight i).quarantine q.core q stRoute).release q.core q.tok) := by
  obtain ⟨ha, hd, hf, ht⟩ := h
  have hok' : (s.dropFlight i).tokenOk q.core q = false := hok
  change execTokenAccept i s = _
  simp [execTokenAccept, ha, hd, hf, ht, hok, State.accept, hok']

theorem exec_tokenAccept_of_full (h : s.AtFrame i q) (hok : s.tokenOk q.core q = true)
    (hr : s.ringFull q.core (s.ctxOfTok q.core q) = true) : exec (.tokenAccept i) s = .next s := by
  obtain ⟨ha, hd, hf, -⟩ := h
  change execTokenAccept i s = _
  simp [execTokenAccept, ha, hd, hf, hok, hr]

theorem exec_tokenAccept_of_stranger (h : s.AtFrame i q) (hok : s.tokenOk q.core q = true)
    (hr : s.ringFull q.core (s.ctxOfTok q.core q) = false) (hm : s.admits (s.ctxOfTok q.core q) q = false) :
    exec (.tokenAccept i) s = .next ((s.dropFlight i).countDropped (dieOf q.core)) := by
  obtain ⟨ha, hd, hf, -⟩ := h
  change execTokenAccept i s = _
  simp [execTokenAccept, ha, hd, hf, hok, hr, hm]

theorem exec_tokenAccept_of_leaving (h : s.AtFrame i q) (hok : s.tokenOk q.core q = true)
    (hr : s.ringFull q.core (s.ctxOfTok q.core q) = false) (hm : s.admits (s.ctxOfTok q.core q) q = true)
    (hl : s.leavesCtx (s.ctxOfTok q.core q) q = true) :
    exec (.tokenAccept i) s =
      let x := s.depart { core := q.core, ctx := s.ctxOfTok q.core q } q
      .next { x.2 with flight := x.2.flight.set i x.1 } := by
  obtain ⟨ha, hd, hf, -⟩ := h
  change execTokenAccept i s = _
  simp [execTokenAccept, ha, hd, hf, hok, hr, hm, hl]

theorem exec_tokenAccept_of_staying (h : s.AtFrame i q) (hok : s.tokenOk q.core q = true)
    (hr : s.ringFull q.core (s.ctxOfTok q.core q) = false) (hm : s.admits (s.ctxOfTok q.core q) q = true)
    (hl : s.leavesCtx (s.ctxOfTok q.core q) q = false) :
    exec (.tokenAccept i) s = (s.dropFlight i).accept q.core q := by
  obtain ⟨ha, hd, hf, ht⟩ := h
  change execTokenAccept i s = _
  simp [execTokenAccept, ha, hd, hf, ht, hok, hr, hm, hl]

/-- R300: the token gets its place in the order of acceptance. -/
def State.numbered (s : State) (q : QTok) : QTok := { q with acc := (s.core q.core).tok.accSeq }

/-- R300: the core's next place. -/
def State.countAccepted (s : State) (core : Nat) : State := s.modTok core fun t => { t with accSeq := t.accSeq + 1 }

/-- R392: no comparator holds the token at its acceptance. -/
def State.unheld (s : State) (q : QTok) : Prop :=
  (s.countAccepted q.core).brkHit q.core ((s.countAccepted q.core).ctxOfTok q.core (s.numbered q)) (s.numbered q) = none

/-- R300: a token with no tile of its own that no comparator holds is placed. -/
def State.admitted (s : State) (q : QTok) : State := (s.countAccepted q.core).place q.core (s.numbered q)

/-- R300, R392: an accepted token, its residue judged, is placed or held by a comparator. -/
def State.enlist (s : State) (core : Nat) (q : QTok) : Host.Outcome State Fault Refusal :=
  let q := { q with acc := (s.core core).tok.accSeq }
  let s := s.modTok core fun u => { u with accSeq := u.accSeq + 1 }
  let ctx := s.ctxOfTok core q
  let hnd := match s.frame? core q.frame with
    | some f => f.hnd
    | none => false
  match if hnd then none else s.brkHit core ctx q with
  | none => .next (s.place core { q with tile := none })
  | some (n, own) =>
    let w := s.targetWord core q
    let cls := s.classOf core q.cslot q.block ctx
    let s := s.file core cls { q with held := true, bp := n + 1, accAt := s.clk core, tile := none }
    let here : Site := { core := core, ctx := ctx, frame := q.frame, cslot := q.cslot, block := q.block, node := q.instr }
    let t : Trap := { cause := 2, core := core, site := here, code := n, a := q.tok, b := tokenLow q, item := w.ar, tok := some q }
    .next (s.trap t own)

/-- A token on its way with another token in its place. -/
def QTok.withTok (q : QTok) (t : Tok) : QTok := { q with tok := t }

/-- R18: what takes the place of a token whose residue is wrong: poison RESIDUE of the accepting core. -/
def State.residuePoison (s : State) (q : QTok) : Tok :=
  let here : Site := { core := q.core, phase := q.tok.phase, prio := q.tok.prio }
  mkTok here kPoison (poisonVal s here stResidue)

theorem State.enlist_of_unheld (ht : q.tile = none) (hb : s.unheld q) : s.enlist q.core q = .next (s.admitted q) := by
  have htile : ({ s.numbered q with tile := none } : QTok) = s.numbered q := by rw [State.numbered, ← ht]
  rw [State.unheld] at hb
  rw [State.admitted]
  dsimp only [State.numbered, State.countAccepted] at hb htile ⊢
  rw [State.enlist]
  simp only [hb, ite_self, htile]

/-- R17, R18: what passes the checks of R17 is admitted, with its residue judged. -/
theorem State.accept_eq_enlist (hok : s.tokenOk q.core q = true) (hp : tokenPort (s.targetWord q.core q) q.port = true) :
    s.accept q.core q =
      let bad := residue255 q.tok.val != q.tok.res
      let u := if bad then s.countResidue q.core else s
      let v := if bad then u.release q.core q.tok else u
      v.enlist q.core (if bad then q.withTok (v.residuePoison q) else q) := by
  rw [State.accept, if_neg (by simp [hok]), if_neg (by simp [hp])]
  rfl

theorem State.accept_of_sound (hok : s.tokenOk q.core q = true) (hp : tokenPort (s.targetWord q.core q) q.port = true)
    (ht : q.tile = none) (hres : q.tok.res = residue255 q.tok.val) (hb : s.unheld q) : s.accept q.core q = .next (s.admitted q) := by
  rw [State.accept_eq_enlist hok hp]
  simp only [hres, bne_self_eq_false, Bool.false_eq_true, if_false]
  exact State.enlist_of_unheld ht hb

theorem State.accept_of_wrong_residue (hok : s.tokenOk q.core q = true) (hp : tokenPort (s.targetWord q.core q) q.port = true)
    (ht : q.tile = none) (hres : q.tok.res ≠ residue255 q.tok.val) {v : State} (hv : (s.countResidue q.core).release q.core q.tok = v)
    {t : Tok} (htok : v.residuePoison q = t) (hb : v.unheld (q.withTok t)) : s.accept q.core q = .next (v.admitted (q.withTok t)) := by
  have hne : (residue255 q.tok.val != q.tok.res) = true := bne_iff_ne.2 (Ne.symm hres)
  rw [State.accept_eq_enlist hok hp]
  simp only [hne, if_true, hv, htok]
  exact State.enlist_of_unheld (q := q.withTok t) ht hb

end Accept

/-! ## Reports, in-ports and tile transfers (R17, R48, R137, R255) -/

section Arrivals

variable {s : State} {i : Nat} {q : QTok}

theorem exec_quarantineReport {core ctx st : Nat} (h : s.reports[i]? = some (core, ctx, st)) :
    exec (.quarantineReport i) s = .next ({ s with reports := s.reports.eraseIdx i }.modRegs ctx fun r =>
      { r with status := if r.status = 0 then st else r.status, quar := min (r.quar + 1) 255 }) := by
  change execQuarantineReport i s = _
  simp only [execQuarantineReport, h, State.record, beq_iff_eq]

theorem exec_sourcePortArrival_of_blocked (hi : i < s.flight.length) (ha : s.arriving i = some q) (hd : q.dst ≠ .frame)
    (hb : portBlocked (s.bindSlot q) (s.core q.core).tok.inq = true) :
    exec (.sourcePortArrival i) s =
      .next ((s.dropFlight i).modTok q.core fun t => { t with inq := t.inq ++ [{ s.bindSlot q with held := true }] }) := by
  have hcore : (s.bindSlot q).core = q.core := by
    unfold State.bindSlot
    repeat' split
    all_goals rfl
  change execSourcePortArrival i s = _
  simp [execSourcePortArrival, hi, ha, hd, hb, hcore]

theorem exec_sourcePortArrival_of_open (hi : i < s.flight.length) (ha : s.arriving i = some q) (hd : q.dst ≠ .frame)
    (hb : portBlocked (s.bindSlot q) (s.core q.core).tok.inq = false) :
    exec (.sourcePortArrival i) s = .next ((s.dropFlight i).arrivePort (s.bindSlot q)) := by
  change execSourcePortArrival i s = _
  simp [execSourcePortArrival, hi, ha, hd, hb]

/-- A token that has arrived for a frame with the image of a tile, and that its receiver takes. -/
structure State.Transfer (s : State) (i : Nat) (q : QTok) (m : TileImg) : Prop where
  arriving : s.arriving i = some q
  dst : q.dst = .frame
  tile : q.tile = some m
  free : s.frameSaved q.core q.frame = false
  ok : s.tokenOk q.core q = true
  admits : s.admits (s.ctxOfTok q.core q) q = true

variable {m : TileImg}

theorem exec_tileTransferReceive_of_sound (h : s.Transfer i q m) (hres : q.tok.res = residue255 q.tok.val) :
    exec (.tileTransferReceive i) s = .next ({ s with flight := s.flight.set i { q with held := true } }.askTile q.core
      { site := { core := q.core, ctx := s.ctxOfTok q.core q, hnd := ((s.frame? q.core q.frame).map fun (f : Frame) => f.hnd).getD false },
        shape := { m.shape with acc := false }, why := 4, arrival := some { q with held := true } }) := by
  obtain ⟨ha, hd, ht, hf, hok, hm⟩ := h
  have hframe (l : List QTok) : ({ s with flight := l } : State).frame? q.core q.frame = s.frame? q.core q.frame := rfl
  change execTileTransferReceive i s = _
  simp [execTileTransferReceive, ha, hd, ht, hf, hok, hm, hres, hframe]

theorem exec_tileTransferReceive_of_wrong_residue (h : s.Transfer i q m) (hres : q.tok.res ≠ residue255 q.tok.val) :
    exec (.tileTransferReceive i) s =
      let u := s.countResidue q.core
      let bad := poisonTok u { core := q.core, phase := q.tok.phase, prio := q.tok.prio } stResidue
      .next { u with flight := u.flight.set i { q with tok := bad, tile := none } } := by
  obtain ⟨ha, hd, ht, hf, hok, hm⟩ := h
  change execTileTransferReceive i s = _
  simp [execTileTransferReceive, ha, hd, ht, hf, hok, hm, Ne.symm hres]

end Arrivals

/-! ## Frames (R104, R254) and promotion (R326) -/

section Frames

variable {s : State} {core : Nat} {r : FrameReq}

theorem exec_frameGrant_of_fit (hn : s.nextAsk core = some r) (hf : s.askFits core r = true) (he : s.entryAsks core = false) :
    exec (.frameGrant core) s = .next (s.grantFrame core r) := by
  change execFrameGrant core s = _
  simp [execFrameGrant, hn, hf, he]

theorem exec_frameGrant_of_wait (hn : s.nextAsk core = some r) (h : s.askFits core r = false ∨ s.entryAsks core = true) :
    exec (.frameGrant core) s = .next s := by
  change execFrameGrant core s = _
  rcases h with h | h <;> simp [execFrameGrant, hn, h]

theorem exec_tokenPromotion {c : Nat} {q : QTok}
    (h : ([1, 2, 3].filterMap fun c => (((s.core core).tok.fifo c).find? fun q => decide (q.since + 2 ^ 20 ≤ s.clk core)).map
      fun q => (c, q)).head? = some (c, q)) :
    exec (.tokenPromotion core) s = .next ((s.modTok core fun u => u.setFifo c ((u.fifo c).erase q)).file core (c - 1) q) := by
  change execTokenPromotion core s = _
  simp only [execTokenPromotion, h]

theorem State.modFrm_modFrm (f g : FrameUnit → FrameUnit) : (s.modFrm core f).modFrm core g = s.modFrm core fun u => g (f u) := by
  simp [State.modFrm, State.modCore, List.modify_modify_eq, Function.comp_def]

theorem State.core_modFrm (f : FrameUnit → FrameUnit) (h : core < s.cores.length) :
    (s.modFrm core f).core core = { s.core core with frm := f (s.core core).frm } := State.core_modCore_same _ _ _ h

/-- R252, R253: a frame taken for a block that is not traced. -/
theorem State.takeFrame_of_next {n : Nat} {mk : Nat → Frame} (hn : (s.core core).frm.next = some n)
    (hf : (s.core core).frm.fits (mk n).slots.length = true) (ht : descTrace ((s.core core).descOf (mk n).cslot (mk n).block) = false)
    (hc : core < s.cores.length) :
    s.takeFrame core mk = some (n, s.modFrm core fun u =>
      { u with free := u.free.filter (fun x => x != n), frames := u.frames ++ [mk n] }) := by
  have ht' : descTrace (((s.modFrm core fun u =>
      { u with free := u.free.filter (fun x => x != n), frames := u.frames ++ [mk n] }).core core).descOf (mk n).cslot (mk n).block) =
      false := by
    rw [State.core_modFrm _ hc]
    exact ht
  simp [State.takeFrame, hn, hf, ht']

/-- R104, R250, R252: the frame that an FNEW's request gets. -/
theorem State.grantFrame_of_fnew {n : Nat} (hw : r.why = .fnew) (hn : (s.core core).frm.next = some n)
    (hf : (s.core core).frm.fits (descFsize ((s.core core).descOf r.cslot r.block)) = true)
    (ht : descTrace ((s.core core).descOf r.cslot r.block) = false) (hc : core < s.cores.length) :
    s.grantFrame core r = (s.modFrm core fun u =>
      { u with fifo := u.fifo.erase r, free := u.free.filter (fun x => x != n),
               frames := u.frames ++ [newFrame n r.ctx r.cslot r.block ((s.core core).descOf r.cslot r.block) r.inst] }).fillFrame core n r := by
  have hcore := State.core_modFrm (s := s) (fun u => { u with fifo := u.fifo.erase r }) hc
  have htake := State.takeFrame_of_next (s := s.modFrm core fun u => { u with fifo := u.fifo.erase r }) (core := core) (n := n)
    (mk := fun n => { newFrame n r.ctx r.cslot r.block ((s.core core).descOf r.cslot r.block) r.inst with fixed := false })
    (by rw [hcore]; exact hn) (by rw [hcore, newFrame, List.length_replicate]; exact hf) (by rw [hcore]; exact ht)
    (by rw [State.modFrm, State.modCore, List.length_modify]; exact hc)
  rw [State.modFrm_modFrm] at htake
  rw [State.grantFrame]
  simp only [hw, htake]
  rfl

end Frames

end Sys2Proof.Machine

namespace Sys2Proof.Claims

open Sys2Proof.Machine

/-- Settles O37: TOKEN_ACCEPT quarantines, holds back, drops, copies, poisons or places the token that arrives for a frame. -/
theorem tokensAreAccepted : Obligations.TokensAreAccepted := by
  intro s i q ha hd hf ht ctx u here
  have h : s.AtFrame i q := ⟨ha, hd, hf, ht⟩
  refine ⟨exec_tokenAccept_of_bad h, exec_tokenAccept_of_full h, exec_tokenAccept_of_stranger h, exec_tokenAccept_of_leaving h,
    fun hok hr hm hl hp => ?_⟩
  rw [exec_tokenAccept_of_staying h hok hr hm hl]
  intro places
  refine ⟨fun hres hb => State.accept_of_sound (s := u) hok hp ht hres hb, fun hres => ?_⟩
  intro v
  generalize htok : mkTok here kPoison (poisonVal v here stResidue) = t
  exact fun hb => State.accept_of_wrong_residue (s := u) hok hp ht hres rfl htok hb

/-- Settles O38: reports, in-port arrivals, tile transfers, frame grants and promotion, and what an FNEW's grant makes. -/
theorem tokensArriveAndAreGranted : Obligations.TokensArriveAndAreGranted := by
  unfold Obligations.TokensArriveAndAreGranted
  refine ⟨⟨?report, ?inport, ?transfer, ?grant, ?promotion⟩, ?fnew⟩
  case report => exact fun s i core ctx st h => exec_quarantineReport h
  case inport =>
    exact fun s i q hi ha hd => ⟨exec_sourcePortArrival_of_blocked hi ha hd, exec_sourcePortArrival_of_open hi ha hd⟩
  case transfer =>
    intro s i q m ha hd ht hf hok hm
    have h : s.Transfer i q m := ⟨ha, hd, ht, hf, hok, hm⟩
    exact ⟨exec_tileTransferReceive_of_sound h, exec_tileTransferReceive_of_wrong_residue h⟩
  case grant => exact fun s core r hn => ⟨exec_frameGrant_of_fit hn, exec_frameGrant_of_wait hn⟩
  case promotion => exact fun s core c q h => exec_tokenPromotion h
  case fnew => exact fun s core n r hw hn hf ht hc => State.grantFrame_of_fnew hw hn hf ht hc

end Sys2Proof.Claims
end


section
/-! PROOFS. FREEZE, the marks and fences, settling, saving and restoring of a context (R334, R359 to R364, R369). -/

namespace Sys2Proof.Machine

open Sys2Proof.Claims

/-! ## FREEZE (R359) -/

section Freeze

variable {s t : State} {id : Nat} {c : Ctx}

/-- A context stands with the seats and traps of `c`. -/
def State.Seated (s : State) (id : Nat) (c : Ctx) : Prop :=
  ∃ d, s.ctx? id = some d ∧ d.seats = c.seats ∧ d.traps = c.traps

/-- R359: a context stands frozen since `now`, with the seats and traps of `c`. -/
def State.FrozenSince (s : State) (now id : Nat) (c : Ctx) : Prop :=
  ∃ d, s.ctx? id = some d ∧ d.mode = .frozen ∧ d.froze = now ∧ d.seats = c.seats ∧ d.traps = c.traps

theorem State.FrozenSince.seated {now : Nat} (h : s.FrozenSince now id c) : s.Seated id c := by
  obtain ⟨d, hd, -, -, hseats, htraps⟩ := h
  exact ⟨d, hd, hseats, htraps⟩

theorem State.Recorded.seated (h : State.Recorded s t) (hs : s.Seated id c) : t.Seated id c := by
  obtain ⟨d, hd, hseats, htraps⟩ := hs
  obtain ⟨r, hr⟩ := h.ctx id d hd
  exact ⟨_, hr, hseats, htraps⟩

theorem State.Recorded.frozenSince {now : Nat} (h : State.Recorded s t) (hs : s.FrozenSince now id c) : t.FrozenSince now id c := by
  obtain ⟨d, hd, hmode, hfroze, hseats, htraps⟩ := hs
  obtain ⟨r, hr⟩ := h.ctx id d hd
  exact ⟨_, hr, hmode, hfroze, hseats, htraps⟩

/-- R359: the packages that are told of the freeze of a context. -/
def State.tellFreeze (s : State) (c : Ctx) : State :=
  (((s.owedFences c).filterMap fun f => if nodeCount ≤ f.2 then some (f.2 - nodeCount) else none).eraseDups).foldl
    (fun s p => s.send (.freeze p [c.id])) s

/-- R359: a context as it freezes, with the fences that it owes. -/
def State.stopped (s : State) (owed : List (Nat × Nat)) (c : Ctx) : Ctx :=
  { c with mode := .frozen, fences := owed, settled := owed.isEmpty, froze := s.wall, marks := [], markers := []
           saved := { c.saved with settle := if owed.isEmpty then s.gtc else c.saved.settle }
           frozenAt := c.seats.map fun k => (k.1, s.clk k.1) }

/-- R359 steps 1 to 4, R397: one context freezes. -/
def State.freezeCtx (s : State) (c : Ctx) : State :=
  let cause := match s.job? c.jobKey with
    | some j => if j.state == .running then 0 else j.local0.toNat % 256
    | none => 0
  c.seats.foldl (fun s k => s.traceRec { core := k.1, ctx := c.id } 8 (BitVec.ofNat 64 (cause * 256)) 0 0)
    ((s.tellFreeze c).modCtx c.id ((s.tellFreeze c).stopped (s.owedFences c)))

/-- R359: the engines of a core let go of the contexts that freeze. -/
def State.stopEngines (todo : List Ctx) (s : State) (core : Nat) : State :=
  let gone := todo.map fun c => c.id
  let n := (s.core core).eng.struckRows gone
  let s := if n == 0 then s else s.modCoreRegs core fun r => { r with rasCount := min (r.rasCount + n) 255 }
  (s.stopLoads core gone).modEng core fun g => g.stop gone

/-- The contexts of a list that run. -/
def State.running (s : State) (ids : List Nat) : List Ctx := s.ctxs.filter fun c => ids.contains c.id && c.mode == .running

theorem State.tellFreeze_job (s : State) (c : Ctx) (key : Nat) :
    ((s.tellFreeze c).modCtx c.id ((s.tellFreeze c).stopped (s.owedFences c))).job? key = s.job? key := by
  have hplat : ∀ (l : List Nat) (u : State), (l.foldl (fun s p => s.send (.freeze p [c.id])) u).plat = u.plat := by
    intro l
    induction l with
    | nil => exact fun _ => rfl
    | cons p l ih => exact fun u => ih _
  rw [State.job?, State.job?, State.modCtx_plat, State.tellFreeze, hplat]

theorem State.freeze_eq (s : State) (ids : List Nat) : s.freeze ids =
    ((s.running ids).flatMap fun c => c.seats.map fun k => k.1).eraseDups.foldl (State.stopEngines (s.running ids))
      ((s.running ids).foldl State.freezeCtx s) := by
  have hone : ∀ (u : State) (c : Ctx), u.freezeCtx c =
      c.seats.foldl (fun s k => s.traceRec { core := k.1, ctx := c.id } 8 (BitVec.ofNat 64 ((
          match ((u.tellFreeze c).modCtx c.id ((u.tellFreeze c).stopped (u.owedFences c))).job? c.jobKey with
            | some j => if j.state == .running then 0 else j.local0.toNat % 256
            | none => 0) * 256)) 0 0)
        ((u.tellFreeze c).modCtx c.id ((u.tellFreeze c).stopped (u.owedFences c))) := by
    intro u c
    rw [State.tellFreeze_job]
    rfl
  rw [show @State.freezeCtx = _ from funext fun u => funext fun c => hone u c]
  rfl

theorem State.recorded_tellFreeze (s : State) (c : Ctx) : State.Recorded s (s.tellFreeze c) :=
  .foldl (f := fun s p => s.send (.freeze p [c.id])) (fun _ _ => .of_ctxs rfl rfl rfl) _ s

theorem State.wall_freezeCtx (s : State) (d : Ctx) : (s.freezeCtx d).wall = s.wall :=
  (State.Recorded.foldl (fun _ _ => State.recorded_traceRec ..) _ _).wall.trans (State.recorded_tellFreeze s d).wall

/-- R359: a context of that id is frozen once one has been dealt with. -/
theorem State.frozenSince_freezeCtx {d : Ctx} (hs : s.Seated id c) (hd : d.id = id) : (s.freezeCtx d).FrozenSince s.wall id c := by
  have htell := State.recorded_tellFreeze s d
  obtain ⟨x, hx, hseats, htraps⟩ := htell.seated hs
  refine (State.Recorded.foldl (fun _ _ => State.recorded_traceRec ..) _ _).frozenSince (?_ : State.FrozenSince _ s.wall id c)
  refine ⟨(s.tellFreeze d).stopped (s.owedFences d) x, ?_, rfl, htell.wall, hseats, htraps⟩
  rw [hd, State.ctx_modCtx_same _ id ((s.tellFreeze d).stopped (s.owedFences d)) fun _ => rfl, hx, Option.map_some]

theorem State.frozenSince_foldl {now : Nat} {l : List Ctx} (hl : ∀ d ∈ l, d.id = id) (hw : s.wall = now) (hs : s.Seated id c)
    (h : l ≠ [] ∨ s.FrozenSince now id c) : (l.foldl State.freezeCtx s).FrozenSince now id c := by
  induction l generalizing s with
  | nil => exact h.resolve_left fun h => h rfl
  | cons d l ih =>
    have hd := hw ▸ State.frozenSince_freezeCtx hs (hl d List.mem_cons_self)
    exact ih (fun e he => hl e (List.mem_cons_of_mem _ he)) ((State.wall_freezeCtx s d).trans hw) hd.seated (.inr hd)

theorem State.recorded_stopLoads (s : State) (core : Nat) (gone : List Nat) : State.Recorded s (s.stopLoads core gone) := by
  refine State.Recorded.foldl (fun s e => ?_) _ s
  split
  · split <;> exact .of_ctxs rfl rfl rfl
  · exact .rfl'

theorem State.recorded_stopEngines (todo : List Ctx) (s : State) (core : Nat) : State.Recorded s (State.stopEngines todo s core) := by
  unfold State.stopEngines
  dsimp only
  generalize hu : (if ((s.core core).eng.struckRows (todo.map fun c => c.id) == 0) = true then s else _) = u
  have h : State.Recorded s u := by
    rw [← hu]
    split
    · exact .rfl'
    · exact .of_ctxs rfl rfl rfl
  exact (h.trans (State.recorded_stopLoads u core _)).trans (.of_ctxs rfl rfl rfl)

theorem State.freeze_of_running (hc : s.ctx? id = some c) (hm : c.mode = .running) : (s.freeze [id]).FrozenSince s.wall id c := by
  have hid : c.id = id := by simpa using List.find?_some hc
  have hmem : c ∈ s.running [id] := by
    simp [State.running, hid, hm, List.mem_of_find?_eq_some hc]
  rw [State.freeze_eq]
  refine (State.Recorded.foldl (State.recorded_stopEngines _) _ _).frozenSince ?_
  refine State.frozenSince_foldl (fun d hd => ?_) rfl ⟨c, hc, rfl, rfl⟩ (.inl (List.ne_nil_of_mem hmem))
  simpa using And.left (by simpa using (List.mem_filter.1 hd).2 : d.id = id ∧ d.mode = .running)

end Freeze

/-! ## Marks, markers, fences and the timeout (R359 to R361) -/

section Settling

variable {s : State}

theorem exec_freezeMark_reaches (node : Nat) : ∃ t, exec (.freezeMark node) s = .next t ∧ t.ms = s.ms ∧ t.cores = s.cores ∧
    ∀ c ∈ s.ctxs, c.mode = .frozen → (∃ f ∈ c.fences, f.2 = node) → ∃ d ∈ t.ctxs, d.id = c.id ∧ node ∈ d.marks := by
  refine ⟨_, rfl, rfl, rfl, fun c hc hm ⟨f, hf, hn⟩ => ?_⟩
  refine ⟨_, List.mem_map_of_mem hc, ?_⟩
  have hany : (c.fences.any fun f => f.2 == node) = true := List.any_eq_true.2 ⟨f, hf, by simpa using hn⟩
  by_cases hk : node ∈ c.marks
  · simp [hk]
  · simp [hm, hany, hk]

/-- What a drain marker leaves as it is: the bytes, the cores and the number of contexts. -/
def State.Marked (s t : State) : Prop := t.ms.mem = s.ms.mem ∧ t.cores = s.cores ∧ t.ctxs.length = s.ctxs.length

theorem State.marked_drainMark (s : State) (id core node : Nat) : State.Marked s (s.drainMark id core node) :=
  ⟨rfl, rfl, List.length_map _⟩

theorem State.marked_foldl {α : Type} {f : State → α → State} (h : ∀ s x, State.Marked s (f s x)) (l : List α) (s : State) :
    State.Marked s (l.foldl f s) := by
  induction l generalizing s with
  | nil => exact ⟨rfl, rfl, rfl⟩
  | cons x l ih =>
    obtain ⟨hmem, hcores, hctxs⟩ := h s x
    obtain ⟨kmem, kcores, kctxs⟩ := ih (f s x)
    exact ⟨kmem.trans hmem, kcores.trans hcores, kctxs.trans hctxs⟩

theorem exec_drainMarker_marks (core node : Nat) : ∃ t, exec (.drainMarker core node) s = .next t ∧ State.Marked s t := by
  refine ⟨_, rfl, State.marked_foldl (fun u c => ?_) _ s⟩
  dsimp only
  split
  · split <;> exact State.marked_drainMark u c.id core node
  · exact ⟨rfl, rfl, rfl⟩

theorem exec_fence_of_last {core node : Nat} {c : Ctx} (hctxs : s.ctxs = [c]) (hm : c.mode = .frozen) (hk : (core, node) ∈ c.markers)
    (hf : c.fences = [(core, node)]) (hl : ∀ r ∈ s.ms.reqs, r.answered = false) :
    exec (.fence core node) s = .next (({ s with ctxs := [{ c with fences := [], settled := true, saved := { c.saved with settle := s.gtc } }] } :
      State).stopJobs) := by
  have hlate : (s.ms.reqs.any fun r => r.site.ctx == c.id && r.site.core == core && r.answered && !r.stepped) = false := by
    refine List.any_eq_false.2 fun r hr => ?_
    simp [hl r hr]
  change execFence core node s = _
  simp only [execFence, hctxs, List.map_cons, List.map_nil, hm, hf, hlate, Ctx.dropFence]
  simp [hk]

theorem exec_settleTimeout_of_late {id : Nat} {c : Ctx} (hc : s.ctx? id = some c) (hm : c.mode = .frozen) (hs : c.settled = false)
    (hlate : c.froze + 5000 ≤ s.wall) : exec (.settleTimeout id) s = .next (s.unsettle c).stopJobs := by
  change execSettleTimeout id s = _
  have hbound : c.froze + (if c.fences.any fun f => decide (nodeCount ≤ f.2) then 5000 else 3000) ≤ s.wall := by
    split <;> omega
  simp only [execSettleTimeout, hc, hm, hs, hbound]
  rfl

theorem exec_settleTimeout_of_early {id : Nat} {c : Ctx} (hc : s.ctx? id = some c) (hearly : s.wall < c.froze + 3000) :
    exec (.settleTimeout id) s = .next s := by
  change execSettleTimeout id s = _
  have hbound : ¬ c.froze + (if c.fences.any fun f => decide (nodeCount ≤ f.2) then 5000 else 3000) ≤ s.wall := by
    split <;> omega
  simp [execSettleTimeout, hc, hbound]

end Settling

/-! ## Saving and restoring (R334, R363, R364) -/

section Saving

variable {s : State} {id : Nat} {c : Ctx} {p : Pkt}

theorem exec_contextSave_of_saveable (hc : s.ctx? id = some c) (hp : s.asked id actSave = some p) (hs : s.saveable c = true) :
    exec (.contextSave id) s = .next ((s.saveCtx c).endPacket p 0) := by
  change execContextSave id s = _
  simp [execContextSave, hc, hp, hs]

theorem exec_contextRestore_of_granted (hc : s.ctx? id = some c) (hp : s.asked id actRestore = some p) (hm : c.mode = .restoring)
    (ha : s.areaOk c = true) (hg : s.granted c = true) (hf : s.fitsBack c = true) :
    exec (.contextRestore id) s = .next ((s.finishRestore c).endPacket p 0) := by
  change execContextRestore id s = _
  simp [execContextRestore, hc, hp, hm, ha, hg, hf]

theorem exec_contextRestore_of_bad_area (hc : s.ctx? id = some c) (hp : s.asked id actRestore = some p) (hm : c.mode = .restoring)
    (ha : s.areaOk c = false) : exec (.contextRestore id) s = .next ((s.abandon id).endPacket p stDataUe) := by
  change execContextRestore id s = _
  simp [execContextRestore, hc, hp, hm, ha]

end Saving

end Sys2Proof.Machine

namespace Sys2Proof.Claims

open Sys2Proof.Machine

/-- Settles O40: a context freezes, is marked, fenced, settled or timed out, is saved and comes back, each as its event says. -/
theorem contextsFreezeSaveAndRestore : Obligations.ContextsFreezeSaveAndRestore := by
  unfold Obligations.ContextsFreezeSaveAndRestore
  refine ⟨⟨fun s ids => rfl, ?frozen, ?mark, ?marker, ?fence, ?timeout⟩, ?area⟩
  case frozen => exact fun s id c hc hm => State.freeze_of_running hc hm
  case mark => exact fun s node => exec_freezeMark_reaches node
  case marker => exact fun s core node => exec_drainMarker_marks core node
  case fence => exact fun s core node id c hctxs _ hm hk hf hl => exec_fence_of_last hctxs hm hk hf hl
  case timeout =>
    exact fun s id c hc hm hs => ⟨exec_settleTimeout_of_late hc hm hs, exec_settleTimeout_of_early hc⟩
  case area =>
    exact fun s id c p hc => ⟨exec_contextSave_of_saveable hc, fun hp hm =>
      ⟨exec_contextRestore_of_granted hc hp hm, exec_contextRestore_of_bad_area hc hp hm⟩⟩

end Sys2Proof.Claims
end


section
/-! PROOFS. QERR keeps 32 bits of the number of a packet that could not be read (R304, R305). -/

namespace Sys2Proof.Machine

/-- A state whose queue 0 stands at packet number 2^32, one more than the 32 bits of QERR.SEQ hold. -/
def wideHead : State := { disp := { queues := [{ head := 2 ^ 32 }] } }

theorem wideHead_takePacket :
    (((wideHead.takePacket {} 1).disp.queues[0]?).map fun q => (q.errStatus, q.errSeq)) = some (1, 0) := by decide +kernel

end Sys2Proof.Machine

namespace Sys2Proof.Claims

open Sys2Proof.Machine

/-- Refutes O41: QERR.SEQ takes the packet's number modulo 2^32, and the statement, which bounds no HEAD, has the number itself. -/
theorem not_doorbellsAndReads : ¬ Obligations.DoorbellsAndReads := by
  unfold Obligations.DoorbellsAndReads
  intro h
  obtain ⟨-, -, -, -, -, htake⟩ := h
  obtain ⟨-, -, hfailed⟩ := htake wideHead {} { head := 2 ^ 32 } 1 rfl
  obtain ⟨-, herr⟩ := hfailed (by decide) rfl
  exact absurd (wideHead_takePacket.symm.trans herr) (by decide)

end Sys2Proof.Claims
end


section
/-! PROOFS. Launch and gang packets are judged, wait, are admitted, translated, placed and injected (R289 to R291, R310,
R315 to R321). -/

namespace Sys2Proof.Machine

open Sys2Proof.Claims

/-! ## CHECKED and WAITING (R310, R315, R316, R320) -/

section Judging

variable {s : State} {i : Nat} {p : Pkt}

theorem State.judgeLaunch_eq (ps : List Pkt) : s.judgeLaunch ps =
    if s.checkAll ps ≠ 0 then ps.foldl (fun t p => t.endPacket p (s.checkAll ps)) s
    else if ps.all Pkt.met then (s.toWaiting ps).toAdmitting ps else s.toWaiting ps := by
  simp only [State.judgeLaunch, bne_iff_ne]

theorem exec_launch_of_checked (hp : s.pkt? i = some p) (hs : p.state = .checked) (ht : p.typ = 0 ∨ 5 ≤ p.typ) (hg : p.gang = none) :
    exec (.launch i) s = .next (s.judgeLaunch [p]) := by
  have htyp : (p.typ == typLaunch || decide (4 < p.typ)) = true := by
    rcases ht with ht | ht
    · rw [ht]
      rfl
    · rw [decide_eq_true (by omega : 4 < p.typ), Bool.or_true]
  change execLaunch i s = _
  simp [execLaunch, hp, hs, htyp, hg]

theorem exec_gang_of_checked (hp : s.pkt? i = some p) (hs : p.state = .checked) (hg : p.gang = some p.no) :
    exec (.gang i) s = .next (s.judgeLaunch (s.gangOf p)) := by
  change execGang i s = _
  simp [execGang, hp, hs, hg]

/-- R310: a record of a packet is marked as met, its test over. -/
def State.markMet (s : State) (p : Pkt) (k : Nat) : State :=
  ((s.testOf p k).elim s fun r => s.dropReq r.id).modPkt p.no fun p =>
    if k == 0 then { p with met0 := true } else { p with met1 := true }

theorem Pkt.isLaunch_iff (p : Pkt) : ((p.typ == typLaunch || p.typ == typGang) = true) ↔ p.typ ≤ 1 := by
  rw [Bool.or_eq_true, beq_iff_eq, beq_iff_eq, typLaunch, typGang]
  omega

theorem State.meet_of_pkt {k : Nat} {q : Pkt} (hq : (s.markMet p k).pkt? p.no = some q) :
    s.meet p k = if q.typ ≤ 1 ∧ ((s.markMet p k).gangOf q).all Pkt.met = true then
      (s.markMet p k).toAdmitting ((s.markMet p k).gangOf q) else s.markMet p k := by
  unfold State.markMet at hq ⊢
  unfold State.meet
  cases ht : s.testOf p k with
  | none =>
    simp only [ht, Option.elim] at hq
    simp only [Option.elim, hq]
    exact ite_congr (propext (by rw [Bool.and_eq_true, Pkt.isLaunch_iff])) (fun _ => rfl) (fun _ => rfl)
  | some r =>
    simp only [ht, Option.elim] at hq
    simp only [Option.elim, hq]
    exact ite_congr (propext (by rw [Bool.and_eq_true, Pkt.isLaunch_iff])) (fun _ => rfl) (fun _ => rfl)

theorem exec_dependenceMet_of_met (hp : s.pkt? (i / 2) = some p) (hs : p.state = .waiting) (hd : s.depMet p (i % 2) = true)
    (hm : (if i % 2 = 0 then p.met0 else p.met1) = false) : exec (.dependenceMet i) s = .next (s.meet p (i % 2)) := by
  change execDependenceMet i s = _
  simp [execDependenceMet, hp, hs, hd, hm]

end Judging

/-! ## Admission (R319) -/

section Admission

variable {s : State} {home : Nat} {g : Region} {p : Pkt}

theorem exec_admissionGrant_of_restore (hg : s.regionAt home = some g) (hp : s.admitHead g = some p) (ht : p.typ = 4) :
    exec (.admissionGrant home) s = .next (s.grantRestore p g) := by
  change execAdmissionGrant home s = _
  simp [execAdmissionGrant, hg, hp, ht, typPreempt]

theorem exec_admissionGrant_of_launch (hg : s.regionAt home = some g) (hp : s.admitHead g = some p) (ht : p.typ ≠ 4) :
    exec (.admissionGrant home) s = .next (s.grantPkts (s.gangOf p)) := by
  change execAdmissionGrant home s = _
  simp [execAdmissionGrant, hg, hp, ht, typPreempt]

/-- R244: with one more seat free on every core of a region, each of them once, a launch fits. -/
theorem State.seats_fit {cores : List Nat} (hn : cores.Nodup) (h : ∀ k ∈ cores, (s.seatsOn k).length + 1 ≤ Config.seats) :
    (cores.all fun c => decide ((s.seatsOn c).length + (cores.filter fun x => x == c).length ≤ Config.seats)) = true := by
  refine List.all_eq_true.2 fun c hc => decide_eq_true ?_
  rw [← List.countP_eq_length_filter, ← List.count, hn.count, if_pos hc]
  exact h c hc

/-- R319: a launch alone at the head of its region's FIFO is granted where a slot is armed and seats are free. -/
theorem State.grantPkts_of_alone {slot : Nat} (hg : s.regionAt p.rhome = some g) (hp : s.admitHead g = some p)
    (hslot : g.armedCid p.cid = some slot) (hn : g.cores.Nodup) (hk : ∀ k ∈ g.cores, (s.seatsOn k).length + 1 ≤ Config.seats)
    (hj : (s.job? (jobKey p.tenant p.job)).isSome = true) (ht : s.tdispOf p.tenant = .run) (hl : s.listed p.tenant p.job = true) :
    s.grantPkts [p] = s.seatNow p g p.job := by
  have hseats := State.seats_fit hn hk
  simp [State.grantPkts, hg, hp, Region.cidRow, hslot, hj, ht, hl, firstNonzero] at hseats ⊢
  exact fun k hk' hlt => absurd (hseats k hk') (Nat.not_le.2 hlt)

end Admission

/-! ## TRANSLATING and PLACING (R289 to R291, R321) -/

section Placing

variable {s : State} {i : Nat} {p : Pkt}

/-- R315, R320: a packet in TRANSLATING that is alone or the head of its gang. -/
structure State.Translating (s : State) (i : Nat) (p : Pkt) : Prop where
  pkt : s.pkt? i = some p
  state : p.state = .translating
  head : p.gang = none ∨ p.gang = some p.no

theorem State.Translating.leads (h : s.Translating i p) :
    (p.state != .translating || (p.gang.isSome && p.gang != some p.no)) = false := by
  obtain ⟨-, hs, hg⟩ := h
  rcases hg with hg | hg <;> simp [hs, hg]

/-- R287: the next page of a gang to be walked. -/
def pageToWalk (ps : List Pkt) : Option (Pkt × Nat × Nat) := ps.findSome? fun p => p.toWalk.map fun w => (p, w)

theorem pageToWalk_of_done {ps : List Pkt} (h : ∀ q ∈ ps, q.toWalk = none) : pageToWalk ps = none :=
  List.findSome?_eq_none_iff.2 fun q hq => by rw [h q hq, Option.map_none]

theorem exec_extentBuild_of_page {q : Pkt} {k va : Nat} (h : s.Translating i p) (hq : pageToWalk (s.gangOf p) = some (q, k, va)) :
    exec (.extentBuild i) s = .next (s.walkPkt q k va) := by
  rw [pageToWalk] at hq
  change execExtentBuild i s = _
  simp only [execExtentBuild, h.pkt, h.leads, hq, Bool.false_eq_true, if_false]

theorem exec_extentBuild_of_error {st : Nat} (h : s.Translating i p) (hw : ∀ q ∈ s.gangOf p, q.toWalk = none)
    (ht : s.translateAll (s.gangOf p) = .error st) :
    exec (.extentBuild i) s = .next ((s.gangOf p).foldl (fun s p => s.undo p st) s) := by
  have hq := pageToWalk_of_done hw
  rw [pageToWalk] at hq
  change execExtentBuild i s = _
  simp only [execExtentBuild, h.pkt, h.leads, hq, Bool.false_eq_true, if_false, ht]

/-- R315: a member of a translated gang is placed in its context. -/
def State.placeNext (s : State) (p : Pkt) : State := match s.ctx? p.ctx with
  | some c => s.startPlacing p c
  | none => s

theorem exec_extentBuild_of_ok {t : State} (h : s.Translating i p) (hw : ∀ q ∈ s.gangOf p, q.toWalk = none)
    (ht : s.translateAll (s.gangOf p) = .ok t) : exec (.extentBuild i) s = .next ((s.gangOf p).foldl State.placeNext t) := by
  have hq := pageToWalk_of_done hw
  rw [pageToWalk] at hq
  change execExtentBuild i s = _
  simp only [execExtentBuild, h.pkt, h.leads, hq, Bool.false_eq_true, if_false, ht]
  rfl

/-- R321: packet `i` in PLACING, whose context runs and whose next number `n` has its fixed frames. -/
structure State.Injecting (s : State) (i n : Nat) (p : Pkt) (c : Ctx) : Prop where
  pkt : s.pkt? i = some p
  ctx : s.ctx? p.ctx = some c
  state : p.state = .placing
  mode : c.mode = .running
  inst : (s.instances c)[p.injected]? = some n
  frames : ∀ b ∈ s.fixedBlocks c, ∃ f ∈ c.fixed, f.1 = b ∧ f.2.1 = n

variable {n : Nat} {c : Ctx}

/-- R321: one more of the `count` homes of packet `i` has its argument word. -/
def State.countInjected (s : State) (i count : Nat) : State := s.modPkt i fun p =>
  { p with injected := p.injected + 1, state := if p.injected + 1 = count then .running else .placing }

theorem State.Injecting.granted (h : s.Injecting i n p c) :
    ((s.fixedBlocks c).all fun b => c.fixed.any fun f => f.1 == b && f.2.1 == n) = true := by
  refine List.all_eq_true.2 fun b hb => List.any_eq_true.2 ?_
  obtain ⟨f, hf, hblock, hinst⟩ := h.frames b hb
  exact ⟨f, hf, by simp [hblock, hinst]⟩

theorem exec_argumentInjection_of_no_port (h : s.Injecting i n p c) (ha : s.argCore c n = none) :
    exec (.argumentInjection i) s = .next (s.countInjected i (s.instances c).length) := by
  change execArgumentInjection i s = _
  simp [execArgumentInjection, h.pkt, h.ctx, h.state, h.mode, h.inst, h.granted, ha, State.countInjected]

theorem exec_argumentInjection_of_unasked {core : Nat} (h : s.Injecting i n p c) (ha : s.argCore c n = some core)
    (hv : s.visitOf .arg (some (i, 0, 0)) = none) : exec (.argumentInjection i) s = .next (s.askArg p c) := by
  change execArgumentInjection i s = _
  simp [execArgumentInjection, h.pkt, h.ctx, h.state, h.mode, h.inst, h.granted, ha, hv]

theorem exec_argumentInjection_of_asked {core : Nat} {r : Req} (h : s.Injecting i n p c) (ha : s.argCore c n = some core)
    (hv : s.visitOf .arg (some (i, 0, 0)) = some r) (hr : r.done = false) : exec (.argumentInjection i) s = .next s := by
  change execArgumentInjection i s = _
  simp [execArgumentInjection, h.pkt, h.ctx, h.state, h.mode, h.inst, h.granted, ha, hv, hr]

theorem exec_argumentInjection_of_read {core : Nat} {r : Req} (h : s.Injecting i n p c) (ha : s.argCore c n = some core)
    (hv : s.visitOf .arg (some (i, 0, 0)) = some r) (hr : r.done = true) :
    exec (.argumentInjection i) s = .next (((s.dropReq r.id).injectArg c n core r).countInjected i (s.instances c).length) := by
  change execArgumentInjection i s = _
  simp [execArgumentInjection, h.pkt, h.ctx, h.state, h.mode, h.inst, h.granted, ha, hv, hr, State.countInjected]

end Placing

end Sys2Proof.Machine

namespace Sys2Proof.Claims

open Sys2Proof.Machine

/-- Settles O42: LAUNCH and GANG judge, DEPENDENCE_MET marks and admits, ADMISSION_GRANT grants the head, EXTENT_BUILD walks, places
or undoes, and ARGUMENT_INJECTION asks and injects, one after another. -/
theorem launchPacketsAdvance : Obligations.LaunchPacketsAdvance := by
  unfold Obligations.LaunchPacketsAdvance
  refine ⟨?judge, ?met, ?grant, ?seat, ?build, ?inject⟩
  case judge =>
    intro s i p hp hs
    refine ⟨fun ht hg => ?_, fun hg => ?_⟩
    · rw [exec_launch_of_checked hp hs ht hg, State.judgeLaunch_eq]
    · rw [exec_gang_of_checked hp hs hg, State.judgeLaunch_eq]
  case met =>
    intro s i p hp hs hd hm u q hq
    have hu : u = s.markMet p (i % 2) := by
      unfold State.markMet
      cases ht : s.testOf p (i % 2) <;> simp only [u, ht, Option.elim, beq_iff_eq]
    rw [hu] at hq ⊢
    exact (exec_dependenceMet_of_met hp hs hd hm).trans (congrArg _ (State.meet_of_pkt hq))
  case grant => exact fun s home g p hg hp => ⟨exec_admissionGrant_of_restore hg hp, exec_admissionGrant_of_launch hg hp⟩
  case seat => exact fun s p g slot hg hp _ hslot hn hk hj ht hl => State.grantPkts_of_alone hg hp hslot hn hk hj ht hl
  case build =>
    intro s i p hp hs hg
    have h : s.Translating i p := ⟨hp, hs, hg⟩
    exact ⟨fun q k va => exec_extentBuild_of_page h, fun hw =>
      ⟨fun st => exec_extentBuild_of_error h hw, fun t => exec_extentBuild_of_ok h hw⟩⟩
  case inject =>
    intro s i n p c hp hc hs hm hn hf
    have h : s.Injecting i n p c := ⟨hp, hc, hs, hm, hn, hf⟩
    exact ⟨exec_argumentInjection_of_no_port h, fun core ha => ⟨exec_argumentInjection_of_unasked h ha, fun r hv =>
      ⟨exec_argumentInjection_of_asked h ha hv, exec_argumentInjection_of_read h ha hv⟩⟩⟩

end Sys2Proof.Claims
end


section
/-! PROOFS. Configuration-load, barrier and pre-emption packets (R315, R316, R323). -/

namespace Sys2Proof.Machine

open Sys2Proof.Claims

/-! ## A packet that is no launch (R315, R316) -/

section Other

variable {s : State} {i : Nat} {p : Pkt} {mine : Pkt → Bool} {k : State → Pkt → State}

theorem State.otherPacket_of_bad_row (hp : s.pkt? i = some p) (hm : mine p = true) (hs : p.state = .checked) (hr : p.rowOne = false) :
    s.otherPacket i mine k = s.endPacket p stFormat := by
  simp [State.otherPacket, hp, hm, hs, State.checkOther, hr, stFormat]

/-- R316: a pre-emption request passes unless its target is another tenant's. -/
theorem State.checkOther_of_row (hr : p.rowOne = true) (ht : p.typ = 4 → ∀ c, s.ctx? p.tctx = some c → c.tenant = p.tenant) :
    s.checkOther p = 0 := by
  have hown : (p.typ == typPreempt && ((s.ctx? p.tctx).map fun c => c.tenant != p.tenant).getD false) = false := by
    by_cases h4 : p.typ = 4
    · cases hc : s.ctx? p.tctx with
      | none => exact Bool.and_false _
      | some c => simp [ht h4 c hc]
    · rw [Bool.and_eq_false_iff]
      exact .inl (beq_false_of_ne h4)
  simp only [State.checkOther, hr, hown, Bool.not_true, Bool.false_eq_true, if_false]

theorem State.otherPacket_of_row (hp : s.pkt? i = some p) (hm : mine p = true) (hs : p.state = .checked) (hr : p.rowOne = true)
    (ht : p.typ = 4 → ∀ c, s.ctx? p.tctx = some c → c.tenant = p.tenant) : s.otherPacket i mine k = s.toWaiting [p] := by
  simp [State.otherPacket, hp, hm, hs, State.checkOther_of_row hr ht]

theorem State.otherPacket_of_met (hp : s.pkt? i = some p) (hm : mine p = true) (hs : p.state ≠ .checked) (h0 : p.met0 = true)
    (h1 : p.met1 = true) : s.otherPacket i mine k = k s p := by
  simp [State.otherPacket, hp, hm, hs, Pkt.met, h0, h1]

end Other

/-! ## What each type does once its dependences are met (R323) -/

/-- R323: what a configuration load does next. -/
def State.loadStep (s : State) (p : Pkt) : State :=
  if p.state == .waiting then (s.modPkt p.no fun p => { p with state := .running }).askImage p 0 32
  else (s.loadVisit p).elim
    (if p.word != 0 then (s.unclaim ((imageOfBytes p.image).region.headD 0) p.slot).endLoad p p.word
      else (s.armSlot ((imageOfBytes p.image).region.headD 0) p.slot (imageOfBytes p.image)).endLoad p 0)
    fun v => if v.2.done then s.loadOn p v.1 v.2 else s

/-- R323, R362, R363: what a save request does next to its target. -/
def State.saveStep (s : State) (p : Pkt) (c : Ctx) : State :=
  if p.state == .running then s
  else if c.mode == .saved then s.endPacket p 0
  else if c.mode == .building || c.mode == .restoring || !s.placed c || (s.asked c.id actSave).isSome then s
  else (s.poolFind c.tenant (Config.saveBytes c.seats.length) []).elim (s.endPacket p stExtentBound) fun a =>
    (s.modCtx c.id fun c' => { c' with saved := { c'.saved with base := a, size := Config.saveBytes c.seats.length } }).modPkt p.no
      fun p => { p with state := .running }

/-- R323, R362: what a resume request does next to its target. -/
def State.resumeStep (s : State) (p : Pkt) (c : Ctx) : State :=
  if p.state == .running || c.mode == .restoring || (s.asked c.id actSave).isSome || (s.asked c.id actRestore).isSome then s
  else if c.mode != .saved then s.endPacket p 0
  else (s.modPkt p.no fun p => { p with state := .running }).modRegion c.home fun g => { g with admitq := g.admitq ++ [p.no] }

/-- R323: a pre-emption request acts on the context that it names, or ends with EXTENT_BOUND. -/
def State.onTarget (f : State → Pkt → Ctx → State) (s : State) (p : Pkt) : State :=
  (s.target p).elim (s.endPacket p stExtentBound) (f s p)

section Steps

variable {s : State} {i : Nat} {p : Pkt} {c : Ctx}

theorem exec_configurationLoad : exec (.configurationLoad i) s =
    .next (s.otherPacket i (fun p => p.typ == typLoad && p.gang.isNone) State.loadStep) := by
  have h : State.loadStep = fun s p =>
      if p.state == .waiting then (s.modPkt p.no fun p => { p with state := .running }).askImage p 0 32
      else match s.loadVisit p with
      | some (k, r) => if r.done then s.loadOn p k r else s
      | none =>
        let m := imageOfBytes p.image
        if p.word != 0 then (s.unclaim (m.region.headD 0) p.slot).endLoad p p.word
        else (s.armSlot (m.region.headD 0) p.slot m).endLoad p 0 := by
    funext s p
    unfold State.loadStep
    split
    · rfl
    · cases s.loadVisit p <;> rfl
  rw [h]
  rfl

theorem exec_barrier : exec (.barrier i) s =
    .next (s.otherPacket i (fun p => p.typ == typBarrier && p.gang.isNone) fun s p => s.endPacket p 0) := rfl

theorem exec_preemptSave : exec (.preemptSave i) s =
    .next (s.otherPacket i (fun p => p.typ == typPreempt && p.action == actSave && p.gang.isNone) (State.onTarget State.saveStep)) := by
  have h : State.onTarget State.saveStep = fun s p => match s.target p with
      | none => s.endPacket p stExtentBound
      | some c =>
        if p.state == .running then s
        else if c.mode == .saved then s.endPacket p 0
        else if c.mode == .building || c.mode == .restoring || !s.placed c || (s.asked c.id actSave).isSome then s
        else
          let size := Config.saveBytes c.seats.length
          match s.poolFind c.tenant size [] with
          | none => s.endPacket p stExtentBound
          | some a => (s.modCtx c.id fun c => { c with saved := { c.saved with base := a, size := size } }).modPkt p.no
              fun p => { p with state := .running } := by
    funext s p
    unfold State.onTarget
    cases s.target p with
    | none => rfl
    | some c =>
      simp only [Option.elim, State.saveStep]
      cases s.poolFind c.tenant (Config.saveBytes c.seats.length) [] <;> rfl
  rw [h]
  rfl

theorem exec_preemptResume : exec (.preemptResume i) s =
    .next (s.otherPacket i (fun p => p.typ == typPreempt && p.action == actRestore && p.gang.isNone)
      (State.onTarget State.resumeStep)) := by
  have h : State.onTarget State.resumeStep = fun s p => match s.target p with
      | none => s.endPacket p stExtentBound
      | some c => s.resumeStep p c := by
    funext s p
    unfold State.onTarget
    cases s.target p <;> rfl
  rw [h]
  rfl

theorem exec_preemptAbandon : exec (.preemptAbandon i) s =
    .next (s.otherPacket i (fun p => p.typ == typPreempt && decide (actAbort ≤ p.action) && p.gang.isNone)
      (State.onTarget fun s p c => (s.abandon c.id).endPacket p 0)) := by
  have h : (State.onTarget fun s p c => (s.abandon c.id).endPacket p 0) = fun s p => match s.target p with
      | none => s.endPacket p stExtentBound
      | some c => (s.abandon c.id).endPacket p 0 := by
    funext s p
    unfold State.onTarget
    cases s.target p <;> rfl
  rw [h]
  rfl

/-- R323: the context that a request names is of its tenant. -/
theorem State.target_of_own (hc : s.ctx? p.tctx = some c) (ht : c.tenant = p.tenant) : s.target p = some c := by
  simp [State.target, hc, ht, Option.filter]

theorem State.target_of_none (h : ∀ c, s.ctx? p.tctx = some c → c.tenant ≠ p.tenant) : s.target p = none := by
  cases hc : s.ctx? p.tctx with
  | none => simp [State.target, hc]
  | some c => simp [State.target, hc, Option.filter, h c hc]

theorem State.onTarget_of_none {f : State → Pkt → Ctx → State} (h : ∀ c, s.ctx? p.tctx = some c → c.tenant ≠ p.tenant) :
    State.onTarget f s p = s.endPacket p stExtentBound := by
  rw [State.onTarget, State.target_of_none h]
  rfl

theorem State.onTarget_of_own {f : State → Pkt → Ctx → State} (hc : s.ctx? p.tctx = some c) (ht : c.tenant = p.tenant) :
    State.onTarget f s p = f s p c := by
  rw [State.onTarget, State.target_of_own hc ht]
  rfl

theorem State.saveStep_of_saved (hp : p.state = .waiting) (hm : c.mode = .saved) : s.saveStep p c = s.endPacket p 0 := by
  simp [State.saveStep, hp, hm]

theorem State.saveStep_of_live (hp : p.state = .waiting) (hsaved : c.mode ≠ .saved) (hb : c.mode ≠ .building) (hr : c.mode ≠ .restoring)
    (hpl : s.placed c = true) (ha : s.asked c.id 0 = none) :
    s.saveStep p c = (s.poolFind c.tenant (Config.saveBytes c.seats.length) []).elim (s.endPacket p stExtentBound) fun a =>
      (s.modCtx c.id fun c' => { c' with saved := { c'.saved with base := a, size := Config.saveBytes c.seats.length } }).modPkt p.no
        fun p => { p with state := .running } := by
  have ha' : s.asked c.id actSave = none := ha
  simp [State.saveStep, hp, hsaved, hb, hr, hpl, ha']

theorem State.resumeStep_of_live (hp : p.state = .waiting) (hs : s.asked c.id 0 = none) (hr : s.asked c.id 1 = none)
    (hm : c.mode ≠ .saved) (hm' : c.mode ≠ .restoring) : s.resumeStep p c = s.endPacket p 0 := by
  have hs' : s.asked c.id actSave = none := hs
  have hr' : s.asked c.id actRestore = none := hr
  simp [State.resumeStep, hp, hs', hr', hm, hm']

theorem State.resumeStep_of_saved (hp : p.state = .waiting) (hs : s.asked c.id 0 = none) (hr : s.asked c.id 1 = none)
    (hm : c.mode = .saved) : s.resumeStep p c =
      (s.modPkt p.no fun p => { p with state := .running }).modRegion c.home fun g => { g with admitq := g.admitq ++ [p.no] } := by
  have hs' : s.asked c.id actSave = none := hs
  have hr' : s.asked c.id actRestore = none := hr
  simp [State.resumeStep, hp, hs', hr', hm]

end Steps

end Sys2Proof.Machine

namespace Sys2Proof.Claims

open Sys2Proof.Machine

/-- R315, R316: what a packet that is no launch does in CHECKED, and in WAITING with its dependences met. -/
theorem otherPacket_does {s : State} {i : Nat} {p : Pkt} {x : Instr} {mine : Pkt → Bool} {k : State → Pkt → State} (hp : s.pkt? i = some p)
    (hx : exec x s = .next (s.otherPacket i mine k)) (hm : mine p = true) {act : State → Prop}
    (hact : p.state = .waiting → ∀ t, act t → k s p = t) :
    (p.state = .checked →
      (p.rowOne = false → exec x s = .next (s.endPacket p stFormat)) ∧
      (p.rowOne = true → (p.typ = 4 → ∀ c, s.ctx? p.tctx = some c → c.tenant = p.tenant) → exec x s = .next (s.toWaiting [p]))) ∧
    (p.state = .waiting → p.met0 = true → p.met1 = true → ∀ t, act t → exec x s = .next t) := by
  refine ⟨fun hs => ⟨fun hr => ?_, fun hr ht => ?_⟩, fun hs h0 h1 t ht => ?_⟩
  · rw [hx, State.otherPacket_of_bad_row hp hm hs hr]
  · rw [hx, State.otherPacket_of_row hp hm hs hr ht]
  · rw [hx, State.otherPacket_of_met hp hm (by rw [hs]; decide) h0 h1, hact hs t ht]

/-- Settles O43: each of these packets is judged by its first row and its target, and then does what its type says. -/
theorem otherPackets : Obligations.OtherPackets := by
  intro s i p hp hg does target noTarget
  refine ⟨?load, ?reads, ?ends, ?barrier, ?save, ?resume, ?abandon⟩
  case load =>
    intro ht
    refine otherPacket_does hp exec_configurationLoad (by simp [ht, hg, typLoad]) fun hs t h => ?_
    rw [h, State.loadStep, hs]
    rfl
  case reads =>
    intro ht hs h0 h1 k r hv
    have hx : exec (.configurationLoad i) s = .next (if r.done then s.loadOn p k r else s) := by
      rw [exec_configurationLoad, State.otherPacket_of_met hp (by simp [ht, hg, typLoad]) (by rw [hs]; decide) h0 h1, State.loadStep,
        hs, hv]
      rfl
    exact ⟨fun hr => by simpa [hr] using hx, fun hr => by simpa [hr] using hx⟩
  case ends =>
    intro ht hs h0 h1 hv m
    have hx : exec (.configurationLoad i) s = .next (if p.word != 0 then (s.unclaim (m.region.headD 0) p.slot).endLoad p p.word
        else (s.armSlot (m.region.headD 0) p.slot m).endLoad p 0) := by
      rw [exec_configurationLoad, State.otherPacket_of_met hp (by simp [ht, hg, typLoad]) (by rw [hs]; decide) h0 h1, State.loadStep,
        hs, hv]
      rfl
    exact ⟨fun hw => hx.trans (congrArg _ (if_neg (by simp [hw]))), fun hw => hx.trans (congrArg _ (if_pos (bne_iff_ne.2 hw)))⟩
  case barrier =>
    intro ht
    exact otherPacket_does hp exec_barrier (by simp [ht, hg, typBarrier]) fun _ t h => h.symm
  case save =>
    rintro ⟨ht, ha⟩
    refine otherPacket_does hp exec_preemptSave (by simp [ht, ha, hg, typPreempt, actSave]) fun hs t h => ?_
    rcases h with ⟨hno, rfl⟩ | ⟨c, ⟨hc, hten⟩, ⟨hm, rfl⟩ | ⟨hsaved, hb, hr, hpl, hask, ⟨hpool, rfl⟩ | ⟨a, hpool, rfl⟩⟩⟩
    · exact State.onTarget_of_none hno
    · rw [State.onTarget_of_own hc hten, State.saveStep_of_saved hs hm]
    · rw [State.onTarget_of_own hc hten, State.saveStep_of_live hs hsaved hb hr hpl hask, hpool]
      rfl
    · rw [State.onTarget_of_own hc hten, State.saveStep_of_live hs hsaved hb hr hpl hask, hpool]
      rfl
  case resume =>
    rintro ⟨ht, ha⟩
    refine otherPacket_does hp exec_preemptResume (by simp [ht, ha, hg, typPreempt, actRestore]) fun hs t h => ?_
    rcases h with ⟨hno, rfl⟩ | ⟨c, ⟨hc, hten⟩, hsave, hrestore, ⟨hm, hm', rfl⟩ | ⟨hm, rfl⟩⟩
    · exact State.onTarget_of_none hno
    · rw [State.onTarget_of_own hc hten, State.resumeStep_of_live hs hsave hrestore hm hm']
    · rw [State.onTarget_of_own hc hten, State.resumeStep_of_saved hs hsave hrestore hm]
  case abandon =>
    rintro ⟨ht, ha⟩
    refine otherPacket_does hp exec_preemptAbandon (by simp [ht, ha, hg, typPreempt, actAbort]) fun _ t h => ?_
    rcases h with ⟨hno, rfl⟩ | ⟨c, ⟨hc, hten⟩, rfl⟩
    · exact State.onTarget_of_none hno
    · exact State.onTarget_of_own hc hten

end Sys2Proof.Claims
end


section
/-! PROOFS. Debug commands (R379, R386 to R392) and the Cairn wave (R381 to R385, R388, R389, R426 to R428). -/

namespace Sys2Proof.Machine

open Sys2Proof.Claims

/-! ## How a command is judged (R390, R391) -/

section Judge

variable {s : State} {key : Nat} {rights : List Nat} {reserved unknown : Bool} {valid : Job → Bool} {j : Job}

theorem State.judgeCmd_of_reserved : s.judgeCmd key rights true unknown valid = .error stFormat := by
  simp [State.judgeCmd]

theorem State.judgeCmd_of_unknown : s.judgeCmd key rights false true valid = .error stExtentBound := by
  simp [State.judgeCmd]

theorem State.judgeCmd_of_no_job (h : s.job? key = none) : s.judgeCmd key rights false unknown valid = .error stExtentBound := by
  simp [State.judgeCmd, h]

theorem State.judgeCmd_of_no_right (h : s.job? key = some j) (hr : (rights.any fun b => bf j.rights b 1 == 1) = false) :
    s.judgeCmd key rights false false valid = .error stPerm := by
  simp only [State.judgeCmd, h, hr]
  rfl

theorem State.judgeCmd_of_invalid (h : s.job? key = some j) (hr : (rights.any fun b => bf j.rights b 1 == 1) = true)
    (hv : valid j = false) : s.judgeCmd key rights false false valid = .error stFormat := by
  simp only [State.judgeCmd, h, hr, hv]
  rfl

theorem State.judgeCmd_of_valid (h : s.job? key = some j) (hr : (rights.any fun b => bf j.rights b 1 == 1) = true)
    (hv : valid j = true) : s.judgeCmd key rights false false valid = .ok j := by
  simp only [State.judgeCmd, h, hr, hv]
  rfl

theorem right_of_bit {b : Nat} (h : bf j.rights b 1 = 1) : ([b].any fun b => bf j.rights b 1 == 1) = true := by simp [h]

theorem no_right_of_bit {b : Nat} (h : bf j.rights b 1 = 0) : ([b].any fun b => bf j.rights b 1 == 1) = false := by simp [h]

end Judge

/-! ## What a refused command answers (R390) -/

section Refused

variable {s : State} {job core n what frame node st : Nat} {hen : BitVec 6} {tok tmask val vmask ctl : Word}

theorem exec_halt_of_refused (h : s.judgeCmd job [3] false false (fun j => j.state == .running) = .error st) :
    exec (.halt job) s = .next (s.respondTo 1 st []) := by
  change execHalt job s = _
  simp only [execHalt, h, opHalt]

theorem exec_sethen_of_refused (h : s.judgeCmd job [3] false false (fun _ => true) = .error st) :
    exec (.sethen job hen) s = .next (s.respondTo 5 st []) := by
  change execSethen job hen s = _
  simp only [execSethen, h, opSethen]

theorem exec_setbrk_of_refused
    (h : s.judgeCmd job [3] (decide (8 ≤ n) || bf ctl.toNat 2 46 != 0) (decide (Config.cores ≤ core)) (fun _ => true) = .error st) :
    exec (.setbrk job core n tok tmask val vmask ctl) s = .next (s.respondTo 6 st []) := by
  change execSetbrk job core n tok tmask val vmask ctl s = _
  simp only [execSetbrk, h, opSetbrk]

theorem exec_read_of_refused (h : s.judgeCmd job (if what < 3 then [0, 1, 2, 3] else [1]) false
    (decide (1026 < what) || decide (Config.cores ≤ core)) (fun _ => true) = .error st) :
    exec (.read job core what) s = .next (s.respondTo 7 st []) := by
  change execRead job core what s = _
  simp only [execRead, h, opRead]

theorem State.stepRun_of_refused {pick : Option (Nat × QTok)}
    (h : s.judgeCmd job [2] false (decide (Config.cores ≤ core)) (fun j => j.state == .halted) = .error st) :
    s.stepRun job core pick = .next (s.respondTo 2 st []) := by
  simp only [State.stepRun, h, opStep]

/-- The token that STEP of the next token selects (R386). -/
def State.stepNextPick (s : State) (job core : Nat) : Option (Nat × QTok) :=
  s.stepPick job core fun l => (l.take 8).find? fun q => s.stepReady job core q

/-- The token that STEP of a named frame and node selects (R386). -/
def State.stepNamedPick (s : State) (job core frame node : Nat) : Option (Nat × QTok) :=
  s.stepPick job core fun l => l.find? fun q => q.frame == frame && q.instr == node && s.stepReady job core q

theorem exec_stepNext : exec (.stepNext job core) s = s.stepRun job core (s.stepNextPick job core) := rfl

theorem exec_stepNamed : exec (.stepNamed job core frame node) s = s.stepRun job core (s.stepNamedPick job core frame node) := rfl

end Refused

/-! ## What a granted command does (R384, R386, R390, R392) -/

section Granted

variable {s : State} {job core n what frame node : Nat} {hen : BitVec 6} {tok tmask val vmask ctl : Word} {j : Job}

theorem exec_halt_of_running (h : s.job? job = some j) (hr : bf j.rights 3 1 = 1) (hs : j.state = .running) :
    exec (.halt job) s = .next
      (((s.beginHalt job (BitVec.ofNat 64 (s.plat.pkg * 2 ^ 52)) s.gtc true).stopJobs).respondTo 1 0 []) := by
  have hj := State.judgeCmd_of_valid (valid := fun j => j.state == .running) h (right_of_bit hr) (by simp [hs])
  change execHalt job s = _
  simp only [execHalt, hj, opHalt]

theorem exec_sethen_of_right (h : s.job? job = some j) (hr : bf j.rights 3 1 = 1) :
    exec (.sethen job hen) s = .next (((s.peers job).foldl (fun s p => s.send (.relay p job (.sethen hen.toNat)))
      (s.modJob job fun j => { j with hen := hen.toNat &&& 0x2F })).respondTo 5 0 []) := by
  have hj := State.judgeCmd_of_valid (valid := fun _ => true) h (right_of_bit hr) rfl
  change execSethen job hen s = _
  simp only [execSethen, hj, opSethen]
  rfl

theorem exec_setbrk_of_right (h : s.job? job = some j) (hr : bf j.rights 3 1 = 1) (hn : n < 8) (hctl : bf ctl.toNat 2 46 = 0)
    (hc : core < Config.cores) :
    exec (.setbrk job core n tok tmask val vmask ctl) s = .next
      ((s.modCore core fun k => { k with brk := k.brk.set n { tok := tok, tmask := tmask, val := val, vmask := vmask, ctl := ctl,
                                                                job := job } }).respondTo 6 0 []) := by
  have hj := State.judgeCmd_of_valid (valid := fun _ => true) h (right_of_bit hr) rfl
  have hres : (decide (8 ≤ n) || bf ctl.toNat 2 46 != 0) = false := by simp [hctl, hn]
  have hunk : decide (Config.cores ≤ core) = false := decide_eq_false (Nat.not_le.2 hc)
  change execSetbrk job core n tok tmask val vmask ctl s = _
  simp only [execSetbrk, hres, hunk, hj, opSetbrk]

/-- The words that READ answers (R390). -/
def State.readWords (s : State) (j : Job) (core what : Nat) : List Word := match what with
  | 0 => [jdbg j]
  | 1 => [j.local0, j.local1]
  | 2 => [j.dom0, j.dom1]
  | i => histWords (s.core core).hist (i - 3)

theorem exec_read_of_right (h : s.job? job = some j) (hr : bf j.rights 1 1 = 1) (hw : what ≤ 1026) (hc : core < Config.cores) :
    exec (.read job core what) s = .next (s.respondTo 7 0 (s.readWords j core what)) := by
  have hany : ((if what < 3 then [0, 1, 2, 3] else [1]).any fun b => bf j.rights b 1 == 1) = true := by split <;> simp [hr]
  have hj := State.judgeCmd_of_valid (valid := fun _ => true) h hany rfl
  have hunk : (decide (1026 < what) || decide (Config.cores ≤ core)) = false := by simp [hw, hc]
  change execRead job core what s = _
  rw [execRead, hunk, hj]
  rfl

theorem State.stepRun_of_none (h : s.job? job = some j) (hr : bf j.rights 2 1 = 1) (hs : j.state = .halted) (hc : core < Config.cores) :
    s.stepRun job core none = .next (s.respondTo 2 stExtentBound []) := by
  have hj := State.judgeCmd_of_valid (valid := fun j => j.state == .halted) h (right_of_bit hr) (by simp [hs])
  have hunk : decide (Config.cores ≤ core) = false := decide_eq_false (Nat.not_le.2 hc)
  simp only [State.stepRun, hunk, hj, opStep]

theorem State.stepRun_of_some {cls : Nat} {q : QTok} (h : s.job? job = some j) (hr : bf j.rights 2 1 = 1) (hs : j.state = .halted)
    (hc : core < Config.cores) :
    s.stepRun job core (some (cls, q)) =
      let u := (s.modJob job fun j => { j with state := .stepping, step := true }).modTok core
        fun u => u.setFifo cls (swapTok q { q with step := true } (u.fifo cls))
      .next { u with agenda := { act := .select core [] } :: s.agenda } := by
  have hj := State.judgeCmd_of_valid (valid := fun j => j.state == .halted) h (right_of_bit hr) (by simp [hs])
  have hunk : decide (Config.cores ≤ core) = false := decide_eq_false (Nat.not_le.2 hc)
  simp only [State.stepRun, hunk, hj]
  rfl

end Granted

/-! ## The end of a step (R386) -/

section StepEnd

variable {s : State} {job : Nat} {j : Job}

/-- A change of the members of one key shows in the member found under that key. -/
theorem find?_map_of_key {α : Type} (key : α → Nat) (xs : List α) (n : Nat) (f : α → α) (hf : ∀ x, key (f x) = key x) :
    (xs.map fun x => if key x == n then f x else x).find? (fun x => key x == n) = (xs.find? fun x => key x == n).map f := by
  induction xs with
  | nil => rfl
  | cons x xs ih =>
    rw [List.map_cons, List.find?_cons, List.find?_cons]
    cases hx : key x == n
    · simpa [hx] using ih
    · simp [hf, hx]

theorem State.job?_modJob (f : Job → Job) (hf : ∀ j, (f j).key = j.key) : (s.modJob job f).job? job = (s.job? job).map f :=
  find?_map_of_key Job.key s.plat.jobs job f hf

/-- R432: what an MSI-X vector leaves as it is. -/
structure State.Raised (s t : State) : Prop where
  jobs : t.plat.jobs = s.plat.jobs
  members : t.plat.members = s.plat.members
  pkg : t.plat.pkg = s.plat.pkg
  ctxs : t.ctxs = s.ctxs
  ms : t.ms = s.ms
  flight : t.flight = s.flight

theorem State.raised_msix (s : State) (vf vector : Nat) : State.Raised s (s.msix vf vector) := by
  unfold State.msix
  split
  · exact ⟨rfl, rfl, rfl, rfl, rfl, rfl⟩
  · dsimp only
    split <;> exact ⟨rfl, rfl, rfl, rfl, rfl, rfl⟩

theorem State.Raised.peers {t : State} (h : State.Raised s t) : t.peers job = s.peers job := by
  rw [State.peers, State.peers, h.members, h.pkg]

/-- R432: a vector's message does not depend on the jobs, the requests or the cores. -/
theorem State.msix_outbox {t : State} (vf vector : Nat) (hout : t.outbox = s.outbox) (hvfs : t.plat.vfs = s.plat.vfs) :
    (t.msix vf vector).outbox = (s.msix vf vector).outbox := by
  unfold State.msix
  rw [hvfs]
  split
  · exact hout
  · dsimp only
    split
    · exact hout
    · rw [State.send_outbox, State.send_outbox, hout]
      rfl

theorem exec_stepEnd_of_no_step (h : s.job? job = some j) (hs : j.step = false) : exec (.stepEnd job) s = .next s := by
  change execStepEnd job s = _
  simp [execStepEnd, h, hs]

/-- R386: the requests and commands of a job's contexts are no step's any more. -/
def State.unstepped (s : State) (job : Nat) : State :=
  let mine (id : Nat) : Bool := (s.jobCtxs job).any fun c => c.id == id
  let s := s.modMs fun m => { m with reqs := m.reqs.map fun r => if mine r.site.ctx then { r with stepped := false } else r }
  { s with cores := s.cores.map fun k =>
      { k with eng := { k.eng with recs := k.eng.recs.map fun e => if mine e.site.ctx then { e with stepped := false } else e } } }

theorem exec_stepEnd_of_stepping (h : s.job? job = some j) (hst : j.step = true) (hs : j.state = .stepping) (hw : s.stepWaits job = false) :
    exec (.stepEnd job) s =
      .next ((((s.unstepped job).backToHalted job).modJob job fun j => { j with step := false }).respondTo 2 0 []) := by
  change execStepEnd job s = _
  simp only [execStepEnd, h, hst, hs, hw, Bool.not_true, Bool.or_self, Bool.false_eq_true, if_false, beq_self_eq_true, if_true, opStep]
  rfl

theorem State.job?_backToHalted (h : s.job? job = some j) : (s.backToHalted job).job? job = some { j with state := .halted } := by
  rw [State.backToHalted, State.job?, (State.raised_msix ..).jobs]
  change (s.modJob job fun j => { j with state := .halted }).job? job = _
  rw [State.job?_modJob (fun j => { j with state := .halted }) fun _ => rfl, h, Option.map_some]

theorem State.stepEnded (h : s.job? job = some j) :
    let t := (((s.unstepped job).backToHalted job).modJob job fun j => { j with step := false }).respondTo 2 0 []
    t.job? job = some { j with step := false, state := .halted } ∧
      t.outbox = (s.msix (job / 65536 + 1) 2).outbox ++ [{ msg := .response 2 0 [] }] ∧ t.ctxs = s.ctxs ∧ t.ms.mem = s.ms.mem ∧
      t.flight = s.flight := by
  have hmsix := State.raised_msix ((s.unstepped job).modJob job fun j => { j with state := .halted }) (job / 65536 + 1) 2
  have hback : ((s.unstepped job).backToHalted job).job? job = some { j with state := .halted } := State.job?_backToHalted h
  have hend : ((((s.unstepped job).backToHalted job).modJob job fun j => { j with step := false })).job? job =
      some { j with step := false, state := .halted } := by
    rw [State.job?_modJob (fun j => { j with step := false }) fun _ => rfl, hback, Option.map_some]
  have hmem : (((s.unstepped job).modJob job fun j => { j with state := .halted }).msix (job / 65536 + 1) 2).ms.mem = s.ms.mem := by
    rw [hmsix.ms]
    rfl
  refine ⟨hend, ?_, hmsix.ctxs, hmem, hmsix.flight⟩
  have hout : ((s.unstepped job).backToHalted job).outbox = (s.msix (job / 65536 + 1) 2).outbox :=
    State.msix_outbox _ _ rfl rfl
  exact congrArg (· ++ [{ msg := .response 2 0 [] }]) hout

end StepEnd

/-! ## ARM, CANCEL and the resume instant (R388, R389) -/

section Resume

variable {s : State} {job t : Nat} {j : Job}

/-- R388, R389: a command is relayed to the job's other packages. -/
def State.relayAll (s : State) (u : State) (job : Nat) (r : Relay) : State := (s.peers job).foldl (fun s p => s.send (.relay p job r)) u

theorem exec_arm_of_valid (h : s.job? job = some j) (hr : bf j.rights 3 1 = 1) (hs : j.state = .halted) (hp : s.plat.l2pPending = 0) :
    exec (.arm job t) s =
      let a := s.takeArm job t
      .next (a.2.relayAll (a.2.modJob job fun j => { j with arms := j.arms ++ [(t, if a.1 then [s.plat.pkg] else [])] }) job (.arm t)) := by
  have hj := State.judgeCmd_of_valid (valid := fun j => j.state == .halted && s.plat.l2pPending == 0) h (right_of_bit hr)
    (by simp [hs, hp])
  change execArm job t s = _
  simp only [execArm, hj]
  rfl

theorem exec_arm_of_invalid (h : s.job? job = some j) (hr : bf j.rights 3 1 = 1) (hs : j.state ≠ .halted ∨ s.plat.l2pPending ≠ 0) :
    exec (.arm job t) s = .next (s.respondTo 3 stFormat []) := by
  have hj := State.judgeCmd_of_invalid (valid := fun j => j.state == .halted && s.plat.l2pPending == 0) h (right_of_bit hr)
    (by rcases hs with hs | hs <;> simp [hs])
  change execArm job t s = _
  simp only [execArm, hj, opArm]

theorem State.takeArm_of_time (h : s.job? job = some j) (hs : j.state = .halted) (ht : s.gtc + 2000 ≤ t) :
    s.takeArm job t = (true, s.modJob job fun j => { j with state := .armed, resumeAt := t }) := by
  simp [State.takeArm, h, hs, ht]

theorem State.takeArm_of_late (h : s.job? job = some j) (ht : t < s.gtc + 2000) : s.takeArm job t = (false, s) := by
  simp [State.takeArm, h, Nat.not_le.2 ht]

theorem exec_cancel_of_right (h : s.job? job = some j) (hr : bf j.rights 3 1 = 1) :
    exec (.cancel job) s =
      let a := s.takeCancel job
      .next ((a.2.relayAll (a.2.modJob job fun j => { j with cancels := j.cancels ++ [(s.peers job, if a.1 then 1 else 0)] }) job
        .cancel).endCancels job) := by
  have hj := State.judgeCmd_of_valid (valid := fun _ => true) h (right_of_bit hr) rfl
  change execCancel job s = _
  simp only [execCancel, hj]
  rfl

theorem State.takeCancel_of_time (h : s.job? job = some j) (hr : bf j.rights 3 1 = 1) (hs : j.state = .armed) (ht : s.gtc < j.resumeAt) :
    s.takeCancel job = (true, s.backToHalted job) := by
  simp [State.takeCancel, h, hr, hs, ht]

theorem State.takeCancel_of_state (h : s.job? job = some j) (hs : j.state ≠ .armed) : s.takeCancel job = (false, s) := by
  simp [State.takeCancel, h, hs]

theorem State.endArms_gtc (s : State) (job : Nat) : (s.endArms job).gtc = s.gtc := by
  have hfold : ∀ (all : List Nat) (l : List (Nat × List Nat)) (u : State), (l.foldl (fun s a =>
      s.respondTo opArm 0 [BitVec.ofNat 64 a.2.length, BitVec.ofNat 64 ((all.filter fun p => !a.2.contains p).foldl min 0xFFF)]) u).gtc =
      u.gtc := by
    intro all l
    induction l with
    | nil => exact fun _ => rfl
    | cons a l ih => exact fun u => ih _
  unfold State.endArms
  split
  · rfl
  · exact hfold ..

theorem exec_resumeInstant_of_due (h : s.job? job = some j) (hs : j.state = .armed) (ht : j.resumeAt ≤ s.gtc) :
    exec (.resumeInstant job) s = .next ((s.endArms job).resumeJob job) := by
  change execResumeInstant job s = _
  simp [execResumeInstant, h, hs, State.endArms_gtc, ht]

theorem exec_resumeInstant_of_state (h : s.job? job = some j) (hs : j.state ≠ .armed) :
    exec (.resumeInstant job) s = .next (s.endArms job) := by
  change execResumeInstant job s = _
  simp [execResumeInstant, h, hs]

end Resume

/-! ## What members send (R381, R383 to R385, R426) -/

section Members

variable {s : State} {job pkg : Nat} {w0 w1 : Word} {j : Job}

/-- R384: a halt that another package reports begins here, as HALT_REMOTE. -/
def State.remoteHalt (s : State) (job : Nat) : State := s.beginHalt job (BitVec.ofNat 64 (s.plat.pkg * 2 ^ 52 + 7)) s.gtc false

theorem exec_cairnMessage_of_stranger (h : s.job? job = some j) (hp : pkg ∉ s.peers job) :
    exec (.cairnMessage ⟨job, pkg⟩) s = .next (s.countDropped 9) := by
  change execCairnMessage ⟨job, pkg⟩ s = _
  simp [execCairnMessage, h, hp]

theorem exec_cairnMessage_of_running (h : s.job? job = some j) (hp : pkg ∈ s.peers job) (hs : j.state = .running) :
    exec (.cairnMessage ⟨job, pkg⟩) s = .next (s.remoteHalt job).stopJobs := by
  change execCairnMessage ⟨job, pkg⟩ s = _
  simp [execCairnMessage, h, hp, hs, State.remoteHalt]

theorem exec_cairnMessage_of_state (h : s.job? job = some j) (hp : pkg ∈ s.peers job) (hs : j.state ≠ .running) :
    exec (.cairnMessage ⟨job, pkg⟩) s = .next s := by
  change execCairnMessage ⟨job, pkg⟩ s = _
  simp [execCairnMessage, h, hp, hs]

theorem exec_causeReport_of_stranger (h : s.job? job = some j) (hp : pkg ∉ s.peers job) :
    exec (.causeReport job pkg w0 w1) s = .next (s.countDropped 9) := by
  change execCauseReport job pkg w0 w1 s = _
  simp [execCauseReport, h, hp]

theorem exec_causeReport_of_member (h : s.job? job = some j) (hp : pkg ∈ s.peers job) :
    exec (.causeReport job pkg w0 w1) s = .next ((if j.state = .running then s.remoteHalt job else s).modJob job fun j =>
      { j.report w0 w1 with reported := if j.reported.contains pkg then j.reported else pkg :: j.reported }).stopJobs := by
  change execCauseReport job pkg w0 w1 s = _
  simp only [execCauseReport, h, List.contains_iff_mem.2 hp, Bool.not_true, Bool.false_eq_true, if_false, beq_iff_eq, State.remoteHalt]

theorem exec_memberReportTimeout_of_late (h : s.job? job = some j) (hp : pkg ∈ s.peers job) (hs : j.state = .halting)
    (hr : pkg ∉ j.reported) (ht : j.since + 10000 ≤ s.wall) :
    exec (.memberReportTimeout job pkg) s = .next (s.modJob job fun j => { j with reported := pkg :: j.reported }).stopJobs := by
  change execMemberReportTimeout job pkg s = _
  simp [execMemberReportTimeout, h, hp, hs, hr, ht]

theorem exec_memberReportTimeout_of_early (h : s.job? job = some j) (ht : s.wall < j.since + 10000) :
    exec (.memberReportTimeout job pkg) s = .next s := by
  change execMemberReportTimeout job pkg s = _
  simp [execMemberReportTimeout, h, Nat.not_le.2 ht]

end Members

/-! ## Rights (R391, R427, R428) -/

section Rights

variable {s : State} {tenant job key rights : Nat} {r : BitVec 4} {j : Job}

theorem exec_rightsMessage_of_unsigned : exec (.rightsMessage tenant job ⟨r, false⟩) s = .next s := rfl

theorem exec_rightsMessage_of_no_session (h : s.hasSession tenant = false) : exec (.rightsMessage tenant job ⟨r, true⟩) s = .next s := by
  change execRightsMessage tenant job ⟨r, true⟩ s = _
  simp [execRightsMessage, h]

theorem State.peers_setRights : (s.setRights key rights).peers job = s.peers job := by
  unfold State.setRights
  dsimp only
  split
  · rfl
  · split <;> rfl

theorem exec_rightsMessage_of_session (h : s.hasSession tenant = true) :
    exec (.rightsMessage tenant job ⟨r, true⟩) s =
      let key := jobKey tenant (job % 65536)
      .next ((s.peers key).foldl (fun s p => s.send (.relay p key (.rights r.toNat))) (s.setRights key r.toNat)) := by
  change execRightsMessage tenant job ⟨r, true⟩ s = _
  simp only [execRightsMessage, h, Bool.not_true, Bool.or_self, Bool.false_eq_true, if_false, State.peers_setRights]

/-- R428: a job as the revocation of its HALT right leaves it. -/
def Job.revoked (j : Job) (rights now : Nat) : Job :=
  if j.state == .halted || j.state == .stepping then { j with rights := rights, hen := 0, state := .armed, resumeAt := now + 100000 }
  else { j with rights := rights, hen := 0 }

theorem State.setRights_of_revoked (h : s.job? key = some j) (hj : bf j.rights 3 1 = 1) (hr : bf rights 3 1 = 0) :
    (s.setRights key rights).job? key = some (j.revoked rights s.gtc) := by
  have hkept : ¬ (bf j.rights 3 1 == 0 || bf rights 3 1 == 1) = true := by simp [hj, hr]
  have hten : ∀ f : List Tenant → List Tenant,
      (s.modPlat fun p => { p with tenants := f p.tenants }).job? key = some j := fun _ => h
  rw [State.setRights]
  dsimp only
  rw [hten]
  dsimp only
  rw [if_neg hkept, State.job?_modJob _ (fun j => by split <;> rfl)]
  have hmid : ∀ (u : State) (cores : List Core), u.job? key = some j →
      ({ u.modJob key fun j => { j with rights := rights } with cores := cores } : State).job? key = some { j with rights := rights } := by
    intro u cores hu
    refine (State.job?_modJob (s := u) (fun j => { j with rights := rights }) fun _ => rfl).trans ?_
    rw [hu, Option.map_some]
  rw [hmid _ _ (hten _)]
  rfl

end Rights

end Sys2Proof.Machine

namespace Sys2Proof.Claims

open Sys2Proof.Machine

/-- Settles O44: a debug command is judged in its order and refused with its status, or does what R384, R386, R390 and R392 say. -/
theorem debugCommands : Obligations.DebugCommands := by
  unfold Obligations.DebugCommands
  refine ⟨?refused, ?granted, ?unstepped, ?ended⟩
  case refused =>
    intro s job core n what frame node hen tok tmask val vmask ctl
    refine ⟨fun h => ?_, fun hn => ?_, fun hn hctl hc => ?_, fun hw => ?_, fun j h => ⟨fun hr => ?_, fun hr hc => ?_, fun hr hs => ?_,
      fun hr hs hc => ?_⟩⟩
    · exact ⟨exec_halt_of_refused (State.judgeCmd_of_no_job h), exec_sethen_of_refused (State.judgeCmd_of_no_job h),
        exec_stepNext.trans (State.stepRun_of_refused (State.judgeCmd_of_no_job h)),
        exec_stepNamed.trans (State.stepRun_of_refused (State.judgeCmd_of_no_job h)),
        exec_read_of_refused (State.judgeCmd_of_no_job h)⟩
    · refine exec_setbrk_of_refused ?_
      rw [decide_eq_true hn, Bool.true_or]
      exact State.judgeCmd_of_reserved
    · refine exec_setbrk_of_refused ?_
      rw [decide_eq_true hc, show (decide (8 ≤ n) || bf ctl.toNat 2 46 != 0) = false by simp [hctl, hn]]
      exact State.judgeCmd_of_unknown
    · refine exec_read_of_refused ?_
      rw [decide_eq_true hw, Bool.true_or]
      exact State.judgeCmd_of_unknown
    · exact ⟨exec_halt_of_refused (State.judgeCmd_of_no_right h (no_right_of_bit hr)),
        exec_sethen_of_refused (State.judgeCmd_of_no_right h (no_right_of_bit hr))⟩
    · refine exec_stepNext.trans (State.stepRun_of_refused ?_)
      rw [decide_eq_false (Nat.not_le.2 hc)]
      exact State.judgeCmd_of_no_right h (no_right_of_bit hr)
    · exact exec_halt_of_refused (State.judgeCmd_of_invalid h (right_of_bit hr) (beq_false_of_ne hs))
    · refine exec_stepNext.trans (State.stepRun_of_refused ?_)
      rw [decide_eq_false (Nat.not_le.2 hc)]
      exact State.judgeCmd_of_invalid h (right_of_bit hr) (beq_false_of_ne hs)
  case granted =>
    intro s job core n what frame node hen tok tmask val vmask ctl j h
    refine ⟨fun hr => ⟨exec_halt_of_running h hr, exec_sethen_of_right h hr, exec_setbrk_of_right h hr⟩, fun hr hw hc => ?_,
      fun hr hs hc => ⟨⟨fun hp => ?_, fun cls q hp => ?_⟩, fun hp => ?_, fun cls q hp => ?_⟩⟩
    · exact exec_read_of_right h hr hw hc
    · rw [exec_stepNamed, State.stepNamedPick, hp, State.stepRun_of_none h hr hs hc]
    · rw [exec_stepNamed, State.stepNamedPick, hp, State.stepRun_of_some h hr hs hc]
    · rw [exec_stepNext, State.stepNextPick, hp, State.stepRun_of_none h hr hs hc]
    · rw [exec_stepNext, State.stepNextPick, hp, State.stepRun_of_some h hr hs hc]
  case unstepped => exact fun s job j h hs => exec_stepEnd_of_no_step h hs
  case ended => exact fun s job j h hst hs hw => ⟨_, exec_stepEnd_of_stepping h hst hs hw, State.stepEnded h⟩

/-- Settles O45: ARM, CANCEL, the resume instant, members' messages and rights messages act on a job as their rules say. -/
theorem cairnMessages : Obligations.CairnMessages := by
  unfold Obligations.CairnMessages
  refine ⟨?resume, ?members, ?messages, ?revoked⟩
  case resume =>
    intro s job t j h hr
    refine ⟨fun hs hp ht => ?_, fun hs hp ht => ?_, exec_arm_of_invalid h hr, fun hs ht => ?_, fun hs => ?_⟩
    · rw [exec_arm_of_valid h hr hs hp, State.takeArm_of_time h hs ht]
      rfl
    · rw [exec_arm_of_valid h hr hs hp, State.takeArm_of_late h ht]
      rfl
    · rw [exec_cancel_of_right h hr, State.takeCancel_of_time h hr hs ht]
      dsimp only
      rw [State.relayAll, State.backToHalted, (State.raised_msix ..).peers]
      rfl
    · rw [exec_cancel_of_right h hr, State.takeCancel_of_state h hs]
      rfl
  case members =>
    intro s job pkg w0 w1 j h
    exact ⟨exec_resumeInstant_of_due h, exec_resumeInstant_of_state h, exec_cairnMessage_of_running h, exec_cairnMessage_of_state h,
      fun hp => ⟨exec_cairnMessage_of_stranger h hp, exec_causeReport_of_stranger h hp⟩, exec_causeReport_of_member h,
      exec_memberReportTimeout_of_late h, exec_memberReportTimeout_of_early h⟩
  case messages =>
    exact fun s tenant job r => ⟨exec_rightsMessage_of_session, exec_rightsMessage_of_unsigned, exec_rightsMessage_of_no_session⟩
  case revoked =>
    intro s key rights j h hj hr
    refine ⟨_, State.setRights_of_revoked h hj hr, ?_⟩
    unfold Job.revoked
    split
    · next hs => exact ⟨rfl, rfl, fun _ => ⟨rfl, rfl⟩, fun hrun => by simp [hrun] at hs⟩
    · next hs => exact ⟨rfl, rfl, fun hhalt => by simp [hhalt] at hs, fun hrun => hrun⟩

end Sys2Proof.Claims
end


section
/-! PROOFS. The translation service: walks, fault replies, invalidations and migrations (R287, R294 to R297, R433, R434). -/

namespace Sys2Proof.Machine

open Sys2Proof.Claims

/-! ## Walks (R287, R294, R295) -/

section Walks

variable {s : State} {i : Nat} {w : Walk}

theorem State.sectorRead_walks (s : State) (sec tag : Nat) : (s.sectorRead sec tag).ms.walks = s.ms.walks := by
  unfold State.sectorRead
  dsimp only
  repeat' split
  all_goals rfl

/-- R287: a walk's read leaves the walks as they are. -/
theorem State.walkOn_walks (s : State) (served : Bool) (tenant va : Nat) (pos : WalkPos) :
    (s.walkOn served tenant va pos).2.ms.walks = s.ms.walks := by
  unfold State.walkOn
  split
  · rfl
  · dsimp only
    split
    · rfl
    · generalize hr : s.readEntry _ _ = r
      have hwalks : r.2.2.ms.walks = s.ms.walks := by
        rw [← hr]
        exact State.sectorRead_walks ..
      split <;> exact hwalks

theorem exec_translationWalk (hw : (s.ms.walks.filter fun w => !w.faulted)[i]? = some w)
    (ha : ((s.ms.walks.filter fun x => !x.faulted && x.die == w.die).takeWhile fun x => x != w).length < 16) :
    exec (.translationWalk i) s = .next (s.stepWalk w) := by
  have hahead : ¬ 16 ≤ (((s.ms.walks.filter fun w => !w.faulted).filter fun x => x.die == w.die).takeWhile fun x => x != w).length := by
    rw [List.filter_filter]
    simpa only [Bool.and_comm, Nat.not_le] using ha
  change execTranslationWalk i s = _
  simp only [execTranslationWalk, hw, hahead, if_false]

/-- The walks named are over. -/
def State.dropWalks (s : State) (ws : List Walk) : State := s.modMs fun m => { m with walks := m.walks.filter fun y => !ws.contains y }

/-- R294: what a die's TLB takes from a leaf that a walk has found. -/
def Walk.entry (w : Walk) (leaf size pkg : Nat) : Tlb :=
  { die := w.die, tenant := w.tenant, va := w.va / size * size, size := size, leaf := BitVec.ofNat 64 leaf, pkg := pkg }

/-- R294: the walks that a leaf of `size` bytes ends with `w`: those of its page on its die. -/
def State.samePage (s : State) (w : Walk) (size : Nat) : List Walk :=
  s.ms.walks.filter fun y => y == w ||
    (!y.faulted && y.die == w.die && y.tenant == w.tenant && y.va / size * size == w.va / size * size)

theorem State.stepWalk_of_on {pos : WalkPos} (h : (s.walkOn false w.tenant w.va w.pos).1 = .inl pos) :
    s.stepWalk w = (s.walkOn false w.tenant w.va w.pos).2.modMs fun m =>
      { m with walks := m.walks.map fun x => if x == w then { x with pos := pos } else x } := by
  rw [State.stepWalk]
  simp only [h]

theorem State.stepWalk_of_end {e : WalkEnd} (h : (s.walkOn false w.tenant w.va w.pos).1 = .inr e) :
    s.stepWalk w = (s.walkOn false w.tenant w.va w.pos).2.endWalk w e := by
  rw [State.stepWalk]
  simp only [h]

theorem State.stepWalk_of_leaf {leaf size pkg : Nat} (h : (s.walkOn false w.tenant w.va w.pos).1 = .inr (.leaf leaf size pkg)) :
    s.stepWalk w =
      ((s.samePage w size).foldl (fun t y => t.retryStalled y.die y.tenant y.va (w.entry leaf size pkg))
        (((s.walkOn false w.tenant w.va w.pos).2.dropWalks (s.samePage w size)).fillTlb (w.entry leaf size pkg))).pumpDie w.die := by
  rw [State.stepWalk_of_end h, State.endWalk]
  simp only [State.walkOn_walks]
  rfl

end Walks

/-! ## Fault replies (R295, R434) -/

section Replies

variable {s : State} {vf : Nat} {seq : BitVec 32} {r : FaultRec} {w : Walk}

/-- R434: a reply names a record of a function that takes one, and the walk that waits on it. -/
structure State.Replies (s : State) (vf : Nat) (seq : BitVec 32) (r : FaultRec) (w : Walk) : Prop where
  boot : s.plat.boot = .ready
  tdisp : (s.plat.vfs.getD vf {}).tdisp ≠ .error
  record : ((s.plat.vfs.getD vf {}).faults.find? fun r => r.seq == some seq.toNat) = some r
  walk : (s.ms.walks.find? fun w => w.faulted && w.die == r.die && w.tenant + 1 == vf && w.va == r.va) = some w

theorem State.replied_of (h : s.Replies vf seq r w) :
    s.replied vf seq.toNat = some (w, s.modVf vf fun v => { v with faults := v.faults.erase r }) := by
  obtain ⟨hb, ht, hr, hw⟩ := h
  have hopen : (s.plat.boot != .ready || (s.vf vf).tdisp == .error) = false := by
    rw [hb, State.vf, beq_false_of_ne ht]
    rfl
  have hr' : ((s.vf vf).faults.find? fun r => r.seq == some seq.toNat) = some r := hr
  have hw' : ((s.modVf vf fun v => { v with faults := v.faults.erase r }).ms.walks.find? fun w =>
      w.faulted && w.die == r.die && w.tenant + 1 == vf && w.va == r.va) = some w := hw
  simp only [State.replied, hopen, hr', hw', Bool.false_eq_true, if_false, Option.map_some]

theorem exec_fqreplyRetry (h : s.Replies vf seq r w) :
    exec (.fqreplyRetry vf seq) s = .next ((s.modVf vf fun v => { v with faults := v.faults.erase r }).modMs fun m =>
      { m with walks := m.walks.erase w ++ [{ w with faulted := false, pos := {} }] }) := by
  change execFqreplyRetry vf seq s = _
  simp only [execFqreplyRetry, State.replied_of h]

theorem exec_fqreplyAbort (h : s.Replies vf seq r w) :
    exec (.fqreplyAbort vf seq) s = .next (((s.modVf vf fun v => { v with faults := v.faults.erase r }).modMs fun m =>
      { m with walks := m.walks.erase w }).failStalled w.die w.tenant w.va stPageFault) := by
  change execFqreplyAbort vf seq s = _
  simp only [execFqreplyAbort, State.replied_of h]

end Replies

/-! ## Invalidation (R296) -/

section Invalidation

variable {s : State} {tenant va len : Nat}

theorem map_enumL {α β : Type} {f : Nat × α → β} {g : α → β} (h : ∀ x, f x = g x.2) (l : List α) : (enumL l).map f = l.map g := by
  rw [enumL, funext h, ← Function.comp_def g Prod.snd, ← List.map_map, List.map_snd_zip (by simp)]

/-- What an invalidation leaves of a core as it is: frames, tiles and queues. -/
def Core.stores (k : Core) : FrameUnit × TileUnit × TokUnit := (k.frm, k.tile, k.tok)

/-- What an invalidation leaves of a core's engine commands as it is: what they move and how far they are. -/
def Core.progress (k : Core) : List (Nat × List Move × List Move × Nat × Nat) :=
  k.eng.recs.map fun e => (e.idx, e.moves, e.todo, e.pos, e.fail)

theorem State.dropRange_stores : ((s.dropRange tenant va len).cores.map Core.stores) = s.cores.map Core.stores := by
  simp only [State.dropRange, State.mapEngs, State.modMs, List.map_map]
  exact map_enumL (g := Core.stores) (fun _ => rfl) _

theorem State.dropRange_progress : ((s.dropRange tenant va len).cores.map Core.progress) = s.cores.map Core.progress := by
  simp only [State.dropRange, State.mapEngs, State.modMs, List.map_map]
  refine map_enumL (g := Core.progress) (fun x => ?_) _
  simp only [Function.comp, Core.progress, List.map_map]
  rfl

/-- R296: an entry that is not of the range stays. -/
theorem State.mem_dropRange_tlb {e : Tlb} : e ∈ (s.dropRange tenant va len).ms.tlb ↔
    e ∈ s.ms.tlb ∧ ¬ (e.tenant = tenant ∧ e.va < va + len ∧ va < e.va + e.size) := by
  simp only [State.dropRange, State.mapEngs, State.modMs, List.mem_filter, overlap]
  refine and_congr_right fun _ => ?_
  rw [Bool.not_eq_true', Bool.eq_false_iff, Ne, Bool.and_eq_true, Bool.and_eq_true, beq_iff_eq, decide_eq_true_iff, decide_eq_true_iff]

/-- R296: a walk of the range starts anew. -/
theorem State.dropRange_walks {w : Walk} (hw : w ∈ (s.dropRange tenant va len).ms.walks) (hf : w.faulted = false) (ht : w.tenant = tenant)
    (hlo : w.va / 4096 * 4096 < va + len) (hhi : va < w.va / 4096 * 4096 + 4096) : w.pos = {} := by
  obtain ⟨y, -, hy⟩ := List.mem_map.1 hw
  by_cases hit : (!y.faulted && y.tenant == tenant && overlap (y.va / 4096 * 4096) 4096 va len) = true
  · rw [if_pos hit] at hy
    rw [← hy]
  · rw [if_neg hit] at hy
    subst hy
    exact absurd (by simp [hf, ht, overlap, hlo, hhi]) hit

theorem exec_tlbInvalidate_of_quiet (hnew : ∀ x ∈ s.ms.invals, ¬ (x.tenant = tenant ∧ x.va = va ∧ x.len = len))
    (hruns : s.runsIn tenant va len = []) :
    exec (.tlbInvalidate tenant va len) s = .next ((s.dropRange tenant va len).send (.invalidated tenant va len)) := by
  have hsame : ∀ x ∈ s.ms.invals, (x.tenant == tenant && x.va == va && x.len == len) = false := by
    intro x hx
    rw [Bool.eq_false_iff]
    intro h
    exact hnew x hx (by simpa [and_assoc] using h)
  have hfind : (s.ms.invals.find? fun x => x.tenant == tenant && x.va == va && x.len == len) = none :=
    List.find?_eq_none.2 fun x hx => by simp [hsame x hx]
  have hany : (s.ms.invals.any fun x => x.tenant == tenant && x.va == va && x.len == len) = false :=
    List.any_eq_false.2 fun x hx => by simp [hsame x hx]
  have hkeep : (s.ms.invals.filter fun x => !(x.tenant == tenant && x.va == va && x.len == len)) = s.ms.invals :=
    List.filter_eq_self.2 fun x hx => by simp [hsame x hx]
  have hms : ((s.dropRange tenant va len).modMs fun m =>
      { m with invals := m.invals.filter fun x => !(x.tenant == tenant && x.va == va && x.len == len) }) = s.dropRange tenant va len := by
    have hinv : (s.dropRange tenant va len).ms.invals = s.ms.invals := rfl
    rw [State.modMs, hinv, hkeep, ← hinv]
  change execTlbInvalidate tenant va len s = _
  simp only [execTlbInvalidate, hfind, hany, hruns, List.isEmpty_nil, if_true, Bool.false_eq_true, if_false]
  rw [hms]

end Invalidation

/-! ## Migration (R297) -/

theorem exec_pageMigration_of_free {s : State} {tenant va dst leaf entry : Nat} {x : Tenant}
    (hwalk : s.walk tenant va = .leaf leaf (2 ^ 21) 0xFFF) (hten : s.tenant? tenant = some x)
    (hentry : s.leafEntry va 4 x.root = some entry) (hhost : leafHost leaf = false) (halign : dst % 2 ^ 21 = 0)
    (hlocal : s.localOk dst = true)
    (hbetween : (leafAddr leaf < hbmTop ∧ tier2Base ≤ dst) ∨ (dst < hbmTop ∧ tier2Base ≤ leafAddr leaf))
    (hfree : dst ∈ s.ms.freePages) (hnamed : s.pageNamed (leafAddr leaf) = false) (hquiet : s.pageQuiet (leafAddr leaf) = true) :
    exec (.pageMigration tenant va dst) s = .next (s.migrate tenant va leaf entry dst) := by
  have hb : (decide (leafAddr leaf < hbmTop) != decide (dst < hbmTop) &&
      (decide (leafAddr leaf < hbmTop) || decide (tier2Base ≤ leafAddr leaf)) &&
      (decide (dst < hbmTop) || decide (tier2Base ≤ dst)) && s.localOk dst && dst % 2 ^ 21 == 0) = true := by
    have htop : hbmTop ≤ tier2Base := by decide
    have halign' : dst % 2097152 = 0 := halign
    rcases hbetween with ⟨hsrc, hdst⟩ | ⟨hdst, hsrc⟩
    · simp [hsrc, hdst, hlocal, halign', Nat.le_trans htop hdst]
    · simp [hsrc, hdst, hlocal, halign', Nat.le_trans htop hsrc]
  have hbind : (s.tenant? tenant).bind (fun t => s.leafEntry va 4 t.root) = some entry := by rw [hten, Option.bind_some, hentry]
  change execPageMigration tenant va dst s = _
  simp only [execPageMigration, hwalk, hbind, hb, hhost, hnamed, hquiet, List.contains_iff_mem.2 hfree, beq_self_eq_true, Bool.not_false,
    Bool.and_self, if_true]

end Sys2Proof.Machine

namespace Sys2Proof.Claims

open Sys2Proof.Machine

/-- Settles O47: a walk goes on or ends as its entry says, a fault reply walks again or fails the commands, an invalidation with no
open run is complete at once, and a free page migrates. -/
theorem translationService : Obligations.TranslationService := by
  unfold Obligations.TranslationService
  refine ⟨?walks, ?replies, ?invalidation, ?migration⟩
  case walks =>
    intro s i w hw ha u without here
    refine ⟨fun pos h => ?_, fun leaf size pkg h => ?_, fun h => ?_, fun st h => ?_, fun h => ?_⟩
    · rw [exec_translationWalk hw ha, State.stepWalk_of_on h]
    · exact (exec_translationWalk hw ha).trans (congrArg _ (State.stepWalk_of_leaf h))
    · rw [exec_translationWalk hw ha, State.stepWalk_of_end h]
      rfl
    · rw [exec_translationWalk hw ha, State.stepWalk_of_end h]
      rfl
    · rw [exec_translationWalk hw ha, State.stepWalk_of_end h]
      rfl
  case replies =>
    intro s vf seq r w hb ht hr hw
    exact ⟨exec_fqreplyRetry ⟨hb, ht, hr, hw⟩, exec_fqreplyAbort ⟨hb, ht, hr, hw⟩⟩
  case invalidation =>
    intro s tenant va len hnew hruns
    exact ⟨_, exec_tlbInvalidate_of_quiet hnew hruns, fun e => State.mem_dropRange_tlb,
      fun w hw hf ht hlo hhi => State.dropRange_walks hw hf ht hlo hhi, rfl, rfl, rfl, rfl, State.dropRange_stores,
      State.dropRange_progress⟩
  case migration =>
    exact fun s tenant va dst leaf entry x hwalk hten hentry hhost halign hlocal hbetween hfree hnamed hquiet =>
      exec_pageMigration_of_free hwalk hten hentry hhost halign hlocal hbetween hfree hnamed hquiet

end Sys2Proof.Claims
end


section
/-! PROOFS. A step performs the event of its turn, or lets a core select a token, which waits, parks or fires the instruction
decoded from the word at its node (R9, R31, R325, R328, R408). -/

namespace Sys2Proof.Machine

open Sys2Proof.Claims

/-! ## Turns (R9) -/

section Turns

variable {s : State} {ps : Nat} {rest : List Turn}

theorem step_of_event {i : Instr} (h : s.agenda = { ps := ps, act := .event i } :: rest) (he : (encode i).isNone = true)
    (hw : i.wellFormed = true) : step s = exec i ({ s with agenda := rest }.advance ps) := by
  simp only [step, State.turn, h, List.headD_cons, List.tail_cons, State.perform, isEvent, he, hw, Bool.and_self, if_true]

theorem step_of_empty (h : s.agenda = []) : step s = .next (s.advance 1000) := by
  have hs : ({ s with agenda := s.agenda.tail } : State) = s := by
    rw [h, List.tail_nil, ← h]
  rw [step, State.turn, hs, h]
  rfl

theorem step_of_select {core : Nat} {busy : List Nat} (h : s.agenda = { ps := ps, act := .select core busy } :: rest) :
    step s = ({ s with agenda := rest }.advance ps).select core busy := by
  simp only [step, State.turn, h, List.headD_cons, List.tail_cons, State.perform]

end Turns

/-! ## Selection (R325, R440) -/

section Select

variable {s : State} {core : Nat} {busy : List Nat}

theorem State.select_of_none (h : s.pick core busy = none) : s.select core busy = .next s := by
  simp only [State.select, h]

theorem State.select_of_pick {cls : Nat} {q : QTok} (h : s.pick core busy = some (cls, q)) :
    s.select core busy = (s.countFired core).runToken core cls q := by
  simp only [State.select, h]

/-- What is done to the queues of a core leaves its frames as they are. -/
theorem State.frame?_modTok (f : TokUnit → TokUnit) (n : Nat) : (s.modTok core f).frame? core n = s.frame? core n := by
  by_cases hl : core < s.cores.length
  · rw [State.frame?, State.modTok, State.core_modCore_same _ _ _ hl]
    rfl
  · simp [State.frame?, State.core, State.modTok, State.modCore, hl]

theorem State.frame?_countFired (n : Nat) : (s.countFired core).frame? core n = s.frame? core n := by
  unfold State.countFired
  split
  · rfl
  · exact State.frame?_modTok ..

end Select

/-! ## The selected token (R31, R32, R300, R325, R408) -/

section RunToken

variable {s : State} {core cls : Nat} {q : QTok} {f : Frame}

/-- R32: the token has left its queue. -/
def State.dequeue (s : State) (core : Nat) (q : QTok) : State := s.modQueues core fun l => l.erase q

/-- R31, R300: a token's operand position is free, and no token accepted before it for that position waits. -/
def State.portFree (s : State) (core : Nat) (q : QTok) (f : Frame) : Prop :=
  bf (f.slot (s.targetWord core q).slot).pres q.port 1 = 0 ∧ s.earlier core q = false

theorem State.portFree_iff : s.portFree core q f ↔
    (bf (f.slot (s.targetWord core q).slot).pres q.port 1 == 1 || s.earlier core q) = false := by
  rw [State.portFree, Bool.or_eq_false_iff, beq_eq_false_iff_ne]
  refine and_congr_left fun _ => ?_
  simp only [bf]
  omega

theorem State.runToken_of_occupied (hf : s.frame? core q.frame = some f) (har : 2 ≤ (s.targetWord core q).ar)
    (hp : ¬ s.portFree core q f) :
    s.runToken core cls q = .next ((s.dequeue core q).modTok core fun t => t.setFifo cls (t.fifo cls ++ [q])) := by
  rw [State.portFree_iff, Bool.not_eq_false] at hp
  rw [State.runToken]
  simp only [hf, har, hp, decide_true, Bool.and_self, if_true]
  rfl

theorem State.runToken_of_incomplete (hf : s.frame? core q.frame = some f) (har : 2 ≤ (s.targetWord core q).ar)
    (hp : s.portFree core q f)
    (hc : completes (s.targetWord core q).ar (f.slot (s.targetWord core q).slot).pres q.port = false) :
    s.runToken core cls q =
      .next (((s.dequeue core q).park core q (s.targetWord core q).slot).perfCtx f.ctx 0x01 1) := by
  rw [State.portFree_iff] at hp
  rw [State.runToken]
  simp only [hf, har, hp, hc, decide_true, Bool.and_false, Bool.not_false, Bool.and_self, Bool.false_eq_true, if_false, if_true]
  rfl

/-- R408: the words that a firing reads. -/
def State.codeRead (s : State) (core : Nat) (q : QTok) : List Nat :=
  State.wordsRead (s.core core) q (s.targetWord core q) (s.operands core q (s.targetWord core q).ar (s.targetWord core q).slot)

/-- R408: a firing's token has left its queue, and the corrected errors of the words read are counted. -/
def State.fetched (s : State) (core : Nat) (q : QTok) : State :=
  (s.dequeue core q).countErrs (dieOf core)
    ((s.codeRead core q).filter fun k => (s.core core).codeCe.contains k && !(s.core core).codeUe.contains k).length 0

/-- R31: a token fires: it is alone, or its position is free and it completes the match. -/
def State.fires (s : State) (core : Nat) (q : QTok) (f : Frame) : Prop :=
  (s.targetWord core q).ar ≤ 1 ∨
    (s.portFree core q f ∧ completes (s.targetWord core q).ar (f.slot (s.targetWord core q).slot).pres q.port = true)

theorem State.runToken_of_fires {i : Instr} (hf : s.frame? core q.frame = some f) (hfire : s.fires core q f)
    (hue : ∀ k ∈ s.codeRead core q, k ∉ (s.core core).codeUe)
    (hi : decodeWord ((s.core core).word q.cslot q.block q.instr) = .ok i) :
    s.runToken core cls q = exec i ((s.fetched core q).startFiring core cls q (s.targetWord core q)) := by
  have hwait : (decide (2 ≤ (s.targetWord core q).ar) &&
      (bf (f.slot (s.targetWord core q).slot).pres q.port 1 == 1 || s.earlier core q)) = false := by
    rcases hfire with har | ⟨hp, -⟩
    · rw [decide_eq_false (by omega), Bool.false_and]
    · rw [State.portFree_iff.1 hp, Bool.and_false]
  have hpark : (decide (2 ≤ (s.targetWord core q).ar) &&
      !completes (s.targetWord core q).ar (f.slot (s.targetWord core q).slot).pres q.port) = false := by
    rcases hfire with har | ⟨-, hc⟩
    · rw [decide_eq_false (by omega), Bool.false_and]
    · rw [hc, Bool.not_true, Bool.and_false]
  have hread : ((s.codeRead core q).find? fun k => (s.core core).codeUe.contains k) = none :=
    List.find?_eq_none.2 fun k hk => by simpa using hue k hk
  rw [State.codeRead] at hread
  rw [State.runToken]
  simp only [hf, hwait, hpark, hread, hi, Bool.false_eq_true, if_false]
  rfl

theorem State.frame?_fetched (n : Nat) : (s.fetched core q).frame? core n = s.frame? core n := by
  rw [State.frame?, State.fetched, State.core_countErrs]
  exact State.frame?_modTok ..

/-- R23, R96: what a firing reads. -/
theorem State.startFiring_cur {w : Fields} (hf : s.frame? core q.frame = some f) :
    let t := s.startFiring core cls q w
    t.cur.site.core = core ∧ t.cur.site.frame = q.frame ∧ t.cur.site.node = q.instr ∧
      t.cur.l = operandAt (s.operands core q w.ar w.slot) 0 ∧ t.cur.r = operandAt (s.operands core q w.ar w.slot) 1 ∧
      t.cur.c = operandAt (s.operands core q w.ar w.slot) 2 := by
  rw [State.startFiring]
  simp only [hf, and_self]

end RunToken

end Sys2Proof.Machine

namespace Sys2Proof.Claims

open Sys2Proof.Machine

/-- Settles O56: an event's turn runs exec, an empty agenda lets 1 ns pass, and a selected token waits, parks, or fires the
instruction that its node's word decodes to. -/
theorem stepRunsTheDecodedInstruction : Obligations.StepRunsTheDecodedInstruction := by
  unfold Obligations.StepRunsTheDecodedInstruction
  refine ⟨fun s ps i rest h he hw => step_of_event h he hw, fun s h => step_of_empty h, ?_⟩
  intro s ps core busy rest h u
  refine ⟨fun hp => (step_of_select h).trans (State.select_of_none hp), ?_⟩
  intro cls q f hp hu n w pres v free
  have hf : n.frame? core q.frame = some f := (State.frame?_countFired q.frame).trans hu
  have hstep : step s = n.runToken core cls q := (step_of_select h).trans (State.select_of_pick hp)
  refine ⟨fun har hfree => ?_, fun har hfree hc => ?_, ?_⟩
  · exact hstep.trans (State.runToken_of_occupied hf har hfree)
  · exact hstep.trans (State.runToken_of_incomplete hf har hfree hc)
  · intro read x hfire hue i hi t
    exact ⟨hstep.trans (State.runToken_of_fires hf hfire hue hi), State.startFiring_cur ((State.frame?_fetched q.frame).trans hf)⟩

end Sys2Proof.Claims
end
